-- ==== Sys2Proof/Word.lean ====
section
/-! DEFINITION. The word types of the Lyritrix Jenmir J8 (R8, R56, R57). -/

namespace Sys2Proof

/-- A byte, the smallest addressable unit (R11). -/
abbrev Byte := BitVec 8
/-- A 16-bit element. -/
abbrev W16 := BitVec 16
/-- A 32-bit lane, slot or accumulator element. -/
abbrev W32 := BitVec 32
/-- A 64-bit register or address. -/
abbrev W64 := BitVec 64

end Sys2Proof
end

