-- ==== Sys2Proof/Machine/Terms.lean ====
section
/-! DEFINITION. The plain data that the event rows of the opcode table carry: packets, control-path writes and
tenant configurations. An event is something an engine, a port, a package function or the outside world does. -/

namespace Sys2Proof.Machine

/-- Packet types of the header flit (R122). -/
inductive PType where
  | write | readRequest | readResponse | atomic | atomicResponse | reduceStore | flag | transferAck | exchangeData | unreachable
deriving DecidableEq, Repr

/-- What an exchange, walker or ROUTE packet names beside the fields of R122 (R268, R277, R279). The header's layout of
these values is not given, so they stand here by name (DESIGN CHOICE, log 8). -/
inductive PMeta where
  | none
  /-- READY of a receive half: queue, match number, length, receive address (R268). -/
  | ready (q : Nat) (m : W32) (len : Nat) (addr : Nat)
  /-- ABORT of match m with a status; `toSend` says that it goes to the send half (R268, R270, R275). -/
  | abort (q : Nat) (m : W32) (toSend : Bool) (status : Byte)
  /-- Exchange data of match m at a byte offset of the receive buffer; `last` marks the final packet (R268). -/
  | exch (q : Nat) (m : W32) (off : Nat) (last : Bool)
  /-- A walker transfer, under the sender's TLW number, with the transfer's index in the command and the packet's place in it;
  `last` marks its final packet (R277, R95). -/
  | walker (num idx off : Nat) (last : Bool)
  /-- Part of a row sent by ROUTE to a row queue: its place in the row, and the row's length (R122, R279). -/
  | row (queue off len : Nat)
deriving DecidableEq, Repr

/-- What a detour packet carries around its inner packet (R129): dead dimension d, detour dimension e and hop index of the
outer header; the LSEQ of the dead link, which the inner header keeps; NCTR of the inner seal and the outcome of its tag
check; and the sealed inner packet, which transit dies pass on as it is. -/
structure Detour where
  d : Nat
  e : Nat
  hop : Nat
  lseq : W32
  nctr : Nat
  body : List Byte
  tagOk : Bool
deriving DecidableEq, Repr

/-- A Tchiano packet (R122), by the fields of its header. `outer` marks one that is the data of a detour packet; `lseq` and
`nctr` are then the outer header's. `guy` marks one that has left a detour (R130), beside the header, which has no field for it
(DESIGN CHOICE, log 8); `tagOk` is the outcome of the tag check of R126. -/
structure Packet where
  lseq : W32
  ptype : PType
  dst : BitVec 13
  src : BitVec 13
  job : W32
  rseq : W32
  eng : BitVec 4
  op : Byte
  /-- ADDR [63] and [47:0] -/
  dram : Bool
  addr : BitVec 48
  len : Nat
  /-- transfer identifier, by which an answer finds its command -/
  xid : W16
  imm : W64
  payload : List Byte
  info : PMeta
  nctr : Nat
  outer : Option Detour
  guy : Bool
  /-- the port whose receive buffer holds it, when that is not the port of the list in which it stands (R113, R129) -/
  held : Option Nat
  tagOk : Bool
deriving DecidableEq, Repr

/-- A unit that begins commands (R140, R247, R269). -/
inductive EngUnit where
  | ce (i : Nat) | xe (i : Nat) | walker | chain | me (i : Nat)
deriving DecidableEq, Repr

/-- What another die of the job reports to the package scheduler (R168, R155, R330, R344), with the buddy points whose image
is complete in its own slots and in the slots that its dimension-0 neighbour hosts for it (R345, R346). -/
structure PeerReport where
  coord : BitVec 13
  ended : Bool
  endedByEnd : Bool
  frozen : Bool
  stopped : Bool
  longWait : Bool
  bpcnt : W64
  points : List W64
  hosted : List W64
deriving DecidableEq, Repr

/-- An HDM decoder (R356): host base and size, die position and DRAM offset. -/
structure HdmRange where
  base : Nat
  size : Nat
  die : Nat
  off : Nat
deriving DecidableEq, Repr

/-- A write over the control path to a register that has no row of its own (R15, R32, R55, R133, R173, R361). -/
inductive CtlWrite where
  | codelim (v : BitVec 20) | lsdmask (v : BitVec 13) | scmask (v : BitVec 13) | scbase (v : BitVec 13)
  | diecoord (v : BitVec 13) | jobid (v : W32) | rshwb (v : BitVec 36) | cecntClear | lkerrClear (d : Nat)
  | guydim (d : Nat) (v : Byte) | enrate (v : W32) | encap (v : W64) | discrdClear
  | evbase (t : Nat) (v : W64) | evlog (t : Nat) (v : BitVec 5) | pgansWord0 (t : Nat) (v : W64)
  /-- QBASE and QLOG as tenant `t` writes them to queue `q` (R357, R361) -/
  | qbase (t q : Nat) (v : W64) | qlog (t q : Nat) (v : BitVec 5) | ageq (cycles : Nat)
  | peer (r : PeerReport)
  /-- a sealed buddy image of the dimension-0 neighbour arrives in a hosting slot of this die: its point and bytes (R345) -/
  | hostImage (point : W64) (bytes : List Byte)
  /-- this die's sealed buddy image of a point is complete in the neighbour's hosting slot (R345) -/
  | hostedAt (point : W64)
  /-- a read of a control-window address, answered to the reader (R15) -/
  | read (addr : W64)
  /-- tenant `t` reads its VF's BAR0 at an offset (R357) -/
  | hostRead (t off : Nat)
  /-- management programs an HDM decoder (R356) -/
  | hdm (r : HdmRange)
  /-- another die of the package, at a position, has been reset (R366) -/
  | dieReset (p : Nat)
  /-- what the two links of a guyline away from this die report: both are UP (R130) -/
  | farLinks (d : Nat) (up : Bool)
  /-- an address of the control window, outside every region or in a read-only region: ignored (R15) -/
  | other (addr : W64) (v : W64)
deriving DecidableEq, Repr

/-- A host aperture: base and size in bytes; size 0 is unused (R359). -/
structure Aperture where
  base : Nat
  size : Nat
deriving DecidableEq, Repr

/-- A tenant's configuration as management writes it (R359). -/
structure TenantCfg where
  grant : Byte
  qmask : W64
  aper : List Aperture
  dumpa : Aperture
  pol4 : BitVec 2
  endef : Nat
  susp : Bool
deriving DecidableEq, Repr

/-- A host access to package DRAM through CXL.mem: host address, and the bytes written (none for a read of `len` bytes)
(R148, R356). -/
structure CxlAccess where
  addr : Nat
  len : Nat
  data : Option (List Byte)
deriving DecidableEq, Repr

/-- What an event row of the opcode table brings with it: the data of the agent that acts. An event whose row needs
another kind of data than it is given does not occur. -/
inductive EvArg where
  | none
  /-- an index, a job, a queue, a tenant, a port or a temperature, as the row says -/
  | nat (n : Nat)
  /-- two indices: engine and number, context and number, queue and number, word and bit -/
  | two (a b : Nat)
  /-- array code, unit, address, words corrected, found by the scrubber (R50, R51) -/
  | ecc (arr : BitVec 4) (unit : BitVec 6) (addr : W64) (words : Nat) (scrub : Bool)
  /-- window-table index and both words (R16) -/
  | wtab (idx : BitVec 11) (w0 w1 : W64)
  /-- code-store offset and bytes (R15) -/
  | code (off : Nat) (bytes : List Byte)
  | ctl (w : CtlWrite)
  | eng (u : EngUnit)
  /-- tenant and both words of PGANS (R103) -/
  | pgans (t : Nat) (w0 w1 : W64)
  /-- a packet on the port of a dimension (R122) -/
  | pkt (d : Nat) (p : Packet)
  /-- a packet in the receive buffer of a port, on a virtual channel (R113, R123) -/
  | rx (d vc : Nat)
  /-- a control frame with an LSEQ for the link of dimension `d`, which came in on port `via`: on a guyline its detour dimension
  and hop index; its NCTR and the outcome of its tag check (R124, R126, R131) -/
  | lack (d via : Nat) (guy : Option (Nat × Nat)) (lseq : W32) (nctr : Nat) (tagOk : Bool)
  /-- the neighbour's PARK, or its PARKACK with its counts, for the link of dimension `d` (R339), which came in as `lack` says -/
  | park (d via : Nat) (guy : Option (Nat × Nat)) (lsent lackd lacc : W32) (nctr : Nat) (tagOk : Bool)
  /-- the neighbour of a parked link trains it: for its own job's resume, after which it sends RESYNC, or for another job (R340) -/
  | trains (d : Nat) (otherJob : Bool)
  /-- the counts of a neighbour's RESYNC for the link of dimension `d` (R340), which came in as `lack` says -/
  | resync (d via : Nat) (guy : Option (Nat × Nat)) (lsent lacc : W32) (nctr : Nat) (tagOk : Bool)
  /-- the other end's rekey of the link key or the detour key of dimension `d` (R127), which came in as `lack` says -/
  | rekey (d via : Nat) (guy : Option (Nat × Nat)) (detour : Bool) (nctr : Nat) (tagOk : Bool)
  /-- tenant, queue and value (R361) -/
  | qtail (t q : Nat) (v : W32)
  /-- tenant, and the queue that asked, if one did (R365) -/
  | resetT (t : Nat) (q : Option Nat)
  /-- tenant and value (R355) -/
  | reg (t : Nat) (v : W32)
  | tcfg (t : Nat) (cfg : TenantCfg)
  | bytes (bs : List Byte)
  | cxl (acc : CxlAccess)
deriving DecidableEq, Repr

end Sys2Proof.Machine
end

