-- ==== Sys2Proof/Syntax.lean ====
section
/-! DEFINITION. The instructions: one constructor for each row of spec/opcode_table.json.

Slot and header rows carry the fields of their encoding (R177, R180, R209, R211, R213, R216), under the letters of the
table; `g` is the guard. An immediate or offset is the 18-bit value of R181, sign-extended from bit 9 when the bundle has
no extension header; `c` is the register C that the extension byte supplies. Event rows come last and have no fields:
what their agent brings stands in the state (Machine/State.lean, `arg`). -/

namespace Sys2Proof

open Sys2Proof.Machine

/-- One row of the opcode table. -/
inductive Instr where
  /-- EXT (R180): The extension header supplies extension bytes to slots S1 to S3. -/
  | extHdr (z y x : BitVec 8)
  /-- REPEAT (R182): The repeat prefix issues the bundle's matrix slot CNT + 1 times, advancing AX and AY. -/
  | repeatPfx (c : BitVec 12) (x y : BitVec 4) (v w : BitVec 1)
  /-- LBMARK (R184): The loop-buffer mark captures a body of LEN + 1 bundles, and its PRE bit marks the loop as pre-emptible. -/
  | lbmark (l : BitVec 6) (p : BitVec 1)
  /-- NOP (R176): Does nothing and uses no port. -/
  | nop (g : BitVec 4)
  /-- ADD (R203): D := A + B. -/
  | add (g : BitVec 4) (d a b : BitVec 5)
  /-- SUB (R203): D := A − B. -/
  | sub (g : BitVec 4) (d a b : BitVec 5)
  /-- AND (R203): D := A and B. -/
  | and (g : BitVec 4) (d a b : BitVec 5)
  /-- OR (R203): D := A or B. -/
  | or (g : BitVec 4) (d a b : BitVec 5)
  /-- XOR (R203): D := A xor B. -/
  | xor (g : BitVec 4) (d a b : BitVec 5)
  /-- ANDN (R203): D := A and not B. -/
  | andn (g : BitVec 4) (d a b : BitVec 5)
  /-- SHL (R203): Shifts A left by B[5:0], zero-filled. -/
  | shl (g : BitVec 4) (d a b : BitVec 5)
  /-- SHR (R203): Shifts A right by B[5:0], zero-filled. -/
  | shr (g : BitVec 4) (d a b : BitVec 5)
  /-- SAR (R203): Shifts A right by B[5:0], sign-filled. -/
  | sar (g : BitVec 4) (d a b : BitVec 5)
  /-- ROR (R203): Rotates A right by B[5:0]. -/
  | ror (g : BitVec 4) (d a b : BitVec 5)
  /-- MIN (R203): Signed minimum of A and B. -/
  | min (g : BitVec 4) (d a b : BitVec 5)
  /-- MIN_N (R203): Unsigned minimum of A and B. -/
  | minN (g : BitVec 4) (d a b : BitVec 5)
  /-- MAX (R203): Signed maximum of A and B. -/
  | max (g : BitVec 4) (d a b : BitVec 5)
  /-- MAX_N (R203): Unsigned maximum of A and B. -/
  | maxN (g : BitVec 4) (d a b : BitVec 5)
  /-- MUL (R203): Low 64 bits of A × B. -/
  | mul (g : BitVec 4) (d a b : BitVec 5)
  /-- MULH (R203): High 64 bits of the signed product. -/
  | mulh (g : BitVec 4) (d a b : BitVec 5)
  /-- MULH_N (R203): High 64 bits of the unsigned product. -/
  | mulhN (g : BitVec 4) (d a b : BitVec 5)
  /-- MADD (R203): Low 64 bits of A × B + C, with C taken from the extension byte. -/
  | madd (g : BitVec 4) (d a b c : BitVec 5)
  /-- DIV (R203): Signed quotient, by div_rem. -/
  | div (g : BitVec 4) (d a b : BitVec 5)
  /-- DIV_N (R203): Unsigned quotient, by div_rem. -/
  | divN (g : BitVec 4) (d a b : BitVec 5)
  /-- REM (R203): Signed remainder, by div_rem. -/
  | rem (g : BitVec 4) (d a b : BitVec 5)
  /-- REM_N (R203): Unsigned remainder, by div_rem. -/
  | remN (g : BitVec 4) (d a b : BitVec 5)
  /-- SEXT_B (R203): Sign-extends A[7:0]. -/
  | sextB (g : BitVec 4) (d a : BitVec 5)
  /-- SEXT_H (R203): Sign-extends A[15:0]. -/
  | sextH (g : BitVec 4) (d a : BitVec 5)
  /-- SEXT_W (R203): Sign-extends A[31:0]. -/
  | sextW (g : BitVec 4) (d a : BitVec 5)
  /-- ZEXT_B (R203): Zero-extends A[7:0]. -/
  | zextB (g : BitVec 4) (d a : BitVec 5)
  /-- ZEXT_H (R203): Zero-extends A[15:0]. -/
  | zextH (g : BitVec 4) (d a : BitVec 5)
  /-- ZEXT_W (R203): Zero-extends A[31:0]. -/
  | zextW (g : BitVec 4) (d a : BitVec 5)
  /-- POPC (R203): Number of set bits of A. -/
  | popc (g : BitVec 4) (d a : BitVec 5)
  /-- CLZ (R203): Number of leading zeros of A. -/
  | clz (g : BitVec 4) (d a : BitVec 5)
  /-- CTZ (R203): Number of trailing zeros of A. -/
  | ctz (g : BitVec 4) (d a : BitVec 5)
  /-- ADDI (R204): D := A + imm. -/
  | addi (g : BitVec 4) (d a : BitVec 5) (imm : BitVec 18)
  /-- ANDI (R204): D := A and imm. -/
  | andi (g : BitVec 4) (d a : BitVec 5) (imm : BitVec 18)
  /-- ORI (R204): D := A or imm. -/
  | ori (g : BitVec 4) (d a : BitVec 5) (imm : BitVec 18)
  /-- XORI (R204): D := A xor imm. -/
  | xori (g : BitVec 4) (d a : BitVec 5) (imm : BitVec 18)
  /-- SHLI (R204): Shifts A left by imm. -/
  | shli (g : BitVec 4) (d a : BitVec 5) (imm : BitVec 18)
  /-- SHRI (R204): Shifts A right by imm, zero-filled. -/
  | shri (g : BitVec 4) (d a : BitVec 5) (imm : BitVec 18)
  /-- SARI (R204): Shifts A right by imm, sign-filled. -/
  | sari (g : BitVec 4) (d a : BitVec 5) (imm : BitVec 18)
  /-- SHORI (R204): D := (A << 18) or the 18-bit immediate. -/
  | shori (g : BitVec 4) (d a : BitVec 5) (imm : BitVec 18)
  /-- ADDA (R205): aD := aA + (sB << m). -/
  | adda (g : BitVec 4) (d a b : BitVec 5) (m : BitVec 3)
  /-- MOV_A_S (R205): aD := sA. -/
  | movAS (g : BitVec 4) (d a : BitVec 5)
  /-- MOV_S_A (R205): sD := aA. -/
  | movSA (g : BitVec 4) (d a : BitVec 5)
  /-- MOV_N_S (R205): nD := sA. -/
  | movNS (g : BitVec 4) (d a : BitVec 5)
  /-- MOV_S_N (R205): sD := nA. -/
  | movSN (g : BitVec 4) (d a : BitVec 5)
  /-- MOV_E_S (R205): eD := sA; a command in a later bundle reads the new value. -/
  | movES (g : BitVec 4) (d a : BitVec 5)
  /-- MOV_S_E (R205): sD := eA. -/
  | movSE (g : BitVec 4) (d a : BitVec 5)
  /-- MOV_TO_CONTROL (R206): Writes sA into a control register at the end of the cycle, checked against the register's bits and limits. -/
  | movToControl (g : BitVec 4) (x a y : BitVec 5)
  /-- MOV_FROM_CONTROL (R206): sD := the control register, zero-extended. -/
  | movFromControl (g : BitVec 4) (d x y : BitVec 5)
  /-- MOV_G_S (R205): gD := 1 if sA ≠ 0, else 0. -/
  | movGS (g : BitVec 4) (d a : BitVec 5)
  /-- MOV_S_G (R205): sD := gA. -/
  | movSG (g : BitVec 4) (d a : BitVec 5)
  /-- GGET (R205): sD[15:0] := g15 to g0. -/
  | gget (g : BitVec 4) (d : BitVec 5)
  /-- GSET (R205): g2 to g15 := sA[2] to sA[15]. -/
  | gset (g : BitVec 4) (a : BitVec 5)
  /-- CMP_EQ (R208): gG := A = B, and gG+1 := the negation. -/
  | cmpEq (g h : BitVec 4) (a b : BitVec 5)
  /-- CMP_EQ_IMM (R208): Compares for equality against an immediate into a guard pair. -/
  | cmpEqImm (g h : BitVec 4) (a : BitVec 5) (imm : BitVec 18)
  /-- CMP_LT (R208): Signed less-than into a guard pair. -/
  | cmpLt (g h : BitVec 4) (a b : BitVec 5)
  /-- CMP_LT_IMM (R208): Signed less-than against an immediate into a guard pair. -/
  | cmpLtImm (g h : BitVec 4) (a : BitVec 5) (imm : BitVec 18)
  /-- CMP_LE (R208): Signed less-or-equal into a guard pair. -/
  | cmpLe (g h : BitVec 4) (a b : BitVec 5)
  /-- CMP_LE_IMM (R208): Signed less-or-equal against an immediate into a guard pair. -/
  | cmpLeImm (g h : BitVec 4) (a : BitVec 5) (imm : BitVec 18)
  /-- CMP_LTN (R208): Unsigned less-than into a guard pair. -/
  | cmpLtn (g h : BitVec 4) (a b : BitVec 5)
  /-- CMP_LTN_IMM (R208): Unsigned less-than against an immediate into a guard pair. -/
  | cmpLtnImm (g h : BitVec 4) (a : BitVec 5) (imm : BitVec 18)
  /-- CMP_LEN (R208): Unsigned less-or-equal into a guard pair. -/
  | cmpLen (g h : BitVec 4) (a b : BitVec 5)
  /-- CMP_LEN_IMM (R208): Unsigned less-or-equal against an immediate into a guard pair. -/
  | cmpLenImm (g h : BitVec 4) (a : BitVec 5) (imm : BitVec 18)
  /-- CMP_TST (R208): gG := (A and B) ≠ 0, and gG+1 := the negation. -/
  | cmpTst (g h : BitVec 4) (a b : BitVec 5)
  /-- CMP_TST_IMM (R208): Tests A against an immediate mask into a guard pair. -/
  | cmpTstImm (g h : BitVec 4) (a : BitVec 5) (imm : BitVec 18)
  /-- BR_T (R209): Branches to P + 16 × OFF, with a taken hint. -/
  | brT (g : BitVec 4) (o : BitVec 19)
  /-- BR_NT (R209): Branches to P + 16 × OFF, with a not-taken hint. -/
  | brNt (g : BitVec 4) (o : BitVec 19)
  /-- CALL (R209): s31 := P + 16, pushes the return-address stack and branches. -/
  | call (g : BitVec 4) (o : BitVec 19)
  /-- BRI (R209): Branches to sA with bits [3:0] cleared. -/
  | bri (g : BitVec 4) (a : BitVec 5)
  /-- RET (R209): Pops the return-address stack and branches to sA. -/
  | ret (g : BitVec 4) (a : BitVec 5)
  /-- LOOP (R211): Sets up a hardware loop over a body with the trip count in sA, or skips the body when the count is 0. -/
  | loop (g : BitVec 4) (l : BitVec 2) (e : BitVec 10) (a : BitVec 5)
  /-- WAIT (R216): Stalls until the outstanding counters are at or below their limits. -/
  | wait (g l s c t : BitVec 4)
  /-- WAITT (R217): Stalls until a timeline counter reaches sA; a timeline acquire when it issues. -/
  | waitt (g c : BitVec 4) (a : BitVec 5)
  /-- FENCE (R137): Stalls until OCLD and OCST are zero, and orders later accesses and commands after earlier ones. -/
  | fence (g : BitVec 4)
  /-- LPOFF (R213): Makes loop L inactive and leaves its counter unchanged. -/
  | lpoff (g : BitVec 4) (l : BitVec 2)
  /-- LD_B (R219): Loads a byte, zero-extended. -/
  | ldB (g : BitVec 4) (d : BitVec 5) (a : BitVec 4) (u : BitVec 1) (off : BitVec 18)
  /-- LD_H (R219): Loads 2 bytes, zero-extended. -/
  | ldH (g : BitVec 4) (d : BitVec 5) (a : BitVec 4) (u : BitVec 1) (off : BitVec 18)
  /-- LD_W (R219): Loads 4 bytes, zero-extended. -/
  | ldW (g : BitVec 4) (d : BitVec 5) (a : BitVec 4) (u : BitVec 1) (off : BitVec 18)
  /-- LD_D (R219): Loads 8 bytes. -/
  | ldD (g : BitVec 4) (d : BitVec 5) (a : BitVec 4) (u : BitVec 1) (off : BitVec 18)
  /-- ST_B (R219): Stores a byte. -/
  | stB (g : BitVec 4) (d : BitVec 5) (a : BitVec 4) (u : BitVec 1) (off : BitVec 18)
  /-- ST_H (R219): Stores 2 bytes. -/
  | stH (g : BitVec 4) (d : BitVec 5) (a : BitVec 4) (u : BitVec 1) (off : BitVec 18)
  /-- ST_W (R219): Stores 4 bytes. -/
  | stW (g : BitVec 4) (d : BitVec 5) (a : BitVec 4) (u : BitVec 1) (off : BitVec 18)
  /-- ST_D (R219): Stores 8 bytes. -/
  | stD (g : BitVec 4) (d : BitVec 5) (a : BitVec 4) (u : BitVec 1) (off : BitVec 18)
  /-- ATM_W (R222): A 4-byte indivisible read-modify-write selected by AOP, returning the old value. -/
  | atmW (g : BitVec 4) (d : BitVec 5) (a : BitVec 4) (u : BitVec 1) (p : BitVec 4) (o : BitVec 6)
  /-- ATM_D (R222): An 8-byte indivisible read-modify-write selected by AOP, returning the old value. -/
  | atmD (g : BitVec 4) (d : BitVec 5) (a : BitVec 4) (u : BitVec 1) (p : BitVec 4) (o : BitVec 6)
  /-- VAND (R225): Lane-wise and. -/
  | vand (g : BitVec 4) (d a b : BitVec 5) (k : BitVec 3)
  /-- VOR (R225): Lane-wise or. -/
  | vor (g : BitVec 4) (d a b : BitVec 5) (k : BitVec 3)
  /-- VXOR (R225): Lane-wise xor. -/
  | vxor (g : BitVec 4) (d a b : BitVec 5) (k : BitVec 3)
  /-- VANDN (R225): Lane-wise and-not. -/
  | vandn (g : BitVec 4) (d a b : BitVec 5) (k : BitVec 3)
  /-- VADD_I32 (R225): 32-bit wrapping add. -/
  | vaddI32 (g : BitVec 4) (d a b : BitVec 5) (k : BitVec 3)
  /-- VSUB_I32 (R225): 32-bit wrapping subtract. -/
  | vsubI32 (g : BitVec 4) (d a b : BitVec 5) (k : BitVec 3)
  /-- VMUL_I32 (R225): Low 32 bits of the product. -/
  | vmulI32 (g : BitVec 4) (d a b : BitVec 5) (k : BitVec 3)
  /-- VADD_I16 (R225): 16-bit wrapping add. -/
  | vaddI16 (g : BitVec 4) (d a b : BitVec 5) (k : BitVec 3)
  /-- VSUB_I16 (R225): 16-bit wrapping subtract. -/
  | vsubI16 (g : BitVec 4) (d a b : BitVec 5) (k : BitVec 3)
  /-- VADDS_I16 (R225): 16-bit saturating add. -/
  | vaddsI16 (g : BitVec 4) (d a b : BitVec 5) (k : BitVec 3)
  /-- VSUBS_I16 (R225): 16-bit saturating subtract. -/
  | vsubsI16 (g : BitVec 4) (d a b : BitVec 5) (k : BitVec 3)
  /-- VADD_I8 (R225): 8-bit wrapping add. -/
  | vaddI8 (g : BitVec 4) (d a b : BitVec 5) (k : BitVec 3)
  /-- VSUB_I8 (R225): 8-bit wrapping subtract. -/
  | vsubI8 (g : BitVec 4) (d a b : BitVec 5) (k : BitVec 3)
  /-- VADDS_I8 (R225): 8-bit saturating add. -/
  | vaddsI8 (g : BitVec 4) (d a b : BitVec 5) (k : BitVec 3)
  /-- VSUBS_I8 (R225): 8-bit saturating subtract. -/
  | vsubsI8 (g : BitVec 4) (d a b : BitVec 5) (k : BitVec 3)
  /-- VMIN_I32 (R225): Signed 32-bit minimum. -/
  | vminI32 (g : BitVec 4) (d a b : BitVec 5) (k : BitVec 3)
  /-- VMAX_I32 (R225): Signed 32-bit maximum. -/
  | vmaxI32 (g : BitVec 4) (d a b : BitVec 5) (k : BitVec 3)
  /-- VMIN_N32 (R225): Unsigned 32-bit minimum. -/
  | vminN32 (g : BitVec 4) (d a b : BitVec 5) (k : BitVec 3)
  /-- VMAX_N32 (R225): Unsigned 32-bit maximum. -/
  | vmaxN32 (g : BitVec 4) (d a b : BitVec 5) (k : BitVec 3)
  /-- VSHL_I32 (R225): Shift left by B[4:0]. -/
  | vshlI32 (g : BitVec 4) (d a b : BitVec 5) (k : BitVec 3)
  /-- VSHR_N32 (R225): Logical shift right by B[4:0]. -/
  | vshrN32 (g : BitVec 4) (d a b : BitVec 5) (k : BitVec 3)
  /-- VSAR_I32 (R225): Arithmetic shift right by B[4:0]. -/
  | vsarI32 (g : BitVec 4) (d a b : BitVec 5) (k : BitVec 3)
  /-- VDOT4_I8 (R226): C plus the signed 4-byte dot product (revision 2). -/
  | vdot4I8 (g : BitVec 4) (d a b : BitVec 5) (k : BitVec 3) (c : BitVec 5)
  /-- VDOT4_N8 (R226): C plus the unsigned 4-byte dot product (revision 2). -/
  | vdot4N8 (g : BitVec 4) (d a b : BitVec 5) (k : BitVec 3) (c : BitVec 5)
  /-- VDOT2_I16 (R226): C plus the signed 2-half dot product (revision 2). -/
  | vdot2I16 (g : BitVec 4) (d a b : BitVec 5) (k : BitVec 3) (c : BitVec 5)
  /-- VDOT2_N16 (R226): C plus the unsigned 2-half dot product (revision 2). -/
  | vdot2N16 (g : BitVec 4) (d a b : BitVec 5) (k : BitVec 3) (c : BitVec 5)
  /-- VADD_F32 (R228): f32 add by fp_arith. -/
  | vaddF32 (g : BitVec 4) (d a b : BitVec 5) (k : BitVec 3)
  /-- VSUB_F32 (R228): f32 subtract. -/
  | vsubF32 (g : BitVec 4) (d a b : BitVec 5) (k : BitVec 3)
  /-- VMUL_F32 (R228): f32 multiply. -/
  | vmulF32 (g : BitVec 4) (d a b : BitVec 5) (k : BitVec 3)
  /-- VFMA_F32 (R228): f32 A × B + C with one rounding. -/
  | vfmaF32 (g : BitVec 4) (d a b : BitVec 5) (k : BitVec 3) (c : BitVec 5)
  /-- VFMS_F32 (R228): f32 A × B − C with one rounding. -/
  | vfmsF32 (g : BitVec 4) (d a b : BitVec 5) (k : BitVec 3) (c : BitVec 5)
  /-- VMIN_F32 (R228): f32 minimum, with −0 below +0. -/
  | vminF32 (g : BitVec 4) (d a b : BitVec 5) (k : BitVec 3)
  /-- VMAX_F32 (R228): f32 maximum. -/
  | vmaxF32 (g : BitVec 4) (d a b : BitVec 5) (k : BitVec 3)
  /-- VSUB_BF16 (R228): bf16 subtract. -/
  | vsubBf16 (g : BitVec 4) (d a b : BitVec 5) (k : BitVec 3)
  /-- VADD_BF16 (R228): bf16 add. -/
  | vaddBf16 (g : BitVec 4) (d a b : BitVec 5) (k : BitVec 3)
  /-- VMUL_BF16 (R228): bf16 multiply. -/
  | vmulBf16 (g : BitVec 4) (d a b : BitVec 5) (k : BitVec 3)
  /-- VFMA_BF16 (R228): bf16 fused multiply-add. -/
  | vfmaBf16 (g : BitVec 4) (d a b : BitVec 5) (k : BitVec 3) (c : BitVec 5)
  /-- VADD_F16 (R228): f16 add. -/
  | vaddF16 (g : BitVec 4) (d a b : BitVec 5) (k : BitVec 3)
  /-- VMUL_F16 (R228): f16 multiply. -/
  | vmulF16 (g : BitVec 4) (d a b : BitVec 5) (k : BitVec 3)
  /-- VFMA_F16 (R228): f16 fused multiply-add. -/
  | vfmaF16 (g : BitVec 4) (d a b : BitVec 5) (k : BitVec 3) (c : BitVec 5)
  /-- VRCPA_F32 (R80): Approximate reciprocal by rcpa_f32. -/
  | vrcpaF32 (g : BitVec 4) (d a : BitVec 5) (k : BitVec 3)
  /-- VRSQA_F32 (R81): Approximate reciprocal square root by rsqa_f32. -/
  | vrsqaF32 (g : BitVec 4) (d a : BitVec 5) (k : BitVec 3)
  /-- VCVT_F32_I32 (R229): Converts signed 32-bit integers to f32 by the mode. -/
  | vcvtF32I32 (g : BitVec 4) (d a : BitVec 5) (m : BitVec 2) (k : BitVec 3)
  /-- VCVT_F32_N32 (R229): Converts unsigned 32-bit integers to f32 by the mode. -/
  | vcvtF32N32 (g : BitVec 4) (d a : BitVec 5) (m : BitVec 2) (k : BitVec 3)
  /-- VCVT_I32_F32 (R230): Converts f32 to i32 by cvt_int. -/
  | vcvtI32F32 (g : BitVec 4) (d a : BitVec 5) (m : BitVec 2) (k : BitVec 3)
  /-- VCVT_N32_F32 (R230): Converts f32 to n32 by cvt_int. -/
  | vcvtN32F32 (g : BitVec 4) (d a : BitVec 5) (m : BitVec 2) (k : BitVec 3)
  /-- VCVT_BF16_F32 (R231): Narrows two f32 registers into one packed bf16 register. -/
  | vcvtBf16F32 (g : BitVec 4) (d a : BitVec 5) (m : BitVec 2) (k : BitVec 3)
  /-- VCVT_F16_F32 (R231): Narrows two f32 registers into one packed f16 register. -/
  | vcvtF16F32 (g : BitVec 4) (d a : BitVec 5) (m : BitVec 2) (k : BitVec 3)
  /-- VCVT_E4M3_F32 (R231): Narrows four f32 registers to e4m3 by sat_e4m3. -/
  | vcvtE4m3F32 (g : BitVec 4) (d a : BitVec 5) (m : BitVec 2) (n : BitVec 1) (k : BitVec 3)
  /-- VCVT_E5M2_F32 (R231): Narrows four f32 registers to e5m2 by sat_e5m2. -/
  | vcvtE5m2F32 (g : BitVec 4) (d a : BitVec 5) (m : BitVec 2) (n : BitVec 1) (k : BitVec 3)
  /-- VCVT_F32_WIDEN (R231): Widens a packed bf16, f16, e4m3 or e5m2 register exactly to f32 registers. -/
  | vcvtF32Widen (g : BitVec 4) (d a : BitVec 5) (f : BitVec 2) (k : BitVec 3)
  /-- VCVT_Q4_F32 (R232): Encodes 1,024 f32 lanes as a q4 register with automatic block scales. -/
  | vcvtQ4F32 (g : BitVec 4) (d a : BitVec 5) (m t : BitVec 2)
  /-- VCVT_F32_Q4 (R232): Decodes a q4 register into f32 lanes. -/
  | vcvtF32Q4 (g : BitVec 4) (d a : BitVec 5) (k : BitVec 3)
  /-- VCMP_F32 (R233): f32 compare into a lane predicate. -/
  | vcmpF32 (g : BitVec 4) (c : BitVec 2) (h : BitVec 3) (a b : BitVec 5) (k : BitVec 3)
  /-- VCMP_I32 (R233): Signed compare into a lane predicate. -/
  | vcmpI32 (g : BitVec 4) (c : BitVec 2) (h : BitVec 3) (a b : BitVec 5) (k : BitVec 3)
  /-- VCMP_N32 (R233): Unsigned compare into a lane predicate. -/
  | vcmpN32 (g : BitVec 4) (c : BitVec 2) (h : BitVec 3) (a b : BitVec 5) (k : BitVec 3)
  /-- KLOGIC (R233): kand, kor, kxor or kandn over all 1,024 predicate bits. -/
  | klogic (g : BitVec 4) (l : BitVec 2) (h a b : BitVec 3)
  /-- VBCAST (R234): Broadcasts sA[31:0] into every enabled lane. -/
  | vbcast (g : BitVec 4) (d a : BitVec 5) (k : BitVec 3)
  /-- VIOTA (R234): Writes sA[31:0] + lane index into every enabled lane. -/
  | viota (g : BitVec 4) (d a : BitVec 5) (k : BitVec 3)
  /-- VPERM (R234): D[l] := A[B[l][9:0]]. -/
  | vperm (g : BitVec 4) (d a b : BitVec 5) (k : BitVec 3)
  /-- VRED (R235): Reduces the enabled lanes into a scalar by a fixed tree, with optional NaN-skip counts. -/
  | vred (g : BitVec 4) (d a : BitVec 5) (r : BitVec 3) (n : BitVec 2) (k : BitVec 3)
  /-- VLD (R236): Loads 4,096 bytes into a vector register. -/
  | vld (g : BitVec 4) (d : BitVec 5) (a : BitVec 4) (u : BitVec 1) (off : BitVec 18)
  /-- VST (R236): Stores a vector register as 4,096 bytes. -/
  | vst (g : BitVec 4) (d : BitVec 5) (a : BitVec 4) (u : BitVec 1) (off : BitVec 18)
  /-- VLD_W (R236): Loads one word into every lane. -/
  | vldW (g : BitVec 4) (d : BitVec 5) (a : BitVec 4) (u : BitVec 1) (off : BitVec 18)
  /-- VST_W (R236): Stores lane 0 as one word. -/
  | vstW (g : BitVec 4) (d : BitVec 5) (a : BitVec 4) (u : BitVec 1) (off : BitVec 18)
  /-- VLD_K (R236): Loads 128 bytes into a lane predicate. -/
  | vldK (g : BitVec 4) (d : BitVec 3) (a : BitVec 4) (u : BitVec 1) (off : BitVec 18)
  /-- VST_K (R236): Stores a lane predicate as 128 bytes. -/
  | vstK (g : BitVec 4) (d : BitVec 3) (a : BitVec 4) (u : BitVec 1) (off : BitVec 18)
  /-- TRDR (R242): Reads four tile rows into a vector register. -/
  | trdr (g x y : BitVec 4) (v : BitVec 5) (k : BitVec 3) (m : BitVec 2)
  /-- TRDC (R242): Reads four tile columns into a vector register. -/
  | trdc (g x y : BitVec 4) (v : BitVec 5) (k : BitVec 3) (m : BitVec 2)
  /-- TWRR_32 (R242): Writes four rows of a 32-bit tile from a vector register. -/
  | twrr32 (g x y : BitVec 4) (v : BitVec 5) (k : BitVec 3)
  /-- TWRC_32 (R242): Writes four columns of a 32-bit tile. -/
  | twrc32 (g x y : BitVec 4) (v : BitVec 5) (k : BitVec 3)
  /-- TWRR_16 (R242): Writes four rows of a 16-bit tile with rounding by the mode. -/
  | twrr16 (g x y : BitVec 4) (v : BitVec 5) (k : BitVec 3) (m : BitVec 2)
  /-- TWRC_16 (R242): Writes four columns of a 16-bit tile with rounding by the mode. -/
  | twrc16 (g x y : BitVec 4) (v : BitVec 5) (k : BitVec 3) (m : BitVec 2)
  /-- TWRR_8 (R242): Writes four rows of an 8-bit tile. -/
  | twrr8 (g x y : BitVec 4) (v : BitVec 5) (k : BitVec 3) (m : BitVec 2)
  /-- TWRC_8 (R242): Writes four columns of an 8-bit tile. -/
  | twrc8 (g x y : BitVec 4) (v : BitVec 5) (k : BitVec 3) (m : BitVec 2)
  /-- TWRR_8_NAN (R242): Writes four rows of an FP8 tile with the .nan variant. -/
  | twrr8Nan (g x y : BitVec 4) (v : BitVec 5) (k : BitVec 3) (m : BitVec 2)
  /-- TWRC_8_NAN (R242): Writes four columns of an FP8 tile with the .nan variant. -/
  | twrc8Nan (g x y : BitVec 4) (v : BitVec 5) (k : BitVec 3) (m : BitVec 2)
  /-- TLD (R243): Loads a tile image from memory into a tile; counted in OCTO. -/
  | tld (g x : BitVec 4) (v : BitVec 5)
  /-- TST (R243): Stores a tile as an image in memory. -/
  | tst (g x : BitVec 4) (v : BitVec 5)
  /-- MWL (R248): Loads a weight tile into an engine's shadow weights. -/
  | mwl (g x y : BitVec 4) (f : BitVec 3)
  /-- MWLM (R248): Loads weights from memory into an engine's shadow weights. -/
  | mwlm (g x y : BitVec 4) (v : BitVec 5) (f : BitVec 3)
  /-- MWLP (R248): Loads a weight tile into an even/odd pair's shadow weights. -/
  | mwlp (g x y : BitVec 4) (f : BitVec 3)
  /-- MWLPM (R248): Loads weights from memory into a pair's shadow weights. -/
  | mwlpm (g x y : BitVec 4) (v : BitVec 5) (f : BitVec 3)
  /-- MWA (R248): Copies the shadow weights and latch into the active weights. -/
  | mwa (g y : BitVec 4)
  /-- MWAP (R248): Activates the shadow weights of both engines of a pair. -/
  | mwap (g y : BitVec 4)
  /-- MMS (R249): Streams an activation tile through the active weights into the accumulator. -/
  | mms (g x y : BitVec 4) (f : BitVec 3) (z : BitVec 1)
  /-- MMSM (R249): Streams activations from memory. -/
  | mmsm (g x y : BitVec 4) (v : BitVec 5) (f : BitVec 3) (z : BitVec 1)
  /-- MMSP (R249): Streams an activation tile through a pair. -/
  | mmsp (g x y : BitVec 4) (f : BitVec 3) (z : BitVec 1)
  /-- MMSPM (R249): Streams activations from memory through a pair. -/
  | mmspm (g x y : BitVec 4) (v : BitVec 5) (f : BitVec 3) (z : BitVec 1)
  /-- MDR (R253): Drains an accumulator through the epilogue into a tile. -/
  | mdr (g x y : BitVec 4) (v : BitVec 5)
  /-- MDRM (R253): Drains an accumulator through the epilogue into a memory image. -/
  | mdrm (g x y : BitVec 4) (v : BitVec 5)
  /-- MDRP (R253): Drains a pair's accumulators into a tile. -/
  | mdrp (g x y : BitVec 4) (v : BitVec 5)
  /-- MDRPM (R253): Drains a pair's accumulators into a memory image. -/
  | mdrpm (g x y : BitVec 4) (v : BitVec 5)
  /-- MPOST (R254): Posts a 64-byte task record into the dependency table. -/
  | mpost (g : BitVec 4) (v : BitVec 5)
  /-- MZERO (R251): Sets an accumulator to +0 and its mode to none. -/
  | mzero (g y : BitVec 4)
  /-- MZEROP (R251): Clears both accumulators of a pair. -/
  | mzerop (g y : BitVec 4)
  /-- TCPY (R244): Copies the shaped elements of tile X into tile Y. -/
  | tcpy (g x y : BitVec 4)
  /-- TZERO (R244): Sets all 256 KiB of a tile to zero. -/
  | tzero (g x : BitVec 4)
  /-- MDRT (R253): Drains an accumulator transposed into a tile. -/
  | mdrt (g x y : BitVec 4) (v : BitVec 5)
  /-- TLDT (R243): Loads a transposed tile image. -/
  | tldt (g x : BitVec 4) (v : BitVec 5)
  /-- TSTT (R243): Stores a tile as a transposed image. -/
  | tstt (g x : BitVec 4) (v : BitVec 5)
  /-- TSHAPE (R240): Writes TSHAPE X from sV[23:0]. -/
  | tshape (g x : BitVec 4) (v : BitVec 5)
  /-- CPY (R263): Copies a linear range, optionally followed by a flag. -/
  | cpy (g u e : BitVec 4) (f : BitVec 1)
  /-- CPY2 (R263): Copies rows with strides. -/
  | cpy2 (g u e : BitVec 4) (f : BitVec 1)
  /-- CPYZ (R85): A compressing copy of 256-byte blocks into slots in shared SRAM. -/
  | cpyz (g u e p : BitVec 4)
  /-- CPYX (R86): An expanding copy of slots back into working-store blocks. -/
  | cpyx (g u e p : BitVec 4)
  /-- CFILL (R263): Fills a range with a 64-bit pattern. -/
  | cfill (g u e : BitVec 4) (f : BitVec 1)
  /-- RLD (R265): A small remote load into shared SRAM. -/
  | rld (g u e : BitVec 4)
  /-- RST (R265): A small remote store. -/
  | rst (g u e : BitVec 4) (f : BitVec 1)
  /-- RATM_W (R265): A 4-byte remote atomic, whose old value is written into shared SRAM. -/
  | ratmW (g u e p : BitVec 4)
  /-- RATM_D (R265): An 8-byte remote atomic. -/
  | ratmD (g u e p : BitVec 4)
  /-- RRED (R265): A deduplicated reduce-store to a peer. -/
  | rred (g u e : BitVec 4) (f : BitVec 1) (p : BitVec 4)
  /-- FPUT (R264): Sends a flag packet only. -/
  | fput (g u e : BitVec 4)
  /-- CFENCE (R266): Orders a copy engine's later commands after the completion of its earlier ones. -/
  | cfence (g u : BitVec 4)
  /-- XCHG (R271): A pairwise exchange: one send half and one receive half on a logical dimension. -/
  | xchg (g u e : BitVec 4) (q : BitVec 2)
  /-- XCMB (R272): Exchanges and combines operands so that both partners hold identical results. -/
  | xcmb (g u e : BitVec 4) (q : BitVec 2) (f : BitVec 3) (o n : BitVec 2)
  /-- SENDIF (R271): A send half or a receive half, chosen by a RANK bit or a guard. -/
  | sendif (g u e : BitVec 4) (q : BitVec 2) (s : BitVec 1) (n : BitVec 4)
  /-- SHIFTG (R273): A shift around a Gray ring over the masked dimensions. -/
  | shiftg (g e : BitVec 4) (q : BitVec 2) (d : BitVec 1)
  /-- XCHGM (R274): Exchanges on up to four dimensions at once, one queue each. -/
  | xchgm (g e : BitVec 4)
  /-- XCMBM (R274): Combines on up to four dimensions at once. -/
  | xcmbm (g e : BitVec 4) (f : BitVec 3) (o : BitVec 2)
  /-- XARM (R275): Arms a send that fires when a timeline counter reaches a threshold. -/
  | xarm (g u e : BitVec 4) (q : BitVec 2) (c : BitVec 4)
  /-- XDISARM (R275): Cancels a queue's unfired armed sends. -/
  | xdisarm (g : BitVec 4) (q : BitVec 2)
  /-- XBAR (R276): A barrier over the masked dimensions by zero-length exchanges. -/
  | xbar (g e : BitVec 4) (q : BitVec 2)
  /-- COLL (R277): Runs a collective loop-nest or row-block exchange record on the walker. -/
  | coll (g e : BitVec 4)
  /-- ROUTE (R279): Sends tile rows to the row queues of the dies named in an index array. -/
  | route (g u e : BitVec 4)
  /-- RQCFG (R278): Configures a row queue at the end of its issue cycle. -/
  | rqcfg (g e : BitVec 4)
  /-- RQRESET (R278): Empties a row queue. -/
  | rqreset (g e : BitVec 4)
  /-- RCSNAP (R281): Captures and clears all 256 routing counters and writes them to memory. -/
  | rcsnap (g e : BitVec 4)
  /-- CHAIN (R295): Runs a contraction-order program on the chain-contraction engine. -/
  | chain (g e : BitVec 4)
  /-- CHSTEP (R295): Runs the one step held in the staging registers. -/
  | chstep (g e : BitVec 4)
  /-- CHSIZE (R296): Computes each step's boundary need without running the steps. -/
  | chsize (g e : BitVec 4)
  /-- CHABORT (R297): Cancels the running chain command and the chain commands queued behind it. -/
  | chabort (g : BitVec 4)
  /-- TRAP (R324): Raises program-level trap cause 0x01 with code n, after its bundle. -/
  | trap (g : BitVec 4) (n : BitVec 10)
  /-- RTE (R323): Returns from the handler after 24 return cycles. -/
  | rte (g : BitVec 4)
  /-- RTE_SW (R324): Returns and suppresses watchpoint matching for the first resumed bundle. -/
  | rteSw (g : BitVec 4)
  /-- END (R155): Ends the die program; results in flight still land. -/
  | endProg (g : BitVec 4)
  /-- RERAISE (R324): Passes the current trap's fault to the level 2 policy. -/
  | reraise (g : BitVec 4)
  /-- LMARK (R324): Writes a lantern entry of kind 0x08 with code n and the value of sA. -/
  | lmark (g : BitVec 4) (d a : BitVec 5)
  /-- BPOINT (R345): Increments BPCNT and makes a buddy image stop when BPCNT reaches BUDTGT. -/
  | bpoint (g : BitVec 4)
  /-- DPOINT (R330): A drain point where a requested image stop may be made. -/
  | dpoint (g : BitVec 4)
  /-- RDCYC (R325): sD := CYCNT. -/
  | rdcyc (g : BitVec 4) (d : BitVec 5)
  /-- SDUMP (R352): Takes a diagnostic dump of the running die and continues. -/
  | sdump (g : BitVec 4)
  /-- ENRD (R316): sD := ENACCT. -/
  | enrd (g : BitVec 4) (d : BitVec 5)
  /-- ENRD_RSV (R316): sD := ENRSV. -/
  | enrdRsv (g : BitVec 4) (d : BitVec 5)
  /-- ENRES (R316): Moves sA nanojoules from ENACCT into ENRSV when the account allows. -/
  | enres (g : BitVec 4) (d a : BitVec 5)
  /-- ENRES_REL (R316): Returns up to sA nanojoules from ENRSV to ENACCT. -/
  | enresRel (g : BitVec 4) (d a : BitVec 5)
  /-- ISSUE_BUNDLE (R175): The control stream issues one bundle whole in one cycle; every slot reads its guard and sources as they stand at the start of the cycle. -/
  | issueBundle
  /-- STALL_END (R217): A bundle held by a stall issues, all its slots together, in the first cycle in which the stall condition holds. -/
  | stallEnd
  /-- LONG_WAIT (R168): A WAIT, WAITT or FENCE stall that lasts LWTHR cycles sets LWSTAT[0] and reports long-wait to the package scheduler. -/
  | longWait
  /-- RESULT_LANDS (R160): A fixed-latency result lands in its destination at the end of its last counted cycle. -/
  | resultLands
  /-- SRAM_ACCESS_PERFORMED (R35): A control-stream load, store or atomic is performed at its shared-SRAM slice 8 + 2h cycles after issue, and a store there decrements the store counter. -/
  | sramAccessPerformed
  /-- SRAM_LOAD_LANDS (R36): The value of a shared-SRAM load or atomic lands in its destination register, and the load counter falls. -/
  | sramLoadLands
  /-- TILE_OP_COMPLETE (R244): A tile load, store, copy or zeroing has its last byte landed or performed, and OCTO falls by one. -/
  | tileOpComplete
  /-- CORRECTABLE_ERROR (R51): An access finds a correctable error; the die returns and writes back corrected data, counts it and freezes the whole die for 16 cycles. -/
  | correctableError
  /-- FREEZE_END (R51): The 16 freeze cycles have passed, and the control stream and the engines resume. -/
  | freezeEnd
  /-- PATROL_SCRUB (R53): The patrol scrubber reads a word in an idle cycle and corrects and counts any correctable error without a freeze. -/
  | patrolScrub
  /-- UNCORRECTABLE_ERROR (R54): An uncorrectable error in any array raises a fatal trap and is recorded in CEINFO, CEADDR and the lantern ring. -/
  | uncorrectableError
  /-- WINDOW_TABLE_WRITE (R16): The runtime writes window-table entries over the control path; the write is refused while WTLOCK = 1, except for paged-entry updates. -/
  | windowTableWrite
  /-- WTLOCK_SET (R19): The runtime sets WTLOCK; the die checks every valid entry and locks the table or refuses it with the lowest failing index. -/
  | wtlockSet
  /-- CODE_STORE_LOAD (R45): The launch writes code through the code-store load port while the die program is not running. -/
  | codeStoreLoad
  /-- CONTROL_PATH_REGISTER_WRITE (R15): The runtime, scheduler, management or host writes a register that has no row of its own. -/
  | controlPathRegisterWrite
  /-- COMMAND_START (R140): An engine begins the next command of its queue, or a matrix direct command, after its energy charge allows the start. -/
  | commandStart
  /-- ISSUE_BUFFER_ENTER (R163): A copy command waiting in the die's issue buffer enters its engine queue when an entry frees, and OCCI falls. -/
  | issueBufferEnter
  /-- BLOCK_TRANSFER (R22): A 256-byte block of a copy moves; STATE is examined for that block at the moment it moves. -/
  | blockTransfer
  /-- COMMAND_COMPLETE (R139): A command or task completes with its status, its queue entry frees and its context's timeline counter advances. -/
  | commandComplete
  /-- SUPPLY (R104): The pager answer SUPPLY makes the entry resident with the given FRAME, and the stalled engines retry the faulting block. -/
  | supply
  /-- REFUSE (R105): The pager answer REFUSE completes the stalled copies with page unavailable, and their queues resume. -/
  | refuse
  /-- DISCARD (R103): The pager answer DISCARD sets the entry's STATE to discarded and keeps its FRAME. -/
  | discard
  /-- RECLAIM (R103): The pager answer RECLAIM sets the entry's STATE to absent. -/
  | reclaim
  /-- PGRES_READ (R103): The host reads PGRES, which returns the latest result and the count of answers rejected since the last read. -/
  | pgresRead
  /-- WRITE_PACKET (R135): A write packet that is accepted on a link is performed at its home on the target die. -/
  | writePacket
  /-- READ_REQUEST (R115): A read request is performed at the target, which returns a read response. -/
  | readRequest
  /-- READ_RESPONSE (R115): Read data lands in the source die's shared SRAM, and the operation's timeline advances. -/
  | readResponse
  /-- ATOMIC_PACKET (R115): A remote atomic is performed indivisibly at the target, which returns the old value. -/
  | atomicPacket
  /-- ATOMIC_RESPONSE (R265): The old value of a remote atomic is written into the source's shared SRAM, and the command completes. -/
  | atomicResponse
  /-- REDUCE_STORE (R119): A reduce-store is performed, or is discarded as a duplicate against the high-water table, and a normal acknowledgement is returned. -/
  | reduceStore
  /-- FLAG_PACKET (R117): The target writes the flag after the transfer's data and the earlier packets of the pair, and returns a transfer acknowledgement. -/
  | flagPacket
  /-- TRANSFER_ACKNOWLEDGEMENT (R117): A transfer acknowledgement lands at the source, which lets the transfer's timeline number be reached. -/
  | transferAcknowledgement
  /-- EXCHANGE_DATA (R268): Exchange or walker data is performed in the receive buffer named by the partner's command, or is dropped for a timed-out receive. -/
  | exchangeData
  /-- UNREACHABLE_NOTICE (R130): An unreachable notice completes the source's command with link down, with the error flag set. -/
  | unreachableNotice
  /-- LINK_ACKNOWLEDGEMENT (R124): A control frame acknowledges LSEQ values cumulatively and frees the sender's replay buffer. -/
  | linkAcknowledgement
  /-- NEGATIVE_ACKNOWLEDGEMENT (R124): A negative acknowledgement makes the sender replay from the oldest unacknowledged packet in LSEQ order. -/
  | negativeAcknowledgement
  /-- REPLAY_TIMEOUT (R124): After 2 µs without an acknowledgement the sender replays, and eight replays without progress put the port into FAILED. -/
  | replayTimeout
  /-- DETOUR_FORWARD (R129): A transit die forwards a detour packet along the guyline by its outer header, without reading the payload. -/
  | detourForward
  /-- LOSS_OF_SIGNAL (R125): A port loses signal and enters FAILED. -/
  | lossOfSignal
  /-- GUYLINE_SWITCH_BACK (R132): Once every guyline packet has been acknowledged, a port back in UP resumes sending directly. -/
  | guylineSwitchBack
  /-- MANAGEMENT_ENABLE (R125): Management enables a port, which enters TRAIN. -/
  | managementEnable
  /-- MANAGEMENT_DISABLE (R125): Management disables a port, which enters DOWN. -/
  | managementDisable
  /-- FAILED_RETRAIN (R125): A port enters TRAIN 1 ms after entering FAILED. -/
  | failedRetrain
  /-- TRAINING_COMPLETE (R127): Training and ECDH key agreement succeed, and the port enters UP with fresh link and detour keys. -/
  | trainingComplete
  /-- TRAIN_TIMEOUT (R127): A port that has not reached UP within 100 ms of entering TRAIN, or whose training fails, enters FAILED. -/
  | trainTimeout
  /-- REKEY_START (R127): NCTR reaches 2^48, and the port starts a new key exchange in sealed control frames. -/
  | rekeyStart
  /-- REKEY_COMPLETE (R127): Both ends confirm the new key, switch to it and restart NCTR at 0. -/
  | rekeyComplete
  /-- NONCE_LIMIT (R127): NCTR reaches 2^48 + 2^40 before the rekey completes, and the port enters STOPPED. -/
  | nonceLimit
  /-- PARK (R339): A capturing die sends PARK on a port, and the neighbour stops sending data packets on that link. -/
  | park
  /-- PARKACK (R339): The neighbour answers with its counts, and both ends of the port enter PARKED. -/
  | parkack
  /-- READY (R268): A receive half's READY for match m reaches the partner, whose matching send half then checks the length and sends its buffer. -/
  | ready
  /-- ABORT (R270): An ABORT for a match completes the matching half with the status it carries. -/
  | abort
  /-- EXCHANGE_TIMEOUT (R270): A class 0xC command's count reaches EXTO before it completes, and it completes with timeout. -/
  | exchangeTimeout
  /-- XARM_FIRE (R275): An armed send fires once its timeline trigger is reached and every earlier armed send on its queue and dimension has fired. -/
  | xarmFire
  /-- WALKER_ROUND (R96): After the previous round's rows have been handed to the ports, the walker sends its next row block of a row-block exchange. -/
  | walkerRound
  /-- ROUTE_ROW_RECEIVE (R279): A routed row is written into its destination queue's next slot, raising the depth and the counter, or is rejected and counted in RQDROP. -/
  | routeRowReceive
  /-- TASK_DISPATCH (R167): The dependency table dispatches a ready task to free engines, by urgency and then post order, taking its row-queue rows. -/
  | taskDispatch
  /-- CHAIN_STEP_START (R289): The chain engine reads and checks a step, then posts its tasks, fails the step or halts on boundary overflow. -/
  | chainStepStart
  /-- CHAIN_TASK_POST (R290): The chain engine posts a task into a reserved dependency-table entry when one is free. -/
  | chainTaskPost
  /-- ENERGY_REFILL (R314): Every 1,024 cycles of its own clock, the power controller adds ENRATE to ENACCT, up to ENCAP − ENRSV. -/
  | energyRefill
  /-- THERMAL_LIMIT (R368): At a junction temperature of 100 °C the refill is halved, and at 105 °C refills are withheld until the temperature falls below 100 °C. -/
  | thermalLimit
  /-- QTAIL_WRITE (R361): The host writes a queue tail, which is ignored when too far ahead, or goes to the shadow while the queue is switched out. -/
  | qtailWrite
  /-- SUBMIT_JOB (R304): The scheduler accepts a submit-job entry and reads its job record, or rejects the entry with status 0x13. -/
  | submitJob
  /-- SUBMIT_CHAIN (R305): The scheduler accepts a submit-chain entry and reads the chain record with its element entries. -/
  | submitChain
  /-- CANCEL (R311): A cancel entry removes a waiting job, or ends a running job's die programs, with status 0x03. -/
  | cancel
  /-- REGISTER_PAGER (R364): The tenant registers a pager for a region. -/
  | registerPager
  /-- WITHDRAW_PAGER (R364): The tenant withdraws a region's pager, and current stalls on that region are answered REFUSE. -/
  | withdrawPager
  /-- READ_DUMP (R364): The package opens a dump of the tenant and writes its header and body into the host buffer, or rejects the request. -/
  | readDump
  /-- RESET_TENANT (R365): A tenant reset ends the tenant's jobs, discards its swap images, refuses stalls, withdraws its pagers and empties its queues. -/
  | resetTenant
  /-- PLACEMENT_PASS (R308): The scheduler places each placeable waiting job, by class, blocking state and arrival order. -/
  | placementPass
  /-- AGING (R310): A job that has waited AGEQ without being placed rises one class. -/
  | aging
  /-- QUANTUM_EXPIRY (R311): At the end of its quantum a job is swapped out when a waiting job would become placeable, and otherwise runs another quantum. -/
  | quantumExpiry
  /-- JOB_END (R306): When all its die programs have ended, a job or element ends; its event is written and then its completion flag. -/
  | jobEnd
  /-- DRAIN_REQUEST (R330): The scheduler sets TSTAT[8] on every die of a job to request drain pre-emption. -/
  | drainRequest
  /-- IMAGE_CAPTURE (R331): Once every die of the job has stopped, each die captures its image into the image area, skipping dead granules. -/
  | imageCapture
  /-- DRAIN_ESCALATION (R333): A die that has not stopped within 200 µs of the drain request is stopped by a scan. -/
  | drainEscalation
  /-- SCAN_STOP (R334): The scheduler stops a die's scan clock, and a bivouac image of every flip-flop and array is taken. -/
  | scanStop
  /-- RESUME (R341): A die resumes from an image, which is checked and applied whole, and its in-flight results land at the same relative bundles. -/
  | resume
  /-- BUDTGT_SET (R344): The scheduler sets BUDTGT on every die of the job to the next buddy point number. -/
  | budtgtSet
  /-- BUDDY_POINT_ABANDON (R345): A die that has not stopped within 200 µs of its first peer's stop abandons the buddy point, and every die resumes. -/
  | buddyPointAbandon
  /-- FATAL_TRAP (R348): A fatal trap stops the die; it captures and seals a dump, writes it to the tenant's dump area and emits an event. -/
  | fatalTrap
  /-- DIE_RESET (R346): A faulted die is reset and, once its ready bits return, takes its buddy image from its dimension-0 neighbour. -/
  | dieReset
  /-- TRAP_DELIVERY (R320): A program-level trap saves the in-flight state, writes TPC, TCAUSE, TINFO and TADDR and sets TSTAT[0]. -/
  | trapDelivery
  /-- TRAP_CYCLES_END (R320): After 24 trap cycles, the bundle at TRAPVEC issues. -/
  | trapCyclesEnd
  /-- RETURN_CYCLES_END (R323): After 24 return cycles, the in-flight save area is restored, TSTAT[0] clears and the bundle at TPC issues. -/
  | returnCyclesEnd
  /-- EVRD_WRITE (R353): The host advances EVRD, freeing ring space; held events are then written in order with RERAISE = 1. -/
  | evrdWrite
  /-- EVOVF_CLEAR (R355): The host writes 0 to EVOVF to clear it. -/
  | evovfClear
  /-- TENANT_CONFIG_WRITE (R359): Management writes a tenant configuration entry, which draws a new dump epoch for an unused entry and switches queues by SUSP. -/
  | tenantConfigWrite
  /-- READY_BIT_SET (R366): A function of the package becomes ready and sets its ready bit, which triggers a placement pass. -/
  | readyBitSet
  /-- PACKAGE_RESET (R367): At package reset, the firmware image is verified against the Kolzal key. -/
  | packageReset
  /-- FIRMWARE_IMAGE_WRITE (R367): A firmware image is written through PF0 and takes effect at the next package reset. -/
  | firmwareImageWrite
  /-- SPDM_MEASUREMENT (R367): The package answers an SPDM request with signed measurements of its firmware, tenant table and the requesting VF. -/
  | spdmMeasurement
  /-- IMAGE_SECRET_INSTALL (R338): Management installs the system image secret through an SPDM secured session on PF0. -/
  | imageSecretInstall
  /-- CXL_MEM_ACCESS (R148): The host reads or writes package DRAM through CXL.mem, as decoded by the package. -/
  | cxlMemAccess
  /-- ROUTER_FORWARD (R111): A packet that arrives at an intermediate die of its dimension-ordered path is forwarded by the link router on its next ascending dimension, without involving the die's control stream or engines. -/
  | routerForward
  /-- CAPTURE_COMPLETE (R336): A drain, scan or buddy capture finishes writing its sealed image into the image area, after which a buddy point resumes issue, a swap-out completes and triggers a placement pass, and the image event is written. -/
  | captureComplete
  /-- DUMP_COMPLETE (R348): A fatal or diagnostic dump has been written through CXL.cache into the tenant's dump area; the fatal-trap event is emitted, or after SDUMP the ports resync and the die continues. -/
  | dumpComplete
  /-- DIE_RETURN_TIMEOUT (R346): When a faulted die under level 3 retry has not returned within 4 s, the job resumes on another granted sub-cube of its shape, or ends with failed. -/
  | dieReturnTimeout
deriving DecidableEq, Repr

end Sys2Proof
end

