-- ==== Sys2Proof/Machine/Parts.lean ====
section
/-! DEFINITION. The parts of the machine's state, as plain data: registers, control stream, timelines, engines, row
queues, ports, images, and the package functions. Machine/State.lean puts them together. -/

namespace Sys2Proof.Machine

/-! ## Registers -/

/-- The register files that no address reaches (R8, R47). Element 0 of `s`, `g`, `k` and element 1 of `g` are hard-wired
(R201, R223): the operations that read and write registers say so. -/
structure Regs where
  s : Vector W64 32
  a : Vector W64 16
  n : Vector W64 16
  e : Vector W64 16
  g : Vector Bool 16
  k : Vector (BitVec 1024) 8
  v : Vector (Vector W32 1024) 32
  /-- bond registers (R286) -/
  b : Vector (BitVec 9) 16
deriving DecidableEq, Repr

/-- Format family of an accumulator (R246). -/
inductive AccMode where
  | none | float | int
deriving DecidableEq, Repr

/-- Tiles and the state of the matrix engines (R239, R246). Each store lists what is not zero, keys strictly rising:
tile byte b of t i at 262,144 i + b; weight byte k of column n of me i at 65,536 i + 512 n + k; accumulator element
(m, n) of c i at 32,768 i + 128 m + n. A latch is the MF code of R241, or none. -/
structure Tiles where
  bytes : List Host.Cell
  active : List Host.Cell
  shadow : List Host.Cell
  acc : List (Nat × W32)
  mode : Vector AccMode 16
  activeFmt : Vector (Option (BitVec 3)) 16
  shadowFmt : Vector (Option (BitVec 3)) 16
deriving DecidableEq, Repr

/-- An imprecise cause that waits to be taken (R319). -/
structure Pending where
  cause : Byte
  info : W64
  addr : W64
deriving DecidableEq, Repr

/-- The control registers of R207 and of the chapters' register tables that no other part of the state holds. -/
structure Ctl where
  /-- R82 -/
  vflags : BitVec 6
  msat : W16
  srstate : W64
  /-- R173 -/
  contpol : BitVec 4
  lwthr : W32
  lwstat : Bool
  scmask : BitVec 13
  scbase : BitVec 13
  diecoord : BitVec 13
  jobid : W32
  /-- R32 -/
  lsdmask : BitVec 13
  wtlock : Bool
  wfaddr : W64
  wfinfo : W32
  /-- R55 -/
  codelim : BitVec 20
  cecnt : W32
  ceinfo : W32
  ceaddr : W64
  /-- R187 -/
  ilinfo : W32
  iladdr : W64
  /-- R197 -/
  encrev : W16
  /-- encoding revision of the job's code (R194, R196) -/
  rev : BitVec 2
  /-- R110 -/
  discrd : W32
  /-- R133 -/
  rsdup : W32
  rshwb : BitVec 36
  rsseq : Vector W32 4
  /-- R283 -/
  exto : W32
  xdrop : W32
  rqdrop : W32
  /-- R317 -/
  enacct : W64
  enrsv : W64
  enrate : W32
  encap : W64
  endefer : W32
  /-- R90 -/
  zovf : Vector W32 4
  /-- R214 -/
  lc : Vector W64 4
  lstart : Vector W64 4
  lend : Vector W64 4
  /-- active loops, most recently set up first (LPSTAT, R214) -/
  loops : List (BitVec 2)
  /-- R240 -/
  tshape : Vector (BitVec 24) 16
  /-- R256 -/
  mexcl : W16
  /-- R301 -/
  bndbuf : Vector W64 2
  chcfg : Byte
  chneed : W64
  chelem : W64
  /-- the buffer that holds the boundary, and the tile format code in which each was last written (R285) -/
  bndAt : Bool
  bndfmt : Vector (BitVec 4) 2
  /-- R355 -/
  trapvec : W64
  tpc : W64
  tcause : Byte
  tinfo : W64
  taddr : W64
  /-- TSTAT [0], [1], [8] (R355) -/
  inHandler : Bool
  swPending : Bool
  drainReq : Bool
  /-- TSTAT [5:2], with what each cause delivers (R319) -/
  pend : List Pending
  tsave : Vector W64 4
  watch : Vector W64 4
  wctl : Vector Byte 4
  wmatch : W32
  drctl : W16
  drentry : W64
  drrem : W64
  livemap : W32
  bpcnt : W64
  budtgt : W64
  cyccnt : W64
  lnwrc : BitVec 9
  lnwrm : BitVec 9
deriving DecidableEq, Repr

/-! ## Results and accesses in flight -/

/-- What a result writes when it lands. -/
inductive Landing where
  | s (i : BitVec 5) (x : W64)
  | a (i : BitVec 4) (x : W64)
  | n (i : BitVec 4) (x : W64)
  | e (i : BitVec 4) (x : W64)
  | g (i : BitVec 4) (x : Bool)
  /-- g2 to g15 from bits 2 to 15 (GSET, R205) -/
  | gset (x : W16)
  /-- predicate register, the lanes written and their bits (R231) -/
  | k (i : BitVec 3) (lanes x : BitVec 1024)
  /-- vector register, the lanes written and their values -/
  | v (i : BitVec 5) (lanes : BitVec 1024) (x : Vector W32 1024)
  /-- bytes of the tile store (R242) -/
  | tile (cells : List Host.Cell)
  /-- control register by number (R206) -/
  | ctl (num : Nat) (x : W64)
  /-- TSHAPE of a tile (R242) -/
  | tshape (i : BitVec 4) (x : BitVec 24)
  /-- loop L becomes inactive (R213) -/
  | lpoff (l : BitVec 2)
  /-- LOOP: trip count, first and last bundle; becomes the most recent active loop (R211) -/
  | loop (l : BitVec 2) (n start last : W64)
  /-- working-store store, performed at the end of the issue cycle (R42) -/
  | wstore (addr : Nat) (bytes : List Byte)
  /-- working-store atomic, performed at the end of the issue cycle (R42, R222) -/
  | watomic (aop : BitVec 4) (d : BitVec 5) (addr size : Nat) (x cmp : W64)
  | flagsOnly
deriving DecidableEq, Repr

/-- A result in flight: its number in issue order, cycles left, what it writes, and the flags it ORs into VFLAGS and MSAT
when it lands (R36, R73, R160). -/
structure Result where
  seq : Nat
  rem : Nat
  land : Landing
  flags : BitVec 6
  sat : W16
deriving DecidableEq, Repr

/-- What a shared-SRAM access does when it is performed. -/
inductive SramKind where
  | load | store | atomic (aop : BitVec 4) (cmp : W64)
deriving DecidableEq, Repr

/-- Where the loaded value goes. -/
inductive LoadDest where
  | s (i : BitVec 5)
  /-- vector register and the width of the elements loaded (R236) -/
  | v (i : BitVec 5) (lanes : BitVec 1024) (width : Nat)
  | k (i : BitVec 3)
  | none
deriving DecidableEq, Repr

/-- One part of a control-stream access to shared SRAM, in one slice (R34, R35): bytes [addr, addr + size), cycles until
it is performed and until it lands, the operand or loaded bytes. -/
structure SramOp where
  seq : Nat
  kind : SramKind
  addr : Nat
  size : Nat
  /-- position of this part in the whole access -/
  part : Nat
  performIn : Nat
  landIn : Nat
  dest : LoadDest
  bytes : List Byte
  performed : Bool
deriving DecidableEq, Repr

/-- A load or atomic whose parts are in flight counts once in OCLD, under this number; a store once in OCST (R38). -/
inductive TileKind where
  | load (t : BitVec 4) (addr : Nat) (transposed : Bool)
  | store (t : BitVec 4) (addr : Nat) (transposed : Bool)
  | copy (src dst : BitVec 4)
  | zero (t : BitVec 4)
deriving DecidableEq, Repr

/-- A tile load, store, copy or zeroing in flight, with the TSHAPE captured at issue (R240, R244). -/
structure TileOp where
  kind : TileKind
  shape : BitVec 24
  /-- its place in issue order among the results (R245) -/
  seq : Nat
deriving DecidableEq, Repr

/-- A repeat prefix under way (R182): the matrix slot, reissues left, the number of the next issue, address registers,
their values and strides at the first issue. -/
structure Repeat where
  slot : Instr
  left : Nat
  next : Nat
  ax : BitVec 4
  ay : BitVec 4
  vx : Bool
  vy : Bool
  ax0 : W64
  ay0 : W64
  sx : W64
  sy : W64
deriving DecidableEq, Repr

/-- The loop buffer: marked address, bundles in the body, PRE, and which of them are captured (R184). -/
structure LoopBuf where
  addr : W64
  len : Nat
  pre : Bool
  got : List W64
deriving DecidableEq, Repr

/-- The in-flight save area (R320). -/
structure SaveArea where
  results : List Result
  rpt : Option Repeat
  loops : List (BitVec 2)
  lc : Vector W64 4
  lstart : Vector W64 4
  lend : Vector W64 4
  held : Bool
  /-- the loop that is being drained (R330) -/
  draining : Option (BitVec 2)
deriving DecidableEq, Repr

/-- Why a die makes no progress of its own, and what comes next. -/
inductive Mode where
  /-- before the launch (R153) -/
  | idle
  | running
  /-- trap cycles left before the bundle at TRAPVEC issues (R320) -/
  | trapping (left : Nat)
  /-- return cycles left before the bundle at TPC issues (R323) -/
  | returning (left : Nat)
  /-- ended, by END or by containment (R155) -/
  | ended (byEnd : Bool)
  /-- stopped between two bundles: 1 drain, 3 buddy (R331, R345); the time of the stop -/
  | imageStop (kind : Nat) (since : Nat)
  /-- the scan clock is stopped (R334) -/
  | scanStop
  /-- a diagnostic dump is being written (R352) -/
  | sdump
  /-- frozen by a fatal trap (R348, R351) -/
  | fatal
deriving DecidableEq, Repr

/-- What the slots of the bundle of this cycle ask of the control stream; empty between cycles. -/
structure Ask where
  /-- the slot that executes, for the lantern ring -/
  slot : Nat
  /-- a slot has raised a fault, which has been taken -/
  faulted : Bool
  /-- the bundle has issued: the cycle counts for fixed results (R160) -/
  counted : Bool
  /-- the next address when a branch, call or return is taken (R209), or a LOOP skips its body (R211) -/
  target : Option W64
  /-- the branch asks that no loop test follow -/
  taken : Bool
  bubbles : Nat
  trap : Option (BitVec 10)
  rte : Option Bool
  ended : Bool
  reraise : Bool
  bpoint : Bool
  dpoint : Bool
  sdump : Bool
  rpt : Option Repeat
  mark : Option (Nat × Bool)
  /-- ENRES: register, amount, and whether it releases (R316); acts after the cycle's charges -/
  enres : Option (BitVec 5 × W64 × Bool)
  /-- engines' commands that act at the end of the issue cycle: RQCFG, RQRESET, RCSNAP, XDISARM, CHABORT -/
  late : List (Instr × Nat × List W64)
deriving DecidableEq, Repr

/-- The control stream (R159, R174). -/
structure Stream where
  pc : W64
  mode : Mode
  bubbles : Nat
  /-- the bundle at `pc` is held by a stall (R159), for this many cycles of WAIT, WAITT or FENCE (R168) -/
  held : Bool
  waited : Nat
  /-- return-address stack, newest first, at most 8 (R210) -/
  ras : List W64
  buf : Option LoopBuf
  rpt : Option Repeat
  results : List Result
  sram : List SramOp
  tileOps : List TileOp
  /-- those that have completed in the current cycle, in issue order (R245) -/
  tileNow : List TileOp
  save : Option SaveArea
  /-- watchpoints do not match the first resumed bundle (RTE.SW, R324) -/
  noWatch : Bool
  /-- a pre-emptible loop is being drained: its counter (R330) -/
  draining : Option (BitVec 2)
  /-- an image stop is due that a trap or an SDUMP came before (R330) -/
  stopDue : Bool
  /-- a bundle has issued since the launch: CYCNT counts (R325) -/
  counting : Bool
  /-- level 2 retries made since the launch (R170, R171) -/
  retries : Nat
  /-- end of the last cycle before a fatal trap or an SDUMP stopped the clock: its accesses can still find errors (R51) -/
  haltAt : Nat
  seq : Nat
  ask : Ask
deriving DecidableEq, Repr

/-! ## Timelines and engines -/

/-- One context's timeline: counter, the counter at the start of the current cycle, issue count, numbers completed above the
counter, error register, and whether later commands are cancelled (R161, R162, R170). -/
structure Timeline where
  count : W64
  /-- what a test of this cycle sees: the counter as the cycle began (R217, R135) -/
  seen : W64
  issued : W64
  done : List Nat
  err : W64
  /-- time of the latest error completion (R162) -/
  errAt : Option Nat
  killed : Bool
  /-- number of the command whose failure cancels later ones -/
  killedAt : Nat
deriving DecidableEq, Repr

/-- Copy-engine operations with their staging values, captured at issue (R262). -/
inductive CopyOp where
  | copy (src dst : Nat) (rows rowBytes : Nat) (sStride dStride : Int)
  | fill (dst len : Nat) (pat : W64)
  /-- compress (R84): working-store source, shared-SRAM destination, blocks, payload S -/
  | pack (src dst n size : Nat)
  | unpack (src dst n size : Nat)
  | rld (src dst len : Nat)
  | rst (src dst len : Nat)
  | ratm (aop : BitVec 4) (wide : Bool) (target : Nat) (x cmp : W64) (res : Nat)
  | rred (rop : BitVec 4) (src dst len : Nat)
  | fput (addr : Nat) (val : W64)
  | cfence
deriving DecidableEq, Repr

/-- A copy command (R163, R263): number, level 1 policy, operation, flag; then its progress: begun, runs made, next
piece, packets handed over and not acknowledged, flag handed over, stalled on a page, and the status once it is fixed. -/
structure CopyCmd where
  num : Nat
  pol : BitVec 2
  op : CopyOp
  flag : Option (Nat × W64)
  started : Bool
  tries : Nat
  pos : Nat
  acks : Nat
  flagSent : Bool
  stalled : Bool
  /-- window-table entry and cause of the stall: 1 read of an absent page, 2 write of one, 3 write of a discarded one (R100,
  R101), 0 once a refusal of the time away has ended it (R109) -/
  stallAt : Nat
  stallCause : Nat
  status : Option Byte
  /-- blocks that overflowed or slots that failed (R87) -/
  bad : Nat
  /-- answers that have come and wait for an earlier stalled copy or a refused one, each with its place (R100, R109) -/
  kept : List (Nat × List Byte)
deriving DecidableEq, Repr

/-- A send or receive half of an exchange (R268). -/
structure Half where
  send : Bool
  dim : Nat
  m : W32
  addr : Nat
  len : Nat
  /-- send: the partner's READY has come, with its length and receive address -/
  ready : Option (Nat × Nat)
  /-- send: packets handed over and not acknowledged; receive: bytes landed -/
  open_ : Nat
  /-- send: handed over whole; receive: landed -/
  done : Bool
  /-- ended by an ABORT, a length that differs, a link that is down, its time-out or a cancellation -/
  failed : Bool
deriving DecidableEq, Repr

/-- The combine of XCMB (R272): format, operation, NaN-skip mode, A, R, length, C, CR. -/
structure Combine where
  fmt : BitVec 3
  op : BitVec 2
  ns : BitVec 2
  a : Nat
  r : Nat
  len : Nat
  c : Nat
  cr : Nat
deriving DecidableEq, Repr

/-- An exchange command, or an armed send (R269, R275). `trigger` is the context and threshold of an armed send. -/
structure XCmd where
  num : Nat
  pol : BitVec 2
  halves : List Half
  combine : Option Combine
  /-- logical dimension that decides which die is lo (R272) -/
  dim : Nat
  started : Bool
  tries : Nat
  elapsed : Nat
  status : Option Byte
  trigger : Option (Nat × Nat)
  /-- number of the XDISARM that cancelled an armed send (R384) -/
  disarmed : Option Nat
  /-- XDISARM and XBAR order their own work -/
  barrier : Bool
  /-- cancelled with its context before it began (R170) -/
  cancelled : Bool
deriving DecidableEq, Repr

/-- A READY that came from a partner and waits for its send half: queue, logical dimension, match, length, address. -/
structure ReadyMsg where
  q : Nat
  dim : Nat
  m : W32
  len : Nat
  addr : Nat
deriving DecidableEq, Repr

/-- An exchange queue (R268, R269, R275). -/
structure XQueue where
  queue : List XCmd
  arms : List XCmd
  sendCount : Vector W32 13
  recvCount : Vector W32 13
  readies : List ReadyMsg
  /-- aborts that came for a match: dimension, match, the half they end, status -/
  aborts : List (Nat × W32 × Bool × Byte)
  /-- matches whose receive timed out: dimension, match, already answered (R270) -/
  deadRecv : List (Nat × W32 × Bool)
  /-- matches whose send timed out, was cancelled or was refused: dimension, match, status (R270) -/
  deadSend : List (Nat × W32 × Byte)
deriving DecidableEq, Repr

/-- Walker commands (R277, R279). ROUTE captures TSHAPE at issue. -/
inductive WalkOp where
  | coll (at_ : Nat)
  | route (tile : BitVec 4) (idx n : Nat) (shape : BitVec 24)
  | rcsnap (dst : Nat) (counts : Vector W32 256)
deriving DecidableEq, Repr

/-- A walker command and its progress: transfers or rows handed over, acknowledgements open, rows rejected, the record
read at start, the round of a row-block exchange, counted cycles. -/
structure WCmd where
  num : Nat
  pol : BitVec 2
  op : WalkOp
  started : Bool
  tries : Nat
  pos : Nat
  acks : Nat
  bad : Bool
  record : List W64
  elapsed : Nat
  status : Option Byte
deriving DecidableEq, Repr

/-- Direct matrix commands (R248 to R253), with the TSHAPE captured at issue. -/
inductive MatOp where
  /-- weight load: pair, from memory at an address or from the tile, MF -/
  | load (pair : Bool) (y : BitVec 4) (t : BitVec 4) (mem : Option Nat) (mf : BitVec 3)
  | activate (pair : Bool) (y : BitVec 4)
  | stream (pair : Bool) (y : BitVec 4) (t : BitVec 4) (mem : Option Nat) (mf : BitVec 3) (z : Bool)
  | drain (pair transposed : Bool) (y : BitVec 4) (t : BitVec 4) (mem : Option Nat) (ctl : BitVec 9) (block : Nat)
  | zero (pair : Bool) (y : BitVec 4)
deriving DecidableEq, Repr

/-- A direct matrix command in the queue of one engine; a pair command stands in both. `seed` is the state of SRSTATE
drawn at issue for a drain in mode sr (R253). -/
structure MCmd where
  num : Nat
  pol : BitVec 2
  op : MatOp
  shape : BitVec 24
  seed : W64
  started : Bool
  tries : Nat
deriving DecidableEq, Repr

/-- A task's condition (R164). -/
inductive Cond where
  | time (ctx : Nat) (n : Nat)
  | rows (queue : Nat)
deriving DecidableEq, Repr

/-- A task record as posted (R254, R289), with its shapes. -/
structure Task where
  num : Nat
  pol : BitVec 2
  chain : Bool
  ecls : BitVec 2
  eng : BitVec 4
  mf : BitVec 3
  z : Bool
  wk : Bool
  wm : Bool
  am : Bool
  dr : Bool
  dm : Bool
  dtr : Bool
  wt : BitVec 4
  at_ : BitVec 4
  dt : BitVec 4
  np : Nat
  waddr : Nat
  aaddr : Nat
  daddr : Nat
  wstep : Nat
  astep : Nat
  epb : Nat
  epc : BitVec 9
  wshape : BitVec 24
  ashape : BitVec 24
  dshape : BitVec 24
  conds : List Cond
  /-- draw state of its drain (R68 item 5) -/
  seed : W64
  passes : Nat
  /-- urgent task's held engine or pair (R167) -/
  hold : Option Nat
  /-- the engine it runs on, once dispatched -/
  runsOn : Option Nat
  /-- rows taken at dispatch: queue and first slot, in condition order (R166, R280) -/
  taken : List (Nat × Nat)
  tries : Nat
deriving DecidableEq, Repr

/-- Chain-engine commands with their staging values (R294). -/
inductive ChainOp where
  | chain (prog steps : Nat) (count : Nat)
  | step (w0 w1 : W64) (count : Nat)
  | size (prog steps : Nat) (count : Nat) (res : Nat)
  /-- a CHABORT that waits for the commands before it to end (R297); it takes no queue entry -/
  | abort
deriving DecidableEq, Repr

/-- What a chain step leaves when its tasks are complete: CHELEM, OUT, DF, and for a transposing step the tile, its rows,
the bytes of a row and BASE of buffer OUT (R289, R291). -/
structure StepEnd where
  elems : Nat
  out : Bool
  df : BitVec 4
  tr : Bool
  tile : BitVec 4
  rows : Nat
  rowBytes : Nat
  base : Nat
deriving DecidableEq, Repr

/-- A chain command and its progress: next step, posted tasks of the step, tasks still to post, carried element count and
formats of CHSIZE, halted, aborted. -/
structure ChCmd where
  num : Nat
  pol : BitVec 2
  op : ChainOp
  started : Bool
  tries : Nat
  step : Nat
  /-- the step's record is read and its tasks are being posted or run -/
  inStep : Bool
  toPost : List Task
  /-- the first of them is posted in the coming cycle, after the bundle (R298) -/
  posting : Bool
  posted : List Nat
  /-- number and status of the failing tasks of the step -/
  failed : List (Nat × Byte)
  after : Option StepEnd
  carryN : Nat
  carryF : Vector (BitVec 4) 2
  halted : Bool
  haltOut : Bool
  aborted : Bool
  status : Option Byte
deriving DecidableEq, Repr

/-- A row queue (R278): configuration, depth, HEAD, and the slots held by running tasks (first slot, task). -/
structure RowQueue where
  cfgd : Bool
  base : Nat
  rowsz : Nat
  cap : Nat
  depth : Nat
  head : Nat
  heldBy : List (Nat × Nat)
deriving DecidableEq, Repr

/-- The engines of the die (R163). `early` lists the walker transfers that have landed in full: TLW number, source and index
(R277); `partly` those of which packets have landed, with the bytes so far; `rowParts` the bytes of a routed row that a source
has sent so far (R279). -/
structure Engines where
  copy : Vector (List CopyCmd) 4
  issueBuf : List (Nat × CopyCmd)
  xq : Vector XQueue 4
  walker : List WCmd
  snaps : List WCmd
  early : List (Nat × BitVec 13 × Nat)
  partly : List (Nat × BitVec 13 × Nat × Nat)
  rowParts : List (BitVec 13 × List Byte)
  matrix : Vector (List MCmd) 16
  tasks : List Task
  chain : List ChCmd
  rows : Vector RowQueue 256
  /-- queues of the rows that were counted in the current cycle -/
  newRows : List Nat
  routed : Vector W32 256
  /-- cycles left of a freeze (R51) -/
  freeze : Nat
deriving DecidableEq, Repr

/-! ## Memories -/

/-- The memories the die and its package hold: die-local bytes by die-local address, DRAM by offset, host memory by host
physical address. Each lists the bytes that are not zero, addresses strictly rising. `undo` and `undoDram` hold what engines
and incoming traffic overwrote in the current cycle: a read sees the bytes of earlier cycles (R35, R135). -/
structure Mem where
  loc : List Host.Cell
  dram : List Host.Cell
  host : List Host.Cell
  undo : List Host.Cell
  undoDram : List Host.Cell
  /-- window table, words 0 and 1 of entry i (R16) -/
  wtab : Vector (W64 × W64) 2048
  /-- lantern ring: control-flow half and memory half, 16 bytes an entry as two words (R347) -/
  lanternC : Vector (W64 × W64) 512
  lanternM : Vector (W64 × W64) 512
  /-- entries that the current cycle has written to each half -/
  lanternNow : Nat × Nat
deriving DecidableEq, Repr

/-- What completions of the current cycle add to registers that a move may write: VFLAGS, MSAT and ZOVF. It is added at the
end of the cycle, after that cycle's writes (R82, R90). -/
structure Late where
  flags : BitVec 6
  sat : W16
  zovf : Vector W32 4
deriving DecidableEq, Repr

/-! ## Ports -/

/-- Port states of R125. -/
inductive PortState where
  | down | train | up | stopped | failed | parked
deriving DecidableEq, Repr

/-- A control frame that a guyline carries for a dead link (R127, R131, R339, R340). -/
inductive LinkWord where
  | ack (lseq : W32)
  | nak (lseq : W32)
  | resync (lsent lacc : W32)
  | park
  | parkAck (lsent lackd lacc : W32)
  /-- a rekey of the dead link's detour key (R127) -/
  | rekey
deriving DecidableEq, Repr

/-- What a port sends. -/
inductive Frame where
  | data (p : Packet)
  | ack (lseq : W32)
  | nak (lseq : W32)
  /-- a control frame for the dead link of dimension `d`, over the guyline of detour dimension `e`, at a hop index (R131) -/
  | guy (d e hop : Nat) (f : LinkWord)
  | park
  | parkAck (lsent lackd lacc : W32)
  | rekey
  /-- a rekey of the detour key (R127) -/
  | detourRekey
  | resync (lsent lacc : W32)
deriving DecidableEq, Repr

/-- A transmission: the frame, its NCTR, and the generation of the key that seals it (R126, R127). -/
structure Sent where
  frame : Frame
  nctr : Nat
  key : Nat
deriving DecidableEq, Repr

/-- The port of one physical dimension (R113, R122 to R132, R337). `waiting` holds packets accepted for the link and not yet
sent, `rx` packets accepted from the link and not yet performed or forwarded; `sent` is what has left the port, oldest
first. A key is known by its generation: each key agreement begins the next one (R127). -/
structure Port where
  state : PortState
  since : Nat
  lsent : W32
  lackd : W32
  lacc : W32
  replay : List Packet
  waiting : List Packet
  rx : List Packet
  /-- last LSEQ sent over the guyline and not acknowledged (R132) -/
  guyLast : Option W32
  replays : Nat
  lastAck : Nat
  nctrOut : Nat
  nctrIn : Nat
  detourOut : Nat
  detourIn : Nat
  key : Nat
  detourKey : Nat
  rekey : Bool
  detourRekey : Bool
  guydim : Byte
  lkerr : W32
  /-- state before PARKED, and whether the guyline was in use (R337, R339) -/
  before : PortState
  guyBefore : Bool
  /-- this end has sent PARK and has no answer yet (R339) -/
  asked : Bool
  /-- the neighbour's RESYNC has not come: no packet flows on the link (R340) -/
  resync : Bool
  /-- this end's RESYNC has not left: no control frame reaches the other end yet (R340) -/
  owes : Bool
  /-- an image that is to be applied to this die holds the port's record: no resync of the neighbour is taken (R149, R340) -/
  swapped : Bool
  /-- the two links of the guyline away from this die, as last reported (R130) -/
  farUp : Bool
  sent : List Sent
deriving DecidableEq, Repr

/-! ## Images and the package -/

/-- An image or dump held by structure (R332 to R337): header values, then the parts it saves. -/
structure Image where
  kind : Nat
  step : BitVec 4
  rev : BitVec 2
  tenant : Nat
  jobid : W32
  coord : BitVec 13
  rank : BitVec 13
  scmask : BitVec 13
  cause : Byte
  level : Nat
  serial : Nat
  bpcnt : W64
  cyc : W64
  complete : Bool
  /-- slot of the image area that holds it (R343); 5 when the package holds it itself -/
  slot : Nat
  /-- its sealed bytes as they were written -/
  bytes : List Byte
  /-- the sealed copy is complete in the hosting slot of the dimension-0 neighbour (R345) -/
  hosted : Bool
  regs : Regs
  tiles : Tiles
  ctl : Ctl
  stream : Stream
  lines : Vector Timeline 11
  eng : Engines
  loc : List Host.Cell
  /-- the high-water table of the job (R119) -/
  marks : List Byte
  ports : Vector Port 13
  lanternC : Vector (W64 × W64) 512
  lanternM : Vector (W64 × W64) 512
deriving DecidableEq, Repr

/-- A .window line of a launch block or template (R195): index, VBASE, SIZE code, KIND, the rank or aperture of its target and
the offset there, rights, SCOPE, STATE and pager region. -/
structure WindowLine where
  index : Nat
  vbase : Nat
  size : Nat
  kind : Nat
  rank : Nat
  off : Nat
  rd : Bool
  wr : Bool
  scope : Nat
  state : Nat
  region : Nat
deriving DecidableEq, Repr

/-- Launch record of a kernel (R194). Register and control values in the order of the block. -/
structure LaunchRec where
  dims : Nat
  domain : Option (BitVec 13)
  entry : Option W64
  regs : List (Landing)
  srseed : Option W64
  energy : Nat
  rev : BitVec 2
  windows : List WindowLine
deriving DecidableEq, Repr

/-- Job record (R304, R305). -/
structure JobRec where
  k : Nat
  cls : Nat
  pol3 : BitVec 2
  kernel : Nat
  quant : Nat
  cont : Nat
  csize : Nat
  buddy : Nat
  enest : Nat
  flagAddr : Nat
  flagVal : W64
  optional : Bool
deriving DecidableEq, Repr

/-- Where a job stands with the scheduler (R307 to R311). -/
inductive JobState where
  | waiting
  /-- a sub-cube is granted and its images are to be applied (R341) -/
  | placed
  | running | draining (since : Nat) | swapping | awaitDie (since : Nat) | ended (status : Byte)
deriving DecidableEq, Repr

/-- A place in the arrival order (R302): cycle of acceptance, queue, how often a job was queued again before the entry of this
place (R170), and count. -/
structure Arrival where
  cycle : Nat
  queue : Nat
  ahead : Nat
  count : Nat
deriving DecidableEq, Repr

/-- A job, or an element of a chain (R152, R302). -/
structure Job where
  id : Nat
  tenant : Nat
  queue : Nat
  seq : W32
  record : JobRec
  cls : Nat
  arrival : Arrival
  passes : Nat
  agedAt : Nat
  state : JobState
  scmask : BitVec 13
  scbase : BitVec 13
  /-- SCBASE of the sub-cube on which the image was taken (R33) -/
  oldBase : BitVec 13
  quantUsed : Nat
  quantFrom : Nat
  /-- chain and element index -/
  chain : Option (Nat × Nat)
  /-- image to resume from: KIND and SERIAL (R338) -/
  image : Option (Nat × Nat)
  /-- level 2 retries of this die in the launch, when the job left it or its fatal trap came (R171) -/
  dieRetries : Nat
  tenantRetries : Nat
  buddyAt : Nat
  /-- time of the first stop that another die has reported at the present buddy point (R345) -/
  peerStop : Option Nat
  /-- what the other dies have reported -/
  peers : List PeerReport
  launch : Option LaunchRec
  /-- window table while switched out, and the entries with a pending refusal (R109) -/
  saved : Option (Vector (W64 × W64) 2048)
  refused : List Nat
deriving DecidableEq, Repr

/-- A chain (R152, R154): its elements still to launch. -/
structure Chain where
  id : Nat
  tenant : Nat
  queue : Nat
  seq : W32
  elems : List JobRec
  next : Nat
  cls : Nat
  quant : Nat
  arrival : Arrival
  cancelled : Bool
deriving DecidableEq, Repr

/-- An event entry of 32 bytes, by its fields (R354): kind, byte 6, byte 7, coordinate, job, and the kind's own bytes. -/
structure Event where
  kind : Nat
  b6 : Byte
  b7 : Byte
  coord : W16
  job : W16
  b10 : W16
  b12 : Byte
  w16 : W64
  w24 : W64
  reraise : Bool
  /-- completion flag that is written after the entry: host address and value (R306) -/
  flag : Option (Nat × W64)
  /-- chain element that ends: chain, index, status, and whether it is optional (R154) -/
  element : Option (Nat × Nat × Byte × Bool)
deriving DecidableEq, Repr

/-- A tenant (R353, R359, R102, R103). -/
structure Tenant where
  used : Bool
  cfg : TenantCfg
  epoch : W64
  evbase : W64
  evlog : BitVec 5
  evwr : W32
  evrd : W32
  evovf : Bool
  heldEvents : List Event
  /-- regions with a registered pager -/
  pagers : List Nat
  pgans0 : W64
  pgans1 : W64
  pgres : W32
  resetting : Bool
  stopped : Bool
deriving DecidableEq, Repr

/-- A host queue (R361, R363). -/
structure HQueue where
  qbase : W64
  qlog : BitVec 5
  qtail : W32
  qhead : W32
  qacc : W32
  /-- QPROG as frozen at switch-out -/
  frozen : W32
  shadow : W32
  out : Bool
  /-- accepted entries not yet ended -/
  live : List W32
deriving DecidableEq, Repr

/-- A dump in the package's hands: its tenant, epoch and host address (R348, R350). -/
structure Dump where
  tenant : Nat
  epoch : W64
  serial : Nat
  addr : Nat
  img : Image
deriving DecidableEq, Repr

/-- The package functions that this die's package holds (R302 to R311, R359 to R368). -/
structure Pkg where
  tenants : Vector Tenant 16
  queues : Vector HQueue 64
  jobs : List Job
  chains : List Chain
  arrivals : Nat
  nextJob : Nat
  /-- the cycle in which a job arrived or ended, a swap-out was complete, or a ready bit was set: a placement pass is due for
  it (R308) -/
  passDue : Option Nat
  /-- elements whose end event and flag are written, and whose chains go on (R154) -/
  written : List (Nat × Nat × Byte × Bool)
  /-- the engines of this die still complete the commands of a job that has ended (R155) -/
  clearing : Bool
  ageq : Nat
  /-- status block, words 0 to 8 (R366) -/
  status : Vector W32 9
  firmware : List Byte
  newFirmware : Option (List Byte)
  secret : Option (List Byte)
  /-- tenant whose job the modelled die last ran (R360) -/
  lastTenant : Option Nat
  /-- job resident on the modelled die -/
  resident : Option Nat
  images : List Image
  /-- buddy points of the neighbour's images in hosting slots 2 and 3, latest first (R343, R345) -/
  hosting : List (Nat × W64)
  dumps : List Dump
  serial : Nat
  /-- positions of other dies of the package that a fatal trap has frozen and that have not been reset (R307, R351) -/
  frozen : List Nat
  /-- time of the last SDUMP performed (R352) -/
  lastDump : Option Nat
  /-- HDM decoders (R356) -/
  hdm : List HdmRange
  /-- junction temperature in degrees (R368), and whether refills are withheld -/
  celsius : Nat
  withheld : Bool
  /-- answers to SPDM requests, newest first: index, function, digest (R367) -/
  spdm : List (Nat × Nat × List Byte)
  /-- reads of package registers and DRAM answered to the host, newest first -/
  answers : List W64
  /-- what management sees of fatal-trap and image events: KIND, COORD, SEQ, bytes 6 and 7 (R358) -/
  mgmt : List (Nat × W16 × W32 × Byte × Byte)
deriving DecidableEq, Repr

end Sys2Proof.Machine
end

