-- ==== Sys2Proof/Config.lean ====
section
/-! DEFINITION. What the spec leaves to the implementation or does not state: constants with no body, which no proof can
see into. A free value is one of these applied to `State.draws`, the model's counter of free choices. -/

namespace Sys2Proof.Config

open Sys2Proof.Machine

/-- Which agent moves next (R138, R140, R149): free. -/
opaque turn : Nat → Nat

/-- Phase of the power controller's clock at a launch or resume (R314): free, taken modulo 1,024. -/
opaque refillPhase : Nat → Nat

/-- A dump epoch drawn from the package's random generator (R350): free. -/
opaque dumpEpoch : Nat → BitVec 64

/-- Whether a firmware image passes ECDSA P-384 with SHA-384 against the Kolzal key (R367). -/
opaque firmwareVerifies : List (BitVec 8) → Bool

/-- SHA-384 (R198, R367): 48 bytes. -/
opaque sha384 : List (BitVec 8) → Vector (BitVec 8) 48

/-- SHA-384 measurement of index 1, 2 or 3 over the firmware, the tenant table or the function's own entry, with the
signature of the device identity key (R367). The layout of the measured table is not given. -/
opaque measurement : Nat → List (BitVec 8) → List TenantCfg → List (BitVec 8)

/-- AES-256-GCM under a key and a 96-bit IV: the text encrypted with its authentication tag of 16 bytes over the clear bytes
and the text (R126, R129, R337). -/
opaque gcmSeal : List (BitVec 8) → List (BitVec 8) → List (BitVec 8) → List (BitVec 8) → List (BitVec 8) × List (BitVec 8)

/-- A link key, or a detour key, of a port: the one of a generation of key agreement (R127). -/
opaque linkKey : Nat → Bool → Nat → List (BitVec 8)

/-- The 32-bit port identifier of the sending direction of a port (R126). -/
opaque portId : Nat → BitVec 32

/-- The launch record of a container section (R194, R198): its layout is not given. -/
opaque parseLaunch : List (BitVec 8) → Option LaunchRec

/-- The lines of a window-table template section (R195, R198): its layout is not given. -/
opaque parseWindows : List (BitVec 8) → List WindowLine

/-- Native code that the driver finalises from a portable-form section for an encoding revision (R200). -/
opaque finalise : List (BitVec 8) → BitVec 2 → Option (List (BitVec 8))

/-- The clear body of an image or dump, which holds the parts of R332, R334 or R348: its layout is not given. -/
opaque imageBody : Image → List (BitVec 8)

/-- HKDF with SHA-384 over the image secret, with a context (R338, R350). -/
opaque hkdf : List (BitVec 8) → List (BitVec 8) → List (BitVec 8)

/-- HMAC-SHA-384 under a key (R337). -/
opaque hmac : List (BitVec 8) → List (BitVec 8) → Vector (BitVec 8) 48

/-- The public key of the package's device identity (R350). -/
opaque identityKey : List (BitVec 8)

/-- What the other packages that a sub-cube touches answer for a job: their dies are granted to the job's tenant (first), and
the sub-cube is placeable on them (second) (R307). Free: it belongs to their state. -/
opaque othersGrant : Nat → BitVec 13 → BitVec 13 → Bool
opaque othersPlaceable : Nat → Nat → BitVec 13 → BitVec 13 → Bool

/-- The image of a RANK of a job that was captured on a die outside this model (R158, R341), and the window table of such a
die (R103, R158): free. -/
opaque foreignImage : Nat → Option Image
opaque foreignTable : Nat → Vector (BitVec 64 × BitVec 64) 2048

/-- The word of die status, ready bits and fault registers at an address of their region (R15): the layout is not given, so
the value read is free. -/
opaque statusWord : Nat → Nat → BitVec 64

end Sys2Proof.Config
end

