-- ==== Sys2Proof/Machine/State.lean ====
section
/-! DEFINITION. The machine's state, the reasons a step can stop, and the state after reset. -/

namespace Sys2Proof.Machine

/-- Why a run stops with a fault. Nothing in this model raises one: every fault of the spec has a described delivery
(R31, R169, R320) and is taken as a next state. -/
inductive Fault where
  /-- Raised by nobody: no access and no instruction of the spec is without a described outcome. Safe. -/
  | stuck
deriving DecidableEq, Repr

/-- Why a step has no meaning. -/
inductive Refusal where
  /-- An arm of `exec` that has no meaning yet, by the table's mnemonic. Safe: no run goes through it. -/
  | notModelled (mnemonic : String)
deriving DecidableEq, Repr

/-- The modelled die with its ports, its package and its memories. -/
structure State where
  regs : Regs
  tiles : Tiles
  ctl : Ctl
  stream : Stream
  /-- timelines of contexts 0x0 to 0xA (R161, R164) -/
  lines : Vector Timeline 11
  eng : Engines
  mem : Mem
  ports : Vector Port 13
  pkg : Pkg
  /-- what completions of the current cycle add at its end (R82, R90) -/
  late : Late
  /-- sources of packets performed in the current cycle: a later packet of the pair is performed in a later one (R142) -/
  arrived : List (BitVec 13)
  /-- control registers that a turn of the current cycle has changed, with their values at its start (R206) -/
  begun : List (Nat × W64)
  /-- outside events that have come and wait to be taken, each with what it brings (DESIGN CHOICE, log 7) -/
  inputs : List (Instr × EvArg)
  /-- what the event now taken brings -/
  arg : EvArg
  /-- wall clock in cycles of 1.75 GHz (DESIGN CHOICE, log 5) -/
  now : Nat
  /-- power controller's clock, 0 to 1,023 (R314) -/
  refillClk : Nat
  /-- free values taken so far (DESIGN CHOICE, log 6) -/
  draws : Nat
deriving DecidableEq, Repr

/-- The register files as cleared (R47). -/
def Regs.clear : Regs :=
  { s := .replicate 32 0, a := .replicate 16 0, n := .replicate 16 0, e := .replicate 16 0, g := .replicate 16 false,
    k := .replicate 8 0, v := .replicate 32 (.replicate 1024 0), b := .replicate 16 0 }

/-- Tiles and matrix engines as cleared (R47, R246). -/
def Tiles.clear : Tiles :=
  { bytes := [], active := [], shadow := [], acc := [], mode := .replicate 16 .none,
    activeFmt := .replicate 16 none, shadowFmt := .replicate 16 none }

/-- Control registers at the reset values of their chapters. -/
def Ctl.clear : Ctl :=
  { vflags := 0, msat := 0, srstate := 0x9E3779B97F4A7C15#64, contpol := 0, lwthr := 0x00055730#32, lwstat := false,
    scmask := 0, scbase := 0, diecoord := 0, jobid := 0, lsdmask := 0, wtlock := false, wfaddr := 0, wfinfo := 0,
    codelim := 0, cecnt := 0, ceinfo := 0, ceaddr := 0, ilinfo := 0, iladdr := 0, encrev := 0x0022#16, rev := 1,
    discrd := 0, rsdup := 0, rshwb := 0, rsseq := .replicate 4 0, exto := 0x001AB3F0#32, xdrop := 0, rqdrop := 0,
    enacct := 0, enrsv := 0, enrate := 0, encap := 0, endefer := 0, zovf := .replicate 4 0, lc := .replicate 4 0,
    lstart := .replicate 4 0, lend := .replicate 4 0, loops := [], tshape := .replicate 16 0, mexcl := 0,
    bndbuf := .replicate 2 0, chcfg := 0, chneed := 0, chelem := 0, bndAt := false, bndfmt := .replicate 2 0,
    trapvec := 0, tpc := 0, tcause := 0, tinfo := 0, taddr := 0, inHandler := false, swPending := false,
    drainReq := false, pend := [], tsave := .replicate 4 0, watch := .replicate 4 0, wctl := .replicate 4 0, wmatch := 0,
    drctl := 0, drentry := 0, drrem := 0, livemap := 0, bpcnt := 0, budtgt := 0, cyccnt := 0, lnwrc := 0, lnwrm := 0 }

/-- Nothing asked. -/
def Ask.none : Ask :=
  { slot := 0, faulted := false, counted := false, target := .none, taken := false, bubbles := 0, trap := .none,
    rte := .none, ended := false,
    reraise := false, bpoint := false, dpoint := false, sdump := false, rpt := .none, mark := .none, enres := .none,
    late := [] }

/-- The control stream before a launch. -/
def Stream.clear : Stream :=
  { pc := 0x18000000#64, mode := .idle, bubbles := 0, held := false, waited := 0, ras := [], buf := none, rpt := none,
    results := [], sram := [], tileOps := [], tileNow := [], save := none, noWatch := false, draining := none, stopDue := false,
      counting := false, retries := 0, haltAt := 0,
    seq := 0, ask := Ask.none }

/-- A timeline at launch (R161). -/
def Timeline.clear : Timeline := { count := 0, seen := 0, issued := 0, done := [], err := 0, errAt := none, killed := false, killedAt := 0 }

/-- An exchange queue at launch (R268). -/
def XQueue.clear : XQueue :=
  { queue := [], arms := [], sendCount := .replicate 13 0, recvCount := .replicate 13 0, readies := [], aborts := [],
    deadRecv := [], deadSend := [] }

/-- An unconfigured row queue (R278). -/
def RowQueue.clear : RowQueue :=
  { cfgd := false, base := 0, rowsz := 0, cap := 0, depth := 0, head := 0, heldBy := [] }

/-- The engines at launch: every queue empty. -/
def Engines.clear : Engines :=
  { copy := .replicate 4 [], issueBuf := [], xq := .replicate 4 XQueue.clear, walker := [], snaps := [], early := [],
    partly := [], rowParts := [], matrix := .replicate 16 [], tasks := [], chain := [],
      rows := .replicate 256 RowQueue.clear, newRows := [],
    routed := .replicate 256 0, freeze := 0 }

/-- The memories with nothing written (DESIGN CHOICE, log 4). -/
def Mem.clear : Mem :=
  { loc := [], dram := [], host := [], undo := [], undoDram := [], wtab := .replicate 2048 (0, 0),
    lanternC := .replicate 512 (0, 0),
    lanternM := .replicate 512 (0, 0), lanternNow := (0, 0) }

/-- Nothing to add. -/
def Late.clear : Late := { flags := 0, sat := 0, zovf := .replicate 4 0 }

/-- A port after reset (R125). -/
def Port.clear : Port :=
  { state := .down, since := 0, lsent := 0, lackd := 0, lacc := 0, replay := [], waiting := [], rx := [], guyLast := none,
    replays := 0, lastAck := 0, nctrOut := 0, nctrIn := 0, detourOut := 0, detourIn := 0, key := 0, detourKey := 0,
    rekey := false, detourRekey := false, guydim := 0, lkerr := 0, before := .down, guyBefore := false, asked := false, resync := false,
    owes := false, swapped := false, farUp := false, sent := [] }

/-- A tenant entry that is not in use (R359). -/
def Tenant.clear : Tenant :=
  { used := false,
    cfg := { grant := 0, qmask := 0, aper := [], dumpa := { base := 0, size := 0 }, pol4 := 0, endef := 0, susp := false },
    epoch := 0, evbase := 0, evlog := 0, evwr := 0, evrd := 0, evovf := false, heldEvents := [], pagers := [],
    pgans0 := 0, pgans1 := 0, pgres := 0, resetting := false, stopped := false }

/-- A host queue after reset (R361). -/
def HQueue.clear : HQueue :=
  { qbase := 0, qlog := 0x06#5, qtail := 0, qhead := 0, qacc := 0, frozen := 0, shadow := 0, out := false, live := [] }

/-- The package functions after reset. -/
def Pkg.clear : Pkg :=
  { tenants := .replicate 16 Tenant.clear, queues := .replicate 64 HQueue.clear, jobs := [], chains := [], arrivals := 0,
    nextJob := 1, passDue := none, written := [], clearing := false, ageq := 17500000, status := .replicate 9 0,
      firmware := [], newFirmware := none, secret := none,
    lastTenant := none, resident := none, images := [], hosting := [], dumps := [], serial := 0, frozen := [],
    lastDump := none, hdm := [], celsius := 0, withheld := false,
    spdm := [], answers := [], mgmt := [] }

/-- The machine right after reset: the reset values of the register tables, everything else cleared, no program loaded. -/
def State.reset : State :=
  { regs := Regs.clear, tiles := Tiles.clear, ctl := Ctl.clear, stream := Stream.clear, lines := .replicate 11 Timeline.clear,
    eng := Engines.clear, mem := Mem.clear, ports := .replicate 13 Port.clear, pkg := Pkg.clear,
    late := Late.clear, arrived := [], begun := [], inputs := [],
    arg := .none, now := 0, refillClk := 0, draws := 0 }

end Sys2Proof.Machine
end

