-- ==== Sys2Proof/Machine/Ops.lean ====
section
/-! DEFINITION. The named operations over registers and memory that every meaning is written with, taking a trap and
returning from one, containment, and completing a command. -/

namespace Sys2Proof.Machine

/-! ## Sparse stores -/

/-- The content of a key; a key that is not listed holds zero. -/
def cellGet {w : Nat} : List (Nat × BitVec w) → Nat → BitVec w
  | [], _ => 0
  | (b, x) :: r, a => if a = b then x else if a < b then 0 else cellGet r a

/-- Write one key, keeping keys strictly rising and listing no zero. -/
def cellPut {w : Nat} : List (Nat × BitVec w) → Nat → BitVec w → List (Nat × BitVec w)
  | [], a, x => if x = 0 then [] else [(a, x)]
  | (b, y) :: r, a, x =>
    if a = b then (if x = 0 then r else (a, x) :: r)
    else if a < b then (if x = 0 then (b, y) :: r else (a, x) :: (b, y) :: r)
    else (b, y) :: cellPut r a x

/-- Every key is at least `lo`, keys rise strictly, and no content is zero. -/
def cellsFrom {w : Nat} : Nat → List (Nat × BitVec w) → Bool
  | _, [] => true
  | lo, (b, x) :: r => decide (lo ≤ b) && decide (x ≠ 0) && cellsFrom (b + 1) r

/-- The canonical form of a sparse store. -/
def cellsWf {w : Nat} (l : List (Nat × BitVec w)) : Bool := cellsFrom 0 l

/-- `n` bytes from address `a`. -/
def getBytes (l : List Host.Cell) (a n : Nat) : List Byte := (List.range n).map fun i => cellGet l (a + i)

/-- Write bytes from address `a` upward. -/
def putBytes : List Host.Cell → Nat → List Byte → List Host.Cell
  | l, _, [] => l
  | l, a, b :: r => putBytes (cellPut l a b) (a + 1) r

/-- Remove every key of [lo, lo + n): those locations hold zero. -/
def clearCells {w : Nat} (l : List (Nat × BitVec w)) (lo n : Nat) : List (Nat × BitVec w) :=
  l.filter fun c => decide (c.1 < lo) || decide (lo + n ≤ c.1)

/-- The number that bytes spell little-endian (R56). -/
def leNat : List Byte → Nat
  | [] => 0
  | b :: r => b.toNat + 256 * leNat r

/-- `n` bytes of a number, little-endian (R56). -/
def leBytes : Nat → Nat → List Byte
  | 0, _ => []
  | n + 1, x => BitVec.ofNat 8 x :: leBytes n (x / 256)

/-- Element `i` of a vector, or `d` beyond its end. -/
def vget {α : Type} {n : Nat} (v : Vector α n) (i : Nat) (d : α) : α := v[i]?.getD d

/-- Replace element `i`. -/
def vset {α : Type} {n : Nat} (v : Vector α n) (i : Nat) (x : α) : Vector α n := v.setIfInBounds i x

/-- Saturating increment of a 32-bit count by `k`. -/
def satAdd32 (x : W32) (k : Nat) : W32 := BitVec.ofNat 32 (min (x.toNat + k) 0xFFFFFFFF)

/-- A 64-bit number read as signed. -/
def sgn (x : W64) : Int := x.toInt

/-! ## Registers -/

/-- Read of a scalar register; s0 reads zero (R201). -/
def Regs.rs (r : Regs) (i : BitVec 5) : W64 := if i = 0 then 0 else vget r.s i.toNat 0
/-- Read of an address register. -/
def Regs.ra (r : Regs) (i : BitVec 4) : W64 := vget r.a i.toNat 0
/-- Read of a stride register. -/
def Regs.rn (r : Regs) (i : BitVec 4) : W64 := vget r.n i.toNat 0
/-- Read of a staging register. -/
def Regs.re (r : Regs) (i : Nat) : W64 := vget r.e i 0
/-- Read of a guard; g0 is true and g1 false (R8, R201). -/
def Regs.rg (r : Regs) (i : BitVec 4) : Bool := if i = 0 then true else if i = 1 then false else vget r.g i.toNat false
/-- Read of a lane predicate; k0 is all lanes (R8, R223). -/
def Regs.rk (r : Regs) (i : BitVec 3) : BitVec 1024 := if i = 0 then BitVec.allOnes 1024 else vget r.k i.toNat 0
/-- Read of a vector register. -/
def Regs.rv (r : Regs) (i : BitVec 5) : Vector W32 1024 := vget r.v i.toNat (.replicate 1024 0)

/-- Write of a scalar register; a write to s0 is discarded (R201). -/
def Regs.ws (r : Regs) (i : BitVec 5) (x : W64) : Regs := if i = 0 then r else { r with s := vset r.s i.toNat x }
/-- Write of an address register. -/
def Regs.wa (r : Regs) (i : BitVec 4) (x : W64) : Regs := { r with a := vset r.a i.toNat x }
/-- Write of a stride register. -/
def Regs.wn (r : Regs) (i : BitVec 4) (x : W64) : Regs := { r with n := vset r.n i.toNat x }
/-- Write of a staging register. -/
def Regs.we (r : Regs) (i : BitVec 4) (x : W64) : Regs := { r with e := vset r.e i.toNat x }
/-- Write of a guard; writes to g0 and g1 are discarded (R201). -/
def Regs.wg (r : Regs) (i : BitVec 4) (x : Bool) : Regs := if i.toNat < 2 then r else { r with g := vset r.g i.toNat x }
/-- Write of the named lanes of a predicate; a write to k0 is discarded (R223). -/
def Regs.wk (r : Regs) (i : BitVec 3) (lanes x : BitVec 1024) : Regs :=
  if i = 0 then r else { r with k := vset r.k i.toNat ((vget r.k i.toNat 0 &&& ~~~lanes) ||| (x &&& lanes)) }
/-- Write of the named lanes of a vector register. -/
def Regs.wv (r : Regs) (i : BitVec 5) (lanes : BitVec 1024) (x : Vector W32 1024) : Regs :=
  let old := r.rv i
  { r with v := vset r.v i.toNat (Vector.ofFn fun j => if lanes.getLsbD j.val then x[j] else old[j]) }
/-- g2 to g15 from bits 2 to 15 (GSET, R205). -/
def Regs.wgset (r : Regs) (x : W16) : Regs :=
  { r with g := Vector.ofFn fun j => if j.val < 2 then r.g[j] else x.getLsbD j.val }

/-! ## The die-local map -/

/-- What an address names (R11, R12). -/
inductive Region where
  | sram | ws | code | hole | control | window | high
deriving DecidableEq, Repr

/-- The die-local physical map of R11; bits [63:48] not zero is `high` (R12). -/
def region (a : Nat) : Region :=
  if a < 0x10000000 then .sram
  else if a < 0x18000000 then .ws
  else if a < 0x18080000 then .code
  else if a < 0x1C000000 then .hole
  else if a < 0x20000000 then .control
  else if a < 0x100000000 then .hole
  else if a < 0x1000000000000 then .window
  else .high

/-- A range lies wholly in shared SRAM or wholly in the working store. One that straddles their border is neither (DESIGN
CHOICE, log 52). -/
def inLocal (a n : Nat) : Bool :=
  (decide (a + n ≤ 0x10000000)) || (decide (0x10000000 ≤ a) && decide (a + n ≤ 0x18000000))

/-- A range lies wholly in the working store. -/
def inWs (a n : Nat) : Bool := decide (0x10000000 ≤ a) && decide (a + n ≤ 0x18000000)

/-- A range lies wholly in shared SRAM. -/
def inSram (a n : Nat) : Bool := decide (a + n ≤ 0x10000000)

/-- Hops to the slice of a shared-SRAM address: 1 + x + y (R34, R35). -/
def hops (a : Nat) : Nat := 1 + a / 4096 % 8 + a / 32768 % 8

/-- Bytes of a store as they stood when the current cycle began: what has been overwritten since is read from `undo`, where
the first old value of a byte stands first. -/
def oldBytes (undo loc : List Host.Cell) (a n : Nat) : List Byte :=
  (List.range n).map fun i =>
    match undo.find? (fun c => c.1 == a + i) with
    | some c => c.2
    | none => cellGet loc (a + i)

/-- Bytes of die-local memory as a read of this cycle finds them: the last writes of earlier cycles (R35, R135). -/
def State.load (s : State) (a n : Nat) : List Byte := oldBytes s.mem.undo s.mem.loc a n

/-- Bytes of DRAM as a read of this cycle finds them (R135). -/
def State.loadDram (s : State) (o n : Nat) : List Byte := oldBytes s.mem.undoDram s.mem.dram o n

/-- No byte of a range has been overwritten in this cycle: an atomic or a fold performed now follows every write (R48,
R147). -/
def fresh (undo : List Host.Cell) (a n : Nat) : Bool := undo.all fun c => decide (c.1 < a) || decide (a + n ≤ c.1)

/-- A store of the control stream or of the runtime to die-local memory. It is performed after every engine's write of its
cycle (R44), and the commands of its own bundle observe it (R138): they find the locations that it touches as it leaves them
(R134). -/
def State.store (s : State) (a : Nat) (bs : List Byte) : State :=
  { s with mem := { s.mem with
      loc := putBytes s.mem.loc a bs,
      undo := s.mem.undo.filter fun c => decide (c.1 / 8 < a / 8) || decide ((a + bs.length + 7) / 8 ≤ c.1 / 8) } }

/-- The old values of bytes about to be overwritten, in front of those already kept unless one of them is. -/
def keepOld (undo : List Host.Cell) (loc : List Host.Cell) (a n : Nat) : List Host.Cell :=
  undo ++ ((List.range n).map fun i => (a + i, cellGet loc (a + i)))

/-- A store by an engine, a task, a tile operation or incoming traffic: the reads of the current cycle still see the old bytes
(R35, R135). -/
def State.storeEng (s : State) (a : Nat) (bs : List Byte) : State :=
  { s with mem := { s.mem with loc := putBytes s.mem.loc a bs, undo := keepOld s.mem.undo s.mem.loc a bs.length } }

/-- A write to DRAM by an engine or incoming traffic. -/
def State.storeDram (s : State) (o : Nat) (bs : List Byte) : State :=
  { s with mem := { s.mem with
      dram := putBytes s.mem.dram o bs, undoDram := keepOld s.mem.undoDram s.mem.dram o bs.length } }

/-! ## Lantern ring (R347) -/

/-- Word 0 of a lantern entry: TIME, KIND and INFO. -/
def lanternWord (cyc : W64) (kind info : Nat) : W64 :=
  BitVec.ofNat 64 (cyc.toNat % 2 ^ 48 + kind % 256 * 2 ^ 48 + info % 256 * 2 ^ 56)

/-- KIND of a lantern entry. -/
def lanternKind (e : W64 × W64) : Nat := e.1.toNat / 2 ^ 48 % 256

/-- The entry at index `i` moves before those of the same cycle, `n` of them, whose kinds stand later in the table: entries
of one cycle stand in the order of the table. -/
def lanternOrder (v : Vector (W64 × W64) 512) (i : BitVec 9) : Nat → Vector (W64 × W64) 512
  | 0 => v
  | n + 1 =>
    let a := vget v (i - 1).toNat (0, 0)
    let b := vget v i.toNat (0, 0)
    if lanternKind b < lanternKind a then lanternOrder (vset (vset v (i - 1).toNat b) i.toNat a) (i - 1) n else v

/-- A lantern entry of the control-flow half. -/
def State.lanternC (s : State) (kind info : Nat) (w1 : W64) : State :=
  let i := s.ctl.lnwrc
  let v := vset s.mem.lanternC i.toNat (lanternWord s.ctl.cyccnt kind info, w1)
  { s with
    mem := { s.mem with
      lanternC := lanternOrder v i s.mem.lanternNow.1, lanternNow := (s.mem.lanternNow.1 + 1, s.mem.lanternNow.2) },
    ctl.lnwrc := i + 1 }

/-- A lantern entry of the memory half. -/
def State.lanternM (s : State) (kind info : Nat) (w1 : W64) : State :=
  let i := s.ctl.lnwrm
  let v := vset s.mem.lanternM i.toNat (lanternWord s.ctl.cyccnt kind info, w1)
  { s with
    mem := { s.mem with
      lanternM := lanternOrder v i s.mem.lanternNow.2, lanternNow := (s.mem.lanternNow.1, s.mem.lanternNow.2 + 1) },
    ctl.lnwrm := i + 1 }

/-- Two 32-bit halves of a lantern entry's bytes [15:8]. -/
def pair32 (lo hi : Nat) : W64 := BitVec.ofNat 64 (lo % 2 ^ 32 + hi % 2 ^ 32 * 2 ^ 32)

/-- Code-store offset of an address. -/
def codeOff (a : W64) : Nat := (a - 0x18000000#64).toNat

/-! ## Sub-cube (R156) -/

/-- Positions of the set bits of a mask, from bit 0. -/
def setBits {w : Nat} (m : BitVec w) : List Nat := (List.range w).filter fun i => m.getLsbD i

/-- Deposit the low bits of `x` into the set bits of a mask. -/
def deposit {w : Nat} (m : BitVec w) (x : Nat) : BitVec w :=
  BitVec.ofNat w (((setBits m).zipIdx.map fun (p, i) => if x.testBit i then 2 ^ p else 0).sum)

/-- Extract the bits under a mask, packed downward. -/
def extract {w : Nat} (m x : BitVec w) : Nat :=
  ((setBits m).zipIdx.map fun (p, i) => if x.getLsbD p then 2 ^ i else 0).sum

/-- k, the number of logical dimensions of the job. -/
def Ctl.dims (c : Ctl) : Nat := (setBits c.scmask).length

/-- RANK, derived from DIECOORD and SCMASK (R156). -/
def Ctl.rank (c : Ctl) : BitVec 13 := BitVec.ofNat 13 (extract c.scmask c.diecoord)

/-- The physical dimension of logical dimension j (R157). -/
def Ctl.phys (c : Ctl) (j : Nat) : Nat := (setBits c.scmask).getD j 0

/-- The coordinate of the die of a RANK in this job. -/
def Ctl.coordOf (c : Ctl) (rank : Nat) : BitVec 13 := (c.diecoord &&& ~~~c.scmask) ||| deposit c.scmask rank

/-! ## Results in flight -/

/-- Put a result in flight that lands after `rem` counted cycles (R36, R160). -/
def State.push (s : State) (rem : Nat) (land : Landing) (flags : BitVec 6) (sat : W16) : State :=
  { s with stream := { s.stream with
      results := s.stream.results ++ [{ seq := s.stream.seq, rem := rem, land := land, flags := flags, sat := sat }],
      seq := s.stream.seq + 1 } }

/-- Put a result in flight that sets no flag. -/
def State.put (s : State) (rem : Nat) (land : Landing) : State := s.push rem land 0 0

/-- OR flags into VFLAGS and MSAT (R73, R82). -/
def State.orFlags (s : State) (flags : BitVec 6) (sat : W16) : State :=
  { s with ctl := { s.ctl with vflags := s.ctl.vflags ||| flags, msat := s.ctl.msat ||| sat } }

/-- Flags of an engine's completion: they are ORed in at the end of the cycle, after its writes (R82). -/
def State.orLate (s : State) (flags : BitVec 6) (sat : W16) : State :=
  { s with late := { s.late with flags := s.late.flags ||| flags, sat := s.late.sat ||| sat } }

/-- Overflowed blocks of copy engine `i`: they are added to ZOVF at the end of the cycle, after its writes (R90). -/
def State.addOverflow (s : State) (i n : Nat) : State :=
  { s with late := { s.late with zovf := vset s.late.zovf i (satAdd32 (vget s.late.zovf i 0) n) } }

/-- The control registers with what the cycle's completions add. -/
def State.lateCtl (s : State) : Ctl :=
  { s.ctl with
    vflags := s.ctl.vflags ||| s.late.flags, msat := s.ctl.msat ||| s.late.sat,
    zovf := Vector.ofFn fun i => satAdd32 s.ctl.zovf[i] s.late.zovf[i].toNat }

/-- The end of a cycle adds them (R82, R90). -/
def State.addLate (s : State) : State := { s with ctl := s.lateCtl, late := Late.clear }

/-- OCLD: loads and atomics on shared SRAM whose value has not landed (R38, R163). -/
def Stream.ocld (t : Stream) : Nat := (t.sram.filter fun o => decide (o.part = 0) && decide (o.kind ≠ .store)).length
/-- OCST: stores to shared SRAM not yet performed. -/
def Stream.ocst (t : Stream) : Nat := (t.sram.filter fun o => decide (o.part = 0) && decide (o.kind = .store)).length
/-- OCTO: tile loads, stores, copies and zeroings outstanding. -/
def Stream.octo (t : Stream) : Nat := t.tileOps.length
/-- OCCI: copy commands in the issue buffer. -/
def Engines.occi (e : Engines) : Nat := e.issueBuf.length

/-! ## Events of the tenant's ring (R353, R354) -/

/-- The 32 bytes of an event entry. -/
def Event.bytes (e : Event) (seq : Nat) : List Byte :=
  leBytes 4 seq ++ leBytes 2 e.kind ++ [e.b6, e.b7] ++ leBytes 2 e.coord.toNat ++ leBytes 2 e.b10.toNat ++
  [e.b12, if e.reraise then 1 else 0] ++ leBytes 2 e.job.toNat ++ leBytes 8 e.w16.toNat ++ leBytes 8 e.w24.toNat

/-- A tenant's entry. -/
def Pkg.tenant (p : Pkg) (t : Nat) : Tenant := vget p.tenants t Tenant.clear

/-- Firmware that has been verified (status bit 0, R366, R367); without it PF0 accepts only a new image. -/
def Pkg.verified (p : Pkg) : Bool := (vget p.status 0 0).getLsbD 0

/-- Replace a tenant's entry. -/
def State.setTenant (s : State) (t : Nat) (x : Tenant) : State :=
  { s with pkg.tenants := vset s.pkg.tenants t x }

/-- The ring has room: EVWR − EVRD is below 2^EVLOG. A ring whose EVLOG is not 6 to 16 has none. -/
def Tenant.room (t : Tenant) : Bool :=
  decide (6 ≤ t.evlog.toNat) && decide (t.evlog.toNat ≤ 16) && decide ((t.evwr - t.evrd).toNat < 2 ^ t.evlog.toNat)

/-- Write an event at EVWR of the ring of a tenant, then the completion flag it carries (R306, R353). Management sees KIND,
COORD, SEQ and the status bytes of fatal-trap and image events (R358); the chain of an element goes on (R154). -/
def State.writeEvent (s : State) (t : Nat) (e : Event) : State :=
  let x := s.pkg.tenant t
  let at_ := x.evbase.toNat + 32 * (x.evwr.toNat % 2 ^ x.evlog.toNat)
  let host := putBytes s.mem.host at_ (e.bytes x.evwr.toNat)
  let host := match e.flag with
    | some (a, v) => putBytes host a (leBytes 8 v.toNat)
    | none => host
  { s with
    mem.host := host,
    pkg := { s.pkg with
      tenants := vset s.pkg.tenants t { x with evwr := x.evwr + 1 },
      mgmt := if e.kind = 4 ∨ e.kind = 7 then (e.kind, e.coord, x.evwr, e.b6, e.b7) :: s.pkg.mgmt else s.pkg.mgmt,
      written := s.pkg.written ++ e.element.toList } }

/-- An event goes into the ring of a tenant, or is held, with EVOVF set, when the ring is full or older events are held. -/
def State.emit (s : State) (t : Nat) (e : Event) : State :=
  let x := s.pkg.tenant t
  if x.room && x.heldEvents.isEmpty then s.writeEvent t e
  else s.setTenant t { x with heldEvents := x.heldEvents ++ [{ e with reraise := true }], evovf := true }

/-- The job resident on the die. -/
def Pkg.residentJob (p : Pkg) : Option Job := p.jobs.find? fun j => decide (some j.id = p.resident)

/-- The job's die programs are resident and not ordered to end. -/
def Job.runs (j : Job) : Bool :=
  match j.state with
  | .running => true
  | .draining _ => true
  | .swapping => true
  | _ => false

/-- The tenant whose job is resident, or has ended with engines that still complete its commands (R102, R155); 16, which is no
tenant, when there is none. -/
def Pkg.residentTenant (p : Pkg) : Nat :=
  match p.residentJob with
  | some j => j.tenant
  | none => if p.clearing then p.lastTenant.getD 16 else 16

/-- Replace a job, by its id. -/
def Pkg.setJob (p : Pkg) (j : Job) : Pkg := { p with jobs := p.jobs.map fun x => if x.id = j.id then j else x }

/-- An event that concerns this die: coordinate and job are its own. -/
def State.dieEvent (s : State) (kind : Nat) (b6 b7 : Byte) (b10 : W16) (b12 : Byte) (w16 w24 : W64) : Event :=
  { kind := kind, b6 := b6, b7 := b7, coord := s.ctl.diecoord.zeroExtend 16, job := s.ctl.jobid.truncate 16,
    b10 := b10, b12 := b12, w16 := w16, w24 := w24, reraise := false, flag := none, element := none }

/-! ## Ports -/

/-- Port state code of LKSTAT [2:0] (R133). -/
def PortState.code : PortState → Nat
  | .down => 0 | .train => 1 | .up => 2 | .stopped => 3 | .failed => 4 | .parked => 5

/-- The state sends by the guyline (R125). -/
def PortState.detours : PortState → Bool
  | .down => true | .train => true | .stopped => true | .failed => true | .up => false | .parked => false

/-- A port, DOWN beyond dimension 12. -/
def State.port (s : State) (d : Nat) : Port := vget s.ports d Port.clear

/-- NCTR values at which a rekey starts and at which a key stops (R127). -/
def rekeyAt : Nat := 2 ^ 48
/-- See `rekeyAt`. -/
def stopAt : Nat := 2 ^ 48 + 2 ^ 40

/-- The guyline of port `d` is available (R130): GUYDIMd valid, its three links UP, the detour key not stopped. -/
def State.guyReady (s : State) (d : Nat) : Bool :=
  let p := s.port d
  p.guydim.getLsbD 4 && decide ((s.port (p.guydim.toNat % 16)).state = .up) && p.farUp && decide (p.detourOut < stopAt)

/-- Bit 3 of LKSTAT (R133): the port's guyline is in use. -/
def State.guyUsed (s : State) (d : Nat) : Bool := (s.port d).state.detours && s.guyReady d

/-- The guyline of a port is in use as its record shows it (R337): now, or when a capture asked it to park, which parks the
links of the guyline as well (R339; DEDUCED, log 31). -/
def State.guyRecord (s : State) (d : Nat) : Bool :=
  let p := s.port d
  p.state.detours && (s.guyReady d || (p.asked && p.guyBefore))

/-- The ports as records show them (R337): of one that is not parked, whether its guyline is in use. -/
def State.portRecords (s : State) : Vector Port 13 :=
  Vector.ofFn fun d => let p := s.port d.val; if p.state = .parked then p else { p with guyBefore := s.guyRecord d.val }

/-! ## Images and dumps -/

/-- Bit of the liveness map for a die-local address (R335): shared-SRAM granules first, then working-store granules. -/
def granule (a : Nat) : Nat := if a < 0x10000000 then a / 65536 else 4096 + (a - 0x10000000) / 65536

/-- The granule of an address is saved: LIVEMAP 0, not aligned or not in the working store means that all are. -/
def State.live (s : State) (a : Nat) : Bool :=
  let m := s.ctl.livemap.toNat
  if m = 0 || m % 32 ≠ 0 || !inWs m 768 then true
  else if a < 0x18000000 then (cellGet s.mem.loc (m + granule a / 8)).getLsbD (granule a % 8)
  else true

/-- Capture the die (R332 to R337, R348): kind, cause and level as given, the next SERIAL. -/
def State.capture (s : State) (kind : Nat) (cause : Byte) (level : Nat) : Image :=
  { kind := kind, step := (s.ctl.encrev.toNat / 16 : Nat), rev := s.ctl.rev, tenant := s.pkg.residentTenant,
    jobid := s.ctl.jobid, coord := s.ctl.diecoord, rank := s.ctl.rank, scmask := s.ctl.scmask, cause := cause,
    level := level, serial := s.pkg.serial + 1, bpcnt := s.ctl.bpcnt, cyc := s.ctl.cyccnt,
    complete := false, slot := 5, bytes := [], hosted := false, regs := s.regs, tiles := s.tiles, ctl := s.lateCtl,
    stream := if kind = 2 then s.stream
      else if 4 ≤ kind then { s.stream with ras := [] } else { s.stream with ras := [], buf := none },
    lines := s.lines, eng := s.eng,
    loc := if 4 ≤ kind then s.mem.loc else s.mem.loc.filter fun c => s.live c.1,
      marks := getBytes s.mem.dram 0xBFD000000 (16 * 2 ^ s.ctl.dims), ports := s.portRecords,
    lanternC := s.mem.lanternC, lanternM := s.mem.lanternM }

/-- Write a dump of the die into the tenant's dump area, when it has one (R348, R352). -/
def State.dump (s : State) (kind : Nat) (cause : Byte) (level : Nat) : State :=
  let t := s.pkg.residentTenant
  let area := (s.pkg.tenant t).cfg.dumpa
  if area.size = 0 then s
  else
    let img := s.capture kind cause level
    { s with pkg := { s.pkg with
        serial := img.serial,
        dumps := s.pkg.dumps ++ [{ tenant := t, epoch := (s.pkg.tenant t).epoch, serial := img.serial, addr := area.base,
                                   img := img }] } }

/-- The end of the cycle in which a fatal trap or an SDUMP stopped the die: what that cycle still did stands in the dump (R51,
R348). -/
def State.recapture (s : State) : State :=
  { s with pkg.dumps := s.pkg.dumps.map fun d =>
      if d.img.complete || decide (d.img.level = 2) then d
      else { d with img := { s.capture d.img.kind d.img.cause d.img.level with serial := d.img.serial } } }

/-- See `State.recapture`. -/
def State.stopsHere (s : State) : State :=
  match s.stream.mode with
  | .fatal => ({ s with stream.haltAt := s.now } : State).recapture
  | .sdump => ({ s with stream.haltAt := s.now } : State).recapture
  | _ => s

/-! ## Traps -/

/-- Move everything in flight into the in-flight save area (R320). -/
def Stream.saveArea (t : Stream) (c : Ctl) : SaveArea :=
  { results := t.results, rpt := t.rpt, loops := c.loops, lc := c.lc, lstart := c.lstart, lend := c.lend, held := t.held,
    draining := t.draining }

/-- Deliver a program-level trap to the handler (R320, R321): save what is in flight, write TPC, TCAUSE, TINFO and TADDR,
set TSTAT [0], and leave `cycles` trap cycles before the bundle at TRAPVEC issues. -/
def State.deliver (s : State) (cause : Byte) (info addr tpc : W64) (cycles : Nat) : State :=
  let s := { s with
    stream := { s.stream with
      save := some (s.stream.saveArea s.ctl), results := [], rpt := none, held := false, draining := none,
      waited := 0, bubbles := 0, noWatch := false, pc := s.ctl.trapvec, mode := .trapping cycles },
    ctl := { s.ctl with
      tpc := tpc, tcause := cause, tinfo := info, taddr := addr, inHandler := true, swPending := false,
      lwstat := false, loops := [], pend := s.ctl.pend.filter (fun p => decide (p.cause ≠ cause)),
      wmatch := if cause = 0x03#8 then 0 else s.ctl.wmatch } }
  s.lanternC 0x04 cause.toNat (pair32 (codeOff tpc) (codeOff s.ctl.trapvec))

/-- End the die program (R155): no bundle and no command issues any more, reissues of a repeat are cancelled. -/
def State.endProgram (s : State) (byEnd : Bool) : State :=
  match s.stream.mode with
  | .ended _ => s
  | _ =>
  let s := s.lanternC 0x07 0x5 (pair32 (codeOff s.stream.pc) 0)
  { s with
    stream := { s.stream with mode := .ended byEnd, rpt := none, held := false, waited := 0, bubbles := 0 },
    ctl.lwstat := false }

/-- The event of a fatal trap (R354). -/
def State.fatalEvent (s : State) (t : Nat) (cause : Byte) (serial : Option Nat) : State :=
  s.emit t (s.dieEvent 0x0004 cause (if serial.isSome then 1 else 0) 0 0 (BitVec.ofNat 64 (serial.getD 0)) 0)

/-- A fatal trap (R318, R348, R351): every unit of the die stops and a dump begins; without a dump area the event is
emitted at once. An image or dump that was being written is discarded. The die stays frozen until it is reset; under level
3 retry the job waits for it (R346), with the count of its level 2 retries (R171). -/
def State.fatalTrap (s : State) (cause : Byte) (info addr : W64) : State :=
  let t := s.pkg.residentTenant
  let await (j : Job) : Job :=
    if some j.id = s.pkg.resident then
      let j := { j with dieRetries := s.stream.retries }
      if j.record.pol3 = 1 ∧ j.runs = true then { j with state := .awaitDie s.now } else j
    else j
  let s : State := { s with
    stream.mode := .fatal, ctl := { s.ctl with tcause := cause, tinfo := info, taddr := addr },
    pkg := { s.pkg with
      jobs := s.pkg.jobs.map await, images := s.pkg.images.filter (·.complete), dumps := s.pkg.dumps.filter (·.img.complete) } }
  if (s.pkg.tenant t).cfg.dumpa.size = 0 then s.fatalEvent t cause none else s.dump 4 cause 3

/-- The event-ring registers of a tenant are cleared (R355). -/
def Pkg.clearRing (p : Pkg) (t : Nat) : Vector Tenant 16 :=
  vset p.tenants t { p.tenant t with evbase := 0, evlog := 0, evwr := 0, evrd := 0, evovf := false }

/-- Apply an image to the die (R323, R332, R341): everything the image holds, except what belongs to the place, and TSTAT,
LWSTAT and the lantern indices of a drain or buddy image; the event-ring registers of the tenant clear on the resume from one
(R355). Window-fault registers clear (R32). A freeze under way goes on (R51; DEDUCED, log 26). -/
def State.restore (s : State) (i : Image) (now : Nat) : State :=
  let arch := decide (i.kind ≠ 2)
  let c := { i.ctl with
    diecoord := s.ctl.diecoord, scbase := s.ctl.scbase, encrev := s.ctl.encrev, wtlock := s.ctl.wtlock,
    codelim := s.ctl.codelim, rshwb := s.ctl.rshwb, wfaddr := 0, wfinfo := 0, lwstat := false,
    inHandler := if arch then false else i.ctl.inHandler, swPending := if arch then false else i.ctl.swPending,
    drainReq := if arch then false else i.ctl.drainReq, pend := if arch then [] else i.ctl.pend,
    lnwrc := if arch then 0 else i.ctl.lnwrc, lnwrm := if arch then 0 else i.ctl.lnwrm }
  let m := match i.stream.mode with
    | .imageStop _ _ => Mode.running
    | .scanStop => Mode.running
    | x => x
  { s with
    regs := i.regs, tiles := i.tiles, ctl := c, lines := i.lines,
    eng := { i.eng with freeze := max i.eng.freeze s.eng.freeze },
    stream := { i.stream with
      mode := m, ask := Ask.none, draining := if arch then none else i.stream.draining, tileNow := [],
      noWatch := if arch then false else i.stream.noWatch,
      stopDue := if arch then false else i.stream.stopDue, retries := s.stream.retries },
    mem := { s.mem with
      loc := i.loc.filter (fun x => decide (x.1 < 0x18000000)) ++ s.mem.loc.filter (fun x => decide (0x18000000 ≤ x.1)),
      dram := putBytes s.mem.dram 0xBFD000000 i.marks, undo := [], undoDram := [],
      lanternC := if arch then .replicate 512 (0, 0) else i.lanternC,
      lanternM := if arch then .replicate 512 (0, 0) else i.lanternM, lanternNow := (0, 0) },
    pkg.tenants := if arch then s.pkg.clearRing s.pkg.residentTenant else s.pkg.tenants, late := Late.clear,
    begun := [], refillClk := Config.refillPhase s.draws % 1024, draws := s.draws + 1, now := now }

/-- The latest drain or buddy image of the resident job that the die may resume from (R170). -/
def Pkg.retryImage (p : Pkg) (jobid : W32) : Option Image :=
  (p.images.filter fun i => decide (i.jobid = jobid) && decide (i.kind = 1 ∨ i.kind = 3) && i.complete).getLast?

/-- The level 2 policy of R170 on a fault: CONTPOL [3:2]. `lower` says that the fault came up from level 1, or from an engine's
write. Retry without an image to resume from passes the fault to level 3; ignore ends the program on a fault of the control
stream, on TRAP as well, and a retry leaves the ports as they stand, with no resync (R340; DESIGN CHOICE, log 54). -/
def State.levelTwo (s : State) (cause : Byte) (addr : W64) (lower : Bool) : State :=
  let kill := (s.endProgram false).dump 4 cause 2
  match (s.ctl.contpol.extractLsb' 2 2).toNat with
  | 0 => if lower then s else kill
  | 1 =>
    match s.pkg.retryImage s.ctl.jobid with
    | some i =>
      if s.stream.retries < 3 then
        let r := s.restore i s.now
        let r := { r with stream.retries := s.stream.retries + 1 }
        r.lanternC 0x07 0x4 (pair32 (codeOff r.stream.pc) 0)
      else s.fatalTrap 0x21 (cause.zeroExtend 64) addr
    | none => s.fatalTrap 0x21 (cause.zeroExtend 64) addr
  | 2 => kill
  | _ => s.fatalTrap 0x21 (cause.zeroExtend 64) addr

/-- A precise fault or a TRAP (R319, R321, R322, R329): delivered to the handler when there is one and no trap is being
handled, and otherwise acted on by the level 2 policy. -/
def State.takeTrap (s : State) (cause : Byte) (info addr tpc : W64) (cycles : Nat) : State :=
  if s.ctl.trapvec ≠ 0 ∧ s.ctl.inHandler = false then s.deliver cause info addr tpc cycles
  else s.levelTwo cause addr false

/-- The die program has ended. -/
def Mode.isEnded : Mode → Bool
  | .ended _ => true
  | _ => false

/-- A fault that reaches level 2 from a command or task, or from an engine (R170, R319, R322): it becomes pending, at most
once a cause, when a handler can take it or a trap is being handled, and otherwise the level 2 policy acts. After the end of
the die program the policy acts at once, and a retry runs the program again; ignore absorbs cause 0x03 (DESIGN CHOICE, log
54). -/
def State.raisePending (s : State) (cause : Byte) (info addr : W64) : State :=
  if s.stream.mode.isEnded ∨ (s.ctl.trapvec = 0 ∧ s.ctl.inHandler = false) then s.levelTwo cause addr true
  else if s.ctl.pend.any (fun p => decide (p.cause = cause)) then s
  else { s with ctl.pend := s.ctl.pend ++ [{ cause := cause, info := info, addr := addr }] }

/-- The pending cause of the lowest code (R319). -/
def Ctl.nextPending (c : Ctl) : Option Pending :=
  c.pend.foldl (fun best p => match best with
    | none => some p
    | some b => if p.cause.toNat < b.cause.toNat then some p else some b) none

/-- Return from the handler: `cycles` return cycles, and then the save area comes back (R323). -/
def State.beginReturn (s : State) (sw : Bool) (cycles : Nat) : State :=
  let s := s.lanternC 0x05 0 (pair32 (codeOff s.stream.pc) (codeOff s.ctl.tpc))
  { s with stream.mode := .returning cycles, ctl.swPending := sw }

/-- The end of the return cycles (R323): the save area is restored, TSTAT [0] clears, the bundle at TPC issues next. -/
def State.endReturn (s : State) : State :=
  match s.stream.save with
  | none =>
    { s with
      stream := { s.stream with mode := .running, pc := s.ctl.tpc, noWatch := s.ctl.swPending },
      ctl := { s.ctl with inHandler := false, swPending := false } }
  | some a =>
    { s with
      stream := { s.stream with
        mode := .running, pc := s.ctl.tpc, save := none, results := a.results, rpt := a.rpt,
        held := false, noWatch := s.ctl.swPending, buf := none, draining := a.draining },
      ctl := { s.ctl with
        inHandler := false, swPending := false, loops := a.loops, lc := a.lc, lstart := a.lstart,
        lend := a.lend } }

/-! ## Completing a command -/

/-- The agent code of R30 that a context's commands carry. -/
def agentOf (ctx : Nat) : Nat :=
  if ctx < 8 then ctx + 1 else if ctx = 8 then 0xB else if ctx = 9 then 0xA else 0x9

/-- A context's timeline. -/
def State.line (s : State) (ctx : Nat) : Timeline := vget s.lines ctx Timeline.clear

/-- Replace a context's timeline. -/
def State.setLine (s : State) (ctx : Nat) (t : Timeline) : State := { s with lines := vset s.lines ctx t }

/-- Take the next number of a context (R161). -/
def State.takeNumber (s : State) (ctx : Nat) : State × Nat :=
  let t := s.line ctx
  (s.setLine ctx { t with issued := t.issued + 1 }, (t.issued + 1).toNat)

/-- Advance the counter over the completed numbers above it (R161). `fuel` bounds the walk by the numbers listed. -/
def Timeline.advance : Nat → Timeline → Timeline
  | 0, t => t
  | f + 1, t =>
    let next := (t.count + 1).toNat
    if t.done.contains next
      then Timeline.advance f { t with count := t.count + 1, done := t.done.filter (fun n => decide (n ≠ next)) }
      else t

/-- A number is complete. -/
def Timeline.complete (t : Timeline) (n : Nat) : Timeline :=
  ({ t with done := n :: t.done } : Timeline).advance (t.done.length + 1)

/-- The status sets the error flag (R162). -/
def isError (st : Byte) : Bool := decide (0x10 ≤ st.toNat)

/-- The error register after an error completion (R162): of several in one cycle the highest number stands. -/
def Timeline.error (t : Timeline) (n : Nat) (st : Byte) (now : Nat) : Timeline :=
  let old := t.err.toNat
  let cnt := min (old / 256 % 256 + 1) 255
  let keep := decide (t.errAt = some now) && decide (n % 2 ^ 48 < old / 65536)
  { t with errAt := some now,
           err := BitVec.ofNat 64 (if keep then old % 256 + cnt * 256 + old / 65536 * 65536
                                   else st.toNat + cnt * 256 + n % 2 ^ 48 * 65536) }

/-- Context code, status and number as TINFO of causes 0x05 and 0x06 gives them (R318). -/
def errInfo (ctx n : Nat) (st : Byte) : W64 := BitVec.ofNat 64 (st.toNat + ctx * 256 + n % 2 ^ 48 * 65536)

/-- The context has been killed by a command before this number, which is cancelled (R170). -/
def State.cancels (s : State) (ctx num : Nat) : Bool := (s.line ctx).killed && decide ((s.line ctx).killedAt < num)

/-- A fault passed up by level 1: cause 0x05 for a timeout, 0x06 for any other status (R318). -/
def State.passUp (s : State) (ctx n : Nat) (st : Byte) : State :=
  s.raisePending (if st = 0x14#8 then 0x05 else 0x06) (errInfo ctx n st) 0

/-- A command or task of a context completes with a status (R139, R161, R162), and an error goes through the level 1
policy of its issue (R169, R170). Re-runs under `retry` are the engine's: a status that arrives here under `retry` is the
fourth failure. -/
def State.complete (s : State) (ctx n : Nat) (pol : BitVec 2) (st : Byte) : State :=
  let t := (s.line ctx).complete n
  if isError st then
    let t := t.error n st s.now
    let kill := decide (pol = 2)
    let s := s.setLine ctx { t with
      killed := t.killed || kill, killedAt := if !kill then t.killedAt else if t.killed then min n t.killedAt else n }
    let s := s.lanternM 0x20 (agentOf ctx) (BitVec.ofNat 64 (n % 2 ^ 48 + st.toNat * 2 ^ 56))
    if pol = 1 ∨ pol = 3 then s.passUp ctx n st else s
  else s.setLine ctx t

/-! ## The window fault (R30, R31) -/

/-- Write WFADDR and WFINFO and the lantern entry of a window fault. -/
def State.windowFault (s : State) (addr cause agent : Nat) (entry : Option Nat) (write : Bool) : State :=
  let info := cause + agent * 16 + (entry.getD 0) * 256 + (if write then 2 ^ 19 else 0) + (if entry = none then 2 ^ 20 else 0)
  let s := { s with ctl := { s.ctl with wfaddr := BitVec.ofNat 64 addr, wfinfo := BitVec.ofNat 32 info } }
  s.lanternM 0x21 agent (BitVec.ofNat 64 addr)

/-! ## Engine writes and watchpoints (R326 to R328) -/

/-- Byte ranges [a, a+n) and [b, b+m) meet. -/
def meets (a n b m : Nat) : Bool := decide (a < b + m) && decide (b < a + n)

/-- SZ of a watchpoint (R326). -/
def Ctl.watchSize (c : Ctl) (i : Nat) : Nat := 2 ^ ((vget c.wctl i 0).toNat / 8)

/-- The lowest watchpoint with EW and W that covers a byte of a landed write, and its first matching byte. -/
def Ctl.engineWatch (c : Ctl) (a n : Nat) : Option (Nat × Nat) :=
  (List.range 4).findSome? fun i =>
    let w := vget c.wctl i 0
    let base := (vget c.watch i 0).toNat
    if w.getLsbD 2 && w.getLsbD 1 && meets a n base (c.watchSize i) then some (i, max a base) else none

/-- A write of a watched kind lands: a match counts in WMATCH and makes cause 0x03 pending (R328). `src` is TINFO without
the watchpoint's number. Watchpoints do not match in the handler (R322). -/
def State.watchWrite (s : State) (a n : Nat) (src : W64) : State :=
  if s.ctl.inHandler then s
  else match s.ctl.engineWatch a n with
    | none => s
    | some (i, first) =>
      let agent := if src.getLsbD 8 then 0xF else src.toNat / 16 % 16
      let coord := if src.getLsbD 8 then src.toNat / 65536 % 8192 else s.ctl.diecoord.toNat
      let s := s.lanternM 0x23 agent (BitVec.ofNat 64 (first % 2 ^ 48 + coord * 2 ^ 48))
      let s := { s with ctl.wmatch := satAdd32 s.ctl.wmatch 1 }
      s.raisePending 0x03 (src + BitVec.ofNat 64 i) (BitVec.ofNat 64 first)

/-- TINFO source bits of an engine of this die. -/
def srcEngine (agent num : Nat) : W64 := BitVec.ofNat 64 (agent * 16 + num % 2 ^ 32 * 2 ^ 32)
/-- TINFO source bits of a write from another die. -/
def srcDie (coord : BitVec 13) : W64 := BitVec.ofNat 64 (256 + coord.toNat * 65536)

/-- A write by a copy engine, an exchange queue, the walker or another die: performed and watched. -/
def State.storeWatched (s : State) (a : Nat) (bs : List Byte) (src : W64) : State :=
  (s.storeEng a bs).watchWrite a bs.length src

end Sys2Proof.Machine
end

