-- ==== Sys2Proof/Machine/Control.lean ====
section
/-! DEFINITION. Control registers by number: what a move reads, what a move may write, and what it does (R206, R207). -/

namespace Sys2Proof.Machine

/-- LKSTAT of a port (R133); its count of replays stays at 255 where more have been made (DESIGN CHOICE, log 47). -/
def State.lkstat (s : State) (d : Nat) : W64 :=
  let p := s.port d
  BitVec.ofNat 64 (p.state.code + (if p.state.detours && s.guyReady d then 8 else 0) + (if p.rekey then 16 else 0) +
    min p.replays 255 * 256)

/-- LPSTAT (R214). -/
def Ctl.lpstat (c : Ctl) : W64 :=
  BitVec.ofNat 64 ((c.loops.map fun l => 2 ^ l.toNat).sum +
    (c.loops.zipIdx.map fun (l, i) => l.toNat * 2 ^ (4 + 2 * i)).sum)

/-- TSTAT (R355): .sw is pending from the RTE.SW until the first resumed bundle has issued. -/
def State.tstat (s : State) : W64 :=
  let c := s.ctl
  BitVec.ofNat 64 ((if c.inHandler then 1 else 0) + (if c.swPending || s.stream.noWatch then 2 else 0) +
    (c.pend.map fun p => 2 ^ (p.cause.toNat - 1)).sum + (if c.drainReq then 256 else 0))

/-- CHSTAT (R301): idle, running or halted, the step, and OUT of a halted step. All of it is zero while the engine is idle, and a
CHABORT that waits at the head is running (DESIGN CHOICE, log 57). -/
def State.chstat (s : State) : W64 :=
  match s.eng.chain with
  | [] => 0
  | c :: _ =>
    if c.started = false then 0
    else BitVec.ofNat 64 ((if c.halted then 2 else 1) + c.step % 4096 * 16 + (if c.halted && c.haltOut then 65536 else 0))

/-- PGSTALL (R110): the copy engines stalled on a paged window. -/
def State.pgstall (s : State) : W64 :=
  BitVec.ofNat 64 (((List.range 4).map fun i => if (vget s.eng.copy i []).any (·.stalled) then 2 ^ i else 0).sum)

/-- RQDEPTH of a queue (R283). -/
def State.rqdepth (s : State) (i : Nat) : W64 :=
  let q := vget s.eng.rows i RowQueue.clear
  BitVec.ofNat 64 (q.depth % 8192 + q.head % 8192 * 65536)

/-- The value of a control register as it stands (R207). -/
def State.ctlNow (s : State) (n : Nat) : W64 :=
  let c := s.ctl
  let z32 (x : W32) : W64 := x.zeroExtend 64
  let bit (b : Bool) : W64 := if b then 1 else 0
  match n with
  | 0x000 => c.vflags.zeroExtend 64
  | 0x001 => c.msat.zeroExtend 64
  | 0x002 => c.srstate
  | 0x003 => c.contpol.zeroExtend 64
  | 0x004 => z32 c.lwthr
  | 0x005 => bit c.lwstat
  | 0x006 => c.scmask.zeroExtend 64
  | 0x007 => c.scbase.zeroExtend 64
  | 0x008 => c.diecoord.zeroExtend 64
  | 0x009 => c.rank.zeroExtend 64
  | 0x00A => z32 c.jobid
  | 0x00B => c.lsdmask.zeroExtend 64
  | 0x00C => bit c.wtlock
  | 0x00D => c.wfaddr
  | 0x00E => z32 c.wfinfo
  | 0x00F => c.codelim.zeroExtend 64
  | 0x010 => z32 c.cecnt
  | 0x011 => z32 c.ceinfo
  | 0x012 => c.ceaddr
  | 0x013 => z32 c.ilinfo
  | 0x014 => c.iladdr
  | 0x015 => c.encrev.zeroExtend 64
  | 0x016 => z32 c.discrd
  | 0x017 => s.pgstall
  | 0x018 => z32 c.rsdup
  | 0x019 => c.rshwb.zeroExtend 64
  | 0x01C => c.trapvec
  | 0x01D => z32 c.exto
  | 0x01E => c.enacct
  | 0x020 => BitVec.ofNat 64 (s.stream.ocld % 256)
  | 0x021 => BitVec.ofNat 64 (s.stream.ocst % 256)
  | 0x022 => BitVec.ofNat 64 (s.eng.occi % 256)
  | 0x023 => BitVec.ofNat 64 (s.stream.octo % 256)
  | 0x100 => c.mexcl.zeroExtend 64
  | 0x101 => z32 c.xdrop
  | 0x102 => z32 c.rqdrop
  | 0x120 => c.chcfg.zeroExtend 64
  | 0x121 => s.chstat
  | 0x122 => c.chneed
  | 0x123 => c.chelem
  | 0x130 => c.enrsv
  | 0x131 => z32 c.enrate
  | 0x132 => c.encap
  | 0x133 => z32 c.endefer
  | 0x150 => c.tpc
  | 0x151 => c.tcause.zeroExtend 64
  | 0x152 => c.tinfo
  | 0x153 => c.taddr
  | 0x154 => s.tstat
  | 0x160 => z32 c.wmatch
  | 0x161 => c.drctl.zeroExtend 64
  | 0x162 => c.drentry
  | 0x163 => c.drrem
  | 0x164 => z32 c.livemap
  | 0x165 => c.bpcnt
  | 0x166 => c.budtgt
  | 0x167 => c.lnwrc.zeroExtend 64
  | 0x168 => c.lnwrm.zeroExtend 64
  | _ =>
    if 0x024 ≤ n ∧ n < 0x028 then z32 (vget c.zovf (n - 0x024) 0)
    else if 0x028 ≤ n ∧ n < 0x02C then z32 (vget c.rsseq (n - 0x028) 0)
    else if 0x030 ≤ n ∧ n < 0x03B then (s.line (n - 0x030)).seen
    else if 0x040 ≤ n ∧ n < 0x04B then (s.line (n - 0x040)).issued
    else if 0x050 ≤ n ∧ n < 0x05B then (s.line (n - 0x050)).err
    else if 0x060 ≤ n ∧ n < 0x064 then vget c.lc (n - 0x060) 0
    else if 0x064 ≤ n ∧ n < 0x068 then vget c.lstart (n - 0x064) 0
    else if 0x068 ≤ n ∧ n < 0x06C then vget c.lend (n - 0x068) 0
    else if n = 0x06C then c.lpstat
    else if 0x070 ≤ n ∧ n < 0x080 then (vget c.tshape (n - 0x070) 0).zeroExtend 64
    else if 0x080 ≤ n ∧ n < 0x082 then vget c.bndbuf (n - 0x080) 0
    else if 0x084 ≤ n ∧ n < 0x088 then vget c.watch (n - 0x084) 0
    else if 0x0A0 ≤ n ∧ n < 0x0AD then s.lkstat (n - 0x0A0)
    else if 0x0B0 ≤ n ∧ n < 0x0BD then (s.port (n - 0x0B0)).guydim.zeroExtend 64
    else if 0x0C0 ≤ n ∧ n < 0x0CD then z32 (s.port (n - 0x0C0)).lkerr
    else if 0x110 ≤ n ∧ n < 0x120 then (vget s.regs.b (n - 0x110) 0).zeroExtend 64
    else if 0x158 ≤ n ∧ n < 0x15C then vget c.tsave (n - 0x158) 0
    else if 0x15C ≤ n ∧ n < 0x160 then (vget c.wctl (n - 0x15C) 0).zeroExtend 64
    else if 0x200 ≤ n ∧ n < 0x300 then s.rqdepth (n - 0x200)
    else 0

/-- What a move reads from a control register: its value at the start of the cycle, also where a turn of this cycle has changed
it (R206). -/
def State.ctlRead (s : State) (n : Nat) : W64 := (s.begun.lookup n).getD (s.ctlNow n)

/-- The registers that a move may write (R207). TPC is among them only in the handler (R355). -/
def ctlWritable (n : Nat) : Bool :=
  decide (n ≤ 0x004) || decide (n = 0x01C) || decide (n = 0x01D) || (decide (0x024 ≤ n) && decide (n < 0x028)) ||
  (decide (0x050 ≤ n) && decide (n < 0x05B)) || (decide (0x060 ≤ n) && decide (n < 0x064)) ||
  (decide (0x070 ≤ n) && decide (n < 0x082)) || (decide (0x084 ≤ n) && decide (n < 0x088)) || decide (n = 0x100) ||
  (decide (0x110 ≤ n) && decide (n < 0x121)) || decide (n = 0x150) || (decide (0x158 ≤ n) && decide (n < 0x160)) ||
  (decide (0x161 ≤ n) && decide (n < 0x165))

/-- A TSHAPE value within its limits (R240). -/
def tshapeOk (x : Nat) : Bool :=
  decide (x % 16 < 12) && decide (x / 16 % 16 = 0) && (decide (x % 16 ≠ 0xB) || decide ((x / 65536 % 256 + 1) % 16 = 0))

/-- A BNDBUF value within its limits (R286). -/
def bndbufOk (x : Nat) : Bool :=
  decide (x / 2 ^ 55 = 0) && decide (x % 32 = 0) && decide (1 ≤ x / 2 ^ 32 % 2 ^ 23) && decide (x / 2 ^ 32 % 2 ^ 23 ≤ 2 ^ 22)

/-- WATCHi is a multiple of its range and within 48 bits (R326). -/
def watchOk (watch sz : Nat) : Bool := decide (watch < 2 ^ 48) && decide (watch % 2 ^ sz = 0)

/-- The value of a move is within the limits of the register (R206 and the register's chapter); otherwise cause 0xA. -/
def State.ctlValueOk (s : State) (n : Nat) (v : W64) : Bool :=
  let x := v.toNat
  if n = 0x000 then decide (x < 2 ^ 6)
  else if n = 0x001 ∨ n = 0x100 ∨ n = 0x161 then decide (x < 2 ^ 16)
  else if n = 0x003 then decide (x < 2 ^ 4)
  else if n = 0x004 ∨ n = 0x01D ∨ (0x024 ≤ n ∧ n < 0x028) then decide (x < 2 ^ 32)
  else if n = 0x01C ∨ n = 0x150 ∨ n = 0x162 then decide (x % 16 = 0)
  else if 0x050 ≤ n ∧ n < 0x05B then decide (x = 0)
  else if 0x070 ≤ n ∧ n < 0x080 then decide (x < 2 ^ 24) && tshapeOk x
  else if 0x080 ≤ n ∧ n < 0x082 then bndbufOk x
  else if 0x084 ≤ n ∧ n < 0x088 then
    let w := (vget s.ctl.wctl (n - 0x084) 0).toNat
    decide (w % 4 = 0) || watchOk x (w / 8)
  else if 0x15C ≤ n ∧ n < 0x160 then
    decide (x < 256) && decide (3 ≤ x / 8) && decide (x / 8 ≤ 28) && watchOk (vget s.ctl.watch (n - 0x15C) 0).toNat (x / 8)
  else if 0x110 ≤ n ∧ n < 0x120 then decide (x < 2 ^ 9)
  else if n = 0x120 then decide (x < 256) && decide (x / 8 % 2 = 0)
  else if n = 0x164 then decide (x < 2 ^ 32) && decide (x % 32 = 0)
  else true

/-- The cause of R185 that a move to a control register raises: 0xA for a value outside the limits, 0xB for a register
that the move may not write. Number checks are the decoder's. -/
def State.ctlWriteCause (s : State) (n : Nat) (x : W64) : Option Nat :=
  if ctlWritable n = true ∧ s.ctlValueOk n x = false then some 0xA
  else if ctlWritable n = false ∨ (n = 0x150 ∧ s.ctl.inHandler = false) then some 0xB
  else none

/-- A write of a control register lands (R206). A zero written to an error register in the cycle of an error completion of its
context clears what that wrote (DEDUCED, log 10). -/
def State.ctlWrite (s : State) (n : Nat) (x : W64) : State :=
  let c := s.ctl
  if n = 0x000 then { s with ctl.vflags := x.truncate 6 }
  else if n = 0x001 then { s with ctl.msat := x.truncate 16 }
  else if n = 0x002 then { s with ctl.srstate := if x = 0 then 0x9E3779B97F4A7C15#64 else x }
  else if n = 0x003 then { s with ctl.contpol := x.truncate 4 }
  else if n = 0x004 then { s with ctl.lwthr := x.truncate 32 }
  else if n = 0x01C then { s with ctl.trapvec := x }
  else if n = 0x01D then { s with ctl.exto := x.truncate 32 }
  else if 0x024 ≤ n ∧ n < 0x028 then { s with ctl.zovf := vset c.zovf (n - 0x024) (x.truncate 32) }
  else if 0x050 ≤ n ∧ n < 0x05B then
    s.setLine (n - 0x050) { s.line (n - 0x050) with err := 0, errAt := none, killed := false, killedAt := 0 }
  else if 0x060 ≤ n ∧ n < 0x064 then { s with ctl.lc := vset c.lc (n - 0x060) x }
  else if 0x070 ≤ n ∧ n < 0x080 then { s with ctl.tshape := vset c.tshape (n - 0x070) (x.truncate 24) }
  else if 0x080 ≤ n ∧ n < 0x082 then { s with ctl.bndbuf := vset c.bndbuf (n - 0x080) x }
  else if 0x084 ≤ n ∧ n < 0x088 then { s with ctl.watch := vset c.watch (n - 0x084) x }
  else if n = 0x100 then { s with ctl.mexcl := x.truncate 16 }
  else if 0x110 ≤ n ∧ n < 0x120 then { s with regs.b := vset s.regs.b (n - 0x110) (x.truncate 9) }
  else if n = 0x120 then { s with ctl.chcfg := x.truncate 8 }
  else if n = 0x150 then { s with ctl.tpc := x }
  else if 0x158 ≤ n ∧ n < 0x15C then { s with ctl.tsave := vset c.tsave (n - 0x158) x }
  else if 0x15C ≤ n ∧ n < 0x160 then { s with ctl.wctl := vset c.wctl (n - 0x15C) (x.truncate 8) }
  else if n = 0x161 then { s with ctl.drctl := x.truncate 16 }
  else if n = 0x162 then { s with ctl.drentry := x }
  else if n = 0x163 then { s with ctl.drrem := x }
  else if n = 0x164 then { s with ctl.livemap := x.truncate 32 }
  else s

end Sys2Proof.Machine
end

