-- ==== Sys2Proof/Machine/Flags.lean ====
section
/-! DEFINITION. The bits of VFLAGS (R73, R82). -/

namespace Sys2Proof.Machine.Flag

/-- A NaN made from inputs that are not NaN, or a NaN converted to an integer. -/
def invalid : BitVec 6 := 1
/-- A division or approximation of a zero operand. -/
def divZero : BitVec 6 := 2
def overflow : BitVec 6 := 4
def underflow : BitVec 6 := 8
def inexact : BitVec 6 := 16
def saturated : BitVec 6 := 32
def none : BitVec 6 := 0

/-- A flag when a condition holds. -/
def when (b : Bool) (f : BitVec 6) : BitVec 6 := if b then f else 0

end Sys2Proof.Machine.Flag
end

