-- ==== Sys2Proof/Machine/Num.lean ====
section
/-! DEFINITION. Number formats, rounding, exact sums, conversions and reductions (R57 to R81, R228). Every result is computed
exactly over dyadic numbers and rounded once. -/

namespace Sys2Proof.Machine

/-! ## Values and formats -/

/-- A floating value, exact: `fin neg m e` is (−1)^neg · m · 2^e with m > 0. -/
inductive FVal where
  | nan
  | inf (neg : Bool)
  | zero (neg : Bool)
  | fin (neg : Bool) (m : Nat) (e : Int)
deriving DecidableEq, Repr

/-- A format of R58: exponent and fraction bits, the largest finite magnitude code, infinity's code if there is one, and
the canonical NaN. -/
structure Fmt where
  ebits : Nat
  fbits : Nat
  maxMag : Nat
  inf : Option Nat
  qnan : Nat
deriving DecidableEq, Repr

def f32 : Fmt := { ebits := 8, fbits := 23, maxMag := 0x7F7FFFFF, inf := some 0x7F800000, qnan := 0x7FC00000 }
def f16 : Fmt := { ebits := 5, fbits := 10, maxMag := 0x7BFF, inf := some 0x7C00, qnan := 0x7E00 }
def bf16 : Fmt := { ebits := 8, fbits := 7, maxMag := 0x7F7F, inf := some 0x7F80, qnan := 0x7FC0 }
def e4m3 : Fmt := { ebits := 4, fbits := 3, maxMag := 0x7E, inf := none, qnan := 0x7F }
def e5m2 : Fmt := { ebits := 5, fbits := 2, maxMag := 0x7B, inf := some 0x7C, qnan := 0x7E }

/-- Exponent bias (R58). -/
def Fmt.bias (f : Fmt) : Int := 2 ^ (f.ebits - 1) - 1
/-- Exponent of the smallest normal value. -/
def Fmt.emin (f : Fmt) : Int := 1 - f.bias
/-- The sign bit's weight. -/
def Fmt.sign (f : Fmt) : Nat := 2 ^ (f.ebits + f.fbits)

/-- The value of a code (R58, R60, R61). -/
def Fmt.decode (f : Fmt) (x : Nat) : FVal :=
  let neg := decide (x / f.sign % 2 = 1)
  let mag := x % f.sign
  let ef := mag / 2 ^ f.fbits
  let fr := mag % 2 ^ f.fbits
  if mag = 0 then .zero neg
  else if some mag = f.inf then .inf neg
  else if f.maxMag < mag then .nan
  else if ef = 0 then .fin neg fr (f.emin - f.fbits)
  else .fin neg (2 ^ f.fbits + fr) (ef - f.bias - f.fbits)

/-- The code of a magnitude with a sign. -/
def Fmt.signed (f : Fmt) (neg : Bool) (mag : Nat) : Nat := if neg then f.sign + mag else mag

/-! ## Rounding (R66) -/

/-- Rounding modes. -/
inductive Rnd where
  | rne | rz | sr
deriving DecidableEq, Repr

/-- The mode of a two-bit MODE field (R229, R241). -/
def Rnd.of (m : BitVec 2) : Rnd := if m = 1 then .rz else if m = 2 then .sr else .rne

/-- One step of the stochastic generator (R67). -/
def nextRandom (x : BitVec 64) : BitVec 64 :=
  let x := x ^^^ (x <<< 13)
  let x := x ^^^ (x >>> 7)
  x ^^^ (x <<< 17)

/-- The 32-bit draw of a state (R66). -/
def draw (x : BitVec 64) : Nat := x.toNat / 2 ^ 32

/-- Round `num / den` to an integer, with `u` the stochastic draw. -/
def roundNat (num den : Nat) (mode : Rnd) (u : Nat) : Nat :=
  let q := num / den
  let r := num % den
  match mode with
  | .rz => q
  | .rne => if 2 * r < den then q else if den < 2 * r then q + 1 else if q % 2 = 0 then q else q + 1
  | .sr => if u < r * 2 ^ 32 / den then q + 1 else q

/-- round_to of m · 2^e onto a format's grid (R66): the magnitude code, which passes `maxMag` on overflow, and whether
the value changed. -/
def Fmt.round (f : Fmt) (m : Nat) (e : Int) (mode : Rnd) (u : Nat) : Nat × Bool :=
  let qe : Int := max ((Nat.log2 m : Int) + e) f.emin - f.fbits
  let num := if qe ≤ e then m * 2 ^ (e - qe).toNat else m
  let den := if qe ≤ e then 1 else 2 ^ (qe - e).toNat
  let k := roundNat num den mode u
  (((qe + f.fbits + f.bias).toNat * 2 ^ f.fbits + k) - 2 ^ f.fbits, decide (num % den ≠ 0))

/-- Store a value in f32, f16 or bf16 (R69, R70, R228): its code and flags. -/
def Fmt.pack (f : Fmt) (v : FVal) (mode : Rnd) (u : Nat) : Nat × BitVec 6 :=
  match v with
  | .nan => (f.qnan, 0)
  | .inf neg => (f.signed neg (f.inf.getD f.maxMag), 0)
  | .zero neg => (f.signed neg 0, 0)
  | .fin neg m e =>
    let (mag, inex) := f.round m e mode u
    if f.maxMag < mag then
      (f.signed neg (if mode = .rz then f.maxMag else f.inf.getD f.maxMag), Flag.overflow ||| Flag.inexact)
    else (f.signed neg mag,
      Flag.when inex Flag.inexact ||| Flag.when (inex && decide (mag < 2 ^ f.fbits)) Flag.underflow)

/-- Store a value in e4m3 or e5m2 (cvt_fp8, R69, R70). -/
def Fmt.pack8 (f : Fmt) (v : FVal) (mode : Rnd) (nv : Bool) (u : Nat) : Nat × BitVec 6 :=
  match v with
  | .nan => (f.qnan, 0)
  | .inf neg => if nv then (f.qnan, Flag.overflow) else (f.signed neg f.maxMag, Flag.saturated)
  | .zero neg => (f.signed neg 0, 0)
  | .fin neg m e =>
    let (mag, inex) := f.round m e mode u
    if f.maxMag < mag then
      if nv then (f.qnan, Flag.overflow ||| Flag.inexact)
      else (f.signed neg f.maxMag, Flag.saturated ||| Flag.inexact)
    else (f.signed neg mag,
      Flag.when inex Flag.inexact ||| Flag.when (inex && decide (mag < 2 ^ f.fbits)) Flag.underflow)

/-! ## Exact arithmetic -/

/-- The signed dyadic m · 2^e as a value; an exact zero is +0. -/
def FVal.ofInt (m : Int) (e : Int) : FVal :=
  if m = 0 then .zero false else .fin (decide (m < 0)) m.natAbs e

/-- Signed mantissa and exponent of a finite value. -/
def FVal.dyad : FVal → Int × Int
  | .fin neg m e => (if neg then -(m : Int) else m, e)
  | _ => (0, 0)

/-- The value is NaN. -/
def FVal.isNan : FVal → Bool
  | .nan => true
  | _ => false

/-- The sign of a value; NaN counts as positive. -/
def FVal.neg : FVal → Bool
  | .nan => false
  | .inf n => n
  | .zero n => n
  | .fin n _ _ => n

/-- The value with its sign turned. -/
def FVal.negate : FVal → FVal
  | .nan => .nan
  | .inf n => .inf !n
  | .zero n => .zero !n
  | .fin n m e => .fin (!n) m e

/-- Exact sum of two dyadics. -/
def addDyad (x y : Int × Int) : Int × Int :=
  if x.2 ≤ y.2 then (x.1 + y.1 * 2 ^ (y.2 - x.2).toNat, x.2) else (x.1 * 2 ^ (x.2 - y.2).toNat + y.1, y.2)

/-- Exact product, and whether it is invalid (0 × ∞). -/
def FVal.mul : FVal → FVal → FVal × Bool
  | .nan, _ => (.nan, false)
  | _, .nan => (.nan, false)
  | .inf _, .zero _ => (.nan, true)
  | .zero _, .inf _ => (.nan, true)
  | .fin a m e, .fin b n d => (.fin (a != b) (m * n) (e + d), false)
  | .inf a, y => (.inf (a != y.neg), false)
  | x, .inf b => (.inf (x.neg != b), false)
  | .zero a, y => (.zero (a != y.neg), false)
  | x, .zero b => (.zero (x.neg != b), false)

/-- Exact sum of two terms, and whether it is invalid (∞ − ∞); an exact zero is −0 only from two −0 (R228). -/
def FVal.add : FVal → FVal → FVal × Bool
  | .nan, _ => (.nan, false)
  | _, .nan => (.nan, false)
  | .inf a, .inf b => if a = b then (.inf a, false) else (.nan, true)
  | .inf a, _ => (.inf a, false)
  | _, .inf b => (.inf b, false)
  | .zero a, .zero b => (.zero (a && b), false)
  | .zero _, y => (y, false)
  | x, .zero _ => (x, false)
  | x, y => let s := addDyad x.dyad y.dyad; (FVal.ofInt s.1 s.2, false)

/-- fp_arith of R228 on an exact value; `bad` marks an invalid operation. -/
def Fmt.arith (f : Fmt) (r : FVal × Bool) : Nat × BitVec 6 :=
  if r.2 then (f.qnan, Flag.invalid) else f.pack r.1 .rne 0

/-- x + y in a format. -/
def Fmt.addB (f : Fmt) (x y : Nat) : Nat × BitVec 6 := f.arith ((f.decode x).add (f.decode y))
/-- x − y in a format. -/
def Fmt.subB (f : Fmt) (x y : Nat) : Nat × BitVec 6 := f.arith ((f.decode x).add (f.decode y).negate)
/-- x × y in a format. -/
def Fmt.mulB (f : Fmt) (x y : Nat) : Nat × BitVec 6 := f.arith ((f.decode x).mul (f.decode y))

/-- x × y + z with one rounding (R228); a NaN input sets no flag, even beside 0 × ∞. -/
def Fmt.fmaB (f : Fmt) (x y z : Nat) (sub : Bool) : Nat × BitVec 6 :=
  let c := if sub then (f.decode z).negate else f.decode z
  let p := (f.decode x).mul (f.decode y)
  if c.isNan then (f.qnan, 0) else if p.2 then (f.qnan, Flag.invalid) else f.arith (p.1.add c)

/-- Order of codes with −0 below +0 (R59). -/
def Fmt.key (f : Fmt) (x : Nat) : Int :=
  if x / f.sign % 2 = 1 then -(x % f.sign : Nat) - 1 else (x % f.sign : Nat)

/-- Floating maximum (R59, R222, R228). -/
def Fmt.maxB (f : Fmt) (x y : Nat) : Nat :=
  if (f.decode x).isNan || (f.decode y).isNan then f.qnan else if f.key x < f.key y then y else x

/-- Floating minimum. -/
def Fmt.minB (f : Fmt) (x y : Nat) : Nat :=
  if (f.decode x).isNan || (f.decode y).isNan then f.qnan else if f.key y < f.key x then y else x

/-- IEEE order of two values: less, with −0 = +0; false when either is NaN (R233). -/
def FVal.lt : FVal → FVal → Bool
  | .nan, _ => false
  | _, .nan => false
  | .inf a, .inf b => a && !b
  | .inf a, _ => a
  | _, .inf b => !b
  | x, y => let s := addDyad x.dyad (let d := y.dyad; (-d.1, d.2)); decide (s.1 < 0)

/-- IEEE equality. -/
def FVal.eq : FVal → FVal → Bool
  | .nan, _ => false
  | _, .nan => false
  | x, y => !(x.lt y) && !(y.lt x)

/-! ## Integer formats (R57) -/

/-- Low `w` bits as signed. -/
def toSigned (w x : Nat) : Int := if x % 2 ^ w < 2 ^ (w - 1) then (x % 2 ^ w : Nat) else (x % 2 ^ w : Nat) - (2 : Int) ^ w

/-- The low `w` bits of an integer. -/
def wrap (w : Nat) (x : Int) : Nat := (x % (2 : Int) ^ w).toNat

/-- Least and greatest value of a signed or unsigned format. -/
def intRange (w : Nat) (signed : Bool) : Int × Int :=
  if signed then (-(2 : Int) ^ (w - 1), (2 : Int) ^ (w - 1) - 1) else (0, (2 : Int) ^ w - 1)

/-- Clamp to a format; the saturated flag when it changes the value. -/
def clampInt (w : Nat) (signed : Bool) (x : Int) : Nat × BitVec 6 :=
  let (lo, hi) := intRange w signed
  if x < lo then (wrap w lo, Flag.saturated) else if hi < x then (wrap w hi, Flag.saturated) else (wrap w x, 0)

/-- Conversion to an integer format (cvt_int of R230; R70). -/
def cvtInt (v : FVal) (w : Nat) (signed : Bool) (mode : Rnd) (u : Nat) : Nat × BitVec 6 :=
  match v with
  | .nan => (0, Flag.invalid)
  | .inf neg => let (lo, hi) := intRange w signed; (wrap w (if neg then lo else hi), Flag.saturated)
  | .zero _ => (0, 0)
  | .fin neg m e =>
    let num : Int := (if neg then -(m : Int) else m) * 2 ^ e.toNat
    let den : Int := 2 ^ (-e).toNat
    let i := num / den
    let r := num % den
    let y : Int := match mode with
      | .rz => if num < 0 then -((-num) / den) else i
      | .rne => if 2 * r < den || (decide (2 * r = den) && decide (i % 2 = 0)) then i else i + 1
      | .sr => if (u : Int) < r * 2 ^ 32 / den then i + 1 else i
    let c := clampInt w signed y
    (c.1, c.2 ||| Flag.when (decide (r ≠ 0)) Flag.inexact)

/-- An integer as an exact value. -/
def FVal.ofZ (x : Int) : FVal := FVal.ofInt x 0

/-! ## q4 blocks (R62 to R65, R71, R72) -/

/-- Sixteen times the magnitude that a magnitude code stands for (R64); code 8 is the magnitude of −8. -/
def q4Mag (type : Nat) (m : Nat) : Nat :=
  match type with
  | 0 => 16 * m
  | 1 => [0, 8, 16, 24, 32, 48, 64, 96].getD m 96
  | 2 => [0, 1, 2, 4, 8, 16, 32, 64].getD m 64
  | _ => [0, 16, 32, 48, 64, 96, 128, 192].getD m 192

/-- decode_q4 (R64, R65): code 0x8 of types 1 to 3 is −0. -/
def decodeQ4 (code scale : Nat) : FVal :=
  let e := scale % 64
  let type := scale / 64 % 4
  if e = 63 then .nan
  else
    let neg := decide (8 ≤ code % 16)
    let mc := if type = 0 then (if neg then 16 - code % 16 else code % 16) else code % 8
    let m := q4Mag type mc
    if m = 0 then .zero neg else .fin neg m ((e : Int) - 36)

/-- The largest magnitude code: 7, and 8 for the negative side of type 0. -/
def q4Top (type : Nat) (neg : Bool) : Nat := if type = 0 && neg then 8 else 7

/-- encode_q4 (R71): the code and its flags. -/
def encodeQ4 (v : FVal) (type e : Nat) (mode : Rnd) (u : Nat) : Nat × BitVec 6 :=
  let code (neg : Bool) (i : Nat) : Nat :=
    if i = 0 then 0 else if neg then (if type = 0 then 16 - i else 8 + i) else i
  match v with
  | .nan => (0, 0)
  | .zero _ => (0, 0)
  | .inf neg => (code neg (q4Top type neg), Flag.saturated)
  | .fin neg m ex =>
    -- the quotient times sixteen is num / den
    let sh : Int := ex - (e : Int) + 36
    let num := m * 2 ^ sh.toNat
    let den := 2 ^ (-sh).toNat
    let top := q4Top type neg
    if q4Mag type top * den < num then (code neg top, Flag.saturated ||| Flag.inexact)
    else
      let i := ((List.range top).filter fun j => decide (q4Mag type (j + 1) * den ≤ num)).length
      let lo := q4Mag type i * den
      if lo = num then (code neg i, 0)
      else
        let step := q4Mag type (i + 1) * den - lo
        let r := num - lo
        let up := match mode with
          | .rz => false
          | .rne => decide (step < 2 * r) || (decide (step = 2 * r) && decide (i % 2 = 1))
          | .sr => decide (u < r * 2 ^ 32 / step)
        (code neg (if up then i + 1 else i), Flag.inexact)

/-- |x| ≤ n · 2^(e − 32 − 4). -/
def FVal.magLe (v : FVal) (n e : Nat) : Bool :=
  match v with
  | .fin _ m ex =>
    let sh : Int := ex - (e : Int) + 36
    decide (m * 2 ^ sh.toNat ≤ n * 2 ^ (-sh).toNat)
  | .zero _ => true
  | _ => false

/-- choose_q4_exp (R72). -/
def chooseQ4Exp (block : List FVal) (type : Nat) : Nat :=
  if block.any FVal.isNan then 63
  else if block.all (fun v => match v with | .zero _ => true | _ => false) then 0
  else ((List.range 63).find? fun e => block.all fun v => v.magLe (q4Mag type 7) e).getD 62

/-! ## Matrix accumulation (R74 to R77) -/

/-- Exact sum of finite values. -/
def sumDyad (l : List FVal) : Int × Int := l.foldl (fun a v => addDyad a v.dyad) (0, 0)

/-- mac_group_f32 (R75): the accumulator's code after a group of exact products. Accumulation sets no flag (R73). -/
def macF32 (acc : Nat) (prods : List (FVal × Bool)) : Nat :=
  let vs := f32.decode acc :: prods.map (·.1)
  let pos := vs.any fun v => decide (v = .inf false)
  let neg := vs.any fun v => decide (v = .inf true)
  if vs.any FVal.isNan || (pos && neg) then f32.qnan
  else if pos then 0x7F800000
  else if neg then 0xFF800000
  else let s := sumDyad vs; (f32.pack (FVal.ofInt s.1 s.2) .rne 0).1

/-- mac_group_i32 (R77): the new element and whether it saturated. -/
def macI32 (acc : Nat) (prods : List Int) : Nat × Bool :=
  let s := toSigned 32 acc + prods.sum
  let c := clampInt 32 true s
  (c.1, decide (c.2 ≠ 0))

/-! ## Reciprocal and reciprocal square root (R80, R81) -/

/-- rcp_table[i] as 24-bit significand in units of 2^−24. -/
def rcpTable (i : Nat) : Nat := roundNat (2 ^ 31) (128 + i) .rne 0

/-- floor of a square root, bit by bit from bit `n − 1`. -/
def isqrt : Nat → Nat → Nat → Nat
  | 0, _, r => r
  | n + 1, x, r => if (r + 2 ^ n) * (r + 2 ^ n) ≤ x then isqrt n x (r + 2 ^ n) else isqrt n x r

/-- rsq_table[i] in units of 2^−24: the root of 2^55 / (128 + i), rounded to nearest. -/
def rsqTable (i : Nat) : Nat :=
  let k := isqrt 25 (2 ^ 55 / (128 + i)) 0
  if (4 * k * k + 4 * k + 1) * (128 + i) < 4 * 2 ^ 55 then k + 1 else k

/-- normalise: exponent, and floor(f · 128). -/
def normalise (m : Nat) (e : Int) : Int × Nat := (Nat.log2 m + e, m * 128 / 2 ^ Nat.log2 m - 128)

/-- rcpa_f32 (R80). -/
def rcpa (x : Nat) : Nat × BitVec 6 :=
  match f32.decode x with
  | .nan => (f32.qnan, 0)
  | .zero neg => (f32.signed neg 0x7F800000, Flag.divZero)
  | .inf neg => (f32.signed neg 0, 0)
  | .fin neg m e => let (ex, i) := normalise m e; f32.pack (.fin neg (rcpTable i) (-24 - ex)) .rne 0

/-- rsqa_f32 (R81). -/
def rsqa (x : Nat) : Nat × BitVec 6 :=
  match f32.decode x with
  | .nan => (f32.qnan, 0)
  | .zero neg => (f32.signed neg 0x7F800000, Flag.divZero)
  | .inf true => (f32.qnan, Flag.invalid)
  | .fin true _ _ => (f32.qnan, Flag.invalid)
  | .inf false => (0, 0)
  | .fin false m e =>
    let (ex, i) := normalise m e
    if ex % 2 = 0 then f32.pack (.fin false (rsqTable i) (-24 - ex / 2)) .rne 0
    else
      -- one rounding of rsq_table[i] × rsq_half, then an exact scaling
      let r := f32.round (rsqTable i * 0xB504F3) (-48) .rne 0
      match f32.decode r.1 with
      | .fin _ k d => ((f32.pack (.fin false k (d - (ex - 1) / 2)) .rne 0).1, Flag.when r.2 Flag.inexact)
      | _ => (f32.qnan, 0)

/-! ## Reductions (R78) -/

/-- One level of the pairwise tree. -/
def treeStep {α : Type} (op : α → α → α) : List α → List α
  | a :: b :: r => op a b :: treeStep op r
  | l => l

/-- reduce_tree over 2^m values. -/
def reduceTree {α : Type} (op : α → α → α) : Nat → List α → List α
  | 0, l => l
  | m + 1, l => reduceTree op m (treeStep op l)

end Sys2Proof.Machine
end

