-- ==== Sys2Proof/WellFormed.lean ====
section
/-! DEFINITION. Well-formed instructions: the operand limits that a slot's own bits decide (cause 0xA of R185). Limits
that depend on a register's value are checked by the machine. -/

namespace Sys2Proof

/-- A field that names a register of a 16-entry file has bit [4] clear (R201, R241). -/
def lt16 (r : BitVec 5) : Bool := decide (r.toNat < 16)

/-- The pair of a compare is even and at least g2 (R208). -/
def evenPair (h : BitVec 4) : Bool := decide (h.toNat % 2 = 0) && decide (2 ≤ h.toNat)

/-- An engine of a pair form is even (R247). -/
def even4 (y : BitVec 4) : Bool := decide (y.toNat % 2 = 0)

/-- MODE 0b11 is reserved (R229, R241). -/
def mode3 (m : BitVec 2) : Bool := decide (m.toNat ≤ 2)

/-- A copy command names ce0 to ce3 (R260). -/
def ce4 (u : BitVec 4) : Bool := decide (u.toNat < 4)

/-- A staging group of `n` registers does not run past e15 (R260). -/
def group (e : BitVec 4) (n : Nat) : Bool := decide (e.toNat + n ≤ 16)

/-- The control-register number of a move: B (bits [9:5]) and the low five bits (R205). -/
def ctlNumber (hi lo : BitVec 5) : Nat := hi.toNat * 32 + lo.toNat

/-- The control-register numbers that R207 and the chapters it names assign. -/
def ctlAssigned (n : Nat) : Bool :=
  decide (n ≤ 0x019) || (decide (0x01C ≤ n) && decide (n ≤ 0x01E)) || (decide (0x020 ≤ n) && decide (n ≤ 0x02B)) ||
  (decide (0x030 ≤ n) && decide (n ≤ 0x03A)) || (decide (0x040 ≤ n) && decide (n ≤ 0x04A)) ||
  (decide (0x050 ≤ n) && decide (n ≤ 0x05A)) || (decide (0x060 ≤ n) && decide (n ≤ 0x06C)) ||
  (decide (0x070 ≤ n) && decide (n ≤ 0x081)) || (decide (0x084 ≤ n) && decide (n ≤ 0x087)) ||
  (decide (0x0A0 ≤ n) && decide (n ≤ 0x0AC)) || (decide (0x0B0 ≤ n) && decide (n ≤ 0x0BC)) ||
  (decide (0x0C0 ≤ n) && decide (n ≤ 0x0CC)) || (decide (0x100 ≤ n) && decide (n ≤ 0x102)) ||
  (decide (0x110 ≤ n) && decide (n ≤ 0x11F)) || (decide (0x120 ≤ n) && decide (n ≤ 0x123)) ||
  (decide (0x130 ≤ n) && decide (n ≤ 0x133)) || (decide (0x150 ≤ n) && decide (n ≤ 0x154)) ||
  (decide (0x158 ≤ n) && decide (n ≤ 0x168)) || (decide (0x200 ≤ n) && decide (n ≤ 0x2FF))

/-- An operand within the limits that its own bits decide. Event rows carry no encoding and have no such limit. -/
def Instr.wf (i : Instr) : Bool :=
  match i with
  | .extHdr _ _ _ => true
  | .repeatPfx _ _ _ _ _ => true
  | .lbmark _ _ => true
  | .nop _ => true
  | .add _ _ _ _ => true
  | .sub _ _ _ _ => true
  | .and _ _ _ _ => true
  | .or _ _ _ _ => true
  | .xor _ _ _ _ => true
  | .andn _ _ _ _ => true
  | .shl _ _ _ _ => true
  | .shr _ _ _ _ => true
  | .sar _ _ _ _ => true
  | .ror _ _ _ _ => true
  | .min _ _ _ _ => true
  | .minN _ _ _ _ => true
  | .max _ _ _ _ => true
  | .maxN _ _ _ _ => true
  | .mul _ _ _ _ => true
  | .mulh _ _ _ _ => true
  | .mulhN _ _ _ _ => true
  | .madd _ _ _ _ _ => true
  | .div _ _ _ _ => true
  | .divN _ _ _ _ => true
  | .rem _ _ _ _ => true
  | .remN _ _ _ _ => true
  | .sextB _ _ _ => true
  | .sextH _ _ _ => true
  | .sextW _ _ _ => true
  | .zextB _ _ _ => true
  | .zextH _ _ _ => true
  | .zextW _ _ _ => true
  | .popc _ _ _ => true
  | .clz _ _ _ => true
  | .ctz _ _ _ => true
  | .addi _ _ _ _ => true
  | .andi _ _ _ _ => true
  | .ori _ _ _ _ => true
  | .xori _ _ _ _ => true
  | .shli _ _ _ imm => decide (imm.toNat < 64)
  | .shri _ _ _ imm => decide (imm.toNat < 64)
  | .sari _ _ _ imm => decide (imm.toNat < 64)
  | .shori _ _ _ _ => true
  | .adda _ d a _ _ => lt16 d && lt16 a
  | .movAS _ d _ => lt16 d
  | .movSA _ _ a => lt16 a
  | .movNS _ d _ => lt16 d
  | .movSN _ _ a => lt16 a
  | .movES _ d _ => lt16 d
  | .movSE _ _ a => lt16 a
  | .movToControl _ x _ y => ctlAssigned (ctlNumber y x)
  | .movFromControl _ _ x y => ctlAssigned (ctlNumber y x)
  | .movGS _ d _ => lt16 d
  | .movSG _ _ a => lt16 a
  | .gget _ _ => true
  | .gset _ _ => true
  | .cmpEq _ h _ _ => evenPair h
  | .cmpEqImm _ h _ _ => evenPair h
  | .cmpLt _ h _ _ => evenPair h
  | .cmpLtImm _ h _ _ => evenPair h
  | .cmpLe _ h _ _ => evenPair h
  | .cmpLeImm _ h _ _ => evenPair h
  | .cmpLtn _ h _ _ => evenPair h
  | .cmpLtnImm _ h _ _ => evenPair h
  | .cmpLen _ h _ _ => evenPair h
  | .cmpLenImm _ h _ _ => evenPair h
  | .cmpTst _ h _ _ => evenPair h
  | .cmpTstImm _ h _ _ => evenPair h
  | .brT _ _ => true
  | .brNt _ _ => true
  | .call _ _ => true
  | .bri _ _ => true
  | .ret _ _ => true
  | .loop _ _ _ _ => true
  | .wait _ _ _ _ _ => true
  | .waitt _ c _ => decide (c.toNat ≤ 10)
  | .fence _ => true
  | .lpoff _ _ => true
  | .ldB _ _ _ _ _ => true
  | .ldH _ _ _ _ _ => true
  | .ldW _ _ _ _ _ => true
  | .ldD _ _ _ _ _ => true
  | .stB _ _ _ _ _ => true
  | .stH _ _ _ _ _ => true
  | .stW _ _ _ _ _ => true
  | .stD _ _ _ _ _ => true
  | .atmW _ d _ _ p _ => decide (p.toNat ≤ 11) && (p != 9#4 || decide (d.toNat % 2 = 0))
  | .atmD _ d _ _ p _ => decide (p.toNat ≤ 9) && (p != 9#4 || decide (d.toNat % 2 = 0))
  | .vand _ _ _ _ _ => true
  | .vor _ _ _ _ _ => true
  | .vxor _ _ _ _ _ => true
  | .vandn _ _ _ _ _ => true
  | .vaddI32 _ _ _ _ _ => true
  | .vsubI32 _ _ _ _ _ => true
  | .vmulI32 _ _ _ _ _ => true
  | .vaddI16 _ _ _ _ _ => true
  | .vsubI16 _ _ _ _ _ => true
  | .vaddsI16 _ _ _ _ _ => true
  | .vsubsI16 _ _ _ _ _ => true
  | .vaddI8 _ _ _ _ _ => true
  | .vsubI8 _ _ _ _ _ => true
  | .vaddsI8 _ _ _ _ _ => true
  | .vsubsI8 _ _ _ _ _ => true
  | .vminI32 _ _ _ _ _ => true
  | .vmaxI32 _ _ _ _ _ => true
  | .vminN32 _ _ _ _ _ => true
  | .vmaxN32 _ _ _ _ _ => true
  | .vshlI32 _ _ _ _ _ => true
  | .vshrN32 _ _ _ _ _ => true
  | .vsarI32 _ _ _ _ _ => true
  | .vdot4I8 _ _ _ _ _ _ => true
  | .vdot4N8 _ _ _ _ _ _ => true
  | .vdot2I16 _ _ _ _ _ _ => true
  | .vdot2N16 _ _ _ _ _ _ => true
  | .vaddF32 _ _ _ _ _ => true
  | .vsubF32 _ _ _ _ _ => true
  | .vmulF32 _ _ _ _ _ => true
  | .vfmaF32 _ _ _ _ _ _ => true
  | .vfmsF32 _ _ _ _ _ _ => true
  | .vminF32 _ _ _ _ _ => true
  | .vmaxF32 _ _ _ _ _ => true
  | .vsubBf16 _ _ _ _ _ => true
  | .vaddBf16 _ _ _ _ _ => true
  | .vmulBf16 _ _ _ _ _ => true
  | .vfmaBf16 _ _ _ _ _ _ => true
  | .vaddF16 _ _ _ _ _ => true
  | .vmulF16 _ _ _ _ _ => true
  | .vfmaF16 _ _ _ _ _ _ => true
  | .vrcpaF32 _ _ _ _ => true
  | .vrsqaF32 _ _ _ _ => true
  | .vcvtF32I32 _ _ _ m _ => mode3 m
  | .vcvtF32N32 _ _ _ m _ => mode3 m
  | .vcvtI32F32 _ _ _ m _ => mode3 m
  | .vcvtN32F32 _ _ _ m _ => mode3 m
  | .vcvtBf16F32 _ _ a m _ => mode3 m && decide (a.toNat % 2 = 0)
  | .vcvtF16F32 _ _ a m _ => mode3 m && decide (a.toNat % 2 = 0)
  | .vcvtE4m3F32 _ _ a m _ _ => mode3 m && decide (a.toNat % 4 = 0)
  | .vcvtE5m2F32 _ _ a m _ _ => mode3 m && decide (a.toNat % 4 = 0)
  | .vcvtF32Widen _ d _ f _ => decide (d.toNat % (if f.toNat < 2 then 2 else 4) = 0)
  | .vcvtQ4F32 _ _ _ m _ => mode3 m
  | .vcvtF32Q4 _ _ _ _ => true
  | .vcmpF32 _ _ h _ _ _ => h != 0#3
  | .vcmpI32 _ _ h _ _ _ => h != 0#3
  | .vcmpN32 _ _ h _ _ _ => h != 0#3
  | .klogic _ _ h _ _ => h != 0#3
  | .vbcast _ _ _ _ => true
  | .viota _ _ _ _ => true
  | .vperm _ _ _ _ _ => true
  | .vred _ _ _ r n _ => decide (n.toNat ≤ 2) && (n == 0#2 || decide (r.toNat ≤ 2))
  | .vld _ _ _ _ _ => true
  | .vst _ _ _ _ _ => true
  | .vldW _ _ _ _ _ => true
  | .vstW _ _ _ _ _ => true
  | .vldK _ d _ _ _ => d != 0#3
  | .vstK _ _ _ _ _ => true
  | .trdr _ _ _ _ _ m => mode3 m
  | .trdc _ _ _ _ _ m => mode3 m
  | .twrr32 _ _ _ _ _ => true
  | .twrc32 _ _ _ _ _ => true
  | .twrr16 _ _ _ _ _ m => mode3 m
  | .twrc16 _ _ _ _ _ m => mode3 m
  | .twrr8 _ _ _ _ _ m => mode3 m
  | .twrc8 _ _ _ _ _ m => mode3 m
  | .twrr8Nan _ _ _ _ _ m => mode3 m
  | .twrc8Nan _ _ _ _ _ m => mode3 m
  | .tld _ _ v => lt16 v
  | .tst _ _ v => lt16 v
  | .mwl _ _ _ f => f != 7#3
  | .mwlm _ _ _ v f => f != 7#3 && lt16 v
  | .mwlp _ _ y f => f != 7#3 && even4 y
  | .mwlpm _ _ y v f => f != 7#3 && even4 y && lt16 v
  | .mwa _ _ => true
  | .mwap _ y => even4 y
  | .mms _ _ _ f _ => f != 7#3
  | .mmsm _ _ _ v f _ => f != 7#3 && lt16 v
  | .mmsp _ _ y f _ => f != 7#3 && even4 y
  | .mmspm _ _ y v f _ => f != 7#3 && even4 y && lt16 v
  | .mdr _ _ _ v => decide (v.toNat + 2 ≤ 16)
  | .mdrm _ _ _ v => decide (v.toNat + 3 ≤ 16)
  | .mdrp _ _ y v => even4 y && decide (v.toNat + 2 ≤ 16)
  | .mdrpm _ _ y v => even4 y && decide (v.toNat + 3 ≤ 16)
  | .mpost _ v => lt16 v
  | .mzero _ _ => true
  | .mzerop _ y => even4 y
  | .tcpy _ _ _ => true
  | .tzero _ _ => true
  | .mdrt _ _ _ v => decide (v.toNat + 2 ≤ 16)
  | .tldt _ _ v => lt16 v
  | .tstt _ _ v => lt16 v
  | .tshape _ _ _ => true
  | .cpy _ u e f => ce4 u && group e (if f == 1#1 then 5 else 3)
  | .cpy2 _ u e f => ce4 u && group e (if f == 1#1 then 6 else 4)
  | .cpyz _ u e p => ce4 u && group e 3 && decide (1 ≤ p.toNat) && decide (p.toNat ≤ 9)
  | .cpyx _ u e p => ce4 u && group e 3 && decide (1 ≤ p.toNat) && decide (p.toNat ≤ 9)
  | .cfill _ u e f => ce4 u && group e (if f == 1#1 then 5 else 3)
  | .rld _ u e => ce4 u && group e 3
  | .rst _ u e f => ce4 u && group e (if f == 1#1 then 5 else 3)
  | .ratmW _ u e p => ce4 u && group e 4 && decide (p.toNat ≤ 11)
  | .ratmD _ u e p => ce4 u && group e 4 && decide (p.toNat ≤ 9)
  | .rred _ u e f p => ce4 u && group e (if f == 1#1 then 5 else 3) && decide (p.toNat ≤ 7)
  | .fput _ u e => ce4 u && group e 2
  | .cfence _ u => ce4 u
  | .xchg _ _ e _ => group e 3
  | .xcmb _ _ e _ f o n => decide (f.toNat ≤ 4) && decide (o.toNat ≤ 2) && decide (n.toNat ≤ 2) && (n == 0#2 || decide (f.toNat ≤ 2)) && group e (if n == 0#2 then 3 else 5)
  | .sendif _ _ e _ _ _ => group e 3
  | .shiftg _ e _ _ => group e 4
  | .xchgm _ _ => true
  | .xcmbm _ _ f o => decide (f.toNat ≤ 4) && decide (o.toNat ≤ 2)
  | .xarm _ _ e _ c => decide (c.toNat ≤ 10) && group e 3
  | .xdisarm _ _ => true
  | .xbar _ _ _ => true
  | .coll _ _ => true
  | .route _ _ e => group e 2
  | .rqcfg _ e => group e 2
  | .rqreset _ _ => true
  | .rcsnap _ _ => true
  | .chain _ e => group e 2
  | .chstep _ e => group e 3
  | .chsize _ e => group e 3
  | .chabort _ => true
  | .trap _ _ => true
  | .rte _ => true
  | .rteSw _ => true
  | .endProg _ => true
  | .reraise _ => true
  | .lmark _ _ _ => true
  | .bpoint _ => true
  | .dpoint _ => true
  | .rdcyc _ _ => true
  | .sdump _ => true
  | .enrd _ _ => true
  | .enrdRsv _ _ => true
  | .enres _ _ _ => true
  | .enresRel _ _ _ => true
  | .issueBundle => true
  | .stallEnd => true
  | .longWait => true
  | .resultLands => true
  | .sramAccessPerformed => true
  | .sramLoadLands => true
  | .tileOpComplete => true
  | .correctableError => true
  | .freezeEnd => true
  | .patrolScrub => true
  | .uncorrectableError => true
  | .windowTableWrite => true
  | .wtlockSet => true
  | .codeStoreLoad => true
  | .controlPathRegisterWrite => true
  | .commandStart => true
  | .issueBufferEnter => true
  | .blockTransfer => true
  | .commandComplete => true
  | .supply => true
  | .refuse => true
  | .discard => true
  | .reclaim => true
  | .pgresRead => true
  | .writePacket => true
  | .readRequest => true
  | .readResponse => true
  | .atomicPacket => true
  | .atomicResponse => true
  | .reduceStore => true
  | .flagPacket => true
  | .transferAcknowledgement => true
  | .exchangeData => true
  | .unreachableNotice => true
  | .linkAcknowledgement => true
  | .negativeAcknowledgement => true
  | .replayTimeout => true
  | .detourForward => true
  | .lossOfSignal => true
  | .guylineSwitchBack => true
  | .managementEnable => true
  | .managementDisable => true
  | .failedRetrain => true
  | .trainingComplete => true
  | .trainTimeout => true
  | .rekeyStart => true
  | .rekeyComplete => true
  | .nonceLimit => true
  | .park => true
  | .parkack => true
  | .ready => true
  | .abort => true
  | .exchangeTimeout => true
  | .xarmFire => true
  | .walkerRound => true
  | .routeRowReceive => true
  | .taskDispatch => true
  | .chainStepStart => true
  | .chainTaskPost => true
  | .energyRefill => true
  | .thermalLimit => true
  | .qtailWrite => true
  | .submitJob => true
  | .submitChain => true
  | .cancel => true
  | .registerPager => true
  | .withdrawPager => true
  | .readDump => true
  | .resetTenant => true
  | .placementPass => true
  | .aging => true
  | .quantumExpiry => true
  | .jobEnd => true
  | .drainRequest => true
  | .imageCapture => true
  | .drainEscalation => true
  | .scanStop => true
  | .resume => true
  | .budtgtSet => true
  | .buddyPointAbandon => true
  | .fatalTrap => true
  | .dieReset => true
  | .trapDelivery => true
  | .trapCyclesEnd => true
  | .returnCyclesEnd => true
  | .evrdWrite => true
  | .evovfClear => true
  | .tenantConfigWrite => true
  | .readyBitSet => true
  | .packageReset => true
  | .firmwareImageWrite => true
  | .spdmMeasurement => true
  | .imageSecretInstall => true
  | .cxlMemAccess => true
  | .routerForward => true
  | .captureComplete => true
  | .dumpComplete => true
  | .dieReturnTimeout => true

end Sys2Proof
end

