-- ==== Sys2Proof/Machine/Operands.lean ====
section
/-! DEFINITION. Operand forms: guards, immediates, effective addresses, the decoding of control-stream accesses, loads,
stores and atomics, and the faults that a slot's values can raise (R175, R204, R220 to R222). -/

namespace Sys2Proof.Machine

/-- A fault that a slot raises at issue (R185, R30). -/
inductive SFault where
  | illegal (cause : Nat)
  | window (addr cause agent : Nat) (entry : Option Nat) (write : Bool)
deriving DecidableEq, Repr

/-- An illegal-bundle or illegal-slot fault (R185, R187): ILINFO, ILADDR, a lantern entry, and the precise trap 0x08. -/
def State.takeIllegal (s : State) (cause slot : Nat) (bundle : Bool) : State :=
  let info : W32 := BitVec.ofNat 32 (cause + slot * 16 + (if bundle then 64 else 0))
  let s := { s with ctl := { s.ctl with ilinfo := info, iladdr := s.stream.pc } }
  let s := s.lanternC 0x06 cause (pair32 (codeOff s.stream.pc) 0)
  let s := s.takeTrap 0x08 (info.zeroExtend 64) s.stream.pc s.stream.pc 23
  { s with stream.ask.faulted := true }

/-- A slot's fault is taken: precise, on the state before the bundle (R31, R185, R319). -/
def State.takeSlotFault (s : State) (f : SFault) (slot : Nat) : State :=
  match f with
  | .illegal c => s.takeIllegal c slot false
  | .window addr cause agent entry write =>
    let s := s.windowFault addr cause agent entry write
    let s := s.takeTrap 0x07 (s.ctl.wfinfo.zeroExtend 64) s.ctl.wfaddr s.stream.pc 23
    { s with stream.ask.faulted := true }

/-- What a slot alone does: nothing when its guard is 0 (R175), a fault when its operands raise one, its effect otherwise. -/
def State.slot (s : State) (g : BitVec 4) (fault : Option SFault) (effect : State → State) :
    Host.Outcome State Fault Refusal :=
  if s.regs.rg g then
    match fault with
    | some f => .next (s.takeSlotFault f s.stream.ask.slot)
    | none => .next (effect s)
  else .next s

/-- A slot with a fault that its encoding raises whatever its guard (R175, R185). -/
def State.encSlot (s : State) (enc : Option Nat) (r : Host.Outcome State Fault Refusal) : Host.Outcome State Fault Refusal :=
  match enc with
  | some c => .next (s.takeIllegal c s.stream.ask.slot false)
  | none => r

/-! ## Immediates and addresses -/

/-- An 18-bit immediate or offset, sign-extended to 64 bits (R204). -/
def immS (i : BitVec 18) : W64 := i.signExtend 64

/-- Effective address of layout E (R220): base plus offset in units of the size, low bits cleared. -/
def State.ea (s : State) (a : BitVec 4) (off : W64) (size : Nat) : Nat :=
  let x := (s.regs.ra a + off * BitVec.ofNat 64 size).toNat
  x - x % size

/-- The post-increment of layout E (R220): n A bytes, for class 0x9 too, of which R236 speaks in units of the size (DEDUCED, log
56). -/
def State.postInc (s : State) (a : BitVec 4) (u : BitVec 1) : State :=
  if u = 1 then s.put 1 (.a a (s.regs.ra a + s.regs.rn a)) else s

/-- The window-fault cause of a control-stream access, if it raises one (R12 to R14, R27, R220, R237). -/
def streamCause (a : Nat) (scalarLoad : Bool) : Option Nat :=
  match region a with
  | .sram => none
  | .ws => none
  | .code => if scalarLoad then none else some 0x6
  | .hole => some 0x2
  | .high => some 0x3
  | .control => some 0x6
  | .window => some 0x6

/-- The window fault of a control-stream access, if it raises one. -/
def streamFault (a : Nat) (scalarLoad write : Bool) : Option SFault :=
  (streamCause a scalarLoad).map fun c => .window a c 0x0 none write

/-! ## Loads, stores and atomics of the control stream -/

/-- Bit vector of a lane predicate's 128 bytes (R236). -/
def bitsOf (bs : List Byte) : BitVec 1024 := BitVec.ofNat 1024 (leNat bs)

/-- A vector register from its 4,096 bytes. -/
def lanesOf (bs : List Byte) : Vector W32 1024 :=
  Vector.ofFn fun j => BitVec.ofNat 32 (leNat ((bs.drop (4 * j.val)).take 4))

/-- The bytes of a vector register. -/
def bytesOf (v : Vector W32 1024) : List Byte := v.toList.flatMap fun x => leBytes 4 x.toNat

/-- What a loaded value writes (R219, R236). -/
def LoadDest.landing (d : LoadDest) (bs : List Byte) : Landing :=
  match d with
  | .s i => .s i (BitVec.ofNat 64 (leNat bs))
  | .v i lanes w =>
    if w = 4 then .v i lanes (.replicate 1024 (BitVec.ofNat 32 (leNat bs))) else .v i lanes (lanesOf bs)
  | .k i => .k i (BitVec.allOnes 1024) (bitsOf bs)
  | .none => .flagsOnly

/-- A load issues (R221): from the working store and the code store it lands after 6 cycles with the bytes of earlier cycles
(R135; a store of its own bundle is not seen, R42), from shared SRAM after 14 + 2h. -/
def State.startLoad (s : State) (a size : Nat) (d : LoadDest) : State :=
  if region a = .sram then
    { s with stream := { s.stream with
        sram := s.stream.sram ++ [{
          seq := s.stream.seq, kind := .load, addr := a, size := size, part := 0,
          performIn := 8 + 2 * hops a, landIn := 13 + 2 * hops a, dest := d, bytes := [], performed := false }],
        seq := s.stream.seq + 1 } }
  else s.put 6 (d.landing (s.load a size))

/-- A store issues (R221): to the working store it is performed at the end of the cycle, to shared SRAM after 8 + 2h. -/
def State.startStore (s : State) (a : Nat) (bs : List Byte) : State :=
  if region a = .sram then
    { s with stream := { s.stream with
        sram := s.stream.sram ++ [{
          seq := s.stream.seq, kind := .store, addr := a, size := bs.length, part := 0,
          performIn := 8 + 2 * hops a, landIn := 0, dest := .none, bytes := bs, performed := false }],
        seq := s.stream.seq + 1 } }
  else s.put 1 (.wstore a bs)

/-- The new value of an atomic (R222): `none` for a compare that fails. `fmax` and `fmin` are f32. -/
def atomicNew (op : BitVec 4) (size old x cmp : Nat) : Option Nat :=
  let w := 8 * size
  match op.toNat with
  | 0x0 => some x
  | 0x1 => some ((old + x) % 2 ^ w)
  | 0x2 => some (old &&& x)
  | 0x3 => some (old ||| x)
  | 0x4 => some (old ^^^ x)
  | 0x5 => some (if toSigned w old < toSigned w x then x else old)
  | 0x6 => some (if toSigned w x < toSigned w old then x else old)
  | 0x7 => some (if old < x then x else old)
  | 0x8 => some (if x < old then x else old)
  | 0x9 => if old = cmp then some x else none
  | 0xA => some (f32.maxB old x)
  | 0xB => some (f32.minB old x)
  | _ => none

/-- An atomic of the control stream at its home, with the old value. It reads the last write of an earlier cycle (R35) and
its write stands over every engine's write of its cycle (R44). -/
def State.atomic (s : State) (op : BitVec 4) (a size x cmp : Nat) : State × Nat :=
  let old := leNat (s.load a size)
  match atomicNew op size old (x % 2 ^ (8 * size)) (cmp % 2 ^ (8 * size)) with
  | some y => (s.store a (leBytes size y), old)
  | none => (s, old)

/-- An atomic issues (R222): on the working store it is performed at the end of the cycle and lands after 6 cycles; on
shared SRAM it lands after 16 + 2h. -/
def State.startAtomic (s : State) (op : BitVec 4) (d : BitVec 5) (a size : Nat) (x cmp : W64) : State :=
  if region a = .sram then
    { s with stream := { s.stream with
        sram := s.stream.sram ++ [{
          seq := s.stream.seq, kind := .atomic op cmp, addr := a, size := size, part := 0,
          performIn := 8 + 2 * hops a, landIn := 15 + 2 * hops a, dest := .s d, bytes := leBytes size x.toNat,
          performed := false }],
        seq := s.stream.seq + 1 } }
  else s.put 1 (.watomic op d a size x cmp)

end Sys2Proof.Machine
end

