-- ==== Sys2Proof/Machine/Branch.lean ====
section
/-! DEFINITION. Meanings of class 0x4: branches, calls, returns, hardware loops, waits and FENCE (R209 to R218). A slot
says what it asks of the control stream in `stream.ask`; the bundle's issue acts on it. -/

namespace Sys2Proof.Machine

/-- The target of layout D: P + 16 × OFF (R209). -/
def branchTo (p : W64) (o : BitVec 19) : W64 := p + (o.signExtend 64 <<< 4)

/-- A target register with bits [3:0] cleared (R209). -/
def alignBundle (x : W64) : W64 := x &&& ~~~(15#64)

/-- The bundle is left for a target by a taken branch, call or return, with bubble cycles and a lantern entry (R209,
R210, R347). -/
def State.leave (s : State) (target : W64) (bubbles kind : Nat) : State :=
  let s := s.lanternC kind s.stream.ask.slot (pair32 (codeOff s.stream.pc) (codeOff target))
  { s with stream.ask := { s.stream.ask with target := some target, taken := true, bubbles := bubbles } }

/-- Bubble cycles asked for by a slot that falls through (R189). -/
def State.bubble (s : State) (n : Nat) : State := { s with stream.ask.bubbles := n }

/-- br.t: taken without bubbles; guarded off it falls through against its hint and costs 4 (R189, R209). -/
def execBrT (g : BitVec 4) (o : BitVec 19) (s : State) : Host.Outcome State Fault Refusal :=
  .next (if s.regs.rg g then s.leave (branchTo s.stream.pc o) 0 0x01 else s.bubble 4)

/-- br.nt: taken against its hint it costs 4 bubble cycles. -/
def execBrNt (g : BitVec 4) (o : BitVec 19) (s : State) : Host.Outcome State Fault Refusal :=
  .next (if s.regs.rg g then s.leave (branchTo s.stream.pc o) 4 0x01 else s)

/-- call: s31 := P + 16 with latency 1, push P + 16, next := target; guarded off it costs 4 bubble cycles (R189, R209,
R210). -/
def execCall (g : BitVec 4) (o : BitVec 19) (s : State) : Host.Outcome State Fault Refusal :=
  .next (if s.regs.rg g then
      let back := s.stream.pc + 16
      let t := (s.put 1 (.s 31 back)).leave (branchTo s.stream.pc o) 0 0x02
      { t with stream.ras := (back :: t.stream.ras).take 8 }
    else s.bubble 4)

/-- bri: next := sA with bits [3:0] cleared; 4 bubble cycles (R189, R209). -/
def execBri (g : BitVec 4) (a : BitVec 5) (s : State) : Host.Outcome State Fault Refusal :=
  s.slot g none fun s => s.leave (alignBundle (s.regs.rs a)) 4 0x01

/-- ret: pops the return-address stack; no bubble when the popped entry is the target, 4 otherwise (R210). -/
def execRet (g : BitVec 4) (a : BitVec 5) (s : State) : Host.Outcome State Fault Refusal :=
  s.slot g none fun s =>
    let target := alignBundle (s.regs.rs a)
    let s := s.leave target (if s.stream.ras.head? = some target then 0 else 4) 0x03
    { s with stream.ras := s.stream.ras.tail }

/-- loop: a zero trip count skips the body; any other sets the loop up as the most recent one (R211). The skip counts as a taken
branch for R212: no loop test follows (DEDUCED, log 56). -/
def execLoop (g : BitVec 4) (l : BitVec 2) (e : BitVec 10) (a : BitVec 5) (s : State) : Host.Outcome State Fault Refusal :=
  s.slot g none fun s =>
    let start := s.stream.pc + 16
    let last := start + (e.zeroExtend 64 <<< 4)
    if s.regs.rs a = 0 then
      { s with stream.ask := { s.stream.ask with target := some (last + 16), taken := true, bubbles := 4 } }
    else s.put 1 (.loop l (s.regs.rs a) start last)

/-- A counter is within a limit of WAIT; 0xF sets none (R216). -/
def withinLimit (limit : BitVec 4) (n : Nat) : Bool := limit == 15#4 || decide (n ≤ limit.toNat)

/-- The condition of WAIT on OCLD, OCST, OCCI and OCTO as the cycle began (R216, R217). -/
def State.waitDone (s : State) (l st c t : BitVec 4) : Bool :=
  let count (n : Nat) : Nat := (s.ctlRead n).toNat
  withinLimit l (count 0x020) && withinLimit st (count 0x021) && withinLimit c (count 0x022) && withinLimit t (count 0x023)

/-- A wait: the bundle is held while the condition does not hold; the guard is not read (R217, R218). -/
def State.waitFor (s : State) (done : Bool) : Host.Outcome State Fault Refusal :=
  .next (if done then s else { s with stream.held := true })

/-- wait: stalls until the four counters are within their limits (R216). -/
def execWait (_g l st c t : BitVec 4) (s : State) : Host.Outcome State Fault Refusal := s.waitFor (s.waitDone l st c t)

/-- The condition of WAITT: the counter of the context is at least sA (R216). -/
def State.waittDone (s : State) (c : BitVec 4) (a : BitVec 5) : Bool :=
  decide ((s.regs.rs a).toNat ≤ (s.line c.toNat).seen.toNat)

/-- waitt: stalls until a timeline counter reaches sA (R216). -/
def execWaitt (_g c : BitVec 4) (a : BitVec 5) (s : State) : Host.Outcome State Fault Refusal := s.waitFor (s.waittDone c a)

/-- The condition of FENCE: no shared-SRAM load or store is outstanding (R137, R216). -/
def State.fenceDone (s : State) : Bool := decide (s.stream.ocld = 0) && decide (s.stream.ocst = 0)

/-- fence (R137, R216). -/
def execFence (_g : BitVec 4) (s : State) : Host.Outcome State Fault Refusal := s.waitFor s.fenceDone

/-- lpoff: loop L becomes inactive at the end of the issue cycle (R213). -/
def execLpoff (g : BitVec 4) (l : BitVec 2) (s : State) : Host.Outcome State Fault Refusal :=
  s.slot g none fun s => s.put 1 (.lpoff l)

end Sys2Proof.Machine
end

