-- ==== Sys2Proof/Machine/Vector.lean ====
section
/-! DEFINITION. Meanings of classes 0x6 to 0x9: the vector unit (R223 to R238). -/

namespace Sys2Proof.Machine

/-! ## Lanes -/

/-- A vector result: lane `j` of v D becomes `(f j).1` where the predicate is 1, and the flags of those lanes are ORed when
the result lands (R223). -/
def State.vput (s : State) (lat : Nat) (d : BitVec 5) (lanes : BitVec 1024) (f : Nat → W32 × BitVec 6) : State :=
  s.push lat (.v d lanes (Vector.ofFn fun j => (f j.val).1))
    ((List.range 1024).foldl (fun fl j => if lanes.getLsbD j then fl ||| (f j).2 else fl) 0) 0

/-- Lane `j` of a vector register's value. -/
def lane (v : Vector W32 1024) (j : Nat) : W32 := vget v j 0

/-- Element `i` of `w` bits of a lane (R56). -/
def elemOf (w : Nat) (x : W32) (i : Nat) : Nat := x.toNat / 2 ^ (w * i) % 2 ^ w

/-- The lane of elements of `w` bits, lowest first. -/
def packLane (w : Nat) : List Nat → Nat
  | [] => 0
  | e :: r => e % 2 ^ w + 2 ^ w * packLane w r

/-- An operation on 32-bit elements that sets no flag. -/
def op32 (f : W32 → W32 → W32) (a b : W32) : W32 × BitVec 6 := (f a b, 0)

/-- An operation element by element of `w` bits; the lane's flags are those of its elements. -/
def packed (w : Nat) (f : Nat → Nat → Nat × BitVec 6) (a b : W32) : W32 × BitVec 6 :=
  let rs := (List.range (32 / w)).map fun i => f (elemOf w a i) (elemOf w b i)
  (BitVec.ofNat 32 (packLane w (rs.map (·.1))), rs.foldl (fun fl r => fl ||| r.2) 0)

/-- As `packed`, with a third operand. -/
def packed3 (w : Nat) (f : Nat → Nat → Nat → Nat × BitVec 6) (a b c : W32) : W32 × BitVec 6 :=
  let rs := (List.range (32 / w)).map fun i => f (elemOf w a i) (elemOf w b i) (elemOf w c i)
  (BitVec.ofNat 32 (packLane w (rs.map (·.1))), rs.foldl (fun fl r => fl ||| r.2) 0)

/-- A two-operand vector slot. -/
def State.slotV2 (s : State) (g : BitVec 4) (lat : Nat) (d a b : BitVec 5) (k : BitVec 3)
    (f : W32 → W32 → W32 × BitVec 6) : Host.Outcome State Fault Refusal :=
  s.slot g none fun s =>
    s.vput lat d (s.regs.rk k) fun j => f (lane (s.regs.rv a) j) (lane (s.regs.rv b) j)

/-- A three-operand vector slot. -/
def State.slotV3 (s : State) (g : BitVec 4) (lat : Nat) (d a b c : BitVec 5) (k : BitVec 3)
    (f : W32 → W32 → W32 → W32 × BitVec 6) : Host.Outcome State Fault Refusal :=
  s.slot g none fun s =>
    s.vput lat d (s.regs.rk k) fun j => f (lane (s.regs.rv a) j) (lane (s.regs.rv b) j) (lane (s.regs.rv c) j)

/-! ## Integer and logic, class 0x6 (R225, R226) -/

/-- Wrapping sum, difference; clamped sum, difference of signed elements. -/
def addW (w : Nat) (x y : Nat) : Nat × BitVec 6 := ((x + y) % 2 ^ w, 0)
/-- See `addW`. -/
def subW (w : Nat) (x y : Nat) : Nat × BitVec 6 := ((x + 2 ^ w - y) % 2 ^ w, 0)
/-- See `addW`. -/
def addsW (w : Nat) (x y : Nat) : Nat × BitVec 6 := clampInt w true (toSigned w x + toSigned w y)
/-- See `addW`. -/
def subsW (w : Nat) (x y : Nat) : Nat × BitVec 6 := clampInt w true (toSigned w x - toSigned w y)

/-- Dot product of the elements of two lanes added to a third, modulo 2^32 (R225). -/
def dot (w : Nat) (signed : Bool) (a b c : W32) : W32 × BitVec 6 :=
  let val (x : W32) (i : Nat) : Int := if signed then toSigned w (elemOf w x i) else (elemOf w x i : Int)
  (BitVec.ofInt 32 ((c.toNat : Int) + ((List.range (32 / w)).map fun i => val a i * val b i).sum), 0)

/-- The codes of revision 2 execute only on a B0 die that runs a rev 2 job (R226); otherwise they are unassigned. -/
def State.rev2 (s : State) : Option Nat := if s.ctl.rev = 2 ∧ s.ctl.encrev.toNat % 16 = 2 then none else some 0x8

/-- Vand (R225). -/
def execVand (g : BitVec 4) (d a b : BitVec 5) (k : BitVec 3) (s : State) :
    Host.Outcome State Fault Refusal :=
  s.slotV2 g 2 d a b k (op32 (fun x y => x &&& y))

/-- Vor (R225). -/
def execVor (g : BitVec 4) (d a b : BitVec 5) (k : BitVec 3) (s : State) :
    Host.Outcome State Fault Refusal :=
  s.slotV2 g 2 d a b k (op32 (fun x y => x ||| y))

/-- Vxor (R225). -/
def execVxor (g : BitVec 4) (d a b : BitVec 5) (k : BitVec 3) (s : State) :
    Host.Outcome State Fault Refusal :=
  s.slotV2 g 2 d a b k (op32 (fun x y => x ^^^ y))

/-- Vandn (R225). -/
def execVandn (g : BitVec 4) (d a b : BitVec 5) (k : BitVec 3) (s : State) :
    Host.Outcome State Fault Refusal :=
  s.slotV2 g 2 d a b k (op32 (fun x y => x &&& ~~~y))

/-- VaddI32 (R225). -/
def execVaddI32 (g : BitVec 4) (d a b : BitVec 5) (k : BitVec 3) (s : State) :
    Host.Outcome State Fault Refusal :=
  s.slotV2 g 2 d a b k (op32 (fun x y => x + y))

/-- VsubI32 (R225). -/
def execVsubI32 (g : BitVec 4) (d a b : BitVec 5) (k : BitVec 3) (s : State) :
    Host.Outcome State Fault Refusal :=
  s.slotV2 g 2 d a b k (op32 (fun x y => x - y))

/-- VmulI32 (R225). -/
def execVmulI32 (g : BitVec 4) (d a b : BitVec 5) (k : BitVec 3) (s : State) :
    Host.Outcome State Fault Refusal :=
  s.slotV2 g 2 d a b k (op32 (fun x y => x * y))

/-- Vadd on 16-bit elements (R225). -/
def execVaddI16 (g : BitVec 4) (d a b : BitVec 5) (k : BitVec 3) (s : State) :
    Host.Outcome State Fault Refusal :=
  s.slotV2 g 2 d a b k (packed 16 (addW 16))

/-- Vsub on 16-bit elements (R225). -/
def execVsubI16 (g : BitVec 4) (d a b : BitVec 5) (k : BitVec 3) (s : State) :
    Host.Outcome State Fault Refusal :=
  s.slotV2 g 2 d a b k (packed 16 (subW 16))

/-- Vadds on 16-bit elements (R225). -/
def execVaddsI16 (g : BitVec 4) (d a b : BitVec 5) (k : BitVec 3) (s : State) :
    Host.Outcome State Fault Refusal :=
  s.slotV2 g 2 d a b k (packed 16 (addsW 16))

/-- Vsubs on 16-bit elements (R225). -/
def execVsubsI16 (g : BitVec 4) (d a b : BitVec 5) (k : BitVec 3) (s : State) :
    Host.Outcome State Fault Refusal :=
  s.slotV2 g 2 d a b k (packed 16 (subsW 16))

/-- Vadd on 8-bit elements (R225). -/
def execVaddI8 (g : BitVec 4) (d a b : BitVec 5) (k : BitVec 3) (s : State) :
    Host.Outcome State Fault Refusal :=
  s.slotV2 g 2 d a b k (packed 8 (addW 8))

/-- Vsub on 8-bit elements (R225). -/
def execVsubI8 (g : BitVec 4) (d a b : BitVec 5) (k : BitVec 3) (s : State) :
    Host.Outcome State Fault Refusal :=
  s.slotV2 g 2 d a b k (packed 8 (subW 8))

/-- Vadds on 8-bit elements (R225). -/
def execVaddsI8 (g : BitVec 4) (d a b : BitVec 5) (k : BitVec 3) (s : State) :
    Host.Outcome State Fault Refusal :=
  s.slotV2 g 2 d a b k (packed 8 (addsW 8))

/-- Vsubs on 8-bit elements (R225). -/
def execVsubsI8 (g : BitVec 4) (d a b : BitVec 5) (k : BitVec 3) (s : State) :
    Host.Outcome State Fault Refusal :=
  s.slotV2 g 2 d a b k (packed 8 (subsW 8))

/-- VminI32 (R225). -/
def execVminI32 (g : BitVec 4) (d a b : BitVec 5) (k : BitVec 3) (s : State) :
    Host.Outcome State Fault Refusal :=
  s.slotV2 g 2 d a b k (op32 fun x y => if y.slt x then y else x)

/-- VmaxI32 (R225). -/
def execVmaxI32 (g : BitVec 4) (d a b : BitVec 5) (k : BitVec 3) (s : State) :
    Host.Outcome State Fault Refusal :=
  s.slotV2 g 2 d a b k (op32 fun x y => if x.slt y then y else x)

/-- VminN32 (R225). -/
def execVminN32 (g : BitVec 4) (d a b : BitVec 5) (k : BitVec 3) (s : State) :
    Host.Outcome State Fault Refusal :=
  s.slotV2 g 2 d a b k (op32 fun x y => if y.ult x then y else x)

/-- VmaxN32 (R225). -/
def execVmaxN32 (g : BitVec 4) (d a b : BitVec 5) (k : BitVec 3) (s : State) :
    Host.Outcome State Fault Refusal :=
  s.slotV2 g 2 d a b k (op32 fun x y => if x.ult y then y else x)

/-- VshlI32 (R225). -/
def execVshlI32 (g : BitVec 4) (d a b : BitVec 5) (k : BitVec 3) (s : State) :
    Host.Outcome State Fault Refusal :=
  s.slotV2 g 2 d a b k (op32 fun x y => x <<< (y.toNat % 32))

/-- VshrN32 (R225). -/
def execVshrN32 (g : BitVec 4) (d a b : BitVec 5) (k : BitVec 3) (s : State) :
    Host.Outcome State Fault Refusal :=
  s.slotV2 g 2 d a b k (op32 fun x y => x >>> (y.toNat % 32))

/-- VsarI32 (R225). -/
def execVsarI32 (g : BitVec 4) (d a b : BitVec 5) (k : BitVec 3) (s : State) :
    Host.Outcome State Fault Refusal :=
  s.slotV2 g 2 d a b k (op32 fun x y => x.sshiftRight (y.toNat % 32))

/-- Vdot4I8 (R225, R226). -/
def execVdot4I8 (g : BitVec 4) (d a b : BitVec 5) (k : BitVec 3) (c : BitVec 5) (s : State) :
    Host.Outcome State Fault Refusal :=
  s.encSlot s.rev2 (s.slotV3 g 2 d a b c k (dot 8 true))

/-- Vdot4N8 (R225, R226). -/
def execVdot4N8 (g : BitVec 4) (d a b : BitVec 5) (k : BitVec 3) (c : BitVec 5) (s : State) :
    Host.Outcome State Fault Refusal :=
  s.encSlot s.rev2 (s.slotV3 g 2 d a b c k (dot 8 false))

/-- Vdot2I16 (R225, R226). -/
def execVdot2I16 (g : BitVec 4) (d a b : BitVec 5) (k : BitVec 3) (c : BitVec 5) (s : State) :
    Host.Outcome State Fault Refusal :=
  s.encSlot s.rev2 (s.slotV3 g 2 d a b c k (dot 16 true))

/-- Vdot2N16 (R225, R226). -/
def execVdot2N16 (g : BitVec 4) (d a b : BitVec 5) (k : BitVec 3) (c : BitVec 5) (s : State) :
    Host.Outcome State Fault Refusal :=
  s.encSlot s.rev2 (s.slotV3 g 2 d a b c k (dot 16 false))

/-! ## Floating arithmetic, class 0x7 (R227, R228) -/

/-- A 32-bit result with its flags as a lane. -/
def asLane (r : Nat × BitVec 6) : W32 × BitVec 6 := (BitVec.ofNat 32 r.1, r.2)

/-- VaddF32 (R227). -/
def execVaddF32 (g : BitVec 4) (d a b : BitVec 5) (k : BitVec 3) (s : State) :
    Host.Outcome State Fault Refusal :=
  s.slotV2 g 5 d a b k (fun x y => asLane (f32.addB x.toNat y.toNat))

/-- VsubF32 (R227). -/
def execVsubF32 (g : BitVec 4) (d a b : BitVec 5) (k : BitVec 3) (s : State) :
    Host.Outcome State Fault Refusal :=
  s.slotV2 g 5 d a b k (fun x y => asLane (f32.subB x.toNat y.toNat))

/-- VmulF32 (R227). -/
def execVmulF32 (g : BitVec 4) (d a b : BitVec 5) (k : BitVec 3) (s : State) :
    Host.Outcome State Fault Refusal :=
  s.slotV2 g 5 d a b k (fun x y => asLane (f32.mulB x.toNat y.toNat))

/-- VfmaF32: one rounding (R227). -/
def execVfmaF32 (g : BitVec 4) (d a b : BitVec 5) (k : BitVec 3) (c : BitVec 5) (s : State) :
    Host.Outcome State Fault Refusal :=
  s.slotV3 g 5 d a b c k (fun x y z => asLane (f32.fmaB x.toNat y.toNat z.toNat false))

/-- VfmsF32: one rounding (R227). -/
def execVfmsF32 (g : BitVec 4) (d a b : BitVec 5) (k : BitVec 3) (c : BitVec 5) (s : State) :
    Host.Outcome State Fault Refusal :=
  s.slotV3 g 5 d a b c k (fun x y z => asLane (f32.fmaB x.toNat y.toNat z.toNat true))

/-- VminF32: no flag, no rounding (R228). -/
def execVminF32 (g : BitVec 4) (d a b : BitVec 5) (k : BitVec 3) (s : State) :
    Host.Outcome State Fault Refusal :=
  s.slotV2 g 5 d a b k (fun x y => (BitVec.ofNat 32 (f32.minB x.toNat y.toNat), 0))

/-- VmaxF32: no flag, no rounding (R228). -/
def execVmaxF32 (g : BitVec 4) (d a b : BitVec 5) (k : BitVec 3) (s : State) :
    Host.Outcome State Fault Refusal :=
  s.slotV2 g 5 d a b k (fun x y => (BitVec.ofNat 32 (f32.maxB x.toNat y.toNat), 0))

/-- VsubBf16 on 16-bit elements (R227). -/
def execVsubBf16 (g : BitVec 4) (d a b : BitVec 5) (k : BitVec 3) (s : State) :
    Host.Outcome State Fault Refusal :=
  s.slotV2 g 5 d a b k (packed 16 bf16.subB)

/-- VaddBf16 on 16-bit elements (R227). -/
def execVaddBf16 (g : BitVec 4) (d a b : BitVec 5) (k : BitVec 3) (s : State) :
    Host.Outcome State Fault Refusal :=
  s.slotV2 g 5 d a b k (packed 16 bf16.addB)

/-- VmulBf16 on 16-bit elements (R227). -/
def execVmulBf16 (g : BitVec 4) (d a b : BitVec 5) (k : BitVec 3) (s : State) :
    Host.Outcome State Fault Refusal :=
  s.slotV2 g 5 d a b k (packed 16 bf16.mulB)

/-- VaddF16 on 16-bit elements (R227). -/
def execVaddF16 (g : BitVec 4) (d a b : BitVec 5) (k : BitVec 3) (s : State) :
    Host.Outcome State Fault Refusal :=
  s.slotV2 g 5 d a b k (packed 16 f16.addB)

/-- VmulF16 on 16-bit elements (R227). -/
def execVmulF16 (g : BitVec 4) (d a b : BitVec 5) (k : BitVec 3) (s : State) :
    Host.Outcome State Fault Refusal :=
  s.slotV2 g 5 d a b k (packed 16 f16.mulB)

/-- VfmaBf16 on 16-bit elements (R227). -/
def execVfmaBf16 (g : BitVec 4) (d a b : BitVec 5) (k : BitVec 3) (c : BitVec 5) (s : State) :
    Host.Outcome State Fault Refusal :=
  s.slotV3 g 5 d a b c k (packed3 16 fun x y z => bf16.fmaB x y z false)

/-- VfmaF16 on 16-bit elements (R227). -/
def execVfmaF16 (g : BitVec 4) (d a b : BitVec 5) (k : BitVec 3) (c : BitVec 5) (s : State) :
    Host.Outcome State Fault Refusal :=
  s.slotV3 g 5 d a b c k (packed3 16 fun x y z => f16.fmaB x y z false)

/-- VrcpaF32 (R80, R81, R227). -/
def execVrcpaF32 (g : BitVec 4) (d a : BitVec 5) (k : BitVec 3) (s : State) :
    Host.Outcome State Fault Refusal :=
  s.slot g none fun s => s.vput 4 d (s.regs.rk k) fun j => asLane (rcpa (lane (s.regs.rv a) j).toNat)

/-- VrsqaF32 (R80, R81, R227). -/
def execVrsqaF32 (g : BitVec 4) (d a : BitVec 5) (k : BitVec 3) (s : State) :
    Host.Outcome State Fault Refusal :=
  s.slot g none fun s => s.vput 4 d (s.regs.rk k) fun j => asLane (rsqa (lane (s.regs.rv a) j).toNat)

/-! ## Conversions, class 0x8 (R229 to R232) -/

/-- `n` draws of the stochastic generator, and its state after them (R67, R68). -/
def drawList : Nat → W64 → List Nat × W64
  | 0, x => ([], x)
  | n + 1, x => let y := nextRandom x; let r := drawList n y; (draw y :: r.1, r.2)

/-- The draws of an instruction that produces `n` elements: taken in mode sr only, advancing SRSTATE at issue (R68). -/
def State.takeDraws (s : State) (mode : Rnd) (n : Nat) : Array Nat × State :=
  if mode = .sr then
    let r := drawList n s.ctl.srstate
    (r.1.toArray, { s with ctl.srstate := r.2 })
  else (#[], s)

/-- A conversion of 32-bit elements in place: lane by lane with its draw, latency 3. -/
def State.slotCvt (s : State) (g : BitVec 4) (d a : BitVec 5) (m : BitVec 2) (k : BitVec 3)
    (f : Nat → Nat → Nat × BitVec 6) : Host.Outcome State Fault Refusal :=
  s.slot g none fun s =>
    let v := s.regs.rv a
    let r := s.takeDraws (Rnd.of m) 1024
    r.2.vput 3 d (s.regs.rk k) fun j => asLane (f (lane v j).toNat (r.1.getD j 0))

/-- VcvtF32I32 (R229, R230). -/
def execVcvtF32I32 (g : BitVec 4) (d a : BitVec 5) (m : BitVec 2) (k : BitVec 3) (s : State) :
    Host.Outcome State Fault Refusal :=
  s.slotCvt g d a m k (fun x u => f32.pack (.ofZ (toSigned 32 x)) (Rnd.of m) u)

/-- VcvtF32N32 (R229, R230). -/
def execVcvtF32N32 (g : BitVec 4) (d a : BitVec 5) (m : BitVec 2) (k : BitVec 3) (s : State) :
    Host.Outcome State Fault Refusal :=
  s.slotCvt g d a m k (fun x u => f32.pack (.ofZ x) (Rnd.of m) u)

/-- VcvtI32F32 (R229, R230). -/
def execVcvtI32F32 (g : BitVec 4) (d a : BitVec 5) (m : BitVec 2) (k : BitVec 3) (s : State) :
    Host.Outcome State Fault Refusal :=
  s.slotCvt g d a m k (fun x u => cvtInt (f32.decode x) 32 true (Rnd.of m) u)

/-- VcvtN32F32 (R229, R230). -/
def execVcvtN32F32 (g : BitVec 4) (d a : BitVec 5) (m : BitVec 2) (k : BitVec 3) (s : State) :
    Host.Outcome State Fault Refusal :=
  s.slotCvt g d a m k (fun x u => cvtInt (f32.decode x) 32 false (Rnd.of m) u)

/-- A narrowing form (R231): element n·l + j of v D from lane l of v A+j. -/
def State.slotNarrow (s : State) (g : BitVec 4) (d a : BitVec 5) (m : BitVec 2) (k : BitVec 3) (w : Nat)
    (f : Nat → Nat → Nat × BitVec 6) : Host.Outcome State Fault Refusal :=
  s.slot g none fun s =>
    let n := 32 / w
    let r := s.takeDraws (Rnd.of m) (1024 * n)
    r.2.vput 3 d (s.regs.rk k) fun l =>
      let rs := (List.range n).map fun j =>
        f (lane (s.regs.rv (a + BitVec.ofNat 5 j)) l).toNat (r.1.getD (n * l + j) 0)
      (BitVec.ofNat 32 (packLane w (rs.map (·.1))), rs.foldl (fun fl r => fl ||| r.2) 0)

/-- VcvtBf16F32 (R229, R231). -/
def execVcvtBf16F32 (g : BitVec 4) (d a : BitVec 5) (m : BitVec 2) (k : BitVec 3) (s : State) :
    Host.Outcome State Fault Refusal :=
  s.slotNarrow g d a m k 16 (fun x u => bf16.pack (f32.decode x) (Rnd.of m) u)

/-- VcvtF16F32 (R229, R231). -/
def execVcvtF16F32 (g : BitVec 4) (d a : BitVec 5) (m : BitVec 2) (k : BitVec 3) (s : State) :
    Host.Outcome State Fault Refusal :=
  s.slotNarrow g d a m k 16 (fun x u => f16.pack (f32.decode x) (Rnd.of m) u)

/-- VcvtE4m3F32 (R229, R231). -/
def execVcvtE4m3F32 (g : BitVec 4) (d a : BitVec 5) (m : BitVec 2) (n : BitVec 1) (k : BitVec 3) (s : State) :
    Host.Outcome State Fault Refusal :=
  s.slotNarrow g d a m k 8 (fun x u => e4m3.pack8 (f32.decode x) (Rnd.of m) (n == 1) u)

/-- VcvtE5m2F32 (R229, R231). -/
def execVcvtE5m2F32 (g : BitVec 4) (d a : BitVec 5) (m : BitVec 2) (n : BitVec 1) (k : BitVec 3) (s : State) :
    Host.Outcome State Fault Refusal :=
  s.slotNarrow g d a m k 8 (fun x u => e5m2.pack8 (f32.decode x) (Rnd.of m) (n == 1) u)

/-- The format of a widening form (R229). -/
def widenFmt (f : BitVec 2) : Fmt := if f = 0 then bf16 else if f = 1 then f16 else if f = 2 then e4m3 else e5m2

/-- The f32 code of a narrower code, exact (R231). -/
def widen (f : Fmt) (x : Nat) : Nat := (f32.pack (f.decode x) .rne 0).1

/-- vcvt.f32 from bf16, f16, e4m3 or e5m2: element n·l + j of v A into lane l of v D+j; no flag (R231). -/
def execVcvtF32Widen (g : BitVec 4) (d a : BitVec 5) (f : BitVec 2) (k : BitVec 3) (s : State) :
    Host.Outcome State Fault Refusal :=
  s.slot g none fun s =>
    let w := if f.toNat < 2 then 16 else 8
    let v := s.regs.rv a
    (List.range (32 / w)).foldl (fun t j =>
      t.vput 3 (d + BitVec.ofNat 5 j) (s.regs.rk k) fun l =>
        (BitVec.ofNat 32 (widen (widenFmt f) (elemOf w (lane v l) j)), 0)) s

/-- The codes, scale and flags of a block of 32 values (R71, R72, R232). A block that holds a NaN has the NaN scale and codes
0x0 throughout; its finite values are not encoded, and none of them sets a flag (DESIGN CHOICE, log 49). -/
def encodeBlock (vs : List FVal) (type : Nat) (mode : Rnd) (us : List Nat) : List Nat × Nat × BitVec 6 :=
  let e := chooseQ4Exp vs type
  if e = 63 then (vs.map fun _ => 0, type * 64 + 63, 0)
  else
    let rs := (vs.zip us).map fun (v, u) => encodeQ4 v type e mode u
    (rs.map (·.1), type * 64 + e, rs.foldl (fun fl r => fl ||| r.2) 0)

/-- Two codes a byte, the even element low (R62). -/
def codeBytes : List Nat → List Byte
  | a :: b :: r => BitVec.ofNat 8 (a + 16 * b) :: codeBytes r
  | [a] => [BitVec.ofNat 8 a]
  | [] => []

/-- vcvt.q4.f32: 32 blocks of v A as a q4 register, written whole (R232). -/
def execVcvtQ4F32 (g : BitVec 4) (d a : BitVec 5) (m t : BitVec 2) (s : State) : Host.Outcome State Fault Refusal :=
  s.slot g none fun s =>
    let v := s.regs.rv a
    let r := s.takeDraws (Rnd.of m) 1024
    let bs := (List.range 32).map fun b =>
      encodeBlock ((List.range 32).map fun i => f32.decode (lane v (32 * b + i)).toNat) t.toNat (Rnd.of m)
        ((List.range 32).map fun i => r.1.getD (32 * b + i) 0)
    let bytes := codeBytes (bs.flatMap (·.1)) ++ bs.map (fun x => BitVec.ofNat 8 x.2.1)
    r.2.push 3 (.v d (BitVec.allOnes 1024) (lanesOf bytes)) (bs.foldl (fun fl x => fl ||| x.2.2) 0) 0

/-- Byte `i` of a vector register (R56). -/
def byteOf (v : Vector W32 1024) (i : Nat) : Nat := elemOf 8 (lane v (i / 4)) (i % 4)

/-- vcvt.f32.q4: lane l := decode_q4 of element l (R232). -/
def execVcvtF32Q4 (g : BitVec 4) (d a : BitVec 5) (k : BitVec 3) (s : State) : Host.Outcome State Fault Refusal :=
  s.slot g none fun s =>
    let v := s.regs.rv a
    s.vput 3 d (s.regs.rk k) fun l =>
      let code := byteOf v (l / 2) / 16 ^ (l % 2) % 16
      (BitVec.ofNat 32 (f32.pack (decodeQ4 code (byteOf v (512 + l / 32))) .rne 0).1, 0)

/-! ## Compares, predicates, lanes, reductions (R233 to R235) -/

/-- A compare into a lane predicate: bit l is k K[l] and the condition (R233). -/
def State.slotVcmp (s : State) (g : BitVec 4) (h : BitVec 3) (a b : BitVec 5) (k : BitVec 3) (f : W32 → W32 → Bool) :
    Host.Outcome State Fault Refusal :=
  s.slot g none fun s =>
    let m := s.regs.rk k
    let va := s.regs.rv a
    let vb := s.regs.rv b
    s.put 2 (.k h (BitVec.allOnes 1024)
      (BitVec.ofFnLE fun j : Fin 1024 => m.getLsbD j.val && f (lane va j.val) (lane vb j.val)))

/-- vcmp.f32: equal, less, less or equal, unordered (R233). -/
def condF32 (c : BitVec 2) (x y : W32) : Bool :=
  let a := f32.decode x.toNat
  let b := f32.decode y.toNat
  if c = 0 then a.eq b else if c = 1 then a.lt b else if c = 2 then a.lt b || a.eq b else a.isNan || b.isNan

/-- vcmp.i32: equal, less, less or equal, not equal. -/
def condI32 (c : BitVec 2) (x y : W32) : Bool :=
  if c = 0 then x == y else if c = 1 then x.slt y else if c = 2 then x.sle y else x != y

/-- vcmp.n32: equal, less, less or equal, not equal. -/
def condN32 (c : BitVec 2) (x y : W32) : Bool :=
  if c = 0 then x == y else if c = 1 then x.ult y else if c = 2 then x.ule y else x != y

/-- vcmp.f32 (R233). -/
def execVcmpF32 (g : BitVec 4) (c : BitVec 2) (h : BitVec 3) (a b : BitVec 5) (k : BitVec 3) (s : State) :
    Host.Outcome State Fault Refusal :=
  s.slotVcmp g h a b k (condF32 c)

/-- vcmp.i32 (R233). -/
def execVcmpI32 (g : BitVec 4) (c : BitVec 2) (h : BitVec 3) (a b : BitVec 5) (k : BitVec 3) (s : State) :
    Host.Outcome State Fault Refusal :=
  s.slotVcmp g h a b k (condI32 c)

/-- vcmp.n32 (R233). -/
def execVcmpN32 (g : BitVec 4) (c : BitVec 2) (h : BitVec 3) (a b : BitVec 5) (k : BitVec 3) (s : State) :
    Host.Outcome State Fault Refusal :=
  s.slotVcmp g h a b k (condN32 c)

/-- kand, kor, kxor, kandn on all 1,024 bits (R233). -/
def execKlogic (g : BitVec 4) (l : BitVec 2) (h a b : BitVec 3) (s : State) : Host.Outcome State Fault Refusal :=
  s.slot g none fun s =>
    let x := s.regs.rk a
    let y := s.regs.rk b
    s.put 2 (.k h (BitVec.allOnes 1024)
      (if l = 0 then x &&& y else if l = 1 then x ||| y else if l = 2 then x ^^^ y else x &&& ~~~y))

/-- vbcast: D[l] := sA[31:0] (R234). -/
def execVbcast (g : BitVec 4) (d a : BitVec 5) (k : BitVec 3) (s : State) : Host.Outcome State Fault Refusal :=
  s.slot g none fun s => s.vput 2 d (s.regs.rk k) fun _ => ((s.regs.rs a).truncate 32, 0)

/-- viota: D[l] := (sA[31:0] + l) mod 2^32 (R234). -/
def execViota (g : BitVec 4) (d a : BitVec 5) (k : BitVec 3) (s : State) : Host.Outcome State Fault Refusal :=
  s.slot g none fun s => s.vput 2 d (s.regs.rk k) fun l => ((s.regs.rs a).truncate 32 + BitVec.ofNat 32 l, 0)

/-- vperm: D[l] := A[B[l][9:0]] (R234). -/
def execVperm (g : BitVec 4) (d a b : BitVec 5) (k : BitVec 3) (s : State) : Host.Outcome State Fault Refusal :=
  s.slot g none fun s =>
    s.vput 2 d (s.regs.rk k) fun l => (lane (s.regs.rv a) ((lane (s.regs.rv b) l).toNat % 1024), 0)

/-- The identity of a reduction (R235). -/
def redIdentity (r : BitVec 3) : Nat :=
  match r.toNat with
  | 1 => 0xFF800000
  | 2 => 0x7F800000
  | 4 => 0x80000000
  | 5 => 0x7FFFFFFF
  | 7 => 0xFFFFFFFF
  | _ => 0

/-- One combine of a reduction, with the flags so far (R235). -/
def redOp (r : BitVec 3) (x y : Nat × BitVec 6) : Nat × BitVec 6 :=
  let z : Nat × BitVec 6 := match r.toNat with
    | 0 => f32.addB x.1 y.1
    | 1 => (f32.maxB x.1 y.1, 0)
    | 2 => (f32.minB x.1 y.1, 0)
    | 3 => ((x.1 + y.1) % 2 ^ 32, 0)
    | 4 => (if toSigned 32 x.1 < toSigned 32 y.1 then y.1 else x.1, 0)
    | 5 => (if toSigned 32 y.1 < toSigned 32 x.1 then y.1 else x.1, 0)
    | 6 => (max x.1 y.1, 0)
    | _ => (min x.1 y.1, 0)
  (z.1, x.2 ||| y.2 ||| z.2)

/-- A lane reduction (R235): value, count and flags. -/
def reduceLanes (r : BitVec 3) (ns : BitVec 2) (v : Vector W32 1024) (m : BitVec 1024) : Nat × Nat × BitVec 6 :=
  let isNan (l : Nat) : Bool := decide (r.toNat < 3) && (f32.decode (lane v l).toNat).isNan
  let enabled := (List.range 1024).filter fun l => m.getLsbD l
  let validBlock (b : Nat) : Bool :=
    let ls := (List.range 32).map (32 * b + ·)
    ls.any (fun l => m.getLsbD l) && ls.all (fun l => !(m.getLsbD l && isNan l))
  let takes (l : Nat) : Bool :=
    m.getLsbD l && (if ns = 1 then !isNan l else if ns = 2 then validBlock (l / 32) else true)
  let xs := (List.range 1024).map fun l => ((if takes l then (lane v l).toNat else redIdentity r), (0 : BitVec 6))
  let count := if ns = 1 then (enabled.filter fun l => !isNan l).length
    else if ns = 2 then ((List.range 32).filter validBlock).length else 0
  if ns = 0 && enabled.any isNan then (f32.qnan, 0, 0)
  else if (if ns = 0 then enabled.isEmpty else decide (count = 0)) then (0, 0, 0)
  else
    let t := ((reduceTree (redOp r) 10 xs).head?).getD (0, 0)
    (t.1, min count (if ns = 1 then 255 else 65535), t.2)

/-- vred: the enabled lanes of v A into s D, with the count of the NaN-skip modes in bits [63:32] (R235). -/
def execVred (g : BitVec 4) (d a : BitVec 5) (r : BitVec 3) (n : BitVec 2) (k : BitVec 3) (s : State) :
    Host.Outcome State Fault Refusal :=
  s.slot g none fun s =>
    let x := reduceLanes r n (s.regs.rv a) (s.regs.rk k)
    s.push 9 (.s d (BitVec.ofNat 64 (x.1 + x.2.1 * 2 ^ 32))) x.2.2 0

/-! ## Vector loads and stores, class 0x9 (R236, R237) -/

/-- A vector load. -/
def State.slotVload (s : State) (g : BitVec 4) (size : Nat) (dest : LoadDest) (a : BitVec 4) (u : BitVec 1) (off : BitVec 18) :
    Host.Outcome State Fault Refusal :=
  let ea := s.ea a (immS off) size
  s.slot g (streamFault ea false false) fun s => (s.startLoad ea size dest).postInc a u

/-- A vector store. -/
def State.slotVstore (s : State) (g : BitVec 4) (bs : List Byte) (a : BitVec 4) (u : BitVec 1) (off : BitVec 18)
    (size : Nat) : Host.Outcome State Fault Refusal :=
  let ea := s.ea a (immS off) size
  s.slot g (streamFault ea false true) fun s => (s.startStore ea bs).postInc a u

/-- vld: lane l := 4 bytes at ea + 4l (R236). -/
def execVld (g : BitVec 4) (d : BitVec 5) (a : BitVec 4) (u : BitVec 1) (off : BitVec 18) (s : State) :
    Host.Outcome State Fault Refusal :=
  s.slotVload g 4096 (.v d (BitVec.allOnes 1024) 4096) a u off

/-- vst: 4 bytes at ea + 4l := lane l (R236). -/
def execVst (g : BitVec 4) (d : BitVec 5) (a : BitVec 4) (u : BitVec 1) (off : BitVec 18) (s : State) :
    Host.Outcome State Fault Refusal :=
  s.slotVstore g (bytesOf (s.regs.rv d)) a u off 4096

/-- vld.w: every lane := 4 bytes at ea (R236). -/
def execVldW (g : BitVec 4) (d : BitVec 5) (a : BitVec 4) (u : BitVec 1) (off : BitVec 18) (s : State) :
    Host.Outcome State Fault Refusal :=
  s.slotVload g 4 (.v d (BitVec.allOnes 1024) 4) a u off

/-- vst.w: 4 bytes at ea := lane 0 (R236). -/
def execVstW (g : BitVec 4) (d : BitVec 5) (a : BitVec 4) (u : BitVec 1) (off : BitVec 18) (s : State) :
    Host.Outcome State Fault Refusal :=
  s.slotVstore g (leBytes 4 (lane (s.regs.rv d) 0).toNat) a u off 4

/-- vld.k: 128 bytes at ea (R236). -/
def execVldK (g : BitVec 4) (d : BitVec 3) (a : BitVec 4) (u : BitVec 1) (off : BitVec 18) (s : State) :
    Host.Outcome State Fault Refusal :=
  s.slotVload g 128 (.k d) a u off

/-- vst.k: 128 bytes at ea (R236). -/
def execVstK (g : BitVec 4) (d : BitVec 3) (a : BitVec 4) (u : BitVec 1) (off : BitVec 18) (s : State) :
    Host.Outcome State Fault Refusal :=
  s.slotVstore g (leBytes 128 (s.regs.rk d).toNat) a u off 128

end Sys2Proof.Machine
end

