-- ==== Sys2Proof/Machine/Matrix.lean ====
section
/-! DEFINITION. Tiles, tile images, and what the matrix engines compute: weight loads, streams, drains with the fused
epilogue, and whole tasks (R239 to R256). -/

namespace Sys2Proof.Machine

/-! ## Shapes (R239, R240, R243) -/

/-- Format code, rows and columns of a TSHAPE value. -/
def shFmt (x : BitVec 24) : Nat := x.toNat % 16
/-- See `shFmt`. -/
def shRows (x : BitVec 24) : Nat := x.toNat / 256 % 256 + 1
/-- See `shFmt`. -/
def shCols (x : BitVec 24) : Nat := x.toNat / 65536 + 1

/-- Width of a tile format in bytes; a code byte for q4 (R240). -/
def fmtWidth (f : Nat) : Nat := if f < 3 then 4 else if f < 7 then 2 else 1

/-- Columns counted in elements. -/
def shElems (x : BitVec 24) : Nat := if shFmt x = 0xB then 2 * shCols x else shCols x

/-- Bytes of an image row, RB (R243). -/
def rowBytes (x : BitVec 24) : Nat :=
  if shFmt x = 0xB then shCols x + shCols x / 16 else shCols x * fmtWidth (shFmt x)

/-- Bytes of an image, transposed or not (R243). -/
def imageBytes (x : BitVec 24) (tr : Bool) : Nat :=
  if tr then shCols x * (shRows x * fmtWidth (shFmt x)) else shRows x * rowBytes x

/-- Key of byte `b` of tile `t`. -/
def tileKey (t b : Nat) : Nat := t * 262144 + b

/-- Keys of the bytes of image row `r` in tile `t`, in image order: elements, then the scales of a q4 row (R239). -/
def rowKeys (t : Nat) (x : BitVec 24) (r : Nat) : List Nat :=
  if shFmt x = 0xB then
    (List.range (shCols x)).map (fun c => tileKey t (1024 * r + c)) ++
    (List.range (shCols x / 16)).map fun b => tileKey t (1024 * r + 256 + b)
  else (List.range (shCols x * fmtWidth (shFmt x))).map fun b => tileKey t (1024 * r + b)

/-- Keys of the bytes of an image in image order; the transposed image lists column after column (R243). -/
def imageKeys (t : Nat) (x : BitVec 24) (tr : Bool) : List Nat :=
  if tr then
    let w := fmtWidth (shFmt x)
    (List.range (shCols x)).flatMap fun c => (List.range (shRows x)).flatMap fun r =>
      (List.range w).map fun b => tileKey t (1024 * r + w * c + b)
  else (List.range (shRows x)).flatMap fun r => rowKeys t x r

/-- The bytes of image row `r` of a tile. -/
def State.tileRow (s : State) (t : Nat) (x : BitVec 24) (r : Nat) : List Byte :=
  (rowKeys t x r).map fun k => cellGet s.tiles.bytes k

/-- Write cells of a sparse store. -/
def putCells {w : Nat} (l : List (Nat × BitVec w)) (cs : List (Nat × BitVec w)) : List (Nat × BitVec w) :=
  cs.foldl (fun l c => cellPut l c.1 c.2) l

/-- A tile operation takes effect (R243, R244). What it stores is read from the next cycle on, like any other write (R135). -/
def State.doTileOp (s : State) (o : TileOp) : State :=
  match o.kind with
  | .load t a tr =>
    let ks := imageKeys t.toNat o.shape tr
    { s with tiles.bytes := putCells s.tiles.bytes (ks.zip (s.load a ks.length)) }
  | .store t a tr => s.storeEng a ((imageKeys t.toNat o.shape tr).map fun k => cellGet s.tiles.bytes k)
  | .copy src dst =>
    let ks := imageKeys src.toNat o.shape false
    let cs := ks.map fun k => (k - tileKey src.toNat 0 + tileKey dst.toNat 0, cellGet s.tiles.bytes k)
    { s with tiles.bytes := putCells s.tiles.bytes cs }
  | .zero t => { s with tiles.bytes := clearCells s.tiles.bytes (tileKey t.toNat 0) 262144 }

/-- A tile operation writes the byte of a key. -/
def TileOp.writes (o : TileOp) (key : Nat) : Bool :=
  match o.kind with
  | .load t _ tr => (imageKeys t.toNat o.shape tr).contains key
  | .store _ _ _ => false
  | .copy _ dst => (imageKeys dst.toNat o.shape false).contains key
  | .zero t => decide (key / 262144 = t.toNat)

/-- A tile operation of a later bundle has written the byte of a key in this cycle: its write stands over that of the move with
place `seq` in issue order (R245). -/
def State.tileOver (s : State) (seq key : Nat) : Bool := s.stream.tileNow.any fun o => decide (seq < o.seq) && o.writes key

/-! ## Operands of the engines (R241, R246, R248) -/

/-- The tile format code of an MF code (R240, R241). -/
def mfFmt (mf : BitVec 3) : Nat := [0x3, 0x4, 0x7, 0x8, 0x9, 0xA, 0xB].getD mf.toNat 0xF

/-- The MF code names an integer format. -/
def mfInt (mf : BitVec 3) : Bool := decide (mf = 4) || decide (mf = 5)

/-- The accumulator family of an MF code (R249). -/
def family (mf : BitVec 3) : AccMode := if mfInt mf then .int else .float

/-- An image row laid out along K as an engine row of 512 bytes holds it: elements from byte 0, q4 scales from byte 256. -/
def engineRow (x : BitVec 24) (row : List Byte) : List (Nat × Byte) :=
  row.zipIdx.map fun (b, i) => (if shFmt x = 0xB ∧ shCols x ≤ i then 256 + (i - shCols x) else i, b)

/-- Byte `i` of an engine row. -/
def rowByte (row : List (Nat × Byte)) (i : Nat) : Nat := (cellGet row i).toNat

/-- Element `k` of an engine row as an exact value (R249). -/
def elemF (mf : BitVec 3) (row : List (Nat × Byte)) (k : Nat) : FVal :=
  match mf.toNat with
  | 0 => bf16.decode (rowByte row (2 * k) + 256 * rowByte row (2 * k + 1))
  | 1 => f16.decode (rowByte row (2 * k) + 256 * rowByte row (2 * k + 1))
  | 2 => e4m3.decode (rowByte row k)
  | 3 => e5m2.decode (rowByte row k)
  | _ => decodeQ4 (rowByte row (k / 2) / 16 ^ (k % 2) % 16) (rowByte row (256 + k / 32))

/-- Element `k` of an i8 or n8 engine row. -/
def elemI (mf : BitVec 3) (row : List (Nat × Byte)) (k : Nat) : Int :=
  if mf = 4 then toSigned 8 (rowByte row k) else (rowByte row k : Int)

/-- Where an operand's image rows come from: a tile, or memory. -/
inductive RowSrc where
  | tile (t : Nat)
  | mem (a : Nat)
deriving DecidableEq, Repr

/-- Image row `r` of an operand. -/
def State.srcRow (s : State) (src : RowSrc) (x : BitVec 24) (r : Nat) : List Byte :=
  match src with
  | .tile t => s.tileRow t x r
  | .mem a => s.load (a + r * rowBytes x) (rowBytes x)

/-! ## Weight loads and activation (R248) -/

/-- Rows [lo, lo + 128) of an operand into the shadow weights of an engine; everything else of them becomes zero. -/
def State.loadShadow (s : State) (e : Nat) (src : RowSrc) (x : BitVec 24) (lo : Nat) (mf : BitVec 3) : State :=
  let base := clearCells s.tiles.shadow (e * 65536) 65536
  let cells := (List.range (min 128 (shRows x - lo))).flatMap fun n =>
    (engineRow x (s.srcRow src x (lo + n))).map fun (k, b) => (e * 65536 + n * 512 + k, b)
  { s with tiles := { s.tiles with shadow := putCells base cells,
                                   shadowFmt := vset s.tiles.shadowFmt e (some mf) } }

/-- A weight load, single or pair (R248). -/
def State.weightLoad (s : State) (pair : Bool) (y : Nat) (src : RowSrc) (x : BitVec 24) (mf : BitVec 3) : State :=
  let s := s.loadShadow y src x 0 mf
  if pair then s.loadShadow (y + 1) src x 128 mf else s

/-- Shadow weights and latch become the active ones (R248). -/
def State.activate1 (s : State) (e : Nat) : State :=
  let mine := s.tiles.shadow.filter fun c => decide (e * 65536 ≤ c.1) && decide (c.1 < e * 65536 + 65536)
  { s with tiles := { s.tiles with active := putCells (clearCells s.tiles.active (e * 65536) 65536) mine,
                                   activeFmt := vset s.tiles.activeFmt e (vget s.tiles.shadowFmt e none) } }

/-- MWA and MWAP. -/
def State.activate (s : State) (pair : Bool) (y : Nat) : State :=
  let s := s.activate1 y
  if pair then s.activate1 (y + 1) else s

/-! ## Streams (R249, R75, R77) -/

/-- Key of accumulator element (m, n) of c e. -/
def accKey (e m n : Nat) : Nat := e * 32768 + m * 128 + n

/-- One pass of K-groups into one accumulator element: its new code, and whether an INT32 group saturated. -/
def passElem (mf : BitVec 3) (act wt : List (Nat × Byte)) (acc : Nat) : Nat × Bool :=
  let groups := if mf = 6 then 32 else 16
  (List.range groups).foldl (fun (a : Nat × Bool) g =>
    if mfInt mf then
      let r := macI32 a.1 ((List.range 16).map fun j => elemI mf act (16 * g + j) * elemI mf wt (16 * g + j))
      (r.1, a.2 || r.2)
    else (macF32 a.1 ((List.range 16).map fun j => (elemF mf act (16 * g + j)).mul (elemF mf wt (16 * g + j))), a.2))
    (acc, false)

/-- A stream of an operand through one engine. -/
def State.stream1 (s : State) (e : Nat) (src : RowSrc) (x : BitVec 24) (mf : BitVec 3) (z : Bool) : State :=
  let acc0 := if z then clearCells s.tiles.acc (e * 32768) 32768 else s.tiles.acc
  let mode := if z ∨ vget s.tiles.mode e .none = .none then family mf else vget s.tiles.mode e .none
  let wts := (List.range 128).map fun n =>
    (List.range 512).zip (getBytes s.tiles.active (e * 65536 + n * 512) 512)
  let out := (List.range (shRows x)).flatMap fun m =>
    let act := engineRow x (s.srcRow src x m)
    wts.zipIdx.map fun (wt, n) => (accKey e m n, passElem mf act wt (cellGet acc0 (accKey e m n)).toNat)
  let s := { s with tiles := { s.tiles with
    acc := putCells acc0 (out.map fun (k, r) => (k, BitVec.ofNat 32 r.1)), mode := vset s.tiles.mode e mode } }
  if out.any fun (_, r) => r.2 then s.orLate 0 (BitVec.ofNat 16 (2 ^ e)) else s

/-- MMS and its forms. -/
def State.streamOp (s : State) (pair : Bool) (y : Nat) (src : RowSrc) (x : BitVec 24) (mf : BitVec 3) (z : Bool) : State :=
  let s := s.stream1 y src x mf z
  if pair then s.stream1 (y + 1) src x mf z else s

/-- MZERO and MZEROP (R251). -/
def State.zeroAcc (s : State) (pair : Bool) (y : Nat) : State :=
  { s with tiles := { s.tiles with
    acc := clearCells s.tiles.acc (y * 32768) (if pair then 65536 else 32768),
    mode := if pair then vset (vset s.tiles.mode y .none) (y + 1) .none else vset s.tiles.mode y .none } }

/-! ## Drains (R252, R253) -/

/-- The f32 word at an address. -/
def State.word32 (s : State) (a : Nat) : Nat := leNat (s.load a 4)

/-- The activation entry of a value: 0 for NaN, else floor((x + 8) · 4) clamped to 0 … 63 (R253). -/
def actIndex (v : FVal) : Nat :=
  match v with
  | .nan => 0
  | .inf neg => if neg then 0 else 63
  | .zero _ => 32
  | .fin neg m e =>
    let num : Int := (if neg then -(m : Int) else m) * 4 * 2 ^ e.toNat
    (max 0 (min 63 (num / 2 ^ (-e).toNat + 32))).toNat

/-- An accumulator element before its conversion: an exact integer, or an f32 code; with flags (epi of R253). -/
def State.epi (s : State) (mode : AccMode) (a : W32) (n : Nat) (ctl : BitVec 9) (blk : Nat) : (Int ⊕ Nat) × BitVec 6 :=
  let scl := ctl.getLsbD 3
  let bias := ctl.getLsbD 4
  let act := ctl.getLsbD 5
  if mode = .int ∧ !(scl || bias || act) then (.inl a.toInt, 0)
  else
    let x0 : Nat × BitVec 6 :=
      if mode = .int then f32.pack (.ofZ a.toInt) .rne 0 else if mode = .float then (a.toNat, 0) else (0, 0)
    let x1 : Nat × BitVec 6 :=
      if scl || bias then
        let sc := if scl then s.word32 (blk + 4 * n) else 0x3F800000
        if bias then f32.fmaB x0.1 sc (s.word32 (blk + 1024 + 4 * n)) false else f32.mulB x0.1 sc
      else (x0.1, 0)
    let x2 : Nat × BitVec 6 :=
      if act then
        let i := actIndex (f32.decode x1.1)
        f32.fmaB (s.word32 (blk + 2048 + 8 * i)) x1.1 (s.word32 (blk + 2052 + 8 * i)) false
      else (x1.1, 0)
    (.inr x2.1, x0.2 ||| x1.2 ||| x2.2)

/-- The value that a conversion starts from. -/
def epiVal : Int ⊕ Nat → FVal
  | .inl z => .ofZ z
  | .inr x => f32.decode x

/-- to_fmt of R253 for every format but q4: the code and its flags. -/
def toFmt (f : Nat) (v : Int ⊕ Nat) (mode : Rnd) (nv : Bool) (u : Nat) : Nat × BitVec 6 :=
  let int (w : Nat) (sg : Bool) : Nat × BitVec 6 := match v with
    | .inl z => clampInt w sg z
    | .inr x => cvtInt (f32.decode x) w sg mode u
  match f with
  | 0x0 => match v with
    | .inl z => f32.pack (.ofZ z) mode u
    | .inr x => (x, 0)
  | 0x1 => int 32 true
  | 0x2 => int 32 false
  | 0x3 => bf16.pack (epiVal v) mode u
  | 0x4 => f16.pack (epiVal v) mode u
  | 0x5 => int 16 true
  | 0x6 => int 16 false
  | 0x7 => e4m3.pack8 (epiVal v) mode nv u
  | 0x8 => e5m2.pack8 (epiVal v) mode nv u
  | 0x9 => int 8 true
  | _ => int 8 false

/-- Lists of 32. -/
def blocks32 {α : Type} (n : Nat) (l : List α) : List (List α) :=
  (List.range n).map fun b => (l.drop (32 * b)).take 32

/-- A row of results as image bytes with its flags: element after element, or the codes and then the scales of q4. -/
def rowOut (f : Nat) (ctl : BitVec 9) (vs : List ((Int ⊕ Nat) × Nat)) : List Byte × BitVec 6 :=
  let mode := Rnd.of (ctl.extractLsb' 0 2)
  if f = 0xB then
    let bs := (blocks32 (vs.length / 32) vs).map fun b =>
      encodeBlock (b.map fun v => epiVal v.1) (ctl.extractLsb' 7 2).toNat mode (b.map (·.2))
    (codeBytes (bs.flatMap (·.1)) ++ bs.map (fun b => BitVec.ofNat 8 b.2.1), bs.foldl (fun fl b => fl ||| b.2.2) 0)
  else
    let rs := vs.map fun v => toFmt f v.1 mode (ctl.getLsbD 2) v.2
    (rs.flatMap fun r => leBytes (fmtWidth f) r.1, rs.foldl (fun fl r => fl ||| r.2) 0)

/-- The draws of a drain: `n` of them from a seed in mode sr, none otherwise. -/
def drainDraws (ctl : BitVec 9) (n : Nat) (seed : W64) : Array Nat :=
  if ctl.extractLsb' 0 2 = 2#2 then (drawList n seed).1.toArray else #[]

/-- Destination of a drain. -/
def State.drainOp (s : State) (pair tr : Bool) (y : Nat) (t : Nat) (mem : Option Nat) (x : BitVec 24) (ctl : BitVec 9)
    (blk : Nat) (seed : W64) : State :=
  let rows := shRows x
  let cols := shElems x
  let us := drainDraws ctl (rows * cols) seed
  -- accumulator element of destination element (r, c), and its place in the order of draws
  let accOf (r c : Nat) : Nat × Nat := if tr then (c, r) else (r, c)
  let engine (n : Nat) : Nat := if pair && decide (128 ≤ n) then y + 1 else y
  let key (r c : Nat) : Nat := let (m, n) := accOf r c; accKey (engine n) m (n % 128)
  let out : List (List Byte × BitVec 6) := (List.range rows).map fun r =>
    let es := (List.range cols).map fun c =>
      let (m, n) := accOf r c
      let e := s.epi (vget s.tiles.mode (engine n) .none) (cellGet s.tiles.acc (key r c)) n ctl blk
      (e, us.getD (if tr then m * rows + n else m * cols + n) 0)
    let b := rowOut (shFmt x) ctl (es.map fun (e, u) => (e.1, u))
    (b.1, es.foldl (fun fl e => fl ||| e.1.2) b.2)
  let flags := out.foldl (fun fl o => fl ||| o.2) (0 : BitVec 6)
  let zeros := (List.range rows).flatMap fun r => (List.range cols).map fun c => (key r c, 0#32)
  let s := if ctl.getLsbD 6 then { s with tiles.acc := putCells s.tiles.acc zeros } else s
  let bytes : List Byte := (out.map Prod.fst).flatten
  let cells := ((List.range rows).flatMap fun r => rowKeys t x r).zip bytes
  let s := match mem with
    | some a => s.storeEng a bytes
    | none => { s with tiles.bytes := putCells s.tiles.bytes cells }
  s.orLate flags 0

/-! ## Checks (R250, R253) -/

/-- The shape limits of a drain (R253). -/
def drainShapeOk (pair tr : Bool) (x : BitVec 24) : Bool :=
  if tr then decide (shRows x ≤ 128) && decide (shElems x ≤ 256)
  else decide (shElems x ≤ if pair then 256 else 128)

/-- A stream is accepted by an engine: MF is the active latch, and without z the accumulator is of its family (R250). -/
def State.streamOk (s : State) (e : Nat) (mf : BitVec 3) (z latched : Bool) : Bool :=
  (latched || decide (vget s.tiles.activeFmt e none = some mf)) &&
  (z || decide (vget s.tiles.mode e .none = .none) || decide (vget s.tiles.mode e .none = family mf))

/-- A direct matrix command passes the checks of R250. -/
def State.matrixOk (s : State) (op : MatOp) (x : BitVec 24) : Bool :=
  match op with
  | .load pair _ _ _ mf => decide (shFmt x = mfFmt mf) && decide (shRows x ≤ if pair then 256 else 128)
  | .activate _ _ => true
  | .stream pair y _ _ mf z =>
    decide (shFmt x = mfFmt mf) && s.streamOk y.toNat mf z false && (!pair || s.streamOk (y.toNat + 1) mf z false)
  | .drain pair tr _ _ _ _ _ => drainShapeOk pair tr x
  | .zero _ _ => true

/-- Source of a command's image. -/
def rowSrc (t : BitVec 4) (mem : Option Nat) : RowSrc :=
  match mem with
  | some a => .mem a
  | none => .tile t.toNat

/-- A direct matrix command takes effect (R248 to R253). -/
def State.doMatrix (s : State) (c : MCmd) : State :=
  match c.op with
  | .load pair y t mem mf => s.weightLoad pair y.toNat (rowSrc t mem) c.shape mf
  | .activate pair y => s.activate pair y.toNat
  | .stream pair y t mem mf z => s.streamOp pair y.toNat (rowSrc t mem) c.shape mf z
  | .drain pair tr y t mem ctl blk => s.drainOp pair tr y.toNat t.toNat mem c.shape ctl blk c.seed
  | .zero pair y => s.zeroAcc pair y.toNat

/-- Engine and pair of a direct command. -/
def MatOp.engine : MatOp → Bool × Nat
  | .load p y _ _ _ => (p, y.toNat)
  | .activate p y => (p, y.toNat)
  | .stream p y _ _ _ _ => (p, y.toNat)
  | .drain p _ y _ _ _ _ => (p, y.toNat)
  | .zero p y => (p, y.toNat)

/-! ## Tasks (R254 to R256, R280) -/

/-- Private draw state of a task (R68, item 5). -/
def taskSeed (num : Nat) (srstate : W64) : W64 :=
  let x := srstate ^^^ (BitVec.ofNat 64 num * 0x9E3779B97F4A7C15#64)
  if x = 0 then 0x9E3779B97F4A7C15#64 else x

/-- A task on row-queue conditions streams 128 rows of ROWSZ bytes by its shape tile (R280). Another shape is a shape error of
the dispatch (DESIGN CHOICE, log 49). -/
def State.rowShapeOk (s : State) (t : Task) : Bool :=
  match t.taken with
  | (q, _) :: _ =>
    !t.am || (decide (shRows t.ashape = 128) && decide (imageBytes t.ashape false = 128 * (vget s.eng.rows q RowQueue.clear).rowsz))
  | [] => true

/-- The format and shape checks of a task, made at dispatch (R250, R256). -/
def State.taskOk (s : State) (t : Task) (y : Nat) : Bool :=
  let pair := decide (t.ecls = 1)
  let eng (e : Nat) : Bool := s.streamOk e t.mf t.z (!t.wk)
  (t.wk || (decide (shFmt t.wshape = mfFmt t.mf) && decide (shRows t.wshape ≤ if pair then 256 else 128))) &&
  decide (shFmt t.ashape = mfFmt t.mf) && eng y && (!pair || eng (y + 1)) && s.rowShapeOk t &&
  (!t.dr || drainShapeOk pair t.dtr t.dshape)

/-- The passes of a task from pass `p` on (R256). -/
def State.taskPasses (s : State) (t : Task) (y : Nat) (aaddr : Nat) : Nat → Nat → State
  | 0, _ => s
  | f + 1, p =>
    let pair := decide (t.ecls = 1)
    let s := if t.wk then s
      else (s.weightLoad pair y (if t.wm then .mem (t.waddr + 32 * t.wstep * p) else .tile t.wt.toNat) t.wshape t.mf).activate pair y
    let s := s.streamOp pair y (if t.am then .mem (aaddr + 32 * t.astep * p) else .tile t.at_.toNat) t.ashape t.mf (t.z && decide (p = 0))
    s.taskPasses t y aaddr f (p + 1)

/-- Where a task reads its activations: the rows of its first row-queue condition, or AADDR (R280). -/
def State.taskActs (s : State) (t : Task) : Nat :=
  match t.taken with
  | (q, slot) :: _ => let r := vget s.eng.rows q RowQueue.clear; if t.am then r.base + r.rowsz * slot else t.aaddr
  | [] => t.aaddr

/-- The window-fault cause of a tile image (R243): 0x2 when a byte lies in a hole of the die-local map, 0x6 otherwise. -/
def imageCause (a n : Nat) : Nat :=
  let hole (lo hi : Nat) : Bool := decide (a < hi) && decide (lo < a + n)
  if hole 0x18080000 0x1C000000 || hole 0x20000000 0x100000000 then 0x2 else 0x6

/-- The window-fault cause of a range. -/
def rangeCause (a n : Nat) : Nat :=
  match region a, region (a + n - 1) with
  | .high, _ => 0x3
  | .hole, _ => 0x2
  | _, .hole => 0x2
  | _, _ => 0x6

/-- The fault of an image of a task, for writing as named: address, cause, write. -/
def imageOutside (a n : Nat) (wr : Bool) : Option (Nat × Nat × Bool) :=
  if inLocal a n then none else some (a, imageCause a n, wr)

/-- The lookups of the addresses of a task's record, before anything of it runs (R20, R256): of each pass the weights and the
activations, then the drain's image and its epilogue block. The first that fails: address, cause, write. -/
def Task.outside (t : Task) (aaddr : Nat) : Option (Nat × Nat × Bool) :=
  let pass (p : Nat) : Option (Nat × Nat × Bool) :=
    match (if t.wk = false ∧ t.wm = true then imageOutside (t.waddr + 32 * t.wstep * p) (imageBytes t.wshape false) false else none) with
    | some x => some x
    | none => if t.am then imageOutside (aaddr + 32 * t.astep * p) (imageBytes t.ashape false) false else none
  match (List.range (t.np + 1)).findSome? pass with
  | some x => some x
  | none =>
    if !t.dr then none
    else match (if t.dm then imageOutside t.daddr (imageBytes t.dshape false) true else none) with
      | some x => some x
      | none => if t.epc.toNat / 8 % 8 ≠ 0 ∧ !inWs t.epb 2560 then some (t.epb, rangeCause t.epb 2560, false) else none

/-- A dispatched task runs whole on its engine: the state it leaves and its status (R162, R256). -/
def State.runTask (s : State) (t : Task) (y : Nat) (seed : W64) : State × Byte :=
  let aaddr := s.taskActs t
  if !s.taskOk t y then (s, 0x16)
  else
    match t.outside aaddr with
    | some (a, cause, wr) => (s.windowFault a cause 0xB none wr, 0x10)
    | none =>
      let s := s.taskPasses t y aaddr (t.np + 1) 0
      if !t.dr then (s, 0x00)
      else
        (s.drainOp (decide (t.ecls = 1)) t.dtr y t.dt.toNat (if t.dm then some t.daddr else none) t.dshape t.epc t.epb seed,
         0x00)

end Sys2Proof.Machine
end

