-- ==== Sys2Proof/Machine/Tile.lean ====
section
/-! DEFINITION. Meanings of class 0xA: tile moves, tile loads and stores, direct matrix commands, and posting a task
(R239 to R258). -/

namespace Sys2Proof.Machine

/-- A slot that stalls its bundle while `stall` holds, before its guard is read (R159, R218). -/
def State.stallSlot (s : State) (stall : Bool) (r : Host.Outcome State Fault Refusal) : Host.Outcome State Fault Refusal :=
  if stall then .next { s with stream.held := true } else r

/-- TSHAPE of a tile. -/
def State.tshapeOf (s : State) (x : BitVec 4) : BitVec 24 := vget s.ctl.tshape x.toNat 0

/-- Address register named by a five-bit field whose bit 4 is zero (R241). -/
def State.areg (s : State) (v : BitVec 5) : Nat := (s.regs.ra (v.truncate 4)).toNat

/-! ## Tile moves (R91 to R94, R242) -/

/-- Row and column that a lane is paired with (R91). -/
def lanePlace (col : Bool) (line0 l : Nat) : Nat × Nat :=
  if col then (l % 256, line0 + l / 256) else (line0 + l / 256, l % 256)

/-- The element of a place lies within the shape. -/
def inShape (x : BitVec 24) (p : Nat × Nat) : Bool := decide (p.1 < shRows x) && decide (p.2 < shCols x)

/-- Key of the first byte of an element. -/
def elemKey (t : Nat) (x : BitVec 24) (p : Nat × Nat) : Nat := tileKey t (1024 * p.1 + fmtWidth (shFmt x) * p.2)

/-- A tile element as a 32-bit lane (R92). -/
def toLane (f x : Nat) : Nat :=
  match f with
  | 0x3 => widen bf16 x
  | 0x4 => widen f16 x
  | 0x5 => wrap 32 (toSigned 16 x)
  | 0x7 => widen e4m3 x
  | 0x8 => widen e5m2 x
  | 0x9 => wrap 32 (toSigned 8 x)
  | _ => x

/-- A 32-bit lane as a tile element, with its flags (R92). -/
def fromLane (f x : Nat) (mode : Rnd) (nv : Bool) (u : Nat) : Nat × BitVec 6 :=
  match f with
  | 0x3 => bf16.pack (f32.decode x) mode u
  | 0x4 => f16.pack (f32.decode x) mode u
  | 0x5 => clampInt 16 true (toSigned 32 x)
  | 0x6 => clampInt 16 false x
  | 0x7 => e4m3.pack8 (f32.decode x) mode nv u
  | 0x8 => e5m2.pack8 (f32.decode x) mode nv u
  | 0x9 => clampInt 8 true (toSigned 32 x)
  | 0xA => clampInt 8 false x
  | _ => (x, 0)

/-- The tile format is floating. -/
def fmtFloat (f : Nat) : Bool := f == 0 || f == 3 || f == 4 || f == 7 || f == 8

/-- The illegal-slot conditions of a tile move (R242): the tile is q4, the widths differ, a mode on an integer tile or the
.nan variant on a tile that is not FP8. -/
def moveFault (x : BitVec 24) (width : Nat) (m : BitVec 2) (nv : Bool) : Option SFault :=
  if shFmt x = 0xB ∨ fmtWidth (shFmt x) ≠ width ∨ (m ≠ 0 ∧ fmtFloat (shFmt x) = false) ∨
      (nv = true ∧ shFmt x ≠ 7 ∧ shFmt x ≠ 8) then some (.illegal 0xA) else none

/-- The register s Y of a tile move; the lines wrap within 256 only in s Y itself (R242). -/
def State.line0 (s : State) (y : BitVec 4) : Nat := (s.regs.rs (y.zeroExtend 5)).toNat % 256

/-- A tile-to-vector move (R91 to R94): lands after 7 cycles. What does not fit TSHAPE is a fault that depends on a register's
value, so a guarded-off move raises none (R186, R242; DEDUCED, log 17). -/
def State.tileRead (s : State) (col : Bool) (g x y : BitVec 4) (v : BitVec 5) (k : BitVec 3) (m : BitVec 2) :
    Host.Outcome State Fault Refusal :=
  let sh := s.tshapeOf x
  s.slot g (moveFault sh (if m = 0 then 4 else if m = 1 then 2 else 1) 0 false) fun s =>
    s.put 7 (.v v (s.regs.rk k) (Vector.ofFn fun j =>
      let p := lanePlace col (s.line0 y) j.val
      if inShape sh p then
        BitVec.ofNat 32 (toLane (shFmt sh) (leNat (getBytes s.tiles.bytes (elemKey x.toNat sh p) (fmtWidth (shFmt sh)))))
      else 0))

/-- A vector-to-tile move (R91 to R94): lands after 7 cycles, with the flags of the lanes that write. -/
def State.tileWrite (s : State) (col : Bool) (width : Nat) (nv : Bool) (g x y : BitVec 4) (v : BitVec 5) (k : BitVec 3)
    (m : BitVec 2) : Host.Outcome State Fault Refusal :=
  let sh := s.tshapeOf x
  s.slot g (moveFault sh width m nv) fun s =>
    let r := s.takeDraws (Rnd.of m) 1024
    let ls := (List.range 1024).filter fun l => (s.regs.rk k).getLsbD l && inShape sh (lanePlace col (s.line0 y) l)
    let es := ls.map fun l => (elemKey x.toNat sh (lanePlace col (s.line0 y) l),
      fromLane (shFmt sh) (lane (s.regs.rv v) l).toNat (Rnd.of m) nv (r.1.getD l 0))
    let cells := es.flatMap fun e => (leBytes (fmtWidth (shFmt sh)) e.2.1).zipIdx.map fun b => (e.1 + b.2, b.1)
    r.2.push 7 (.tile cells) (es.foldl (fun fl e => fl ||| e.2.2) 0) 0

/-- trdr: rows row0 to row0 + 3 of t X into v V (R242). -/
def execTrdr (g x y : BitVec 4) (v : BitVec 5) (k : BitVec 3) (m : BitVec 2) (s : State) :
    Host.Outcome State Fault Refusal := s.tileRead false g x y v k m

/-- trdc: columns col0 to col0 + 3 of t X into v V (R242). -/
def execTrdc (g x y : BitVec 4) (v : BitVec 5) (k : BitVec 3) (m : BitVec 2) (s : State) :
    Host.Outcome State Fault Refusal := s.tileRead true g x y v k m

/-- twrr, 32-bit (R242). -/
def execTwrr32 (g x y : BitVec 4) (v : BitVec 5) (k : BitVec 3) (s : State) : Host.Outcome State Fault Refusal :=
  s.tileWrite false 4 false g x y v k 0

/-- twrc, 32-bit (R242). -/
def execTwrc32 (g x y : BitVec 4) (v : BitVec 5) (k : BitVec 3) (s : State) : Host.Outcome State Fault Refusal :=
  s.tileWrite true 4 false g x y v k 0

/-- twrr, 16-bit (R242). -/
def execTwrr16 (g x y : BitVec 4) (v : BitVec 5) (k : BitVec 3) (m : BitVec 2) (s : State) :
    Host.Outcome State Fault Refusal := s.tileWrite false 2 false g x y v k m

/-- twrc, 16-bit (R242). -/
def execTwrc16 (g x y : BitVec 4) (v : BitVec 5) (k : BitVec 3) (m : BitVec 2) (s : State) :
    Host.Outcome State Fault Refusal := s.tileWrite true 2 false g x y v k m

/-- twrr, 8-bit (R242). -/
def execTwrr8 (g x y : BitVec 4) (v : BitVec 5) (k : BitVec 3) (m : BitVec 2) (s : State) :
    Host.Outcome State Fault Refusal := s.tileWrite false 1 false g x y v k m

/-- twrc, 8-bit (R242). -/
def execTwrc8 (g x y : BitVec 4) (v : BitVec 5) (k : BitVec 3) (m : BitVec 2) (s : State) :
    Host.Outcome State Fault Refusal := s.tileWrite true 1 false g x y v k m

/-- twrr, 8-bit, .nan (R242). -/
def execTwrr8Nan (g x y : BitVec 4) (v : BitVec 5) (k : BitVec 3) (m : BitVec 2) (s : State) :
    Host.Outcome State Fault Refusal := s.tileWrite false 1 true g x y v k m

/-- twrc, 8-bit, .nan (R242). -/
def execTwrc8Nan (g x y : BitVec 4) (v : BitVec 5) (k : BitVec 3) (m : BitVec 2) (s : State) :
    Host.Outcome State Fault Refusal := s.tileWrite true 1 true g x y v k m

/-- tshape: TSHAPE X := sV[23:0] at the end of the issue cycle (R240, R241). -/
def execTshape (g x : BitVec 4) (v : BitVec 5) (s : State) : Host.Outcome State Fault Refusal :=
  let y : BitVec 24 := (s.regs.rs v).truncate 24
  s.slot g (if tshapeOk y.toNat then none else some (.illegal 0xA)) fun s => s.put 1 (.tshape x y)

/-! ## Tile loads, stores, copies and zeroing (R243, R244) -/

/-- A tile operation stalls while 64 are outstanding (R163). -/
def State.tileFull (s : State) : Bool := decide (64 ≤ s.stream.octo)

/-- A tile operation issues: OCTO rises, and it takes its place in issue order (R244, R245). -/
def State.startTileOp (s : State) (kind : TileKind) (shape : BitVec 24) : State :=
  { s with stream := { s.stream with
    tileOps := s.stream.tileOps ++ [{ kind := kind, shape := shape, seq := s.stream.seq }], seq := s.stream.seq + 1 } }

/-- The window fault of a range that must lie wholly in the working store or wholly in shared SRAM (R220, R243). -/
def rangeFault (agent a n : Nat) (write : Bool) : Option SFault :=
  if inLocal a n then none else some (.window a (rangeCause a n) agent none write)

/-- The window fault of a tile image that must lie wholly in the working store or wholly in shared SRAM (R243). -/
def imageFault (agent a n : Nat) (write : Bool) : Option SFault :=
  if inLocal a n then none else some (.window a (imageCause a n) agent none write)

/-- A tile load or store of the image at a V (R243). -/
def State.tileMem (s : State) (g x : BitVec 4) (v : BitVec 5) (tr write : Bool) (kind : Nat → TileKind) :
    Host.Outcome State Fault Refusal :=
  let sh := s.tshapeOf x
  let ea := s.areg v / 32 * 32
  let fault := if tr = true ∧ shFmt sh = 0xB then some (.illegal 0xA) else imageFault 0x0 ea (imageBytes sh tr) write
  s.stallSlot s.tileFull (s.slot g fault fun s => s.startTileOp (kind ea) sh)

/-- tld: the image at a V into t X (R243). -/
def execTld (g x : BitVec 4) (v : BitVec 5) (s : State) : Host.Outcome State Fault Refusal :=
  s.tileMem g x v false false fun a => .load x a false

/-- tst: t X into the image at a V (R243). -/
def execTst (g x : BitVec 4) (v : BitVec 5) (s : State) : Host.Outcome State Fault Refusal :=
  s.tileMem g x v false true fun a => .store x a false

/-- tldt: the transposed image at a V into t X (R243). -/
def execTldt (g x : BitVec 4) (v : BitVec 5) (s : State) : Host.Outcome State Fault Refusal :=
  s.tileMem g x v true false fun a => .load x a true

/-- tstt: t X into the transposed image at a V (R243). -/
def execTstt (g x : BitVec 4) (v : BitVec 5) (s : State) : Host.Outcome State Fault Refusal :=
  s.tileMem g x v true true fun a => .store x a true

/-- tcpy: the elements of t X within TSHAPE X to t Y (R244). -/
def execTcpy (g x y : BitVec 4) (s : State) : Host.Outcome State Fault Refusal :=
  s.stallSlot s.tileFull (s.slot g none fun s => s.startTileOp (.copy x y) (s.tshapeOf x))

/-- tzero: all of t X becomes zero (R244). -/
def execTzero (g x : BitVec 4) (s : State) : Host.Outcome State Fault Refusal :=
  s.stallSlot s.tileFull (s.slot g none fun s => s.startTileOp (.zero x) (s.tshapeOf x))

/-! ## Direct matrix commands (R247 to R253) -/

/-- The direct commands queued at an engine. -/
def State.mqueue (s : State) (e : Nat) : List MCmd := vget s.eng.matrix e []

/-- The engine, or an engine of the pair, has no entry free (R163, R247). -/
def State.matrixFull (s : State) (pair : Bool) (y : BitVec 4) : Bool :=
  decide (16 ≤ (s.mqueue y.toNat).length) || (pair && decide (16 ≤ (s.mqueue (y.toNat + 1)).length))

/-- The level 1 policy of CONTPOL (R169). -/
def Ctl.pol1 (c : Ctl) : BitVec 2 := c.contpol.extractLsb' 0 2

/-- A direct command takes the next TLM number and a place in its engines' queues (R247). -/
def State.postMatrix (s : State) (op : MatOp) (shape : BitVec 24) (seed : W64) : State :=
  let r := s.takeNumber 8
  let c : MCmd := { num := r.2, pol := s.ctl.pol1, op := op, shape := shape, seed := seed, started := false, tries := 0 }
  let y := op.engine.2
  let q := vset r.1.eng.matrix y (s.mqueue y ++ [c])
  { r.1 with eng.matrix := if op.engine.1 then vset q (y + 1) (s.mqueue (y + 1) ++ [c]) else q }

/-- A direct matrix slot. -/
def State.matrixSlot (s : State) (g : BitVec 4) (pair : Bool) (y : BitVec 4) (fault : Option SFault) (op : MatOp)
    (shape : BitVec 24) : Host.Outcome State Fault Refusal :=
  s.stallSlot (s.matrixFull pair y) (s.slot g fault fun s => s.postMatrix op shape 0)

/-- A weight load or stream: from the tile, or from the image at a V with bits [4:0] cleared (R243, R248, R249). -/
def State.imageSlot (s : State) (g x : BitVec 4) (pair : Bool) (y : BitVec 4) (v : Option (BitVec 5))
    (op : Option Nat → MatOp) : Host.Outcome State Fault Refusal :=
  let sh := s.tshapeOf x
  match v with
  | none => s.matrixSlot g pair y none (op none) sh
  | some v =>
    let a := s.areg v / 32 * 32
    s.matrixSlot g pair y (imageFault 0xB a (imageBytes sh false) false) (op (some a)) sh

/-- mwl (R248). -/
def execMwl (g x y : BitVec 4) (f : BitVec 3) (s : State) : Host.Outcome State Fault Refusal :=
  s.imageSlot g x false y none fun m => .load false y x m f

/-- mwlm (R248). -/
def execMwlm (g x y : BitVec 4) (v : BitVec 5) (f : BitVec 3) (s : State) : Host.Outcome State Fault Refusal :=
  s.imageSlot g x false y (some v) fun m => .load false y x m f

/-- mwlp (R248). -/
def execMwlp (g x y : BitVec 4) (f : BitVec 3) (s : State) : Host.Outcome State Fault Refusal :=
  s.imageSlot g x true y none fun m => .load true y x m f

/-- mwlpm (R248). -/
def execMwlpm (g x y : BitVec 4) (v : BitVec 5) (f : BitVec 3) (s : State) : Host.Outcome State Fault Refusal :=
  s.imageSlot g x true y (some v) fun m => .load true y x m f

/-- mwa (R248). -/
def execMwa (g y : BitVec 4) (s : State) : Host.Outcome State Fault Refusal :=
  s.matrixSlot g false y none (.activate false y) 0

/-- mwap (R248). -/
def execMwap (g y : BitVec 4) (s : State) : Host.Outcome State Fault Refusal :=
  s.matrixSlot g true y none (.activate true y) 0

/-- mms (R249). -/
def execMms (g x y : BitVec 4) (f : BitVec 3) (z : BitVec 1) (s : State) : Host.Outcome State Fault Refusal :=
  s.imageSlot g x false y none fun m => .stream false y x m f (z == 1)

/-- mmsm (R249). -/
def execMmsm (g x y : BitVec 4) (v : BitVec 5) (f : BitVec 3) (z : BitVec 1) (s : State) :
    Host.Outcome State Fault Refusal :=
  s.imageSlot g x false y (some v) fun m => .stream false y x m f (z == 1)

/-- mmsp (R249). -/
def execMmsp (g x y : BitVec 4) (f : BitVec 3) (z : BitVec 1) (s : State) : Host.Outcome State Fault Refusal :=
  s.imageSlot g x true y none fun m => .stream true y x m f (z == 1)

/-- mmspm (R249). -/
def execMmspm (g x y : BitVec 4) (v : BitVec 5) (f : BitVec 3) (z : BitVec 1) (s : State) :
    Host.Outcome State Fault Refusal :=
  s.imageSlot g x true y (some v) fun m => .stream true y x m f (z == 1)

/-- mzero (R251). -/
def execMzero (g y : BitVec 4) (s : State) : Host.Outcome State Fault Refusal :=
  s.matrixSlot g false y none (.zero false y) 0

/-- mzerop (R251). -/
def execMzerop (g y : BitVec 4) (s : State) : Host.Outcome State Fault Refusal :=
  s.matrixSlot g true y none (.zero true y) 0

/-- What the staging registers of a drain raise (R252): a reserved bit, MODE 0b11, an epilogue block outside the working
store, an image outside die-local memory. -/
def drainFault (sh : BitVec 24) (ctl blk : Nat) (mem : Option Nat) : Option SFault :=
  if 512 ≤ ctl ∨ ctl % 4 = 3 then some (.illegal 0xA)
  else if ctl / 8 % 8 ≠ 0 ∧ (inWs blk 2560 && blk % 32 == 0) = false then
    some (.window blk (rangeCause blk 2560) 0xB none false)
  else match mem with
    | none => none
    | some a => imageFault 0xB a (imageBytes sh false) true

/-- The elements that a drain produces (R253). -/
def drainCount (sh : BitVec 24) : Nat := shRows sh * shElems sh

/-- A drain slot (R252, R253): staging registers and draws at issue. -/
def State.drainSlot (s : State) (g x y : BitVec 4) (v : BitVec 5) (pair tr toMem : Bool) : Host.Outcome State Fault Refusal :=
  let sh := s.tshapeOf x
  let ctl := (s.regs.re v.toNat).toNat
  let blk := (s.regs.re (v.toNat + 1)).toNat
  let mem := if toMem then some ((s.regs.re (v.toNat + 2)).toNat / 32 * 32) else none
  s.stallSlot (s.matrixFull pair y) (s.slot g (drainFault sh ctl blk mem) fun s =>
    let t := s.postMatrix (.drain pair tr y x mem (BitVec.ofNat 9 ctl) blk) sh s.ctl.srstate
    if ctl % 4 = 2 then { t with ctl.srstate := (drawList (drainCount sh) s.ctl.srstate).2 } else t)

/-- mdr (R253). -/
def execMdr (g x y : BitVec 4) (v : BitVec 5) (s : State) : Host.Outcome State Fault Refusal :=
  s.drainSlot g x y v false false false

/-- mdrm (R253). -/
def execMdrm (g x y : BitVec 4) (v : BitVec 5) (s : State) : Host.Outcome State Fault Refusal :=
  s.drainSlot g x y v false false true

/-- mdrp (R253). -/
def execMdrp (g x y : BitVec 4) (v : BitVec 5) (s : State) : Host.Outcome State Fault Refusal :=
  s.drainSlot g x y v true false false

/-- mdrpm (R253). -/
def execMdrpm (g x y : BitVec 4) (v : BitVec 5) (s : State) : Host.Outcome State Fault Refusal :=
  s.drainSlot g x y v true false true

/-- mdrt (R253). -/
def execMdrt (g x y : BitVec 4) (v : BitVec 5) (s : State) : Host.Outcome State Fault Refusal :=
  s.drainSlot g x y v false true false

/-! ## Posting a task (R164, R165, R254, R255) -/

/-- A condition word (R164): `none` for a reserved code, a reserved bit, or TLM at or above the task's own number. -/
def condOf (num : Nat) (w : W64) : Option (List Cond) :=
  let x := w.toNat
  let ctx := x / 2 ^ 56 % 16
  let n := x % 2 ^ 56
  match x / 2 ^ 60 with
  | 0 => if x = 0 then some [] else none
  | 1 => if 0xA < ctx ∨ (ctx = 8 ∧ num ≤ n) then none else some [.time ctx n]
  | 2 => if ctx ≠ 0 ∨ 256 ≤ n then none else some [.rows n]
  | _ => none

/-- All condition words. -/
def condsOf (num : Nat) : List W64 → Option (List Cond)
  | [] => some []
  | w :: r => match condOf num w, condsOf num r with
    | some a, some b => some (a ++ b)
    | _, _ => none

/-- A task record by its words (R254); the shapes of tiles WT, AT and DT are captured at post (R255). -/
def taskOf (ws : List W64) (num : Nat) (pol : BitVec 2) (srstate : W64) (shapes : Nat → BitVec 24) (conds : List Cond) :
    Task :=
  let w0 := ws.getD 0 0
  let w1 := (ws.getD 1 0).toNat
  let w2 := (ws.getD 2 0).toNat
  let w3 := (ws.getD 3 0).toNat
  let wt : BitVec 4 := w0.extractLsb' 20 4
  let at_ : BitVec 4 := w0.extractLsb' 24 4
  let dt : BitVec 4 := w0.extractLsb' 28 4
  { num := num, pol := pol, chain := false, ecls := w0.extractLsb' 4 2, eng := w0.extractLsb' 6 4,
    mf := w0.extractLsb' 10 3, z := w0.getLsbD 13, wk := w0.getLsbD 14, wm := w0.getLsbD 15, am := w0.getLsbD 16,
    dr := w0.getLsbD 17, dm := w0.getLsbD 18, dtr := w0.getLsbD 19, wt := wt, at_ := at_, dt := dt,
    np := (w0.extractLsb' 32 4).toNat, waddr := w1 % 2 ^ 32, aaddr := w1 / 2 ^ 32, daddr := w2 % 2 ^ 32,
    wstep := w2 / 2 ^ 32 % 2 ^ 16, astep := w2 / 2 ^ 48, epb := w3 % 2 ^ 32, epc := BitVec.ofNat 9 (w3 / 2 ^ 32),
    wshape := shapes wt.toNat, ashape := shapes at_.toNat, dshape := shapes dt.toNat, conds := conds,
    seed := taskSeed num srstate, passes := 0, hold := none, runsOn := none, taken := [], tries := 0 }

/-- A task streams the rows of a row queue, and ignores AADDR (R280). -/
def Task.onRows (t : Task) : Bool := t.conds.any fun c => match c with
  | .rows _ => true
  | .time _ _ => false

/-- The rules of R255 on a record, its condition words apart. Only the addresses that the task uses must be aligned. -/
def taskRecordOk (ws : List W64) (t : Task) : Bool :=
  let w0 := ws.getD 0 0
  let w3 := ws.getD 3 0
  (w0.extractLsb' 0 4 == 1#4) && (t.ecls != 3#2) && (t.mf != 7#3) && (w0.extractLsb' 36 28 == 0#28) &&
  (w3.extractLsb' 41 23 == 0#23) && (t.epc.extractLsb' 0 2 != 3#2) && (t.eng == 0#4 || t.ecls == 2#2) &&
  (!t.wk || (t.ecls == 2#2 && t.np == 0)) && (t.np == 0 || (t.wm && t.am)) && (!t.dtr || t.ecls != 1#2) &&
  (!t.wm || t.wk || t.waddr % 32 == 0) && (!t.am || t.onRows || t.aaddr % 32 == 0) && (!(t.dr && t.dm) || t.daddr % 32 == 0) &&
  (!(t.dr && t.epc.extractLsb' 3 3 != 0#3) || t.epb % 32 == 0)

/-- A task enters the dependency table, or completes at once: cancelled in a killed context (R170), with record fault
when its record is bad (R164, R255). Nothing is run again there: under level 1 retry that fault is passed up at once (R170;
DESIGN CHOICE, log 54). -/
def State.enterTask (s : State) (num : Nat) (pol : BitVec 2) (t : Option Task) : State :=
  if s.cancels 8 num then s.complete 8 num pol 0x17
  else match t with
    | none => s.complete 8 num pol 0x15
    | some t => { s with eng.tasks := s.eng.tasks ++ [t] }

/-- The control stream's entries of the dependency table are all taken (R165). -/
def State.tableFull (s : State) : Bool := decide (60 ≤ (s.eng.tasks.filter fun t => !t.chain).length)

/-- What a slot leaves for the end of its issue cycle. -/
def State.later (s : State) (i : Instr) (num : Nat) (vals : List W64) : State :=
  { s with stream.ask.late := s.stream.ask.late ++ [(i, num, vals)] }

/-- mpost: takes a TLM number and captures what the record does not hold; the record is read at the end of the issue
cycle, after the bundle's own stores (R138, R254, R255). -/
def execMpost (g : BitVec 4) (v : BitVec 5) (s : State) : Host.Outcome State Fault Refusal :=
  let a := s.areg v / 64 * 64
  s.stallSlot s.tableFull (s.slot g (rangeFault 0x0 a 64 false) fun s =>
    let r := s.takeNumber 8
    r.1.later (.mpost g v) r.2
      (BitVec.ofNat 64 a :: s.ctl.pol1.zeroExtend 64 :: s.ctl.srstate :: s.ctl.tshape.toList.map (·.zeroExtend 64)))

/-- The end of an MPOST's issue cycle: the record is read and the task enters the table (R138, R254). -/
def State.readTask (s : State) (num : Nat) (vals : List W64) : State :=
  let a := (vals.getD 0 0).toNat
  let pol : BitVec 2 := (vals.getD 1 0).truncate 2
  let ws := (List.range 8).map fun i => BitVec.ofNat 64 (leNat (s.load (a + 8 * i) 8))
  let shapes (i : Nat) : BitVec 24 := (vals.getD (3 + i) 0).truncate 24
  let t := match condsOf num (ws.drop 4) with
    | some cs =>
      let t := taskOf ws num pol (vals.getD 2 0) shapes cs
      if taskRecordOk ws t then some t else none
    | none => none
  s.enterTask num pol t

end Sys2Proof.Machine
end

