-- ==== Sys2Proof/Machine/Window.lean ====
section
/-! DEFINITION. The window table: its entries, the lookup of an engine's addresses, the check at WTLOCK, and where a
translated address leads (R16 to R29). -/

namespace Sys2Proof.Machine

/-- Both words of a window-table entry. -/
abbrev WEntry := W64 × W64

/-- V of an entry (R17). -/
def wV (e : WEntry) : Bool := e.1.getLsbD 16
/-- Window base (R17). -/
def wBase (e : WEntry) : Nat := e.1.toNat / 2 ^ 21 % 2 ^ 27 * 2 ^ 21
/-- Window size in bytes (R17). -/
def wSize (e : WEntry) : Nat := 2 ^ (e.1.toNat / 2 ^ 17 % 16 + 21)
/-- STATE: 0 resident, 1 absent, 2 discarded (R17). -/
def wState (e : WEntry) : Nat := e.1.toNat / 2 ^ 14 % 4
/-- SCOPE (R17). -/
def wScope (e : WEntry) : Nat := e.1.toNat / 2 ^ 12 % 4
/-- KIND: 0 local DRAM, 1 peer DRAM, 2 peer shared SRAM, 3 host memory, 4 paged pool (R17). -/
def wKind (e : WEntry) : Nat := e.1.toNat / 2 ^ 9 % 8
/-- WR (R17). -/
def wWr (e : WEntry) : Bool := e.1.getLsbD 8
/-- RD (R17). -/
def wRd (e : WEntry) : Bool := e.1.getLsbD 7
/-- COORD of a peer entry (R18). -/
def wCoord (e : WEntry) : BitVec 13 := e.2.extractLsb' 48 13
/-- TOFF, HPA or FRAME, in place (R18). -/
def wOff (e : WEntry) : Nat :=
  match wKind e with
  | 2 => e.2.toNat / 2 ^ 21 % 2 ^ 7 * 2 ^ 21
  | 3 => e.2.toNat / 2 ^ 21 % 2 ^ 31 * 2 ^ 21
  | _ => e.2.toNat / 2 ^ 21 % 2 ^ 15 * 2 ^ 21
/-- Pager region of a paged-pool entry (R18). -/
def wRegion (e : WEntry) : Nat := e.2.toNat / 2 ^ 56 % 128

/-- An address lies in the window of an entry in use. -/
def wHolds (e : WEntry) (a : Nat) : Bool := wV e && decide (wBase e ≤ a) && decide (a < wBase e + wSize e)

/-- Entry `i` of the table. -/
def State.wentry (s : State) (i : Nat) : WEntry := vget s.mem.wtab i (0, 0)

/-- The entry that holds an address (R20). -/
def State.lookup (s : State) (a : Nat) : Option Nat :=
  (s.mem.wtab.toList.zipIdx.find? fun x => wHolds x.1 a).map (·.2)

/-! ## Rights of an engine's range (R20, R21, R27, R30) -/

/-- The fault of a copy engine's range [a, a + n), for reading and writing as named. Its address is the range's lowest byte,
also where another byte of it fails, and the end of the window, cause 0x5, comes before the access right, cause 0x4 (DESIGN
CHOICE, log 52). -/
def State.copyFault (s : State) (agent a n : Nat) (rd wr : Bool) : Option SFault :=
  if inLocal a n then none
  else match region a with
    | .high => some (.window a 0x3 agent none wr)
    | .window =>
      match s.lookup a with
      | none => some (.window a 0x1 agent none wr)
      | some i =>
        let e := s.wentry i
        if !wHolds e (a + n - 1) then some (.window a 0x5 agent (some i) wr)
        else if (rd && !wRd e) || (wr && !wWr e) then some (.window a 0x4 agent (some i) wr)
        else none
    | _ => some (.window a (rangeCause a n) agent none wr)

/-- A peer entry within the die's load-store domain (R28). -/
def State.inDomain (s : State) (c : BitVec 13) : Bool := (c ^^^ s.ctl.diecoord) &&& ~~~s.ctl.lsdmask == 0

/-! ## Where a translated address leads (R18) -/

/-- A byte's place. -/
inductive Place where
  | loc (a : Nat)
  | dram (o : Nat)
  | peerDram (c : BitVec 13) (o : Nat)
  | peerSram (c : BitVec 13) (a : Nat)
  | host (h : Nat)
deriving DecidableEq, Repr

/-- The place of an address that passed its lookup (R18). -/
def State.place (s : State) (a : Nat) : Place :=
  if region a = .window then
    let e := s.wentry ((s.lookup a).getD 0)
    let o := wOff e + (a - wBase e)
    match wKind e with
    | 1 => .peerDram (wCoord e) o
    | 2 => .peerSram (wCoord e) o
    | 3 => .host o
    | _ => .dram o
  else .loc a

/-- The target that a flag must share with its transfer (R264): a die, or the host. A paged-pool entry is no flag's
target. -/
def State.flagTarget (s : State) (a : Nat) : Option (Option (BitVec 13)) :=
  if region a = .window ∧ wKind (s.wentry ((s.lookup a).getD 0)) = 4 then none
  else match s.place a with
    | .loc _ => some (some s.ctl.diecoord)
    | .dram _ => some (some s.ctl.diecoord)
    | .peerDram c _ => some (some c)
    | .peerSram c _ => some (some c)
    | .host _ => some none

/-- The target of a destination. -/
def State.destTarget (s : State) (a : Nat) : Option (BitVec 13) :=
  match s.place a with
  | .loc _ => some s.ctl.diecoord
  | .dram _ => some s.ctl.diecoord
  | .peerDram c _ => some c
  | .peerSram c _ => some c
  | .host _ => none

/-- The energy rate of a copy's side, in nJ per unit (R312). -/
def State.sideRate (s : State) (a : Nat) : Nat :=
  if region a = .window then
    match wKind (s.wentry ((s.lookup a).getD 0)) with
    | 1 => 4
    | 2 => 4
    | 3 => 3
    | _ => 2
  else 1

/-- The bytes of a place on this die or in host memory; a peer's are asked for by packets. -/
def State.readPlace (s : State) (p : Place) (n : Nat) : List Byte :=
  match p with
  | .loc a => s.load a n
  | .dram o => s.loadDram o n
  | .host h => getBytes s.mem.host h n
  | _ => []

/-- Write bytes to a place on this die or in host memory. -/
def State.writePlace (s : State) (p : Place) (bs : List Byte) (src : W64) : State :=
  match p with
  | .loc a => s.storeWatched a bs src
  | .dram o => s.storeDram o bs
  | .host h => { s with mem.host := putBytes s.mem.host h bs }
  | _ => s

/-! ## The check at WTLOCK (R19, R24) -/

/-- Bytes of DRAM, and where the image area begins (R48, R343). -/
def dramSize : Nat := 48 * 2 ^ 30
/-- See `dramSize`. -/
def imageBase : Nat := 0xB80000000

/-- A DRAM range lies inside the DRAM and outside the image area. -/
def dramRangeOk (o n : Nat) : Bool := decide (o + n ≤ dramSize) && decide (o + n ≤ imageBase)

/-- Mask of the bits of word 1 that a kind lists (R18). -/
def word1Bits (kind : Nat) : W64 :=
  match kind with
  | 0 => 0x0000000FFFE00000#64
  | 1 => 0x1FFF000FFFE00000#64
  | 2 => 0x1FFF00000FE00000#64
  | 3 => 0x000FFFFFFFE00000#64
  | _ => 0x7F00000FFFE00000#64

/-- Least SCOPE of a peer (R24). -/
def Ctl.peerScope (c : Ctl) (k : BitVec 13) : Nat :=
  if k.extractLsb' 3 10 = c.diecoord.extractLsb' 3 10 then 1
  else if (k ^^^ c.diecoord) &&& ~~~c.lsdmask = 0 then 2
  else 3

/-- Least SCOPE of a target (R24). -/
def Ctl.leastScope (c : Ctl) (e : WEntry) : Nat :=
  match wKind e with
  | 1 => c.peerScope (wCoord e)
  | 2 => c.peerScope (wCoord e)
  | 3 => 1
  | _ => 0

/-- Conditions 1 to 3 and 5 to 8 of R19 on an entry in use. -/
def Ctl.entryOk (c : Ctl) (aper : List Aperture) (e : WEntry) : Bool :=
  let k := wKind e
  let resident := decide (wState e = 0)
  (e.1 &&& 0xFFFF00000000007F#64 == 0) && (e.2 &&& ~~~(word1Bits k) == 0) &&
  decide (k ≤ 4) && decide (wState e ≠ 3) && decide (0x100000000 ≤ wBase e) && decide (wBase e % wSize e = 0) &&
  (if k = 2 then decide (wOff e % wSize e = 0) && decide (wOff e + wSize e ≤ 0x10000000)
   else if k = 3 then decide (wOff e % wSize e = 0) &&
     aper.any fun a => decide (a.size ≠ 0) && decide (a.base ≤ wOff e) && decide (wOff e + wSize e ≤ a.base + a.size)
   else if k = 4 ∧ !resident then true
   else decide (wOff e % wSize e = 0) && dramRangeOk (wOff e) (wSize e)) &&
  (resident || k == 4) &&
  (if k = 1 ∨ k = 2 then decide (wCoord e ≠ c.diecoord) && (wCoord e &&& ~~~c.scmask == c.scbase) else true) &&
  decide (c.leastScope e ≤ wScope e)

/-- Two windows overlap (R19 item 4). -/
def wOverlap (x y : WEntry) : Bool := meets (wBase x) (wSize x) (wBase y) (wSize y)

/-- The lowest entry that breaks a condition of R19. -/
def State.tableFault (s : State) : Option Nat :=
  let used := s.mem.wtab.toList.zipIdx.filter fun x => wV x.1
  let aper := (s.pkg.tenant s.pkg.residentTenant).cfg.aper
  (used.find? fun x => !s.ctl.entryOk aper x.1 || used.any fun y => decide (y.2 ≠ x.2) && wOverlap x.1 y.1).map (·.2)

end Sys2Proof.Machine
end

