-- ==== Sys2Proof/Machine/Net.lean ====
section
/-! DEFINITION. The link layer and the link router: sending, the LSEQ rule, replay, detours, port states, and the events of
ports (R111 to R132, R339). -/

namespace Sys2Proof.Machine

/-! ## Packets (R113, R122, R126, R129) -/

/-- Transfer identifier of a command's run: its number and the run (DESIGN CHOICE, log 8). -/
def xidOf (num tries : Nat) : W16 := BitVec.ofNat 16 (num % 2 ^ 14 + tries % 4 * 2 ^ 14)

/-- Identifier of a copy command's packets. -/
def CopyCmd.xid (c : CopyCmd) : W16 := xidOf c.num c.tries

/-- Identifier of a walker command's packets. -/
def WCmd.xid (c : WCmd) : W16 := xidOf c.num c.tries

/-- A packet of this die with every optional field empty. -/
def Ctl.packet (c : Ctl) (t : PType) (dst : BitVec 13) (eng : Nat) (xid : W16) : Packet :=
  { lseq := 0, ptype := t, dst := dst, src := c.diecoord, job := c.jobid, rseq := 0, eng := BitVec.ofNat 4 eng, op := 0,
    dram := false, addr := 0, len := 0, xid := xid, imm := 0, payload := [], info := .none, nctr := 0,
    outer := none, guy := false, held := none, tagOk := true }

/-- TYPE of a header (R122). -/
def PType.code : PType → Nat
  | .write => 1 | .readRequest => 2 | .readResponse => 3 | .atomic => 4 | .atomicResponse => 5 | .reduceStore => 6
  | .flag => 7 | .transferAck => 8 | .exchangeData => 9 | .unreachable => 10

/-- A response (R113): read data, an atomic's result, an acknowledgement or a notice. -/
def PType.answer : PType → Bool
  | .unreachable => true
  | .transferAck => true
  | .readResponse => true
  | .atomicResponse => true
  | _ => false

/-- Virtual channel of a packet (R113): requests 0, responses 1, and 2 and 3 inside a detour. -/
def Packet.vc (k : Packet) : Nat := (if k.ptype.answer then 1 else 0) + (if k.outer.isSome then 2 else 0)

/-- Data flits: 64 bytes of payload each; a detour packet carries the inner header too (R122). -/
def Packet.dataFlits (k : Packet) : Nat := (k.payload.length + 63) / 64 + (if k.outer.isSome then 1 else 0)

/-- The flits of a packet (R122). -/
def Packet.flits (k : Packet) : Nat := 1 + k.dataFlits

/-- Header bytes [47:0] (R122). The outer header of a detour packet has its own VCF, OP and ADDR (R129) and repeats the other
fields of the inner one (DESIGN CHOICE, log 8). -/
def Packet.header (k : Packet) : List Byte :=
  let vcf := k.vc + 4 * k.dataFlits + (if k.outer.isSome then 32 else 0)
  let op := match k.outer with
    | some o => BitVec.ofNat 8 (o.d + 16 * o.e)
    | none => k.op
  let addr := match k.outer with
    | some o => o.hop
    | none => k.addr.toNat + (if k.dram then 2 ^ 63 else 0)
  leBytes 4 k.lseq.toNat ++ [BitVec.ofNat 8 k.ptype.code, BitVec.ofNat 8 vcf] ++ leBytes 2 k.dst.toNat ++
  leBytes 2 k.src.toNat ++ leBytes 4 k.job.toNat ++ leBytes 4 k.rseq.toNat ++ [k.eng.zeroExtend 8, op] ++ leBytes 8 addr ++
  leBytes 2 k.len ++ leBytes 2 k.xid.toNat ++ leBytes 8 k.imm.toNat ++ leBytes 8 k.nctr

/-- The 96-bit IV of a transmission (R126): the port's identifier, then NCTR. -/
def sealIv (port nctr : Nat) : List Byte := leBytes 4 (Config.portId port).toNat ++ leBytes 8 nctr

/-- A packet for dead link `d` as the inner part of a detour packet (R129): header and payload, sealed under the detour key of
generation `key`. -/
def Packet.inner (k : Packet) (d key nctr : Nat) (l : W32) : List Byte :=
  let h := { k with outer := none, lseq := l, nctr := nctr }
  let x := Config.gcmSeal (Config.linkKey d true key) (sealIv d nctr) [] (h.header ++ k.payload)
  x.2 ++ x.1

/-- The bytes of a data packet on the wire of port `d` under the link key of generation `key` (R122, R126, R129): header,
TAG, and the encrypted payload. A detour packet carries its sealed inner packet. -/
def Packet.wire (k : Packet) (d key : Nat) : List Byte :=
  let body := match k.outer with
    | none => k.payload
    | some o => o.body
  let x := Config.gcmSeal (Config.linkKey d false key) (sealIv d k.nctr) k.header body
  k.header ++ x.2 ++ x.1

/-- Flits in the replay buffer (R124). -/
def Port.held (p : Port) : Nat := (p.replay.map Packet.flits).sum

/-- Replace a port. -/
def State.setPort (s : State) (d : Nat) (p : Port) : State := { s with ports := vset s.ports d p }

/-- Virtual channel on which a packet came in: one that has been taken out of a detour came on the detour's (R113). -/
def Packet.vcIn (k : Packet) : Nat := if k.held.isSome then k.vc + 2 else k.vc

/-- Flits of a virtual channel in the receive buffer of port `d` (R123). One that a guyline brought stands in the
list of the link that it replaces, and in the buffer of the link that it came by. -/
def State.rxHeld (s : State) (d vc : Nat) : Nat :=
  ((List.range 13).map fun i => (((s.port i).rx.filter fun k =>
    decide (k.held.getD i = d) && decide (k.vcIn = vc)).map Packet.flits).sum).sum

/-- The flits of the receive buffer of 1,024 that a virtual channel has: 128 each are those of VC 1 and VC 3 (R123), and the other
768 are halved between VC 0 and VC 2, so that no packet waits for a lower channel (R113; DESIGN CHOICE, log 46). -/
def vcFlits (vc : Nat) : Nat := if vc = 1 ∨ vc = 3 then 128 else 384

/-- The receive buffer has credit for a packet: its own channel's flits on its own link (R113, R123). -/
def State.credit (s : State) (d : Nat) (k : Packet) : Bool := decide (s.rxHeld d k.vc + k.flits ≤ vcFlits k.vc)

/-- A frame leaves: every transmission advances NCTR (R124, R126). -/
def Port.control (p : Port) (f : Frame) : Port :=
  { p with sent := p.sent ++ [{ frame := f, nctr := p.nctrOut + 1, key := p.key }], nctrOut := p.nctrOut + 1 }

/-- A port changes state, with its lantern entry (R125, R347). -/
def State.portState (s : State) (d : Nat) (x : PortState) : State :=
  let p := s.port d
  if p.state = x then s
  else
    let s := s.lanternM 0x25 d (BitVec.ofNat 64 (p.state.code + 256 * x.code))
    s.setPort d { p with state := x, since := s.now }

/-! ## Sending (R112, R124, R128 to R132) -/

/-- A packet leaves directly: the next LSEQ, kept for replay until it is acknowledged (R124). The first transmission under a
key carries NCTR 1, and a receiver takes 0 as the last it accepted (DESIGN CHOICE, log 47). -/
def Port.sendNow (p : Port) (k : Packet) (now : Nat) : Port :=
  let k := { k with lseq := p.lsent + 1, nctr := p.nctrOut + 1 }
  { p.control (.data k) with lsent := p.lsent + 1, replay := p.replay ++ [k],
                             lastAck := if p.replay.isEmpty then now else p.lastAck }

/-- A port that is UP sends a packet directly now: the replay buffer has room, everything sent over the guyline is
acknowledged, and no resync is open (R124, R132, R340). -/
def Port.direct (p : Port) (k : Packet) : Bool :=
  decide (p.state = .up) && p.guyLast.isNone && !p.resync && decide (p.held + k.flits ≤ 1024)

/-- Two packets begin a detour of one dead link here: they keep its LSEQ order (R131). -/
def Packet.sameLink (k w : Packet) : Bool :=
  k.outer.any fun a => w.outer.any fun b => decide (a.hop = 0) && decide (b.hop = 0) && decide (a.d = b.d)

/-- A packet that goes first waits for the port: of the same or a higher virtual channel (R113), or earlier on the same dead
link. -/
def Port.blocked (p : Port) (k : Packet) : Bool := p.waiting.any fun w => decide (k.vc ≤ w.vc) || k.sameLink w

/-- A packet enters a port that is UP: it leaves, or waits. -/
def State.enter (s : State) (d : Nat) (k : Packet) : State :=
  let p := s.port d
  s.setPort d (if p.direct k && !p.blocked k then p.sendNow k s.now else { p with waiting := p.waiting ++ [k] })

/-- A packet of dead port `d` with LSEQ `l` goes over the guyline, sealed under the detour key (R129, R131). -/
def State.overGuyline (s : State) (d : Nat) (k : Packet) (l : W32) : State :=
  let p := s.port d
  let e := p.guydim.toNat % 16
  let n := p.detourOut + 1
  let o : Detour := { d := d, e := e, hop := 0, lseq := l, nctr := n, body := k.inner d p.detourKey n l, tagOk := true }
  (s.setPort d { p with guyLast := some l, detourOut := n }).enter e { k with outer := some o, lseq := 0 }

/-- A packet that the port cannot forward (R130): the link is out, and no guyline is available for the packet; or the packet is
in a detour and this link of its guyline is not UP, parked included. -/
def State.stuck (s : State) (d : Nat) (k : Packet) : Bool :=
  let x := (s.port d).state
  if k.outer.isSome then decide (x ≠ .up) else x.detours && (k.guy || !s.guyReady d)

/-- A packet leaves by port `d` now, directly or by the guyline, if it may. Nothing leaves for a link whose resync is open
(R340). -/
def State.trySend (s : State) (d : Nat) (k : Packet) : Option State :=
  let p := s.port d
  if p.direct k then some (s.setPort d (p.sendNow k s.now))
  else if p.state.detours && !p.resync && !s.stuck d k && decide (p.held + k.flits ≤ 1024) then
    let l := p.lsent + 1
    some ((s.setPort d { p with
      lsent := l, replay := p.replay ++ [{ k with lseq := l }],
      lastAck := if p.replay.isEmpty then s.now else p.lastAck }).overGuyline d k l)
  else none

/-- A packet is handed to the port of dimension `d`; `false` says that it cannot be forwarded (R130). -/
def State.transmit (s : State) (d : Nat) (k : Packet) : State × Bool :=
  if s.stuck d k then (s, false)
  else
    let p := s.port d
    let wait := s.setPort d { p with waiting := p.waiting ++ [k] }
    if p.blocked k then (wait, true) else ((s.trySend d k).getD wait, true)

/-- The packet that leaves next among those that wait: of the highest virtual channel, the oldest (R113), or the one before it
on the same dead link (R131). -/
def Port.nextWaiting (p : Port) : Option Packet :=
  ([3, 2, 1, 0].findSome? fun v => p.waiting.find? fun k => decide (k.vc = v)).map fun k =>
    (p.waiting.find? k.sameLink).getD k

/-- Waiting packets leave as far as they may. -/
def State.flushFrom (s : State) (d : Nat) : Nat → State
  | 0 => s
  | f + 1 =>
    let p := s.port d
    match p.nextWaiting with
    | none => s
    | some k =>
      match (s.setPort d { p with waiting := p.waiting.erase k }).trySend d k with
      | some t => t.flushFrom d f
      | none => s

/-- What waits on a port leaves as far as it may. -/
def State.flushPort (s : State) (d : Nat) : State := s.flushFrom d (s.port d).waiting.length

/-- The dimension of a packet's next hop: the lowest in which the coordinates differ (R111). -/
def nextDim (here dst : BitVec 13) : Option Nat := (setBits (here ^^^ dst)).head?

/-! ## Failing a command from outside -/

/-- Change the copy commands of an engine that bear a number. -/
def State.mapCopy (s : State) (i num : Nat) (f : CopyCmd → CopyCmd) : State :=
  let q := vget s.eng.copy i []
  { s with eng.copy := vset s.eng.copy i (q.map fun c => if c.num = num then f c else c) }

/-- Change the copy command of an engine that bears an identifier. -/
def State.mapCopyX (s : State) (i : Nat) (x : W16) (f : CopyCmd → CopyCmd) : State :=
  let q := vget s.eng.copy i []
  { s with eng.copy := vset s.eng.copy i (q.map fun c => if c.xid = x then f c else c) }

/-- Change the walker command of a number. -/
def State.mapWalk (s : State) (num : Nat) (f : WCmd → WCmd) : State :=
  { s with eng.walker := s.eng.walker.map fun c => if c.num = num then f c else c }

/-- An exchange queue. -/
def State.xqueue (s : State) (q : Nat) : XQueue := vget s.eng.xq q XQueue.clear

/-- Replace an exchange queue. -/
def State.setXq (s : State) (q : Nat) (x : XQueue) : State := { s with eng.xq := vset s.eng.xq q x }

/-- The logical dimension on which another die of the job is a partner. -/
def Ctl.partnerDim (c : Ctl) (k : BitVec 13) : Nat :=
  ((List.range c.dims).find? fun j => decide (c.phys j = ((nextDim c.diecoord k).getD 13))).getD 0

/-- The coordinate of the partner on a logical dimension (R157). -/
def Ctl.partner (c : Ctl) (j : Nat) : BitVec 13 := c.diecoord ^^^ BitVec.ofNat 13 (2 ^ c.phys j)

/-- A half of match `m` on dimension `j`. -/
def Half.is (h : Half) (send : Bool) (j : Nat) (m : W32) : Bool := (h.send == send) && decide (h.dim = j) && decide (h.m = m)

/-- A half of a begun exchange command ends with a status, which is the command's unless it has one; of a barrier, the halves
of higher dimensions, which have not begun, end with it. -/
def XCmd.failHalf (c : XCmd) (send : Bool) (j : Nat) (m : W32) (st : Byte) : XCmd :=
  { c with
    status := if c.status.isNone then some st else c.status,
    halves := c.halves.map fun h => if h.is send j m || (c.barrier && decide (j < h.dim)) then { h with failed := true } else h }

/-- The begun exchange command that holds a half loses it. -/
def XQueue.failHalf (x : XQueue) (send : Bool) (j : Nat) (m : W32) (st : Byte) : XQueue :=
  let f (c : XCmd) : XCmd :=
    if c.started && c.halves.any (fun h => h.is send j m) then c.failHalf send j m st else c
  { x with queue := x.queue.map f, arms := x.arms.map f }

/-- A begun exchange command ends whole with a status, with all its halves (R170, R270). -/
def XCmd.failAll (c : XCmd) (st : Byte) : XCmd :=
  { c with started := true, status := some st, halves := c.halves.map fun h => { h with failed := true } }

/-- The partner of a begun exchange command cannot be reached (R270): the command has the status "link down", and every half
ends but a send whose packets are under way, which waits for their answers (R139). -/
def XCmd.unreachable (c : XCmd) : XCmd :=
  { c with
    status := if c.status.isNone then some 0x13 else c.status,
    halves := c.halves.map fun h => if h.send && h.done then h else { h with failed := true } }

/-- The READY of a receive half is lost on the way (R130, R270). -/
def XQueue.loseReady (x : XQueue) (j : Nat) (m : W32) : XQueue :=
  let f (c : XCmd) : XCmd := if c.started && c.halves.any (fun h => h.is false j m) then c.unreachable else c
  { x with queue := x.queue.map f, arms := x.arms.map f }

/-- A packet of a send half is lost on the way (R130, R270): the command waits for one answer less. -/
def XQueue.losePacket (x : XQueue) (j : Nat) (m : W32) (xid : W16) : XQueue :=
  let f (c : XCmd) : XCmd :=
    if c.started && decide (xidOf c.num c.tries = xid) && c.halves.any (fun h => h.is true j m) then
      let less (h : Half) : Half := if h.is true j m then { h with open_ := h.open_ - 1 } else h
      ({ c with halves := c.halves.map less } : XCmd).unreachable
    else c
  { x with queue := x.queue.map f, arms := x.arms.map f }

/-- Link down for a packet of this die that cannot be delivered (R130): its command fails, and the packet is answered. An
answer belongs to no command of this die. -/
def State.linkDown (s : State) (k : Packet) : State :=
  let fail (st : Option Byte) : Option Byte := if st.isNone then some 0x13 else st
  let walk (c : WCmd) : WCmd := if c.xid = k.xid then { c with status := fail c.status, acks := c.acks - 1 } else c
  if k.ptype.answer then s
  else match k.info with
  | .ready q m _ _ => s.setXq q ((s.xqueue q).loseReady (s.ctl.partnerDim k.dst) m)
  | .exch q m _ _ => s.setXq q ((s.xqueue q).losePacket (s.ctl.partnerDim k.dst) m k.xid)
  | .abort _ _ _ _ => s
  | .walker n _ _ _ => s.mapWalk n walk
  | .row _ _ _ => { s with eng.walker := s.eng.walker.map walk }
  | .none =>
    if 1 ≤ k.eng.toNat ∧ k.eng.toNat ≤ 4 then
      s.mapCopyX (k.eng.toNat - 1) k.xid fun c => { c with status := fail c.status, acks := c.acks - 1 }
    else s

/-- The unreachable notice for a packet (R130); its address field names the target that was not reached, and OP the TYPE of
the packet (DESIGN CHOICE, log 8). -/
def Ctl.notice (c : Ctl) (k : Packet) : Packet :=
  { c.packet .unreachable k.src k.eng.toNat k.xid with
    info := k.info, job := k.job, addr := k.dst.zeroExtend 48, op := BitVec.ofNat 8 k.ptype.code }

/-- A packet that no link and no guyline can carry (R130): link down for this die's own, a notice for another's. A notice
itself is dropped (DESIGN CHOICE, log 8). A packet at the first hop of a detour stands in the replay buffer of its dead link as
well, and is given up there. -/
def State.giveUp (s : State) (k : Packet) : State :=
  if k.ptype = .unreachable || k.outer.any (fun o => decide (o.hop = 0)) then s
  else if k.src = s.ctl.diecoord then s.linkDown k
  else match nextDim s.ctl.diecoord k.src with
    | none => s
    | some e => (s.transmit e (s.ctl.notice k)).1

/-- A packet is sent on its way from this die (R111, R112). -/
def State.route (s : State) (k : Packet) : State :=
  match nextDim s.ctl.diecoord k.dst with
  | none => s
  | some d =>
    match s.transmit d k with
    | (s, true) => s
    | (s, false) => s.giveUp k

/-- An answer to a packet, with its identifiers (R115, R117). -/
def State.answer (s : State) (k : Packet) (t : PType) (f : Packet → Packet) : State :=
  s.route (f { s.ctl.packet t k.src k.eng.toNat k.xid with info := k.info })

/-! ## Accepting (R124, R126, R129, R131) -/

/-- The control frame of a link that carries what a guyline's word says. -/
def LinkWord.frame : LinkWord → Frame
  | .ack l => .ack l
  | .nak l => .nak l
  | .resync a b => .resync a b
  | .park => .park
  | .parkAck a b c => .parkAck a b c
  | .rekey => .detourRekey

/-- A link carries control frames: it is UP or STOPPED, or was when it was parked (R125, R339). -/
def Port.carries (p : Port) : Bool :=
  match p.state with
  | .up => true
  | .stopped => true
  | .parked => decide (p.before = .up) || decide (p.before = .stopped)
  | _ => false

/-- A control frame reaches the other end of a link: over the link, or over its guyline. -/
def State.reaches (s : State) (d : Nat) : Bool := (s.port d).carries || s.guyReady d

/-- A control frame leaves for the other end of link `d`: over the link while it carries control frames, and otherwise over its
guyline (R124, R125, R127, R131, R339, R340). -/
def State.sendWord (s : State) (d : Nat) (w : LinkWord) : State :=
  let p := s.port d
  if p.carries then s.setPort d (p.control w.frame)
  else if s.guyReady d then
    let e := p.guydim.toNat % 16
    s.setPort e ((s.port e).control (.guy d e 0 w))
  else s

/-- An acknowledgement, or a negative one, for the direction into port `d`; a parked port sends none (R339). -/
def State.linkReply (s : State) (d : Nat) (ok : Bool) (l : W32) : State :=
  if (s.port d).state = .parked then s else s.sendWord d (if ok then .ack l else .nak l)

/-- The tag and NCTR checks of a frame on port `d` (R126): a failure is counted in LKERR and answered by a negative
acknowledgement. -/
def State.checkFrame (s : State) (d nctr : Nat) (tagOk : Bool) : State × Bool :=
  let p := s.port d
  if !tagOk || decide (nctr ≤ p.nctrIn) then
    ((s.setPort d { p with lkerr := satAdd32 p.lkerr 1 }).linkReply d false p.lacc, false)
  else (s.setPort d { p with nctrIn := nctr }, true)

/-- The LSEQ rule of a link direction (R124). A packet accepted before is dropped, and acknowledged again: acknowledgements are
cumulative, and the first may have been lost. -/
def State.acceptSeq (s : State) (d : Nat) (l : W32) : State × Bool :=
  let p := s.port d
  if l = p.lacc + 1 then ((s.setPort d { p with lacc := l }).linkReply d true l, true)
  else if (l - p.lacc).toNat < 2 ^ 31 ∧ l ≠ p.lacc then (s.linkReply d false p.lacc, false)
  else (s.linkReply d true p.lacc, false)

/-- The inner packet of a detour is opened at the far end of the dead link: tag and NCTR of the detour key, then the LSEQ
rule of that link (R129). -/
def State.openDetour (s : State) (d : Nat) (o : Detour) (k : Packet) : State × Option Packet :=
  let p := s.port o.d
  if !o.tagOk || decide (o.nctr ≤ p.detourIn) then
    ((s.setPort o.d { p with lkerr := satAdd32 p.lkerr 1 }).linkReply o.d false p.lacc, none)
  else
    match (s.setPort o.d { p with detourIn := o.nctr }).acceptSeq o.d o.lseq with
    | (s, true) => (s, some { k with outer := none, lseq := o.lseq, guy := true, held := some d })
    | (s, false) => (s, none)

/-- A packet arrives on the port of dimension `d` and is accepted or dropped. -/
def State.accept (s : State) (d : Nat) (k : Packet) : State × Option Packet :=
  match s.checkFrame d k.nctr k.tagOk with
  | (s, false) => (s, none)
  | (s, true) =>
    match s.acceptSeq d k.lseq with
    | (s, false) => (s, none)
    | (s, true) =>
      match k.outer with
      | none => (s, some { k with held := none })
      | some o => if o.hop = 2 then s.openDetour d o k else (s, some { k with held := none })

/-! ## Halts and the receive buffer (R51, R52, R113, R142, R320, R334, R339, R348, R352) -/

/-- The die makes no progress: a freeze, trap or return cycles, a stopped clock, a dump, or a fatal trap. Links go on. -/
def State.halted (s : State) : Bool :=
  decide (0 < s.eng.freeze) || match s.stream.mode with
    | .trapping _ => true
    | .returning _ => true
    | .scanStop => true
    | .sdump => true
    | .fatal => true
    | _ => false

/-- An image of the resident job is being written. -/
def State.capturing (s : State) : Bool :=
  s.pkg.images.any fun i => !i.complete && decide (i.jobid = s.ctl.jobid)

/-- Ports are parked for an image or a diagnostic dump: what they hold stays (R149, R339, R352). -/
def State.holdsPorts (s : State) : Bool := s.capturing || decide (s.stream.mode = .sdump)

/-- A walker packet may be taken now: its number is at most four ahead of the last issued TLW number (R277). -/
def State.walkerNear (s : State) (num : Nat) : Bool := decide (num ≤ (s.line 10).issued.toNat + 4)

/-- The bytes that a packet's read-modify-write acts on have not been written in this cycle (R39, R48, R147). -/
def State.settled (s : State) (k : Packet) : Bool :=
  let n := if k.ptype = .reduceStore then k.payload.length else k.len
  if k.ptype = .atomic ∨ k.ptype = .reduceStore then
    fresh (if k.dram then s.mem.undoDram else s.mem.undo) k.addr.toNat n
  else true

/-- A copy that a refusal of its time away has ended is not complete yet (R109, R139). -/
def CopyCmd.refusedOpen (c : CopyCmd) : Bool := c.stalled && c.status.isSome && decide (c.stallCause = 0)

/-- No block moves while such a copy is not complete (R109). -/
def State.refusalsOpen (s : State) : Bool := s.eng.copy.toList.any fun q => q.any (·.refusedOpen)

/-- A packet for this die must wait in its port's receive buffer: this die is halted (R52), an image of it is being written
(R149, R339), an earlier packet of the pair was performed in this cycle (R142), its read-modify-write must follow a write
of this cycle, or a walker's data runs too far ahead (R95). -/
def State.mustWait (s : State) (k : Packet) : Bool :=
  let far := match k.info with
    | .walker n _ _ _ => k.ptype == .exchangeData && !s.walkerNear n
    | _ => false
  decide (s.stream.mode ≠ .fatal) &&
    (s.halted || s.capturing || far || s.arrived.contains k.src || !s.settled k)

/-- The oldest packet of a virtual channel in a port's receive buffer. -/
def Port.rxHead (p : Port) (vc : Nat) : Option Packet := p.rx.find? fun k => decide (k.vc = vc)

/-- A packet is performed at this die; a die stopped by a fatal trap answers with an unreachable notice (R351). -/
def State.receive (s : State) (k : Packet) (perform : Packet → State → State) : State :=
  if s.stream.mode = .fatal then s.giveUp k
  else perform k { s with arrived := k.src :: s.arrived }

/-- A packet that the link has accepted is acted on by `act`, or waits in the receive buffer behind those of its virtual
channel (R113, R123). -/
def State.orBuffer (s : State) (d : Nat) (k : Packet) (wait : Bool) (act : Packet → State → State) : State :=
  let p := s.port d
  if wait || (p.rxHead k.vc).isSome then s.setPort d { p with rx := p.rx ++ [k] } else act k s

/-- The port that accepts a packet: the last hop of a detour delivers for the dead link (R129), so that what it carries stands
behind what that link delivered before (R112, R142). -/
def Packet.landsOn (k : Packet) (d : Nat) : Nat :=
  match k.outer with
  | some o => if o.hop = 2 then o.d else d
  | none => d

/-- An event of a packet of the kind that `kind` names: one that arrives on a port that is UP is accepted and acted on or
buffered; the oldest buffered one of a virtual channel is acted on when it need not wait any more. A port that is not UP
takes no data packet (DESIGN CHOICE, log 47). -/
def State.linkEvent (s : State) (kind : Packet → Bool) (wait : State → Packet → Bool) (act : Packet → State → State) :
    Host.Outcome State Fault Refusal :=
  match s.arg with
  | .pkt d k =>
    if kind k && decide ((s.port d).state = .up) then
      match s.accept d k with
      | (s, some k') => .next (s.orBuffer (k.landsOn d) k' (wait s k') act)
      | (s, none) => .next s
    else .next s
  | .rx d vc =>
    let p := s.port d
    match p.rxHead vc with
    | some k =>
      if kind k && !wait s k then .next (act k (s.setPort d { p with rx := p.rx.erase k })) else .next s
    | none => .next s
  | _ => .next s

/-- The packet ends its way here, as itself: it is in no detour, or at its last hop. -/
def Packet.opens (k : Packet) : Bool := k.outer.all fun o => o.hop == 2

/-- An event of a packet for this die. -/
def State.packetEvent (s : State) (kind : Packet → Bool) (perform : Packet → State → State) :
    Host.Outcome State Fault Refusal :=
  s.linkEvent (fun k => kind k && k.opens && decide (k.dst = s.ctl.diecoord)) State.mustWait
    fun k s => s.receive k perform

/-- The port that a packet leaves by has no place for it now. -/
def State.noExit (s : State) (d : Nat) (k : Packet) : Bool :=
  !s.stuck d k && ((s.port d).blocked k || (s.trySend d k).isNone)

/-- ROUTER_FORWARD (R111): a packet for another die goes on to its next dimension, whatever this die does. -/
def execRouterForward (s : State) : Host.Outcome State Fault Refusal :=
  s.linkEvent (fun k => k.opens && decide (k.dst ≠ s.ctl.diecoord))
    (fun s k => s.noExit ((nextDim s.ctl.diecoord k.dst).getD 13) k) fun k s => s.route k

/-- The dimension by which a transit die sends a detour packet on: after the first hop the dead one, after the second the
detour dimension. -/
def Detour.out (o : Detour) : Nat := if o.hop = 0 then o.d else o.e

/-- DETOUR_FORWARD (R129, R130): a transit die sends a detour packet on by its outer header. A link that is not UP returns an
unreachable notice. -/
def execDetourForward (s : State) : Host.Outcome State Fault Refusal :=
  s.linkEvent (fun k => k.outer.any fun o => decide (o.hop < 2))
    (fun s k => k.outer.any fun o => s.noExit o.out k) fun k s =>
      match k.outer with
      | some o =>
        match s.transmit o.out { k with outer := some { o with hop := o.hop + 1 } } with
        | (s, true) => s
        | (s, false) => s.giveUp { k with outer := none }
      | none => s

/-! ## Acknowledgements and replay (R124, R131, R132) -/

/-- `l` acknowledges a packet: it is at or below `ack`, compared modulo 2^32. -/
def ackedBy (l ack : W32) : Bool := decide ((ack - l).toNat < 2 ^ 31)

/-- The replay buffer frees what `l` acknowledges; whether that is progress. -/
def Port.free (p : Port) (l : W32) : Port × Bool :=
  let keep := p.replay.filter fun k => !ackedBy k.lseq l
  let progress := decide (keep.length < p.replay.length)
  ({ p with replay := keep, lackd := if progress then l else p.lackd, replays := if progress then 0 else p.replays }, progress)

/-- A transit die of a guyline sends a control frame on, by the way of a detour packet (R129, R131); on a link that carries no
control frames it is lost. -/
def State.passWord (s : State) (d e hop : Nat) (f : LinkWord) : State :=
  let v := if hop = 0 then d else e
  let p := s.port v
  if p.carries then s.setPort v (p.control (.guy d e (hop + 1) f)) else s

/-- A control frame for the link of dimension `d` comes in on port `via`: it is checked, and acted on here unless this die is a
transit die of its guyline. -/
def State.wordEvent (s : State) (d via : Nat) (guy : Option (Nat × Nat)) (nctr : Nat) (tagOk : Bool) (f : LinkWord)
    (act : State → State) : Host.Outcome State Fault Refusal :=
  match s.checkFrame via nctr tagOk with
  | (s, false) => .next s
  | (s, true) => match guy with
    | some (e, hop) => .next (if hop < 2 then s.passWord d e hop f else act s)
    | none => .next (act s)

/-- LINK_ACKNOWLEDGEMENT (R124, R131, R132): the replay buffer frees what is acknowledged, and what waits may leave. -/
def execLinkAcknowledgement (s : State) : Host.Outcome State Fault Refusal :=
  match s.arg with
  | .lack d via guy l nctr tagOk =>
    s.wordEvent d via guy nctr tagOk (.ack l) fun s =>
      let p := s.port d
      if ackedBy l p.lsent then (s.setPort d { (p.free l).1 with lastAck := s.now }).flushPort d else s
  | _ => .next s

/-- A packet may go by a guyline: it is in no detour and has taken none (R130). -/
def Packet.fresh (k : Packet) : Bool := !k.guy && k.outer.isNone

/-- What stands in the replay buffer for a packet that was given up (R130): its LSEQ, with nothing that the receiver would
perform (DESIGN CHOICE, log 47). -/
def Packet.void (k : Packet) : Packet :=
  { k with
    ptype := .unreachable, op := BitVec.ofNat 8 PType.unreachable.code, rseq := 0, len := 0, payload := [], info := .none,
    outer := none }

/-- What port `d` holds and cannot forward is given up: link down or a notice, and the receiver finds no gap. -/
def State.dropHeld (s : State) (d : Nat) (which : Packet → Bool) : State :=
  let p := s.port d
  let s := s.setPort d { p with replay := p.replay.map fun k => if which k then k.void else k }
  (p.replay.filter which).foldl State.giveUp s

/-- Send the replay buffer again, each packet sealed afresh: directly, or inside a detour (R124, R126, R131). -/
def State.resend (s : State) (d : Nat) : State :=
  let p := s.port d
  if p.state = .up then
    p.replay.foldl (fun s k =>
      let p := s.port d
      s.setPort d (p.control (.data { k with nctr := p.nctrOut + 1 }))) s
  else if p.state.detours && s.guyReady d then
    let s := if s.holdsPorts then s else s.dropHeld d fun k => !k.fresh
    (s.port d).replay.foldl (fun s k => s.overGuyline d k k.lseq) s
  else s

/-- The guyline of a port that owes a RESYNC comes back: its own first link is parked, resyncs, or is UP while the report of the
far ones has not come (R340; DEDUCED, log 45). -/
def State.guySoon (s : State) (d : Nat) : Bool :=
  let p := s.port d
  let q := s.port (p.guydim.toNat % 16)
  p.owes && p.guydim.getLsbD 4 && decide (p.detourOut < stopAt) &&
    (decide (q.state = .parked) || decide (q.state = .up) || (decide (q.state = .train) && q.resync))

/-- A port gives up everything it holds. -/
def State.dropAll (s : State) (d : Nat) : State :=
  let p := s.port d
  p.waiting.foldl State.giveUp ((s.setPort d { p with waiting := [] }).dropHeld d fun _ => true)

/-- A port whose guyline is not available gives up what it holds (R130). While an image is being written the image saves it
(R149, R339). -/
def State.dropStuck (s : State) (d : Nat) : State :=
  if (s.port d).state.detours && !s.guyReady d && !s.guySoon d && !s.holdsPorts then s.dropAll d else s

/-- Every port gives up what it cannot forward any more: a link of its guyline, GUYDIM or its detour key has gone (R130). -/
def State.sweepPorts (s : State) : State := (List.range 13).foldl (fun s d => s.dropStuck d) s

/-- A packet that waits on a port in this state can go by no guyline, being in a detour or having left one (R130). On a PARKED
port the link's own traffic stays (R125), and what is in a detour does not (DEDUCED, log 45). -/
def PortState.strands (x : PortState) (k : Packet) : Bool := if x = .parked then k.outer.isSome else x.detours && !k.fresh

/-- What waits on a port that has left UP and can go by no guyline is given up (R130). -/
def State.dropWaiting (s : State) (d : Nat) : State :=
  let p := s.port d
  if s.holdsPorts then s
  else (p.waiting.filter p.state.strands).foldl State.giveUp
    (s.setPort d { p with waiting := p.waiting.filter fun k => !p.state.strands k })

/-- A port leaves UP (R131): what is not acknowledged goes first over the guyline, and then what waits. -/
def State.switchOver (s : State) (d : Nat) (x : PortState) : State :=
  ((((s.portState d x).dropWaiting d).resend d).flushPort d).sweepPorts

/-- A replay (R124), directly or over the guyline: on a port that is UP, the eighth in a row without progress puts it into
FAILED. -/
def State.replay (s : State) (d : Nat) : State :=
  let p := s.port d
  let s := s.setPort d { p with replays := p.replays + 1, lastAck := s.now }
  if p.state = .up ∧ 8 ≤ p.replays + 1 then s.switchOver d .failed else s.resend d

/-- A replay is due: 2 µs without an acknowledgement of what was sent directly or over the guyline (R124). -/
def State.replayDue (s : State) (d : Nat) : Bool :=
  let p := s.port d
  (decide (p.state = .up) || s.guyUsed d) && !p.replay.isEmpty && decide (p.lastAck + 3500 ≤ s.now)

/-- NEGATIVE_ACKNOWLEDGEMENT (R124): it acknowledges what the receiver has accepted, the rest is sent again, and what waits
for room leaves. -/
def execNegativeAcknowledgement (s : State) : Host.Outcome State Fault Refusal :=
  match s.arg with
  | .lack d via guy l nctr tagOk =>
    s.wordEvent d via guy nctr tagOk (.nak l) fun s =>
      let p := s.port d
      if ackedBy l p.lsent then
        let q := (p.free l).1
        let s := s.setPort d q
        (if q.replay.isEmpty then s else s.replay d).flushPort d
      else s
  | _ => .next s

/-- REPLAY_TIMEOUT (R124): 2 µs without an acknowledgement. -/
def execReplayTimeout (s : State) : Host.Outcome State Fault Refusal :=
  match s.arg with
  | .nat d => .next (if s.replayDue d then s.replay d else s)
  | _ => .next s

/-- GUYLINE_SWITCH_BACK (R132): the port is UP and everything it sent over the guyline has been acknowledged. -/
def execGuylineSwitchBack (s : State) : Host.Outcome State Fault Refusal :=
  match s.arg with
  | .nat d =>
    let p := s.port d
    match p.guyLast with
    | some l =>
      if p.state = .up ∧ p.replay.all (fun k => !ackedBy k.lseq l) then
        .next ((s.setPort d { p with guyLast := none }).flushPort d)
      else .next s
    | none => .next s
  | _ => .next s

/-! ## Port states (R125, R127) -/

/-- LOSS_OF_SIGNAL (R125, R131). A STOPPED port that loses signal is FAILED too (DESIGN CHOICE, log 47). -/
def execLossOfSignal (s : State) : Host.Outcome State Fault Refusal :=
  match s.arg with
  | .nat d =>
    let x := (s.port d).state
    if x = .up ∨ x = .train ∨ x = .stopped then .next (s.switchOver d .failed) else .next s
  | _ => .next s

/-- MANAGEMENT_ENABLE (R125). -/
def execManagementEnable (s : State) : Host.Outcome State Fault Refusal :=
  match s.arg with
  | .nat d => .next (if s.pkg.verified = true ∧ d < 13 ∧ (s.port d).state = .down then s.portState d .train else s)
  | _ => .next s

/-- MANAGEMENT_DISABLE (R125, R131). -/
def execManagementDisable (s : State) : Host.Outcome State Fault Refusal :=
  match s.arg with
  | .nat d => .next (if s.pkg.verified = true ∧ d < 13 ∧ (s.port d).state ≠ .down then s.switchOver d .down else s)
  | _ => .next s

/-- FAILED_RETRAIN (R125): 1 ms after FAILED. -/
def execFailedRetrain (s : State) : Host.Outcome State Fault Refusal :=
  match s.arg with
  | .nat d =>
    let p := s.port d
    .next (if p.state = .failed ∧ p.since + 1750000 ≤ s.now then s.portState d .train else s)
  | _ => .next s

/-- A ready bit of the status block is set, and a placement pass is due (R308, R366). -/
def State.setReady (s : State) (w b : Nat) : State :=
  let x := vget s.pkg.status w 0
  { s with pkg := { s.pkg with status := vset s.pkg.status w (x ||| BitVec.ofNat 32 (2 ^ b)), passDue := some s.now } }

/-- TRAINING_COMPLETE (R127, R340, R366): the link is ready and UP with fresh link and detour keys; NCTR restarts at 0. A
port that owes a resync sends RESYNC; otherwise packets sent over the guyline are waited for before a direct send (R132), and
others not acknowledged are replayed. -/
def execTrainingComplete (s : State) : Host.Outcome State Fault Refusal :=
  match s.arg with
  | .nat d =>
    let p := s.port d
    if p.state = .train then
      let s := s.setPort d { p with
        nctrOut := 0, nctrIn := 0, detourOut := 0, detourIn := 0, key := p.key + 1, detourKey := p.detourKey + 1,
        rekey := false, detourRekey := false, replays := 0, lastAck := s.now }
      let s := (s.portState d .up).setReady (1 + s.ctl.diecoord.toNat % 8) d
      .next (if p.resync then s.setPort d { (s.port d).control (.resync p.lsent p.lacc) with owes := false }
             else if p.guyLast.isNone && !p.owes then (s.resend d).flushPort d else s)
    else .next s
  | _ => .next s

/-- TRAIN_TIMEOUT (R125, R127): 100 ms in TRAIN without UP, or a training that fails (`two d 1`). -/
def execTrainTimeout (s : State) : Host.Outcome State Fault Refusal :=
  match s.arg with
  | .nat d =>
    let p := s.port d
    .next (if p.state = .train ∧ p.since + 175000000 ≤ s.now then s.switchOver d .failed else s)
  | .two d 1 => .next (if (s.port d).state = .train then s.switchOver d .failed else s)
  | _ => .next s

/-- REKEY_START (R127): NCTR reached 2^48; for the detour key (`two d 1`) in frames on the link while it carries them and over
the guyline otherwise. The other end's rekey, which comes in as a frame, is answered by this end's own (DESIGN CHOICE, log
47). -/
def execRekeyStart (s : State) : Host.Outcome State Fault Refusal :=
  match s.arg with
  | .nat d =>
    let p := s.port d
    .next (if p.state = .up ∧ rekeyAt ≤ p.nctrOut ∧ p.rekey = false then
      s.setPort d { p.control .rekey with rekey := true } else s)
  | .two d 1 =>
    let p := s.port d
    if rekeyAt ≤ p.detourOut ∧ p.detourRekey = false ∧ p.detourOut < stopAt then
      .next ((s.setPort d { p with detourRekey := true }).sendWord d .rekey)
    else .next s
  | .rekey d via guy detour nctr tagOk =>
    if d < 13 ∧ ((s.port via).state = .up ∨ (s.port via).state = .stopped) then
      s.wordEvent d via guy nctr tagOk .rekey fun s =>
        let p := s.port d
        if detour || guy.isSome then
          if p.detourRekey then s else (s.setPort d { p with detourRekey := true }).sendWord d .rekey
        else if p.rekey then s
        else s.setPort d { p.control .rekey with rekey := true }
    else .next s
  | _ => .next s

/-- REKEY_COMPLETE (R127): both ends switch to the new key, NCTR restarts at 0, and a port in STOPPED is UP again; a new
detour key (`two d 1`) makes the detour available again. -/
def execRekeyComplete (s : State) : Host.Outcome State Fault Refusal :=
  match s.arg with
  | .nat d =>
    let p := s.port d
    if p.rekey = true ∧ (p.state = .up ∨ p.state = .stopped) then
      let s := s.setPort d { p with nctrOut := 0, nctrIn := 0, key := p.key + 1, rekey := false }
      .next ((s.portState d .up).flushPort d)
    else .next s
  | .two d 1 =>
    let p := s.port d
    if p.detourRekey = true then
      .next ((s.setPort d { p with detourOut := 0, detourIn := 0, detourKey := p.detourKey + 1,
                                   detourRekey := false }).flushPort d)
    else .next s
  | _ => .next s

/-- NONCE_LIMIT (R127): NCTR reached 2^48 + 2^40 before the rekey completed; a detour key that stops (`two d 1`) makes its
detour unavailable (R130). -/
def execNonceLimit (s : State) : Host.Outcome State Fault Refusal :=
  match s.arg with
  | .nat d =>
    let p := s.port d
    .next (if p.state = .up ∧ stopAt ≤ p.nctrOut then s.switchOver d .stopped else s)
  | .two d 1 => .next (if stopAt ≤ (s.port d).detourOut then s.dropStuck d else s)
  | _ => .next s

/-! ## Park and resync (R337, R339, R340) -/

/-- A port enters PARKED; what its record will show is kept (R337). -/
def State.park (s : State) (d : Nat) : State :=
  (s.setPort d { s.port d with before := (s.port d).state, guyBefore := s.guyRecord d, asked := false }).portState d .parked

/-- PARK (R339): the neighbour asks for a park; this end answers with its counts, sends no data packet any more, and both
ends enter PARKED. What another port held for a guyline over this link is given up (R130). -/
def execPark (s : State) : Host.Outcome State Fault Refusal :=
  match s.arg with
  | .park d via guy _ _ _ nctr tagOk =>
    if d < 13 ∧ (guy.isSome ∨ (s.port d).state ≠ .parked) then
      s.wordEvent d via guy nctr tagOk .park fun s =>
        let p := s.port d
        if p.state = .parked then s else (((s.sendWord d (.parkAck p.lsent p.lackd p.lacc)).park d).dropWaiting d).sweepPorts
    else .next s
  | _ => .next s

/-- RESYNC leaves for the other end of a link (R340): over the guyline while the link is out. One that no frame takes there is
owed. -/
def State.sendResync (s : State) (d : Nat) : State :=
  let p := s.port d
  if s.reaches d then (s.setPort d { p with owes := false }).sendWord d (.resync p.lsent p.lacc)
  else s.setPort d { p with owes := true }

/-- An owed RESYNC can leave: the link or its guyline is available again (R340). -/
def State.resyncDue (s : State) (d : Nat) : Bool := (s.port d).owes && s.reaches d && !s.holdsPorts

/-- It leaves; a port that had only to answer goes on (R340). -/
def State.payResync (s : State) (d : Nat) : State :=
  if (s.port d).resync then s.sendResync d else ((s.sendResync d).resend d).flushPort d

/-- The neighbour's RESYNC (R340): the port is in its state again, this end answers with its own unless it has sent it, and sends
again from the other end's LACC + 1 before any newer packet. -/
def State.takeResync (s : State) (d : Nat) (lacc : W32) : State :=
  let p := s.port d
  let s := s.setPort d { (p.free lacc).1 with resync := false, guyLast := none }
  let s := if p.state = .parked then s.portState d (if p.before.detours then p.before else .up) else s
  let s := if p.resync && !p.owes then s else s.sendResync d
  ((s.resend d).flushPort d).sweepPorts

/-- A RESYNC must wait: an image of this die is being written, or an image that holds the port's record is still to be applied
(R149, R340). -/
def State.resyncWaits (s : State) (d : Nat) (guy : Option (Nat × Nat)) : Bool :=
  (guy.all fun g => decide (2 ≤ g.2)) && (s.holdsPorts || (s.port d).swapped)

/-- So must the neighbour's training; one for another job passes what an image of this die holds. -/
def State.trainWaits (s : State) (d : Nat) (otherJob : Bool) : Bool := s.holdsPorts || (!otherJob && (s.port d).swapped)

/-- A port trains with fresh keys, and owes a resync (R340). -/
def State.retrain (s : State) (d : Nat) : State :=
  let p := s.port d
  (s.setPort d { p with rekey := false, guyLast := none, resync := true, owes := false, swapped := false }).portState d .train

/-- A port whose link goes over to another job trains afresh (R340): both ends begin their sequence numbers again, and what the
port holds, unless an image has saved it, is given up (DESIGN CHOICE, log 47). -/
def State.freshPort (s : State) (d : Nat) : State :=
  let p := s.port d
  let left := if p.swapped then [] else p.replay ++ p.waiting
  let s := s.setPort d { p with
    replay := [], waiting := [], rx := [], guyLast := none, rekey := false, detourRekey := false, resync := false, owes := false,
    lsent := 0, lackd := 0, lacc := 0 }
  left.foldl State.giveUp (s.portState d .train)

/-- PARKACK (R339): the neighbour's answer to this die's PARK: what its LACC acknowledges is freed, and the port is
PARKED. The neighbour's RESYNC, which carries its counts as well, its training of a parked link, and this end's own RESYNC
once a frame reaches the other end again (`nat d`) come under this row too (R340; DESIGN CHOICE, log 47). -/
def execParkack (s : State) : Host.Outcome State Fault Refusal :=
  match s.arg with
  | .park d via guy lsent lackd lacc nctr tagOk =>
    if d < 13 ∧ (guy.isSome ∨ (s.port d).asked = true) then
      s.wordEvent d via guy nctr tagOk (.parkAck lsent lackd lacc) fun s =>
        if (s.port d).asked then ((s.setPort d ((s.port d).free lacc).1).park d).sweepPorts else s
    else .next s
  | .resync d via guy lsent lacc nctr tagOk =>
    if d < 13 ∧ s.resyncWaits d guy = false ∧ ((s.port d).state = .parked ∨ (s.port d).resync = true ∨ guy.isSome) then
      s.wordEvent d via guy nctr tagOk (.resync lsent lacc) fun s =>
        if (s.port d).state = .parked ∨ (s.port d).resync = true then s.takeResync d lacc else s
    else .next s
  | .trains d otherJob =>
    if d < 13 ∧ (s.port d).state = .parked ∧ s.trainWaits d otherJob = false then
      .next (if otherJob then s.freshPort d else s.retrain d)
    else .next s
  | .nat d => .next (if s.resyncDue d then s.payResync d else s)
  | _ => .next s

/-- The other end of a link is asked to park: by PARK on the link while that carries control frames, and else over its guyline.
One that no frame reaches is PARKED at once (R339). -/
def State.askPark (s : State) (d : Nat) : State :=
  let p := s.port d
  if p.state = .parked then s
  else if p.state = .up ∨ p.state = .stopped ∨ s.guyReady d = true then
    (s.setPort d { p with asked := true, guyBefore := s.guyUsed d }).sendWord d .park
  else s.park d

/-- A capture parks every port (R339). -/
def State.parkAll (s : State) : State := (List.range 13).foldl (fun s d => s.askPark d) s

/-- Every port is PARKED. -/
def State.portsParked (s : State) : Bool := (List.range 13).all fun d => decide ((s.port d).state = .parked)

/-- A port that was asked to park and can be reached no more is PARKED (R339). -/
def State.parkRest (s : State) : State :=
  (List.range 13).foldl (fun s d =>
    let p := s.port d
    if p.state = .parked ∨ p.state = .up ∨ p.state = .stopped ∨ s.guyReady d = true then s else s.park d) s

/-- A port of a resumed die (R340): one that faces another link, or whose record shows STOPPED or a rekey, trains; any other
sends RESYNC on the same link, or over its guyline in its state again, and waits for the neighbour's; one that no frame reached
is in its state again. -/
def State.resync (s : State) (d : Nat) (otherLink : Bool) : State :=
  let p := s.port d
  if p.state ≠ .parked then (if p.asked then (s.setPort d { p with asked := false }).sendResync d else s)
  else if otherLink || p.rekey || decide (p.before = .stopped) then s.retrain d
  else if p.before = .up ∨ p.guyBefore = true then
    let s := s.setPort d { p with resync := true, guyLast := none }
    ((if p.before = .up then s else s.portState d p.before).sendResync d).dropStuck d
  else (s.portState d p.before).dropStuck d

/-- Every port resyncs. -/
def State.resyncAll (s : State) (otherLink : Bool) : State :=
  (List.range 13).foldl (fun s d => s.resync d otherLink) s

/-- After a buddy capture every port is in its state again, with no resync on its unchanged link (R345); a neighbour that was
parked learns of it by RESYNC. -/
def State.unparkAll (s : State) : State :=
  let parked := (List.range 13).filter fun d => decide ((s.port d).state = .parked)
  let s := parked.foldl (fun s d => s.portState d (s.port d).before) s
  (parked.foldl (fun s d =>
    (if (s.port d).state = .up || (s.port d).guyBefore then s.sendResync d else s).flushPort d) s).sweepPorts

end Sys2Proof.Machine
end

