-- ==== Sys2Proof/Machine/Copy.lean ====
section
/-! DEFINITION. The energy charge, the copy engines and their slots of class 0xB, zero-mask packing, and paged windows with
their pager's answers (R83 to R110, R260 to R267, R312, R315). -/

namespace Sys2Proof.Machine

/-! ## The energy charge (R315) -/

/-- A start with charge `q` may proceed. -/
def Ctl.mayCharge (c : Ctl) (q : Nat) : Bool := decide (q = 0) || decide (q ≤ c.enrsv.toNat) || decide (0 < c.enacct.toInt)

/-- The charge of a start that proceeds. -/
def State.charge (s : State) (q : Nat) : State :=
  let c := s.ctl
  if q ≤ c.enrsv.toNat then { s with ctl.enrsv := c.enrsv - BitVec.ofNat 64 q }
  else { s with ctl := { c with enacct := c.enacct - (BitVec.ofNat 64 q - c.enrsv), enrsv := 0 } }

/-- Units of 256 bytes or part (R312). -/
def units (n : Nat) : Nat := (n + 255) / 256

/-! ## Zero-mask packing (R84 to R86) -/

/-- Unit `u` of a block. -/
def blockUnit (blk : List Byte) (u : Nat) : List Byte := (blk.drop (8 * u)).take 8

/-- The units of a block that are not zero. -/
def keptUnits (blk : List Byte) : List Nat := (List.range 32).filter fun u => (blockUnit blk u).any (· != 0)

/-- pack_block of R85: the slot, and whether it overflowed. -/
def packBlock (blk : List Byte) (size : Nat) : List Byte × Bool :=
  let kept := keptUnits blk
  let head (tag : Byte) : List Byte :=
    leBytes 4 ((kept.map (2 ^ ·)).sum) ++ [tag, BitVec.ofNat 8 kept.length] ++ leBytes 2 (size / 32) ++ List.replicate 24 0
  if 32 + 8 * kept.length ≤ size then
    (head 1 ++ kept.flatMap (blockUnit blk) ++ List.replicate (size - 32 - 8 * kept.length) 0, false)
  else (head 2 ++ List.replicate (size - 32) 0, true)

/-- unpack_block of R86: the block, or `none` for a data fault. -/
def unpackBlock (slot : List Byte) (size : Nat) : Option (List Byte) :=
  let mask := leNat (slot.take 4)
  let kept := (List.range 32).filter fun u => mask.testBit u
  let c := (slot.getD 5 0).toNat
  if slot.getD 4 0 ≠ 1 ∨ c ≠ kept.length ∨ leNat ((slot.drop 6).take 2) ≠ size / 32 ∨
      ((slot.drop 8).take 24).any (· != 0) = true ∨ size < 32 + 8 * c then none
  else some ((List.range 32).flatMap fun u =>
    match kept.idxOf? u with
    | some j => (slot.drop (32 + 8 * j)).take 8
    | none => List.replicate 8 0)

/-! ## Issue (R260 to R266) -/

/-- The queue of a copy engine. -/
def State.copyQueue (s : State) (i : Nat) : List CopyCmd := vget s.eng.copy i []

/-- A command for engine `i` must wait in the issue buffer (R163). -/
def State.copyBuffers (s : State) (i : Nat) : Bool :=
  decide (32 ≤ (s.copyQueue i).length) || s.eng.issueBuf.any fun x => decide (x.1 = i)

/-- The bundle of a copy command stalls: the issue buffer is full (R163). -/
def State.copyFull (s : State) : Bool := decide (8 ≤ s.eng.issueBuf.length)

/-- A copy command takes its number and enters the queue or the issue buffer (R161, R163). -/
def State.postCopy (s : State) (i : Nat) (op : CopyOp) (flag : Option (Nat × W64)) : State :=
  let r := s.takeNumber i
  let c : CopyCmd := { num := r.2, pol := s.ctl.pol1, op := op, flag := flag, started := false, tries := 0, pos := 0,
                       acks := 0, flagSent := false, stalled := false, stallAt := 0, stallCause := 0, status := none,
                       bad := 0, kept := [] }
  if s.copyBuffers i then { r.1 with eng.issueBuf := s.eng.issueBuf ++ [(i, c)] }
  else { r.1 with eng.copy := vset s.eng.copy i (s.copyQueue i ++ [c]) }

/-- Staging register `i` of a group that begins at e E. -/
def State.stage (s : State) (e : BitVec 4) (i : Nat) : Nat := (s.regs.re (e.toNat + i)).toNat

/-- A limit of a form (R261). -/
def limitFault (ok : Bool) : Option SFault := if ok then none else some (.illegal 0xA)

/-- The first fault of a list. A command lists the ranges of its source, its destination and its flag in this order, an
exchange its buffers in the order of their registers (DESIGN CHOICE, log 52). -/
def firstFault : List (Option SFault) → Option SFault
  | [] => none
  | some f :: _ => some f
  | none :: r => firstFault r

/-- The entry that an address matches, for WFINFO. -/
def State.entryOf (s : State) (a : Nat) : Option Nat := if region a = .window then s.lookup a else none

/-- The fault of a flag address (R116, R264): its own lookup, then its alignment and its target. -/
def State.flagFault (s : State) (agent fa : Nat) (target : Option (Option (BitVec 13))) : Option SFault :=
  match s.copyFault agent fa 8 false true with
  | some f => some f
  | none =>
    let ok := decide (fa % 8 = 0) && match target with
      | some t => decide (s.flagTarget fa = some t)
      | none => (s.flagTarget fa).isSome
    if ok then none else some (.window fa 0x6 agent (s.entryOf fa) true)

/-- The flag of a form with FL (R262). -/
def State.flagOf (s : State) (e : BitVec 4) (f : BitVec 1) (i : Nat) : Option (Nat × W64) :=
  if f = 1 then some (s.stage e i, s.regs.re (e.toNat + i + 1)) else none

/-- The flag's fault, when there is one. -/
def State.flFault (s : State) (agent : Nat) (flag : Option (Nat × W64)) (dst : Nat) : Option SFault :=
  match flag with
  | none => none
  | some (fa, _) => s.flagFault agent fa (some (s.destTarget dst))

/-- A copy slot. -/
def State.copySlot (s : State) (g u : BitVec 4) (faults : List (Option SFault)) (op : CopyOp) (flag : Option (Nat × W64)) :
    Host.Outcome State Fault Refusal :=
  s.stallSlot (s.copyFull) (s.slot g (firstFault faults) fun s => s.postCopy u.toNat op flag)

/-- Length limits of cpy and cfill (R262). -/
def lenOk (n : Nat) : Bool := decide (8 ≤ n) && decide (n ≤ 2 ^ 32) && decide (n % 8 = 0)

/-- Length limits of the small remote forms (R262). -/
def smallOk (n : Nat) : Bool := decide (8 ≤ n) && decide (n ≤ 256) && decide (n % 8 = 0)

/-- A 32-bit field as a signed number. -/
def int32 (x : Nat) : Int := (BitVec.ofNat 32 x).toInt

/-- An address from a signed sum, modulo 2^64. -/
def addrOf (x : Int) : Nat := (x % 2 ^ 64).toNat

/-- Lowest byte and length of a strided footprint (R263). -/
def footprint (base : Nat) (stride : Int) (rows rb : Nat) : Nat × Nat :=
  let span := stride * ((rows : Int) - 1)
  (addrOf (base + min 0 span), span.natAbs + rb)

/-- cpy: e E source, e E+1 destination, e E+2 length (R262, R263). -/
def execCpy (g u e : BitVec 4) (f : BitVec 1) (s : State) : Host.Outcome State Fault Refusal :=
  let ag := u.toNat + 1
  let src := s.stage e 0
  let dst := s.stage e 1
  let n := s.stage e 2
  let flag := s.flagOf e f 3
  s.copySlot g u
    [limitFault (lenOk n && decide (src % 8 = 0) && decide (dst % 8 = 0)), s.copyFault ag src n true false,
     s.copyFault ag dst n false true, s.flFault ag flag dst]
    (.copy src dst 1 n 0 0) flag

/-- cpy2: rows with strides (R262, R263). -/
def execCpy2 (g u e : BitVec 4) (f : BitVec 1) (s : State) : Host.Outcome State Fault Refusal :=
  let ag := u.toNat + 1
  let src := s.stage e 0
  let dst := s.stage e 1
  let rb := s.stage e 2 % 2 ^ 32
  let rows := s.stage e 2 / 2 ^ 32 + 1
  let ss := int32 (s.stage e 3)
  let ds := int32 (s.stage e 3 / 2 ^ 32)
  let flag := s.flagOf e f 4
  let fs := footprint src ss rows rb
  let fd := footprint dst ds rows rb
  s.copySlot g u
    [limitFault (decide (8 ≤ rb) && decide (rb ≤ 2 ^ 24) && decide (rb % 8 = 0) && decide (rows ≤ 65536) &&
       decide (src % 8 = 0) && decide (dst % 8 = 0) && decide (ss % 8 = 0) && decide (ds % 8 = 0)),
     s.copyFault ag fs.1 fs.2 true false, s.copyFault ag fd.1 fd.2 false true, s.flFault ag flag dst]
    (.copy src dst rows rb ss ds) flag

/-- The limits of cpyz and cpyx (R83). -/
def packOk (ws sram n size : Nat) : Bool :=
  decide (1 ≤ n) && decide (n ≤ 65536) && decide (ws % 256 = 0) && inWs ws (256 * n) && decide (sram % 32 = 0) &&
  inSram sram (size * n)

/-- cpyz: a compressing copy (R83, R85, R262). -/
def execCpyz (g u e p : BitVec 4) (s : State) : Host.Outcome State Fault Refusal :=
  let size := 32 * p.toNat
  s.copySlot g u [limitFault (packOk (s.stage e 0) (s.stage e 1) (s.stage e 2) size)]
    (.pack (s.stage e 0) (s.stage e 1) (s.stage e 2) size) none

/-- cpyx: an expanding copy (R83, R86, R262). -/
def execCpyx (g u e p : BitVec 4) (s : State) : Host.Outcome State Fault Refusal :=
  let size := 32 * p.toNat
  s.copySlot g u [limitFault (packOk (s.stage e 1) (s.stage e 0) (s.stage e 2) size)]
    (.unpack (s.stage e 0) (s.stage e 1) (s.stage e 2) size) none

/-- cfill: a 64-bit pattern (R262, R263). -/
def execCfill (g u e : BitVec 4) (f : BitVec 1) (s : State) : Host.Outcome State Fault Refusal :=
  let ag := u.toNat + 1
  let dst := s.stage e 0
  let n := s.stage e 1
  let flag := s.flagOf e f 3
  s.copySlot g u
    [limitFault (lenOk n && decide (dst % 8 = 0)), s.copyFault ag dst n false true, s.flFault ag flag dst]
    (.fill dst n (s.regs.re (e.toNat + 2))) flag

/-- The fault of a small remote operation's window side (R28, R265): only a peer entry, and only within the load-store
domain when `near`. An entry of another kind, or out of the domain, has cause 0x6 whatever its rights (DESIGN CHOICE, log 47). -/
def State.peerFault (s : State) (agent a n : Nat) (rd wr near : Bool) : Option SFault :=
  match s.copyFault agent a n false false with
  | some (.window a c ag e _) => some (.window a c ag e wr)
  | some f => some f
  | none =>
    match s.entryOf a with
    | none => some (.window a 0x6 agent none wr)
    | some i =>
      let e := s.wentry i
      if (wKind e = 1 ∨ wKind e = 2) ∧ (near = false ∨ s.inDomain (wCoord e) = true) then s.copyFault agent a n rd wr
      else some (.window a 0x6 agent (some i) wr)

/-- The fault of a range that must lie in shared SRAM (R265). -/
def sramFault (agent a n : Nat) (write : Bool) : Option SFault :=
  if inSram a n then none else some (.window a (rangeCause a n) agent none write)

/-- rld: a small remote load into shared SRAM (R262, R265). -/
def execRld (g u e : BitVec 4) (s : State) : Host.Outcome State Fault Refusal :=
  let ag := u.toNat + 1
  let src := s.stage e 0
  let dst := s.stage e 1
  let n := s.stage e 2
  s.copySlot g u
    [limitFault (smallOk n && decide (src % 8 = 0) && decide (dst % 8 = 0)), s.peerFault ag src n true false true,
     sramFault ag dst n true]
    (.rld src dst n) none

/-- rst: a small remote store (R262, R265). -/
def execRst (g u e : BitVec 4) (f : BitVec 1) (s : State) : Host.Outcome State Fault Refusal :=
  let ag := u.toNat + 1
  let src := s.stage e 0
  let dst := s.stage e 1
  let n := s.stage e 2
  let flag := s.flagOf e f 3
  s.copySlot g u
    [limitFault (smallOk n && decide (src % 8 = 0) && decide (dst % 8 = 0)), rangeFault ag src n false,
     s.peerFault ag dst n false true true, s.flFault ag flag dst]
    (.rst src dst n) flag

/-- A remote atomic slot (R262, R265). -/
def State.ratmSlot (s : State) (g u e p : BitVec 4) (wide : Bool) : Host.Outcome State Fault Refusal :=
  let ag := u.toNat + 1
  let size := if wide then 8 else 4
  let t := s.stage e 0
  let res := s.stage e 3
  s.copySlot g u
    [limitFault (decide (t % size = 0) && decide (res % 8 = 0)), s.peerFault ag t size true true true,
     sramFault ag res 8 true]
    (.ratm p wide t (s.regs.re (e.toNat + 1)) (s.regs.re (e.toNat + 2)) res) none

/-- ratm.op.w (R265). -/
def execRatmW (g u e p : BitVec 4) (s : State) : Host.Outcome State Fault Refusal := s.ratmSlot g u e p false

/-- ratm.op.d (R265). -/
def execRatmD (g u e p : BitVec 4) (s : State) : Host.Outcome State Fault Refusal := s.ratmSlot g u e p true

/-- rred: a reduce-store to a peer of any reach (R118, R265). -/
def execRred (g u e : BitVec 4) (f : BitVec 1) (p : BitVec 4) (s : State) : Host.Outcome State Fault Refusal :=
  let ag := u.toNat + 1
  let src := s.stage e 0
  let dst := s.stage e 1
  let n := s.stage e 2
  let flag := s.flagOf e f 3
  s.copySlot g u
    [limitFault (smallOk n && decide (src % 8 = 0) && decide (dst % 8 = 0)), rangeFault ag src n false,
     s.peerFault ag dst n true true false, s.flFault ag flag dst]
    (.rred p src dst n) flag

/-- fput: a flag packet only (R264). -/
def execFput (g u e : BitVec 4) (s : State) : Host.Outcome State Fault Refusal :=
  let ag := u.toNat + 1
  let fa := s.stage e 0
  let v := s.regs.re (e.toNat + 1)
  s.copySlot g u [s.flagFault ag fa none] (.fput fa v) (some (fa, v))

/-- cfence (R266). -/
def execCfence (g u : BitVec 4) (s : State) : Host.Outcome State Fault Refusal := s.copySlot g u [] .cfence none

/-! ## Starting (R140, R163, R266, R312) -/

/-- The charge of a copy command at its start (R312). -/
def State.copyCharge (s : State) (op : CopyOp) : Nat :=
  match op with
  | .copy src dst rows rb _ _ => rows * units rb * max (s.sideRate src) (s.sideRate dst)
  | .fill dst n _ => units n * s.sideRate dst
  | .pack _ _ n _ => n
  | .unpack _ _ n _ => n
  | .cfence => 0
  | _ => 4

/-- The command that engine `i` would begin next: every earlier one has begun, none is a fence that is not complete, a
fence waits for all of them, and no copy of the queue is stalled (R100, R140, R266). -/
def State.copyNext (s : State) (i : Nat) : Option CopyCmd :=
  let q := s.copyQueue i
  let before := q.takeWhile (·.started)
  match q.drop before.length with
  | [] => none
  | c :: _ =>
    if before.any (fun b => b.stalled || b.op == .cfence) || (c.op == .cfence && !before.isEmpty) then none else some c

/-- The begun command of a number. -/
def State.findCopy (s : State) (i num : Nat) : Option CopyCmd := (s.copyQueue i).find? fun c => decide (c.num = num) && c.started

/-- A copy engine begins its next command; in a killed context the command is cancelled (R170). -/
def State.startCopy (s : State) (i : Nat) : State :=
  match s.copyNext i with
  | none => s
  | some c =>
    if s.cancels i c.num then s.mapCopy i c.num fun c => { c with started := true, status := some 0x17 }
    else if s.ctl.mayCharge (s.copyCharge c.op) then
      (s.charge (s.copyCharge c.op)).mapCopy i c.num fun c => { c with started := true }
    else s

/-- ISSUE_BUFFER_ENTER (R163): the oldest command that waits for an engine enters its queue. -/
def execIssueBufferEnter (s : State) : Host.Outcome State Fault Refusal :=
  match s.arg with
  | .nat i =>
    match s.eng.issueBuf.find? fun x => decide (x.1 = i) with
    | some (_, c) =>
      if i < 4 ∧ (s.copyQueue i).length < 32 ∧ s.halted = false then
        let buf := s.eng.issueBuf.eraseP fun x => decide (x.1 = i)
        .next { s with eng := { s.eng with copy := vset s.eng.copy i (s.copyQueue i ++ [c]), issueBuf := buf } }
      else .next s
    | none => .next s
  | _ => .next s

/-! ## Moving (R22, R98 to R101, R115 to R118, R263 to R265) -/

/-- Where the progress of an operation ends: bytes, blocks for the packing forms. -/
def CopyOp.size : CopyOp → Nat
  | .copy _ _ rows rb _ _ => rows * rb
  | .fill _ n _ => n
  | .pack _ _ n _ => n
  | .unpack _ _ n _ => n
  | .rld _ _ n => n
  | .rst _ _ n => n
  | .ratm _ _ _ _ _ _ => 1
  | .rred _ _ _ n => n
  | .fput _ _ => 0
  | .cfence => 0

/-- Source and destination addresses of the byte at a position of a copy or fill. -/
def CopyOp.at (op : CopyOp) (pos : Nat) : Nat × Nat :=
  match op with
  | .copy src dst _ rb ss ds =>
    (addrOf (src + (pos / rb : Nat) * ss + (pos % rb : Nat)), addrOf (dst + (pos / rb : Nat) * ds + (pos % rb : Nat)))
  | .fill dst _ _ => (0, dst + pos)
  | .rld src dst _ => (src, dst + pos)
  | _ => (0, 0)

/-- Bytes up to the end of an address's 256-byte block. -/
def toBlockEnd (a : Nat) : Nat := 256 - a % 256

/-- The address lies in a paged pool. -/
def State.paged (s : State) (a : Nat) : Bool := (s.entryOf a).any fun i => decide (wKind (s.wentry i) = 4)

/-- The piece that moves next from a position: up to 256 bytes of a row. Only the block ends of a paged side cut it, so that
a block of a paged pool moves whole or not at all (R22, R100); where both sides are paged and their blocks do not line up,
each cuts the other's (DESIGN CHOICE, log 48). -/
def State.piece (s : State) (op : CopyOp) (pos : Nat) : Nat :=
  let (sa, da) := op.at pos
  match op with
  | .copy _ _ _ rb _ _ =>
    let n := min (rb - pos % rb) 256
    let n := if s.paged sa then min n (toBlockEnd sa) else n
    if s.paged da then min n (toBlockEnd da) else n
  | .fill _ len _ =>
    let n := min (len - pos) 256
    if s.paged da then min n (toBlockEnd da) else n
  | _ => op.size - pos

/-- The paged-pool entry of an address that is not resident, with its state (R98). -/
def State.notResident (s : State) (a : Nat) : Option (Nat × Nat) :=
  match s.entryOf a with
  | some i => let e := s.wentry i; if wKind e = 4 ∧ wState e ≠ 0 then some (i, wState e) else none
  | none => none

/-- The page-fault record (R101). -/
def State.pageEvent (s : State) (agent cause entry va num : Nat) : Event :=
  let region := wRegion (s.wentry entry)
  s.dieEvent 0x0005 (BitVec.ofNat 8 cause) (BitVec.ofNat 8 agent) (BitVec.ofNat 16 entry) (BitVec.ofNat 8 region)
    (BitVec.ofNat 64 va) (BitVec.ofNat 64 num)

/-- A block meets a window that needs the pager (R100 to R102): the engine stalls and the fault record is emitted, or, for
a region with no pager, the runtime answers REFUSE at once. -/
def State.stallCopy (s : State) (i : Nat) (c : CopyCmd) (cause entry va : Nat) : State :=
  let t := s.pkg.residentTenant
  let s := s.lanternM 0x24 (i + 1) (BitVec.ofNat 64 va)
  let s := s.mapCopy i c.num fun c => { c with stalled := true, stallAt := entry, stallCause := cause }
  if (s.pkg.tenant t).pagers.contains (wRegion (s.wentry entry)) then s.emit t (s.pageEvent (i + 1) cause entry va c.num)
  else s.mapCopy i c.num fun c => { c with status := some 0x11 }

/-- A packet of a copy command to a peer. -/
def State.copyPacket (s : State) (i : Nat) (c : CopyCmd) (t : PType) (p : Place) (f : Packet → Packet) : State :=
  let send (k : BitVec 13) (dram : Bool) (a : Nat) : State :=
    let s := s.mapCopy i c.num fun c => { c with acks := c.acks + 1 }
    s.route (f { s.ctl.packet t k (i + 1) c.xid with dram := dram, addr := BitVec.ofNat 48 a })
  match p with
  | .peerDram k o => send k true o
  | .peerSram k a => send k false a
  | _ => s

/-- A place on another die. -/
def Place.isPeer : Place → Bool
  | .peerDram _ _ => true
  | .peerSram _ _ => true
  | _ => false

/-- Bytes of a copy reach their destination: written here or in host memory, or sent to a peer. -/
def State.deliverCopy (s : State) (i : Nat) (c : CopyCmd) (da : Nat) (bs : List Byte) : State :=
  let p := s.place da
  if p.isPeer then s.copyPacket i c .write p fun k => { k with len := bs.length, payload := bs }
  else s.writePlace p bs (srcEngine (i + 1) c.num)

/-- The bytes of a fill's piece: the pattern repeats every 8 bytes (R263). -/
def fillBytes (pat : W64) (pos n : Nat) : List Byte :=
  (List.range n).map fun j => BitVec.ofNat 8 (pat.toNat / 256 ^ ((pos + j) % 8))

/-- The next piece of a command moves: blocks in ascending order, and of two sides that are not resident the source first
(DESIGN CHOICE, log 48). A read from a peer into a paged pool asks for one block at a time; the destination's STATE is
examined when its bytes have come (R22). LEN of a read request is the number of bytes that it asks for, and IMM carries its
place in its transfer, or the operand x of an atomic, whose compare value is its payload (DESIGN CHOICE, log 8). DISCRD counts
a block of a discarded source once for each row that reads it (R110; DEDUCED, log 32). -/
def State.moveCopy (s : State) (i : Nat) (c : CopyCmd) : State :=
  let n := s.piece c.op c.pos
  let (sa, da) := c.op.at c.pos
  let go (s : State) (k : Nat) : State := s.mapCopy i c.num fun c => { c with pos := c.pos + k }
  match c.op with
  | .copy _ _ _ rb _ _ =>
    match s.notResident sa, s.notResident da with
    | some (e, 1), _ => s.stallCopy i c 1 e sa
    | _, some (e, st) => s.stallCopy i c (if st = 1 then 2 else 3) e da
    | some _, none =>
      let first := decide (sa % 256 = 0) || decide (c.pos % rb = 0)
      let s := if first then { s with ctl.discrd := satAdd32 s.ctl.discrd 1 } else s
      go (s.deliverCopy i c da (List.replicate n 0)) n
    | none, none =>
      let p := s.place sa
      if p.isPeer then
        go (s.copyPacket i c .readRequest p fun k => { k with len := n, imm := BitVec.ofNat 64 c.pos }) n
      else go (s.deliverCopy i c da (s.readPlace p n)) n
  | .fill _ _ pat =>
    match s.notResident da with
    | some (e, st) => s.stallCopy i c (if st = 1 then 2 else 3) e da
    | none => go (s.deliverCopy i c da (fillBytes pat c.pos n)) n
  | .pack src dst _ size =>
    let r := packBlock (s.load (src + 256 * c.pos) 256) size
    let s := s.storeWatched (dst + size * c.pos) r.1 (srcEngine (i + 1) c.num)
    s.mapCopy i c.num fun c => { c with pos := c.pos + 1, bad := if r.2 then c.bad + 1 else c.bad }
  | .unpack src dst _ size =>
    match unpackBlock (s.load (src + size * c.pos) size) size with
    | some blk =>
      go (s.storeWatched (dst + 256 * c.pos) blk (srcEngine (i + 1) c.num)) 1
    | none => s.mapCopy i c.num fun c => { c with pos := c.pos + 1, bad := c.bad + 1 }
  | .rld _ _ _ => go (s.copyPacket i c .readRequest (s.place sa) fun k => { k with len := n, imm := 0 }) n
  | .rst src dst len =>
    go (s.copyPacket i c .write (s.place dst) fun k => { k with len := len, payload := s.load src len }) n
  | .ratm aop wide t x cmp _ =>
    go (s.copyPacket i c .atomic (s.place t) fun k =>
      { k with
        op := aop.zeroExtend 8, len := if wide then 8 else 4, imm := x, payload := leBytes (if wide then 8 else 4) cmp.toNat }) 1
  | .rred rop src dst len =>
    let q := vget s.ctl.rsseq i 0 + 1
    let s := { s with ctl.rsseq := vset s.ctl.rsseq i q }
    go (s.copyPacket i c .reduceStore (s.place dst) fun k =>
      { k with op := rop.zeroExtend 8, len := len, rseq := q, payload := s.load src len }) n
  | _ => s

/-- The flag of a transfer: its packet follows the data, or it is written here or in host memory once the data is
performed (R116, R117, R148, R264). It comes after the data for every observer, also for one outside the entry's SCOPE, whose
order R25 leaves open (DESIGN CHOICE, log 48). -/
def State.flagCopy (s : State) (i : Nat) (c : CopyCmd) (fa : Nat) (v : W64) : State :=
  let p := s.place fa
  let s := s.mapCopy i c.num fun c => { c with flagSent := true }
  if p.isPeer then s.copyPacket i c .flag p fun k => { k with imm := v }
  else s.writePlace p (leBytes 8 v.toNat) (srcEngine (i + 1) c.num)

/-- The data of a command is all performed: none of its packets is unanswered, and none was lost. So the target writes the flag
after it, and writes none on link down (R117, R267). -/
def CopyCmd.readyForFlag (c : CopyCmd) : Bool := decide (c.acks = 0) && c.status.isNone

/-- An address that leads to another die. -/
def State.peerSide (s : State) (a : Nat) : Bool := (s.place a).isPeer

/-- The command hands packets to the network. -/
def State.sends (s : State) (c : CopyCmd) : Bool :=
  (match c.op with
   | .copy _ _ _ _ _ _ => s.peerSide (c.op.at 0).1 || s.peerSide (c.op.at 0).2
   | .fill dst _ _ => s.peerSide dst
   | .pack _ _ _ _ => false
   | .unpack _ _ _ _ => false
   | .cfence => false
   | .fput _ _ => false
   | _ => true) || c.flag.any fun f => s.peerSide f.1

/-- The command carries bytes from one peer to another: its writes enter the network as the reads are answered. -/
def State.relays (s : State) (op : CopyOp) : Bool :=
  match op with
  | .copy _ _ _ _ _ _ => s.peerSide (op.at 0).1 && s.peerSide (op.at 0).2
  | _ => false

/-- The command will hand no further packet to the network. -/
def State.handed (s : State) (c : CopyCmd) : Bool :=
  c.status.isSome || !s.sends c ||
  (decide (c.op.size ≤ c.pos) && (!s.relays c.op || decide (c.acks = 0)) && (c.flagSent || !c.flag.any fun f => s.peerSide f.1))

/-- A read from a peer into a paged pool waits for the block that it asked for last (R22). -/
def State.awaitsBlock (s : State) (c : CopyCmd) : Bool :=
  match c.op with
  | .copy _ _ _ _ _ _ => s.peerSide (c.op.at c.pos).1 && s.paged (c.op.at c.pos).2 && decide (0 < c.acks)
  | _ => false

/-- The command waits: an earlier copy of its queue is stalled, or itself (R100), or a refusal of the time away has ended a copy
that is not complete yet, which is another one (R109). A command that began before a stalled copy goes on, and may stall as well
(DESIGN CHOICE, log 48). -/
def State.copyHeld (s : State) (i : Nat) (c : CopyCmd) : Bool :=
  !c.refusedOpen && (s.refusalsOpen || (s.copyQueue i).any fun b =>
    b.stalled && (decide (b.num < c.num) || (decide (b.num = c.num) && c.status.isNone)))

/-- The command has a step of its own to make: a piece, or its flag. What has come for it lands first. Packets enter the network
in command order (R112, R118). -/
def State.copyCanMove (s : State) (i : Nat) (c : CopyCmd) : Bool :=
  c.started && c.status.isNone && !s.copyHeld i c && c.kept.isEmpty && !s.awaitsBlock c &&
  (!s.sends c || ((s.copyQueue i).all fun b => decide (c.num ≤ b.num) || s.handed b)) &&
  (decide (c.pos < c.op.size) || match c.flag with
    | some _ => !c.flagSent && c.readyForFlag
    | none => false)

/-- Data that has come for a command may land. -/
def State.copyCanLand (s : State) (i : Nat) (c : CopyCmd) : Bool := c.started && !c.kept.isEmpty && !s.copyHeld i c

/-- One packet of a command is answered. -/
def State.lessAcks (s : State) (i num : Nat) : State := s.mapCopy i num fun c => { c with acks := c.acks - 1 }

/-- The data of a read lands at its destination (R115). A block for a paged pool whose window is not resident any more does
not move: the copy stalls at it (R22, R98). A command that has failed relays nothing. -/
def State.landRead (s : State) (i : Nat) (c : CopyCmd) (pos : Nat) (bs : List Byte) : State :=
  let da := (c.op.at pos).2
  match s.notResident da with
  | some (e, st) =>
    if c.status.isSome then s
    else (s.mapCopy i c.num fun c => { c with pos := pos }).stallCopy i c (if st = 1 then 2 else 3) e da
  | none => if c.status.isSome && s.peerSide da then s else s.deliverCopy i c da bs

/-- The data of an answer lands: of a read at its place in the transfer, of an atomic in its result (R115, R265); and the packet
is answered. -/
def State.landData (s : State) (i : Nat) (c : CopyCmd) (pos : Nat) (bs : List Byte) : State :=
  (match c.op with
   | .ratm _ _ _ _ _ res => s.storeWatched res bs (srcEngine (i + 1) c.num)
   | _ => s.landRead i c pos bs).lessAcks i c.num

/-- Data comes for a command: it lands, or, while the command waits, is kept for it behind what came before (R100, R109;
DEDUCED, log 32). -/
def State.takeData (s : State) (i : Nat) (c : CopyCmd) (pos : Nat) (bs : List Byte) : State :=
  if s.copyHeld i c || !c.kept.isEmpty then s.mapCopy i c.num fun c => { c with kept := c.kept ++ [(pos, bs)] }
  else s.landData i c pos bs

/-- The oldest data kept for a command lands. -/
def State.landKept (s : State) (i : Nat) (c : CopyCmd) : State :=
  match c.kept with
  | [] => s
  | (pos, bs) :: r => (s.mapCopy i c.num fun c => { c with kept := r }).landData i c pos bs

/-- BLOCK_TRANSFER (R22): the next block of a copy moves, or its flag is sent; what has been kept for it lands first. -/
def execBlockTransfer (s : State) : Host.Outcome State Fault Refusal :=
  match s.arg with
  | .two i num =>
    match s.findCopy i num with
    | some c =>
      if s.halted = false ∧ s.copyCanMove i c = true then
        if c.pos < c.op.size then .next (s.moveCopy i c)
        else match c.flag with
          | some (fa, v) => .next (s.flagCopy i c fa v)
          | none => .next s
      else if s.halted = false ∧ s.copyCanLand i c = true then .next (s.landKept i c)
      else .next s
    | none => .next s
  | _ => .next s

/-! ## Completing (R87, R139, R267) -/

/-- A command is complete: every packet is answered, and its status is fixed or everything is moved and flagged (R139). -/
def CopyCmd.finished (c : CopyCmd) : Bool :=
  c.started && decide (c.acks = 0) &&
  (c.status.isSome || (decide (c.op.size ≤ c.pos) && !c.stalled && (c.flag.isNone || c.flagSent)))

/-- The status of a complete copy command (R87, R267). -/
def CopyCmd.endStatus (c : CopyCmd) : Byte :=
  match c.status with
  | some st => st
  | none => match c.op with
    | .pack _ _ _ _ => if 0 < c.bad then 0x01 else 0x00
    | .unpack _ _ _ _ => if 0 < c.bad then 0x12 else 0x00
    | _ => 0x00

/-- A copy command completes, or runs again under the retry policy (R87, R90, R170). -/
def State.finishCopy (s : State) (i : Nat) (c : CopyCmd) : State :=
  let st := c.endStatus
  if isError st && decide (c.pol = 1) && decide (c.tries < 3) && decide (st ≠ 0x17) then
    s.mapCopy i c.num fun c => { c with started := false, tries := c.tries + 1, pos := 0, acks := 0, flagSent := false,
                                        stalled := false, status := none, bad := 0, kept := [] }
  else
    let s := { s with eng.copy := vset s.eng.copy i ((s.copyQueue i).filter fun x => decide (x.num ≠ c.num)) }
    let s := if st = 0x01 then
        s.addOverflow i c.bad
      else s
    s.complete i c.num c.pol st

/-! ## The pager's answers (R103 to R109) -/

/-- Where an answer acts: on this die's table, on that of a job that is switched out, or on another die's (R103, R109). -/
inductive AnswerAt where
  | here
  | saved (j : Job)
  | elsewhere
deriving DecidableEq, Repr

/-- The job holds a sub-cube. -/
def Job.onDies (j : Job) : Bool :=
  match j.state with
  | .waiting => false
  | .ended _ => false
  | _ => true

/-- The job is switched out: it waits with an image, on this die or on others. -/
def Job.switchedOut (j : Job) : Bool := j.saved.isSome || (decide (j.state = .waiting) && j.image.isSome)

/-- The die that COORD names: of the job on this die, or of one that has ended here with engines that still complete its
commands; of one that is switched out; or of another of the tenant (R103, R155). Where several jobs of the tenant hold it, the
one on this die is meant, then the first that is switched out (DESIGN CHOICE, log 53). -/
def State.answerable (s : State) (t : Nat) (coord : BitVec 13) : Option AnswerAt :=
  let has (j : Job) : Bool := decide (j.tenant = t) && (coord &&& ~~~j.scmask == j.scbase)
  let ends := s.pkg.residentJob.isNone && decide (s.pkg.residentTenant = t) && (coord &&& ~~~s.ctl.scmask == s.ctl.scbase)
  let mine := decide (coord = s.ctl.diecoord)
  if ends || s.pkg.residentJob.any has then some (if mine then .here else .elsewhere)
  else match s.pkg.jobs.find? fun j => j.switchedOut && has j with
    | some j => some (if mine && j.saved.isSome then .saved j else .elsewhere)
    | none => if s.pkg.jobs.any fun j => j.onDies && has j then some .elsewhere else none

/-- The table of an answer; another die's is a free value (log 53). -/
def State.answerTable (s : State) (j : AnswerAt) : Vector WEntry 2048 :=
  match j with
  | .saved j => j.saved.getD (.replicate 2048 (0, 0))
  | .here => s.mem.wtab
  | .elsewhere => Config.foreignTable s.draws

/-- A scan image of a job holds a copy engine that is stalled on an entry: an image that is being written, or the one that the
job resumes from. -/
def State.stalledIn (s : State) (j : Job) (whole : Bool) (entry : Nat) : Bool :=
  s.pkg.images.any fun i => decide (i.kind = 2) && decide (i.jobid = BitVec.ofNat 32 j.id) && (i.complete == whole) &&
    (!whole || j.image.any fun x => decide (x = (2, i.serial))) &&
    i.eng.copy.toList.any fun q => q.any fun c => c.stalled && decide (c.stallAt = entry) && c.status.isNone

/-- PGRES after a rejected answer (R103). -/
def State.rejectAnswer (s : State) (t : Nat) : State :=
  let x := s.pkg.tenant t
  let n := min (x.pgres.toNat / 256 + 1) (2 ^ 24 - 1)
  s.setTenant t { x with pgres := BitVec.ofNat 32 (1 + n * 256) }

/-- PGRES after an accepted answer (R103). -/
def State.acceptAnswer (s : State) (t : Nat) : State :=
  let x := s.pkg.tenant t
  s.setTenant t { x with pgres := BitVec.ofNat 32 (x.pgres.toNat / 256 * 256) }

/-- Change STATE, and FRAME when given, of an entry (R23). -/
def setState (e : WEntry) (st : Nat) (frame : Option Nat) : WEntry :=
  (BitVec.ofNat 64 (e.1.toNat - wState e * 2 ^ 14 + st * 2 ^ 14),
   match frame with
   | some f => BitVec.ofNat 64 (e.2.toNat - wOff e + f)
   | none => e.2)

/-- A REFUSE of an entry on which an engine is stalled is held for the resume of a job (R105, R109). -/
def Job.refuse (j : Job) (stalled : Bool) (op entry : Nat) : Job :=
  if op = 2 ∧ stalled = true then { j with refused := entry :: j.refused } else j

/-- The effect of an accepted answer on the table, or as a pending refusal: of a job that is switched out, or whose scan image
is being written. -/
def State.applyAnswer (s : State) (j : AnswerAt) (entry op : Nat) (frame : Nat) : State :=
  let e := vget (s.answerTable j) entry (0, 0)
  let e' := if op = 1 then setState e 0 (some frame) else if op = 3 then setState e 2 none
    else if op = 4 then setState e 1 none else e
  match j with
  | .saved j =>
    let j' := { j with saved := some (vset (s.answerTable (.saved j)) entry e') }
    { s with pkg := s.pkg.setJob (j'.refuse (s.stalledIn j true entry) op entry) }
  | .here =>
    let s := { s with mem.wtab := vset s.mem.wtab entry e' }
    match s.pkg.residentJob with
    | some j => { s with pkg := s.pkg.setJob (j.refuse (s.stalledIn j false entry) op entry) }
    | none => s
  | .elsewhere => s

/-- The stalled copies of an entry of this die: retried after SUPPLY; after REFUSE they complete with page unavailable, and
hold their queue until they have. -/
def State.releaseStalls (s : State) (entry : Nat) (refuse : Bool) : State :=
  (List.range 4).foldl (fun s i =>
    { s with eng.copy := vset s.eng.copy i ((s.copyQueue i).map fun c =>
        if c.stalled && decide (c.stallAt = entry) && c.status.isNone then
          (if refuse then { c with status := some 0x11 } else { c with stalled := false })
        else c) }) s

/-- A pager's answer with operation `op` (R103): rejected, or carried out on the named entry. Every bit of word 1 but FRAME of
a SUPPLY is reserved, and an answer for a region that has no registered pager is rejected too (DESIGN CHOICE, log 48). Of another
die's table the entry is a free value (log 53). -/
def State.pagerAnswer (s : State) (op : Nat) : Host.Outcome State Fault Refusal :=
  match s.arg with
  | .pgans t w0 w1 =>
    let opw := w0.toNat / 2 ^ 24 % 256
    let listed := decide (1 ≤ opw) && decide (opw ≤ 4)
    -- an answer with a code that is not listed stands under any of the four rows
    if listed && decide (opw ≠ op) then .next s
    else
      let x := s.pkg.tenant t
      let s := s.setTenant t { x with pgans0 := w0, pgans1 := w1 }
      let coord : BitVec 13 := w0.truncate 13
      let entry := w0.toNat / 2 ^ 13 % 2 ^ 11
      let frame := w1.toNat / 2 ^ 21 % 2 ^ 15 * 2 ^ 21
      match s.answerable t coord with
      | none => .next (s.rejectAnswer t)
      | some j =>
        let e := vget (s.answerTable j) entry (0, 0)
        let s := if j = .elsewhere then { s with draws := s.draws + 1 } else s
        let reserved := decide (w1.toNat ≠ (if opw = 1 then frame else 0))
        let bad := !listed || x.resetting || reserved ||
          !wV e || decide (wKind e ≠ 4) || !x.pagers.contains (wRegion e) ||
          (decide (opw = 1) && (decide (frame % wSize e ≠ 0) || !dramRangeOk frame (wSize e)))
        if bad then .next (s.rejectAnswer t)
        else
          let s := (s.acceptAnswer t).applyAnswer j entry opw frame
          .next (if j = .here ∧ (opw = 1 ∨ opw = 2) then s.releaseStalls entry (opw == 2) else s)
  | _ => .next s

/-- SUPPLY (R104). -/
def execSupply (s : State) : Host.Outcome State Fault Refusal := s.pagerAnswer 1
/-- REFUSE (R105). -/
def execRefuse (s : State) : Host.Outcome State Fault Refusal := s.pagerAnswer 2
/-- DISCARD (R103, R107). -/
def execDiscard (s : State) : Host.Outcome State Fault Refusal := s.pagerAnswer 3
/-- RECLAIM (R103, R107). -/
def execReclaim (s : State) : Host.Outcome State Fault Refusal := s.pagerAnswer 4

/-- PGRES_READ (R103): the read value is answered, and the count of rejections restarts. -/
def execPgresRead (s : State) : Host.Outcome State Fault Refusal :=
  match s.arg with
  | .nat t =>
    let x := s.pkg.tenant t
    let s := s.setTenant t { x with pgres := x.pgres &&& 0xFF#32 }
    .next { s with pkg.answers := x.pgres.zeroExtend 64 :: s.pkg.answers }
  | _ => .next s

end Sys2Proof.Machine
end

