-- ==== Sys2Proof/Machine/Exchange.lean ====
section
/-! DEFINITION. The exchange queues and their slots of class 0xC: pairwise exchanges, combines, shifts, armed sends and
barriers (R268 to R276). -/

namespace Sys2Proof.Machine

/-! ## Halves (R268) -/

/-- A half has nothing left to do: it has ended, or is sent and acknowledged, or has landed (R139, R269). -/
def Half.finished (h : Half) : Bool := h.failed || (h.done && (!h.send || decide (h.open_ = 0)))

/-- The half has begun: its command has, and in a barrier every lower dimension is finished (R276). -/
def XCmd.begun (c : XCmd) (h : Half) : Bool :=
  c.started && (!c.barrier || c.halves.all fun x => decide (h.dim ≤ x.dim) || x.finished)

/-- Match `m` has been given to a half of the direction whose count stands at `count` (R268). -/
def issuedMatch (count m : W32) : Bool := decide ((count - m).toNat < 2 ^ 31)

/-- Change the commands and arms of a queue that bear a number. -/
def State.mapX (s : State) (q num : Nat) (f : XCmd → XCmd) : State :=
  let x := s.xqueue q
  let g (c : XCmd) : XCmd := if c.num = num then f c else c
  s.setXq q { x with queue := x.queue.map g, arms := x.arms.map g }

/-- Change a half of a command. -/
def XCmd.mapHalf (c : XCmd) (send : Bool) (j : Nat) (m : W32) (f : Half → Half) : XCmd :=
  { c with halves := c.halves.map fun h => if h.is send j m then f h else h }

/-- The command or arm that holds a half. -/
def XQueue.holder (x : XQueue) (send : Bool) (j : Nat) (m : W32) : Option (XCmd × Half) :=
  (x.queue ++ x.arms).findSome? fun c => (c.halves.find? fun h => h.is send j m).map fun h => (c, h)

/-- A packet of a queue to the partner on logical dimension `j`. -/
def Ctl.xpacket (c : Ctl) (q j : Nat) (xid : W16) (info : PMeta) : Packet :=
  { c.packet .exchangeData (c.partner j) (q + 5) xid with info := info }

/-- Identifier of an exchange command's packets in its present run. -/
def XCmd.xid (c : XCmd) : W16 := xidOf c.num c.tries

/-- ABORT of match `m` (R268, R270, R275). -/
def State.abortMatch (s : State) (q j : Nat) (m : W32) (toSend : Bool) (st : Byte) : State :=
  s.route (s.ctl.xpacket q j (xidOf 0 0) (.abort q m toSend st))

/-- Offsets and lengths of the packets of a buffer: 256 bytes each, one empty packet for length 0 (R268, R276). -/
def pieces256 (len : Nat) : List (Nat × Nat) :=
  if len = 0 then [(0, 0)] else (List.range ((len + 255) / 256)).map fun i => (256 * i, min 256 (len - 256 * i))

/-- A send half sends its buffer to the receive address of its partner (R268). -/
def State.sendHalf (s : State) (q num : Nat) (h : Half) (raddr : Nat) : State :=
  let ps := pieces256 h.len
  let x := s.xqueue q
  let xid := ((((x.queue ++ x.arms).find? fun c => decide (c.num = num)).map XCmd.xid).getD (xidOf num 0))
  let s := s.mapX q num fun c => c.mapHalf true h.dim h.m fun h =>
    { h with done := true, open_ := ps.length, ready := some (h.len, raddr) }
  ps.foldl (fun s (off, n) =>
    s.route { s.ctl.xpacket q h.dim xid (.exch q h.m off (decide (h.len ≤ off + n))) with
      addr := BitVec.ofNat 48 (raddr + off), len := n, payload := s.load (h.addr + off) n }) s

/-- READY reaches a send half that has begun: the length check, then the data (R268). -/
def State.takeReady (s : State) (q num : Nat) (h : Half) (len raddr : Nat) : State :=
  if len = h.len then s.sendHalf q num h raddr
  else
    let s := s.setXq q ((s.xqueue q).failHalf true h.dim h.m 0x15)
    s.abortMatch q h.dim h.m false 0x15

/-- A half begins: an ABORT that came before it ends it; a receive sends READY, a send takes a READY that has come. -/
def State.beginHalf (s : State) (q num : Nat) (h : Half) : State :=
  let x := s.xqueue q
  match x.aborts.find? fun a => decide (a.1 = h.dim) && decide (a.2.1 = h.m) && (a.2.2.1 == h.send) with
  | some a => s.setXq q ({ x with aborts := x.aborts.erase a }.failHalf h.send h.dim h.m a.2.2.2)
  | none =>
    if h.send then
      match x.readies.find? fun r => decide (r.dim = h.dim) && decide (r.m = h.m) with
      | some r => (s.setXq q { x with readies := x.readies.erase r }).takeReady q num h r.len r.addr
      | none => s
    else s.route (s.ctl.xpacket q h.dim (xidOf num 0) (.ready q h.m h.len h.addr))

/-- The halves of a command that begin with it, or in a barrier with the end of a lower dimension. -/
def XCmd.firstHalves (c : XCmd) (above : Option Nat) : List Half :=
  let up := c.halves.filter fun h => match above with
    | none => true
    | some d => decide (d < h.dim)
  if c.barrier then up.filter fun h => up.all fun x => decide (h.dim ≤ x.dim) else up

/-- A barrier goes on to its next dimension when both halves of dimension `j` are finished (R276). -/
def State.nextBarrier (s : State) (q num j : Nat) : State :=
  match (s.xqueue q).queue.find? fun c => decide (c.num = num) && c.barrier && c.status.isNone with
  | some c =>
    if c.halves.all fun h => decide (j < h.dim) || h.finished then
      (c.firstHalves (some j)).foldl (fun s h => s.beginHalf q num h) s
    else s
  | none => s

/-! ## Issue (R260, R261, R268, R271 to R276) -/

/-- A half asked for by a slot: direction, dimension, address, length. -/
structure HalfSpec where
  send : Bool
  dim : Nat
  addr : Nat
  len : Nat
deriving DecidableEq, Repr

/-- Give halves their match numbers in order (R268). -/
def XQueue.takeMatches : XQueue → List HalfSpec → XQueue × List Half
  | x, [] => (x, [])
  | x, p :: r =>
    let old := if p.send then vget x.sendCount p.dim 0 else vget x.recvCount p.dim 0
    let x := if p.send then { x with sendCount := vset x.sendCount p.dim (old + 1) }
      else { x with recvCount := vset x.recvCount p.dim (old + 1) }
    let t := x.takeMatches r
    (t.1, { send := p.send, dim := p.dim, m := old + 1, addr := p.addr, len := p.len, ready := none, open_ := 0,
            done := false, failed := false } :: t.2)

/-- An exchange command takes its TLX number and match numbers and enters its queue, or the arm table (R268, R269, R275). -/
def State.postX (s : State) (q : Nat) (specs : List HalfSpec) (combine : Option Combine) (dim : Nat)
    (trigger : Option (Nat × Nat)) (barrier : Bool) : State × Nat :=
  let r := s.takeNumber (q + 4)
  let t := (s.xqueue q).takeMatches specs
  let c : XCmd := { num := r.2, pol := s.ctl.pol1, halves := t.2, combine := combine, dim := dim, started := false,
                    tries := 0, elapsed := 0, status := none, trigger := trigger, disarmed := none,
                    barrier := barrier, cancelled := false }
  (r.1.setXq q (if trigger.isSome then { t.1 with arms := t.1.arms ++ [c] } else { t.1 with queue := t.1.queue ++ [c] }), r.2)

/-- A full queue of 16 (R269). -/
def State.xFull (s : State) (q : Nat) : Bool := decide (16 ≤ (s.xqueue q).queue.length)

/-- A full arm table of 16 (R275). -/
def State.armFull (s : State) (q : Nat) : Bool := decide (16 ≤ (s.xqueue q).arms.length)

/-- Lengths of an exchange: multiples of 32 from 32 to 2^25. -/
def xlenOk (n : Nat) : Bool := decide (32 ≤ n) && decide (n ≤ 2 ^ 25) && decide (n % 32 = 0)

/-- A buffer of xe Q lies wholly in WG Q, at a multiple of 32; any other address is a window fault (R43). -/
def groupFault (q a n : Nat) (write : Bool) : Option SFault :=
  let base := 0x10000000 + q * 0x2000000
  if a % 32 = 0 ∧ base ≤ a ∧ a + n ≤ base + 0x2000000 then none else some (.window a 0x6 (q + 5) none write)

/-- The faults of the halves of one command (R261, R268): lengths, overlap, then the buffers in order. -/
def halfFaults (q n : Nat) (specs : List HalfSpec) : List (Option SFault) :=
  let clash := specs.any fun x => x.send && specs.any fun y => !y.send && meets x.addr x.len y.addr y.len
  [limitFault (xlenOk n), limitFault (!clash)] ++ specs.map fun x => groupFault q x.addr x.len (!x.send)

/-- An illegal dimension: at or above k, whatever the guard (R157). -/
def State.dimCause (s : State) (j : Nat) : Option Nat := if s.ctl.dims ≤ j then some 0xA else none

/-- A slot of one exchange command. -/
def State.xSlot (s : State) (g : BitVec 4) (q n : Nat) (specs : List HalfSpec) (combine : Option Combine) (dim : Nat) :
    Host.Outcome State Fault Refusal :=
  s.stallSlot (s.xFull q) (s.slot g (firstFault (halfFaults q n specs)) fun s =>
    (s.postX q specs combine dim none false).1)

/-- xchg: a send of e E and a receive into e E+1 (R271). -/
def execXchg (g u e : BitVec 4) (q : BitVec 2) (s : State) : Host.Outcome State Fault Refusal :=
  let n := s.stage e 2
  s.encSlot (s.dimCause u.toNat) (s.xSlot g q.toNat n
    [⟨true, u.toNat, s.stage e 0, n⟩, ⟨false, u.toNat, s.stage e 1, n⟩] none u.toNat)

/-- Bytes of an element of FMT (R271). -/
def xWidth (f : BitVec 3) : Nat := if f = 1 ∨ f = 2 then 2 else 4

/-- Bytes of the count array of a length: one n8 per element, or one n16 per block of 32 elements (R272). -/
def countBytes (f : BitVec 3) (ns : BitVec 2) (len : Nat) : Nat :=
  if ns = 1 then len / xWidth f else if ns = 2 then 2 * (len / (32 * xWidth f)) else 0

/-- xcmb (R272). -/
def execXcmb (g u e : BitVec 4) (q : BitVec 2) (f : BitVec 3) (o n : BitVec 2) (s : State) :
    Host.Outcome State Fault Refusal :=
  let j := u.toNat
  let a := s.stage e 0
  let r := s.stage e 1
  let len := s.stage e 2
  let c := s.stage e 3
  let cr := s.stage e 4
  let cn := countBytes f n len
  let data : List HalfSpec := [⟨true, j, a, len⟩, ⟨false, j, r, len⟩]
  let specs := if n = 0 then data else data ++ [⟨true, j, c, cn⟩, ⟨false, j, cr, cn⟩]
  let faults := limitFault (xlenOk len && (n != 2 || decide (len % (32 * xWidth f) = 0))) :: halfFaults q.toNat len specs
  s.encSlot (s.dimCause j) (s.stallSlot (s.xFull q.toNat) (s.slot g (firstFault faults) fun s =>
    (s.postX q.toNat specs (some { fmt := f, op := o, ns := n, a := a, r := r, len := len, c := c, cr := cr }) j none false).1))

/-- sendif: a send half when RANK bit N, or guard g N, is 1, else a receive half; the other register is not checked
(R271). -/
def execSendif (g u e : BitVec 4) (q : BitVec 2) (sel : BitVec 1) (n : BitVec 4) (s : State) :
    Host.Outcome State Fault Refusal :=
  let on := if sel = 1 then s.regs.rg n else s.ctl.rank.getLsbD n.toNat
  let len := s.stage e 2
  let spec : HalfSpec := if on then ⟨true, u.toNat, s.stage e 0, len⟩ else ⟨false, u.toNat, s.stage e 1, len⟩
  let enc := match s.dimCause u.toNat with
    | some c => some c
    | none => if sel = 0 then s.dimCause n.toNat else none
  s.encSlot enc (s.xSlot g q.toNat len [spec] none u.toNat)

/-- gray(i) (R273). -/
def gray (i : Nat) : Nat := i ^^^ (i / 2)

/-- Inverse Gray code over 13 bits: the xor of all right shifts. -/
def grayInv (g : Nat) : Nat := (List.range 13).foldl (fun x i => x ^^^ (g / 2 ^ i)) 0

/-- A logical mask of a staging value (R273, R274, R276): not empty, every bit below k. -/
def State.maskOk (s : State) (m : BitVec 13) : Bool := (m != 0#13) && decide (m.toNat < 2 ^ s.ctl.dims)

/-- The logical dimension on which group indices `g` and `h` differ. -/
def grayDim (m : BitVec 13) (g h : Nat) : Nat := (setBits m).getD (Nat.log2 (g ^^^ h)) 0

/-- Dimensions of the send and the receive of SHIFTG (R273). -/
def State.shiftDims (s : State) (m : BitVec 13) (down : Bool) : Nat × Nat :=
  let n := 2 ^ (setBits m).length
  let g := extract m s.ctl.rank
  let p := grayInv g
  let up := grayDim m g (gray ((p + 1) % n))
  let dn := grayDim m g (gray ((p + n - 1) % n))
  if down then (dn, up) else (up, dn)

/-- shiftg (R273). -/
def execShiftg (g e : BitVec 4) (q : BitVec 2) (d : BitVec 1) (s : State) : Host.Outcome State Fault Refusal :=
  let m : BitVec 13 := BitVec.ofNat 13 (s.stage e 3)
  let n := s.stage e 2
  let ds := s.shiftDims m (d == 1)
  let specs : List HalfSpec := [⟨true, ds.1, s.stage e 0, n⟩, ⟨false, ds.2, s.stage e 1, n⟩]
  s.stallSlot (s.xFull q.toNat) (s.slot g (firstFault (limitFault (s.maskOk m) :: halfFaults q.toNat n specs)) fun s =>
    (s.postX q.toNat specs none 0 none false).1)

/-- Members of a mask form: index, logical dimension and the two staging addresses (R274). -/
def State.members (s : State) (e : BitVec 4) (m : BitVec 13) : List (Nat × Nat × Nat × Nat) :=
  (setBits m).zipIdx.map fun (j, i) => (i, j, s.stage e (1 + 2 * i), s.stage e (2 + 2 * i))

/-- A mask form: every member is issued to its own queue (R274). -/
def State.maskSlot (s : State) (g e : BitVec 4) (combine : Nat → Nat → Nat → Option Combine) :
    Host.Outcome State Fault Refusal :=
  let m : BitVec 13 := BitVec.ofNat 13 (s.stage e 0)
  let n := s.stage e 0 / 2 ^ 32
  let ms := s.members e m
  let count := ms.length
  let specs (x : Nat × Nat × Nat × Nat) : List HalfSpec := [⟨true, x.2.1, x.2.2.1, n⟩, ⟨false, x.2.1, x.2.2.2, n⟩]
  let ok := s.maskOk m && decide (count ≤ 4) && decide (e.toNat + 2 * count ≤ 15)
  let faults := limitFault ok :: ms.flatMap fun x => halfFaults x.1 n (specs x)
  s.stallSlot (ms.any fun x => s.xFull x.1) (s.slot g (firstFault faults) fun s =>
    ms.foldl (fun s x => (s.postX x.1 (specs x) (combine x.2.2.1 x.2.2.2 n) x.2.1 none false).1) s)

/-- xchgm (R274). -/
def execXchgm (g e : BitVec 4) (s : State) : Host.Outcome State Fault Refusal := s.maskSlot g e fun _ _ _ => none

/-- xcmbm (R274). -/
def execXcmbm (g e : BitVec 4) (f : BitVec 3) (o : BitVec 2) (s : State) : Host.Outcome State Fault Refusal :=
  s.maskSlot g e fun a r n => some { fmt := f, op := o, ns := 0, a := a, r := r, len := n, c := 0, cr := 0 }

/-- xarm: arms a send with its trigger (R275). -/
def execXarm (g u e : BitVec 4) (q : BitVec 2) (c : BitVec 4) (s : State) : Host.Outcome State Fault Refusal :=
  let n := s.stage e 1
  let specs : List HalfSpec := [⟨true, u.toNat, s.stage e 0, n⟩]
  s.encSlot (s.dimCause u.toNat) (s.stallSlot (s.armFull q.toNat)
    (s.slot g (firstFault (halfFaults q.toNat n specs)) fun s =>
      (s.postX q.toNat specs none u.toNat (some (c.toNat, s.stage e 2)) false).1))

/-- xdisarm: takes a number and a queue entry; it acts at the end of its issue cycle (R275). -/
def execXdisarm (g : BitVec 4) (q : BitVec 2) (s : State) : Host.Outcome State Fault Refusal :=
  s.stallSlot (s.xFull q.toNat) (s.slot g none fun s =>
    let r := s.postX q.toNat [] none 0 none true
    r.1.later (.xdisarm g q) r.2 [])

/-- The end of an XDISARM's issue cycle: every unfired send armed before it completes with "cancelled" and sends
ABORT(cancelled) (R275). Its arm-table entry stays until XDISARM completes (R384). -/
def State.disarm (s : State) (q num : Nat) : State :=
  let victims := (s.xqueue q).arms.filter fun c => decide (c.num < num) && !c.started && c.status.isNone
  -- a completion that makes the die go on from its image leaves no arm (R170)
  victims.foldl (fun t c => if t.stream.retries ≠ s.stream.retries then t else
    let t := t.mapX q c.num fun c => { c with status := some 0x17, disarmed := some num }
    let t := c.halves.foldl (fun t h => t.abortMatch q h.dim h.m false 0x17) t
    t.complete (q + 4) c.num c.pol 0x17) s

/-- xbar: a zero-length send and receive on each dimension of the mask, dimension after dimension (R276). -/
def execXbar (g e : BitVec 4) (q : BitVec 2) (s : State) : Host.Outcome State Fault Refusal :=
  let m : BitVec 13 := BitVec.ofNat 13 (s.stage e 0)
  let specs : List HalfSpec := (setBits m).flatMap fun j => [⟨true, j, 0, 0⟩, ⟨false, j, 0, 0⟩]
  s.stallSlot (s.xFull q.toNat) (s.slot g (limitFault (s.maskOk m)) fun s => (s.postX q.toNat specs none 0 none true).1)

/-! ## Starting and firing (R269, R275, R312) -/

/-- The charge of an exchange command: 4 per 256 bytes or part of each buffer it sends (R312). -/
def XCmd.cost (c : XCmd) : Nat := ((c.halves.filter (·.send)).map fun h => 4 * units h.len).sum

/-- The next command that queue Q would begin. -/
def State.xNext (s : State) (q : Nat) : Option XCmd := (s.xqueue q).queue.find? fun c => !c.started

/-- A command begins; in a killed context it is cancelled (R170). -/
def State.beginX (s : State) (q : Nat) (c : XCmd) : State :=
  if s.cancels (q + 4) c.num then s.mapX q c.num fun c => { c.failAll 0x17 with cancelled := true }
  else
    let s := (s.charge c.cost).mapX q c.num fun c => { c with started := true, elapsed := 0 }
    (c.firstHalves none).foldl (fun s h => s.beginHalf q c.num h) s

/-- An exchange queue begins its next command. -/
def State.startX (s : State) (q : Nat) : State :=
  match s.xNext q with
  | some c => if s.cancels (q + 4) c.num || s.ctl.mayCharge c.cost then s.beginX q c else s
  | none => s

/-- An armed send fires now: its counter has reached its threshold, and every earlier arm on its (Q, j) has fired or is
cancelled (R275). -/
def State.armDue (s : State) (q : Nat) (c : XCmd) : Bool :=
  !c.started && c.status.isNone && (match c.trigger with
    | some (ctx, n) => decide (n ≤ (s.line ctx).seen.toNat)
    | none => false) &&
  !((s.xqueue q).arms.any fun x => decide (x.num < c.num) && decide (x.dim = c.dim) && !x.started && x.status.isNone)

/-- XARM_FIRE (R275, R312): the send is charged when it fires. -/
def execXarmFire (s : State) : Host.Outcome State Fault Refusal :=
  match s.arg with
  | .two q num =>
    match (s.xqueue q).arms.find? fun c => decide (c.num = num) with
    | some c =>
      if s.halted = false ∧ s.armDue q c = true ∧ (s.cancels (q + 4) c.num || s.ctl.mayCharge c.cost) = true
      then .next (s.beginX q c) else .next s
    | none => .next s
  | _ => .next s

/-! ## What arrives (R268, R270, R276) -/

/-- READY of a match (R268, R270): its send half begins to send; one that has timed out answers ABORT; any other READY
waits for its half. -/
def State.performReady (k : Packet) (s : State) : State :=
  match k.info with
  | .ready q m len addr =>
    let x := s.xqueue q
    let j := s.ctl.partnerDim k.src
    let stored := s.setXq q { x with readies := x.readies ++ [{ q := q, dim := j, m := m, len := len, addr := addr }] }
    match x.deadSend.find? fun d => decide (d.1 = j) && decide (d.2.1 = m) with
    | some d => (s.setXq q { x with deadSend := x.deadSend.erase d }).abortMatch q j m false d.2.2
    | none =>
      match x.holder true j m with
      | some (c, h) => if c.begun h && !h.failed then s.takeReady q c.num h len addr else stored
      | none => if issuedMatch (vget x.sendCount j 0) m then s else stored
  | _ => s

/-- READY. -/
def execReady (s : State) : Host.Outcome State Fault Refusal :=
  s.packetEvent (fun k => match k.info with
    | .ready _ _ _ _ => k.ptype == .exchangeData
    | _ => false) State.performReady

/-- ABORT of a match: it ends the half it names with its status; for a half that has not begun it waits (R268, R270,
R275). -/
def State.performAbort (k : Packet) (s : State) : State :=
  match k.info with
  | .abort q m toSend st =>
    let x := s.xqueue q
    let j := s.ctl.partnerDim k.src
    let stored := s.setXq q { x with aborts := x.aborts ++ [(j, m, toSend, st)] }
    match x.holder toSend j m with
    | some (c, h) =>
      if c.begun h then (if h.finished then s else s.setXq q (x.failHalf toSend j m st)) else stored
    | none => if issuedMatch (if toSend then vget x.sendCount j 0 else vget x.recvCount j 0) m then s else stored
  | _ => s

/-- ABORT. -/
def execAbort (s : State) : Host.Outcome State Fault Refusal :=
  s.packetEvent (fun k => match k.info with
    | .abort _ _ _ _ => k.ptype == .exchangeData
    | _ => false) State.performAbort

/-- Data for a receive that has ended: dropped and counted, and the first packet of the match is answered with
ABORT(timeout) (R270). -/
def State.dropData (s : State) (q j : Nat) (m : W32) : State :=
  let s := { s with ctl.xdrop := satAdd32 s.ctl.xdrop 1 }
  let x := s.xqueue q
  match x.deadRecv.find? fun d => decide (d.1 = j) && decide (d.2.1 = m) with
  | some (_, _, true) => s
  | some d =>
    (s.setXq q { x with deadRecv := (j, m, true) :: x.deadRecv.erase d }).abortMatch q j m true 0x14
  | none => (s.setXq q { x with deadRecv := (j, m, true) :: x.deadRecv }).abortMatch q j m true 0x14

/-- Exchange data of a match (R268): performed in the receive buffer and acknowledged, or dropped. -/
def State.performExchange (k : Packet) (s : State) : State :=
  match k.info with
  | .exch q m off last =>
    let x := s.xqueue q
    let j := s.ctl.partnerDim k.src
    match x.holder false j m with
    | some (c, h) =>
      if c.begun h && !h.failed && !h.done then
        let s := s.storeWatched (h.addr + off) k.payload (srcDie k.src)
        let s := s.mapX q c.num fun c => c.mapHalf false j m fun h =>
          { h with open_ := h.open_ + k.payload.length, done := last }
        let s := s.answer k .transferAck id
        if last then s.nextBarrier q c.num j else s
      else s.dropData q j m
    | none => s.dropData q j m
  | _ => s

/-- The acknowledgement of an exchange packet reaches its send half, when it is one of its present run (R269). -/
def State.ackExchange (s : State) (k : Packet) (q : Nat) (m : W32) : State :=
  let j := s.ctl.partnerDim k.src
  match (s.xqueue q).holder true j m with
  | some (c, _) =>
    if c.xid ≠ k.xid then s
    else
      let s := s.mapX q c.num fun c => c.mapHalf true j m fun h => { h with open_ := h.open_ - 1 }
      s.nextBarrier q c.num j
  | none => s

/-! ## Combining and completing (R269, R270, R272) -/

/-- xcombine on one pair of elements: the code and its flags (R272). -/
def xcombine (f : BitVec 3) (o : BitVec 2) (lo hi : Nat) : Nat × BitVec 6 :=
  let fl (t : Fmt) : Nat × BitVec 6 :=
    if o = 0 then t.addB lo hi else if o = 1 then (t.maxB lo hi, 0) else (t.minB lo hi, 0)
  match f.toNat with
  | 0 => fl f32
  | 1 => fl bf16
  | 2 => fl f16
  | 3 =>
    if o = 0 then ((lo + hi) % 2 ^ 32, 0)
    else if o = 1 then ((if toSigned 32 lo < toSigned 32 hi then hi else lo), 0)
    else ((if toSigned 32 hi < toSigned 32 lo then hi else lo), 0)
  | _ => if o = 0 then ((lo + hi) % 2 ^ 32, 0) else if o = 1 then (max lo hi, 0) else (min lo hi, 0)

/-- The element is a NaN of its format. -/
def xNan (f : BitVec 3) (x : Nat) : Bool :=
  match f.toNat with
  | 0 => (f32.decode x).isNan
  | 1 => (bf16.decode x).isNan
  | 2 => (f16.decode x).isNan
  | _ => false

/-- Little-endian elements of `w` bytes. -/
def elems (w : Nat) (bs : List Byte) : List Nat :=
  (List.range (bs.length / w)).map fun i => leNat ((bs.drop (w * i)).take w)

/-- One group of elements of NaN-skip, with its counts: new elements with flags, and the new count (R79, R272). A valid value
beside an invalid partner stands as it is, a −0 too, as the pseudocode of R272 has it, where R79 would add +0 (DEDUCED, log
56). -/
def skipGroup (f : BitVec 3) (o : BitVec 2) (limit : Nat) (lo hi : List Nat) (clo chi : Nat) :
    List (Nat × BitVec 6) × Nat :=
  let vlo := decide (clo ≠ 0) && !lo.any (xNan f)
  let vhi := decide (chi ≠ 0) && !hi.any (xNan f)
  ((lo.zip hi).map fun (a, b) =>
      if vlo && vhi then xcombine f o a b else if vlo then (a, 0) else if vhi then (b, 0) else (0, 0),
   min ((if vlo then clo else 0) + (if vhi then chi else 0)) limit)

/-- The combine of XCMB on the operands and count arrays of lo and hi: A with flags, and C (R272). -/
def Combine.run (c : Combine) (lo hi clo chi : List Nat) : List (Nat × BitVec 6) × List Nat :=
  if c.ns = 0 then ((lo.zip hi).map fun (a, b) => xcombine c.fmt c.op a b, [])
  else
    let per := if c.ns = 1 then 1 else 32
    let limit := if c.ns = 1 then 255 else 65535
    let gs := (clo.zip chi).zipIdx.map fun ((a, b), i) =>
      skipGroup c.fmt c.op limit ((lo.drop (per * i)).take per) ((hi.drop (per * i)).take per) a b
    (gs.flatMap (·.1), gs.map (·.2))

/-- The queue writes A, and C, and ORs the flags (R272, R73). -/
def State.combineX (s : State) (q : Nat) (x : XCmd) (c : Combine) : State :=
  let w := xWidth c.fmt
  let cw := if c.ns = 1 then 1 else 2
  let cn := countBytes c.fmt c.ns c.len
  let low := !s.ctl.diecoord.getLsbD (s.ctl.phys x.dim)
  let mine := elems w (s.load c.a c.len)
  let theirs := elems w (s.load c.r c.len)
  let cmine := elems cw (s.load c.c cn)
  let ctheirs := elems cw (s.load c.cr cn)
  let r := if low then c.run mine theirs cmine ctheirs else c.run theirs mine ctheirs cmine
  let src := srcEngine (q + 5) x.num
  let s := s.storeWatched c.a (r.1.flatMap fun e => leBytes w e.1) src
  let s := if c.ns = 0 then s else s.storeWatched c.c (r.2.flatMap fun e => leBytes cw e) src
  s.orLate (r.1.foldl (fun f e => f ||| e.2) 0) 0

/-- The combine of a command may be made now: what it reads was written in earlier cycles (R135). -/
def State.combineSettled (s : State) (x : XCmd) : Bool :=
  x.combine.all fun m =>
    let cn := countBytes m.fmt m.ns m.len
    fresh s.mem.undo m.a m.len && fresh s.mem.undo m.r m.len && fresh s.mem.undo m.c cn && fresh s.mem.undo m.cr cn

/-- A command is complete: every half is finished, also where its status is fixed before (R139, R269). -/
def XCmd.finished (c : XCmd) : Bool := c.started && c.halves.all (·.finished)

/-- The halves of an ended command that a partner may still name: their matches stay consumed (R270). A READY that waits
for such a send is answered at once. -/
def State.buryHalves (s : State) (q : Nat) (c : XCmd) (st : Byte) : State :=
  c.halves.foldl (fun s h =>
    let x := s.xqueue q
    if h.done then s
    else if h.send then
      match x.readies.find? fun r => decide (r.dim = h.dim) && decide (r.m = h.m) with
      | some r => (s.setXq q { x with readies := x.readies.erase r }).abortMatch q h.dim h.m false st
      | none => s.setXq q { x with deadSend := (h.dim, h.m, st) :: x.deadSend }
    else if x.deadRecv.any fun d => decide (d.1 = h.dim) && decide (d.2.1 = h.m) then s
    else s.setXq q { x with deadRecv := (h.dim, h.m, false) :: x.deadRecv }) s

/-- Queue Q holds the command of a number, in its queue or its arm table. -/
def State.holdsX (s : State) (q num : Nat) : Bool :=
  let x := s.xqueue q
  (x.queue ++ x.arms).any fun c => decide (c.num = num)

/-- An exchange command or armed send completes, or runs again whole under the retry policy (R170, R269, R270). -/
def State.finishX (s : State) (q : Nat) (c : XCmd) : State :=
  let st := c.status.getD 0x00
  if isError st && decide (c.pol = 1) && decide (c.tries < 3) && !c.cancelled then
    let again (h : Half) : Half := { h with ready := none, open_ := 0, done := false, failed := false }
    s.mapX q c.num fun c => { c with started := false, tries := c.tries + 1, elapsed := 0, status := none,
                                     halves := c.halves.map again }
  else
    let s := match c.combine with
      | some m => if st = 0x00 then s.combineX q c m else s
      | none => s
    -- a watched write that makes the die go on from its image leaves no command (R170)
    if s.holdsX q c.num then
      let x := s.xqueue q
      let swept := x.arms.filter fun a => decide (a.num ≠ c.num) && decide (a.disarmed ≠ some c.num)
      let s := s.setXq q { x with queue := x.queue.filter (fun a => decide (a.num ≠ c.num)), arms := swept }
      (if isError st then s.buryHalves q c st else s).complete (q + 4) c.num c.pol st
    else s

/-- The command of queue Q with a number, armed sends included. -/
def State.findX (s : State) (q num : Nat) : Option XCmd :=
  ((s.xqueue q).queue ++ (s.xqueue q).arms).find? fun c => decide (c.num = num)

/-- A counted cycle of a class 0xC command passes (R270). -/
def XCmd.tick (c : XCmd) : XCmd := if c.started then { c with elapsed := c.elapsed + 1 } else c

/-- The count of a begun command has reached EXTO (R270). -/
def State.expired (s : State) (started : Bool) (elapsed : Nat) : Bool :=
  started && decide (s.ctl.exto ≠ 0) && decide (s.ctl.exto.toNat ≤ elapsed)

/-- The exchange commands whose time is over before they are complete end with the status "timeout" (R270). -/
def State.timeoutX (s : State) (q : Nat) (which : XCmd → Bool) : State :=
  let x := s.xqueue q
  let f (c : XCmd) : XCmd :=
    if which c && !c.finished && s.expired c.started c.elapsed then c.failAll 0x14 else c
  s.setXq q { x with queue := x.queue.map f, arms := x.arms.map f }

end Sys2Proof.Machine
end

