-- ==== Sys2Proof/Machine/Walker.lean ====
section
/-! DEFINITION. The collective walker, row queues, ROUTE and the routing counters (R95 to R97, R277 to R281). -/

namespace Sys2Proof.Machine

/-! ## Row queues (R166, R278, R279) -/

/-- A row queue. -/
def State.rowQ (s : State) (i : Nat) : RowQueue := vget s.eng.rows i RowQueue.clear

/-- Replace a row queue. -/
def State.setRowQ (s : State) (i : Nat) (q : RowQueue) : State := { s with eng.rows := vset s.eng.rows i q }

/-- The slot directly after the newest row is free: it holds no row and lies in no 128 rows held by a task (R279). -/
def RowQueue.free (q : RowQueue) : Bool :=
  let slot := (q.head + q.depth) % q.cap
  decide (q.depth < q.cap) && q.heldBy.all fun h => decide (128 ≤ (slot + q.cap - h.1) % q.cap)

/-- A row comes to queue `i` of this die: written, with depth and counter raised, or rejected and counted (R141, R279). -/
def State.rowIn (s : State) (i : Nat) (row : List Byte) (src : W64) : State × Bool :=
  let q := s.rowQ i
  if q.cfgd && decide (q.rowsz = row.length) && q.free then
    let s := s.storeWatched (q.base + q.rowsz * ((q.head + q.depth) % q.cap)) row src
    let s := s.setRowQ i { q with depth := q.depth + 1 }
    ({ s with eng := { s.eng with
      newRows := i :: s.eng.newRows, routed := vset s.eng.routed i (satAdd32 (vget s.eng.routed i 0) 1) } }, true)
  else ({ s with ctl.rqdrop := satAdd32 s.ctl.rqdrop 1 }, false)

/-! ## Issue -/

/-- The walker's queue of 16 is full (R277). -/
def State.walkFull (s : State) : Bool := decide (16 ≤ s.eng.walker.length)

/-- A walker command as issued. -/
def Ctl.wcmd (c : Ctl) (num : Nat) (op : WalkOp) : WCmd :=
  { num := num, pol := c.pol1, op := op, started := false, tries := 0, pos := 0, acks := 0, bad := false, record := [],
    elapsed := 0, status := none }

/-- COLL and ROUTE take a TLW number and a place in the walker's queue. -/
def State.postW (s : State) (op : WalkOp) : State :=
  let r := s.takeNumber 10
  { r.1 with eng.walker := s.eng.walker ++ [s.ctl.wcmd r.2 op] }

/-- coll: the record's address (R277). -/
def execColl (g e : BitVec 4) (s : State) : Host.Outcome State Fault Refusal :=
  let a := s.stage e 0
  s.stallSlot s.walkFull (s.slot g (firstFault [limitFault (decide (a % 32 = 0)), rangeFault 0x9 a 32 false]) fun s =>
    s.postW (.coll a))

/-- route: index array, row count, and the shape of tile U at issue (R279). -/
def execRoute (g u e : BitVec 4) (s : State) : Host.Outcome State Fault Refusal :=
  let a := s.stage e 0
  let n := s.stage e 1 % 512
  let sh := s.tshapeOf u
  let ok := decide (a % 4 = 0) && decide (1 ≤ n) && decide (n ≤ 256) && decide (n ≤ shRows sh)
  s.stallSlot s.walkFull (s.slot g (firstFault [limitFault ok, rangeFault 0x9 a (4 * n) false]) fun s =>
    s.postW (.route u a n sh))

/-- rqcfg: takes a TLW number; whether the queue holds rows is seen at issue (R278). -/
def execRqcfg (g e : BitVec 4) (s : State) : Host.Outcome State Fault Refusal :=
  let x := s.stage e 0
  let base := s.stage e 1
  let rowsz := x / 256 % 2048
  let cap := x / 2 ^ 32 % 8192
  let ok := decide (16 ≤ rowsz) && decide (rowsz ≤ 1024) && decide (rowsz % 16 = 0) && decide (128 ≤ cap) &&
    decide (cap ≤ 4096) && decide (cap % 128 = 0) && decide (base % 32 = 0)
  let q := s.rowQ (x % 256)
  let before := q.depth - (s.eng.newRows.filter (· == x % 256)).length
  let holds := decide (0 < before) || !q.heldBy.isEmpty
  s.slot g (firstFault [limitFault ok, rangeFault 0x9 base (cap * rowsz) true]) fun s =>
    let r := s.takeNumber 10
    r.1.later (.rqcfg g e) r.2 [BitVec.ofNat 64 x, BitVec.ofNat 64 base, if holds then 1 else 0, s.ctl.pol1.zeroExtend 64]

/-- rqreset (R278). -/
def execRqreset (g e : BitVec 4) (s : State) : Host.Outcome State Fault Refusal :=
  s.slot g none fun s =>
    let r := s.takeNumber 10
    r.1.later (.rqreset g e) r.2 [s.regs.re e.toNat, s.ctl.pol1.zeroExtend 64]

/-- rcsnap: a destination of 1,024 bytes (R281). -/
def execRcsnap (g e : BitVec 4) (s : State) : Host.Outcome State Fault Refusal :=
  let a := s.stage e 0
  s.slot g (firstFault [limitFault (decide (a % 1024 = 0)), rangeFault 0x9 a 1024 true]) fun s =>
    let r := s.takeNumber 10
    r.1.later (.rcsnap g e) r.2 [s.regs.re e.toNat, s.ctl.pol1.zeroExtend 64]

/-- Level 1 policy kept among a slot's values. -/
def polOf (vals : List W64) (i : Nat) : BitVec 2 := (vals.getD i 0).truncate 2

/-- The end of an RQCFG's issue cycle (R278). Its record fault, and that of RQRESET, is not run again (R170; DESIGN CHOICE, log
54). -/
def State.rqConfigure (s : State) (num : Nat) (vals : List W64) : State :=
  let x := (vals.getD 0 0).toNat
  let pol := polOf vals 3
  if s.cancels 10 num then s.complete 10 num pol 0x17
  else if vals.getD 2 0 = 1 then s.complete 10 num pol 0x15
  else (s.setRowQ (x % 256) { cfgd := true, base := (vals.getD 1 0).toNat, rowsz := x / 256 % 2048,
                              cap := x / 2 ^ 32 % 8192, depth := 0, head := 0, heldBy := [] }).complete 10 num pol 0x00

/-- The end of an RQRESET's issue cycle (R278). -/
def State.rqReset (s : State) (num : Nat) (vals : List W64) : State :=
  let i := (vals.getD 0 0).toNat % 256
  let pol := polOf vals 1
  let q := s.rowQ i
  if s.cancels 10 num then s.complete 10 num pol 0x17
  else if !q.heldBy.isEmpty then s.complete 10 num pol 0x15
  else (s.setRowQ i { q with depth := 0, head := 0 }).complete 10 num pol 0x00

/-- The end of an RCSNAP's issue cycle: all counters are captured and cleared in one step (R281). -/
def State.rcCapture (s : State) (num : Nat) (vals : List W64) : State :=
  let pol := polOf vals 1
  if s.cancels 10 num then s.complete 10 num pol 0x17
  else
    let c := { s.ctl.wcmd num (.rcsnap (vals.getD 0 0).toNat s.eng.routed) with pol := pol, started := true }
    { s with eng := { s.eng with snaps := s.eng.snaps ++ [c], routed := .replicate 256 0 } }

/-! ## The collective record (R95, R277) -/

/-- Words of a record. -/
def word (r : List W64) (i : Nat) : Nat := (r.getD i 0).toNat

/-- KIND. -/
def recKind (r : List W64) : Nat := word r 0 % 16
/-- NLEV. -/
def recLev (r : List W64) : Nat := word r 0 / 16 % 8
/-- DMASK. -/
def recMask (r : List W64) : BitVec 13 := BitVec.ofNat 13 (word r 0 / 256)
/-- XLEN, W of R95. -/
def recLen (r : List W64) : Nat := word r 0 / 2 ^ 32
/-- SBASE. -/
def recSrc (r : List W64) : Nat := word r 1 % 2 ^ 32
/-- DBASE. -/
def recDst (r : List W64) : Nat := word r 1 / 2 ^ 32
/-- m of R95. -/
def recRows (r : List W64) : Nat := word r 2 % 8192 + 1
/-- RCNT. -/
def recRcnt (r : List W64) : Nat := word r 2 / 2 ^ 32
/-- P of R95. -/
def recGroup (r : List W64) : Nat := 2 ^ (setBits (recMask r)).length

/-- One level: COUNT, PK, PAT, SSTR, DSTR. -/
structure Level where
  count : Nat
  pk : Nat
  pat : BitVec 13
  sstr : Int
  dstr : Int
deriving DecidableEq, Repr

/-- Level `l` of a record. -/
def recLevel (r : List W64) (l : Nat) : Level :=
  let w0 := word r (4 + 4 * l)
  let w1 := word r (5 + 4 * l)
  { count := w0 % 65536 + 1, pk := w0 / 65536 % 4, pat := BitVec.ofNat 13 (w0 / 2 ^ 32), sstr := int32 w1,
    dstr := int32 (w1 / 2 ^ 32) }

/-- All levels. -/
def recLevels (r : List W64) : List Level := (List.range (recLev r)).map (recLevel r)

/-- Transfers of a loop nest. -/
def recTotal (r : List W64) : Nat := (recLevels r).foldl (fun n l => n * l.count) 1

/-- Reserved bits and limits of a level. -/
def levelOk (k : Nat) (r : List W64) (l : Nat) : Bool :=
  let w0 := word r (4 + 4 * l)
  let v := recLevel r l
  decide (w0 / 2 ^ 18 % 2 ^ 14 = 0) && decide (w0 / 2 ^ 45 = 0) && decide (v.pk ≠ 3) && decide (v.pat.toNat < 2 ^ k) &&
  decide (v.sstr % 32 = 0) && decide (v.dstr % 32 = 0) && decide (word r (6 + 4 * l) = 0) &&
  decide (word r (7 + 4 * l) = 0)

/-- The record keeps the limits of R277, and of R95 for a row-block exchange. -/
def recOk (k : Nat) (r : List W64) : Bool :=
  let w0 := word r 0
  let w2 := word r 2
  decide (w0 / 128 % 2 = 0) && decide (w0 / 2 ^ 21 % 2 ^ 11 = 0) && decide (w2 / 2 ^ 13 % 2 ^ 19 = 0) &&
  decide (word r 3 = 0) && decide (32 ≤ recLen r) && decide (recLen r ≤ 65536) && decide (recLen r % 32 = 0) &&
  match recKind r with
  | 1 =>
    decide (1 ≤ recLev r) && decide (recLev r ≤ 6) && (recMask r == 0#13) && decide (recRows r = 1) &&
    (List.range (recLev r)).all (levelOk k r)
  | 2 =>
    let n := recGroup r * recRows r * recLen r
    decide (recLev r = 0) && decide (recRcnt r = 0) && decide (recRows r ≤ 4096) && decide ((recMask r).toNat < 2 ^ k) &&
    !meets (recSrc r) n (recDst r) n
  | _ => false

/-- The iteration of a transfer's number, innermost fastest (R277). -/
def iteration : List Level → Nat → List Nat
  | [], _ => []
  | l :: r, n =>
    let inner := r.foldl (fun m l => m * l.count) 1
    (n / inner % l.count) :: iteration r (n % inner)

/-- Peer, source and destination of a transfer (R277). -/
def recTransfer (rank : BitVec 13) (r : List W64) (n : Nat) : BitVec 13 × Nat × Nat :=
  let ls := recLevels r
  let is := ls.zip (iteration ls n)
  let peer := is.foldl (fun p (l, i) =>
    if l.pk = 1 then p ^^^ deposit l.pat i else if l.pk = 2 then p ^^^ deposit l.pat (gray i) else p) rank
  let sum (f : Level → Int) : Int := (is.map fun (l, i) => f l * (i : Int)).sum
  (peer, addrOf (recSrc r + sum (·.sstr)), addrOf (recDst r + sum (·.dstr)))

/-! ## Running (R96, R112, R277, R279, R312) -/

/-- Pieces that a begun command hands over: transfers, rounds or rows. -/
def WCmd.total (c : WCmd) : Nat :=
  match c.op with
  | .coll _ => if recKind c.record = 1 then recTotal c.record else recGroup c.record
  | .route _ _ n _ => n
  | .rcsnap _ _ => 0

/-- Index-array entry of ROUTE (R279): SKIP, and the entry breaks a rule. -/
def rowSkip (w : W64) : Bool := w.getLsbD 31
/-- See `rowSkip`. -/
def rowBad (k : Nat) (w : W64) : Bool := decide (w.toNat / 2 ^ 21 % 2 ^ 10 ≠ 0) || decide (2 ^ k ≤ w.toNat % 8192)

/-- What a walker command reads at its start: the record, or the index array. -/
def State.readRecord (s : State) (op : WalkOp) : List W64 :=
  match op with
  | .coll a =>
    let n := (leNat (s.load a 8)) / 16 % 8
    (List.range (4 + 4 * n)).map fun i => BitVec.ofNat 64 (leNat (s.load (a + 8 * i) 8))
  | .route _ a n _ => (List.range n).map fun i => BitVec.ofNat 64 (leNat (s.load (a + 4 * i) 4))
  | .rcsnap _ _ => []

/-- The charge of a walker command by its record (R312): each row of a row-block exchange is a buffer sent (DESIGN CHOICE, log
57). -/
def State.walkCost (s : State) (op : WalkOp) (r : List W64) : Nat :=
  match op with
  | .coll _ =>
    if !recOk s.ctl.dims r then 0
    else if recKind r = 1 then 4 * recTotal r * units (recLen r)
    else 4 * recGroup r * recRows r * units (recLen r)
  | .route _ _ _ _ => 4 * (r.filter fun w => !rowSkip w && !rowBad s.ctl.dims w).length
  | .rcsnap _ _ => 0

/-- The next command that the walker would begin. -/
def State.walkNext (s : State) : Option WCmd := s.eng.walker.find? fun c => !c.started

/-- A record's own window fault: part of it, or an array of a row-block exchange, lies outside die-local memory. -/
def recWindow (a : Nat) (r : List W64) : Option Nat :=
  if !inLocal a (8 * r.length) then some a
  else if recKind r = 2 then
    let n := recGroup r * recRows r * recLen r
    if !inLocal (recSrc r) n then some (recSrc r) else if !inLocal (recDst r) n then some (recDst r) else none
  else none

/-- The first range of a loop nest that lies outside die-local memory, whether it is a destination (R20, R277). -/
def recOutside (rank : BitVec 13) (r : List W64) : Option (Nat × Bool) :=
  if recKind r ≠ 1 then none
  else (List.range (recTotal r)).findSome? fun n =>
    let t := recTransfer rank r n
    if !inLocal t.2.1 (recLen r) then some (t.2.1, false)
    else if !inLocal t.2.2 (recLen r) then some (t.2.2, true) else none

/-- A begun walker command ends with a window fault of agent 0x9 (R277). -/
def State.walkFault (s : State) (num a n : Nat) (write : Bool) : State :=
  (s.windowFault a (rangeCause a n) 0x9 none write).mapWalk num fun c => { c with status := some 0x10 }

/-- The walker begins a command: it reads the record and checks it, with the range of every transfer (R20, R277). A record that
breaks a limit is a record fault, also where a range of it lies outside die-local memory (DEDUCED, log 34), and is not charged;
one with a window fault is (R312; DESIGN CHOICE, log 57). -/
def State.beginW (s : State) (c : WCmd) (r : List W64) : State :=
  let s := (s.charge (s.walkCost c.op r)).mapWalk c.num fun c => { c with started := true, record := r, elapsed := 0 }
  match c.op with
  | .coll a =>
    if !inLocal a (8 * r.length) then s.walkFault c.num a (8 * r.length) false
    else if !recOk s.ctl.dims r then s.mapWalk c.num fun c => { c with status := some 0x15 }
    else match recWindow a r with
      | some b => s.walkFault c.num b (recGroup r * recRows r * recLen r) (decide (b = recDst r))
      | none => match recOutside s.ctl.rank r with
        | some (b, w) => s.walkFault c.num b (recLen r) w
        | none => s
  | _ => s

/-- The walker begins its next command; in a killed context it is cancelled (R170). -/
def State.startW (s : State) : State :=
  match s.walkNext with
  | none => s
  | some c =>
    if s.cancels 10 c.num then s.mapWalk c.num fun c => { c with started := true, status := some 0x17 }
    else
      let r := s.readRecord c.op
      if s.ctl.mayCharge (s.walkCost c.op r) then s.beginW c r else s

/-- A packet of the walker to the die of a RANK. -/
def Ctl.wpacket (c : Ctl) (rank : BitVec 13) (xid : W16) (info : PMeta) : Packet :=
  { c.packet .exchangeData (c.coordOf rank.toNat) 0x9 xid with info := info }

/-- Bytes to a peer or, for this die's own RANK, a local copy. `idx` names what the receiver counts as one transfer, `base` the
place of these bytes in it, and `final` marks its last bytes. -/
def State.walkPut (s : State) (c : WCmd) (peer : BitVec 13) (src dst n idx base : Nat) (final : Bool) : State :=
  if peer = s.ctl.rank then s.storeWatched dst (s.load src n) (srcEngine 0x9 c.num)
  else (pieces256 n).foldl (fun s (off, m) =>
    let s := s.mapWalk c.num fun c => { c with acks := c.acks + 1 }
    s.route { s.ctl.wpacket peer c.xid (.walker c.num idx (base + off) (final && decide (n ≤ off + m))) with
      addr := BitVec.ofNat 48 (dst + off), len := m, payload := s.load (src + off) m }) s

/-- A loop nest's next transfer (R277). -/
def State.walkTransfer (s : State) (c : WCmd) : State :=
  let (peer, src, dst) := recTransfer s.ctl.rank c.record c.pos
  s.walkPut c peer src dst (recLen c.record) c.pos 0 true

/-- A row-block exchange's next round (R96). -/
def State.walkBlock (s : State) (c : WCmd) : State :=
  let m := recMask c.record
  let x := extract m s.ctl.rank
  let y := x ^^^ c.pos
  let peer := (s.ctl.rank &&& ~~~m) ||| deposit m y
  let w := recLen c.record
  let rows := recRows c.record
  (List.range rows).foldl (fun s r =>
    s.walkPut c peer (recSrc c.record + (y * rows + r) * w) (recDst c.record + (x * rows + r) * w) w 0 (r * w)
      (decide (r + 1 = rows))) s

/-- ROUTE's next row (R279). -/
def State.walkRow (s : State) (c : WCmd) (tile : BitVec 4) (shape : BitVec 24) : State :=
  let e := c.record.getD c.pos 0
  let q := e.toNat / 2 ^ 13 % 256
  let rank : BitVec 13 := e.truncate 13
  let fail (s : State) : State := s.mapWalk c.num fun c => { c with bad := true }
  if rowBad s.ctl.dims e then fail s
  else if rowSkip e then s
  else
    let row := s.tileRow tile.toNat shape c.pos
    if rank = s.ctl.rank then
      match s.rowIn q row (srcEngine 0x9 c.num) with
      | (s, true) => s
      | (s, false) => fail s
    else (pieces256 row.length).foldl (fun s (off, m) =>
      let s := s.mapWalk c.num fun c => { c with acks := c.acks + 1 }
      s.route { s.ctl.wpacket rank c.xid (.row q off row.length) with len := m, payload := (row.drop off).take m }) s

/-- The command whose next piece goes out: packets enter the network in command order (R112). -/
def State.walkMover (s : State) : Option WCmd :=
  s.eng.walker.find? fun c => c.started && c.status.isNone && decide (c.pos < c.total)

/-- WALKER_ROUND (R96, R277, R279): the next round, transfer or row of the walker. -/
def execWalkerRound (s : State) : Host.Outcome State Fault Refusal :=
  if s.halted then .next s
  else match s.walkMover with
    | none => .next s
    | some c =>
      let s := s.mapWalk c.num fun c => { c with pos := c.pos + 1 }
      .next (match c.op with
        | .coll _ => if recKind c.record = 1 then s.walkTransfer c else s.walkBlock c
        | .route t _ _ sh => s.walkRow c t sh
        | .rcsnap _ _ => s)

/-! ## What arrives -/

/-- Transfers that have landed for a TLW number. -/
def State.earlyOf (s : State) (num : Nat) : Nat := (s.eng.early.filter fun x => decide (x.1 = num)).length

/-- A transfer of a source has landed for a TLW number (R277). One that a sender's re-run brings again counts once (R97). -/
def State.countEarly (s : State) (num : Nat) (src : BitVec 13) (idx : Nat) : State :=
  if s.eng.early.contains (num, src, idx) then s else { s with eng.early := (num, src, idx) :: s.eng.early }

/-- The bytes of a transfer that have landed so far. -/
def Engines.landed (e : Engines) (num : Nat) (src : BitVec 13) (idx : Nat) : Nat :=
  match e.partly.find? fun x => decide (x.1 = num) && decide (x.2.1 = src) && decide (x.2.2.1 = idx) with
  | some x => x.2.2.2
  | none => 0

/-- A packet of a transfer has landed at its place: the transfer counts when its last packet lands and none before it is
missing (R97, R277). -/
def State.countPart (s : State) (num : Nat) (src : BitVec 13) (idx off n : Nat) (last : Bool) : State :=
  if off ≠ 0 ∧ off ≠ s.eng.landed num src idx then s
  else
    let rest := s.eng.partly.filter fun x => !(decide (x.1 = num) && decide (x.2.1 = src) && decide (x.2.2.1 = idx))
    if last then ({ s with eng.partly := rest } : State).countEarly num src idx
    else { s with eng.partly := (num, src, idx, off + n) :: rest }

/-- Walker data (R95, R277): performed, acknowledged and counted for the COLL of its number, also before that COLL is
issued. For a command that has ended it is dropped and counted in XDROP. -/
def State.performWalker (k : Packet) (s : State) : State :=
  match k.info with
  | .walker num idx off last =>
    let live := decide ((s.line 10).issued.toNat < num) ||
      s.eng.walker.any fun c => decide (c.num = num) && c.status.isNone
    if live then
      let s := s.storeWatched k.addr.toNat k.payload (srcDie k.src)
      (s.countPart num k.src idx off k.payload.length last).answer k .transferAck id
    else { s with ctl.xdrop := satAdd32 s.ctl.xdrop 1 }
  | _ => s

/-- The bytes of a row so far, with those of a packet of it, when none before it is missing. -/
def State.rowSoFar (s : State) (src : BitVec 13) (off : Nat) (bs : List Byte) : List Byte :=
  let have_ := match s.eng.rowParts.find? fun x => decide (x.1 = src) with
    | some x => x.2
    | none => []
  if off = 0 then bs else if off = have_.length then have_ ++ bs else []

/-- ROUTE_ROW_RECEIVE (R122, R141, R279): a packet of a row is kept until the row has come whole; then the row is written or
rejected. The acknowledgement says which, by IMM 0 or 1 (DESIGN CHOICE, log 8). -/
def execRouteRowReceive (s : State) : Host.Outcome State Fault Refusal :=
  s.packetEvent (fun k => match k.info with
    | .row _ _ _ => k.ptype == .exchangeData
    | _ => false) fun k s => match k.info with
    | .row q off len =>
      let row := s.rowSoFar k.src off k.payload
      let rest := s.eng.rowParts.filter fun x => decide (x.1 ≠ k.src)
      if off + k.payload.length < len then
        ({ s with eng.rowParts := (k.src, row) :: rest } : State).answer k .transferAck id
      else
        match (if row.length = len then ({ s with eng.rowParts := rest } : State).rowIn q row (srcDie k.src)
               else ({ s with eng.rowParts := rest }, false)) with
        | (s, ok) => s.answer k .transferAck fun a => { a with imm := if ok then 0 else 1 }
    | _ => s

/-- The acknowledgement of a walker packet or routed row. -/
def State.ackWalker (s : State) (k : Packet) : State :=
  { s with eng.walker := s.eng.walker.map fun c =>
      if c.xid = k.xid then { c with acks := c.acks - 1, bad := c.bad || decide (k.imm = 1) } else c }

/-! ## Completing (R97, R277, R279, R281) -/

/-- Transfers or blocks that this die expects for the command. -/
def WCmd.expects (c : WCmd) : Nat :=
  match c.op with
  | .coll _ => if recKind c.record = 1 then recRcnt c.record else recGroup c.record - 1
  | _ => 0

/-- A walker command is complete: what it handed over is acknowledged, and its status is fixed or everything is handed over
and landed (R97, R139, R277). One that timed out waits for nothing (R270). -/
def State.walkDone (s : State) (c : WCmd) : Bool :=
  c.started && (decide (c.status = some 0x14) || (decide (c.acks = 0) &&
    (c.status.isSome || (decide (c.total ≤ c.pos) && decide (c.expects ≤ s.earlyOf c.num)))))

/-- A walker command completes, or runs again whole under the retry policy. What landed for it before a re-run still counts
(DESIGN CHOICE, log 49). -/
def State.finishW (s : State) (c : WCmd) : State :=
  let st := c.status.getD (if c.bad then 0x15 else 0x00)
  if isError st && decide (c.pol = 1) && decide (c.tries < 3) && decide (st ≠ 0x17) then
    s.mapWalk c.num fun c => { c with started := false, tries := c.tries + 1, pos := 0, acks := 0, bad := false,
                                      record := [], elapsed := 0, status := none }
  else
    let s := { s with eng := { s.eng with
      walker := s.eng.walker.filter (fun x => decide (x.num ≠ c.num)),
      early := s.eng.early.filter (fun x => decide (x.1 ≠ c.num)),
      partly := s.eng.partly.filter fun x => decide (x.1 ≠ c.num) } }
    s.complete 10 c.num c.pol st

/-- RCSNAP completes: the captured counters are performed at the destination (R281). One that timed out completes with that
status, or runs again under the retry policy (R170, R270). -/
def State.finishSnap (s : State) (c : WCmd) : State :=
  match c.op, c.status with
  | .rcsnap dst counts, none =>
    let s := s.storeWatched dst (counts.toList.flatMap fun x => leBytes 4 x.toNat) (srcEngine 0x9 c.num)
    -- a watched write that makes the die go on from its image leaves no command (R170)
    if s.eng.snaps.any fun x => decide (x.num = c.num) then
      ({ s with eng.snaps := s.eng.snaps.filter fun x => decide (x.num ≠ c.num) } : State).complete 10 c.num c.pol 0x00
    else s
  | _, some st =>
    if c.pol = 1 ∧ c.tries < 3 then
      { s with eng.snaps := s.eng.snaps.map fun x =>
          if x.num = c.num then { x with tries := x.tries + 1, elapsed := 0, status := none } else x }
    else ({ s with eng.snaps := s.eng.snaps.filter fun x => decide (x.num ≠ c.num) } : State).complete 10 c.num c.pol st
  | _, none => s

/-- A counted cycle of a walker command passes (R270). -/
def WCmd.tick (c : WCmd) : WCmd := if c.started then { c with elapsed := c.elapsed + 1 } else c

/-- The walker commands and RCSNAPs whose time is over get the status "timeout" (R270). -/
def State.timeoutW (s : State) (which : WCmd → Bool) : State :=
  let late (done : Bool) (c : WCmd) : WCmd :=
    if which c && !done && s.expired c.started c.elapsed then { c with status := some 0x14 } else c
  { s with eng := { s.eng with
      walker := s.eng.walker.map fun c => late (s.walkDone c) c, snaps := s.eng.snaps.map (late false) } }

/-! ## EXCHANGE_DATA and EXCHANGE_TIMEOUT -/

/-- EXCHANGE_DATA (R268, R270, R277): the data of an exchange or of a walker transfer. -/
def execExchangeData (s : State) : Host.Outcome State Fault Refusal :=
  s.packetEvent (fun k => match k.info with
    | .exch _ _ _ _ => k.ptype == .exchangeData
    | .walker _ _ _ _ => k.ptype == .exchangeData
    | _ => false) fun k s => match k.info with
    | .walker _ _ _ _ => s.performWalker k
    | _ => s.performExchange k

/-- EXCHANGE_TIMEOUT (R270): context and number of the command. -/
def execExchangeTimeout (s : State) : Host.Outcome State Fault Refusal :=
  match s.arg with
  | .two ctx num =>
    if ctx = 10 then .next (s.timeoutW fun c => decide (c.num = num))
    else if 4 ≤ ctx ∧ ctx < 8 then .next (s.timeoutX (ctx - 4) fun c => decide (c.num = num))
    else .next s
  | _ => .next s

end Sys2Proof.Machine
end

