-- ==== Sys2Proof/Machine/Packets.lean ====
section
/-! DEFINITION. What a packet does at its target, and what an answer does at its source (R39, R48, R115 to R121, R130,
R265). -/

namespace Sys2Proof.Machine

/-- A packet of a type that names no exchange, walker or row-queue data. -/
def Packet.plain (k : Packet) (t : PType) : Bool := (k.ptype == t) && (k.info == .none)

/-- Bytes at the target of a packet: DRAM by offset, or die-local. -/
def State.homeRead (s : State) (k : Packet) (n : Nat) : List Byte :=
  if k.dram then s.loadDram k.addr.toNat n else s.load k.addr.toNat n

/-- A write at the target of a packet. -/
def State.homeWrite (s : State) (k : Packet) (bs : List Byte) : State :=
  if k.dram then s.storeDram k.addr.toNat bs else s.storeWatched k.addr.toNat bs (srcDie k.src)

/-- WRITE_PACKET (R115, R135): performed at its home and acknowledged. -/
def execWritePacket (s : State) : Host.Outcome State Fault Refusal :=
  s.packetEvent (·.plain .write) fun k s => (s.homeWrite k k.payload).answer k .transferAck id

/-- READ_REQUEST (R115): the response carries the bytes and the place in the transfer that the request named in IMM (DESIGN
CHOICE, log 8). -/
def execReadRequest (s : State) : Host.Outcome State Fault Refusal :=
  s.packetEvent (·.plain .readRequest) fun k s =>
    s.answer k .readResponse fun a => { a with imm := k.imm, len := k.len, payload := s.homeRead k k.len }

/-- FLAG_PACKET (R116, R117): the flag is written after every earlier packet of the pair, and acknowledged. -/
def execFlagPacket (s : State) : Host.Outcome State Fault Refusal :=
  s.packetEvent (·.plain .flag) fun k s => (s.homeWrite k (leBytes 8 k.imm.toNat)).answer k .transferAck id

/-- ATOMIC_PACKET (R39, R48, R115): performed indivisibly; the response returns the old value. The operand stands in IMM, the
compare value in the payload, and the old value in IMM of the response (R122; DESIGN CHOICE, log 8). -/
def execAtomicPacket (s : State) : Host.Outcome State Fault Refusal :=
  s.packetEvent (·.plain .atomic) fun k s =>
    let old := leNat (s.homeRead k k.len)
    let w := 2 ^ (8 * k.len)
    let s := match atomicNew (k.op.truncate 4) k.len old (k.imm.toNat % w) (leNat k.payload % w) with
      | some y => s.homeWrite k (leBytes k.len y)
      | none => s
    s.answer k .atomicResponse fun a => { a with imm := BitVec.ofNat 64 old }

/-! ## Reduce-stores (R118 to R121, R265) -/

/-- Bytes of an element of a reduce-store. -/
def ropWidth (rop : Nat) : Nat := if rop = 6 then 8 else if rop = 7 then 2 else 4

/-- New value of an element (R265). -/
def ropNew (rop old x : Nat) : Nat :=
  match rop with
  | 0 => (f32.addB old x).1
  | 1 => f32.maxB old x
  | 2 => f32.minB old x
  | 3 => (old + x) % 2 ^ 32
  | 4 => if toSigned 32 old < toSigned 32 x then x else old
  | 5 => if toSigned 32 x < toSigned 32 old then x else old
  | 6 => (old + x) % 2 ^ 64
  | _ => (bf16.addB old x).1

/-- The bytes after a reduce-store's elements are applied. -/
def ropBytes (rop : Nat) (old x : List Byte) : List Byte :=
  let w := ropWidth rop
  ((elems w old).zip (elems w x)).flatMap fun (a, b) => leBytes w (ropNew rop a b)

/-- DRAM offset of the high-water mark of a source die's engine (R119). -/
def State.markAt (s : State) (k : Packet) : Nat :=
  s.ctl.rshwb.toNat + 4 * (4 * extract s.ctl.scmask k.src + (k.eng.toNat - 1))

/-- A reduce-store of this die's job: performed when its number is above the mark, otherwise a counted duplicate (R119). -/
def State.reduce (s : State) (k : Packet) : State :=
  let at_ := s.markAt k
  let h : W32 := BitVec.ofNat 32 (leNat (getBytes s.mem.dram at_ 4))
  let d := (k.rseq - h).toNat
  if 1 ≤ d ∧ d < 2 ^ 31 then
    let s := s.homeWrite k (ropBytes k.op.toNat (s.homeRead k k.payload.length) k.payload)
    { s with mem.dram := putBytes s.mem.dram at_ (leBytes 4 k.rseq.toNat) }
  else { s with ctl.rsdup := satAdd32 s.ctl.rsdup 1 }

/-- REDUCE_STORE (R119, R120): another job's is answered by an unreachable notice; this job's by a normal
acknowledgement. -/
def execReduceStore (s : State) : Host.Outcome State Fault Refusal :=
  s.packetEvent (·.plain .reduceStore) fun k s =>
    if k.job ≠ s.ctl.jobid then s.giveUp k
    else (s.reduce k).answer k .transferAck id

/-! ## Answers at the source -/

/-- The begun copy command that an answer belongs to. -/
def State.answered (s : State) (k : Packet) : Option (Nat × CopyCmd) :=
  if 1 ≤ k.eng.toNat ∧ k.eng.toNat ≤ 4 then
    ((s.copyQueue (k.eng.toNat - 1)).find? fun c => c.started && decide (c.xid = k.xid)).map fun c => (k.eng.toNat - 1, c)
  else none

/-- READ_RESPONSE (R115): the data lands, or waits with its command (R100, R109). -/
def execReadResponse (s : State) : Host.Outcome State Fault Refusal :=
  s.packetEvent (·.plain .readResponse) fun k s =>
    match s.answered k with
    | some (i, c) => s.takeData i c k.imm.toNat k.payload
    | none => s

/-- ATOMIC_RESPONSE (R265): the old value, zero-extended to 8 bytes, lands in shared SRAM, or waits with its command (R100,
R109). -/
def execAtomicResponse (s : State) : Host.Outcome State Fault Refusal :=
  s.packetEvent (·.plain .atomicResponse) fun k s =>
    match s.answered k with
    | some (i, c) =>
      match c.op with
      | .ratm _ _ _ _ _ _ => s.takeData i c 0 (leBytes 8 k.imm.toNat)
      | _ => s
    | none => s

/-- TRANSFER_ACKNOWLEDGEMENT (R115, R117, R269, R277, R279): one packet of the command has been performed. -/
def execTransferAcknowledgement (s : State) : Host.Outcome State Fault Refusal :=
  s.packetEvent (fun k => k.ptype == .transferAck) fun k s =>
    match k.info with
    | .exch q m _ _ => s.ackExchange k q m
    | .walker _ _ _ _ => s.ackWalker k
    | .row _ _ _ => s.ackWalker k
    | _ =>
      match s.answered k with
      | some (i, c) => s.lessAcks i c.num
      | none => s

/-- A notice tells of a response, to which no command belongs. -/
def Packet.ofAnswer (k : Packet) : Bool :=
  [PType.readResponse, .atomicResponse, .transferAck, .unreachable].any fun t => decide (k.op = BitVec.ofNat 8 t.code)

/-- UNREACHABLE_NOTICE (R130): the command completes with "link down". -/
def execUnreachableNotice (s : State) : Host.Outcome State Fault Refusal :=
  s.packetEvent (fun k => k.ptype == .unreachable) fun k s =>
    if k.ofAnswer then s else s.linkDown { k with ptype := .write, dst := k.addr.truncate 13 }

end Sys2Proof.Machine
end

