-- ==== Sys2Proof/Machine/Chain.lean ====
section
/-! DEFINITION. The chain-contraction engine: its slots of class 0xD, steps, tasks and boundary (R284 to R300). -/

namespace Sys2Proof.Machine

/-! ## Issue (R294) -/

/-- The engine's queue of 4 is full; CHABORT takes no entry. -/
def State.chainFull (s : State) : Bool := decide (4 ≤ (s.eng.chain.filter fun c => decide (c.op ≠ .abort)).length)

/-- MF of CHCFG. -/
def Ctl.chainMf (c : Ctl) : BitVec 3 := c.chcfg.extractLsb' 0 3

/-- CHCFG holds a format that a chain command may use. -/
def Ctl.chainMfOk (c : Ctl) : Bool := decide (c.chainMf.toNat < 6)

/-- A chain command as issued. -/
def Ctl.chcmd (c : Ctl) (num : Nat) (op : ChainOp) : ChCmd :=
  { num := num, pol := c.pol1, op := op, started := false, tries := 0, step := 0, inStep := false, toPost := [],
    posting := false, posted := [], failed := [], after := none, carryN := 0, carryF := .replicate 2 0, halted := false,
      haltOut := false,
    aborted := false, status := none }

/-- A chain command takes the next TLN number and a place in the engine's list. -/
def State.postChain (s : State) (op : ChainOp) : State :=
  let r := s.takeNumber 9
  { r.1 with eng.chain := s.eng.chain ++ [s.ctl.chcmd r.2 op] }

/-- A program of `n` steps at `a` is a multiple of 16 in the working store. -/
def progOk (a n : Nat) : Bool := decide (a % 16 = 0) && inWs a (16 * n)

/-- The program, step count and input count of CHAIN and CHSIZE. -/
def State.chainArgs (s : State) (e : BitVec 4) : Nat × Nat × Nat × Bool :=
  let a := s.stage e 0
  let x := s.stage e 1
  let n := x % 4096 + 1
  let count := x / 2 ^ 32
  (a, n, count, progOk a n && decide (x / 2 ^ 12 % 2 ^ 20 = 0) && decide (1 ≤ count) && s.ctl.chainMfOk)

/-- chain (R294, R295). -/
def execChain (g e : BitVec 4) (s : State) : Host.Outcome State Fault Refusal :=
  let x := s.chainArgs e
  s.stallSlot s.chainFull (s.slot g (limitFault x.2.2.2) fun s => s.postChain (.chain x.1 x.2.1 x.2.2.1))

/-- chstep: the one step held in the staging registers (R295). -/
def execChstep (g e : BitVec 4) (s : State) : Host.Outcome State Fault Refusal :=
  let x := s.stage e 2
  s.stallSlot s.chainFull (s.slot g (limitFault (decide (x % 2 ^ 32 = 0) && s.ctl.chainMfOk)) fun s =>
    s.postChain (.step (s.regs.re e.toNat) (s.regs.re (e.toNat + 1)) (x / 2 ^ 32)))

/-- chsize (R296). -/
def execChsize (g e : BitVec 4) (s : State) : Host.Outcome State Fault Refusal :=
  let x := s.chainArgs e
  let res := s.stage e 2
  s.stallSlot s.chainFull (s.slot g (limitFault (x.2.2.2 && decide (res % 8 = 0) && inWs res (8 * x.2.1))) fun s =>
    s.postChain (.size x.1 x.2.1 x.2.2.1 res))

/-- chabort: takes a TLN number and acts at the end of its issue cycle; CHCFG is checked for it as for the others (R294,
R297). -/
def execChabort (g : BitVec 4) (s : State) : Host.Outcome State Fault Refusal :=
  s.slot g (limitFault s.ctl.chainMfOk) fun s =>
    let r := s.takeNumber 9
    r.1.later (.chabort g) r.2 [s.ctl.pol1.zeroExtend 64]

/-- The end of a CHABORT's issue cycle (R297): the running command stops after the tasks it has posted, those queued
behind it are cancelled, and CHABORT completes after them; at once when the engine is idle. -/
def State.chainAbort (s : State) (num : Nat) (vals : List W64) : State :=
  let pol := polOf vals 0
  if s.cancels 9 num then s.complete 9 num pol 0x17
  else if s.eng.chain.isEmpty then s.complete 9 num pol 0x00
  else
    let f (c : ChCmd) : ChCmd :=
      if num ≤ c.num ∨ c.op = .abort then c
      else if !c.started then { c with started := true, aborted := true, status := some 0x17 }
      else if c.status.isSome then { c with aborted := true, status := c.status.map fun st => if isError st then 0x17 else st }
      else
        let c := { c with aborted := true, toPost := [], posting := false }
        if c.halted || !c.posted.isEmpty then c else { c with status := some 0x17 }
    { s with eng.chain := s.eng.chain.map f ++ [{ s.ctl.chcmd num .abort with pol := pol }] }

/-! ## The step (R287 to R289) -/

/-- A step that passes R288, with the values it was read with. -/
structure StepPlan where
  mf : BitVec 3
  l : Nat
  rt : Nat
  k : Nat
  r : Nat
  input : Nat
  output : Nat
  tr : Bool
  faddr : Nat
  epb : Nat
  epc : BitVec 9
  df : BitVec 4
  ibase : Nat
  obase : Nat
  ocap : Nat
  need : Nat
deriving DecidableEq, Repr

/-- BASE of a boundary buffer. -/
def Ctl.bndBase (c : Ctl) (i : Nat) : Nat := (vget c.bndbuf i 0).toNat % 2 ^ 32
/-- Capacity of a boundary buffer in bytes. -/
def Ctl.bndCap (c : Ctl) (i : Nat) : Nat := 32 * ((vget c.bndbuf i 0).toNat / 2 ^ 32 % 2 ^ 23)

/-- Round up to a multiple of 32. -/
def up32 (n : Nat) : Nat := (n + 31) / 32 * 32

/-- A step's values from its record, the bond registers, the buffers and CHCFG, for a boundary of `n` elements. -/
def State.stepPlan (s : State) (w0 w1 : W64) (n : Nat) : StepPlan :=
  let mf := s.ctl.chainMf
  let l := (vget s.regs.b (w0.extractLsb' 32 4).toNat 0).toNat
  let rt := (vget s.regs.b (w0.extractLsb' 36 4).toNat 0).toNat
  let k := ((w0.extractLsb' 40 8).toNat + 1) * l
  let r := n / k
  let input := if w0.getLsbD 48 then 1 else 0
  let output := if w0.getLsbD 49 then 1 else 0
  let df : BitVec 4 := w1.extractLsb' 41 4
  { mf := mf, l := l, rt := rt, k := k, r := r, input := input, output := output, tr := w0.getLsbD 50,
    faddr := w0.toNat % 2 ^ 32, epb := w1.toNat % 2 ^ 32, epc := w1.extractLsb' 32 9, df := df,
    ibase := s.ctl.bndBase input, obase := s.ctl.bndBase output, ocap := s.ctl.bndCap output,
    need := up32 (r * rt * fmtWidth df.toNat) }

/-- The record-fault conditions of R288, for a boundary of `n` elements. -/
def State.stepOk (s : State) (w0 w1 : W64) (n : Nat) : Bool :=
  let p := s.stepPlan w0 w1 n
  let w := fmtWidth (mfFmt p.mf)
  (w0.extractLsb' 51 13 == 0#13) && (w1.extractLsb' 45 19 == 0#19) && (p.epc.extractLsb' 0 2 != 3#2) &&
  (p.epc.extractLsb' 7 2 == 0#2) && (p.epb != 0 || p.epc.extractLsb' 3 3 == 0#3) && decide (p.input ≠ p.output) &&
  decide (1 ≤ p.l) && decide (p.l ≤ 256) && decide (1 ≤ p.rt) && decide (p.rt ≤ 256) && s.ctl.chainMfOk &&
  !s.ctl.chcfg.getLsbD 3 && decide (p.k ≤ 256) && decide (n % p.k = 0) &&
  (p.df == 0#4 || decide (p.df.toNat = mfFmt p.mf)) && (!p.tr || (decide (p.r ≤ 256) && decide (p.rt ≤ 128))) &&
  decide (p.faddr % 32 = 0) && decide (p.epb % 32 = 0) && inWs p.faddr (p.rt * p.k * w) &&
  (p.epb == 0 || inWs p.epb 2560) && inWs p.ibase (s.ctl.bndCap p.input) && inWs p.obase p.ocap &&
  decide (n * w ≤ s.ctl.bndCap p.input)

/-- The checks of a step against recorded formats (R288): the plan, or the status that ends the command. -/
def State.checkStep (s : State) (w0 w1 : W64) (n : Nat) (fmts : Vector (BitVec 4) 2) : Except Byte StepPlan :=
  if !s.stepOk w0 w1 n then .error 0x15
  else
    let p := s.stepPlan w0 w1 n
    if (vget fmts p.input 0).toNat = mfFmt p.mf then .ok p else .error 0x16

/-- A TSHAPE value. -/
def mkShape (fmt rows cols : Nat) : BitVec 24 := BitVec.ofNat 24 (fmt + (rows - 1) * 256 + (cols - 1) * 65536)

/-- A step's task `c`, still without its number, policy and draw state (R289, R291). -/
def StepPlan.task (p : StepPlan) (c : Nat) (tscr : BitVec 4) : Task :=
  let w := fmtWidth (mfFmt p.mf)
  let rows := if p.tr then p.r else min 256 (p.r - 256 * c)
  let f := mfFmt p.mf
  { num := 0, pol := 0, chain := true, ecls := if p.rt ≤ 128 then 0 else 1, eng := 0, mf := p.mf, z := true, wk := false,
    wm := true, am := true, dr := true, dm := !p.tr, dtr := p.tr, wt := 0, at_ := 0, dt := tscr, np := 0,
    waddr := p.faddr, aaddr := p.ibase + 256 * c * p.k * w,
    daddr := if p.tr then 0 else p.obase + 256 * c * p.rt * fmtWidth p.df.toNat, wstep := 0, astep := 0, epb := p.epb,
    epc := p.epc, wshape := mkShape f p.rt p.k, ashape := mkShape f rows p.k,
    dshape := if p.tr then mkShape p.df.toNat p.rt rows else mkShape p.df.toNat rows p.rt, conds := [], seed := 0,
    passes := 0, hold := none, runsOn := none, taken := [], tries := 0 }

/-- The tasks of a step, in ascending order. -/
def StepPlan.tasks (p : StepPlan) (tscr : BitVec 4) : List Task :=
  if p.r = 0 then []
  else if p.tr then [p.task 0 tscr]
  else (List.range ((p.r + 255) / 256)).map fun c => p.task c tscr

/-- What the step leaves when its tasks are complete. -/
def StepPlan.after (p : StepPlan) (tscr : BitVec 4) : StepEnd :=
  { elems := p.r * p.rt, out := p.output == 1, df := p.df, tr := p.tr, tile := tscr, rows := p.rt,
    rowBytes := p.r * fmtWidth p.df.toNat, base := p.obase }

/-! ## Running (R289 to R297) -/

/-- Change the chain command of a number. -/
def State.mapCh (s : State) (num : Nat) (f : ChCmd → ChCmd) : State :=
  { s with eng.chain := s.eng.chain.map fun c => if c.num = num then f c else c }

/-- Steps of a command. -/
def ChainOp.steps : ChainOp → Nat
  | .chain _ n _ => n
  | .step _ _ _ => 1
  | .size _ n _ _ => n
  | .abort => 0

/-- The record of step `i`, read when the step starts (R295). -/
def State.stepRecord (s : State) (op : ChainOp) (i : Nat) : W64 × W64 :=
  let read (a : Nat) : W64 × W64 :=
    (BitVec.ofNat 64 (leNat (s.load a 8)), BitVec.ofNat 64 (leNat (s.load (a + 8) 8)))
  match op with
  | .chain a _ _ => read (a + 16 * i)
  | .step w0 w1 _ => (w0, w1)
  | .size a _ _ _ => read (a + 16 * i)
  | .abort => (0, 0)

/-- The engine begins the command at the head of its list (R295, R296); in a killed context it is cancelled (R170). -/
def State.startChain (s : State) : State :=
  match s.eng.chain with
  | [] => s
  | c :: _ =>
    if c.started then s
    else if s.cancels 9 c.num then s.mapCh c.num fun c => { c with started := true, aborted := true, status := some 0x17 }
    else
      let f : BitVec 4 := BitVec.ofNat 4 (mfFmt s.ctl.chainMf)
      let fresh (s : State) (n : Nat) : State :=
        { s with ctl := { s.ctl with chelem := BitVec.ofNat 64 n, bndfmt := .replicate 2 f } }
      let s := s.mapCh c.num fun c => { c with started := true }
      match c.op with
      | .chain _ _ n => fresh s n
      | .step _ _ n => if n = 0 then s else fresh s n
      | .size _ _ n _ => s.mapCh c.num fun c => { c with carryN := n, carryF := .replicate 2 f }
      | .abort => s.mapCh c.num fun c => { c with status := some 0x00 }

/-- The step's end: CHELEM, the buffer that holds the boundary and its format, and for a transposing step the rows of the
tile (R289, R291). -/
def State.applyStep (s : State) (e : StepEnd) : State :=
  let rows := (List.range e.rows).flatMap fun r => getBytes s.tiles.bytes (tileKey e.tile.toNat (1024 * r)) e.rowBytes
  let s := if e.tr then s.storeEng e.base rows else s
  { s with ctl := { s.ctl with
      chelem := BitVec.ofNat 64 e.elems, bndAt := e.out, bndfmt := vset s.ctl.bndfmt (if e.out then 1 else 0) e.df } }

/-- The failing task of the lowest number. -/
def lowestFail : List (Nat × Byte) → Option (Nat × Byte)
  | [] => none
  | x :: r => match lowestFail r with
    | some y => some (if y.1 < x.1 then y else x)
    | none => some x

/-- A step whose tasks are all complete ends: the command fails, is cancelled, goes on to its next step, or is complete
(R289, R297, R299). A step that a CHABORT finds wholly posted is not applied (DESIGN CHOICE, log 57). -/
def State.endStep (s : State) (c : ChCmd) : State :=
  if !c.toPost.isEmpty || !c.posted.isEmpty then s
  else if c.aborted then s.mapCh c.num fun c => { c with inStep := false, status := some 0x17 }
  else match lowestFail c.failed with
    | some f => s.mapCh c.num fun c => { c with inStep := false, status := some f.2 }
    | none =>
      match c.after with
      | none => s
      | some e =>
        (s.applyStep e).mapCh c.num fun c =>
          { c with inStep := false, after := none, step := c.step + 1,
                   status := if c.op.steps ≤ c.step + 1 then some 0x00 else none }

/-- A boundary overflow (R292, R293): the engine halts and the trap is raised, or, with no handler, the command completes
with "record fault"; also after the program's end, when no handler can run (DESIGN CHOICE, log 57). -/
def State.haltChain (s : State) (c : ChCmd) (p : StepPlan) : State :=
  let s := { s with ctl.chneed := BitVec.ofNat 64 p.need }
  if s.stream.mode.isEnded ∨ (s.ctl.trapvec = 0 ∧ s.ctl.inHandler = false) then
    s.mapCh c.num fun c => { c with status := some 0x15 }
  else
    let s := s.mapCh c.num fun c => { c with halted := true, haltOut := p.output == 1 }
    s.raisePending 0x04 s.chstat s.ctl.chneed

/-- CHSIZE's next step: the checks and the size, carried inside the command (R296). -/
def State.sizeStep (s : State) (c : ChCmd) (res : Nat) : State :=
  let w := s.stepRecord c.op c.step
  match s.checkStep w.1 w.2 c.carryN c.carryF with
  | .error st => s.mapCh c.num fun c => { c with status := some st }
  | .ok p =>
    let s := s.storeEng (res + 8 * c.step) (leBytes 8 p.need)
    s.mapCh c.num fun c =>
      { c with step := c.step + 1, carryN := p.r * p.rt, carryF := vset c.carryF p.output p.df,
               status := if c.op.steps ≤ c.step + 1 then some 0x00 else none }

/-- The running command starts its next step (R288, R289, R292). -/
def State.startStep (s : State) (c : ChCmd) : State :=
  match c.op with
  | .size _ _ _ res => s.sizeStep c res
  | _ =>
    let w := s.stepRecord c.op c.step
    match s.checkStep w.1 w.2 s.ctl.chelem.toNat s.ctl.bndfmt with
    | .error st => s.mapCh c.num fun c => { c with status := some st }
    | .ok p =>
      if p.ocap < p.need then s.haltChain c p
      else
        let tscr : BitVec 4 := s.ctl.chcfg.extractLsb' 4 4
        let c' := { c with inStep := true, toPost := p.tasks tscr, posted := [], failed := [],
                           after := some (p.after tscr) }
        (({ s with ctl.bndAt := decide (p.input = 1) } : State).mapCh c.num fun _ => c').endStep c'

/-- A step may start: the engine runs a command that is between two steps; none starts while the die waits in an image stop
(R300, R331). -/
def State.stepDue (s : State) : Option ChCmd :=
  match s.eng.chain with
  | [] => none
  | c :: _ =>
    let stopping := match s.stream.mode with
      | .imageStop _ _ => true
      | _ => false
    if c.started && c.status.isNone && !c.inStep && !c.halted && !stopping then some c else none

/-- CHAIN_STEP_START. -/
def execChainStepStart (s : State) : Host.Outcome State Fault Refusal :=
  if s.halted then .next s
  else match s.stepDue with
    | some c => .next (s.startStep c)
    | none => .next s

/-- A task of the engine has completed (R299). -/
def State.chainTaskDone (s : State) (num : Nat) (st : Byte) : State :=
  match s.eng.chain.find? fun c => c.posted.contains num with
  | none => s
  | some c =>
    let c := { c with posted := c.posted.filter (fun n => decide (n ≠ num)),
                      failed := if isError st then (num, st) :: c.failed else c.failed }
    (s.mapCh c.num fun _ => c).endStep c

/-- A task may be posted: the running step has one, and one of the four reserved entries is free (R165, R290). -/
def State.chainPostDue (s : State) : Option (ChCmd × Task) :=
  match s.eng.chain with
  | [] => none
  | c :: _ =>
    match c.toPost with
    | [] => none
    | t :: _ =>
      if c.inStep && c.status.isNone && decide ((s.eng.tasks.filter (·.chain)).length < 4) then some (c, t) else none

/-- CHAIN_TASK_POST (R290, R298): the engine posts its next task in the coming cycle, after the numbers of the bundle. -/
def execChainTaskPost (s : State) : Host.Outcome State Fault Refusal :=
  if s.halted then .next s
  else match s.chainPostDue with
    | none => .next s
    | some (c, _) => .next (s.mapCh c.num fun c => { c with posting := true })

/-- The post of this cycle: the task takes the next TLM number and enters the table (R290). -/
def State.chainPost (s : State) : State :=
  match s.chainPostDue with
  | none => s
  | some (c, t) =>
    if c.posting then
      let r := s.takeNumber 8
      let t := { t with num := r.2, pol := s.ctl.pol1, seed := taskSeed r.2 s.ctl.srstate }
      let dead := (s.line 8).killed
      let s := r.1.mapCh c.num fun c => { c with toPost := c.toPost.tail, posting := false, posted := r.2 :: c.posted }
      let s := s.enterTask r.2 t.pol (some t)
      if dead then s.chainTaskDone r.2 0x17 else s
    else s

/-- What the handler of a boundary overflow leaves by RTE (R293): the halted step begins afresh, or the command is
cancelled. -/
def State.releaseChain (s : State) : State :=
  if s.ctl.tcause = 0x04 then
    { s with eng.chain := s.eng.chain.map fun c =>
        if c.halted then { c with halted := false, status := if c.aborted then some 0x17 else c.status } else c }
  else s

/-- The halted command completes with "record fault" (R293). -/
def State.endHalted (s : State) : State :=
  { s with eng.chain := s.eng.chain.map fun c => if c.halted then { c with halted := false, status := some 0x15 } else c }

/-- A re-raised boundary overflow completes its command with "record fault" (R293). -/
def State.failHalted (s : State) : State := if s.ctl.tcause = 0x04 then s.endHalted else s

/-- The chain command at the head is complete. -/
def ChCmd.finished (c : ChCmd) : Bool := c.started && c.status.isSome && !c.halted && c.posted.isEmpty

/-- A chain command completes, or runs again from step 0 under the retry policy (R170, R299), unless it was cancelled itself. -/
def State.finishCh (s : State) (c : ChCmd) : State :=
  let st := c.status.getD 0x00
  if isError st && decide (c.pol = 1) && decide (c.tries < 3) && !c.aborted then
    s.mapCh c.num fun c => { s.ctl.chcmd c.num c.op with pol := c.pol, tries := c.tries + 1 }
  else
    ({ s with eng.chain := s.eng.chain.filter fun x => decide (x.num ≠ c.num) } : State).complete 9 c.num c.pol st

end Sys2Proof.Machine
end

