-- ==== Sys2Proof/Decode.lean ====
section
/-! DEFINITION. Decoding of slots, headers and bundles (R174 to R181), total, and the encoder written from the same
tables. A word is the number that its bytes spell little-endian. A slot that does not decode answers the cause of R185
that its own bits decide: 0x8 unassigned, 0x9 reserved bit, 0xA operand outside its limit, lowest first. -/

namespace Sys2Proof

/-- Bits [lo+n-1:lo] of a word. -/
def fld (w lo n : Nat) : BitVec n := BitVec.ofNat n (w / 2 ^ lo)

/-- The 18-bit immediate or offset of R181: the extension byte above the ten bits of the slot, or those ten bits
sign-extended when the bundle has no extension header. -/
def imm18 (x : Option Nat) (w : Nat) : BitVec 18 :=
  match x with
  | some b => BitVec.ofNat 18 (b % 256 * 1024 + w % 1024)
  | none => BitVec.ofNat 18 (if w % 1024 < 512 then w % 1024 else w % 1024 + 0x3FC00)

/-- Register C from the extension byte; without one, register 0 (R181, R203, R224). -/
def regC (x : Option Nat) : BitVec 5 := BitVec.ofNat 5 (x.getD 0)

/-- An instruction that takes an immediate takes every extension byte. -/
def extImm : Bool := true
/-- An instruction that takes register C needs bits [7:5] of its byte zero (R177). -/
def extC (x : Option Nat) : Bool := decide (x.getD 0 / 32 = 0)
/-- Any other instruction needs a zero byte (R181). -/
def extNone (x : Option Nat) : Bool := decide (x.getD 0 = 0)

/-- The named bits are all zero. -/
def allZero (w : Nat) : List (Nat × Nat) → Bool
  | [] => true
  | (lo, n) :: r => decide (w / 2 ^ lo % 2 ^ n = 0) && allZero w r

/-- Cause 0x9 for a reserved bit or byte, then cause 0xA for a limit, then the instruction. -/
def finish (ext : Bool) (w : Nat) (reserved limited : List (Nat × Nat)) (i : Instr) : Except Nat Instr :=
  if !(ext && allZero w reserved) then .error 0x9
  else if !(allZero w limited && i.wf) then .error 0xA
  else .ok i

/-- A sub-field value that no form of the opcode lists: cause 0x9 for a bit that every listed form reserves, else 0xA. -/
def noForm (ext : Bool) (w : Nat) (reserved : List (Nat × Nat)) : Except Nat Instr :=
  .error (if ext && allZero w reserved then 0xA else 0x9)

/-- Class 0x0: scalar arithmetic (R203). -/
def decode0 (x : Option Nat) (w : Nat) : Except Nat Instr :=
  match w / 2 ^ 18 % 2 ^ 6 with
  | 0x0 => finish (extNone x) w [(0, 18)] [] (.nop (fld w 24 4))
  | 0x1 => finish (extNone x) w [(0, 3)] [] (.add (fld w 24 4) (fld w 13 5) (fld w 8 5) (fld w 3 5))
  | 0x2 => finish (extNone x) w [(0, 3)] [] (.sub (fld w 24 4) (fld w 13 5) (fld w 8 5) (fld w 3 5))
  | 0x3 => finish (extNone x) w [(0, 3)] [] (.and (fld w 24 4) (fld w 13 5) (fld w 8 5) (fld w 3 5))
  | 0x4 => finish (extNone x) w [(0, 3)] [] (.or (fld w 24 4) (fld w 13 5) (fld w 8 5) (fld w 3 5))
  | 0x5 => finish (extNone x) w [(0, 3)] [] (.xor (fld w 24 4) (fld w 13 5) (fld w 8 5) (fld w 3 5))
  | 0x6 => finish (extNone x) w [(0, 3)] [] (.andn (fld w 24 4) (fld w 13 5) (fld w 8 5) (fld w 3 5))
  | 0x7 => finish (extNone x) w [(0, 3)] [] (.shl (fld w 24 4) (fld w 13 5) (fld w 8 5) (fld w 3 5))
  | 0x8 => finish (extNone x) w [(0, 3)] [] (.shr (fld w 24 4) (fld w 13 5) (fld w 8 5) (fld w 3 5))
  | 0x9 => finish (extNone x) w [(0, 3)] [] (.sar (fld w 24 4) (fld w 13 5) (fld w 8 5) (fld w 3 5))
  | 0xA => finish (extNone x) w [(0, 3)] [] (.ror (fld w 24 4) (fld w 13 5) (fld w 8 5) (fld w 3 5))
  | 0xB =>
    match w / 2 ^ 0 % 2 ^ 3 with
    | 0 => finish (extNone x) w [] [] (.min (fld w 24 4) (fld w 13 5) (fld w 8 5) (fld w 3 5))
    | 1 => finish (extNone x) w [] [] (.minN (fld w 24 4) (fld w 13 5) (fld w 8 5) (fld w 3 5))
    | _ => noForm (extNone x) w []
  | 0xC =>
    match w / 2 ^ 0 % 2 ^ 3 with
    | 0 => finish (extNone x) w [] [] (.max (fld w 24 4) (fld w 13 5) (fld w 8 5) (fld w 3 5))
    | 1 => finish (extNone x) w [] [] (.maxN (fld w 24 4) (fld w 13 5) (fld w 8 5) (fld w 3 5))
    | _ => noForm (extNone x) w []
  | 0xD => finish (extNone x) w [(0, 3)] [] (.mul (fld w 24 4) (fld w 13 5) (fld w 8 5) (fld w 3 5))
  | 0xE =>
    match w / 2 ^ 0 % 2 ^ 3 with
    | 0 => finish (extNone x) w [] [] (.mulh (fld w 24 4) (fld w 13 5) (fld w 8 5) (fld w 3 5))
    | 1 => finish (extNone x) w [] [] (.mulhN (fld w 24 4) (fld w 13 5) (fld w 8 5) (fld w 3 5))
    | _ => noForm (extNone x) w []
  | 0xF => finish (extC x) w [(0, 3)] [] (.madd (fld w 24 4) (fld w 13 5) (fld w 8 5) (fld w 3 5) (regC x))
  | 0x10 =>
    match w / 2 ^ 0 % 2 ^ 3 with
    | 0 => finish (extNone x) w [] [] (.div (fld w 24 4) (fld w 13 5) (fld w 8 5) (fld w 3 5))
    | 1 => finish (extNone x) w [] [] (.divN (fld w 24 4) (fld w 13 5) (fld w 8 5) (fld w 3 5))
    | _ => noForm (extNone x) w []
  | 0x11 =>
    match w / 2 ^ 0 % 2 ^ 3 with
    | 0 => finish (extNone x) w [] [] (.rem (fld w 24 4) (fld w 13 5) (fld w 8 5) (fld w 3 5))
    | 1 => finish (extNone x) w [] [] (.remN (fld w 24 4) (fld w 13 5) (fld w 8 5) (fld w 3 5))
    | _ => noForm (extNone x) w []
  | 0x12 =>
    match w / 2 ^ 0 % 2 ^ 3 with
    | 0 => finish (extNone x) w [(3, 5)] [] (.sextB (fld w 24 4) (fld w 13 5) (fld w 8 5))
    | 1 => finish (extNone x) w [(3, 5)] [] (.sextH (fld w 24 4) (fld w 13 5) (fld w 8 5))
    | 2 => finish (extNone x) w [(3, 5)] [] (.sextW (fld w 24 4) (fld w 13 5) (fld w 8 5))
    | 4 => finish (extNone x) w [(3, 5)] [] (.zextB (fld w 24 4) (fld w 13 5) (fld w 8 5))
    | 5 => finish (extNone x) w [(3, 5)] [] (.zextH (fld w 24 4) (fld w 13 5) (fld w 8 5))
    | 6 => finish (extNone x) w [(3, 5)] [] (.zextW (fld w 24 4) (fld w 13 5) (fld w 8 5))
    | _ => noForm (extNone x) w [(3, 5)]
  | 0x13 =>
    match w / 2 ^ 0 % 2 ^ 3 with
    | 0 => finish (extNone x) w [(3, 5)] [] (.popc (fld w 24 4) (fld w 13 5) (fld w 8 5))
    | 1 => finish (extNone x) w [(3, 5)] [] (.clz (fld w 24 4) (fld w 13 5) (fld w 8 5))
    | 2 => finish (extNone x) w [(3, 5)] [] (.ctz (fld w 24 4) (fld w 13 5) (fld w 8 5))
    | _ => noForm (extNone x) w [(3, 5)]
  | _ => .error 0x8

/-- Class 0x1: immediate arithmetic (R204). -/
def decode1 (x : Option Nat) (w : Nat) : Except Nat Instr :=
  match w / 2 ^ 20 % 2 ^ 4 with
  | 0x0 => finish (extImm) w [] [] (.addi (fld w 24 4) (fld w 15 5) (fld w 10 5) (imm18 x w))
  | 0x1 => finish (extImm) w [] [] (.andi (fld w 24 4) (fld w 15 5) (fld w 10 5) (imm18 x w))
  | 0x2 => finish (extImm) w [] [] (.ori (fld w 24 4) (fld w 15 5) (fld w 10 5) (imm18 x w))
  | 0x3 => finish (extImm) w [] [] (.xori (fld w 24 4) (fld w 15 5) (fld w 10 5) (imm18 x w))
  | 0x4 => finish (extImm) w [] [] (.shli (fld w 24 4) (fld w 15 5) (fld w 10 5) (imm18 x w))
  | 0x5 => finish (extImm) w [] [] (.shri (fld w 24 4) (fld w 15 5) (fld w 10 5) (imm18 x w))
  | 0x6 => finish (extImm) w [] [] (.sari (fld w 24 4) (fld w 15 5) (fld w 10 5) (imm18 x w))
  | 0x7 => finish (extImm) w [] [] (.shori (fld w 24 4) (fld w 15 5) (fld w 10 5) (imm18 x w))
  | _ => .error 0x8

/-- Class 0x2: address arithmetic and moves (R205). -/
def decode2 (x : Option Nat) (w : Nat) : Except Nat Instr :=
  match w / 2 ^ 18 % 2 ^ 6 with
  | 0x0 => finish (extNone x) w [] [] (.adda (fld w 24 4) (fld w 13 5) (fld w 8 5) (fld w 3 5) (fld w 0 3))
  | 0x1 => finish (extNone x) w [(0, 8)] [] (.movAS (fld w 24 4) (fld w 13 5) (fld w 8 5))
  | 0x2 => finish (extNone x) w [(0, 8)] [] (.movSA (fld w 24 4) (fld w 13 5) (fld w 8 5))
  | 0x3 => finish (extNone x) w [(0, 8)] [] (.movNS (fld w 24 4) (fld w 13 5) (fld w 8 5))
  | 0x4 => finish (extNone x) w [(0, 8)] [] (.movSN (fld w 24 4) (fld w 13 5) (fld w 8 5))
  | 0x5 => finish (extNone x) w [(0, 8)] [] (.movES (fld w 24 4) (fld w 13 5) (fld w 8 5))
  | 0x6 => finish (extNone x) w [(0, 8)] [] (.movSE (fld w 24 4) (fld w 13 5) (fld w 8 5))
  | 0x7 => finish (extNone x) w [(0, 3)] [] (.movToControl (fld w 24 4) (fld w 13 5) (fld w 8 5) (fld w 3 5))
  | 0x8 => finish (extNone x) w [(0, 3)] [] (.movFromControl (fld w 24 4) (fld w 13 5) (fld w 8 5) (fld w 3 5))
  | 0x9 =>
    match w / 2 ^ 0 % 2 ^ 3 with
    | 0 => finish (extNone x) w [(3, 5)] [] (.movGS (fld w 24 4) (fld w 13 5) (fld w 8 5))
    | 1 => finish (extNone x) w [(3, 5)] [] (.movSG (fld w 24 4) (fld w 13 5) (fld w 8 5))
    | 2 => finish (extNone x) w [(3, 10)] [] (.gget (fld w 24 4) (fld w 13 5))
    | 3 => finish (extNone x) w [(3, 5), (13, 5)] [] (.gset (fld w 24 4) (fld w 8 5))
    | _ => noForm (extNone x) w [(3, 5)]
  | _ => .error 0x8

/-- Class 0x3: compares (R208). -/
def decode3 (x : Option Nat) (w : Nat) : Except Nat Instr :=
  match w / 2 ^ 20 % 2 ^ 4 with
  | 0x0 =>
    match w / 2 ^ 10 % 2 ^ 1 with
    | 0 => finish (extNone x) w [(0, 5)] [] (.cmpEq (fld w 24 4) (fld w 16 4) (fld w 11 5) (fld w 5 5))
    | _ => finish (extImm) w [] [] (.cmpEqImm (fld w 24 4) (fld w 16 4) (fld w 11 5) (imm18 x w))
  | 0x1 =>
    match w / 2 ^ 10 % 2 ^ 1 with
    | 0 => finish (extNone x) w [(0, 5)] [] (.cmpLt (fld w 24 4) (fld w 16 4) (fld w 11 5) (fld w 5 5))
    | _ => finish (extImm) w [] [] (.cmpLtImm (fld w 24 4) (fld w 16 4) (fld w 11 5) (imm18 x w))
  | 0x2 =>
    match w / 2 ^ 10 % 2 ^ 1 with
    | 0 => finish (extNone x) w [(0, 5)] [] (.cmpLe (fld w 24 4) (fld w 16 4) (fld w 11 5) (fld w 5 5))
    | _ => finish (extImm) w [] [] (.cmpLeImm (fld w 24 4) (fld w 16 4) (fld w 11 5) (imm18 x w))
  | 0x3 =>
    match w / 2 ^ 10 % 2 ^ 1 with
    | 0 => finish (extNone x) w [(0, 5)] [] (.cmpLtn (fld w 24 4) (fld w 16 4) (fld w 11 5) (fld w 5 5))
    | _ => finish (extImm) w [] [] (.cmpLtnImm (fld w 24 4) (fld w 16 4) (fld w 11 5) (imm18 x w))
  | 0x4 =>
    match w / 2 ^ 10 % 2 ^ 1 with
    | 0 => finish (extNone x) w [(0, 5)] [] (.cmpLen (fld w 24 4) (fld w 16 4) (fld w 11 5) (fld w 5 5))
    | _ => finish (extImm) w [] [] (.cmpLenImm (fld w 24 4) (fld w 16 4) (fld w 11 5) (imm18 x w))
  | 0x5 =>
    match w / 2 ^ 10 % 2 ^ 1 with
    | 0 => finish (extNone x) w [(0, 5)] [] (.cmpTst (fld w 24 4) (fld w 16 4) (fld w 11 5) (fld w 5 5))
    | _ => finish (extImm) w [] [] (.cmpTstImm (fld w 24 4) (fld w 16 4) (fld w 11 5) (imm18 x w))
  | _ => .error 0x8

/-- Class 0x4: control flow and waits (R209, R211, R213, R216). -/
def decode4 (x : Option Nat) (w : Nat) : Except Nat Instr :=
  match w / 2 ^ 20 % 2 ^ 4 with
  | 0x0 =>
    match w / 2 ^ 19 % 2 ^ 1 with
    | 1 => finish (extNone x) w [] [] (.brT (fld w 24 4) (fld w 0 19))
    | _ => finish (extNone x) w [] [] (.brNt (fld w 24 4) (fld w 0 19))
  | 0x1 => finish (extNone x) w [(19, 1)] [] (.call (fld w 24 4) (fld w 0 19))
  | 0x2 => finish (extNone x) w [(0, 10), (15, 5)] [] (.bri (fld w 24 4) (fld w 10 5))
  | 0x3 => finish (extNone x) w [(0, 10), (15, 5)] [] (.ret (fld w 24 4) (fld w 10 5))
  | 0x4 => finish (extNone x) w [(0, 3)] [] (.loop (fld w 24 4) (fld w 18 2) (fld w 8 10) (fld w 3 5))
  | 0x5 => finish (extNone x) w [(0, 4)] [] (.wait (fld w 24 4) (fld w 16 4) (fld w 12 4) (fld w 8 4) (fld w 4 4))
  | 0x6 => finish (extNone x) w [(0, 11)] [] (.waitt (fld w 24 4) (fld w 16 4) (fld w 11 5))
  | 0x7 => finish (extNone x) w [(0, 20)] [] (.fence (fld w 24 4))
  | 0x8 => finish (extNone x) w [(0, 18)] [] (.lpoff (fld w 24 4) (fld w 18 2))
  | _ => .error 0x8

/-- Class 0x5: scalar memory (R219, R222). -/
def decode5 (x : Option Nat) (w : Nat) : Except Nat Instr :=
  match w / 2 ^ 20 % 2 ^ 4 with
  | 0x0 => finish (extImm) w [] [] (.ldB (fld w 24 4) (fld w 15 5) (fld w 11 4) (fld w 10 1) (imm18 x w))
  | 0x1 => finish (extImm) w [] [] (.ldH (fld w 24 4) (fld w 15 5) (fld w 11 4) (fld w 10 1) (imm18 x w))
  | 0x2 => finish (extImm) w [] [] (.ldW (fld w 24 4) (fld w 15 5) (fld w 11 4) (fld w 10 1) (imm18 x w))
  | 0x3 => finish (extImm) w [] [] (.ldD (fld w 24 4) (fld w 15 5) (fld w 11 4) (fld w 10 1) (imm18 x w))
  | 0x4 => finish (extImm) w [] [] (.stB (fld w 24 4) (fld w 15 5) (fld w 11 4) (fld w 10 1) (imm18 x w))
  | 0x5 => finish (extImm) w [] [] (.stH (fld w 24 4) (fld w 15 5) (fld w 11 4) (fld w 10 1) (imm18 x w))
  | 0x6 => finish (extImm) w [] [] (.stW (fld w 24 4) (fld w 15 5) (fld w 11 4) (fld w 10 1) (imm18 x w))
  | 0x7 => finish (extImm) w [] [] (.stD (fld w 24 4) (fld w 15 5) (fld w 11 4) (fld w 10 1) (imm18 x w))
  | 0x8 => finish (extNone x) w [] [] (.atmW (fld w 24 4) (fld w 15 5) (fld w 11 4) (fld w 10 1) (fld w 6 4) (fld w 0 6))
  | 0x9 => finish (extNone x) w [] [] (.atmD (fld w 24 4) (fld w 15 5) (fld w 11 4) (fld w 10 1) (fld w 6 4) (fld w 0 6))
  | _ => .error 0x8

/-- Class 0x6: vector integer and logic (R225). -/
def decode6 (x : Option Nat) (w : Nat) : Except Nat Instr :=
  match w / 2 ^ 18 % 2 ^ 6 with
  | 0x0 => finish (extNone x) w [] [] (.vand (fld w 24 4) (fld w 13 5) (fld w 8 5) (fld w 3 5) (fld w 0 3))
  | 0x1 => finish (extNone x) w [] [] (.vor (fld w 24 4) (fld w 13 5) (fld w 8 5) (fld w 3 5) (fld w 0 3))
  | 0x2 => finish (extNone x) w [] [] (.vxor (fld w 24 4) (fld w 13 5) (fld w 8 5) (fld w 3 5) (fld w 0 3))
  | 0x3 => finish (extNone x) w [] [] (.vandn (fld w 24 4) (fld w 13 5) (fld w 8 5) (fld w 3 5) (fld w 0 3))
  | 0x4 => finish (extNone x) w [] [] (.vaddI32 (fld w 24 4) (fld w 13 5) (fld w 8 5) (fld w 3 5) (fld w 0 3))
  | 0x5 => finish (extNone x) w [] [] (.vsubI32 (fld w 24 4) (fld w 13 5) (fld w 8 5) (fld w 3 5) (fld w 0 3))
  | 0x6 => finish (extNone x) w [] [] (.vmulI32 (fld w 24 4) (fld w 13 5) (fld w 8 5) (fld w 3 5) (fld w 0 3))
  | 0x7 => finish (extNone x) w [] [] (.vaddI16 (fld w 24 4) (fld w 13 5) (fld w 8 5) (fld w 3 5) (fld w 0 3))
  | 0x8 => finish (extNone x) w [] [] (.vsubI16 (fld w 24 4) (fld w 13 5) (fld w 8 5) (fld w 3 5) (fld w 0 3))
  | 0x9 => finish (extNone x) w [] [] (.vaddsI16 (fld w 24 4) (fld w 13 5) (fld w 8 5) (fld w 3 5) (fld w 0 3))
  | 0xA => finish (extNone x) w [] [] (.vsubsI16 (fld w 24 4) (fld w 13 5) (fld w 8 5) (fld w 3 5) (fld w 0 3))
  | 0xB => finish (extNone x) w [] [] (.vaddI8 (fld w 24 4) (fld w 13 5) (fld w 8 5) (fld w 3 5) (fld w 0 3))
  | 0xC => finish (extNone x) w [] [] (.vsubI8 (fld w 24 4) (fld w 13 5) (fld w 8 5) (fld w 3 5) (fld w 0 3))
  | 0xD => finish (extNone x) w [] [] (.vaddsI8 (fld w 24 4) (fld w 13 5) (fld w 8 5) (fld w 3 5) (fld w 0 3))
  | 0xE => finish (extNone x) w [] [] (.vsubsI8 (fld w 24 4) (fld w 13 5) (fld w 8 5) (fld w 3 5) (fld w 0 3))
  | 0xF => finish (extNone x) w [] [] (.vminI32 (fld w 24 4) (fld w 13 5) (fld w 8 5) (fld w 3 5) (fld w 0 3))
  | 0x10 => finish (extNone x) w [] [] (.vmaxI32 (fld w 24 4) (fld w 13 5) (fld w 8 5) (fld w 3 5) (fld w 0 3))
  | 0x11 => finish (extNone x) w [] [] (.vminN32 (fld w 24 4) (fld w 13 5) (fld w 8 5) (fld w 3 5) (fld w 0 3))
  | 0x12 => finish (extNone x) w [] [] (.vmaxN32 (fld w 24 4) (fld w 13 5) (fld w 8 5) (fld w 3 5) (fld w 0 3))
  | 0x13 => finish (extNone x) w [] [] (.vshlI32 (fld w 24 4) (fld w 13 5) (fld w 8 5) (fld w 3 5) (fld w 0 3))
  | 0x14 => finish (extNone x) w [] [] (.vshrN32 (fld w 24 4) (fld w 13 5) (fld w 8 5) (fld w 3 5) (fld w 0 3))
  | 0x15 => finish (extNone x) w [] [] (.vsarI32 (fld w 24 4) (fld w 13 5) (fld w 8 5) (fld w 3 5) (fld w 0 3))
  | 0x3C => finish (extC x) w [] [] (.vdot4I8 (fld w 24 4) (fld w 13 5) (fld w 8 5) (fld w 3 5) (fld w 0 3) (regC x))
  | 0x3D => finish (extC x) w [] [] (.vdot4N8 (fld w 24 4) (fld w 13 5) (fld w 8 5) (fld w 3 5) (fld w 0 3) (regC x))
  | 0x3E => finish (extC x) w [] [] (.vdot2I16 (fld w 24 4) (fld w 13 5) (fld w 8 5) (fld w 3 5) (fld w 0 3) (regC x))
  | 0x3F => finish (extC x) w [] [] (.vdot2N16 (fld w 24 4) (fld w 13 5) (fld w 8 5) (fld w 3 5) (fld w 0 3) (regC x))
  | _ => .error 0x8

/-- Class 0x7: vector floating arithmetic (R227). -/
def decode7 (x : Option Nat) (w : Nat) : Except Nat Instr :=
  match w / 2 ^ 18 % 2 ^ 6 with
  | 0x0 => finish (extNone x) w [] [] (.vaddF32 (fld w 24 4) (fld w 13 5) (fld w 8 5) (fld w 3 5) (fld w 0 3))
  | 0x1 => finish (extNone x) w [] [] (.vsubF32 (fld w 24 4) (fld w 13 5) (fld w 8 5) (fld w 3 5) (fld w 0 3))
  | 0x2 => finish (extNone x) w [] [] (.vmulF32 (fld w 24 4) (fld w 13 5) (fld w 8 5) (fld w 3 5) (fld w 0 3))
  | 0x3 => finish (extC x) w [] [] (.vfmaF32 (fld w 24 4) (fld w 13 5) (fld w 8 5) (fld w 3 5) (fld w 0 3) (regC x))
  | 0x4 => finish (extC x) w [] [] (.vfmsF32 (fld w 24 4) (fld w 13 5) (fld w 8 5) (fld w 3 5) (fld w 0 3) (regC x))
  | 0x5 => finish (extNone x) w [] [] (.vminF32 (fld w 24 4) (fld w 13 5) (fld w 8 5) (fld w 3 5) (fld w 0 3))
  | 0x6 => finish (extNone x) w [] [] (.vmaxF32 (fld w 24 4) (fld w 13 5) (fld w 8 5) (fld w 3 5) (fld w 0 3))
  | 0x7 => finish (extNone x) w [] [] (.vsubBf16 (fld w 24 4) (fld w 13 5) (fld w 8 5) (fld w 3 5) (fld w 0 3))
  | 0x8 => finish (extNone x) w [] [] (.vaddBf16 (fld w 24 4) (fld w 13 5) (fld w 8 5) (fld w 3 5) (fld w 0 3))
  | 0x9 => finish (extNone x) w [] [] (.vmulBf16 (fld w 24 4) (fld w 13 5) (fld w 8 5) (fld w 3 5) (fld w 0 3))
  | 0xA => finish (extC x) w [] [] (.vfmaBf16 (fld w 24 4) (fld w 13 5) (fld w 8 5) (fld w 3 5) (fld w 0 3) (regC x))
  | 0xB => finish (extNone x) w [] [] (.vaddF16 (fld w 24 4) (fld w 13 5) (fld w 8 5) (fld w 3 5) (fld w 0 3))
  | 0xC => finish (extNone x) w [] [] (.vmulF16 (fld w 24 4) (fld w 13 5) (fld w 8 5) (fld w 3 5) (fld w 0 3))
  | 0xD => finish (extC x) w [] [] (.vfmaF16 (fld w 24 4) (fld w 13 5) (fld w 8 5) (fld w 3 5) (fld w 0 3) (regC x))
  | 0xE => finish (extNone x) w [(3, 5)] [] (.vrcpaF32 (fld w 24 4) (fld w 13 5) (fld w 8 5) (fld w 0 3))
  | 0xF => finish (extNone x) w [(3, 5)] [] (.vrsqaF32 (fld w 24 4) (fld w 13 5) (fld w 8 5) (fld w 0 3))
  | _ => .error 0x8

/-- Class 0x8: vector conversion and lanes (R229 to R235). -/
def decode8 (x : Option Nat) (w : Nat) : Except Nat Instr :=
  match w / 2 ^ 18 % 2 ^ 6 with
  | 0x0 =>
    match w / 2 ^ 3 % 2 ^ 2 with
    | 0 => finish (extNone x) w [] [(5, 1)] (.vcvtF32I32 (fld w 24 4) (fld w 13 5) (fld w 8 5) (fld w 6 2) (fld w 0 3))
    | 1 => finish (extNone x) w [] [(5, 1)] (.vcvtF32N32 (fld w 24 4) (fld w 13 5) (fld w 8 5) (fld w 6 2) (fld w 0 3))
    | _ => noForm (extNone x) w []
  | 0x1 =>
    match w / 2 ^ 3 % 2 ^ 2 with
    | 0 => finish (extNone x) w [] [(5, 1)] (.vcvtI32F32 (fld w 24 4) (fld w 13 5) (fld w 8 5) (fld w 6 2) (fld w 0 3))
    | 1 => finish (extNone x) w [] [(5, 1)] (.vcvtN32F32 (fld w 24 4) (fld w 13 5) (fld w 8 5) (fld w 6 2) (fld w 0 3))
    | _ => noForm (extNone x) w []
  | 0x2 => finish (extNone x) w [] [(3, 3)] (.vcvtBf16F32 (fld w 24 4) (fld w 13 5) (fld w 8 5) (fld w 6 2) (fld w 0 3))
  | 0x3 => finish (extNone x) w [] [(3, 3)] (.vcvtF16F32 (fld w 24 4) (fld w 13 5) (fld w 8 5) (fld w 6 2) (fld w 0 3))
  | 0x4 => finish (extNone x) w [] [(3, 2)] (.vcvtE4m3F32 (fld w 24 4) (fld w 13 5) (fld w 8 5) (fld w 6 2) (fld w 5 1) (fld w 0 3))
  | 0x5 => finish (extNone x) w [] [(3, 2)] (.vcvtE5m2F32 (fld w 24 4) (fld w 13 5) (fld w 8 5) (fld w 6 2) (fld w 5 1) (fld w 0 3))
  | 0x6 => finish (extNone x) w [] [(3, 3)] (.vcvtF32Widen (fld w 24 4) (fld w 13 5) (fld w 8 5) (fld w 6 2) (fld w 0 3))
  | 0x7 => finish (extNone x) w [] [(5, 1), (0, 3)] (.vcvtQ4F32 (fld w 24 4) (fld w 13 5) (fld w 8 5) (fld w 6 2) (fld w 3 2))
  | 0x8 => finish (extNone x) w [] [(3, 5)] (.vcvtF32Q4 (fld w 24 4) (fld w 13 5) (fld w 8 5) (fld w 0 3))
  | 0x9 => finish (extNone x) w [] [] (.vcmpF32 (fld w 24 4) (fld w 16 2) (fld w 13 3) (fld w 8 5) (fld w 3 5) (fld w 0 3))
  | 0xA => finish (extNone x) w [] [] (.vcmpI32 (fld w 24 4) (fld w 16 2) (fld w 13 3) (fld w 8 5) (fld w 3 5) (fld w 0 3))
  | 0xB => finish (extNone x) w [] [] (.vcmpN32 (fld w 24 4) (fld w 16 2) (fld w 13 3) (fld w 8 5) (fld w 3 5) (fld w 0 3))
  | 0xC => finish (extNone x) w [(0, 3)] [(11, 2), (6, 2)] (.klogic (fld w 24 4) (fld w 16 2) (fld w 13 3) (fld w 8 3) (fld w 3 3))
  | 0xD =>
    match w / 2 ^ 3 % 2 ^ 5 with
    | 0 => finish (extNone x) w [] [] (.vbcast (fld w 24 4) (fld w 13 5) (fld w 8 5) (fld w 0 3))
    | 1 => finish (extNone x) w [] [] (.viota (fld w 24 4) (fld w 13 5) (fld w 8 5) (fld w 0 3))
    | _ => noForm (extNone x) w []
  | 0xE => finish (extNone x) w [] [] (.vperm (fld w 24 4) (fld w 13 5) (fld w 8 5) (fld w 3 5) (fld w 0 3))
  | 0xF => finish (extNone x) w [] [] (.vred (fld w 24 4) (fld w 13 5) (fld w 8 5) (fld w 5 3) (fld w 3 2) (fld w 0 3))
  | _ => .error 0x8

/-- Class 0x9: vector memory (R236). -/
def decode9 (x : Option Nat) (w : Nat) : Except Nat Instr :=
  match w / 2 ^ 20 % 2 ^ 4 with
  | 0x0 => finish (extImm) w [] [] (.vld (fld w 24 4) (fld w 15 5) (fld w 11 4) (fld w 10 1) (imm18 x w))
  | 0x1 => finish (extImm) w [] [] (.vst (fld w 24 4) (fld w 15 5) (fld w 11 4) (fld w 10 1) (imm18 x w))
  | 0x2 => finish (extImm) w [] [] (.vldW (fld w 24 4) (fld w 15 5) (fld w 11 4) (fld w 10 1) (imm18 x w))
  | 0x3 => finish (extImm) w [] [] (.vstW (fld w 24 4) (fld w 15 5) (fld w 11 4) (fld w 10 1) (imm18 x w))
  | 0x4 => finish (extImm) w [] [(18, 2)] (.vldK (fld w 24 4) (fld w 15 3) (fld w 11 4) (fld w 10 1) (imm18 x w))
  | 0x5 => finish (extImm) w [] [(18, 2)] (.vstK (fld w 24 4) (fld w 15 3) (fld w 11 4) (fld w 10 1) (imm18 x w))
  | _ => .error 0x8

/-- Class 0xA: tile and matrix (R241). -/
def decodeA (x : Option Nat) (w : Nat) : Except Nat Instr :=
  match w / 2 ^ 18 % 2 ^ 6 with
  | 0x0 => finish (extNone x) w [] [] (.trdr (fld w 24 4) (fld w 14 4) (fld w 10 4) (fld w 5 5) (fld w 2 3) (fld w 0 2))
  | 0x1 => finish (extNone x) w [] [] (.trdc (fld w 24 4) (fld w 14 4) (fld w 10 4) (fld w 5 5) (fld w 2 3) (fld w 0 2))
  | 0x2 => finish (extNone x) w [(0, 2)] [] (.twrr32 (fld w 24 4) (fld w 14 4) (fld w 10 4) (fld w 5 5) (fld w 2 3))
  | 0x3 => finish (extNone x) w [(0, 2)] [] (.twrc32 (fld w 24 4) (fld w 14 4) (fld w 10 4) (fld w 5 5) (fld w 2 3))
  | 0x4 => finish (extNone x) w [] [] (.twrr16 (fld w 24 4) (fld w 14 4) (fld w 10 4) (fld w 5 5) (fld w 2 3) (fld w 0 2))
  | 0x5 => finish (extNone x) w [] [] (.twrc16 (fld w 24 4) (fld w 14 4) (fld w 10 4) (fld w 5 5) (fld w 2 3) (fld w 0 2))
  | 0x6 => finish (extNone x) w [] [] (.twrr8 (fld w 24 4) (fld w 14 4) (fld w 10 4) (fld w 5 5) (fld w 2 3) (fld w 0 2))
  | 0x7 => finish (extNone x) w [] [] (.twrc8 (fld w 24 4) (fld w 14 4) (fld w 10 4) (fld w 5 5) (fld w 2 3) (fld w 0 2))
  | 0x8 => finish (extNone x) w [] [] (.twrr8Nan (fld w 24 4) (fld w 14 4) (fld w 10 4) (fld w 5 5) (fld w 2 3) (fld w 0 2))
  | 0x9 => finish (extNone x) w [] [] (.twrc8Nan (fld w 24 4) (fld w 14 4) (fld w 10 4) (fld w 5 5) (fld w 2 3) (fld w 0 2))
  | 0xA => finish (extNone x) w [(0, 5), (10, 4)] [] (.tld (fld w 24 4) (fld w 14 4) (fld w 5 5))
  | 0xB => finish (extNone x) w [(0, 5), (10, 4)] [] (.tst (fld w 24 4) (fld w 14 4) (fld w 5 5))
  | 0xC => finish (extNone x) w [(0, 2), (5, 5)] [] (.mwl (fld w 24 4) (fld w 14 4) (fld w 10 4) (fld w 2 3))
  | 0xD => finish (extNone x) w [(0, 2)] [] (.mwlm (fld w 24 4) (fld w 14 4) (fld w 10 4) (fld w 5 5) (fld w 2 3))
  | 0xE => finish (extNone x) w [(0, 2), (5, 5)] [] (.mwlp (fld w 24 4) (fld w 14 4) (fld w 10 4) (fld w 2 3))
  | 0xF => finish (extNone x) w [(0, 2)] [] (.mwlpm (fld w 24 4) (fld w 14 4) (fld w 10 4) (fld w 5 5) (fld w 2 3))
  | 0x10 => finish (extNone x) w [(0, 10), (14, 4)] [] (.mwa (fld w 24 4) (fld w 10 4))
  | 0x11 => finish (extNone x) w [(0, 10), (14, 4)] [] (.mwap (fld w 24 4) (fld w 10 4))
  | 0x12 => finish (extNone x) w [(1, 1), (5, 5)] [] (.mms (fld w 24 4) (fld w 14 4) (fld w 10 4) (fld w 2 3) (fld w 0 1))
  | 0x13 => finish (extNone x) w [(1, 1)] [] (.mmsm (fld w 24 4) (fld w 14 4) (fld w 10 4) (fld w 5 5) (fld w 2 3) (fld w 0 1))
  | 0x14 => finish (extNone x) w [(1, 1), (5, 5)] [] (.mmsp (fld w 24 4) (fld w 14 4) (fld w 10 4) (fld w 2 3) (fld w 0 1))
  | 0x15 => finish (extNone x) w [(1, 1)] [] (.mmspm (fld w 24 4) (fld w 14 4) (fld w 10 4) (fld w 5 5) (fld w 2 3) (fld w 0 1))
  | 0x16 => finish (extNone x) w [(0, 5)] [] (.mdr (fld w 24 4) (fld w 14 4) (fld w 10 4) (fld w 5 5))
  | 0x17 => finish (extNone x) w [(0, 5)] [] (.mdrm (fld w 24 4) (fld w 14 4) (fld w 10 4) (fld w 5 5))
  | 0x18 => finish (extNone x) w [(0, 5)] [] (.mdrp (fld w 24 4) (fld w 14 4) (fld w 10 4) (fld w 5 5))
  | 0x19 => finish (extNone x) w [(0, 5)] [] (.mdrpm (fld w 24 4) (fld w 14 4) (fld w 10 4) (fld w 5 5))
  | 0x1A => finish (extNone x) w [(0, 5), (10, 8)] [] (.mpost (fld w 24 4) (fld w 5 5))
  | 0x1B => finish (extNone x) w [(0, 10), (14, 4)] [] (.mzero (fld w 24 4) (fld w 10 4))
  | 0x1C => finish (extNone x) w [(0, 10), (14, 4)] [] (.mzerop (fld w 24 4) (fld w 10 4))
  | 0x1D => finish (extNone x) w [(0, 10)] [] (.tcpy (fld w 24 4) (fld w 14 4) (fld w 10 4))
  | 0x1E => finish (extNone x) w [(0, 14)] [] (.tzero (fld w 24 4) (fld w 14 4))
  | 0x1F => finish (extNone x) w [(0, 5)] [] (.mdrt (fld w 24 4) (fld w 14 4) (fld w 10 4) (fld w 5 5))
  | 0x20 => finish (extNone x) w [(0, 5), (10, 4)] [] (.tldt (fld w 24 4) (fld w 14 4) (fld w 5 5))
  | 0x21 => finish (extNone x) w [(0, 5), (10, 4)] [] (.tstt (fld w 24 4) (fld w 14 4) (fld w 5 5))
  | 0x22 => finish (extNone x) w [(0, 5), (10, 4)] [] (.tshape (fld w 24 4) (fld w 14 4) (fld w 5 5))
  | _ => .error 0x8

/-- Class 0xB: copy engines (R262). -/
def decodeB (x : Option Nat) (w : Nat) : Except Nat Instr :=
  match w / 2 ^ 18 % 2 ^ 6 with
  | 0x0 => finish (extNone x) w [(0, 4), (5, 4)] [(4, 1)] (.cpy (fld w 24 4) (fld w 14 4) (fld w 10 4) (fld w 9 1))
  | 0x1 => finish (extNone x) w [(0, 4), (5, 4)] [(4, 1)] (.cpy2 (fld w 24 4) (fld w 14 4) (fld w 10 4) (fld w 9 1))
  | 0x2 => finish (extNone x) w [(0, 4)] [(4, 1), (9, 1)] (.cpyz (fld w 24 4) (fld w 14 4) (fld w 10 4) (fld w 5 4))
  | 0x3 => finish (extNone x) w [(0, 4)] [(4, 1), (9, 1)] (.cpyx (fld w 24 4) (fld w 14 4) (fld w 10 4) (fld w 5 4))
  | 0x4 => finish (extNone x) w [(0, 4), (5, 4)] [(4, 1)] (.cfill (fld w 24 4) (fld w 14 4) (fld w 10 4) (fld w 9 1))
  | 0x5 => finish (extNone x) w [(0, 4), (5, 4)] [(4, 1), (9, 1)] (.rld (fld w 24 4) (fld w 14 4) (fld w 10 4))
  | 0x6 => finish (extNone x) w [(0, 4), (5, 4)] [(4, 1)] (.rst (fld w 24 4) (fld w 14 4) (fld w 10 4) (fld w 9 1))
  | 0x7 =>
    match w / 2 ^ 4 % 2 ^ 1 with
    | 0 => finish (extNone x) w [(0, 4)] [(9, 1)] (.ratmW (fld w 24 4) (fld w 14 4) (fld w 10 4) (fld w 5 4))
    | _ => finish (extNone x) w [(0, 4)] [(9, 1)] (.ratmD (fld w 24 4) (fld w 14 4) (fld w 10 4) (fld w 5 4))
  | 0x8 => finish (extNone x) w [(0, 4)] [(4, 1)] (.rred (fld w 24 4) (fld w 14 4) (fld w 10 4) (fld w 9 1) (fld w 5 4))
  | 0x9 => finish (extNone x) w [(0, 4), (5, 4)] [(4, 1), (9, 1)] (.fput (fld w 24 4) (fld w 14 4) (fld w 10 4))
  | 0xA => finish (extNone x) w [(0, 4), (5, 4), (10, 4)] [(4, 1), (9, 1)] (.cfence (fld w 24 4) (fld w 14 4))
  | _ => .error 0x8

/-- Class 0xC: exchange, walker and row queues (R268 to R281). -/
def decodeC (x : Option Nat) (w : Nat) : Except Nat Instr :=
  match w / 2 ^ 18 % 2 ^ 6 with
  | 0x0 => finish (extNone x) w [(0, 8)] [] (.xchg (fld w 24 4) (fld w 14 4) (fld w 10 4) (fld w 8 2))
  | 0x1 => finish (extNone x) w [(0, 1)] [] (.xcmb (fld w 24 4) (fld w 14 4) (fld w 10 4) (fld w 8 2) (fld w 5 3) (fld w 3 2) (fld w 1 2))
  | 0x2 => finish (extNone x) w [(4, 3)] [] (.sendif (fld w 24 4) (fld w 14 4) (fld w 10 4) (fld w 8 2) (fld w 7 1) (fld w 0 4))
  | 0x3 => finish (extNone x) w [(1, 7), (14, 4)] [] (.shiftg (fld w 24 4) (fld w 10 4) (fld w 8 2) (fld w 0 1))
  | 0x4 => finish (extNone x) w [(0, 10), (14, 4)] [] (.xchgm (fld w 24 4) (fld w 10 4))
  | 0x5 => finish (extNone x) w [(0, 3), (8, 2), (14, 4)] [] (.xcmbm (fld w 24 4) (fld w 10 4) (fld w 5 3) (fld w 3 2))
  | 0x6 => finish (extNone x) w [(4, 4)] [] (.xarm (fld w 24 4) (fld w 14 4) (fld w 10 4) (fld w 8 2) (fld w 0 4))
  | 0x7 => finish (extNone x) w [(0, 8), (10, 8)] [] (.xdisarm (fld w 24 4) (fld w 8 2))
  | 0x8 => finish (extNone x) w [(0, 8), (14, 4)] [] (.xbar (fld w 24 4) (fld w 10 4) (fld w 8 2))
  | 0x9 => finish (extNone x) w [(0, 10), (14, 4)] [] (.coll (fld w 24 4) (fld w 10 4))
  | 0xA => finish (extNone x) w [(0, 10)] [] (.route (fld w 24 4) (fld w 14 4) (fld w 10 4))
  | 0xB => finish (extNone x) w [(0, 10), (14, 4)] [] (.rqcfg (fld w 24 4) (fld w 10 4))
  | 0xC => finish (extNone x) w [(0, 10), (14, 4)] [] (.rqreset (fld w 24 4) (fld w 10 4))
  | 0xD => finish (extNone x) w [(0, 10), (14, 4)] [] (.rcsnap (fld w 24 4) (fld w 10 4))
  | _ => .error 0x8

/-- Class 0xD: chain engine (R294). -/
def decodeD (x : Option Nat) (w : Nat) : Except Nat Instr :=
  match w / 2 ^ 18 % 2 ^ 6 with
  | 0x0 => finish (extNone x) w [(0, 10), (14, 4)] [] (.chain (fld w 24 4) (fld w 10 4))
  | 0x1 => finish (extNone x) w [(0, 10), (14, 4)] [] (.chstep (fld w 24 4) (fld w 10 4))
  | 0x2 => finish (extNone x) w [(0, 10), (14, 4)] [] (.chsize (fld w 24 4) (fld w 10 4))
  | 0x3 => finish (extNone x) w [(0, 18)] [] (.chabort (fld w 24 4))
  | _ => .error 0x8

/-- Class 0xE: system (R316, R324). -/
def decodeE (x : Option Nat) (w : Nat) : Except Nat Instr :=
  match w / 2 ^ 18 % 2 ^ 6 with
  | 0x0 => finish (extNone x) w [(0, 3), (13, 5)] [] (.trap (fld w 24 4) (fld w 3 10))
  | 0x1 =>
    match w / 2 ^ 0 % 2 ^ 3 with
    | 0 => finish (extNone x) w [(3, 15)] [] (.rte (fld w 24 4))
    | 1 => finish (extNone x) w [(3, 15)] [] (.rteSw (fld w 24 4))
    | _ => noForm (extNone x) w [(3, 15)]
  | 0x2 => finish (extNone x) w [(0, 18)] [] (.endProg (fld w 24 4))
  | 0x3 => finish (extNone x) w [(0, 18)] [] (.reraise (fld w 24 4))
  | 0x4 => finish (extNone x) w [(0, 8)] [] (.lmark (fld w 24 4) (fld w 13 5) (fld w 8 5))
  | 0x5 => finish (extNone x) w [(0, 18)] [] (.bpoint (fld w 24 4))
  | 0x6 => finish (extNone x) w [(0, 18)] [] (.dpoint (fld w 24 4))
  | 0x7 => finish (extNone x) w [(0, 13)] [] (.rdcyc (fld w 24 4) (fld w 13 5))
  | 0x8 => finish (extNone x) w [(0, 18)] [] (.sdump (fld w 24 4))
  | 0xD =>
    match w / 2 ^ 0 % 2 ^ 3 with
    | 0 => finish (extNone x) w [(3, 10)] [] (.enrd (fld w 24 4) (fld w 13 5))
    | 1 => finish (extNone x) w [(3, 10)] [] (.enrdRsv (fld w 24 4) (fld w 13 5))
    | _ => noForm (extNone x) w [(3, 10)]
  | 0xE =>
    match w / 2 ^ 0 % 2 ^ 3 with
    | 0 => finish (extNone x) w [(3, 5)] [] (.enres (fld w 24 4) (fld w 13 5) (fld w 8 5))
    | 1 => finish (extNone x) w [(3, 5)] [] (.enresRel (fld w 24 4) (fld w 13 5) (fld w 8 5))
    | _ => noForm (extNone x) w [(3, 5)]
  | _ => .error 0x8

/-- A slot that is no header: its class and then its opcode (R178, R179). `x` is the slot's extension byte when the
bundle has an extension header. -/
def decodeSlot (x : Option Nat) (w : Nat) : Except Nat Instr :=
  match w / 2 ^ 28 % 2 ^ 4 with
  | 0x0 => decode0 x w
  | 0x1 => decode1 x w
  | 0x2 => decode2 x w
  | 0x3 => decode3 x w
  | 0x4 => decode4 x w
  | 0x5 => decode5 x w
  | 0x6 => decode6 x w
  | 0x7 => decode7 x w
  | 0x8 => decode8 x w
  | 0x9 => decode9 x w
  | 0xA => decodeA x w
  | 0xB => decodeB x w
  | 0xC => decodeC x w
  | 0xD => decodeD x w
  | 0xE => decodeE x w
  | _ => .error 0x8

/-- A header slot: kinds 0x0 to 0x2 (R180); a bad kind is cause 0x2, a reserved bit cause 0x7 of R185. -/
def decodeHeader (w : Nat) : Except Nat Instr :=
  match w / 2 ^ 24 % 2 ^ 4 with
  | 0x0 => .ok (.extHdr (fld w 16 8) (fld w 8 8) (fld w 0 8))
  | 0x1 => if w % 4 = 0 then .ok (.repeatPfx (fld w 12 12) (fld w 8 4) (fld w 4 4) (fld w 3 1) (fld w 2 1)) else .error 0x7
  | 0x2 => if w % 2 ^ 17 = 0 then .ok (.lbmark (fld w 18 6) (fld w 17 1)) else .error 0x7
  | _ => .error 0x2

/-- The class of a slot word. -/
def slotClass (w : Nat) : Nat := w / 2 ^ 28 % 16

/-- The instruction that the decoder reads from a word numbered as the opcode table numbers it: a header, or a slot of a
bundle without an extension header. -/
def decodeTableWord (nbits w : Nat) : Option Instr :=
  if nbits = 32 then
    (if slotClass w = 15 then decodeHeader w else decodeSlot none w).toOption
  else none

/-- The word at byte `k` of a list of bytes, little-endian (R56, R174). -/
def wordAt (bs : List Byte) (k : Nat) : Nat :=
  (bs.getD k 0).toNat + 2 ^ 8 * (bs.getD (k + 1) 0).toNat + 2 ^ 16 * (bs.getD (k + 2) 0).toNat + 2 ^ 24 * (bs.getD (k + 3) 0).toNat


/-- Fields [23:16], [15:8], [7:0] over the fixed bits. -/
def pack0 (base : Nat) (f0 : BitVec 8) (f1 : BitVec 8) (f2 : BitVec 8) : Nat × Nat :=
  (0, base + f0.toNat * 65536 + f1.toNat * 256 + f2.toNat)

/-- Fields [23:12], [11:8], [7:4], [3:3], [2:2] over the fixed bits. -/
def pack1 (base : Nat) (f0 : BitVec 12) (f1 : BitVec 4) (f2 : BitVec 4) (f3 : BitVec 1) (f4 : BitVec 1) : Nat × Nat :=
  (0, base + f0.toNat * 4096 + f1.toNat * 256 + f2.toNat * 16 + f3.toNat * 8 + f4.toNat * 4)

/-- Fields [23:18], [17:17] over the fixed bits. -/
def pack2 (base : Nat) (f0 : BitVec 6) (f1 : BitVec 1) : Nat × Nat :=
  (0, base + f0.toNat * 262144 + f1.toNat * 131072)

/-- Fields [27:24] over the fixed bits. -/
def pack3 (base : Nat) (f0 : BitVec 4) : Nat × Nat :=
  (0, base + f0.toNat * 16777216)

/-- Fields [27:24], [17:13], [12:8], [7:3] over the fixed bits. -/
def pack4 (base : Nat) (f0 : BitVec 4) (f1 : BitVec 5) (f2 : BitVec 5) (f3 : BitVec 5) : Nat × Nat :=
  (0, base + f0.toNat * 16777216 + f1.toNat * 8192 + f2.toNat * 256 + f3.toNat * 8)

/-- Fields [27:24], [17:13], [12:8], [7:3], C over the fixed bits. -/
def pack5 (base : Nat) (f0 : BitVec 4) (f1 : BitVec 5) (f2 : BitVec 5) (f3 : BitVec 5) (f4 : BitVec 5) : Nat × Nat :=
  (f4.toNat, base + f0.toNat * 16777216 + f1.toNat * 8192 + f2.toNat * 256 + f3.toNat * 8)

/-- Fields [27:24], [17:13], [12:8] over the fixed bits. -/
def pack6 (base : Nat) (f0 : BitVec 4) (f1 : BitVec 5) (f2 : BitVec 5) : Nat × Nat :=
  (0, base + f0.toNat * 16777216 + f1.toNat * 8192 + f2.toNat * 256)

/-- Fields [27:24], [19:15], [14:10], imm over the fixed bits. -/
def pack7 (base : Nat) (f0 : BitVec 4) (f1 : BitVec 5) (f2 : BitVec 5) (f3 : BitVec 18) : Nat × Nat :=
  (f3.toNat / 1024, base + f0.toNat * 16777216 + f1.toNat * 32768 + f2.toNat * 1024 + f3.toNat % 1024)

/-- Fields [27:24], [17:13], [12:8], [7:3], [2:0] over the fixed bits. -/
def pack8 (base : Nat) (f0 : BitVec 4) (f1 : BitVec 5) (f2 : BitVec 5) (f3 : BitVec 5) (f4 : BitVec 3) : Nat × Nat :=
  (0, base + f0.toNat * 16777216 + f1.toNat * 8192 + f2.toNat * 256 + f3.toNat * 8 + f4.toNat)

/-- Fields [27:24], [17:13] over the fixed bits. -/
def pack9 (base : Nat) (f0 : BitVec 4) (f1 : BitVec 5) : Nat × Nat :=
  (0, base + f0.toNat * 16777216 + f1.toNat * 8192)

/-- Fields [27:24], [12:8] over the fixed bits. -/
def pack10 (base : Nat) (f0 : BitVec 4) (f1 : BitVec 5) : Nat × Nat :=
  (0, base + f0.toNat * 16777216 + f1.toNat * 256)

/-- Fields [27:24], [19:16], [15:11], [9:5] over the fixed bits. -/
def pack11 (base : Nat) (f0 : BitVec 4) (f1 : BitVec 4) (f2 : BitVec 5) (f3 : BitVec 5) : Nat × Nat :=
  (0, base + f0.toNat * 16777216 + f1.toNat * 65536 + f2.toNat * 2048 + f3.toNat * 32)

/-- Fields [27:24], [19:16], [15:11], imm over the fixed bits. -/
def pack12 (base : Nat) (f0 : BitVec 4) (f1 : BitVec 4) (f2 : BitVec 5) (f3 : BitVec 18) : Nat × Nat :=
  (f3.toNat / 1024, base + f0.toNat * 16777216 + f1.toNat * 65536 + f2.toNat * 2048 + f3.toNat % 1024)

/-- Fields [27:24], [18:0] over the fixed bits. -/
def pack13 (base : Nat) (f0 : BitVec 4) (f1 : BitVec 19) : Nat × Nat :=
  (0, base + f0.toNat * 16777216 + f1.toNat)

/-- Fields [27:24], [14:10] over the fixed bits. -/
def pack14 (base : Nat) (f0 : BitVec 4) (f1 : BitVec 5) : Nat × Nat :=
  (0, base + f0.toNat * 16777216 + f1.toNat * 1024)

/-- Fields [27:24], [19:18], [17:8], [7:3] over the fixed bits. -/
def pack15 (base : Nat) (f0 : BitVec 4) (f1 : BitVec 2) (f2 : BitVec 10) (f3 : BitVec 5) : Nat × Nat :=
  (0, base + f0.toNat * 16777216 + f1.toNat * 262144 + f2.toNat * 256 + f3.toNat * 8)

/-- Fields [27:24], [19:16], [15:12], [11:8], [7:4] over the fixed bits. -/
def pack16 (base : Nat) (f0 : BitVec 4) (f1 : BitVec 4) (f2 : BitVec 4) (f3 : BitVec 4) (f4 : BitVec 4) : Nat × Nat :=
  (0, base + f0.toNat * 16777216 + f1.toNat * 65536 + f2.toNat * 4096 + f3.toNat * 256 + f4.toNat * 16)

/-- Fields [27:24], [19:16], [15:11] over the fixed bits. -/
def pack17 (base : Nat) (f0 : BitVec 4) (f1 : BitVec 4) (f2 : BitVec 5) : Nat × Nat :=
  (0, base + f0.toNat * 16777216 + f1.toNat * 65536 + f2.toNat * 2048)

/-- Fields [27:24], [19:18] over the fixed bits. -/
def pack18 (base : Nat) (f0 : BitVec 4) (f1 : BitVec 2) : Nat × Nat :=
  (0, base + f0.toNat * 16777216 + f1.toNat * 262144)

/-- Fields [27:24], [19:15], [14:11], [10:10], imm over the fixed bits. -/
def pack19 (base : Nat) (f0 : BitVec 4) (f1 : BitVec 5) (f2 : BitVec 4) (f3 : BitVec 1) (f4 : BitVec 18) : Nat × Nat :=
  (f4.toNat / 1024, base + f0.toNat * 16777216 + f1.toNat * 32768 + f2.toNat * 2048 + f3.toNat * 1024 + f4.toNat % 1024)

/-- Fields [27:24], [19:15], [14:11], [10:10], [9:6], [5:0] over the fixed bits. -/
def pack20 (base : Nat) (f0 : BitVec 4) (f1 : BitVec 5) (f2 : BitVec 4) (f3 : BitVec 1) (f4 : BitVec 4) (f5 : BitVec 6) : Nat × Nat :=
  (0, base + f0.toNat * 16777216 + f1.toNat * 32768 + f2.toNat * 2048 + f3.toNat * 1024 + f4.toNat * 64 + f5.toNat)

/-- Fields [27:24], [17:13], [12:8], [7:3], [2:0], C over the fixed bits. -/
def pack21 (base : Nat) (f0 : BitVec 4) (f1 : BitVec 5) (f2 : BitVec 5) (f3 : BitVec 5) (f4 : BitVec 3) (f5 : BitVec 5) : Nat × Nat :=
  (f5.toNat, base + f0.toNat * 16777216 + f1.toNat * 8192 + f2.toNat * 256 + f3.toNat * 8 + f4.toNat)

/-- Fields [27:24], [17:13], [12:8], [2:0] over the fixed bits. -/
def pack22 (base : Nat) (f0 : BitVec 4) (f1 : BitVec 5) (f2 : BitVec 5) (f3 : BitVec 3) : Nat × Nat :=
  (0, base + f0.toNat * 16777216 + f1.toNat * 8192 + f2.toNat * 256 + f3.toNat)

/-- Fields [27:24], [17:13], [12:8], [7:6], [2:0] over the fixed bits. -/
def pack23 (base : Nat) (f0 : BitVec 4) (f1 : BitVec 5) (f2 : BitVec 5) (f3 : BitVec 2) (f4 : BitVec 3) : Nat × Nat :=
  (0, base + f0.toNat * 16777216 + f1.toNat * 8192 + f2.toNat * 256 + f3.toNat * 64 + f4.toNat)

/-- Fields [27:24], [17:13], [12:8], [7:6], [5:5], [2:0] over the fixed bits. -/
def pack24 (base : Nat) (f0 : BitVec 4) (f1 : BitVec 5) (f2 : BitVec 5) (f3 : BitVec 2) (f4 : BitVec 1) (f5 : BitVec 3) : Nat × Nat :=
  (0, base + f0.toNat * 16777216 + f1.toNat * 8192 + f2.toNat * 256 + f3.toNat * 64 + f4.toNat * 32 + f5.toNat)

/-- Fields [27:24], [17:13], [12:8], [7:6], [4:3] over the fixed bits. -/
def pack25 (base : Nat) (f0 : BitVec 4) (f1 : BitVec 5) (f2 : BitVec 5) (f3 : BitVec 2) (f4 : BitVec 2) : Nat × Nat :=
  (0, base + f0.toNat * 16777216 + f1.toNat * 8192 + f2.toNat * 256 + f3.toNat * 64 + f4.toNat * 8)

/-- Fields [27:24], [17:16], [15:13], [12:8], [7:3], [2:0] over the fixed bits. -/
def pack26 (base : Nat) (f0 : BitVec 4) (f1 : BitVec 2) (f2 : BitVec 3) (f3 : BitVec 5) (f4 : BitVec 5) (f5 : BitVec 3) : Nat × Nat :=
  (0, base + f0.toNat * 16777216 + f1.toNat * 65536 + f2.toNat * 8192 + f3.toNat * 256 + f4.toNat * 8 + f5.toNat)

/-- Fields [27:24], [17:16], [15:13], [10:8], [5:3] over the fixed bits. -/
def pack27 (base : Nat) (f0 : BitVec 4) (f1 : BitVec 2) (f2 : BitVec 3) (f3 : BitVec 3) (f4 : BitVec 3) : Nat × Nat :=
  (0, base + f0.toNat * 16777216 + f1.toNat * 65536 + f2.toNat * 8192 + f3.toNat * 256 + f4.toNat * 8)

/-- Fields [27:24], [17:13], [12:8], [7:5], [4:3], [2:0] over the fixed bits. -/
def pack28 (base : Nat) (f0 : BitVec 4) (f1 : BitVec 5) (f2 : BitVec 5) (f3 : BitVec 3) (f4 : BitVec 2) (f5 : BitVec 3) : Nat × Nat :=
  (0, base + f0.toNat * 16777216 + f1.toNat * 8192 + f2.toNat * 256 + f3.toNat * 32 + f4.toNat * 8 + f5.toNat)

/-- Fields [27:24], [17:15], [14:11], [10:10], imm over the fixed bits. -/
def pack29 (base : Nat) (f0 : BitVec 4) (f1 : BitVec 3) (f2 : BitVec 4) (f3 : BitVec 1) (f4 : BitVec 18) : Nat × Nat :=
  (f4.toNat / 1024, base + f0.toNat * 16777216 + f1.toNat * 32768 + f2.toNat * 2048 + f3.toNat * 1024 + f4.toNat % 1024)

/-- Fields [27:24], [17:14], [13:10], [9:5], [4:2], [1:0] over the fixed bits. -/
def pack30 (base : Nat) (f0 : BitVec 4) (f1 : BitVec 4) (f2 : BitVec 4) (f3 : BitVec 5) (f4 : BitVec 3) (f5 : BitVec 2) : Nat × Nat :=
  (0, base + f0.toNat * 16777216 + f1.toNat * 16384 + f2.toNat * 1024 + f3.toNat * 32 + f4.toNat * 4 + f5.toNat)

/-- Fields [27:24], [17:14], [13:10], [9:5], [4:2] over the fixed bits. -/
def pack31 (base : Nat) (f0 : BitVec 4) (f1 : BitVec 4) (f2 : BitVec 4) (f3 : BitVec 5) (f4 : BitVec 3) : Nat × Nat :=
  (0, base + f0.toNat * 16777216 + f1.toNat * 16384 + f2.toNat * 1024 + f3.toNat * 32 + f4.toNat * 4)

/-- Fields [27:24], [17:14], [9:5] over the fixed bits. -/
def pack32 (base : Nat) (f0 : BitVec 4) (f1 : BitVec 4) (f2 : BitVec 5) : Nat × Nat :=
  (0, base + f0.toNat * 16777216 + f1.toNat * 16384 + f2.toNat * 32)

/-- Fields [27:24], [17:14], [13:10], [4:2] over the fixed bits. -/
def pack33 (base : Nat) (f0 : BitVec 4) (f1 : BitVec 4) (f2 : BitVec 4) (f3 : BitVec 3) : Nat × Nat :=
  (0, base + f0.toNat * 16777216 + f1.toNat * 16384 + f2.toNat * 1024 + f3.toNat * 4)

/-- Fields [27:24], [13:10] over the fixed bits. -/
def pack34 (base : Nat) (f0 : BitVec 4) (f1 : BitVec 4) : Nat × Nat :=
  (0, base + f0.toNat * 16777216 + f1.toNat * 1024)

/-- Fields [27:24], [17:14], [13:10], [4:2], [0:0] over the fixed bits. -/
def pack35 (base : Nat) (f0 : BitVec 4) (f1 : BitVec 4) (f2 : BitVec 4) (f3 : BitVec 3) (f4 : BitVec 1) : Nat × Nat :=
  (0, base + f0.toNat * 16777216 + f1.toNat * 16384 + f2.toNat * 1024 + f3.toNat * 4 + f4.toNat)

/-- Fields [27:24], [17:14], [13:10], [9:5], [4:2], [0:0] over the fixed bits. -/
def pack36 (base : Nat) (f0 : BitVec 4) (f1 : BitVec 4) (f2 : BitVec 4) (f3 : BitVec 5) (f4 : BitVec 3) (f5 : BitVec 1) : Nat × Nat :=
  (0, base + f0.toNat * 16777216 + f1.toNat * 16384 + f2.toNat * 1024 + f3.toNat * 32 + f4.toNat * 4 + f5.toNat)

/-- Fields [27:24], [17:14], [13:10], [9:5] over the fixed bits. -/
def pack37 (base : Nat) (f0 : BitVec 4) (f1 : BitVec 4) (f2 : BitVec 4) (f3 : BitVec 5) : Nat × Nat :=
  (0, base + f0.toNat * 16777216 + f1.toNat * 16384 + f2.toNat * 1024 + f3.toNat * 32)

/-- Fields [27:24], [9:5] over the fixed bits. -/
def pack38 (base : Nat) (f0 : BitVec 4) (f1 : BitVec 5) : Nat × Nat :=
  (0, base + f0.toNat * 16777216 + f1.toNat * 32)

/-- Fields [27:24], [17:14], [13:10] over the fixed bits. -/
def pack39 (base : Nat) (f0 : BitVec 4) (f1 : BitVec 4) (f2 : BitVec 4) : Nat × Nat :=
  (0, base + f0.toNat * 16777216 + f1.toNat * 16384 + f2.toNat * 1024)

/-- Fields [27:24], [17:14] over the fixed bits. -/
def pack40 (base : Nat) (f0 : BitVec 4) (f1 : BitVec 4) : Nat × Nat :=
  (0, base + f0.toNat * 16777216 + f1.toNat * 16384)

/-- Fields [27:24], [17:14], [13:10], [9:9] over the fixed bits. -/
def pack41 (base : Nat) (f0 : BitVec 4) (f1 : BitVec 4) (f2 : BitVec 4) (f3 : BitVec 1) : Nat × Nat :=
  (0, base + f0.toNat * 16777216 + f1.toNat * 16384 + f2.toNat * 1024 + f3.toNat * 512)

/-- Fields [27:24], [17:14], [13:10], [8:5] over the fixed bits. -/
def pack42 (base : Nat) (f0 : BitVec 4) (f1 : BitVec 4) (f2 : BitVec 4) (f3 : BitVec 4) : Nat × Nat :=
  (0, base + f0.toNat * 16777216 + f1.toNat * 16384 + f2.toNat * 1024 + f3.toNat * 32)

/-- Fields [27:24], [17:14], [13:10], [9:9], [8:5] over the fixed bits. -/
def pack43 (base : Nat) (f0 : BitVec 4) (f1 : BitVec 4) (f2 : BitVec 4) (f3 : BitVec 1) (f4 : BitVec 4) : Nat × Nat :=
  (0, base + f0.toNat * 16777216 + f1.toNat * 16384 + f2.toNat * 1024 + f3.toNat * 512 + f4.toNat * 32)

/-- Fields [27:24], [17:14], [13:10], [9:8] over the fixed bits. -/
def pack44 (base : Nat) (f0 : BitVec 4) (f1 : BitVec 4) (f2 : BitVec 4) (f3 : BitVec 2) : Nat × Nat :=
  (0, base + f0.toNat * 16777216 + f1.toNat * 16384 + f2.toNat * 1024 + f3.toNat * 256)

/-- Fields [27:24], [17:14], [13:10], [9:8], [7:5], [4:3], [2:1] over the fixed bits. -/
def pack45 (base : Nat) (f0 : BitVec 4) (f1 : BitVec 4) (f2 : BitVec 4) (f3 : BitVec 2) (f4 : BitVec 3) (f5 : BitVec 2) (f6 : BitVec 2) : Nat × Nat :=
  (0, base + f0.toNat * 16777216 + f1.toNat * 16384 + f2.toNat * 1024 + f3.toNat * 256 + f4.toNat * 32 + f5.toNat * 8 + f6.toNat * 2)

/-- Fields [27:24], [17:14], [13:10], [9:8], [7:7], [3:0] over the fixed bits. -/
def pack46 (base : Nat) (f0 : BitVec 4) (f1 : BitVec 4) (f2 : BitVec 4) (f3 : BitVec 2) (f4 : BitVec 1) (f5 : BitVec 4) : Nat × Nat :=
  (0, base + f0.toNat * 16777216 + f1.toNat * 16384 + f2.toNat * 1024 + f3.toNat * 256 + f4.toNat * 128 + f5.toNat)

/-- Fields [27:24], [13:10], [9:8], [0:0] over the fixed bits. -/
def pack47 (base : Nat) (f0 : BitVec 4) (f1 : BitVec 4) (f2 : BitVec 2) (f3 : BitVec 1) : Nat × Nat :=
  (0, base + f0.toNat * 16777216 + f1.toNat * 1024 + f2.toNat * 256 + f3.toNat)

/-- Fields [27:24], [13:10], [7:5], [4:3] over the fixed bits. -/
def pack48 (base : Nat) (f0 : BitVec 4) (f1 : BitVec 4) (f2 : BitVec 3) (f3 : BitVec 2) : Nat × Nat :=
  (0, base + f0.toNat * 16777216 + f1.toNat * 1024 + f2.toNat * 32 + f3.toNat * 8)

/-- Fields [27:24], [17:14], [13:10], [9:8], [3:0] over the fixed bits. -/
def pack49 (base : Nat) (f0 : BitVec 4) (f1 : BitVec 4) (f2 : BitVec 4) (f3 : BitVec 2) (f4 : BitVec 4) : Nat × Nat :=
  (0, base + f0.toNat * 16777216 + f1.toNat * 16384 + f2.toNat * 1024 + f3.toNat * 256 + f4.toNat)

/-- Fields [27:24], [9:8] over the fixed bits. -/
def pack50 (base : Nat) (f0 : BitVec 4) (f1 : BitVec 2) : Nat × Nat :=
  (0, base + f0.toNat * 16777216 + f1.toNat * 256)

/-- Fields [27:24], [13:10], [9:8] over the fixed bits. -/
def pack51 (base : Nat) (f0 : BitVec 4) (f1 : BitVec 4) (f2 : BitVec 2) : Nat × Nat :=
  (0, base + f0.toNat * 16777216 + f1.toNat * 1024 + f2.toNat * 256)

/-- Fields [27:24], [12:3] over the fixed bits. -/
def pack52 (base : Nat) (f0 : BitVec 4) (f1 : BitVec 10) : Nat × Nat :=
  (0, base + f0.toNat * 16777216 + f1.toNat * 8)

/-- The encoding of an instruction: its extension byte and its word; event rows have none. -/
def encode (i : Instr) : Option (Nat × Nat) :=
  match i with
  | .extHdr z y x => some (pack0 0xf0000000 z y x)
  | .repeatPfx c x y v w => some (pack1 0xf1000000 c x y v w)
  | .lbmark l p => some (pack2 0xf2000000 l p)
  | .nop g => some (pack3 0x00000000 g)
  | .add g d a b => some (pack4 0x00040000 g d a b)
  | .sub g d a b => some (pack4 0x00080000 g d a b)
  | .and g d a b => some (pack4 0x000c0000 g d a b)
  | .or g d a b => some (pack4 0x00100000 g d a b)
  | .xor g d a b => some (pack4 0x00140000 g d a b)
  | .andn g d a b => some (pack4 0x00180000 g d a b)
  | .shl g d a b => some (pack4 0x001c0000 g d a b)
  | .shr g d a b => some (pack4 0x00200000 g d a b)
  | .sar g d a b => some (pack4 0x00240000 g d a b)
  | .ror g d a b => some (pack4 0x00280000 g d a b)
  | .min g d a b => some (pack4 0x002c0000 g d a b)
  | .minN g d a b => some (pack4 0x002c0001 g d a b)
  | .max g d a b => some (pack4 0x00300000 g d a b)
  | .maxN g d a b => some (pack4 0x00300001 g d a b)
  | .mul g d a b => some (pack4 0x00340000 g d a b)
  | .mulh g d a b => some (pack4 0x00380000 g d a b)
  | .mulhN g d a b => some (pack4 0x00380001 g d a b)
  | .madd g d a b c => some (pack5 0x003c0000 g d a b c)
  | .div g d a b => some (pack4 0x00400000 g d a b)
  | .divN g d a b => some (pack4 0x00400001 g d a b)
  | .rem g d a b => some (pack4 0x00440000 g d a b)
  | .remN g d a b => some (pack4 0x00440001 g d a b)
  | .sextB g d a => some (pack6 0x00480000 g d a)
  | .sextH g d a => some (pack6 0x00480001 g d a)
  | .sextW g d a => some (pack6 0x00480002 g d a)
  | .zextB g d a => some (pack6 0x00480004 g d a)
  | .zextH g d a => some (pack6 0x00480005 g d a)
  | .zextW g d a => some (pack6 0x00480006 g d a)
  | .popc g d a => some (pack6 0x004c0000 g d a)
  | .clz g d a => some (pack6 0x004c0001 g d a)
  | .ctz g d a => some (pack6 0x004c0002 g d a)
  | .addi g d a imm => some (pack7 0x10000000 g d a imm)
  | .andi g d a imm => some (pack7 0x10100000 g d a imm)
  | .ori g d a imm => some (pack7 0x10200000 g d a imm)
  | .xori g d a imm => some (pack7 0x10300000 g d a imm)
  | .shli g d a imm => some (pack7 0x10400000 g d a imm)
  | .shri g d a imm => some (pack7 0x10500000 g d a imm)
  | .sari g d a imm => some (pack7 0x10600000 g d a imm)
  | .shori g d a imm => some (pack7 0x10700000 g d a imm)
  | .adda g d a b m => some (pack8 0x20000000 g d a b m)
  | .movAS g d a => some (pack6 0x20040000 g d a)
  | .movSA g d a => some (pack6 0x20080000 g d a)
  | .movNS g d a => some (pack6 0x200c0000 g d a)
  | .movSN g d a => some (pack6 0x20100000 g d a)
  | .movES g d a => some (pack6 0x20140000 g d a)
  | .movSE g d a => some (pack6 0x20180000 g d a)
  | .movToControl g x a y => some (pack4 0x201c0000 g x a y)
  | .movFromControl g d x y => some (pack4 0x20200000 g d x y)
  | .movGS g d a => some (pack6 0x20240000 g d a)
  | .movSG g d a => some (pack6 0x20240001 g d a)
  | .gget g d => some (pack9 0x20240002 g d)
  | .gset g a => some (pack10 0x20240003 g a)
  | .cmpEq g h a b => some (pack11 0x30000000 g h a b)
  | .cmpEqImm g h a imm => some (pack12 0x30000400 g h a imm)
  | .cmpLt g h a b => some (pack11 0x30100000 g h a b)
  | .cmpLtImm g h a imm => some (pack12 0x30100400 g h a imm)
  | .cmpLe g h a b => some (pack11 0x30200000 g h a b)
  | .cmpLeImm g h a imm => some (pack12 0x30200400 g h a imm)
  | .cmpLtn g h a b => some (pack11 0x30300000 g h a b)
  | .cmpLtnImm g h a imm => some (pack12 0x30300400 g h a imm)
  | .cmpLen g h a b => some (pack11 0x30400000 g h a b)
  | .cmpLenImm g h a imm => some (pack12 0x30400400 g h a imm)
  | .cmpTst g h a b => some (pack11 0x30500000 g h a b)
  | .cmpTstImm g h a imm => some (pack12 0x30500400 g h a imm)
  | .brT g o => some (pack13 0x40080000 g o)
  | .brNt g o => some (pack13 0x40000000 g o)
  | .call g o => some (pack13 0x40100000 g o)
  | .bri g a => some (pack14 0x40200000 g a)
  | .ret g a => some (pack14 0x40300000 g a)
  | .loop g l e a => some (pack15 0x40400000 g l e a)
  | .wait g l s c t => some (pack16 0x40500000 g l s c t)
  | .waitt g c a => some (pack17 0x40600000 g c a)
  | .fence g => some (pack3 0x40700000 g)
  | .lpoff g l => some (pack18 0x40800000 g l)
  | .ldB g d a u off => some (pack19 0x50000000 g d a u off)
  | .ldH g d a u off => some (pack19 0x50100000 g d a u off)
  | .ldW g d a u off => some (pack19 0x50200000 g d a u off)
  | .ldD g d a u off => some (pack19 0x50300000 g d a u off)
  | .stB g d a u off => some (pack19 0x50400000 g d a u off)
  | .stH g d a u off => some (pack19 0x50500000 g d a u off)
  | .stW g d a u off => some (pack19 0x50600000 g d a u off)
  | .stD g d a u off => some (pack19 0x50700000 g d a u off)
  | .atmW g d a u p o => some (pack20 0x50800000 g d a u p o)
  | .atmD g d a u p o => some (pack20 0x50900000 g d a u p o)
  | .vand g d a b k => some (pack8 0x60000000 g d a b k)
  | .vor g d a b k => some (pack8 0x60040000 g d a b k)
  | .vxor g d a b k => some (pack8 0x60080000 g d a b k)
  | .vandn g d a b k => some (pack8 0x600c0000 g d a b k)
  | .vaddI32 g d a b k => some (pack8 0x60100000 g d a b k)
  | .vsubI32 g d a b k => some (pack8 0x60140000 g d a b k)
  | .vmulI32 g d a b k => some (pack8 0x60180000 g d a b k)
  | .vaddI16 g d a b k => some (pack8 0x601c0000 g d a b k)
  | .vsubI16 g d a b k => some (pack8 0x60200000 g d a b k)
  | .vaddsI16 g d a b k => some (pack8 0x60240000 g d a b k)
  | .vsubsI16 g d a b k => some (pack8 0x60280000 g d a b k)
  | .vaddI8 g d a b k => some (pack8 0x602c0000 g d a b k)
  | .vsubI8 g d a b k => some (pack8 0x60300000 g d a b k)
  | .vaddsI8 g d a b k => some (pack8 0x60340000 g d a b k)
  | .vsubsI8 g d a b k => some (pack8 0x60380000 g d a b k)
  | .vminI32 g d a b k => some (pack8 0x603c0000 g d a b k)
  | .vmaxI32 g d a b k => some (pack8 0x60400000 g d a b k)
  | .vminN32 g d a b k => some (pack8 0x60440000 g d a b k)
  | .vmaxN32 g d a b k => some (pack8 0x60480000 g d a b k)
  | .vshlI32 g d a b k => some (pack8 0x604c0000 g d a b k)
  | .vshrN32 g d a b k => some (pack8 0x60500000 g d a b k)
  | .vsarI32 g d a b k => some (pack8 0x60540000 g d a b k)
  | .vdot4I8 g d a b k c => some (pack21 0x60f00000 g d a b k c)
  | .vdot4N8 g d a b k c => some (pack21 0x60f40000 g d a b k c)
  | .vdot2I16 g d a b k c => some (pack21 0x60f80000 g d a b k c)
  | .vdot2N16 g d a b k c => some (pack21 0x60fc0000 g d a b k c)
  | .vaddF32 g d a b k => some (pack8 0x70000000 g d a b k)
  | .vsubF32 g d a b k => some (pack8 0x70040000 g d a b k)
  | .vmulF32 g d a b k => some (pack8 0x70080000 g d a b k)
  | .vfmaF32 g d a b k c => some (pack21 0x700c0000 g d a b k c)
  | .vfmsF32 g d a b k c => some (pack21 0x70100000 g d a b k c)
  | .vminF32 g d a b k => some (pack8 0x70140000 g d a b k)
  | .vmaxF32 g d a b k => some (pack8 0x70180000 g d a b k)
  | .vsubBf16 g d a b k => some (pack8 0x701c0000 g d a b k)
  | .vaddBf16 g d a b k => some (pack8 0x70200000 g d a b k)
  | .vmulBf16 g d a b k => some (pack8 0x70240000 g d a b k)
  | .vfmaBf16 g d a b k c => some (pack21 0x70280000 g d a b k c)
  | .vaddF16 g d a b k => some (pack8 0x702c0000 g d a b k)
  | .vmulF16 g d a b k => some (pack8 0x70300000 g d a b k)
  | .vfmaF16 g d a b k c => some (pack21 0x70340000 g d a b k c)
  | .vrcpaF32 g d a k => some (pack22 0x70380000 g d a k)
  | .vrsqaF32 g d a k => some (pack22 0x703c0000 g d a k)
  | .vcvtF32I32 g d a m k => some (pack23 0x80000000 g d a m k)
  | .vcvtF32N32 g d a m k => some (pack23 0x80000008 g d a m k)
  | .vcvtI32F32 g d a m k => some (pack23 0x80040000 g d a m k)
  | .vcvtN32F32 g d a m k => some (pack23 0x80040008 g d a m k)
  | .vcvtBf16F32 g d a m k => some (pack23 0x80080000 g d a m k)
  | .vcvtF16F32 g d a m k => some (pack23 0x800c0000 g d a m k)
  | .vcvtE4m3F32 g d a m n k => some (pack24 0x80100000 g d a m n k)
  | .vcvtE5m2F32 g d a m n k => some (pack24 0x80140000 g d a m n k)
  | .vcvtF32Widen g d a f k => some (pack23 0x80180000 g d a f k)
  | .vcvtQ4F32 g d a m t => some (pack25 0x801c0000 g d a m t)
  | .vcvtF32Q4 g d a k => some (pack22 0x80200000 g d a k)
  | .vcmpF32 g c h a b k => some (pack26 0x80240000 g c h a b k)
  | .vcmpI32 g c h a b k => some (pack26 0x80280000 g c h a b k)
  | .vcmpN32 g c h a b k => some (pack26 0x802c0000 g c h a b k)
  | .klogic g l h a b => some (pack27 0x80300000 g l h a b)
  | .vbcast g d a k => some (pack22 0x80340000 g d a k)
  | .viota g d a k => some (pack22 0x80340008 g d a k)
  | .vperm g d a b k => some (pack8 0x80380000 g d a b k)
  | .vred g d a r n k => some (pack28 0x803c0000 g d a r n k)
  | .vld g d a u off => some (pack19 0x90000000 g d a u off)
  | .vst g d a u off => some (pack19 0x90100000 g d a u off)
  | .vldW g d a u off => some (pack19 0x90200000 g d a u off)
  | .vstW g d a u off => some (pack19 0x90300000 g d a u off)
  | .vldK g d a u off => some (pack29 0x90400000 g d a u off)
  | .vstK g d a u off => some (pack29 0x90500000 g d a u off)
  | .trdr g x y v k m => some (pack30 0xa0000000 g x y v k m)
  | .trdc g x y v k m => some (pack30 0xa0040000 g x y v k m)
  | .twrr32 g x y v k => some (pack31 0xa0080000 g x y v k)
  | .twrc32 g x y v k => some (pack31 0xa00c0000 g x y v k)
  | .twrr16 g x y v k m => some (pack30 0xa0100000 g x y v k m)
  | .twrc16 g x y v k m => some (pack30 0xa0140000 g x y v k m)
  | .twrr8 g x y v k m => some (pack30 0xa0180000 g x y v k m)
  | .twrc8 g x y v k m => some (pack30 0xa01c0000 g x y v k m)
  | .twrr8Nan g x y v k m => some (pack30 0xa0200000 g x y v k m)
  | .twrc8Nan g x y v k m => some (pack30 0xa0240000 g x y v k m)
  | .tld g x v => some (pack32 0xa0280000 g x v)
  | .tst g x v => some (pack32 0xa02c0000 g x v)
  | .mwl g x y f => some (pack33 0xa0300000 g x y f)
  | .mwlm g x y v f => some (pack31 0xa0340000 g x y v f)
  | .mwlp g x y f => some (pack33 0xa0380000 g x y f)
  | .mwlpm g x y v f => some (pack31 0xa03c0000 g x y v f)
  | .mwa g y => some (pack34 0xa0400000 g y)
  | .mwap g y => some (pack34 0xa0440000 g y)
  | .mms g x y f z => some (pack35 0xa0480000 g x y f z)
  | .mmsm g x y v f z => some (pack36 0xa04c0000 g x y v f z)
  | .mmsp g x y f z => some (pack35 0xa0500000 g x y f z)
  | .mmspm g x y v f z => some (pack36 0xa0540000 g x y v f z)
  | .mdr g x y v => some (pack37 0xa0580000 g x y v)
  | .mdrm g x y v => some (pack37 0xa05c0000 g x y v)
  | .mdrp g x y v => some (pack37 0xa0600000 g x y v)
  | .mdrpm g x y v => some (pack37 0xa0640000 g x y v)
  | .mpost g v => some (pack38 0xa0680000 g v)
  | .mzero g y => some (pack34 0xa06c0000 g y)
  | .mzerop g y => some (pack34 0xa0700000 g y)
  | .tcpy g x y => some (pack39 0xa0740000 g x y)
  | .tzero g x => some (pack40 0xa0780000 g x)
  | .mdrt g x y v => some (pack37 0xa07c0000 g x y v)
  | .tldt g x v => some (pack32 0xa0800000 g x v)
  | .tstt g x v => some (pack32 0xa0840000 g x v)
  | .tshape g x v => some (pack32 0xa0880000 g x v)
  | .cpy g u e f => some (pack41 0xb0000000 g u e f)
  | .cpy2 g u e f => some (pack41 0xb0040000 g u e f)
  | .cpyz g u e p => some (pack42 0xb0080000 g u e p)
  | .cpyx g u e p => some (pack42 0xb00c0000 g u e p)
  | .cfill g u e f => some (pack41 0xb0100000 g u e f)
  | .rld g u e => some (pack39 0xb0140000 g u e)
  | .rst g u e f => some (pack41 0xb0180000 g u e f)
  | .ratmW g u e p => some (pack42 0xb01c0000 g u e p)
  | .ratmD g u e p => some (pack42 0xb01c0010 g u e p)
  | .rred g u e f p => some (pack43 0xb0200000 g u e f p)
  | .fput g u e => some (pack39 0xb0240000 g u e)
  | .cfence g u => some (pack40 0xb0280000 g u)
  | .xchg g u e q => some (pack44 0xc0000000 g u e q)
  | .xcmb g u e q f o n => some (pack45 0xc0040000 g u e q f o n)
  | .sendif g u e q s n => some (pack46 0xc0080000 g u e q s n)
  | .shiftg g e q d => some (pack47 0xc00c0000 g e q d)
  | .xchgm g e => some (pack34 0xc0100000 g e)
  | .xcmbm g e f o => some (pack48 0xc0140000 g e f o)
  | .xarm g u e q c => some (pack49 0xc0180000 g u e q c)
  | .xdisarm g q => some (pack50 0xc01c0000 g q)
  | .xbar g e q => some (pack51 0xc0200000 g e q)
  | .coll g e => some (pack34 0xc0240000 g e)
  | .route g u e => some (pack39 0xc0280000 g u e)
  | .rqcfg g e => some (pack34 0xc02c0000 g e)
  | .rqreset g e => some (pack34 0xc0300000 g e)
  | .rcsnap g e => some (pack34 0xc0340000 g e)
  | .chain g e => some (pack34 0xd0000000 g e)
  | .chstep g e => some (pack34 0xd0040000 g e)
  | .chsize g e => some (pack34 0xd0080000 g e)
  | .chabort g => some (pack3 0xd00c0000 g)
  | .trap g n => some (pack52 0xe0000000 g n)
  | .rte g => some (pack3 0xe0040000 g)
  | .rteSw g => some (pack3 0xe0040001 g)
  | .endProg g => some (pack3 0xe0080000 g)
  | .reraise g => some (pack3 0xe00c0000 g)
  | .lmark g d a => some (pack6 0xe0100000 g d a)
  | .bpoint g => some (pack3 0xe0140000 g)
  | .dpoint g => some (pack3 0xe0180000 g)
  | .rdcyc g d => some (pack9 0xe01c0000 g d)
  | .sdump g => some (pack3 0xe0200000 g)
  | .enrd g d => some (pack9 0xe0340000 g d)
  | .enrdRsv g d => some (pack9 0xe0340001 g d)
  | .enres g d a => some (pack6 0xe0380000 g d a)
  | .enresRel g d a => some (pack6 0xe0380001 g d a)
  | .issueBundle => none
  | .stallEnd => none
  | .longWait => none
  | .resultLands => none
  | .sramAccessPerformed => none
  | .sramLoadLands => none
  | .tileOpComplete => none
  | .correctableError => none
  | .freezeEnd => none
  | .patrolScrub => none
  | .uncorrectableError => none
  | .windowTableWrite => none
  | .wtlockSet => none
  | .codeStoreLoad => none
  | .controlPathRegisterWrite => none
  | .commandStart => none
  | .issueBufferEnter => none
  | .blockTransfer => none
  | .commandComplete => none
  | .supply => none
  | .refuse => none
  | .discard => none
  | .reclaim => none
  | .pgresRead => none
  | .writePacket => none
  | .readRequest => none
  | .readResponse => none
  | .atomicPacket => none
  | .atomicResponse => none
  | .reduceStore => none
  | .flagPacket => none
  | .transferAcknowledgement => none
  | .exchangeData => none
  | .unreachableNotice => none
  | .linkAcknowledgement => none
  | .negativeAcknowledgement => none
  | .replayTimeout => none
  | .detourForward => none
  | .lossOfSignal => none
  | .guylineSwitchBack => none
  | .managementEnable => none
  | .managementDisable => none
  | .failedRetrain => none
  | .trainingComplete => none
  | .trainTimeout => none
  | .rekeyStart => none
  | .rekeyComplete => none
  | .nonceLimit => none
  | .park => none
  | .parkack => none
  | .ready => none
  | .abort => none
  | .exchangeTimeout => none
  | .xarmFire => none
  | .walkerRound => none
  | .routeRowReceive => none
  | .taskDispatch => none
  | .chainStepStart => none
  | .chainTaskPost => none
  | .energyRefill => none
  | .thermalLimit => none
  | .qtailWrite => none
  | .submitJob => none
  | .submitChain => none
  | .cancel => none
  | .registerPager => none
  | .withdrawPager => none
  | .readDump => none
  | .resetTenant => none
  | .placementPass => none
  | .aging => none
  | .quantumExpiry => none
  | .jobEnd => none
  | .drainRequest => none
  | .imageCapture => none
  | .drainEscalation => none
  | .scanStop => none
  | .resume => none
  | .budtgtSet => none
  | .buddyPointAbandon => none
  | .fatalTrap => none
  | .dieReset => none
  | .trapDelivery => none
  | .trapCyclesEnd => none
  | .returnCyclesEnd => none
  | .evrdWrite => none
  | .evovfClear => none
  | .tenantConfigWrite => none
  | .readyBitSet => none
  | .packageReset => none
  | .firmwareImageWrite => none
  | .spdmMeasurement => none
  | .imageSecretInstall => none
  | .cxlMemAccess => none
  | .routerForward => none
  | .captureComplete => none
  | .dumpComplete => none
  | .dieReturnTimeout => none

end Sys2Proof
end

