-- ==== Sys2Proof/Machine/System.lean ====
section
/-! DEFINITION. Meanings of class 0xE: traps, returns, the end, image points, and the energy account's forms (R155, R316,
R323 to R325, R330, R345, R352). What acts after the bundle is asked for in `stream.ask`. -/

namespace Sys2Proof.Machine

/-- trap n: raised after its bundle (R319, R324). -/
def execTrap (g : BitVec 4) (n : BitVec 10) (s : State) : Host.Outcome State Fault Refusal :=
  s.slot g none fun s => { s with stream.ask.trap := some n }

/-- RTE and RERAISE outside the handler raise cause 0xA (R324). -/
def State.handlerOnly (s : State) : Option Nat := if s.ctl.inHandler then none else some 0xA

/-- rte (R323). -/
def execRte (g : BitVec 4) (s : State) : Host.Outcome State Fault Refusal :=
  s.encSlot s.handlerOnly (s.slot g none fun s => { s with stream.ask.rte := some false })

/-- rte.sw: watchpoints do not match the first resumed bundle (R324). -/
def execRteSw (g : BitVec 4) (s : State) : Host.Outcome State Fault Refusal :=
  s.encSlot s.handlerOnly (s.slot g none fun s => { s with stream.ask.rte := some true })

/-- end (R155). -/
def execEndProg (g : BitVec 4) (s : State) : Host.Outcome State Fault Refusal :=
  s.slot g none fun s => { s with stream.ask.ended := true }

/-- reraise (R324). -/
def execReraise (g : BitVec 4) (s : State) : Host.Outcome State Fault Refusal :=
  s.encSlot s.handlerOnly (s.slot g none fun s => { s with stream.ask.reraise := true })

/-- lmark: a lantern entry of kind 0x08 with code n and the value of sA (R324, R347). -/
def execLmark (g : BitVec 4) (d a : BitVec 5) (s : State) : Host.Outcome State Fault Refusal :=
  s.slot g none fun s => s.lanternC 0x08 d.toNat (s.regs.rs a)

/-- bpoint: BPCNT rises at issue; at BUDTGT, outside the handler, an image stop follows the bundle (R345). -/
def execBpoint (g : BitVec 4) (s : State) : Host.Outcome State Fault Refusal :=
  s.slot g none fun s =>
    let n := s.ctl.bpcnt + 1
    { s with ctl.bpcnt := n, stream.ask.bpoint := decide (n = s.ctl.budtgt) && !s.ctl.inHandler }

/-- dpoint: a drain point (R330). -/
def execDpoint (g : BitVec 4) (s : State) : Host.Outcome State Fault Refusal :=
  s.slot g none fun s => { s with stream.ask.dpoint := true }

/-- rdcyc: sD := CYCNT (R324, R325). -/
def execRdcyc (g : BitVec 4) (d : BitVec 5) (s : State) : Host.Outcome State Fault Refusal :=
  s.slot g none fun s => s.put 1 (.s d s.ctl.cyccnt)

/-- sdump: the clock stops at the end of the bundle (R352). -/
def execSdump (g : BitVec 4) (s : State) : Host.Outcome State Fault Refusal :=
  s.slot g none fun s => { s with stream.ask.sdump := true }

/-- enrd: sD := ENACCT at the start of the cycle (R316). -/
def execEnrd (g : BitVec 4) (d : BitVec 5) (s : State) : Host.Outcome State Fault Refusal :=
  s.slot g none fun s => s.put 1 (.s d s.ctl.enacct)

/-- enrd.rsv: sD := ENRSV at the start of the cycle (R316). -/
def execEnrdRsv (g : BitVec 4) (d : BitVec 5) (s : State) : Host.Outcome State Fault Refusal :=
  s.slot g none fun s => s.put 1 (.s d s.ctl.enrsv)

/-- enres: acts after every charge of the cycle (R316). -/
def execEnres (g : BitVec 4) (d a : BitVec 5) (s : State) : Host.Outcome State Fault Refusal :=
  s.slot g none fun s => { s with stream.ask.enres := some (d, s.regs.rs a, false) }

/-- enres.rel: acts after every charge of the cycle (R316). -/
def execEnresRel (g : BitVec 4) (d a : BitVec 5) (s : State) : Host.Outcome State Fault Refusal :=
  s.slot g none fun s => { s with stream.ask.enres := some (d, s.regs.rs a, true) }

/-- What ENRES and ENRES.REL do at the end of the cycle, after its charges (R316): the amount moved goes to sD. -/
def State.doEnres (s : State) (d : BitVec 5) (x : W64) (rel : Bool) : State :=
  let c := s.ctl
  if rel then
    let y := if x.toNat ≤ c.enrsv.toNat then x else c.enrsv
    { s with ctl := { c with enrsv := c.enrsv - y, enacct := c.enacct + y }, regs := s.regs.ws d y }
  else if (x.toNat : Int) ≤ c.enacct.toInt then
    { s with ctl := { c with enacct := c.enacct - x, enrsv := c.enrsv + x }, regs := s.regs.ws d x }
  else { s with regs := s.regs.ws d 0 }

/-- A refill (R314): never lowers the account. -/
def State.refill (s : State) (rate : Nat) : State :=
  let c := s.ctl
  let x := min (c.enacct.toInt + rate) (c.encap.toInt - c.enrsv.toInt)
  if c.enacct.toInt < x then { s with ctl.enacct := BitVec.ofInt 64 x } else s

/-- What a refill adds: ENRATE, half of it at 100 °C, nothing while withheld from 105 °C (R368). -/
def State.refillRate (s : State) : Nat :=
  if s.pkg.withheld then 0 else if 100 ≤ s.pkg.celsius then s.ctl.enrate.toNat / 2 else s.ctl.enrate.toNat

/-- Causes whose fault comes up from level 1 or from an engine. -/
def fromBelow (cause : Byte) : Bool := decide (3 ≤ cause.toNat) && decide (cause.toNat ≤ 6)

/-- RERAISE in the handler (R170, R324): when the level 2 policy absorbs the fault, the die returns as after an RTE; every
other policy acts on the die as it stands. Ignore absorbs a boundary overflow, cause 0x04, as well (DESIGN CHOICE, log 54). -/
def State.doReraise (s : State) : State :=
  let cause := s.ctl.tcause
  let s := s.failHalted
  if s.ctl.contpol.extractLsb' 2 2 = 0#2 ∧ fromBelow cause = true then s.beginReturn false 24
  else s.levelTwo cause s.ctl.taddr (fromBelow cause)

end Sys2Proof.Machine
end

