-- ==== Sys2Proof/Machine/Engines.lean ====
section
/-! DEFINITION. Beginning and completing commands, dispatching tasks, and completing tile operations (R139, R140, R163 to
R167, R244, R247, R256, R312, R315). -/

namespace Sys2Proof.Machine

/-! ## Direct matrix commands (R247, R312) -/

/-- Energy of a streamed row (R312). -/
def streamRate (mf : BitVec 3) : Nat := if mf.toNat < 2 then 12 else 8

/-- One engine, or two of a pair. -/
def engines (pair : Bool) : Nat := if pair then 2 else 1

/-- Accumulator rows that a drain reads. -/
def drainRows (tr : Bool) (x : BitVec 24) : Nat := if tr then shElems x else shRows x

/-- The charge of a direct matrix command (R312). -/
def MCmd.cost (c : MCmd) : Nat :=
  match c.op with
  | .load _ _ _ _ _ => 4 * shRows c.shape
  | .stream pair _ _ _ mf _ => streamRate mf * shRows c.shape * engines pair
  | .drain pair tr _ _ _ _ _ => 6 * drainRows tr c.shape * engines pair
  | .activate _ _ => 0
  | .zero _ _ => 0

/-- A task runs on an engine. -/
def State.taskOn (s : State) (e : Nat) : Bool :=
  s.eng.tasks.any fun t => match t.runsOn with
    | some y => decide (e = y) || (decide (t.ecls = 1) && decide (e = y + 1))
    | none => false

/-- A command or task of TLM is cancelled (R170). -/
def State.cancelled (s : State) (num : Nat) : Bool := s.cancels 8 num

/-- A direct command has begun; one that is run again has (R170). -/
def MCmd.begun (c : MCmd) : Bool := c.started || decide (0 < c.tries)

/-- Every direct command of a lower number has begun: the commands of the context begin in command order (R140, R172). Tasks
share its numbers and start by R167 (DEDUCED, log 56). -/
def State.turnOf (s : State) (num : Nat) : Bool :=
  s.eng.matrix.toList.all fun q => q.all fun c => decide (num ≤ c.num) || c.begun

/-- The direct command that engine `e` begins next: the head of its queue, on an idle engine, when its turn has come; of a pair,
at the even engine and at the head of both queues (R140, R247). -/
def State.matrixNext (s : State) (e : Nat) : Option MCmd :=
  match s.mqueue e with
  | [] => none
  | c :: _ =>
    let y := c.op.engine.2
    let ready := decide (y = e) && !c.started && s.turnOf c.num && !s.taskOn e &&
      (!c.op.engine.1 || (!s.taskOn (e + 1) && (s.mqueue (e + 1)).head?.any fun d => decide (d.num = c.num)))
    if ready then some c else none

/-- Change the direct command of a number in the queues that hold it. -/
def State.mapMatrix (s : State) (num : Nat) (f : MCmd → MCmd) : State :=
  { s with eng.matrix := s.eng.matrix.map fun q => q.map fun c => if c.num = num then f c else c }

/-- A direct command leaves the queues. -/
def State.dropMatrix (s : State) (num : Nat) : State :=
  { s with eng.matrix := s.eng.matrix.map fun q => q.filter fun c => decide (c.num ≠ num) }

/-- Engine `e` begins its next direct command; a cancelled one completes. -/
def State.startM (s : State) (e : Nat) : State :=
  match s.matrixNext e with
  | none => s
  | some c =>
    if s.cancelled c.num then (s.dropMatrix c.num).complete 8 c.num c.pol 0x17
    else (s.charge c.cost).mapMatrix c.num fun c => { c with started := true }

/-- A begun direct command takes effect and completes, or runs again under the retry policy (R170, R250). -/
def State.finishM (s : State) (c : MCmd) : State :=
  if s.matrixOk c.op c.shape then ((s.doMatrix c).dropMatrix c.num).complete 8 c.num c.pol 0x00
  else if c.pol = 1 ∧ c.tries < 3 then s.mapMatrix c.num fun c => { c with started := false, tries := c.tries + 1 }
  else (s.dropMatrix c.num).complete 8 c.num c.pol 0x16

/-! ## Tasks (R164 to R167, R256, R280, R312) -/

/-- The charge of a task: its weight loads, streams and drain (R312). -/
def Task.cost (t : Task) : Nat :=
  let n := engines (decide (t.ecls = 1))
  (t.np + 1) * ((if t.wk then 0 else 4 * shRows t.wshape) + streamRate t.mf * shRows t.ashape * n) +
    (if t.dr then 6 * drainRows t.dtr t.dshape * n else 0)

/-- Row-queue conditions that name a queue. -/
def Task.rowConds (t : Task) (q : Nat) : Nat := (t.conds.filter fun c => c == .rows q).length

/-- A condition of a task holds (R164, R166). A row counted in this cycle is seen from the next on, like a completion (R135,
R141). -/
def State.condHolds (s : State) (t : Task) (c : Cond) : Bool :=
  match c with
  | .time ctx n => decide (n ≤ (s.line ctx).seen.toNat)
  | .rows q => decide (128 * t.rowConds q + (s.eng.newRows.filter (· == q)).length ≤ (s.rowQ q).depth)

/-- A task is ready: it is not dispatched, not cancelled, and all its conditions hold. -/
def State.taskReady (s : State) (t : Task) : Bool :=
  t.runsOn.isNone && !s.cancelled t.num && t.conds.all (s.condHolds t)

/-- The engine runs nothing and its queue is empty (R247). -/
def State.engineFree (s : State) (e : Nat) : Bool := decide (e < 16) && (s.mqueue e).isEmpty && !s.taskOn e

/-- An urgent task of one named engine holds it while it is ready (R167, rule 1). -/
def State.holdsNamed (s : State) (u : Task) : Bool := decide (u.ecls = 2) && decide (16 ≤ u.passes) && s.taskReady u

/-- The engine is held for a task other than `t`: for any, or, when `t` is urgent itself, for an older one, which is served
first (R167). -/
def State.heldFor (s : State) (t : Task) (e : Nat) : Bool :=
  s.eng.tasks.any fun u => decide (u.num ≠ t.num) && (decide (t.passes < 16) || decide (u.num < t.num)) &&
    ((s.holdsNamed u && decide (e = u.eng.toNat)) || u.hold.any fun y => decide (e = y) || decide (e = y + 1))

/-- An engine that tasks of any engine or pair may use (R256). -/
def State.openEngine (s : State) (e : Nat) : Bool := !s.ctl.mexcl.getLsbD e

/-- The engine, or even engine of the pair, that a task would be dispatched to now (R167, R256). -/
def State.engineFor (s : State) (t : Task) : Option Nat :=
  let free (e : Nat) : Bool := s.engineFree e && !s.heldFor t e
  if t.ecls = 2 then (if free t.eng.toNat then some t.eng.toNat else none)
  else if t.ecls = 1 then
    let pair (y : Nat) : Bool := free y && free (y + 1) && s.openEngine y && s.openEngine (y + 1)
    match t.hold with
    | some y => if pair y then some y else none
    | none => ((List.range 8).map (2 * ·)).find? pair
  else (List.range 16).find? fun e => free e && s.openEngine e

/-- Change the task of a number. -/
def State.mapTask (s : State) (num : Nat) (f : Task → Task) : State :=
  { s with eng.tasks := s.eng.tasks.map fun t => if t.num = num then f t else t }

/-- The oldest 128 rows of a queue go to a task (R166, R280). -/
def State.takeRows (s : State) (num q : Nat) : State :=
  let r := s.rowQ q
  let s := s.setRowQ q { r with depth := r.depth - 128, head := (r.head + 128) % r.cap, heldBy := (r.head, num) :: r.heldBy }
  s.mapTask num fun t => { t with taken := t.taken ++ [(q, r.head)] }

/-- A task is dispatched to an engine (R166, R167). -/
def State.dispatch (s : State) (t : Task) (e : Nat) : State :=
  let s := (s.charge t.cost).mapTask t.num fun t => { t with runsOn := some e, hold := none }
  t.conds.foldl (fun s c => match c with
    | .rows q => s.takeRows t.num q
    | .time _ _ => s) s

/-- An urgent task of a pair holds one until it is dispatched (R167, rule 1). -/
def State.holdEngines (s : State) (t : Task) : State :=
  if t.hold.isSome then s
  else if t.ecls = 1 then
    let some_ (y : Nat) : Bool := s.openEngine y && s.openEngine (y + 1) && !s.heldFor t y && !s.heldFor t (y + 1) &&
      (s.engineFree y || s.engineFree (y + 1))
    match ((List.range 8).map (2 * ·)).find? some_ with
    | some y => s.mapTask t.num fun t => { t with hold := some y }
    | none => s
  else s

/-- One task's turn in a dispatch round: the numbers dispatched and whether a charge was deferred so far go along. -/
def State.offer (a : State × List Nat × Bool) (num : Nat) : State × List Nat × Bool :=
  let s := a.1
  match s.eng.tasks.find? fun t => decide (t.num = num) with
  | none => a
  | some t =>
    if !s.taskReady t then a
    else
      let s := if 16 ≤ t.passes then s.holdEngines t else s
      match s.eng.tasks.find? fun t => decide (t.num = num) with
      | none => a
      | some t =>
        match s.engineFor t with
        | none => (s, a.2)
        | some e => if s.ctl.mayCharge t.cost then (s.dispatch t e, num :: a.2.1, a.2.2) else (s, a.2.1, true)

/-- Passes after a round: a ready task that was not dispatched while a later one was is passed over once (R167, rule 3). -/
def State.countPasses (s : State) (ready dispatched : List Nat) : List Task → List Task
  | [] => []
  | t :: r =>
    let skipped := ready.contains t.num && !dispatched.contains t.num && r.any fun u => dispatched.contains u.num
    (if skipped then { t with passes := t.passes + 1 } else t) :: s.countPasses ready dispatched r

/-- One cycle's dispatch round of the dependency table (R167): urgent tasks first, oldest first, then the others. The
second component says that a start was deferred by the energy account. -/
def State.dispatchRound (s : State) : State × Bool :=
  let ready := s.eng.tasks.filter s.taskReady
  let order := (ready.filter fun t => decide (16 ≤ t.passes)) ++ ready.filter fun t => decide (t.passes < 16)
  let r := (order.map (·.num)).foldl State.offer (s, [], false)
  let tasks := r.1.countPasses (ready.map (·.num)) r.2.1 r.1.eng.tasks
  ({ r.1 with eng.tasks := tasks }, r.2.2)

/-- TASK_DISPATCH (R167). -/
def execTaskDispatch (s : State) : Host.Outcome State Fault Refusal :=
  .next (if s.halted then s else s.dispatchRound.1)

/-- The rows that a task took become free (R166). -/
def State.freeRows (s : State) (t : Task) : State :=
  t.taken.foldl (fun s (q, slot) =>
    let r := s.rowQ q
    s.setRowQ q { r with heldBy := r.heldBy.filter fun h => decide (h ≠ (slot, t.num)) }) s

/-- A task leaves the table with a status (R165, R166, R299). -/
def State.endTask (s : State) (t : Task) (st : Byte) : State :=
  let s := s.freeRows t
  let s := { s with eng.tasks := s.eng.tasks.filter fun u => decide (u.num ≠ t.num) }
  (if t.chain then s.chainTaskDone t.num st else s).complete 8 t.num t.pol st

/-- A task completes: one that runs has its whole effect now, or runs again under the retry policy; one that its context
cancels ends (R139, R170, R256). A command or task that has begun when its context is killed goes on to its own status
(DESIGN CHOICE, log 51). -/
def State.finishTask (s : State) (t : Task) : State :=
  match t.runsOn with
  | some y =>
    let r := s.runTask t y t.seed
    if isError r.2 && decide (t.pol = 1) && decide (t.tries < 3) then
      r.1.mapTask t.num fun t => { t with tries := t.tries + 1 }
    else r.1.endTask t r.2
  | none => if s.cancelled t.num then s.endTask t 0x17 else s

/-! ## Starts (R140, R312, R315) -/

/-- What a unit would begin next: number and charge. A command that its killed context cancels costs nothing. -/
def State.pendingStart (s : State) (u : EngUnit) : Option (Nat × Nat) :=
  match u with
  | .ce i => (s.copyNext i).map fun c => (c.num, if s.cancels i c.num then 0 else s.copyCharge c.op)
  | .xe q => (s.xNext q).map fun c => (c.num, if s.cancels (q + 4) c.num then 0 else c.cost)
  | .walker => s.walkNext.map fun c =>
      (c.num, if s.cancels 10 c.num then 0 else s.walkCost c.op (s.readRecord c.op))
  | .chain => match s.eng.chain with
    | c :: _ => if c.started then none else some (c.num, 0)
    | [] => none
  | .me e => (s.matrixNext e).map fun c => (c.num, if s.cancelled c.num then 0 else c.cost)

/-- A unit begins its next command. -/
def State.begin (s : State) (u : EngUnit) : State :=
  match u with
  | .ce i => s.startCopy i
  | .xe q => s.startX q
  | .walker => s.startW
  | .chain => s.startChain
  | .me e => s.startM e

/-- COMMAND_START (R140, R312): the named unit begins its next command when its charge may be taken. -/
def execCommandStart (s : State) : Host.Outcome State Fault Refusal :=
  match s.arg with
  | .eng u =>
    match s.pendingStart u with
    | some (_, q) => .next (if !s.halted && s.ctl.mayCharge q then s.begin u else s)
    | none => .next s
  | _ => .next s

/-! ## Completions (R139) -/

/-- The numbers of a context that may complete now. -/
def State.completable (s : State) (ctx : Nat) : List Nat :=
  if ctx < 4 then ((s.copyQueue ctx).filter (·.finished)).map (·.num)
  else if ctx < 8 then
    let x := s.xqueue (ctx - 4)
    ((x.queue ++ x.arms).filter fun c => c.finished && s.combineSettled c).map (·.num)
  else if ctx = 8 then
    ((s.eng.matrix.toList.flatten.filter (·.started)).map (·.num)) ++
    (s.eng.tasks.filter fun t => t.runsOn.isSome || s.cancelled t.num).map (·.num)
  else if ctx = 9 then
    match s.eng.chain with
    | c :: _ => if c.finished then [c.num] else []
    | [] => []
  else if ctx = 10 then ((s.eng.walker.filter s.walkDone).map (·.num)) ++ s.eng.snaps.map (·.num)
  else []

/-- A number of a context completes. -/
def State.finish (s : State) (ctx num : Nat) : State :=
  if ctx < 4 then
    match (s.copyQueue ctx).find? fun c => decide (c.num = num) with
    | some c => s.finishCopy ctx c
    | none => s
  else if ctx < 8 then
    match s.findX (ctx - 4) num with
    | some c => s.finishX (ctx - 4) c
    | none => s
  else if ctx = 8 then
    match s.eng.matrix.toList.flatten.find? fun c => decide (c.num = num) with
    | some c => s.finishM c
    | none => match s.eng.tasks.find? fun t => decide (t.num = num) with
      | some t => s.finishTask t
      | none => s
  else if ctx = 9 then
    match s.eng.chain.find? fun c => decide (c.num = num) with
    | some c => s.finishCh c
    | none => s
  else
    match s.eng.walker.find? fun c => decide (c.num = num) with
    | some c => s.finishW c
    | none => match s.eng.snaps.find? fun c => decide (c.num = num) with
      | some c => s.finishSnap c
      | none => s

/-- COMMAND_COMPLETE (R139): context and number. -/
def execCommandComplete (s : State) : Host.Outcome State Fault Refusal :=
  match s.arg with
  | .two ctx num => .next (if !s.halted && (s.completable ctx).contains num then s.finish ctx num else s)
  | _ => .next s

/-- TILE_OP_COMPLETE (R244): the tile operation at a place among those outstanding is performed whole; OCTO falls, and the
cycle's landing moves find its write (R245). -/
def execTileOpComplete (s : State) : Host.Outcome State Fault Refusal :=
  match s.arg with
  | .nat i =>
    match s.stream.tileOps[i]? with
    | some o =>
      .next (if s.halted then s else { s.doTileOp o with stream := { s.stream with
        tileOps := s.stream.tileOps.eraseIdx i, tileNow := s.stream.tileNow ++ [o] } })
    | none => .next s
  | _ => .next s

end Sys2Proof.Machine
end

