-- ==== Sys2Proof/Machine/Scalar.lean ====
section
/-! DEFINITION. Meanings of classes 0x0 to 0x3: scalar and immediate arithmetic, address arithmetic, register moves and
compares (R201 to R208), and of the three headers (R180). -/

namespace Sys2Proof.Machine

/-- A header does not execute (R180): the bundle's issue reads its fields. -/
def execExtHdr (_z _y _x : BitVec 8) (s : State) : Host.Outcome State Fault Refusal := .next s

/-- A repeat prefix (R182): the bundle asks for a repeat of its matrix slot. The registers' values and strides are taken
at the first issue; `slot` is put in by the bundle. -/
def execRepeatPfx (c : BitVec 12) (x y : BitVec 4) (v w : BitVec 1) (s : State) : Host.Outcome State Fault Refusal :=
  let r : Repeat :=
    { slot := .nop 0, left := c.toNat, next := 0, ax := x, ay := y, vx := v == 1, vy := w == 1, ax0 := s.regs.ra x,
      ay0 := s.regs.ra y, sx := s.regs.rn x, sy := s.regs.rn y }
  .next { s with stream.ask.rpt := some r }

/-- A loop-buffer mark (R184): the bundle asks to be captured. -/
def execLbmark (l : BitVec 6) (p : BitVec 1) (s : State) : Host.Outcome State Fault Refusal :=
  .next { s with stream.ask.mark := some (l.toNat, p == 1) }

/-- The s register `d` takes a value after a latency. -/
def State.slotS (s : State) (g : BitVec 4) (lat : Nat) (d : BitVec 5) (x : W64) : Host.Outcome State Fault Refusal :=
  s.slot g none fun s => s.put lat (.s d x)

/-- Nothing (R203). -/
def execNop (_g : BitVec 4) (s : State) : Host.Outcome State Fault Refusal := .next s

/-- D := A + B (R203). -/
def execAdd (g : BitVec 4) (d a b : BitVec 5) (s : State) : Host.Outcome State Fault Refusal :=
  s.slotS g 1 d (s.regs.rs a + s.regs.rs b)

/-- D := A − B (R203). -/
def execSub (g : BitVec 4) (d a b : BitVec 5) (s : State) : Host.Outcome State Fault Refusal :=
  s.slotS g 1 d (s.regs.rs a - s.regs.rs b)

/-- D := A and B (R203). -/
def execAnd (g : BitVec 4) (d a b : BitVec 5) (s : State) : Host.Outcome State Fault Refusal :=
  s.slotS g 1 d (s.regs.rs a &&& s.regs.rs b)

/-- D := A or B (R203). -/
def execOr (g : BitVec 4) (d a b : BitVec 5) (s : State) : Host.Outcome State Fault Refusal :=
  s.slotS g 1 d (s.regs.rs a ||| s.regs.rs b)

/-- D := A xor B (R203). -/
def execXor (g : BitVec 4) (d a b : BitVec 5) (s : State) : Host.Outcome State Fault Refusal :=
  s.slotS g 1 d (s.regs.rs a ^^^ s.regs.rs b)

/-- D := A and not B (R203). -/
def execAndn (g : BitVec 4) (d a b : BitVec 5) (s : State) : Host.Outcome State Fault Refusal :=
  s.slotS g 1 d (s.regs.rs a &&& ~~~s.regs.rs b)

/-- Shift and rotate amounts are B[5:0] (R203). -/
def shAmt (b : W64) : Nat := b.toNat % 64

/-- D := A << B[5:0], zero-filled (R203). -/
def execShl (g : BitVec 4) (d a b : BitVec 5) (s : State) : Host.Outcome State Fault Refusal :=
  s.slotS g 1 d (s.regs.rs a <<< shAmt (s.regs.rs b))

/-- D := A >> B[5:0], zero-filled (R203). -/
def execShr (g : BitVec 4) (d a b : BitVec 5) (s : State) : Host.Outcome State Fault Refusal :=
  s.slotS g 1 d (s.regs.rs a >>> shAmt (s.regs.rs b))

/-- D := A >> B[5:0], sign-filled (R203). -/
def execSar (g : BitVec 4) (d a b : BitVec 5) (s : State) : Host.Outcome State Fault Refusal :=
  s.slotS g 1 d ((s.regs.rs a).sshiftRight (shAmt (s.regs.rs b)))

/-- D := A rotated right by B[5:0] (R203). -/
def execRor (g : BitVec 4) (d a b : BitVec 5) (s : State) : Host.Outcome State Fault Refusal :=
  s.slotS g 1 d ((s.regs.rs a).rotateRight (shAmt (s.regs.rs b)))

/-- D := smaller of A and B, as i64 (R203). -/
def execMin (g : BitVec 4) (d a b : BitVec 5) (s : State) : Host.Outcome State Fault Refusal :=
  s.slotS g 1 d (if (s.regs.rs a).slt (s.regs.rs b) then s.regs.rs a else s.regs.rs b)

/-- D := smaller of A and B, as n64 (R203). -/
def execMinN (g : BitVec 4) (d a b : BitVec 5) (s : State) : Host.Outcome State Fault Refusal :=
  s.slotS g 1 d (if (s.regs.rs a).ult (s.regs.rs b) then s.regs.rs a else s.regs.rs b)

/-- D := larger of A and B, as i64 (R203). -/
def execMax (g : BitVec 4) (d a b : BitVec 5) (s : State) : Host.Outcome State Fault Refusal :=
  s.slotS g 1 d (if (s.regs.rs b).slt (s.regs.rs a) then s.regs.rs a else s.regs.rs b)

/-- D := larger of A and B, as n64 (R203). -/
def execMaxN (g : BitVec 4) (d a b : BitVec 5) (s : State) : Host.Outcome State Fault Refusal :=
  s.slotS g 1 d (if (s.regs.rs b).ult (s.regs.rs a) then s.regs.rs a else s.regs.rs b)

/-- D := low 64 bits of A × B (R203). -/
def execMul (g : BitVec 4) (d a b : BitVec 5) (s : State) : Host.Outcome State Fault Refusal :=
  s.slotS g 3 d (s.regs.rs a * s.regs.rs b)

/-- D := high 64 bits of the i64 × i64 product (R203). -/
def execMulh (g : BitVec 4) (d a b : BitVec 5) (s : State) : Host.Outcome State Fault Refusal :=
  s.slotS g 3 d (BitVec.ofInt 64 ((s.regs.rs a).toInt * (s.regs.rs b).toInt / 2 ^ 64))

/-- D := high 64 bits of the n64 × n64 product (R203). -/
def execMulhN (g : BitVec 4) (d a b : BitVec 5) (s : State) : Host.Outcome State Fault Refusal :=
  s.slotS g 3 d (BitVec.ofNat 64 ((s.regs.rs a).toNat * (s.regs.rs b).toNat / 2 ^ 64))

/-- D := low 64 bits of A × B + C; C from the extension byte (R203). -/
def execMadd (g : BitVec 4) (d a b c : BitVec 5) (s : State) : Host.Outcome State Fault Refusal :=
  s.slotS g 3 d (s.regs.rs a * s.regs.rs b + s.regs.rs c)

/-- div_rem of R203: quotient and remainder. -/
def divRem (a b : W64) (unsigned : Bool) : W64 × W64 :=
  if b = 0 then (0xFFFFFFFFFFFFFFFF#64, a)
  else if unsigned then (BitVec.ofNat 64 (a.toNat / b.toNat), BitVec.ofNat 64 (a.toNat % b.toNat))
  else (BitVec.ofInt 64 (a.toInt.tdiv b.toInt), BitVec.ofInt 64 (a.toInt.tmod b.toInt))

/-- D := quotient, i64 (R203). -/
def execDiv (g : BitVec 4) (d a b : BitVec 5) (s : State) : Host.Outcome State Fault Refusal :=
  s.slotS g 20 d ((divRem (s.regs.rs a) (s.regs.rs b) false).1)

/-- D := quotient, n64 (R203). -/
def execDivN (g : BitVec 4) (d a b : BitVec 5) (s : State) : Host.Outcome State Fault Refusal :=
  s.slotS g 20 d ((divRem (s.regs.rs a) (s.regs.rs b) true).1)

/-- D := remainder, i64 (R203). -/
def execRem (g : BitVec 4) (d a b : BitVec 5) (s : State) : Host.Outcome State Fault Refusal :=
  s.slotS g 20 d ((divRem (s.regs.rs a) (s.regs.rs b) false).2)

/-- D := remainder, n64 (R203). -/
def execRemN (g : BitVec 4) (d a b : BitVec 5) (s : State) : Host.Outcome State Fault Refusal :=
  s.slotS g 20 d ((divRem (s.regs.rs a) (s.regs.rs b) true).2)

/-- D := A[7:0], sign-extended (R203). -/
def execSextB (g : BitVec 4) (d a : BitVec 5) (s : State) : Host.Outcome State Fault Refusal :=
  s.slotS g 1 d (((s.regs.rs a).truncate 8).signExtend 64)

/-- D := A[15:0], sign-extended (R203). -/
def execSextH (g : BitVec 4) (d a : BitVec 5) (s : State) : Host.Outcome State Fault Refusal :=
  s.slotS g 1 d (((s.regs.rs a).truncate 16).signExtend 64)

/-- D := A[31:0], sign-extended (R203). -/
def execSextW (g : BitVec 4) (d a : BitVec 5) (s : State) : Host.Outcome State Fault Refusal :=
  s.slotS g 1 d (((s.regs.rs a).truncate 32).signExtend 64)

/-- D := A[7:0], zero-extended (R203). -/
def execZextB (g : BitVec 4) (d a : BitVec 5) (s : State) : Host.Outcome State Fault Refusal :=
  s.slotS g 1 d (((s.regs.rs a).truncate 8).zeroExtend 64)

/-- D := A[15:0], zero-extended (R203). -/
def execZextH (g : BitVec 4) (d a : BitVec 5) (s : State) : Host.Outcome State Fault Refusal :=
  s.slotS g 1 d (((s.regs.rs a).truncate 16).zeroExtend 64)

/-- D := A[31:0], zero-extended (R203). -/
def execZextW (g : BitVec 4) (d a : BitVec 5) (s : State) : Host.Outcome State Fault Refusal :=
  s.slotS g 1 d (((s.regs.rs a).truncate 32).zeroExtend 64)

/-- Number of set bits. -/
def popCount (x : W64) : Nat := ((List.range 64).filter fun i => x.getLsbD i).length
/-- Leading zeros; 64 for zero. -/
def leadZeros (x : W64) : Nat := ((List.range 64).find? fun i => x.getLsbD (63 - i)).getD 64
/-- Trailing zeros; 64 for zero. -/
def trailZeros (x : W64) : Nat := ((List.range 64).find? fun i => x.getLsbD i).getD 64

/-- D := number of set bits of A (R203). -/
def execPopc (g : BitVec 4) (d a : BitVec 5) (s : State) : Host.Outcome State Fault Refusal :=
  s.slotS g 1 d (BitVec.ofNat 64 (popCount (s.regs.rs a)))

/-- D := leading zeros of A (R203). -/
def execClz (g : BitVec 4) (d a : BitVec 5) (s : State) : Host.Outcome State Fault Refusal :=
  s.slotS g 1 d (BitVec.ofNat 64 (leadZeros (s.regs.rs a)))

/-- D := trailing zeros of A (R203). -/
def execCtz (g : BitVec 4) (d a : BitVec 5) (s : State) : Host.Outcome State Fault Refusal :=
  s.slotS g 1 d (BitVec.ofNat 64 (trailZeros (s.regs.rs a)))

/-! ## Immediate arithmetic (R204) -/

/-- D := A + imm. -/
def execAddi (g : BitVec 4) (d a : BitVec 5) (imm : BitVec 18) (s : State) : Host.Outcome State Fault Refusal :=
  s.slotS g 1 d (s.regs.rs a + immS imm)

/-- D := A and imm. -/
def execAndi (g : BitVec 4) (d a : BitVec 5) (imm : BitVec 18) (s : State) : Host.Outcome State Fault Refusal :=
  s.slotS g 1 d (s.regs.rs a &&& immS imm)

/-- D := A or imm. -/
def execOri (g : BitVec 4) (d a : BitVec 5) (imm : BitVec 18) (s : State) : Host.Outcome State Fault Refusal :=
  s.slotS g 1 d (s.regs.rs a ||| immS imm)

/-- D := A xor imm. -/
def execXori (g : BitVec 4) (d a : BitVec 5) (imm : BitVec 18) (s : State) : Host.Outcome State Fault Refusal :=
  s.slotS g 1 d (s.regs.rs a ^^^ immS imm)

/-- D := A << imm; the decoder admits 0 to 63. -/
def execShli (g : BitVec 4) (d a : BitVec 5) (imm : BitVec 18) (s : State) : Host.Outcome State Fault Refusal :=
  s.slotS g 1 d (s.regs.rs a <<< imm.toNat)

/-- D := A >> imm, zero-filled. -/
def execShri (g : BitVec 4) (d a : BitVec 5) (imm : BitVec 18) (s : State) : Host.Outcome State Fault Refusal :=
  s.slotS g 1 d (s.regs.rs a >>> imm.toNat)

/-- D := A >> imm, sign-filled. -/
def execSari (g : BitVec 4) (d a : BitVec 5) (imm : BitVec 18) (s : State) : Host.Outcome State Fault Refusal :=
  s.slotS g 1 d ((s.regs.rs a).sshiftRight imm.toNat)

/-- D := (A << 18) or (imm and 0x3_FFFF). -/
def execShori (g : BitVec 4) (d a : BitVec 5) (imm : BitVec 18) (s : State) : Host.Outcome State Fault Refusal :=
  s.slotS g 1 d ((s.regs.rs a <<< 18) ||| imm.zeroExtend 64)

/-! ## Address arithmetic and moves (R205 to R207) -/

/-- aD := aA + (sB << m). -/
def execAdda (g : BitVec 4) (d a b : BitVec 5) (m : BitVec 3) (s : State) : Host.Outcome State Fault Refusal :=
  s.slot g none fun s => s.put 1 (.a (d.truncate 4) (s.regs.ra (a.truncate 4) + (s.regs.rs b <<< m.toNat)))

/-- aD := sA. -/
def execMovAS (g : BitVec 4) (d a : BitVec 5) (s : State) : Host.Outcome State Fault Refusal :=
  s.slot g none fun s => s.put 1 (.a (d.truncate 4) (s.regs.rs a))

/-- sD := aA. -/
def execMovSA (g : BitVec 4) (d a : BitVec 5) (s : State) : Host.Outcome State Fault Refusal :=
  s.slot g none fun s => s.put 1 (.s d (s.regs.ra (a.truncate 4)))

/-- nD := sA. -/
def execMovNS (g : BitVec 4) (d a : BitVec 5) (s : State) : Host.Outcome State Fault Refusal :=
  s.slot g none fun s => s.put 1 (.n (d.truncate 4) (s.regs.rs a))

/-- sD := nA. -/
def execMovSN (g : BitVec 4) (d a : BitVec 5) (s : State) : Host.Outcome State Fault Refusal :=
  s.slot g none fun s => s.put 1 (.s d (s.regs.rn (a.truncate 4)))

/-- eD := sA. -/
def execMovES (g : BitVec 4) (d a : BitVec 5) (s : State) : Host.Outcome State Fault Refusal :=
  s.slot g none fun s => s.put 1 (.e (d.truncate 4) (s.regs.rs a))

/-- sD := eA. -/
def execMovSE (g : BitVec 4) (d a : BitVec 5) (s : State) : Host.Outcome State Fault Refusal :=
  s.slot g none fun s => s.put 1 (.s d (s.regs.re (a.toNat % 16)))

/-- The fault of a move to a control register whose value is outside the limits of the register (R206). -/
def State.moveFault (s : State) (n : Nat) (x : W64) : Option SFault :=
  if s.ctlWriteCause n x = some 0xA then some (.illegal 0xA) else none

/-- The fault of a move to a register that the control stream may not write now (R206, R355), whatever the guard. -/
def State.moveEnc (s : State) (n : Nat) : Option Nat :=
  if ctlWritable n = false ∨ (n = 0x150 ∧ s.ctl.inHandler = false) then some 0xB else none

/-- Control register := sA, landing at the end of the issue cycle (R206). -/
def execMovToControl (g : BitVec 4) (x a y : BitVec 5) (s : State) : Host.Outcome State Fault Refusal :=
  let n := ctlNumber y x
  s.encSlot (s.moveEnc n) (s.slot g (s.moveFault n (s.regs.rs a)) fun s => s.put 1 (.ctl n (s.regs.rs a)))

/-- sD := control register as it stands at the start of the issue cycle (R206). -/
def execMovFromControl (g : BitVec 4) (d x y : BitVec 5) (s : State) : Host.Outcome State Fault Refusal :=
  s.slotS g 1 d (s.ctlRead (ctlNumber y x))

/-- gD := 1 if sA ≠ 0, else 0. -/
def execMovGS (g : BitVec 4) (d a : BitVec 5) (s : State) : Host.Outcome State Fault Refusal :=
  s.slot g none fun s => s.put 1 (.g (d.truncate 4) (s.regs.rs a != 0))

/-- sD := gA, 0 or 1. -/
def execMovSG (g : BitVec 4) (d a : BitVec 5) (s : State) : Host.Outcome State Fault Refusal :=
  s.slot g none fun s => s.put 1 (.s d (if s.regs.rg (a.truncate 4) then 1 else 0))

/-- g15 to g0 as sixteen bits, g0 in bit 0. -/
def Regs.guards (r : Regs) : W64 :=
  BitVec.ofNat 64 (((List.range 16).map fun i => if r.rg (BitVec.ofNat 4 i) then 2 ^ i else 0).sum)

/-- sD[15:0] := g15 to g0 (R205). -/
def execGget (g : BitVec 4) (d : BitVec 5) (s : State) : Host.Outcome State Fault Refusal := s.slotS g 1 d s.regs.guards

/-- g2 to g15 := sA[2] to sA[15] (R205). -/
def execGset (g : BitVec 4) (a : BitVec 5) (s : State) : Host.Outcome State Fault Refusal :=
  s.slot g none fun s => s.put 1 (.gset ((s.regs.rs a).truncate 16))

/-! ## Compares into guard pairs (R208) -/

/-- Both writes of a compare land after one cycle: g H := cond and g H+1 := not cond. -/
def State.slotCmp (s : State) (g h : BitVec 4) (cond : Bool) : Host.Outcome State Fault Refusal :=
  s.slot g none fun s => (s.put 1 (.g h cond)).put 1 (.g (h + 1) !cond)

/-- cmp.eq gH, sA, sB. -/
def execCmpEq (g h : BitVec 4) (a b : BitVec 5) (s : State) : Host.Outcome State Fault Refusal :=
  s.slotCmp g h ((s.regs.rs a) == (s.regs.rs b))

/-- cmp.eq gH, sA, imm. -/
def execCmpEqImm (g h : BitVec 4) (a : BitVec 5) (imm : BitVec 18) (s : State) : Host.Outcome State Fault Refusal :=
  s.slotCmp g h ((s.regs.rs a) == (immS imm))

/-- cmp.lt gH, sA, sB. -/
def execCmpLt (g h : BitVec 4) (a b : BitVec 5) (s : State) : Host.Outcome State Fault Refusal :=
  s.slotCmp g h ((s.regs.rs a).slt (s.regs.rs b))

/-- cmp.lt gH, sA, imm. -/
def execCmpLtImm (g h : BitVec 4) (a : BitVec 5) (imm : BitVec 18) (s : State) : Host.Outcome State Fault Refusal :=
  s.slotCmp g h ((s.regs.rs a).slt (immS imm))

/-- cmp.le gH, sA, sB. -/
def execCmpLe (g h : BitVec 4) (a b : BitVec 5) (s : State) : Host.Outcome State Fault Refusal :=
  s.slotCmp g h ((s.regs.rs a).sle (s.regs.rs b))

/-- cmp.le gH, sA, imm. -/
def execCmpLeImm (g h : BitVec 4) (a : BitVec 5) (imm : BitVec 18) (s : State) : Host.Outcome State Fault Refusal :=
  s.slotCmp g h ((s.regs.rs a).sle (immS imm))

/-- cmp.ltn gH, sA, sB. -/
def execCmpLtn (g h : BitVec 4) (a b : BitVec 5) (s : State) : Host.Outcome State Fault Refusal :=
  s.slotCmp g h ((s.regs.rs a).ult (s.regs.rs b))

/-- cmp.ltn gH, sA, imm. -/
def execCmpLtnImm (g h : BitVec 4) (a : BitVec 5) (imm : BitVec 18) (s : State) : Host.Outcome State Fault Refusal :=
  s.slotCmp g h ((s.regs.rs a).ult (immS imm))

/-- cmp.len gH, sA, sB. -/
def execCmpLen (g h : BitVec 4) (a b : BitVec 5) (s : State) : Host.Outcome State Fault Refusal :=
  s.slotCmp g h ((s.regs.rs a).ule (s.regs.rs b))

/-- cmp.len gH, sA, imm. -/
def execCmpLenImm (g h : BitVec 4) (a : BitVec 5) (imm : BitVec 18) (s : State) : Host.Outcome State Fault Refusal :=
  s.slotCmp g h ((s.regs.rs a).ule (immS imm))

/-- cmp.tst gH, sA, sB. -/
def execCmpTst (g h : BitVec 4) (a b : BitVec 5) (s : State) : Host.Outcome State Fault Refusal :=
  s.slotCmp g h (((s.regs.rs a) &&& (s.regs.rs b)) != 0)

/-- cmp.tst gH, sA, imm. -/
def execCmpTstImm (g h : BitVec 4) (a : BitVec 5) (imm : BitVec 18) (s : State) : Host.Outcome State Fault Refusal :=
  s.slotCmp g h (((s.regs.rs a) &&& (immS imm)) != 0)

end Sys2Proof.Machine
end

