-- ==== Sys2Proof/Machine/ScalarMem.lean ====
section
/-! DEFINITION. Meanings of class 0x5: scalar loads, stores and atomics (R219 to R222). -/

namespace Sys2Proof.Machine

/-- A scalar load of `size` bytes, zero-extended into s D (R219). -/
def State.slotLoad (s : State) (g : BitVec 4) (size : Nat) (d : BitVec 5) (a : BitVec 4) (u : BitVec 1) (off : BitVec 18) :
    Host.Outcome State Fault Refusal :=
  let ea := s.ea a (immS off) size
  s.slot g (streamFault ea true false) fun s => (s.startLoad ea size (.s d)).postInc a u

/-- A scalar store of the low `size` bytes of s D (R219). -/
def State.slotStore (s : State) (g : BitVec 4) (size : Nat) (d : BitVec 5) (a : BitVec 4) (u : BitVec 1) (off : BitVec 18) :
    Host.Outcome State Fault Refusal :=
  let ea := s.ea a (immS off) size
  s.slot g (streamFault ea false true) fun s => (s.startStore ea (leBytes size (s.regs.rs d).toNat)).postInc a u

/-- An atomic of `size` bytes (R222): operand s D, and s D+1 for the compare. -/
def State.slotAtomic (s : State) (g : BitVec 4) (size : Nat) (d : BitVec 5) (a : BitVec 4) (u : BitVec 1) (op : BitVec 4)
    (off : BitVec 6) : Host.Outcome State Fault Refusal :=
  let ea := s.ea a (off.signExtend 64) size
  s.slot g (streamFault ea false true) fun s =>
    (s.startAtomic op d ea size (s.regs.rs d) (s.regs.rs (d + 1))).postInc a u

/-- ld.b: 1 byte(s) at ea, zero-extended. -/
def execLdB (g : BitVec 4) (d : BitVec 5) (a : BitVec 4) (u : BitVec 1) (off : BitVec 18) (s : State) :
    Host.Outcome State Fault Refusal := s.slotLoad g 1 d a u off

/-- ld.h: 2 byte(s) at ea, zero-extended. -/
def execLdH (g : BitVec 4) (d : BitVec 5) (a : BitVec 4) (u : BitVec 1) (off : BitVec 18) (s : State) :
    Host.Outcome State Fault Refusal := s.slotLoad g 2 d a u off

/-- ld.w: 4 byte(s) at ea, zero-extended. -/
def execLdW (g : BitVec 4) (d : BitVec 5) (a : BitVec 4) (u : BitVec 1) (off : BitVec 18) (s : State) :
    Host.Outcome State Fault Refusal := s.slotLoad g 4 d a u off

/-- ld.d: 8 byte(s) at ea, zero-extended. -/
def execLdD (g : BitVec 4) (d : BitVec 5) (a : BitVec 4) (u : BitVec 1) (off : BitVec 18) (s : State) :
    Host.Outcome State Fault Refusal := s.slotLoad g 8 d a u off

/-- st.b: 1 byte(s) at ea := the low bytes of sD. -/
def execStB (g : BitVec 4) (d : BitVec 5) (a : BitVec 4) (u : BitVec 1) (off : BitVec 18) (s : State) :
    Host.Outcome State Fault Refusal := s.slotStore g 1 d a u off

/-- st.h: 2 byte(s) at ea := the low bytes of sD. -/
def execStH (g : BitVec 4) (d : BitVec 5) (a : BitVec 4) (u : BitVec 1) (off : BitVec 18) (s : State) :
    Host.Outcome State Fault Refusal := s.slotStore g 2 d a u off

/-- st.w: 4 byte(s) at ea := the low bytes of sD. -/
def execStW (g : BitVec 4) (d : BitVec 5) (a : BitVec 4) (u : BitVec 1) (off : BitVec 18) (s : State) :
    Host.Outcome State Fault Refusal := s.slotStore g 4 d a u off

/-- st.d: 8 byte(s) at ea := the low bytes of sD. -/
def execStD (g : BitVec 4) (d : BitVec 5) (a : BitVec 4) (u : BitVec 1) (off : BitVec 18) (s : State) :
    Host.Outcome State Fault Refusal := s.slotStore g 8 d a u off

/-- atm.op.w (R222). -/
def execAtmW (g : BitVec 4) (d : BitVec 5) (a : BitVec 4) (u : BitVec 1) (p : BitVec 4) (o : BitVec 6) (s : State) :
    Host.Outcome State Fault Refusal := s.slotAtomic g 4 d a u p o

/-- atm.op.d (R222). -/
def execAtmD (g : BitVec 4) (d : BitVec 5) (a : BitVec 4) (u : BitVec 1) (p : BitVec 4) (o : BitVec 6) (s : State) :
    Host.Outcome State Fault Refusal := s.slotAtomic g 8 d a u p o

end Sys2Proof.Machine
end

