-- ==== Sys2Proof/Machine/Slots.lean ====
section
/-! DEFINITION. What a slot of a bundle does: the meaning of each instruction that a bundle can hold, by name. The rows of
the opcode table that are events have no word; no bundle holds one. -/

namespace Sys2Proof.Machine

/-- The meaning of a slot or header (R174). -/
def slotMeaning (i : Instr) (s : State) : Host.Outcome State Fault Refusal :=
  match i with
  | .extHdr z y x => execExtHdr z y x s
  | .repeatPfx c x y v w => execRepeatPfx c x y v w s
  | .lbmark l p => execLbmark l p s
  | .nop g => execNop g s
  | .add g d a b => execAdd g d a b s
  | .sub g d a b => execSub g d a b s
  | .and g d a b => execAnd g d a b s
  | .or g d a b => execOr g d a b s
  | .xor g d a b => execXor g d a b s
  | .andn g d a b => execAndn g d a b s
  | .shl g d a b => execShl g d a b s
  | .shr g d a b => execShr g d a b s
  | .sar g d a b => execSar g d a b s
  | .ror g d a b => execRor g d a b s
  | .min g d a b => execMin g d a b s
  | .minN g d a b => execMinN g d a b s
  | .max g d a b => execMax g d a b s
  | .maxN g d a b => execMaxN g d a b s
  | .mul g d a b => execMul g d a b s
  | .mulh g d a b => execMulh g d a b s
  | .mulhN g d a b => execMulhN g d a b s
  | .madd g d a b c => execMadd g d a b c s
  | .div g d a b => execDiv g d a b s
  | .divN g d a b => execDivN g d a b s
  | .rem g d a b => execRem g d a b s
  | .remN g d a b => execRemN g d a b s
  | .sextB g d a => execSextB g d a s
  | .sextH g d a => execSextH g d a s
  | .sextW g d a => execSextW g d a s
  | .zextB g d a => execZextB g d a s
  | .zextH g d a => execZextH g d a s
  | .zextW g d a => execZextW g d a s
  | .popc g d a => execPopc g d a s
  | .clz g d a => execClz g d a s
  | .ctz g d a => execCtz g d a s
  | .addi g d a imm => execAddi g d a imm s
  | .andi g d a imm => execAndi g d a imm s
  | .ori g d a imm => execOri g d a imm s
  | .xori g d a imm => execXori g d a imm s
  | .shli g d a imm => execShli g d a imm s
  | .shri g d a imm => execShri g d a imm s
  | .sari g d a imm => execSari g d a imm s
  | .shori g d a imm => execShori g d a imm s
  | .adda g d a b m => execAdda g d a b m s
  | .movAS g d a => execMovAS g d a s
  | .movSA g d a => execMovSA g d a s
  | .movNS g d a => execMovNS g d a s
  | .movSN g d a => execMovSN g d a s
  | .movES g d a => execMovES g d a s
  | .movSE g d a => execMovSE g d a s
  | .movToControl g x a y => execMovToControl g x a y s
  | .movFromControl g d x y => execMovFromControl g d x y s
  | .movGS g d a => execMovGS g d a s
  | .movSG g d a => execMovSG g d a s
  | .gget g d => execGget g d s
  | .gset g a => execGset g a s
  | .cmpEq g h a b => execCmpEq g h a b s
  | .cmpEqImm g h a imm => execCmpEqImm g h a imm s
  | .cmpLt g h a b => execCmpLt g h a b s
  | .cmpLtImm g h a imm => execCmpLtImm g h a imm s
  | .cmpLe g h a b => execCmpLe g h a b s
  | .cmpLeImm g h a imm => execCmpLeImm g h a imm s
  | .cmpLtn g h a b => execCmpLtn g h a b s
  | .cmpLtnImm g h a imm => execCmpLtnImm g h a imm s
  | .cmpLen g h a b => execCmpLen g h a b s
  | .cmpLenImm g h a imm => execCmpLenImm g h a imm s
  | .cmpTst g h a b => execCmpTst g h a b s
  | .cmpTstImm g h a imm => execCmpTstImm g h a imm s
  | .brT g o => execBrT g o s
  | .brNt g o => execBrNt g o s
  | .call g o => execCall g o s
  | .bri g a => execBri g a s
  | .ret g a => execRet g a s
  | .loop g l e a => execLoop g l e a s
  | .wait g l r c t => execWait g l r c t s
  | .waitt g c a => execWaitt g c a s
  | .fence g => execFence g s
  | .lpoff g l => execLpoff g l s
  | .ldB g d a u off => execLdB g d a u off s
  | .ldH g d a u off => execLdH g d a u off s
  | .ldW g d a u off => execLdW g d a u off s
  | .ldD g d a u off => execLdD g d a u off s
  | .stB g d a u off => execStB g d a u off s
  | .stH g d a u off => execStH g d a u off s
  | .stW g d a u off => execStW g d a u off s
  | .stD g d a u off => execStD g d a u off s
  | .atmW g d a u p o => execAtmW g d a u p o s
  | .atmD g d a u p o => execAtmD g d a u p o s
  | .vand g d a b k => execVand g d a b k s
  | .vor g d a b k => execVor g d a b k s
  | .vxor g d a b k => execVxor g d a b k s
  | .vandn g d a b k => execVandn g d a b k s
  | .vaddI32 g d a b k => execVaddI32 g d a b k s
  | .vsubI32 g d a b k => execVsubI32 g d a b k s
  | .vmulI32 g d a b k => execVmulI32 g d a b k s
  | .vaddI16 g d a b k => execVaddI16 g d a b k s
  | .vsubI16 g d a b k => execVsubI16 g d a b k s
  | .vaddsI16 g d a b k => execVaddsI16 g d a b k s
  | .vsubsI16 g d a b k => execVsubsI16 g d a b k s
  | .vaddI8 g d a b k => execVaddI8 g d a b k s
  | .vsubI8 g d a b k => execVsubI8 g d a b k s
  | .vaddsI8 g d a b k => execVaddsI8 g d a b k s
  | .vsubsI8 g d a b k => execVsubsI8 g d a b k s
  | .vminI32 g d a b k => execVminI32 g d a b k s
  | .vmaxI32 g d a b k => execVmaxI32 g d a b k s
  | .vminN32 g d a b k => execVminN32 g d a b k s
  | .vmaxN32 g d a b k => execVmaxN32 g d a b k s
  | .vshlI32 g d a b k => execVshlI32 g d a b k s
  | .vshrN32 g d a b k => execVshrN32 g d a b k s
  | .vsarI32 g d a b k => execVsarI32 g d a b k s
  | .vdot4I8 g d a b k c => execVdot4I8 g d a b k c s
  | .vdot4N8 g d a b k c => execVdot4N8 g d a b k c s
  | .vdot2I16 g d a b k c => execVdot2I16 g d a b k c s
  | .vdot2N16 g d a b k c => execVdot2N16 g d a b k c s
  | .vaddF32 g d a b k => execVaddF32 g d a b k s
  | .vsubF32 g d a b k => execVsubF32 g d a b k s
  | .vmulF32 g d a b k => execVmulF32 g d a b k s
  | .vfmaF32 g d a b k c => execVfmaF32 g d a b k c s
  | .vfmsF32 g d a b k c => execVfmsF32 g d a b k c s
  | .vminF32 g d a b k => execVminF32 g d a b k s
  | .vmaxF32 g d a b k => execVmaxF32 g d a b k s
  | .vsubBf16 g d a b k => execVsubBf16 g d a b k s
  | .vaddBf16 g d a b k => execVaddBf16 g d a b k s
  | .vmulBf16 g d a b k => execVmulBf16 g d a b k s
  | .vfmaBf16 g d a b k c => execVfmaBf16 g d a b k c s
  | .vaddF16 g d a b k => execVaddF16 g d a b k s
  | .vmulF16 g d a b k => execVmulF16 g d a b k s
  | .vfmaF16 g d a b k c => execVfmaF16 g d a b k c s
  | .vrcpaF32 g d a k => execVrcpaF32 g d a k s
  | .vrsqaF32 g d a k => execVrsqaF32 g d a k s
  | .vcvtF32I32 g d a m k => execVcvtF32I32 g d a m k s
  | .vcvtF32N32 g d a m k => execVcvtF32N32 g d a m k s
  | .vcvtI32F32 g d a m k => execVcvtI32F32 g d a m k s
  | .vcvtN32F32 g d a m k => execVcvtN32F32 g d a m k s
  | .vcvtBf16F32 g d a m k => execVcvtBf16F32 g d a m k s
  | .vcvtF16F32 g d a m k => execVcvtF16F32 g d a m k s
  | .vcvtE4m3F32 g d a m n k => execVcvtE4m3F32 g d a m n k s
  | .vcvtE5m2F32 g d a m n k => execVcvtE5m2F32 g d a m n k s
  | .vcvtF32Widen g d a f k => execVcvtF32Widen g d a f k s
  | .vcvtQ4F32 g d a m t => execVcvtQ4F32 g d a m t s
  | .vcvtF32Q4 g d a k => execVcvtF32Q4 g d a k s
  | .vcmpF32 g c h a b k => execVcmpF32 g c h a b k s
  | .vcmpI32 g c h a b k => execVcmpI32 g c h a b k s
  | .vcmpN32 g c h a b k => execVcmpN32 g c h a b k s
  | .klogic g l h a b => execKlogic g l h a b s
  | .vbcast g d a k => execVbcast g d a k s
  | .viota g d a k => execViota g d a k s
  | .vperm g d a b k => execVperm g d a b k s
  | .vred g d a r n k => execVred g d a r n k s
  | .vld g d a u off => execVld g d a u off s
  | .vst g d a u off => execVst g d a u off s
  | .vldW g d a u off => execVldW g d a u off s
  | .vstW g d a u off => execVstW g d a u off s
  | .vldK g d a u off => execVldK g d a u off s
  | .vstK g d a u off => execVstK g d a u off s
  | .trdr g x y v k m => execTrdr g x y v k m s
  | .trdc g x y v k m => execTrdc g x y v k m s
  | .twrr32 g x y v k => execTwrr32 g x y v k s
  | .twrc32 g x y v k => execTwrc32 g x y v k s
  | .twrr16 g x y v k m => execTwrr16 g x y v k m s
  | .twrc16 g x y v k m => execTwrc16 g x y v k m s
  | .twrr8 g x y v k m => execTwrr8 g x y v k m s
  | .twrc8 g x y v k m => execTwrc8 g x y v k m s
  | .twrr8Nan g x y v k m => execTwrr8Nan g x y v k m s
  | .twrc8Nan g x y v k m => execTwrc8Nan g x y v k m s
  | .tld g x v => execTld g x v s
  | .tst g x v => execTst g x v s
  | .mwl g x y f => execMwl g x y f s
  | .mwlm g x y v f => execMwlm g x y v f s
  | .mwlp g x y f => execMwlp g x y f s
  | .mwlpm g x y v f => execMwlpm g x y v f s
  | .mwa g y => execMwa g y s
  | .mwap g y => execMwap g y s
  | .mms g x y f z => execMms g x y f z s
  | .mmsm g x y v f z => execMmsm g x y v f z s
  | .mmsp g x y f z => execMmsp g x y f z s
  | .mmspm g x y v f z => execMmspm g x y v f z s
  | .mdr g x y v => execMdr g x y v s
  | .mdrm g x y v => execMdrm g x y v s
  | .mdrp g x y v => execMdrp g x y v s
  | .mdrpm g x y v => execMdrpm g x y v s
  | .mpost g v => execMpost g v s
  | .mzero g y => execMzero g y s
  | .mzerop g y => execMzerop g y s
  | .tcpy g x y => execTcpy g x y s
  | .tzero g x => execTzero g x s
  | .mdrt g x y v => execMdrt g x y v s
  | .tldt g x v => execTldt g x v s
  | .tstt g x v => execTstt g x v s
  | .tshape g x v => execTshape g x v s
  | .cpy g u e f => execCpy g u e f s
  | .cpy2 g u e f => execCpy2 g u e f s
  | .cpyz g u e p => execCpyz g u e p s
  | .cpyx g u e p => execCpyx g u e p s
  | .cfill g u e f => execCfill g u e f s
  | .rld g u e => execRld g u e s
  | .rst g u e f => execRst g u e f s
  | .ratmW g u e p => execRatmW g u e p s
  | .ratmD g u e p => execRatmD g u e p s
  | .rred g u e f p => execRred g u e f p s
  | .fput g u e => execFput g u e s
  | .cfence g u => execCfence g u s
  | .xchg g u e q => execXchg g u e q s
  | .xcmb g u e q f o n => execXcmb g u e q f o n s
  | .sendif g u e q r n => execSendif g u e q r n s
  | .shiftg g e q d => execShiftg g e q d s
  | .xchgm g e => execXchgm g e s
  | .xcmbm g e f o => execXcmbm g e f o s
  | .xarm g u e q c => execXarm g u e q c s
  | .xdisarm g q => execXdisarm g q s
  | .xbar g e q => execXbar g e q s
  | .coll g e => execColl g e s
  | .route g u e => execRoute g u e s
  | .rqcfg g e => execRqcfg g e s
  | .rqreset g e => execRqreset g e s
  | .rcsnap g e => execRcsnap g e s
  | .chain g e => execChain g e s
  | .chstep g e => execChstep g e s
  | .chsize g e => execChsize g e s
  | .chabort g => execChabort g s
  | .trap g n => execTrap g n s
  | .rte g => execRte g s
  | .rteSw g => execRteSw g s
  | .endProg g => execEndProg g s
  | .reraise g => execReraise g s
  | .lmark g d a => execLmark g d a s
  | .bpoint g => execBpoint g s
  | .dpoint g => execDpoint g s
  | .rdcyc g d => execRdcyc g d s
  | .sdump g => execSdump g s
  | .enrd g d => execEnrd g d s
  | .enrdRsv g d => execEnrdRsv g d s
  | .enres g d a => execEnres g d a s
  | .enresRel g d a => execEnresRel g d a s
  | .issueBundle | .stallEnd | .longWait | .resultLands | .sramAccessPerformed | .sramLoadLands | .tileOpComplete
  | .correctableError | .freezeEnd | .patrolScrub | .uncorrectableError | .windowTableWrite | .wtlockSet
  | .codeStoreLoad | .controlPathRegisterWrite | .commandStart | .issueBufferEnter | .blockTransfer | .commandComplete
  | .supply | .refuse | .discard | .reclaim | .pgresRead | .writePacket | .readRequest | .readResponse | .atomicPacket
  | .atomicResponse | .reduceStore | .flagPacket | .transferAcknowledgement | .exchangeData | .unreachableNotice
  | .linkAcknowledgement | .negativeAcknowledgement | .replayTimeout | .detourForward | .lossOfSignal
  | .guylineSwitchBack | .managementEnable | .managementDisable | .failedRetrain | .trainingComplete | .trainTimeout
  | .rekeyStart | .rekeyComplete | .nonceLimit | .park | .parkack | .ready | .abort | .exchangeTimeout | .xarmFire
  | .walkerRound | .routeRowReceive | .taskDispatch | .chainStepStart | .chainTaskPost | .energyRefill | .thermalLimit
  | .qtailWrite | .submitJob | .submitChain | .cancel | .registerPager | .withdrawPager | .readDump | .resetTenant
  | .placementPass | .aging | .quantumExpiry | .jobEnd | .drainRequest | .imageCapture | .drainEscalation | .scanStop
  | .resume | .budtgtSet | .buddyPointAbandon | .fatalTrap | .dieReset | .trapDelivery | .trapCyclesEnd
  | .returnCyclesEnd | .evrdWrite | .evovfClear | .tenantConfigWrite | .readyBitSet | .packageReset
  | .firmwareImageWrite | .spdmMeasurement | .imageSecretInstall | .cxlMemAccess | .routerForward | .captureComplete
  | .dumpComplete | .dieReturnTimeout => .next s

end Sys2Proof.Machine
end

