-- ==== Sys2Proof/Machine/Bundle.lean ====
section
/-! DEFINITION. A bundle: its words and slots, the ports and registers of its slots, and the checks made before it issues
(R174 to R187). -/

namespace Sys2Proof.Machine

/-- A register that a slot writes, for the check of cause 0x4 (R185). A control register stands by its number. -/
inductive RegName where
  | s (i : BitVec 5) | a (i : BitVec 4) | n (i : BitVec 4) | e (i : BitVec 4) | g (i : BitVec 4) | k (i : BitVec 3)
  | v (i : BitVec 5) | ctl (n : Nat)
deriving DecidableEq, Repr

/-- Writes to s0, g0 and g1 are discarded and are not counted (R185). -/
def RegName.counts : RegName → Bool
  | .s i => i != 0
  | .g i => decide (2 ≤ i.toNat)
  | _ => true

/-- The address register of a post-increment (R220). -/
def incName (a : BitVec 4) (u : BitVec 1) : List RegName := if u = 1 then [.a a] else []

/-- The control registers that LOOP writes: lc, LSTART and LEND of its loop (R211). -/
def loopNames (l : Nat) : List RegName := [.ctl (0x060 + l), .ctl (0x064 + l), .ctl (0x068 + l)]

/-- Registers that a slot names as destinations. Lane predicates and vector groups of a widening conversion are whole
registers; the matrix and engine classes write none at issue. -/
def slotDests : Instr → List RegName
  | .add _ d _ _ | .sub _ d _ _ | .and _ d _ _ | .or _ d _ _ | .xor _ d _ _ | .andn _ d _ _ | .shl _ d _ _
  | .shr _ d _ _ | .sar _ d _ _ | .ror _ d _ _ | .min _ d _ _ | .minN _ d _ _ | .max _ d _ _ | .maxN _ d _ _
  | .mul _ d _ _ | .mulh _ d _ _ | .mulhN _ d _ _ | .madd _ d _ _ _ | .div _ d _ _ | .divN _ d _ _ | .rem _ d _ _
  | .remN _ d _ _ => [.s d]
  | .sextB _ d _ | .sextH _ d _ | .sextW _ d _ | .zextB _ d _ | .zextH _ d _ | .zextW _ d _ | .popc _ d _ | .clz _ d _
  | .ctz _ d _ => [.s d]
  | .addi _ d _ _ | .andi _ d _ _ | .ori _ d _ _ | .xori _ d _ _ | .shli _ d _ _ | .shri _ d _ _ | .sari _ d _ _
  | .shori _ d _ _ => [.s d]
  | .adda _ d _ _ _ => [.a (d.truncate 4)]
  | .movAS _ d _ => [.a (d.truncate 4)]
  | .movSA _ d _ => [.s d]
  | .movNS _ d _ => [.n (d.truncate 4)]
  | .movSN _ d _ => [.s d]
  | .movES _ d _ => [.e (d.truncate 4)]
  | .movSE _ d _ => [.s d]
  | .movToControl _ x _ y => [.ctl (ctlNumber y x)]
  | .movFromControl _ d _ _ => [.s d]
  | .movGS _ d _ => [.g (d.truncate 4)]
  | .movSG _ d _ => [.s d]
  | .gget _ d => [.s d]
  | .gset _ _ => (List.range 16).map fun i => .g (BitVec.ofNat 4 i)
  | .cmpEq _ h _ _ | .cmpLt _ h _ _ | .cmpLe _ h _ _ | .cmpLtn _ h _ _ | .cmpLen _ h _ _ | .cmpTst _ h _ _
  | .cmpEqImm _ h _ _ | .cmpLtImm _ h _ _ | .cmpLeImm _ h _ _ | .cmpLtnImm _ h _ _ | .cmpLenImm _ h _ _
  | .cmpTstImm _ h _ _ => [.g h, .g (h + 1)]
  | .call _ _ => [.s 31]
  | .loop _ l _ _ => loopNames l.toNat
  | .ldB _ d a u _ | .ldH _ d a u _ | .ldW _ d a u _ | .ldD _ d a u _ => .s d :: incName a u
  | .stB _ _ a u _ | .stH _ _ a u _ | .stW _ _ a u _ | .stD _ _ a u _ => incName a u
  | .atmW _ d a u _ _ | .atmD _ d a u _ _ => .s d :: incName a u
  | .vand _ d _ _ _ | .vor _ d _ _ _ | .vxor _ d _ _ _ | .vandn _ d _ _ _ | .vaddI32 _ d _ _ _ | .vsubI32 _ d _ _ _
  | .vmulI32 _ d _ _ _ | .vaddI16 _ d _ _ _ | .vsubI16 _ d _ _ _ | .vaddsI16 _ d _ _ _ | .vsubsI16 _ d _ _ _
  | .vaddI8 _ d _ _ _ | .vsubI8 _ d _ _ _ | .vaddsI8 _ d _ _ _ | .vsubsI8 _ d _ _ _ | .vminI32 _ d _ _ _
  | .vmaxI32 _ d _ _ _ | .vminN32 _ d _ _ _ | .vmaxN32 _ d _ _ _ | .vshlI32 _ d _ _ _ | .vshrN32 _ d _ _ _
  | .vsarI32 _ d _ _ _ | .vaddF32 _ d _ _ _ | .vsubF32 _ d _ _ _ | .vmulF32 _ d _ _ _ | .vminF32 _ d _ _ _
  | .vmaxF32 _ d _ _ _ | .vsubBf16 _ d _ _ _ | .vaddBf16 _ d _ _ _ | .vmulBf16 _ d _ _ _ | .vaddF16 _ d _ _ _
  | .vmulF16 _ d _ _ _ | .vperm _ d _ _ _ => [.v d]
  | .vdot4I8 _ d _ _ _ _ | .vdot4N8 _ d _ _ _ _ | .vdot2I16 _ d _ _ _ _ | .vdot2N16 _ d _ _ _ _
  | .vfmaF32 _ d _ _ _ _ | .vfmsF32 _ d _ _ _ _ | .vfmaBf16 _ d _ _ _ _ | .vfmaF16 _ d _ _ _ _ => [.v d]
  | .vrcpaF32 _ d _ _ | .vrsqaF32 _ d _ _ | .vcvtF32Q4 _ d _ _ | .vbcast _ d _ _ | .viota _ d _ _ => [.v d]
  | .vcvtF32I32 _ d _ _ _ | .vcvtF32N32 _ d _ _ _ | .vcvtI32F32 _ d _ _ _ | .vcvtN32F32 _ d _ _ _
  | .vcvtBf16F32 _ d _ _ _ | .vcvtF16F32 _ d _ _ _ | .vcvtQ4F32 _ d _ _ _ => [.v d]
  | .vcvtE4m3F32 _ d _ _ _ _ | .vcvtE5m2F32 _ d _ _ _ _ => [.v d]
  | .vcvtF32Widen _ d _ f _ => (List.range (if f.toNat < 2 then 2 else 4)).map fun j => .v (d + BitVec.ofNat 5 j)
  | .vcmpF32 _ _ h _ _ _ | .vcmpI32 _ _ h _ _ _ | .vcmpN32 _ _ h _ _ _ => [.k h]
  | .klogic _ _ h _ _ => [.k h]
  | .vred _ d _ _ _ _ => [.s d]
  | .vld _ d a u _ | .vldW _ d a u _ => .v d :: incName a u
  | .vldK _ d a u _ => .k d :: incName a u
  | .vst _ _ a u _ | .vstW _ _ a u _ => incName a u
  | .vstK _ _ a u _ => incName a u
  | .trdr _ _ _ v _ _ | .trdc _ _ _ v _ _ => [.v v]
  | .tshape _ x _ => [.ctl (0x070 + x.toNat)]
  | .rdcyc _ d | .enrd _ d | .enrdRsv _ d => [.s d]
  | .enres _ d _ | .enresRel _ d _ => [.s d]
  | _ => []

/-- Registers that a word's opcode names as destinations, read from its fields: of a slot that has an illegal-slot cause. An
unassigned opcode names none; where no form of an opcode has the sub-field value, the destination is the one that all its
forms share (DEDUCED, log 17). -/
def wordDests (w : Nat) : List RegName :=
  let inc : List RegName := incName (fld w 11 4) (fld w 10 1)
  let op6 := w / 2 ^ 18 % 64
  let op4 := w / 2 ^ 20 % 16
  match w / 2 ^ 28 % 16 with
  | 0x0 => if op6 = 0 then [] else [.s (fld w 13 5)]
  | 0x1 => [.s (fld w 15 5)]
  | 0x2 =>
    match op6 with
    | 0x0 | 0x1 => [.a (fld w 13 4)]
    | 0x3 => [.n (fld w 13 4)]
    | 0x5 => [.e (fld w 13 4)]
    | 0x7 => [.ctl (w / 2 ^ 3 % 32 * 32 + w / 2 ^ 13 % 32)]
    | 0x9 =>
      match w % 8 with
      | 0 => [.g (fld w 13 4)]
      | 1 | 2 => [.s (fld w 13 5)]
      | 3 => (List.range 16).map fun i => .g (BitVec.ofNat 4 i)
      | _ => []
    | _ => [.s (fld w 13 5)]
  | 0x3 => [.g (fld w 16 4), .g (fld w 16 4 + 1)]
  | 0x4 => if op4 = 1 then [.s 31] else if op4 = 4 then loopNames (w / 2 ^ 18 % 4) else []
  | 0x5 => if op4 < 4 ∨ 8 ≤ op4 then .s (fld w 15 5) :: inc else inc
  | 0x6 => [.v (fld w 13 5)]
  | 0x7 => [.v (fld w 13 5)]
  | 0x8 =>
    match op6 with
    | 0x6 => (List.range (if w / 2 ^ 6 % 4 < 2 then 2 else 4)).map fun j => .v (fld w 13 5 + BitVec.ofNat 5 j)
    | 0x9 | 0xA | 0xB | 0xC => [.k (fld w 13 3)]
    | 0xF => [.s (fld w 13 5)]
    | _ => [.v (fld w 13 5)]
  | 0x9 =>
    match op4 with
    | 0x0 | 0x2 => .v (fld w 15 5) :: inc
    | 0x4 => .k (fld w 15 3) :: inc
    | _ => inc
  | 0xA => if op6 < 2 then [.v (fld w 5 5)] else if op6 = 0x22 then [.ctl (0x070 + w / 2 ^ 14 % 16)] else []
  | 0xE => if op6 = 7 ∨ op6 = 0xD ∨ op6 = 0xE then [.s (fld w 13 5)] else []
  | _ => []

/-- The register writes of a slot in the sense of cause 0x4 (R185). -/
def slotWrites (i : Instr) : List RegName := (slotDests i).filter (·.counts)

/-! ## Words and slots (R174, R178, R180, R181) -/

/-- The four words of the bundle at the program counter. -/
def State.bundleWords (s : State) : List Nat :=
  let bs := s.load s.stream.pc.toNat 16
  [wordAt bs 0, wordAt bs 4, wordAt bs 8, wordAt bs 12]

/-- The extension byte of slot `k`, in a bundle whose S0 is an extension header (R180). -/
def slotExt (w0 k : Nat) : Option Nat :=
  if slotClass w0 = 15 ∧ w0 / 2 ^ 24 % 16 = 0 then some (w0 / 256 ^ (k - 1) % 256) else none

/-- A slot: position, word, and what the decoder reads from it. -/
structure Slot where
  pos : Nat
  word : Nat
  dec : Except Nat Instr

/-- The slots of a bundle; a header in S0 is none. -/
def bundleSlots (ws : List Nat) : List Slot :=
  let w0 := ws.getD 0 0
  let from_ := if slotClass w0 = 15 then 1 else 0
  ((List.range 4).drop from_).map fun k => { pos := k, word := ws.getD k 0, dec := decodeSlot (slotExt w0 k) (ws.getD k 0) }

/-- The header of a bundle, if S0 holds one. -/
def bundleHeader (ws : List Nat) : Option (Except Nat Instr) :=
  if slotClass (ws.getD 0 0) = 15 then some (decodeHeader (ws.getD 0 0)) else none

/-- Issue ports (R178). -/
inductive IPort where
  | x | v | t | l | s | e | c
deriving DecidableEq, Repr

/-- Capacity of a port in a bundle (R178). -/
def IPort.cap : IPort → Nat
  | .x => 2
  | _ => 1

/-- The ports of a slot, by its class and opcode; NOP uses none (R178). An unassigned code counts too: in class 0x5 against L and
S as the atomics do, in class 0x9 against L or S by its parity (DESIGN CHOICE, log 55). -/
def slotPorts (w : Nat) : List IPort :=
  let op := w / 2 ^ 20 % 16
  match slotClass w with
  | 0x0 => if w / 2 ^ 18 % 64 = 0 then [] else [.x]
  | 0x1 => [.x]
  | 0x2 => [.x]
  | 0x3 => [.x]
  | 0x4 => [.c]
  | 0x5 => if op < 4 then [.l] else if op < 8 then [.s] else [.l, .s]
  | 0x6 => [.v]
  | 0x7 => [.v]
  | 0x8 => [.v]
  | 0x9 => if op % 2 = 0 then [.l] else [.s]
  | 0xA => [.t]
  | 0xB => [.e]
  | 0xC => [.e]
  | 0xD => [.e]
  | 0xE => [.c]
  | _ => []

/-- A code of class 0x6 that revision 2 assigns (R179, R226). -/
def rev2Word (w : Nat) : Bool := decide (slotClass w = 6) && decide (0x3C ≤ w / 2 ^ 18 % 64)

/-- The registers that a slot writes. A code that is unassigned writes none; `two` says that those of revision 2 are
assigned. -/
def Slot.writes (two : Bool) (x : Slot) : List RegName :=
  if rev2Word x.word && !two then []
  else match x.dec with
    | .ok i => slotWrites i
    | .error c => if c = 0x8 then [] else (wordDests x.word).filter (·.counts)

/-- Two lists of registers meet. -/
def namesMeet (a b : List RegName) : Bool := a.any b.contains

/-- The address and stride registers that an active repeat advances or reads, those of an operand without its V bit not among
them (R182; DEDUCED, log 17). -/
def Repeat.names (r : Repeat) : List RegName :=
  (if r.vx then [.a r.ax, .n r.ax] else []) ++ (if r.vy then [.a r.ay, .n r.ay] else [])

/-! ## Illegal bundles (R185, R186) -/

/-- The first of two optional values. -/
def orElse {α : Type} (a b : Option α) : Option α :=
  match a with
  | some x => some x
  | none => b

/-- Cause 0x3: the lowest slot that uses a port beyond its capacity. -/
def portClash (ss : List Slot) : Option Nat :=
  (ss.find? fun x => (slotPorts x.word).any fun p =>
    decide (p.cap < (ss.filter fun y => (slotPorts y.word).contains p).length)).map (·.pos)

/-- Cause 0x4: the lowest slot that writes a register which another slot writes. -/
def writeClash (two : Bool) (ss : List Slot) : Option Nat :=
  (ss.find? fun x => ss.any fun y => decide (x.pos ≠ y.pos) && namesMeet (x.writes two) (y.writes two)).map (·.pos)

/-- Cause 0x6: the lowest slot of class 0xA, or that writes a register of the active repeat. -/
def repeatClash (two : Bool) (ss : List Slot) (r : Option Repeat) : Option Nat :=
  match r with
  | none => none
  | some r => (ss.find? fun x => decide (slotClass x.word = 0xA) || namesMeet (x.writes two) r.names).map (·.pos)

/-- Cause 0x5: a repeat prefix without exactly one class 0xA slot, reported for S0. -/
def repeatShape (ws : List Nat) (ss : List Slot) : Option Nat :=
  let w := ws.getD 0 0
  if slotClass w = 15 ∧ w / 2 ^ 24 % 16 = 1 ∧ (ss.filter fun x => decide (slotClass x.word = 0xA)).length ≠ 1 then some 0
  else none

/-- Causes 0x2 and 0x7, reported for S0. -/
def headerFault (ws : List Nat) (cause : Nat) : Option Nat :=
  match bundleHeader ws with
  | some (.error c) => if c = cause then some 0 else none
  | _ => none

/-- The illegal-bundle cause of a bundle and the slot it names: lowest code first (R185, R186). A reissue that the bundle
carries is no slot of it for these causes (R183; DEDUCED, log 17). -/
def bundleFault (two : Bool) (ws : List Nat) (r : Option Repeat) : Option (Nat × Nat) :=
  let ss := bundleSlots ws
  let tag (c : Nat) (x : Option Nat) : Option (Nat × Nat) := x.map fun k => (c, k)
  orElse (tag 1 ((ss.find? fun x => decide (slotClass x.word = 15)).map (·.pos)))
    (orElse (tag 2 (headerFault ws 2)) (orElse (tag 3 (portClash ss)) (orElse (tag 4 (writeClash two ss))
      (orElse (tag 5 (repeatShape ws ss)) (orElse (tag 6 (repeatClash two ss r)) (tag 7 (headerFault ws 7)))))))

/-! ## Illegal slots (R179, R185) -/

/-- The causes that a decoded slot raises whatever its guard, by the state of the die: an opcode of revision 2, a dimension
at or above k, a register that may not be written, RTE or RERAISE outside the handler, also where it is guarded off (R175,
R185, R324; DEDUCED, log 17). -/
def State.encCause (s : State) (i : Instr) : Option Nat :=
  match i with
  | .vdot4I8 _ _ _ _ _ _ | .vdot4N8 _ _ _ _ _ _ | .vdot2I16 _ _ _ _ _ _ | .vdot2N16 _ _ _ _ _ _ => s.rev2
  | .xchg _ u _ _ => s.dimCause u.toNat
  | .xcmb _ u _ _ _ _ _ => s.dimCause u.toNat
  | .xarm _ u _ _ _ => s.dimCause u.toNat
  | .sendif _ u _ _ sel n => orElse (s.dimCause u.toNat) (if sel = 0 then s.dimCause n.toNat else none)
  | .movToControl _ x _ y => s.moveEnc (ctlNumber y x)
  | .rte _ | .rteSw _ | .reraise _ => s.handlerOnly
  | _ => none

/-- The illegal-slot cause of a slot: the decoder's, 0x8 for a revision 2 opcode in revision 1 before any other, or the
die's. -/
def State.slotCause (s : State) (x : Slot) : Option Nat :=
  match x.dec with
  | .error c =>
    if rev2Word x.word then orElse s.rev2 (some c) else some c
  | .ok i => s.encCause i

/-- The lowest slot with an illegal-slot cause (R186). -/
def State.slotFault (s : State) (ss : List Slot) : Option (Nat × Nat) :=
  ss.findSome? fun x => (s.slotCause x).map fun c => (c, x.pos)

/-! ## Accesses that watchpoints see (R327) -/

/-- Guard of the slots that access die-local memory. -/
def accessGuard : Instr → BitVec 4
  | .ldB g _ _ _ _ | .ldH g _ _ _ _ | .ldW g _ _ _ _ | .ldD g _ _ _ _ | .stB g _ _ _ _ | .stH g _ _ _ _
  | .stW g _ _ _ _ | .stD g _ _ _ _ => g
  | .atmW g _ _ _ _ _ | .atmD g _ _ _ _ _ => g
  | .vld g _ _ _ _ | .vst g _ _ _ _ | .vldW g _ _ _ _ | .vstW g _ _ _ _ => g
  | .vldK g _ _ _ _ | .vstK g _ _ _ _ => g
  | .tld g _ _ | .tst g _ _ | .tldt g _ _ | .tstt g _ _ => g
  | _ => 0

/-- The bytes that a slot accesses: address, length, read, write. -/
def State.access (s : State) (i : Instr) : Option (Nat × Nat × Bool × Bool) :=
  let at_ (a : BitVec 4) (off : BitVec 18) (n : Nat) (rd wr : Bool) := some (s.ea a (immS off) n, n, rd, wr)
  let tile (x : BitVec 4) (v : BitVec 5) (tr rd wr : Bool) := some (s.areg v / 32 * 32, imageBytes (s.tshapeOf x) tr, rd, wr)
  match i with
  | .ldB _ _ a _ o => at_ a o 1 true false
  | .ldH _ _ a _ o => at_ a o 2 true false
  | .ldW _ _ a _ o => at_ a o 4 true false
  | .ldD _ _ a _ o => at_ a o 8 true false
  | .stB _ _ a _ o => at_ a o 1 false true
  | .stH _ _ a _ o => at_ a o 2 false true
  | .stW _ _ a _ o => at_ a o 4 false true
  | .stD _ _ a _ o => at_ a o 8 false true
  | .atmW _ _ a _ _ o => some (s.ea a (o.signExtend 64) 4, 4, true, true)
  | .atmD _ _ a _ _ o => some (s.ea a (o.signExtend 64) 8, 8, true, true)
  | .vld _ _ a _ o => at_ a o 4096 true false
  | .vst _ _ a _ o => at_ a o 4096 false true
  | .vldW _ _ a _ o => at_ a o 4 true false
  | .vstW _ _ a _ o => at_ a o 4 false true
  | .vldK _ _ a _ o => at_ a o 128 true false
  | .vstK _ _ a _ o => at_ a o 128 false true
  | .tld _ x v => tile x v false true false
  | .tst _ x v => tile x v false false true
  | .tldt _ x v => tile x v true true false
  | .tstt _ x v => tile x v true false true
  | _ => none

/-- Watchpoint `i` covers a byte of an access of an enabled kind: the first such byte (R326, R327). -/
def State.watched (s : State) (i : Nat) (x : Nat × Nat × Bool × Bool) : Option Nat :=
  let w := vget s.ctl.wctl i 0
  let base := (vget s.ctl.watch i 0).toNat
  if ((w.getLsbD 0 && x.2.2.1) || (w.getLsbD 1 && x.2.2.2)) && meets x.1 x.2.1 base (s.ctl.watchSize i)
  then some (max x.1 base) else none

/-- The watchpoint that a bundle's slots match: lowest watchpoint, then lowest slot; watchpoint, slot, first byte (R327).
None matches in the handler, nor in the bundle resumed by RTE.SW (R322, R324). -/
def State.watchMatch (s : State) (work : List (Nat × Instr)) : Option (Nat × Nat × Nat) :=
  if s.ctl.inHandler || s.stream.noWatch then none
  else (List.range 4).findSome? fun i => work.findSome? fun (pos, x) =>
    if s.regs.rg (accessGuard x) then ((s.access x).bind (s.watched i)).map fun a => (i, pos, a) else none

end Sys2Proof.Machine
end

