-- ==== Sys2Proof/Machine/Issue.lean ====
section
/-! DEFINITION. The die clock cycle: issuing a bundle, landing results, performing shared-SRAM accesses, the engines'
starts, and the ways a control stream stops and goes on (R35 to R44, R138, R159, R160, R168, R182 to R189, R209 to R214,
R315, R318 to R325, R330, R345, R352). -/

namespace Sys2Proof.Machine

/-! ## Long waits (R168) -/

/-- A stall of kind WAIT, WAITT or FENCE ends: LWSTAT clears, and its end is reported. -/
def State.endWait (s : State) : State :=
  let s := { s with stream := { s.stream with held := false, waited := 0 } }
  if s.ctl.lwstat then
    ({ s with ctl.lwstat := false } : State).emit s.pkg.residentTenant (s.dieEvent 0x0003 0 0 0 0 0 0)
  else s

/-- A further cycle of such a stall: at LWTHR cycles LWSTAT is set and long-wait reported. -/
def State.moreWait (s : State) : State :=
  let n := s.stream.waited + 1
  let s := { s with stream.waited := n }
  if s.ctl.lwthr.toNat ≤ n ∧ s.ctl.lwstat = false then
    ({ s with ctl.lwstat := true } : State).emit s.pkg.residentTenant (s.dieEvent 0x0003 1 0 0 0 0 0)
  else s

/-! ## Landing (R36, R42, R44, R73) -/

/-- What a result writes. An atomic on the working store is performed at the end of its issue cycle, and its old value
lands five counted cycles later (R42, R222). -/
def State.land (s : State) (seq : Nat) (l : Landing) : State :=
  match l with
  | .s i x => { s with regs := s.regs.ws i x }
  | .a i x => { s with regs := s.regs.wa i x }
  | .n i x => { s with regs := s.regs.wn i x }
  | .e i x => { s with regs := s.regs.we i x }
  | .g i x => { s with regs := s.regs.wg i x }
  | .gset x => { s with regs := s.regs.wgset x }
  | .k i m x => { s with regs := s.regs.wk i m x }
  | .v i m x => { s with regs := s.regs.wv i m x }
  | .tile cs => { s with tiles.bytes := putCells s.tiles.bytes (cs.filter fun c => !s.tileOver seq c.1) }
  | .ctl n x => s.ctlWrite n x
  | .tshape i x => { s with ctl.tshape := vset s.ctl.tshape i.toNat x }
  | .lpoff l => { s with ctl.loops := s.ctl.loops.filter fun m => decide (m ≠ l) }
  | .loop l n first last =>
    { s with ctl := { s.ctl with
        lc := vset s.ctl.lc l.toNat n, lstart := vset s.ctl.lstart l.toNat first, lend := vset s.ctl.lend l.toNat last,
        loops := l :: s.ctl.loops.filter fun m => decide (m ≠ l) } }
  | .wstore a bs => s.store a bs
  | .watomic op d a size x cmp =>
    let r := s.atomic op a size x.toNat cmp.toNat
    let back : Result := { seq := seq, rem := 5, land := .s d (BitVec.ofNat 64 r.2), flags := 0, sat := 0 }
    { r.1 with stream.results := r.1.stream.results ++ [back] }
  | .flagsOnly => s

/-- Insert a result by its number in issue order. -/
def insertResult (r : Result) : List Result → List Result
  | [] => [r]
  | x :: l => if r.seq < x.seq then r :: x :: l else x :: insertResult r l

/-- Results that land in one cycle: in issue order, so that the later bundle's value stands (R36); then their flags. -/
def State.landAll (s : State) (rs : List Result) : State :=
  let rs := rs.foldl (fun l r => insertResult r l) []
  let s := rs.foldl (fun s r => s.land r.seq r.land) s
  rs.foldl (fun s r => s.orFlags r.flags r.sat) s

/-- A counted cycle passes for the results in flight: those that land now, and the others. -/
def tickResults (rs : List Result) : List Result × List Result :=
  (rs.filter fun r => decide (r.rem ≤ 1), (rs.filter fun r => decide (1 < r.rem)).map fun r => { r with rem := r.rem - 1 })

/-- The fixed results land that are due at the end of this counted cycle, with the shared-SRAM values given. -/
def State.landDue (s : State) (counted : Bool) (loaded : List Result) : State :=
  if counted then
    let r := tickResults s.stream.results
    ({ s with stream.results := r.2 } : State).landAll (r.1 ++ loaded)
  else s.landAll loaded

/-! ## Shared-SRAM accesses of the control stream (R34 to R39) -/

/-- An access whose turn has come is performed at its slice; a store is then gone. -/
def State.performSram (s : State) (o : SramOp) : State × Option SramOp :=
  if o.performed ∨ 0 < o.performIn then (s, some o)
  else match o.kind with
    | .load => (s, some { o with performed := true, bytes := s.load o.addr o.size })
    | .store => (s.store o.addr o.bytes, none)
    | .atomic op cmp =>
      let r := s.atomic op o.addr o.size (leNat o.bytes) cmp.toNat
      (r.1, some { o with performed := true, bytes := leBytes o.size r.2 })

/-- All accesses that are due are performed, in issue order (R37). -/
def State.performAll : State → List SramOp → State × List SramOp
  | s, [] => (s, [])
  | s, o :: r =>
    let x := s.performSram o
    let y := x.1.performAll r
    (y.1, match x.2 with
      | some o => o :: y.2
      | none => y.2)

/-- A loaded value as a result that lands now. -/
def SramOp.result (o : SramOp) : Result := { seq := o.seq, rem := 0, land := o.dest.landing o.bytes, flags := 0, sat := 0 }

/-- The value of an access lands now. -/
def SramOp.landsNow (o : SramOp) : Bool := o.performed && decide (o.landIn = 0) && decide (o.kind ≠ .store)

/-- One cycle of the shared-SRAM accesses: what is due is performed, values that land come back as results. -/
def State.sramCycle (s : State) : State × List Result :=
  let r := s.performAll s.stream.sram
  let rest := (r.2.filter fun o => !o.landsNow).map fun o =>
    { o with performIn := o.performIn - 1, landIn := o.landIn - 1 }
  ({ r.1 with stream.sram := rest }, (r.2.filter SramOp.landsNow).map SramOp.result)

/-! ## The engines' cycle (R138, R269, R275, R312, R315) -/

/-- Issue counts of the contexts at the start of the cycle: a command is begun from the cycle after its issue on (R138). -/
def State.issueLimits (s : State) : List Nat := (List.range 11).map fun i => (s.line i).issued.toNat

/-- The context of a unit's commands (R161, R164). -/
def EngUnit.ctx : EngUnit → Nat
  | .ce i => i
  | .xe q => q + 4
  | .walker => 10
  | .chain => 9
  | .me _ => 8

/-- A unit begins what it may; the second component says that a start was deferred by the energy account. -/
def State.startUnit (lim : List Nat) (u : EngUnit) : Nat → State → State × Bool
  | 0, s => (s, false)
  | f + 1, s =>
    match s.pendingStart u with
    | none => (s, false)
    | some (n, q) =>
      if lim.getD u.ctx 0 < n then (s, false)
      else if s.ctl.mayCharge q then (s.begin u).startUnit lim u f
      else (s, true)

/-- The armed sends of a queue that are due fire, in issue order (R275). -/
def State.fireArms (lim : List Nat) (q : Nat) : Nat → State → State × Bool
  | 0, s => (s, false)
  | f + 1, s =>
    match (s.xqueue q).arms.find? fun c => s.armDue q c && decide (c.num ≤ lim.getD (q + 4) 0) with
    | none => (s, false)
    | some c =>
      if s.cancels (q + 4) c.num || s.ctl.mayCharge c.cost then (s.beginX q c).fireArms lim q f else (s, true)

/-- One deferring cycle of an agent (R315). -/
def State.deferred (s : State) (d : Bool) : State := if d then { s with ctl.endefer := satAdd32 s.ctl.endefer 1 } else s

/-- The starts of one cycle, in the order in which the die charges its agents (R315), and the dispatch round (R167). Of one
exchange queue the due armed sends come before its next command, and do not hold it (DESIGN CHOICE, log 57). -/
def State.engineStarts (s : State) (lim : List Nat) : State :=
  let run (u : EngUnit) (s : State) : State := let r := s.startUnit lim u 32; r.1.deferred r.2
  let s := (List.range 4).foldl (fun s i => run (.ce i) s) s
  let s := (List.range 4).foldl (fun s q =>
    let a := s.fireArms lim q 16
    let b := a.1.startUnit lim (.xe q) 32
    b.1.deferred (a.2 || b.2)) s
  let s := run .chain (run .walker s)
  let s := (List.range 16).foldl (fun s e => run (.me e) s) s
  let r := s.dispatchRound
  r.1.deferred r.2

/-- What commands of the bundle do at the end of their issue cycle (R138, R254, R275, R278, R281, R297). -/
def State.lateAct (s : State) (x : Instr × Nat × List W64) : State :=
  match x.1 with
  | .mpost _ _ => s.readTask x.2.1 x.2.2
  | .rqcfg _ _ => s.rqConfigure x.2.1 x.2.2
  | .rqreset _ _ => s.rqReset x.2.1 x.2.2
  | .rcsnap _ _ => s.rcCapture x.2.1 x.2.2
  | .xdisarm _ q => s.disarm q.toNat x.2.1
  | .chabort _ => s.chainAbort x.2.1 x.2.2
  | _ => s

/-- Every end-of-cycle act of the bundle, and ENRES after all charges (R316). One that makes the die go on from its image is the
last (R170). -/
def State.lateActs (s : State) : State :=
  let s' := s.stream.ask.late.foldl (fun t x => if t.stream.retries = s.stream.retries then t.lateAct x else t) s
  match s'.stream.ask.enres with
  | some (d, x, rel) => s'.doEnres d x rel
  | none => s'

/-- A counted cycle of the exchange timeout passes, and commands whose time is over get their status (R270). -/
def State.tickTimeouts (s : State) : State :=
  let x := s.eng.xq.map fun q => { q with queue := q.queue.map XCmd.tick, arms := q.arms.map XCmd.tick }
  let s := { s with eng := { s.eng with xq := x, walker := s.eng.walker.map WCmd.tick, snaps := s.eng.snaps.map WCmd.tick } }
  ((List.range 4).foldl (fun s q => s.timeoutX q fun _ => true) s).timeoutW fun _ => true

/-- Everything but the control stream in one cycle that counts for engines and shared SRAM; `s.stream.ask.counted` says
whether it counts for fixed results too. A chain's task is posted after the bundle's own commands, which have the lower numbers
(R167, R298), and none after a level 2 retry of that cycle (R170). -/
def State.background (s : State) (lim : List Nat) : State :=
  let s := s.engineStarts lim
  let r := s.sramCycle
  let t := (r.1.landDue s.stream.ask.counted r.2).lateActs
  (if t.stream.retries = s.stream.retries then t.chainPost else t).tickTimeouts

/-! ## Time -/

/-- The power controller's clock (R314): a refill once in each 1,024 cycles. -/
def State.powerClock (s : State) : State :=
  if 1023 ≤ s.refillClk then ({ s with refillClk := 0 } : State).refill s.refillRate
  else { s with refillClk := s.refillClk + 1 }

/-- A cycle ends: the wall clock; the power controller's clock where it may refill; CYCNT where it counts, from the cycle on in
which the first bundle issues (R325). The next cycle sees the bytes, counters and registers that stand now (R35, R135, R206),
and nothing is asked any more. -/
def State.passTime (s : State) (power counts : Bool) : State :=
  let s := if power then s.powerClock else s
  let s := s.addLate
  { s with now := s.now + 1, arrived := [], begun := [], lines := s.lines.map fun t => { t with seen := t.count }, eng.newRows := [],
           mem := { s.mem with undo := [], undoDram := [], lanternNow := (0, 0) }, stream.ask := Ask.none,
           stream.tileNow := [],
           ctl.cyccnt := if counts && s.stream.counting then s.ctl.cyccnt + 1 else s.ctl.cyccnt }

/-! ## Issue (R159, R175, R182 to R186, R319) -/

/-- Address registers of an active repeat as the bundle reads them (R182). -/
def State.repeatRegs (s : State) : State :=
  match s.stream.rpt with
  | none => s
  | some r =>
    let step (x d : W64) : W64 := x + BitVec.ofNat 64 r.next * d
    let regs := if r.vx then s.regs.wa r.ax (step r.ax0 r.sx) else s.regs
    { s with regs := if r.vy then regs.wa r.ay (step r.ay0 r.sy) else regs }

/-- Order in which the slots of a bundle act on what they share: moves, vector work, matrix slots, loads, stores, engine
commands, control flow. Registers and memory are read as they stand at the start of the cycle in any order. -/
def actOrder (w : Nat) : Nat :=
  match slotPorts w with
  | [] => 0
  | .x :: _ => 0
  | .v :: _ => 1
  | .t :: _ => 2
  | .l :: _ => 3
  | .s :: _ => 4
  | .e :: _ => 5
  | .c :: _ => 6

/-- The decoded slots among a list, with positions. -/
def decoded (ss : List Slot) : List (Nat × Instr) :=
  ss.filterMap fun x => match x.dec with
    | .ok i => some (x.pos, i)
    | .error _ => none

/-- The slots of a range of the order. -/
def inOrder (ss : List Slot) (lo n : Nat) : List (Nat × Instr) :=
  (List.range n).flatMap fun k => decoded (ss.filter fun x => decide (actOrder x.word = lo + k))

/-- The reissue of an active repeat, in position S0 (R182, R183). -/
def State.reissue (s : State) : List (Nat × Instr) :=
  match s.stream.rpt with
  | some r => [(0, r.slot)]
  | none => []

/-- Everything that acts with a bundle, in the order in which it acts. -/
def State.actors (s : State) (ss : List Slot) : List (Nat × Instr) := inOrder ss 0 2 ++ s.reissue ++ inOrder ss 2 5

/-- What a bundle executes, with positions: the reissue of an active repeat first, then the decoded slots. -/
def State.work (s : State) (ss : List Slot) : List (Nat × Instr) := s.reissue ++ decoded ss

/-- The state as a slot in a position finds it. -/
def State.atSlot (s : State) (pos : Nat) : State := { s with stream.ask.slot := pos }

/-- A slot stalls its bundle (R159, R175). -/
def State.slotHeld (s : State) (x : Nat × Instr) : Bool :=
  match slotMeaning x.2 (s.atSlot x.1) with
  | .next t => t.stream.held
  | _ => false

/-- A slot's fault, taken (R186, item 4). -/
def State.slotTrap (s : State) (x : Nat × Instr) : Option State :=
  match slotMeaning x.2 (s.atSlot x.1) with
  | .next t => if t.stream.ask.faulted then some t else none
  | _ => none

/-- A slot whose stall is of kind WAIT, WAITT or FENCE (R168). -/
def isWait : Instr → Bool
  | .wait _ _ _ _ _ => true
  | .waitt _ _ _ => true
  | .fence _ => true
  | _ => false

/-- Slots act one after another. -/
def runSlots : List (Nat × Instr) → State → Host.Outcome State Fault Refusal
  | [], s => .next s
  | (pos, i) :: r, s =>
    match slotMeaning i (s.atSlot pos) with
    | .next t => runSlots r t
    | .fault f => .fault f
    | .refused f => .refused f

/-! ### Where the stream goes next (R184, R212, R214, R330) -/

/-- The bundle at Q lies in the body of the loop buffer and is captured (R184). -/
def State.capture1 (s : State) (q : W64) : State :=
  let fresh (a : W64) (m : Nat × Bool) : LoopBuf := { addr := a, len := m.1, pre := m.2, got := [] }
  let buf := match s.stream.ask.mark, s.stream.buf with
    | some m, some b => if b.addr = q then some b else some (fresh q m)
    | some m, none => some (fresh q m)
    | none, b => b
  let buf := buf.map fun b =>
    if (q - b.addr).toNat ≤ 16 * b.len ∧ b.got.contains q = false then { b with got := q :: b.got } else b
  { s with stream.buf := buf }

/-- The loop buffer holds the whole body of loop `l`, whose own first bundle bears the mark: a loop inside the marked body of
another is not held (R214; DEDUCED, log 56). -/
def State.bodyHeld (s : State) (l : BitVec 2) : Bool :=
  let first := vget s.ctl.lstart l.toNat 0
  let n := (vget s.ctl.lend l.toNat 0 - first).toNat / 16
  match s.stream.buf with
  | none => false
  | some b => decide (b.addr = first) && decide (n ≤ b.len) &&
      (List.range (n + 1)).all fun i => b.got.contains (first + BitVec.ofNat 64 (16 * i))

/-- Loop `l` is the outermost active loop whose captured body has PRE (R330). -/
def State.preLoop (s : State) (l : BitVec 2) : Bool :=
  let pre (m : BitVec 2) : Bool := s.bodyHeld m && s.stream.buf.any fun b => b.pre
  decide ((s.ctl.loops.filter pre).getLast? = some l)

/-- The bundle asks for an image stop (DPOINT, or the fall-through of a drained loop). -/
def State.askStop (s : State) : State := { s with stream.ask.dpoint := true }

/-- Loop `l` becomes inactive with its counter at zero (R212); a drained loop that falls through stops the die (R330). -/
def State.fallThrough (s : State) (l : BitVec 2) : State :=
  let s' := { s with ctl := { s.ctl with
    lc := vset s.ctl.lc l.toNat 0, loops := s.ctl.loops.filter fun m => decide (m ≠ l) } }
  if s.stream.draining = some l then ({ s' with stream.draining := none } : State).askStop else s'

/-- A drain at the back edge of loop `l`, whose counter after the test is `n` (R330): DRREM, the counter, and the first
stage's guard are set for the epilogue. -/
def State.drainLoop (s : State) (l : BitVec 2) (n : W64) : State :=
  let e := s.ctl.drctl.toNat / 16
  let s := s.put 1 (.g (s.ctl.drctl.extractLsb' 0 4) false)
  { s with
    ctl := { s.ctl with
      drrem := if s.ctl.drentry = 0 then 0 else BitVec.ofNat 64 (n.toNat - e),
      lc := vset s.ctl.lc l.toNat (BitVec.ofNat 64 (min n.toNat e)) },
    stream.draining := some l }

/-- The loop test of R212 after the bundle at Q: state, next address, bubble cycles (R214). -/
def State.loopTest (q : W64) : List (BitVec 2) → State → State × W64 × Nat
  | [], s => (s, q + 16, 0)
  | l :: r, s =>
    if vget s.ctl.lend l.toNat 0 ≠ q then s.loopTest q r
    else
      let n := vget s.ctl.lc l.toNat 0
      if 1 < n.toNat then
        let back := vget s.ctl.lstart l.toNat 0
        if s.ctl.drainReq && !s.ctl.inHandler && s.stream.draining.isNone && s.preLoop l then
          if s.ctl.drctl.toNat / 16 = 0 then ((s.drainLoop l (n - 1)).fallThrough l).loopTest q r
          else (s.drainLoop l (n - 1), back, 0)
        else ({ s with ctl.lc := vset s.ctl.lc l.toNat (n - 1) }, back, if s.bodyHeld l then 0 else 2)
      else (s.fallThrough l).loopTest q r

/-- The next address and the bubble cycles of the bundle at Q, put into `ask` (R189, R209, R212): those of a branch and those of
a back edge add up (R189, R214; DEDUCED, log 20). -/
def State.flow (s : State) (q : W64) : State :=
  let s := s.capture1 q
  if s.stream.ask.taken then s
  else
    let r := s.loopTest q s.ctl.loops
    { r.1 with stream.ask := { r.1.stream.ask with target := some r.2.1, bubbles := s.stream.ask.bubbles + r.2.2 } }

/-- The class 0xA slot of a bundle without its guard: what a repeat reissues (R182). -/
def reissueOf (ss : List Slot) : Option Instr :=
  (ss.find? fun x => decide (slotClass x.word = 0xA)).bind fun x =>
    (decodeSlot none (x.word - x.word / 2 ^ 24 % 16 * 2 ^ 24)).toOption

/-- The guard of a bundle's class 0xA slot. -/
def matrixGuard (ss : List Slot) : BitVec 4 :=
  match ss.find? fun x => decide (slotClass x.word = 0xA) with
  | some x => BitVec.ofNat 4 (x.word / 2 ^ 24)
  | none => 1

/-- A repeat begins with this bundle, or goes on with it (R182). `s` is the state at the start of the cycle. -/
def State.nextRepeat (s : State) (asked : Option Repeat) (ss : List Slot) : Option Repeat :=
  match s.stream.rpt with
  | some r => some { r with left := r.left - 1, next := r.next + 1 }
  | none =>
    match asked, reissueOf ss with
    | some r, some i => if s.regs.rg (matrixGuard ss) then some { r with slot := i, next := 1 } else none
    | _, _ => none

/-- The advance of the repeat's registers, and its end (R182). -/
def State.advanceRepeat (s : State) (r : Option Repeat) : State :=
  let t := ({ s with stream.rpt := r } : State).repeatRegs
  match r with
  | some x => if x.left = 0 then { t with stream.rpt := none } else t
  | none => t

/-- A bundle issues: its slots act, and what follows it is settled. -/
def State.issueSlots (s : State) (ws : List Nat) : Host.Outcome State Fault Refusal :=
  let ss := bundleSlots ws
  let head : List (Nat × Instr) := match bundleHeader ws with
    | some (.ok h) => [(0, h)]
    | _ => []
  match runSlots (head ++ s.actors ss) s with
  | .next t =>
    let t := t.flow s.stream.pc
    let t := { t with stream := { t.stream with
      held := false, noWatch := false, counting := true, rpt := s.nextRepeat t.stream.ask.rpt ss,
      ask := { t.stream.ask with counted := true } } }
    .next t
  | .fault f => .fault f
  | .refused f => .refused f

/-- The fetch-bound fault (R46, R318). -/
def State.fetchFault (s : State) : State :=
  let s := s.lanternC 0x06 0x10 (pair32 (codeOff s.stream.pc) 0)
  s.takeTrap 0x09 0 s.stream.pc s.stream.pc 23

/-- A pending cause is taken at a bundle boundary (R319, R321). With no handler any more the level 2 policy acts, but for a
boundary overflow, whose command completes with "record fault" (R293). -/
def State.takePending (s : State) (p : Pending) : State :=
  if s.ctl.trapvec = 0 then
    let s := { s with ctl.pend := s.ctl.pend.filter fun x => decide (x.cause ≠ p.cause) }
    if p.cause = 0x04#8 then s.endHalted else s.levelTwo p.cause p.addr true
  else s.deliver p.cause p.info p.addr s.stream.pc 23

/-- The bundle at the program counter is in bounds (R45). -/
def State.inBounds (s : State) : Bool := decide ((s.stream.pc - 0x18000000#64).toNat < s.ctl.codelim.toNat)

/-- The cause that is taken before the next bundle, if one is (R319, R322). -/
def State.duePending (s : State) : Option Pending := if s.ctl.inHandler then none else s.ctl.nextPending

/-- A bundle that is in bounds and has no encoding fault is stalled (R159). -/
def State.stalled (s : State) : Bool :=
  let s := ({ s with stream.held := false } : State).repeatRegs
  (s.work (bundleSlots s.bundleWords)).any s.slotHeld

/-- The bundle is stalled by a WAIT, WAITT or FENCE. -/
def State.stalledWait (s : State) : Bool :=
  let s := ({ s with stream.held := false } : State).repeatRegs
  (s.work (bundleSlots s.bundleWords)).any fun x => isWait x.2 && s.slotHeld x

/-- The bundle after its fetch and encoding checks: it stalls, meets a fault of its values or a watchpoint, or issues. LWSTAT
stays set while another slot holds the bundle after its wait is met, until the stall ends (R168; DEDUCED, log 56). -/
def State.issueChecked (s : State) (ws : List Nat) : Host.Outcome State Fault Refusal :=
  let t := ({ s with stream.held := false } : State).repeatRegs
  let work := t.work (bundleSlots ws)
  if s.stalled then
    let s := { s with stream.held := true }
    .next (if s.stalledWait then s.moreWait else s)
  else
    let t := t.endWait
    match work.findSome? t.slotTrap with
    | some u => .next u
    | none =>
      match t.watchMatch work with
      | some (i, pos, a) =>
        .next (t.takeTrap 0x02 (BitVec.ofNat 64 (i + 4 * pos)) (BitVec.ofNat 64 a) t.stream.pc 23)
      | none => t.issueSlots ws

/-- One cycle of the control stream, in the order of R186 and R319. -/
def State.issue (s : State) : Host.Outcome State Fault Refusal :=
  match s.duePending with
  | some p => .next (s.endWait.takePending p)
  | none =>
    if 0 < s.stream.bubbles then .next { s with stream.bubbles := s.stream.bubbles - 1 }
    else if s.inBounds = false then .next s.endWait.fetchFault
    else
      let ws := s.bundleWords
      match bundleFault s.rev2.isNone ws s.stream.rpt with
      | some (c, k) => .next (s.endWait.takeIllegal c k true)
      | none =>
        match s.slotFault (bundleSlots ws) with
        | some (c, k) => .next (s.endWait.takeIllegal c k false)
        | none => s.issueChecked ws

/-! ### What follows a bundle (R155, R319 to R324, R330, R345, R352) -/

/-- An image stop between this bundle and the next (R330, R331, R345): 1 for a drain, 3 for a buddy point. -/
def State.stopImage (s : State) (kind : Nat) (next : W64) : State :=
  let s := s.lanternC 0x07 (if kind = 1 then 0x1 else 0x2) (pair32 (codeOff s.stream.pc) 0)
  let at_ := if kind = 1 ∧ s.ctl.drrem ≠ 0 then s.ctl.drentry else next
  { s with stream := { s.stream with pc := at_, mode := .imageStop kind s.now, bubbles := 0, draining := none, stopDue := false } }

/-- An image stop that a trap or an SDUMP of its bundle came before is made (R330). -/
def State.dueStop (s : State) : State :=
  if s.stream.stopDue && decide (s.stream.mode = .running) && !s.ctl.inHandler then s.stopImage 1 s.stream.pc else s

/-- SDUMP (R352): in a tenant with a dump area, and at most once in 10 ms, the clock stops, the ports park and a dump is
written. -/
def State.startSdump (s : State) : State :=
  let soon := s.pkg.lastDump.any fun t => decide (s.now < t + 17500000)
  if (s.pkg.tenant s.pkg.residentTenant).cfg.dumpa.size = 0 ∨ soon = true then s
  else
    let s := ({ s with pkg.lastDump := some s.now } : State).parkAll.dump 5 0 0
    { s with stream.mode := .sdump }

/-- The end of an issue cycle. -/
def State.turnover (s : State) : State :=
  let k := s.stream.ask
  let next := k.target.getD (s.stream.pc + 16)
  let went : State := { s with stream := { s.stream with pc := next, bubbles := k.bubbles } }
  let stops := k.dpoint && s.ctl.drainReq && !s.ctl.inHandler
  if k.counted = false ∨ s.stream.mode ≠ .running then (if k.counted then went else s)
  else if k.ended then { s.endProgram true with stream.pc := next }
  else match k.trap with
    | some n => ({ went with stream := { went.stream with bubbles := 0, stopDue := stops } } : State).takeTrap 0x01
        (n.zeroExtend 64) 0 next 24
    | none =>
      match k.rte with
      | some sw => s.beginReturn sw 24
      | none =>
        if k.reraise then s.doReraise
        else if k.sdump then (({ went with stream.stopDue := stops } : State).startSdump).dueStop
        else if stops then s.stopImage 1 next
        else if k.bpoint then s.stopImage 3 next
        else went

/-- The die is in a mode in which engines and shared SRAM go on. -/
def Mode.lives : Mode → Bool
  | .running => true
  | .ended _ => true
  | .imageStop _ _ => true
  | _ => false

/-- The die clock stands still. -/
def Mode.clockStops : Mode → Bool
  | .scanStop => true
  | .sdump => true
  | .fatal => true
  | _ => false

/-- A program's cycles are counted, and its account refilled: one has been launched (R314, R325). -/
def Mode.launched : Mode → Bool
  | .idle => false
  | _ => true

/-- A cycle of a freeze comes next: what is left of one waits while the clock stands still (R51, R325, R352). -/
def State.frozen (s : State) : Bool := decide (0 < s.eng.freeze) && !s.stream.mode.clockStops

/-- One cycle of the die clock. A fatal trap stops the units in the cycle after its cause (R348). -/
def State.cycle (s : State) : Host.Outcome State Fault Refusal :=
  if s.frozen then
    let n := s.stream.mode.launched
    .next (({ s with eng.freeze := s.eng.freeze - 1 } : State).passTime n n)
  else
    let lim := s.issueLimits
    match s.stream.mode with
    | .idle => .next (s.passTime false false)
    | .running =>
      match s.issue with
      | .next t =>
        let rpt := t.stream.rpt
        let t := if t.stream.mode.lives || decide (t.stream.mode = .fatal) then t.background lim else t
        let t := if t.stream.ask.counted then t.advanceRepeat rpt else t
        .next (t.turnover.passTime true true).stopsHere
      | .fault f => .fault f
      | .refused f => .refused f
    | .trapping n =>
      let s := s.passTime true true
      .next { s with stream.mode := if n ≤ 1 then .running else .trapping (n - 1) }
    | .returning n =>
      let s := (s.landDue true []).passTime true true
      .next (if n ≤ 1 then s.endReturn.releaseChain.dueStop else { s with stream.mode := .returning (n - 1) })
    | .ended _ =>
      .next ((({ s with stream.ask.counted := true } : State).background lim).passTime true true)
    | .imageStop _ _ => .next ((s.background lim).passTime true true)
    | .scanStop => .next (s.passTime false false)
    | .sdump => .next (s.passTime true false)
    | .fatal => .next (s.passTime true false)

/-- A cycle counts for shared SRAM and engines. -/
def State.counts (s : State) : Bool := decide (s.eng.freeze = 0) && s.stream.mode.lives

/-! ## The place of an atomic in a location's write order (R39, R147, R222) -/

/-- The atomics of the control stream that the coming cycle performs: on shared SRAM those that are due, on the working store
those that its bundle issues. -/
def State.atomicsDue (s : State) : List (Nat × Nat) :=
  let due := s.stream.sram.filter fun o => !o.performed && decide (o.performIn = 0)
  let sram := due.filterMap fun o => match o.kind with
    | .atomic _ _ => some (o.addr, o.size)
    | _ => none
  let issued := if s.stream.mode = .running then
      match s.issue with
      | .next t => t.stream.results.filterMap fun r => match r.land with
        | .watomic _ _ a size _ _ => some (a, size)
        | _ => none
      | _ => []
    else []
  if s.counts then sram ++ issued else []

/-- Bytes of such an atomic have been written in this cycle already. Its read finds the writes of earlier cycles (R35), and its
old value is that of the write immediately before it (R147): so no one else writes them in its cycle (DEDUCED, log 10). -/
def State.atomicBehind (s : State) : Bool := s.atomicsDue.any fun x => !fresh s.mem.undo x.1 x.2

/-! ## The events of the clock

Each names something that the coming cycle does; it does not occur when that cycle does not do it. -/

/-- ISSUE_BUNDLE (R175): one cycle of the die clock, in which the control stream issues the bundle at its program counter
unless it stalls, bubbles, or is stopped. -/
def execIssueBundle (s : State) : Host.Outcome State Fault Refusal := s.cycle

/-- The cycle, when it does what an event says. -/
def State.cycleIf (s : State) (due : Bool) : Host.Outcome State Fault Refusal := if due then s.cycle else .next s

/-- The control stream may issue in the coming cycle. -/
def State.mayIssue (s : State) : Bool :=
  decide (s.eng.freeze = 0) && decide (s.stream.mode = .running) && s.duePending.isNone && decide (s.stream.bubbles = 0)

/-- STALL_END (R217): a held bundle issues in the first cycle in which its stall condition no longer holds. -/
def execStallEnd (s : State) : Host.Outcome State Fault Refusal :=
  s.cycleIf (s.mayIssue && s.stream.held && !s.stalled)

/-- LONG_WAIT (R168): the stall reaches LWTHR cycles. -/
def execLongWait (s : State) : Host.Outcome State Fault Refusal :=
  s.cycleIf (s.mayIssue && s.stream.held && s.stalledWait && !s.ctl.lwstat &&
    decide (s.ctl.lwthr.toNat ≤ s.stream.waited + 1))

/-- RESULT_LANDS (R160): a fixed result is in the last of its counted cycles. -/
def execResultLands (s : State) : Host.Outcome State Fault Refusal :=
  s.cycleIf (decide (s.eng.freeze = 0) && s.stream.results.any fun r => decide (r.rem ≤ 1))

/-- SRAM_ACCESS_PERFORMED (R35, R38). -/
def execSramAccessPerformed (s : State) : Host.Outcome State Fault Refusal :=
  s.cycleIf (s.counts && s.stream.sram.any fun o => !o.performed && decide (o.performIn = 0))

/-- SRAM_LOAD_LANDS (R36, R38). -/
def execSramLoadLands (s : State) : Host.Outcome State Fault Refusal :=
  s.cycleIf (s.counts && s.stream.sram.any SramOp.landsNow)

/-- FREEZE_END (R51): the last of the 16 freeze cycles passes. -/
def execFreezeEnd (s : State) : Host.Outcome State Fault Refusal := s.cycleIf (s.frozen && decide (s.eng.freeze = 1))

/-- TRAP_DELIVERY (R319, R320): a pending cause is delivered before the next bundle. -/
def execTrapDelivery (s : State) : Host.Outcome State Fault Refusal :=
  s.cycleIf (decide (s.eng.freeze = 0) && decide (s.stream.mode = .running) && s.duePending.isSome)

/-- TRAP_CYCLES_END (R320): the last trap cycle passes, and the bundle at TRAPVEC issues next. -/
def execTrapCyclesEnd (s : State) : Host.Outcome State Fault Refusal :=
  s.cycleIf (decide (s.eng.freeze = 0) && decide (s.stream.mode = .trapping 1))

/-- RETURN_CYCLES_END (R323): the last return cycle passes, and the bundle at TPC issues next. -/
def execReturnCyclesEnd (s : State) : Host.Outcome State Fault Refusal :=
  s.cycleIf (decide (s.eng.freeze = 0) && decide (s.stream.mode = .returning 1))

/-- The power controller's refills reach the die. -/
def State.powered (s : State) : Bool := s.stream.mode.launched && decide (s.stream.mode ≠ .scanStop)

/-- ENERGY_REFILL (R314): the power controller's clock completes 1,024 cycles. -/
def execEnergyRefill (s : State) : Host.Outcome State Fault Refusal := s.cycleIf (s.powered && decide (s.refillClk = 1023))

end Sys2Proof.Machine
end

