-- ==== Sys2Proof/Machine/Die.lean ====
section
/-! DEFINITION. What reaches the die from outside its program: storage errors, writes over the control path, the host's
and management's registers, the firmware, and CXL.mem (R15, R16, R19, R45, R51 to R55, R148, R353, R355, R367, R368). -/

namespace Sys2Proof.Machine

/-! ## Storage errors (R51 to R55) -/

/-- CEINFO (R55). -/
def ceInfo (arr : BitVec 4) (unit : BitVec 6) (bad scrub : Bool) : W32 :=
  BitVec.ofNat 32 (arr.toNat + (if bad then 16 else 0) + (if scrub then 32 else 0) + unit.toNat * 64)

/-- Slice of a shared-SRAM address (R34). -/
def sliceOf (a : Nat) : Nat := a / 2 ^ 12 % 64

/-- Bank number of a working-store address: 8 × group + bank within the group (R41). -/
def bankOf (a : Nat) : Nat := 8 * ((a - 0x10000000) / 2 ^ 25 % 4) + (a - 0x10000000) / 2 ^ 9 % 8

/-- Channel of a DRAM offset (R48). -/
def channelOf (o : Nat) : Nat := o / 2 ^ 8 % 32

/-- The slice, bank or channel of an error's address; another array's unit is the event's (R55). -/
def errorUnit (arr : BitVec 4) (unit : BitVec 6) (addr : W64) : BitVec 6 :=
  match arr.toNat with
  | 0 => BitVec.ofNat 6 (sliceOf addr.toNat)
  | 1 => BitVec.ofNat 6 (bankOf addr.toNat)
  | 6 => BitVec.ofNat 6 (channelOf addr.toNat)
  | _ => unit

/-- A storage error is recorded: CEINFO, CEADDR and the lantern ring (R51, R54, R347). -/
def State.recordError (s : State) (arr : BitVec 4) (unit : BitVec 6) (addr : W64) (bad scrub : Bool) : State :=
  let s := { s with ctl := { s.ctl with ceinfo := ceInfo arr (errorUnit arr unit addr) bad scrub, ceaddr := addr } }
  s.lanternM 0x22 arr.toNat (BitVec.ofNat 64 (addr.toNat % 2 ^ 56 + if bad then 2 ^ 56 else 0))

/-- The words corrected are counted (R51). -/
def State.countErrors (s : State) (words : Nat) : State := { s with ctl.cecnt := satAdd32 s.ctl.cecnt words }

/-- The die made accesses in the cycle before, so that one can find an error; errors of one cycle share a freeze of 16 (R51).
The cycle before trap or return cycles was one of accesses, and the handler's results land in return cycles; so was the cycle
in which a fatal trap or an SDUMP stopped the clock. -/
def State.accesses (s : State) : Bool :=
  (decide (s.eng.freeze = 0) || decide (s.eng.freeze = 16)) && match s.stream.mode with
    | .scanStop => false
    | .sdump => decide (s.stream.haltAt = s.now)
    | .fatal => decide (s.stream.haltAt = s.now)
    | _ => true

/-- CORRECTABLE_ERROR (R51): an access finds one: it is corrected, counted and recorded, and the die freezes for exactly
16 cycles, starting with the next. -/
def execCorrectableError (s : State) : Host.Outcome State Fault Refusal :=
  match s.arg with
  | .ecc arr unit addr words false =>
    if arr.toNat ≤ 6 ∧ 1 ≤ words ∧ s.accesses = true then
      let s := (s.countErrors words).recordError arr unit addr false false
      .next ({ s with eng.freeze := 16 } : State).stopsHere
    else .next s
  | _ => .next s

/-- PATROL_SCRUB (R53): the scrubber finds an error in the shared SRAM, the working store or the DRAM; no freeze. -/
def execPatrolScrub (s : State) : Host.Outcome State Fault Refusal :=
  match s.arg with
  | .ecc arr unit addr words true =>
    if (arr = 0 ∨ arr = 1 ∨ arr = 6) ∧ 1 ≤ words then
      .next ((s.countErrors words).recordError arr unit addr false true)
    else .next s
  | _ => .next s

/-- A fatal trap is taken: the die is not frozen by one yet, or its dump is still being written and is restarted (R351). -/
def State.trapsFatally (s : State) : Bool :=
  decide (s.stream.mode ≠ .fatal) || s.pkg.dumps.any fun d => !d.img.complete

/-- UNCORRECTABLE_ERROR (R54): recorded, and a fatal trap. -/
def execUncorrectableError (s : State) : Host.Outcome State Fault Refusal :=
  match s.arg with
  | .ecc arr unit addr _ scrub =>
    if arr.toNat ≤ 6 then
      let s := s.recordError arr unit addr true scrub
      .next (if s.trapsFatally then s.fatalTrap 0x20 (s.ctl.ceinfo.zeroExtend 64) addr else s)
    else .next s
  | _ => .next s

/-- FATAL_TRAP (R348, R351): cause 0x20 or 0x21 of R318. -/
def execFatalTrap (s : State) : Host.Outcome State Fault Refusal :=
  match s.arg with
  | .nat c =>
    if (c = 0x20 ∨ c = 0x21) ∧ s.trapsFatally = true then
      let info := if c = 0x20 then s.ctl.ceinfo.zeroExtend 64 else s.ctl.tcause.zeroExtend 64
      .next (s.fatalTrap (BitVec.ofNat 8 c) info (if c = 0x20 then s.ctl.ceaddr else s.ctl.taddr))
    else .next s
  | _ => .next s

/-! ## The control path (R15, R16, R19, R45) -/

/-- WINDOW_TABLE_WRITE (R16, R23): refused while WTLOCK = 1. The changes of STATE and FRAME that are made then are a pager's
answers, each under its own row. -/
def execWindowTableWrite (s : State) : Host.Outcome State Fault Refusal :=
  match s.arg with
  | .wtab i w0 w1 => .next (if s.ctl.wtlock then s else { s with mem.wtab := vset s.mem.wtab i.toNat (w0, w1) })
  | _ => .next s

/-- WTLOCK_SET (R19): a table that passes is locked; otherwise the lowest failing index is reported. -/
def execWtlockSet (s : State) : Host.Outcome State Fault Refusal :=
  match s.tableFault with
  | none => .next { s with ctl.wtlock := true }
  | some i => .next { s with ctl.wtlock := false, pkg.answers := BitVec.ofNat 64 i :: s.pkg.answers }

/-- The die program is running (R15): a program has been launched and has not ended. -/
def Mode.programRuns : Mode → Bool
  | .idle => false
  | .ended _ => false
  | _ => true

/-- CODE_STORE_LOAD (R15, R45): through the load port, while the die program is not running. -/
def execCodeStoreLoad (s : State) : Host.Outcome State Fault Refusal :=
  match s.arg with
  | .code off bytes =>
    if s.stream.mode.programRuns = false ∧ off + bytes.length ≤ 0x80000 then .next (s.store (0x18000000 + off) bytes)
    else .next s
  | _ => .next s

/-- A register that the runtime writes at a launch or resume is written while no program runs. -/
def State.atLaunch (s : State) (f : Ctl → Ctl) : State := if s.stream.mode = .idle then { s with ctl := f s.ctl } else s

/-- What another die of the job reports replaces its earlier report, with the time of the first peer's stop (R345); under
level 3 retry the job waits for a frozen die (R346). -/
def Job.report (j : Job) (r : PeerReport) (now : Nat) : Job :=
  let peers := r :: j.peers.filter fun p => decide (p.coord ≠ r.coord)
  { j with
    peers := peers, peerStop := if peers.any (·.stopped) then some (j.peerStop.getD now) else none,
    state := if r.frozen && decide (j.record.pol3 = 1) && j.runs then .awaitDie now else j.state }

/-- Every die of a job that waits for a frozen die stops, and what it was writing of itself is discarded (R346). -/
def State.stopForPeer (s : State) : State :=
  let waits := s.pkg.residentJob.any fun j => match j.state with
    | .awaitDie _ => true
    | _ => false
  if waits && s.stream.mode.programRuns && decide (s.stream.mode ≠ .fatal) then
    { s with stream.mode := .scanStop, pkg.images := s.pkg.images.filter (·.complete) }
  else s

/-- A job holds its sub-cube. -/
def Job.placed (j : Job) : Bool := decide (j.state ≠ .waiting)

/-- A coordinate lies in a job's sub-cube. -/
def Job.holds (j : Job) (c : BitVec 13) : Bool := c &&& ~~~j.scmask == j.scbase

/-- Change a tenant's entry; one that does not exist is left alone. -/
def State.editTenant (s : State) (t : Nat) (f : Tenant → Tenant) : State := s.setTenant t (f (s.pkg.tenant t))

/-- A host queue. -/
def Pkg.queue (p : Pkg) (q : Nat) : HQueue := vget p.queues q HQueue.clear

/-- Replace a host queue. -/
def State.setQueue (s : State) (q : Nat) (x : HQueue) : State := { s with pkg.queues := vset s.pkg.queues q x }

/-- DONE of QPROG: the highest number up to which every accepted entry has ended (R361). -/
def HQueue.done (x : HQueue) : W32 :=
  match x.live with
  | [] => x.qacc
  | a :: _ => a - 1

/-- What a host read of QTAIL returns (R363). -/
def HQueue.readTail (x : HQueue) : W32 := if x.out then x.shadow else x.qtail

/-- What a host read of QPROG returns (R361, R363). -/
def HQueue.readProg (x : HQueue) : BitVec 33 :=
  if x.out then BitVec.ofNat 33 (2 ^ 32 + x.frozen.toNat) else x.done.zeroExtend 33

/-- The queues of a tenant (R359). -/
def Tenant.queues (x : Tenant) : List Nat := if x.used then (List.range 64).filter fun q => x.cfg.qmask.getLsbD q else []

/-! ## Reads and writes by address (R15, R343, R345, R356, R357) -/

/-- What a read of the control window returns, 8 bytes at a multiple of 8. The timeline counters stand in the order of their
list, 8 bytes each (DESIGN CHOICE, log 50). The code-store load port is not read; outside the regions a read gives zero
(R15). -/
def State.controlRead (s : State) (a : Nat) : W64 :=
  let word (e : W64 × W64) : W64 := if a / 8 % 2 = 0 then e.1 else e.2
  if 0x1C000000 ≤ a ∧ a < 0x1C001000 then Config.statusWord s.draws (a / 8 * 8)
  else if 0x1C100000 ≤ a ∧ a < 0x1C108000 then word (s.wentry ((a - 0x1C100000) / 16))
  else if 0x1C200000 ≤ a ∧ a < 0x1C200058 then (s.line ((a - 0x1C200000) / 8)).seen
  else if 0x1C300000 ≤ a ∧ a < 0x1C300400 then
    let i := (a - 0x1C300000) / 8 * 2
    pair32 (vget s.eng.routed i 0).toNat (vget s.eng.routed (i + 1) 0).toNat
  else if 0x1C400000 ≤ a ∧ a < 0x1C402000 then word (vget s.mem.lanternC ((a - 0x1C400000) / 16) (0, 0))
  else if 0x1C402000 ≤ a ∧ a < 0x1C404000 then word (vget s.mem.lanternM ((a - 0x1C402000) / 16) (0, 0))
  else 0

/-- A value is answered to the host or to the scheduler. -/
def State.answerWord (s : State) (x : W64) : State := { s with pkg.answers := x :: s.pkg.answers }

/-- The registers of a queue's page, 8 bytes each in the order of R361 (DESIGN CHOICE, log 50). -/
def HQueue.read (x : HQueue) (i : Nat) : W64 :=
  match i with
  | 0 => x.qbase
  | 1 => x.qlog.zeroExtend 64
  | 2 => x.readTail.zeroExtend 64
  | 3 => x.qhead.zeroExtend 64
  | 4 => x.qacc.zeroExtend 64
  | 5 => x.readProg.zeroExtend 64
  | _ => 0

/-- The tenant's registers at the head of its BAR0, 8 bytes each in the order of R357 (DESIGN CHOICE, log 50). -/
def Tenant.read (x : Tenant) (i : Nat) : W64 :=
  match i with
  | 0 => x.evbase
  | 1 => x.evlog.zeroExtend 64
  | 2 => x.evwr.zeroExtend 64
  | 3 => x.evrd.zeroExtend 64
  | 4 => if x.evovf then 1 else 0
  | 5 => x.pgans0
  | 6 => x.pgans1
  | 7 => x.pgres.zeroExtend 64
  | _ => 0

/-- A tenant reads BAR0 of its function (R357): its own registers, where the read of PGRES restarts the count of rejections
(R103), the status block, and the pages of its own queues; a page of another's queue reads zero. -/
def State.hostRead (s : State) (t off : Nat) : State :=
  let x := s.pkg.tenant t
  if off < 0x100 then
    (if off / 8 = 7 then s.setTenant t { x with pgres := x.pgres &&& 0xFF#32 } else s).answerWord (x.read (off / 8))
  else if 0xF00 ≤ off ∧ off < 0xF40 then s.answerWord ((vget s.pkg.status ((off - 0xF00) / 4) 0).zeroExtend 64)
  else if 0x1000 ≤ off ∧ off < 0x5000 then
    let q := (off - 0x1000) / 0x100
    s.answerWord (if x.queues.contains q then (s.pkg.queue q).read (off % 0x100 / 8) else 0)
  else s.answerWord 0

/-- Base of a slot of the image area (R343): 0 and 1 hold the die's own buddy images, 2 and 3 its neighbour's, 4 the swap
image. -/
def slotBase (k : Nat) : Nat := imageBase + k * 400 * 2 ^ 20

/-- The neighbour's sealed image is written into the older hosting slot (R343, R345). -/
def State.hostImage (s : State) (point : W64) (bytes : List Byte) : State :=
  let free := [2, 3].find? fun k => !s.pkg.hosting.any fun h => decide (h.1 = k)
  let k := free.getD ((s.pkg.hosting.getLast?.map (·.1)).getD 2)
  let s := { s with pkg.hosting := (k, point) :: s.pkg.hosting.filter fun h => decide (h.1 ≠ k) }
  s.storeDram (slotBase k) bytes

/-- The neighbour's copy of this die's image of a point is complete (R345). -/
def State.hostedAt (s : State) (point : W64) : State :=
  { s with pkg.images := s.pkg.images.map fun (i : Image) =>
      if i.kind = 3 ∧ i.bpcnt = point ∧ i.jobid = s.ctl.jobid then { i with hosted := true } else i }

/-- THERMAL_LIMIT (R368): the junction temperature in °C; refills are withheld from 105 on until it falls below 100. -/
def execThermalLimit (s : State) : Host.Outcome State Fault Refusal :=
  match s.arg with
  | .nat t =>
    let hold := decide (105 ≤ t) || (s.pkg.withheld && decide (100 ≤ t))
    .next { s with pkg := { s.pkg with celsius := t, withheld := hold } }
  | _ => .next s

/-! ## The event ring (R355) -/

/-- EVOVF_CLEAR (R355): a write of 0. -/
def execEvovfClear (s : State) : Host.Outcome State Fault Refusal :=
  match s.arg with
  | .reg t v => .next (if v.getLsbD 0 then s else s.editTenant t fun x => { x with evovf := false })
  | _ => .next s

/-! ## Package functions (R148, R366 to R368) -/

/-- The HDM decoder that a host range lies in (R356). -/
def Pkg.decoder (p : Pkg) (a n : Nat) : Option HdmRange :=
  p.hdm.find? fun r => decide (r.base ≤ a) && decide (a + n ≤ r.base + r.size)

/-- CXL_MEM_ACCESS (R148, R356): through a decoder the host writes package DRAM, or reads it into `answers`, 8 bytes a word.
The image area is out of reach (R343). -/
def execCxlMemAccess (s : State) : Host.Outcome State Fault Refusal :=
  match s.arg with
  | .cxl a =>
    let n := match a.data with
      | some bs => bs.length
      | none => a.len
    match s.pkg.decoder a.addr n with
    | none => .next s
    | some r =>
      let o := r.off + (a.addr - r.base)
      if r.die = s.ctl.diecoord.toNat % 8 ∧ dramRangeOk o n = true then
        match a.data with
        | some bs => .next (s.storeDram o bs)
        | none =>
          let words := (List.range ((n + 7) / 8)).map fun i =>
            BitVec.ofNat 64 (leNat (s.loadDram (o + 8 * i) (min 8 (n - 8 * i))))
          .next { s with pkg.answers := words.reverse ++ s.pkg.answers }
      else .next s
  | _ => .next s

/-- FIRMWARE_IMAGE_WRITE (R367): it takes effect at the next package reset. -/
def execFirmwareImageWrite (s : State) : Host.Outcome State Fault Refusal :=
  match s.arg with
  | .bytes bs => .next { s with pkg.newFirmware := some bs }
  | _ => .next s

/-- PACKAGE_RESET (R367): everything returns to its reset value but the die's coordinate, what it carries from outside, and
the firmware, which is verified. -/
def execPackageReset (s : State) : Host.Outcome State Fault Refusal :=
  let fw := s.pkg.newFirmware.getD s.pkg.firmware
  let w : W32 := if Config.firmwareVerifies fw then 1 else 0
  let r := State.reset
  .next { r with
    ctl := { r.ctl with diecoord := s.ctl.diecoord, encrev := s.ctl.encrev },
    mem := { r.mem with dram := s.mem.dram, host := s.mem.host },
    pkg := { r.pkg with firmware := fw, status := vset r.pkg.status 0 w },
    inputs := s.inputs, now := s.now, draws := s.draws }

/-- SPDM_MEASUREMENT (R367): the signed measurement of index 1, 2 or 3 for a function. -/
def execSpdmMeasurement (s : State) : Host.Outcome State Fault Refusal :=
  match s.arg with
  | .two idx vf =>
    let all := s.pkg.tenants.toList.map (·.cfg)
    let seen : List TenantCfg := if idx = 2 then all else if idx = 3 then [(s.pkg.tenant vf).cfg] else []
    if 1 ≤ idx ∧ idx ≤ 3 then
      .next { s with pkg.spdm := (idx, vf, Config.measurement idx s.pkg.firmware seen) :: s.pkg.spdm }
    else .next s
  | _ => .next s

/-- IMAGE_SECRET_INSTALL (R338, R367): status bit 2 is set, and a placement pass follows (R366). -/
def execImageSecretInstall (s : State) : Host.Outcome State Fault Refusal :=
  match s.arg with
  | .bytes bs =>
    let w := vget s.pkg.status 0 0
    .next (if s.pkg.verified then
      { s with pkg := { s.pkg with secret := some bs, status := vset s.pkg.status 0 (w ||| 4), passDue := some s.now } }
    else s)
  | _ => .next s

/-- READY_BIT_SET (R366): a listed bit of the status block; the firmware and secret bits and the links of this die only when
they stand for what has happened. -/
def execReadyBitSet (s : State) : Host.Outcome State Fault Refusal :=
  match s.arg with
  | .two w b =>
    let listed := if w = 0 then decide (b = 1) || (decide (8 ≤ b) && decide (b < 24)) ||
        (decide (b = 0) && Config.firmwareVerifies s.pkg.firmware) || (decide (b = 2) && s.pkg.secret.isSome)
      else decide (w ≤ 8) && decide (b < 13) &&
        (decide (w ≠ 1 + s.ctl.diecoord.toNat % 8) || decide ((s.port b).state = .up))
    .next (if listed then s.setReady w b else s)
  | _ => .next s

end Sys2Proof.Machine
end

