-- ==== Sys2Proof/Machine/Jobs.lean ====
section
/-! DEFINITION. Job and chain records, the container, the launch of a job, and how jobs and chains end (R152 to R156, R170,
R194 to R200, R302 to R306, R313, R360). -/

namespace Sys2Proof.Machine

/-- A little-endian field of `n` bytes at an offset. -/
def fieldAt (bs : List Byte) (off n : Nat) : Nat := leNat ((bs.drop off).take n)

/-! ## Records (R304, R305) -/

/-- A 64-byte record of kind 1 (job) or 3 (element), when it keeps within the limits. -/
def parseRecord (kind : Nat) (bs : List Byte) : Option JobRec :=
  let w (i : Nat) : Nat := fieldAt bs (8 * i) 8
  let w0 := w 0
  let quant := w0 / 2 ^ 32
  let k := w0 / 16 % 16
  let cls := w0 / 256 % 4
  let top := w0 / 4096 % 16
  let own := if kind = 1 then decide (k ≤ 13) && decide (100 ≤ quant) && decide (quant ≤ 1000000) && decide (top = 0)
    else decide (k = 0) && decide (quant = 0) && decide (cls = 0) && decide (top ≤ 1)
  if own && decide (w0 % 16 = kind) && decide (w 1 % 64 = 0) && decide (64 ≤ w 2 % 2 ^ 32) && decide (w 4 % 8 = 0) &&
      decide (w 6 = 0) && decide (w 7 = 0) then
    some { k := k, cls := cls, pol3 := BitVec.ofNat 2 (w0 / 1024), kernel := w0 / 2 ^ 16 % 2 ^ 16, quant := quant,
           cont := w 1, csize := w 2 % 2 ^ 32, buddy := w 2 / 2 ^ 32, enest := w 3, flagAddr := w 4,
           flagVal := BitVec.ofNat 64 (w 5), optional := decide (top = 1) }
  else none

/-- The elements of a chain record, with class and quantum of the chain (R305). One that breaks a limit, or whose DIMS is not
zero, rejects the chain (DESIGN CHOICE, log 50). -/
def parseChain (host : List Host.Cell) (a : Nat) : Option (List JobRec) :=
  let bs := getBytes host a 64
  let w0 := fieldAt bs 0 8
  let quant := w0 / 2 ^ 32
  let n := w0 / 2 ^ 16 % 2 ^ 16
  if w0 % 16 = 2 ∧ w0 / 16 % 16 = 0 ∧ w0 / 4096 % 16 = 0 ∧ 1 ≤ n ∧ n ≤ 1024 ∧ 100 ≤ quant ∧ quant ≤ 1000000 ∧
      (bs.drop 8).all (· == 0) = true then
    (List.range n).mapM fun i =>
      (parseRecord 3 (getBytes host (a + 64 * (i + 1)) 64)).map fun r =>
        { r with cls := w0 / 256 % 4, quant := quant }
  else none

/-! ## The container (R198) -/

/-- A section entry: kind, kernel, revision, offset, size, and the DPLACE fields of a data image. -/
structure Section where
  kind : Nat
  kernel : Nat
  rev : Nat
  off : Nat
  size : Nat
  addr : Nat
  rank : Nat
  everywhere : Bool
deriving DecidableEq, Repr

/-- Section entry `i` of a container. -/
def sectionAt (bs : List Byte) (i : Nat) : Section :=
  let e := (bs.drop (64 + 32 * i)).take 32
  { kind := fieldAt e 0 2, kernel := fieldAt e 2 2, rev := fieldAt e 4 1, off := fieldAt e 8 8, size := fieldAt e 16 8,
    addr := fieldAt e 24 4, rank := fieldAt e 28 2 % 2 ^ 13, everywhere := decide (fieldAt e 28 2 / 2 ^ 15 = 1) }

/-- No section overlaps a later one. -/
def sectionsApart : List Section → Bool
  | [] => true
  | x :: r => (r.all fun y => !meets x.off x.size y.off y.size) && sectionsApart r

/-- The sections of a container, or `none` where the loader refuses it (R198): one of another ARCH than 0x0001 too (DESIGN
CHOICE, log 50). -/
def containerSections (bs : List Byte) : Option (List Section) :=
  let n := fieldAt bs 8 2
  let ss := (List.range n).map (sectionAt bs)
  let header := decide (64 + 32 * n ≤ bs.length) && decide (fieldAt bs 0 4 = 0x4F4C4C42) && decide (fieldAt bs 4 2 = 1) &&
    decide (fieldAt bs 6 2 = 1) && ((bs.drop 16).take 48 == (Config.sha384 (bs.drop 64)).toList)
  let ok (x : Section) : Bool := decide (1 ≤ x.kind) && decide (x.kind ≤ 7) && decide (x.off + x.size ≤ bs.length) &&
    (decide (x.kind ≠ 1) || (decide (x.size ≤ 0x80000) && decide (x.size % 16 = 0)))
  if header && ss.all ok && sectionsApart ss then some ss else none

/-- The bytes of a section. -/
def Section.bytes (x : Section) (bs : List Byte) : List Byte := (bs.drop x.off).take x.size

/-- The sections of a kind that a kernel has. -/
def kernelSections (ss : List Section) (kind kernel : Nat) : List Section :=
  ss.filter fun x => decide (x.kind = kind) && decide (x.kernel = kernel)

/-- A job's container in host memory. -/
def State.container (s : State) (j : Job) : List Byte := getBytes s.mem.host j.record.cont j.record.csize

/-- What a kernel without a launch record asks for: every key at its default (R194). -/
def LaunchRec.default : LaunchRec :=
  { dims := 0, domain := none, entry := none, regs := [], srseed := none, energy := 0, rev := 1, windows := [] }

/-- The launch record of a job's kernel; `none` where the container is refused. -/
def State.launchRec (s : State) (j : Job) : Option LaunchRec :=
  let bs := s.container j
  match containerSections bs with
  | none => none
  | some ss =>
    match kernelSections ss 3 j.record.kernel with
    | [] => some LaunchRec.default
    | x :: _ => Config.parseLaunch (x.bytes bs)

/-- The native code of a job's kernel for its revision, or its portable form finalised (R200): of several sections the first
(DESIGN CHOICE, log 50). -/
def jobCode (bs : List Byte) (ss : List Section) (kernel : Nat) (rev : BitVec 2) : Option (List Byte) :=
  match (kernelSections ss 1 kernel).find? fun x => decide (x.rev = rev.toNat) with
  | some x => some (x.bytes bs)
  | none =>
    match kernelSections ss 2 kernel with
    | x :: _ => Config.finalise (x.bytes bs) rev
    | [] => none

/-- Code that fits the code store, in whole bundles (R45). -/
def codeOk (code : List Byte) : Bool := decide (code.length % 16 = 0) && decide (code.length ≤ 0x80000)

/-- A data image lies wholly in shared SRAM or wholly in the working store, and its RANK is below 2^k (R199). -/
def Section.imageOk (x : Section) (k : Nat) : Bool := inLocal x.addr x.size && (x.everywhere || decide (x.rank < 2 ^ k))

/-! ## Energy (R304, R313) -/

/-- The energy estimate of a job: its record's, its launch record's, or the tenant's default. -/
def Pkg.estimate (p : Pkg) (j : Job) : Nat :=
  let l := (j.launch.map (·.energy)).getD 0
  if j.record.enest ≠ 0 then j.record.enest else if l ≠ 0 then l else (p.tenant j.tenant).cfg.endef

/-- ENRATE of a job (R313). -/
def Pkg.rate (p : Pkg) (j : Job) : Nat :=
  let d := 1750 * j.record.quant
  (p.estimate j * 1024 + d - 1) / d

/-- The largest rate, 260 W per die (R313). -/
def maxRate : Nat := 152137

/-! ## The launch (R47, R153, R156, R194 to R200, R313, R360) -/

/-- The clear of a die before another tenant's job (R360): all die-local storage but the code store, and the DRAM outside
the image area. -/
def State.tenantClear (s : State) : State :=
  { s with mem := { s.mem with
      loc := clearCells s.mem.loc 0 0x18000000, dram := clearCells s.mem.dram 0 imageBase } }

/-- The ports at a launch: GUYDIM and LKERR are zero, and what a port that is out still holds for a guyline is given up
(R130, R132). -/
def State.launchPorts (s : State) : Vector Port 13 :=
  ({ s with eng := Engines.clear, ports := s.ports.map fun p => { p with guydim := 0, lkerr := 0 } } : State).sweepPorts.ports

/-- Registers, tiles, accumulators, timelines and engines take their launch defaults; what belongs to the die itself, to
the links and to its memories stays (R47). -/
def State.launchClear (s : State) : State :=
  { s with
    regs := Regs.clear, tiles := Tiles.clear, ctl := { Ctl.clear with diecoord := s.ctl.diecoord, encrev := s.ctl.encrev },
    stream := Stream.clear, lines := .replicate 11 Timeline.clear, eng := { Engines.clear with freeze := s.eng.freeze },
    late := Late.clear,
    ports := s.launchPorts,
    mem := { s.mem with
      undo := [], wtab := .replicate 2048 (0, 0), lanternC := .replicate 512 (0, 0), lanternM := .replicate 512 (0, 0),
      lanternNow := (0, 0) } }

/-- A port at a launch after a swap-out: a parked one trains afresh, since what it held is in the image (R340), and its sequence
numbers begin again at both ends (DESIGN CHOICE, log 47). -/
def State.launchPort (s : State) (d : Nat) : State :=
  let s := if (s.port d).state = .parked then s.freshPort d else s
  s.setPort d { s.port d with swapped := false }

/-- Every port is ready for a launch. -/
def State.freshPorts (s : State) : State := (List.range 13).foldl (fun s d => s.launchPort d) s

/-- The entry that the loader builds from a .window line (R17, R18, R195): a rank of the job becomes its coordinate, an
aperture its base. -/
def WindowLine.entry (w : WindowLine) (scmask scbase : BitVec 13) (aper : List Aperture) : WEntry :=
  let bit (b : Bool) (k : Nat) : Nat := if b then 2 ^ k else 0
  let coord := (scbase ||| deposit scmask w.rank).toNat
  let target := match w.kind with
    | 1 => coord * 2 ^ 48 + w.off
    | 2 => coord * 2 ^ 48 + w.off
    | 3 => (aper[w.rank]?.map (·.base)).getD 0 + w.off
    | 4 => w.region * 2 ^ 56 + w.off
    | _ => w.off
  (BitVec.ofNat 64 (w.vbase + w.size * 2 ^ 17 + 2 ^ 16 + w.state * 2 ^ 14 + w.scope * 2 ^ 12 + w.kind * 2 ^ 9 +
    bit w.wr 8 + bit w.rd 7), BitVec.ofNat 64 target)

/-- A host window lies wholly within the aperture that its line names (R195). -/
def WindowLine.inAperture (w : WindowLine) (aper : List Aperture) : Bool :=
  decide (w.kind ≠ 3) || aper[w.rank]?.any fun a => decide (w.off + 2 ^ (w.size + 21) ≤ a.size)

/-- Window-table entries are written. -/
def State.writeWindows (s : State) (ws : List WindowLine) (aper : List Aperture) : State :=
  { s with mem.wtab := ws.foldl (fun t w => vset t w.index (w.entry s.ctl.scmask s.ctl.scbase aper)) s.mem.wtab }

/-- The lowest index that the check of R19 refuses, host lines against their own apertures (R195). -/
def State.linesFault (s : State) (ws : List WindowLine) (aper : List Aperture) : Option Nat :=
  let out := (ws.filter fun w => !w.inAperture aper).map (·.index)
  (s.tableFault.toList ++ out).foldl (fun best i => some (min (best.getD i) i)) none

/-- The data images of this die are written in section-table order (R199). -/
def State.writeImages (s : State) (bs : List Byte) (xs : List Section) : State :=
  xs.foldl (fun s x =>
    if x.everywhere || decide (x.rank = s.ctl.rank.toNat) then s.store x.addr (x.bytes bs) else s) s

/-- The energy registers of a launch (R313). -/
def State.launchEnergy (s : State) (j : Job) : State :=
  let e := BitVec.ofNat 64 (s.pkg.estimate j)
  let rate := BitVec.ofNat 32 (s.pkg.rate j)
  { s with ctl := { s.ctl with enacct := e, enrsv := 0, encap := e, enrate := rate } }

/-- The window lines of a job's launch block and templates (R194, R195). -/
def LaunchRec.lines (l : LaunchRec) (bs : List Byte) (ss : List Section) (kernel : Nat) : List WindowLine :=
  l.windows ++ (kernelSections ss 4 kernel).flatMap fun x => Config.parseWindows (x.bytes bs)

/-- The coordinates of a job's dies, by RANK (R156). -/
def Job.coords (j : Job) : List (BitVec 13) :=
  (List.range (2 ^ j.record.k)).map fun r => j.scbase ||| deposit j.scmask r

/-- The window table of a job, written and not locked (R16, R19). -/
def State.unlocked (s : State) (j : Job) (lsd : BitVec 13) (ws : List WindowLine) : State :=
  ({ s with
    ctl := { s.ctl with scmask := j.scmask, scbase := j.scbase, lsdmask := lsd, wtlock := false },
    mem.wtab := .replicate 2048 (0, 0), pkg.resident := some j.id } : State).writeWindows ws (s.pkg.tenant j.tenant).cfg.aper

/-- The index that the check of R19 answers on the die of lowest RANK that refuses the table: every die of a job is written the
same lines, and checks them at its own coordinate (R153, R195). -/
def State.tableRefused (s : State) (j : Job) (lsd : BitVec 13) (ws : List WindowLine) : Option Nat :=
  let t := s.unlocked j lsd ws
  j.coords.findSome? fun c => ({ t with ctl.diecoord := c } : State).linesFault ws (s.pkg.tenant j.tenant).cfg.aper

/-- The launch of a job on this die. The code store beyond the loaded code is zero after it (DESIGN CHOICE, log 50). -/
def State.launchDie (s : State) (j : Job) (l : LaunchRec) (lsd : BitVec 13) (bs : List Byte) (ss : List Section) (code : List Byte) :
    State :=
  let s := if s.pkg.lastTenant = some j.tenant then s else s.tenantClear
  let s := s.freshPorts.launchClear
  let s := { s with
    ctl := { s.ctl with
      scmask := j.scmask, scbase := j.scbase, jobid := BitVec.ofNat 32 j.id, lsdmask := lsd, rev := l.rev,
      codelim := BitVec.ofNat 20 code.length, rshwb := 0xBFD000000#36, wtlock := true },
    pkg := { s.pkg with resident := some j.id, lastTenant := some j.tenant, clearing := false } }
  let s := s.writeWindows (l.lines bs ss j.record.kernel) (s.pkg.tenant j.tenant).cfg.aper
  let s := { s with mem.loc := putBytes (clearCells s.mem.loc 0x18000000 0x80000) 0x18000000 code }
  let s := s.writeImages bs (kernelSections ss 6 j.record.kernel)
  let s := { s with mem.dram := clearCells s.mem.dram 0xBFD000000 (16 * 2 ^ j.record.k) }
  let s := l.regs.foldl (fun s x => s.land 0 x) s
  let s := match l.srseed with
    | some x => s.ctlWrite 0x002 x
    | none => s
  let s := s.launchEnergy j
  { s with
    stream := { s.stream with pc := l.entry.getD 0x18000000#64, mode := .running }, begun := [],
    refillClk := Config.refillPhase s.draws % 1024, draws := s.draws + 1 }

/-- This die lies in the sub-cube of a job. -/
def State.inCube (s : State) (j : Job) : Bool := j.holds s.ctl.diecoord

/-- A job starts on its sub-cube: this die, when it is one of the dies, is launched; a launch that fails on a die completes
with the status of the failing step, and the job starts on none (R153): of several the code's, then a data image's, then the
table's (DESIGN CHOICE, log 50). A refused table leaves WTLOCK at 0. The second component is that status, with the index that
WTLOCK reports (R19). -/
def State.launch (s : State) (j : Job) (lsd : BitVec 13) : State × Option (Byte × Option Nat) :=
  let bs := s.container j
  match containerSections bs, j.launch with
  | some ss, some l =>
    match jobCode bs ss j.record.kernel l.rev with
    | none => (s, some (0x12, none))
    | some code =>
      -- finalised code that the code store cannot hold is no code (DESIGN CHOICE, log 50)
      if !codeOk code then (s, some (0x12, none))
      else if !((kernelSections ss 6 j.record.kernel).all fun x => x.imageOk j.record.k) then (s, some (0x16, none))
      else
        let ws := l.lines bs ss j.record.kernel
        match s.tableRefused j lsd ws with
        | some i =>
          let t := s.unlocked j lsd ws
          (if s.inCube j then { s with ctl.wtlock := false, mem.wtab := t.mem.wtab } else s, some (0x10, some i))
        | none =>
        let j := { j with state := .running, peers := [], peerStop := none, dieRetries := 0, quantUsed := 0,
                          quantFrom := s.now, buddyAt := s.now, oldBase := j.scbase }
        let t : State := { s with pkg := s.pkg.setJob j }
        (if s.inCube j then t.launchDie j l lsd bs ss code else t, none)
  | _, _ => (s, some (0x16, none))

/-! ## Ends (R154, R155, R306, R311, R365) -/

/-- A package event (R354). -/
def pkgEvent (kind : Nat) (status : Byte) (job : Nat) (w16 w24 : Nat) : Event :=
  { kind := kind, b6 := status, b7 := 0, coord := 0x1FFF, job := BitVec.ofNat 16 job, b10 := 0, b12 := 0,
    w16 := BitVec.ofNat 64 w16, w24 := BitVec.ofNat 64 w24, reraise := false, flag := none,
    element := none }

/-- The event of a job's, element's or chain's end, with its completion flag. -/
def endEvent (kind : Nat) (status : Byte) (id : Nat) (seq : W32) (queue elem : Nat) (flag : Option (Nat × W64)) : Event :=
  { pkgEvent kind status id (id % 2 ^ 32 + seq.toNat * 2 ^ 32) (queue + elem * 2 ^ 16) with flag := flag }

/-- The flag of a record (R306). -/
def JobRec.flag (r : JobRec) : Option (Nat × W64) := if r.flagAddr = 0 then none else some (r.flagAddr, r.flagVal)

/-- An accepted entry has ended. -/
def State.endEntry (s : State) (q : Nat) (seq : W32) : State :=
  let x := s.pkg.queue q
  s.setQueue q { x with live := x.live.filter fun y => decide (y ≠ seq) }

/-- A queue switches out (R363): QPROG is frozen, and tail writes go to the shadow. -/
def HQueue.switchOut (x : HQueue) : HQueue := if x.out then x else { x with out := true, frozen := x.done, shadow := x.qtail }

/-- A queue switches in (R363): QTAIL takes the shadow. -/
def HQueue.switchIn (x : HQueue) : HQueue := if x.out then { x with out := false, qtail := x.shadow } else x

/-- Change every queue of a tenant. -/
def State.mapQueues (s : State) (t : Nat) (f : HQueue → HQueue) : State :=
  (s.pkg.tenant t).queues.foldl (fun s q => s.setQueue q (f (s.pkg.queue q))) s

/-- A dump of the tenant is being written. -/
def State.dumping (s : State) (t : Nat) : Bool := s.pkg.dumps.any fun d => decide (d.tenant = t) && !d.img.complete

/-- The end of a tenant reset, once no job and no chain of the tenant is left and no dump of it is being written; no pager of
it is left either (R365). -/
def State.finishReset (s : State) (t : Nat) : State :=
  let x := s.pkg.tenant t
  if x.resetting && !s.dumping t && !(s.pkg.jobs.any fun j => decide (j.tenant = t)) && !s.pkg.chains.any fun c => decide (c.tenant = t) then
    let s := s.mapQueues t fun q =>
      let q := { q with qhead := q.qtail, live := [] }
      if x.cfg.susp then q else q.switchIn
    let s := { s with pkg.images := s.pkg.images.filter fun i => decide (i.tenant ≠ t) }
    s.setTenant t { x with resetting := false, stopped := false, pagers := [] }
  else s

/-- A new waiting job. -/
def newJob (id tenant queue : Nat) (seq : W32) (r : JobRec) (arrival : Arrival) (now : Nat) (chain : Option (Nat × Nat)) : Job :=
  { id := id, tenant := tenant, queue := queue, seq := seq, record := r, cls := r.cls, arrival := arrival, passes := 0,
    agedAt := now, state := .waiting, scmask := 0, scbase := 0, oldBase := 0, quantUsed := 0, quantFrom := now, chain := chain,
    image := none, dieRetries := 0, tenantRetries := 0, buddyAt := now, peerStop := none, peers := [], launch := none,
      saved := none,
    refused := [] }

/-- A job arrives, and a placement pass is due (R308). -/
def State.addJob (s : State) (tenant queue : Nat) (seq : W32) (r : JobRec) (arrival : Arrival) (chain : Option (Nat × Nat)) : State :=
  let j := newJob s.pkg.nextJob tenant queue seq r arrival s.now chain
  { s with pkg := { s.pkg with jobs := s.pkg.jobs ++ [j], nextJob := s.pkg.nextJob + 1, passDue := some s.now } }

/-- A chain ends: its event, and its entry has ended. -/
def State.closeChain (s : State) (c : Chain) (status : Byte) : State :=
  let s := { s with pkg.chains := s.pkg.chains.filter fun x => decide (x.id ≠ c.id) }
  (s.emit c.tenant (endEvent 0x0001 status c.id c.seq c.queue 0 none)).endEntry c.queue c.seq

/-- What follows an element's end (R154): the next element, or the end of the chain. -/
def State.afterElement (s : State) (id i : Nat) (status : Byte) (optional : Bool) : State :=
  match s.pkg.chains.find? fun c => decide (c.id = id) with
  | none => s
  | some c =>
    if c.cancelled then s.closeChain c 0x03
    else if status ≠ 0 ∧ optional = false then s.closeChain c status
    else match c.elems[i + 1]? with
      | some r =>
        let c := { c with next := i + 2 }
        let s := { s with pkg.chains := s.pkg.chains.map fun (x : Chain) => if x.id = c.id then c else x }
        s.addJob c.tenant c.queue c.seq r c.arrival (some (id, i + 1))
      | none => s.closeChain c 0x00

/-- Chains whose elements' events and flags are written go on (R154). -/
def State.chainsGoOn (s : State) : State :=
  s.pkg.written.foldl (fun s (c, i, st, optional) => s.afterElement c i st optional) { s with pkg.written := [] }

/-- A job or element ends with a status (R306): its event and then its flag are written, its die is free once its engines are
done (R155), and a placement pass is due. Its chain goes on when the event and the flag are written (R154). -/
def State.closeJob (s : State) (j : Job) (status : Byte) : State :=
  let here := decide (s.pkg.resident = some j.id)
  let s := if here && s.stream.mode.programRuns && decide (s.stream.mode ≠ .fatal) then s.endProgram false else s
  -- no image is to be applied any more: the ports take a resync again (R340)
  let lone := j.saved.isSome && s.pkg.jobs.all fun x => decide (x.id = j.id) || x.saved.isNone
  let ports := if lone then s.ports.map fun p => { p with swapped := false } else s.ports
  let s := { s with ports := ports, pkg := { s.pkg with
    jobs := s.pkg.jobs.filter fun x => decide (x.id ≠ j.id), passDue := some s.now, clearing := s.pkg.clearing || here,
    resident := if here then none else s.pkg.resident,
    images := s.pkg.images.filter fun i => decide (i.jobid ≠ BitVec.ofNat 32 j.id) } }
  let s := match j.chain with
    | none => (s.emit j.tenant (endEvent 0x0001 status j.id j.seq j.queue 0 j.record.flag)).endEntry j.queue j.seq
    | some (c, i) =>
      (s.emit j.tenant { endEvent 0x0002 status j.id j.seq j.queue i j.record.flag with
        element := some (c, i, status, j.record.optional) }).chainsGoOn
  s.finishReset j.tenant

/-- A job is cancelled (R311): a waiting one is removed; the die programs of a running one end. -/
def State.cancelJob (s : State) (j : Job) : State :=
  if j.runs then
    let s := { s with pkg := s.pkg.setJob { j with state := .ended 0x03 } }
    if s.pkg.resident = some j.id ∧ s.stream.mode ≠ .fatal then s.endProgram false else s
  else match j.state with
    | .ended _ => s
    | _ => s.closeJob j 0x03

/-- A cancelled chain launches no further element (R311). -/
def State.markChain (s : State) (c : Chain) : State :=
  { s with pkg.chains := s.pkg.chains.map fun (x : Chain) => if x.id = c.id then { x with cancelled := true } else x }

/-- Every job and chain of a tenant but one is cancelled (R170, R365). -/
def State.cancelTenant (s : State) (t : Nat) (but : Option Nat) : State :=
  let mine := s.pkg.jobs.filter fun j => decide (j.tenant = t) && decide (some j.id ≠ but)
  let s := (s.pkg.chains.filter fun c => decide (c.tenant = t)).foldl State.markChain s
  mine.foldl State.cancelJob s

end Sys2Proof.Machine
end

