-- ==== Sys2Proof/Machine/Queues.lean ====
section
/-! DEFINITION. Host queues and tenants: the entries of R303 and R364, tail writes, tenant configuration and tenant reset
(R102, R302 to R305, R311, R349, R350, R357 to R365). -/

namespace Sys2Proof.Machine

/-- The tenant that a queue is assigned to (R359). -/
def State.owner (s : State) (q : Nat) : Option Nat := (List.range 16).find? fun t => (s.pkg.tenant t).queues.contains q

/-- The entry at QHEAD (R302, R362). -/
def State.entryAt (s : State) (q : Nat) : List Byte :=
  let x := s.pkg.queue q
  getBytes s.mem.host (x.qbase.toNat + 64 * (x.qhead.toNat % 2 ^ x.qlog.toNat)) 64

/-- OP of an entry (R303). -/
def entryOp (e : List Byte) : Nat := fieldAt e 4 1
/-- SEQ of an entry. -/
def entrySeq (e : List Byte) : W32 := BitVec.ofNat 32 (fieldAt e 0 4)
/-- RADDR of an entry. -/
def entryAddr (e : List Byte) : Nat := fieldAt e 8 8
/-- TSEQ or ARG of an entry (R303, R364). -/
def entryArg (e : List Byte) : Nat := fieldAt e 16 4

/-- The reserved bytes are zero and RADDR is a multiple of 64 (R303). -/
def entryOk (e : List Byte) : Bool :=
  decide (fieldAt e 5 3 = 0) && (e.drop 20).all (· == 0) && decide (entryAddr e % 64 = 0)

/-- A queue has an entry to read: it is switched in and its tenant's queues run (R362, R363, R170). -/
def State.hasEntry (s : State) (q : Nat) : Bool :=
  let x := s.pkg.queue q
  decide (q < 64) && !x.out && decide (x.qtail ≠ x.qhead) && match s.owner q with
    | some t => !(s.pkg.tenant t).stopped && !(s.pkg.tenant t).resetting
    | none => false

/-- An entry is rejected with status 0x13 (R303, R362). -/
def State.rejectEntry (s : State) (t q : Nat) (seq : W32) : State := s.emit t (pkgEvent 0x0006 0x13 0 seq.toNat q)

/-- An entry with an operation that the event's row carries out: read, numbered, and accepted or rejected (R362). `act`
answers `none` for an entry or record that breaks a limit. -/
def State.queueEvent (s : State) (mine : Nat → Bool) (act : Nat → Nat → W32 → List Byte → State → Option State) :
    Host.Outcome State Fault Refusal :=
  match s.arg with
  | .nat q =>
    match s.owner q with
    | none => .next s
    | some t =>
      let x := s.pkg.queue q
      let e := s.entryAt q
      if s.hasEntry q = false ∨ mine (entryOp e) = false then .next s
      else
        let seq := entrySeq e
        let s := s.setQueue q { x with qhead := x.qhead + 1 }
        if seq ≠ x.qacc + 1 then .next (s.rejectEntry t q seq)
        else
          let s := s.setQueue q { x with qhead := x.qhead + 1, qacc := seq }
          match (if entryOk e then act t q seq e s else none) with
          | some s => .next s
          | none => .next (s.rejectEntry t q seq)
  | _ => .next s

/-- The accepted entry has begun and has not ended. -/
def State.openEntry (s : State) (q : Nat) (seq : W32) : State :=
  let x := s.pkg.queue q
  s.setQueue q { x with live := x.live ++ [seq] }

/-- The place in the arrival order of an entry that is accepted now: the entries of one cycle come in the order of their
queues (R302). -/
def State.arrivalAt (s : State) (q : Nat) : Arrival := { cycle := s.now, queue := q, ahead := 0, count := s.pkg.arrivals + 1 }

/-- A job or chain has arrived. -/
def State.arrive (s : State) : State := { s with pkg.arrivals := s.pkg.arrivals + 1 }

/-- SUBMIT_JOB (R304); this row also rejects the entries whose operation is not listed (R303, R364). -/
def execSubmitJob (s : State) : Host.Outcome State Fault Refusal :=
  s.queueEvent (fun op => decide (op = 1) || decide (op = 0) || decide (8 ≤ op)) fun t q seq e s =>
    if entryOp e ≠ 1 then none
    else (parseRecord 1 (getBytes s.mem.host (entryAddr e) 64)).map fun r =>
      (s.openEntry q seq).arrive.addJob t q seq r (s.arrivalAt q) none

/-- SUBMIT_CHAIN (R305): the first element waits. -/
def execSubmitChain (s : State) : Host.Outcome State Fault Refusal :=
  s.queueEvent (· == 2) fun t q seq e s =>
    match parseChain s.mem.host (entryAddr e) with
    | some (r :: rs) =>
      let id := s.pkg.nextJob
      let n := s.arrivalAt q
      let c : Chain := { id := id, tenant := t, queue := q, seq := seq, elems := r :: rs, next := 1, cls := r.cls,
                         quant := r.quant, arrival := n, cancelled := false }
      let s := { s with pkg := { s.pkg with chains := s.pkg.chains ++ [c], nextJob := id + 1 } }
      some ((s.openEntry q seq).arrive.addJob t q seq r n (some (id, 0)))
    | _ => none

/-- CANCEL (R311): of a job or chain submitted by the same queue. -/
def execCancel (s : State) : Host.Outcome State Fault Refusal :=
  s.queueEvent (· == 3) fun _ q _ e s =>
    let target := BitVec.ofNat 32 (entryArg e)
    let s := (s.pkg.chains.filter fun c => decide (c.queue = q) && decide (c.seq = target)).foldl State.markChain s
    some ((s.pkg.jobs.filter fun j => decide (j.queue = q) && decide (j.seq = target)).foldl State.cancelJob s)

/-- The region of an ARG, when no other bit is set (R364). -/
def argRegion (e : List Byte) : Option Nat := if entryArg e < 128 ∧ entryAddr e = 0 then some (entryArg e) else none

/-- REGISTER_PAGER (R102, R364). -/
def execRegisterPager (s : State) : Host.Outcome State Fault Refusal :=
  s.queueEvent (· == 4) fun t _ _ e s => (argRegion e).map fun r =>
    s.editTenant t fun x => { x with pagers := if x.pagers.contains r then x.pagers else r :: x.pagers }

/-- The paged-pool entries of a region in a window table. -/
def regionEntries (tab : Vector WEntry 2048) (r : Nat) : List Nat :=
  (tab.toList.zipIdx.filter fun x => wV x.1 && decide (wKind x.1 = 4) && decide (wRegion x.1 = r)).map (·.2)

/-- Every stall of a tenant on some entries is answered REFUSE (R364, R365): at once on this die, and as pending refusals for
jobs whose scan image is written or being written (R109). -/
def State.refuseStalls (s : State) (t : Nat) (pick : Vector WEntry 2048 → List Nat) : State :=
  let hold (j : Job) : Job :=
    if j.tenant ≠ t then j
    else match j.saved with
      | some tab => { j with refused := (pick tab).filter (s.stalledIn j true) ++ j.refused }
      | none =>
        if s.pkg.resident = some j.id then
          { j with refused := (pick s.mem.wtab).filter (s.stalledIn j false) ++ j.refused }
        else j
  let s := { s with pkg.jobs := s.pkg.jobs.map hold }
  if s.pkg.residentTenant = t then (pick s.mem.wtab).foldl (fun s i => s.releaseStalls i true) s else s

/-- WITHDRAW_PAGER (R364). -/
def execWithdrawPager (s : State) : Host.Outcome State Fault Refusal :=
  s.queueEvent (· == 5) fun t _ _ e s => (argRegion e).map fun r =>
    (s.editTenant t fun x => { x with pagers := x.pagers.filter fun y => decide (y ≠ r) }).refuseStalls t (regionEntries · r)

/-! ## Dumps (R337, R349, R350, R364) -/

/-- The state that a port's record shows: of a parked port, the one it was in when it was parked (R337, R340). -/
def Port.shown (p : Port) : PortState := if p.state = .parked then p.before else p.state

/-- A port record of 16 bytes (R337), of a port as a record shows it. -/
def portRecord (p : Port) : List Byte :=
  leBytes 4 p.lsent.toNat ++ leBytes 4 p.lackd.toNat ++ leBytes 4 p.lacc.toNat ++
  [BitVec.ofNat 8 p.shown.code, BitVec.ofNat 8 ((if p.guyBefore then 1 else 0) + if p.rekey then 2 else 0)] ++
  leBytes 2 (p.lsent - p.lackd).toNat

/-- What of an image stands in its sealed form: where a copy of it is kept does not. -/
def Image.plain (i : Image) : Image := { i with complete := true, slot := 5, bytes := [], hosted := false }

/-- Header bytes [463:0] of an image (R337). -/
def Image.header (i : Image) (bodyLen : Nat) : List Byte :=
  leBytes 4 0x43564942 ++
  [BitVec.ofNat 8 i.kind, 0x01, i.step.zeroExtend 8, i.rev.zeroExtend 8, BitVec.ofNat 8 i.tenant, 0, 0, 0] ++
  leBytes 4 i.jobid.toNat ++ leBytes 2 i.coord.toNat ++ leBytes 2 i.rank.toNat ++ leBytes 2 i.scmask.toNat ++
  [i.cause, BitVec.ofNat 8 i.level] ++ leBytes 8 i.serial ++ leBytes 8 i.bpcnt.toNat ++ leBytes 8 i.cyc.toNat ++
  leBytes 8 bodyLen ++ List.replicate 8 0 ++ i.ports.toList.flatMap portRecord ++ List.replicate 192 0

/-- The whole header under a key, with its MAC (R337). -/
def Image.headerMac (i : Image) (key : List Byte) : List Byte :=
  let h := i.header (Config.imageBody i.plain).length
  h ++ (Config.hmac key h).toList

/-- The sealed form of an image or dump under a key (R337): the header, and each segment of 1 MiB of the body encrypted, with
its tag; the IV is SERIAL and the segment index, the associated data the header's first 464 bytes. -/
def Image.seal (i : Image) (key : List Byte) : List Byte :=
  let body := Config.imageBody i.plain
  let h := i.header body.length
  i.headerMac key ++ (List.range ((body.length + 2 ^ 20 - 1) / 2 ^ 20)).flatMap fun k =>
    let x := Config.gcmSeal key (leBytes 8 i.serial ++ leBytes 4 k) h ((body.drop (k * 2 ^ 20)).take (2 ^ 20))
    x.1 ++ x.2

/-- The image key (R338): tenant, ARCH, and for a scan image STEP. -/
def Pkg.imageKey (p : Pkg) (i : Image) : List Byte :=
  Config.hkdf (p.secret.getD []) ([BitVec.ofNat 8 i.tenant, 0x01] ++ if i.kind = 2 then [i.step.zeroExtend 8] else [])

/-- The dump key of a tenant for an epoch (R350). -/
def Pkg.dumpKey (p : Pkg) (t : Nat) (epoch : W64) : List Byte :=
  Config.hkdf (p.secret.getD []) (Config.identityKey ++ [BitVec.ofNat 8 t] ++ leBytes 8 epoch.toNat)

/-- A dump as its die seals it. -/
def Pkg.sealDump (p : Pkg) (d : Dump) : List Byte := d.img.seal (p.dumpKey d.tenant d.epoch)

/-- The opened form that a dump read writes: header and body (R350, R364). -/
def Pkg.openDump (p : Pkg) (d : Dump) : List Byte :=
  d.img.headerMac (p.dumpKey d.tenant d.epoch) ++ Config.imageBody d.img.plain

/-- The complete dump of a tenant that an ARG names, of the tenant's present epoch (R349, R350, R364). -/
def State.namedDump (s : State) (t arg : Nat) : Option Dump :=
  (s.pkg.dumps.filter fun d => decide (d.tenant = t) && decide (d.serial % 2 ^ 32 = arg) && d.img.complete &&
    decide (d.epoch = (s.pkg.tenant t).epoch)).getLast?

/-- READ_DUMP (R350, R364): the package opens the bytes that stand in the dump area, under the present key, and writes header
and body into the host buffer, when it lies inside an aperture and is large enough. A segment or header that is not as it was
sealed fails its tag. -/
def execReadDump (s : State) : Host.Outcome State Fault Refusal :=
  s.queueEvent (· == 6) fun t _ _ e s =>
    let a := entryAddr e
    match s.namedDump t (entryArg e) with
    | none => none
    | some d =>
      let bs := s.pkg.openDump d
      let sealed := s.pkg.sealDump d
      if getBytes s.mem.host d.addr sealed.length = sealed && (s.pkg.tenant t).cfg.aper.any fun p =>
          decide (p.size ≠ 0) && decide (p.base ≤ a) && decide (a + bs.length ≤ p.base + p.size) then
        some { s with mem.host := putBytes s.mem.host a bs }
      else none

/-! ## The event ring (R353) -/

/-- Held events are written in the order in which they met the full ring. -/
def State.flushEvents (t : Nat) : List Event → State → State
  | [], s => s
  | e :: r, s =>
    let x := s.pkg.tenant t
    if x.room then ((s.setTenant t { x with heldEvents := r }).writeEvent t e).flushEvents t r else s

/-- The ring of a tenant may have room again: held events are written, and chains whose elements ended go on (R154). -/
def State.flushRing (s : State) (t : Nat) : State :=
  ((s.flushEvents t (s.pkg.tenant t).heldEvents).chainsGoOn).finishReset t

/-- EVRD_WRITE (R353): ignored beyond EVWR; then held events are written. -/
def execEvrdWrite (s : State) : Host.Outcome State Fault Refusal :=
  match s.arg with
  | .reg t v =>
    let x := s.pkg.tenant t
    if (v - x.evrd).toNat ≤ (x.evwr - x.evrd).toNat then .next ((s.setTenant t { x with evrd := v }).flushRing t)
    else .next s
  | _ => .next s

/-! ## Registers without a row of their own (R15, R16, R32, R317, R353, R357, R367) -/

/-- A write of management: without verified firmware PF0 accepts only a new image (R367). -/
def State.managed (s : State) (f : State → State) : State := if s.pkg.verified then f s else s

/-- The far links of a port's guyline are reported (R130): when one is not UP, what the port holds for it is given up. -/
def State.farReport (s : State) (d : Nat) (up : Bool) : State :=
  let s := s.setPort d { s.port d with farUp := up }
  (if !up && (s.port d).state.detours && !s.holdsPorts then s.dropAll d else s).sweepPorts

/-- A write to a register that has no row of its own (R15). -/
def State.controlWrite (s : State) (w : CtlWrite) : State :=
  match w with
  | .codelim v => if v.toNat % 16 = 0 ∧ v.toNat ≤ 0x80000 then s.atLaunch fun c => { c with codelim := v } else s
  | .lsdmask v => s.atLaunch fun c => { c with lsdmask := v }
  | .scmask v => s.atLaunch fun c => { c with scmask := v }
  | .scbase v => s.atLaunch fun c => { c with scbase := v }
  | .diecoord v => s.atLaunch fun c => { c with diecoord := v }
  | .jobid v => s.atLaunch fun c => { c with jobid := v }
  | .rshwb v => s.atLaunch fun c => { c with rshwb := v }
  | .cecntClear => { s with ctl.cecnt := 0 }
  | .lkerrClear d => s.managed fun s => s.setPort d { s.port d with lkerr := 0 }
  | .guydim d v => s.managed fun s =>
    let e := v.toNat % 16
    let ok := v.getLsbD 4 && decide (e ≠ d) && decide (e ≤ 12)
    (s.setPort d { s.port d with guydim := BitVec.ofNat 8 (e + if ok then 16 else 0) }).sweepPorts
  | .enrate v => s.atLaunch fun c => { c with enrate := v }
  | .encap v => s.atLaunch fun c => { c with encap := v }
  | .discrdClear => s.atLaunch fun c => { c with discrd := 0 }
  | .evbase t v => if v.toNat % 32 = 0 then (s.editTenant t fun x => { x with evbase := v }).flushRing t else s
  | .evlog t v => (s.editTenant t fun x => { x with evlog := v }).flushRing t
  | .pgansWord0 t v => s.editTenant t fun x => { x with pgans0 := v }
  | .qbase t q v =>
    let x := s.pkg.queue q
    if (s.pkg.tenant t).queues.contains q = true ∧ x.qtail = x.qhead ∧ v.toNat % 4096 = 0 then s.setQueue q { x with qbase := v } else s
  | .qlog t q v =>
    let x := s.pkg.queue q
    if (s.pkg.tenant t).queues.contains q = true ∧ x.qtail = x.qhead ∧ 6 ≤ v.toNat ∧ v.toNat ≤ 16 then s.setQueue q { x with qlog := v } else s
  | .ageq n => s.managed fun s => if 1750000 ≤ n ∧ n ≤ 1750000000 then { s with pkg.ageq := n } else s
  | .peer r =>
    let p := r.coord.toNat % 8
    let lost := r.frozen && decide (r.coord.toNat / 8 = s.ctl.diecoord.toNat / 8)
    ({ s with pkg := { s.pkg with
        jobs := s.pkg.jobs.map fun j => if j.placed && j.holds r.coord then j.report r s.now else j,
        frozen := if lost then p :: s.pkg.frozen.filter fun x => decide (x ≠ p) else s.pkg.frozen } } : State).stopForPeer
  | .hostImage point bytes => s.hostImage point bytes
  | .hostedAt point => s.hostedAt point
  | .read a => { s.answerWord (s.controlRead a.toNat) with draws := s.draws + 1 }
  | .hostRead t off => s.hostRead t off
  | .hdm r => s.managed fun s => { s with pkg.hdm := r :: s.pkg.hdm.filter fun x => decide (x.base ≠ r.base) }
  | .dieReset p =>
    let w := vget s.pkg.status 0 0
    let bits : W32 := BitVec.ofNat 32 (2 ^ (8 + p) + 2 ^ (16 + p))
    if p < 8 ∧ p ≠ s.ctl.diecoord.toNat % 8 then
      { s with pkg := { s.pkg with
          status := vset (vset s.pkg.status 0 (w &&& ~~~bits)) (1 + p) 0,
          frozen := s.pkg.frozen.filter fun x => decide (x ≠ p) } }
    else s
  | .farLinks d up => s.farReport d up
  | .other _ _ => s

/-- CONTROL_PATH_REGISTER_WRITE (R15): a write that the register's table does not allow is ignored. -/
def execControlPathRegisterWrite (s : State) : Host.Outcome State Fault Refusal :=
  match s.arg with
  | .ctl w => .next (s.controlWrite w)
  | _ => .next s

/-! ## Tails, configuration and reset (R359 to R365) -/

/-- QTAIL_WRITE (R357, R361, R363): too far ahead is ignored and reported; while the queue is switched out, to the shadow. -/
def execQtailWrite (s : State) : Host.Outcome State Fault Refusal :=
  match s.arg with
  | .qtail t q v =>
    let x := s.pkg.queue q
    if s.owner q ≠ some t then .next s
    else if 2 ^ x.qlog.toNat < (v - x.qhead).toNat then .next (s.rejectEntry t q 0)
    else .next (s.setQueue q (if x.out then { x with shadow := v } else { x with qtail := v }))
  | _ => .next s

/-- Nothing but SUSP differs. -/
def TenantCfg.onlySusp (a b : TenantCfg) : Bool := decide ({ a with susp := b.susp } = b)

/-- A configuration that management may write: 4 KiB apertures, and no queue of another tenant (R359). -/
def State.cfgOk (s : State) (t : Nat) (c : TenantCfg) : Bool :=
  decide (t < 16) && decide (c.aper.length ≤ 4) &&
  (c.aper.all fun a => decide (a.base % 4096 = 0) && decide (a.size % 4096 = 0)) &&
  (List.range 16).all fun u => decide (u = t) || !(s.pkg.tenant u).used || (s.pkg.tenant u).cfg.qmask &&& c.qmask == 0

/-- TENANT_CONFIG_WRITE (R350, R359, R363): only while the tenant has no resident or waiting job, SUSP apart; an entry that
was not in use draws a new dump epoch; SUSP switches the queues. Without verified firmware it is not accepted (R367). -/
def execTenantConfigWrite (s : State) : Host.Outcome State Fault Refusal :=
  match s.arg with
  | .tcfg t c =>
    let x := s.pkg.tenant t
    let busy := s.pkg.jobs.any fun j => decide (j.tenant = t)
    if s.pkg.verified = false ∨ s.cfgOk t c = false ∨ (busy = true ∧ x.cfg.onlySusp c = false) then .next s
    else
      let inUse := decide (c.grant ≠ 0) || decide (c.qmask ≠ 0)
      let fresh := inUse && !x.used
      let y := { x with used := inUse, cfg := c, epoch := if fresh then Config.dumpEpoch s.draws else x.epoch }
      let s := { s.setTenant t y with draws := if fresh then s.draws + 1 else s.draws }
      .next (s.mapQueues t fun q => if c.susp || x.resetting then q.switchOut else q.switchIn)
  | _ => .next s

/-- A reset that no dump holds up ends every job and chain of the tenant with status 0x03, and discards its swap images with
them; then every stall is answered REFUSE and every pager is withdrawn, so that a later stall is refused at once (R102). It is
over when no job is left (R365). -/
def State.endTenant (s : State) (t : Nat) : State :=
  if s.dumping t then s
  else
    let s := s.cancelTenant t none
    let s := s.refuseStalls t fun tab => (tab.toList.zipIdx.filter fun x => wV x.1 && decide (wKind x.1 = 4)).map (·.2)
    (s.editTenant t fun x => { x with pagers := [] }).finishReset t

/-- The start of a tenant reset (R365): the queues are switched out (R363), and answers written from now on are rejected; the
rest follows once a dump that is being written is complete. -/
def State.resetTenant (s : State) (t : Nat) : State :=
  ((s.editTenant t fun x => { x with resetting := true }).mapQueues t HQueue.switchOut).endTenant t

/-- The reset of a tenant has waited for a dump, or for its jobs, and goes on. -/
def State.resetDue (s : State) (t : Nat) : Bool :=
  (s.pkg.tenant t).resetting && !s.dumping t && s.pkg.jobs.all fun j => decide (j.tenant ≠ t) || match j.state with
    | .ended _ => false
    | _ => true

/-- RESET_TENANT (R365): by a queue entry of operation 0x07 or, with verified firmware (R367), by management; a reset that
waited for a dump goes on. -/
def execResetTenant (s : State) : Host.Outcome State Fault Refusal :=
  match s.arg with
  | .resetT t none =>
    .next (if (s.pkg.tenant t).resetting then s.endTenant t
           else if (s.pkg.tenant t).used && s.pkg.verified then s.resetTenant t else s)
  | .resetT t (some q) =>
    if s.owner q ≠ some t then .next s
    else
      match ({ s with arg := .nat q } : State).queueEvent (· == 7) fun t q seq e s =>
          if entryAddr e ≠ 0 ∨ entryArg e ≠ 0 then none else some ((s.openEntry q seq).resetTenant t) with
      | .next u => .next { u with arg := s.arg }
      | x => x
  | _ => .next s

end Sys2Proof.Machine
end

