-- ==== Sys2Proof/Machine/Sched.lean ====
section
/-! DEFINITION. The package scheduler: which sub-cubes a job may take, the placement pass, aging, quanta, and the end of a
job under levels 3 and 4 (R26, R114, R155, R168 to R170, R306 to R313, R346). -/

namespace Sys2Proof.Machine

/-! ## The load-store domain (R26, R114) -/

/-- Unloaded latency of a hop along a dimension, in ns (R3). -/
def hopNs (d : Nat) : Nat := if d < 3 then 12 else if d < 7 then 35 else 90

/-- LSDMASK of a domain key on a sub-cube, when it meets R26 and R114. -/
def domainMask (mask : BitVec 13) (dom : Option (BitVec 13)) : Option (BitVec 13) :=
  match dom with
  | none => some 0
  | some d =>
    let m := deposit mask d.toNat
    if d.toNat < 2 ^ (setBits mask).length ∧ (setBits m).length ≤ 9 ∧ ((setBits m).map hopNs).sum ≤ 356 then some m else none

/-! ## Placeable sub-cubes (R155, R307, R313) -/

/-- The engines have completed what they will complete before a capture (R259, R282, R300, R331): every command, dispatched
task and access is done, every fired send, and every packet that waits to be performed; no task is ready, and no chain step is
under way. Armed sends that have not fired and unready tasks stay. -/
def State.quiet (s : State) : Bool :=
  let e := s.eng
  e.copy.toList.all (·.isEmpty) && e.issueBuf.isEmpty &&
  (e.xq.toList.all fun q => q.queue.isEmpty && q.arms.all fun c => !c.started) && e.walker.isEmpty &&
  e.snaps.isEmpty && e.matrix.toList.all (·.isEmpty) && s.stream.sram.isEmpty && s.stream.tileOps.isEmpty &&
  (e.tasks.all fun t => t.runsOn.isNone && !s.taskReady t && !s.cancelled t.num) && (e.chain.all fun c => !c.inStep) &&
  s.ports.toList.all fun p => p.rx.all fun k => decide (k.dst ≠ s.ctl.diecoord)

/-- After a job's end this die is free once its engines have completed the commands accepted before, and its results have
landed (R155; DESIGN CHOICE, log 50). -/
def State.cleared (s : State) : Bool := !s.pkg.clearing || (s.quiet && s.stream.results.isEmpty)

/-- Position 0 of this package. -/
def State.package (s : State) : Nat := s.ctl.diecoord.toNat / 8 * 8

/-- The positions of this package that lie in a sub-cube. -/
def State.positions (s : State) (mask base : BitVec 13) : List Nat :=
  (List.range 8).filter fun p => BitVec.ofNat 13 (s.package + p) &&& ~~~mask == base

/-- A die of this package is free, jobs of `freed` apart: no job holds it, and no fatal trap has frozen it (R351). -/
def State.freeDie (s : State) (freed : Option Nat) (p : Nat) : Bool :=
  let c := BitVec.ofNat 13 (s.package + p)
  (s.pkg.jobs.all fun j => !j.placed || decide (some j.id = freed) || !j.holds c) &&
  (if c ≠ s.ctl.diecoord then !s.pkg.frozen.contains p else (decide (s.stream.mode ≠ .fatal) && s.cleared))

/-- The ready bits of a die and of its links within a sub-cube are set (R366). -/
def State.readyDie (s : State) (mask : BitVec 13) (p : Nat) : Bool :=
  let w := vget s.pkg.status 0 0
  w.getLsbD (8 + p) && w.getLsbD (16 + p) && (setBits mask).all fun d => (vget s.pkg.status (1 + p) 0).getLsbD d

/-- The energy admission of this package (R313, R368): 2,600 W less 480 W. -/
def State.admits (s : State) (freed : Option Nat) (j : Job) (mask base : BitVec 13) : Bool :=
  let load := ((s.pkg.jobs.filter fun x => x.placed && decide (some x.id ≠ freed) && decide (x.id ≠ j.id)).map fun x =>
    s.pkg.rate x * (s.positions x.scmask x.scbase).length).sum
  decide ((load + s.pkg.rate j * (s.positions mask base).length) * 1750 ≤ 2120 * 1024000)

/-- The image that a job resumes from. -/
def State.imageOf (s : State) (j : Job) : Option Image :=
  j.image.bind fun (k, n) =>
    s.pkg.images.find? fun i => decide (i.kind = k) && decide (i.serial = n) && decide (i.jobid = BitVec.ofNat 32 j.id)

/-- The stepping that a job requires of its dies (R196, R307): B0 for rev 2, the image's for a scan image. -/
def State.steppingOk (s : State) (j : Job) : Bool :=
  let step := s.ctl.encrev.extractLsb' 4 4
  (match j.launch with
    | some l => decide (l.rev ≠ 2) || decide (step = 2)
    | none => true) &&
  (match s.imageOf j with
    | some i => decide (i.kind ≠ 2) || decide (i.step = step)
    | none => true)

/-- A job is placeable on a sub-cube (R307). -/
def State.placeable (s : State) (freed : Option Nat) (j : Job) (mask base : BitVec 13) : Bool :=
  ((s.positions mask base).all fun p =>
    (s.pkg.tenant j.tenant).cfg.grant.getLsbD p && s.freeDie freed p && s.readyDie mask p) &&
  s.steppingOk j && s.admits freed j mask base && (domainMask mask (j.launch.bind (·.domain))).isSome

/-- The numbers below 2^n with k bits set, ascending: every SCMASK of k dimensions among the lowest n. -/
def masksOf : Nat → Nat → List Nat
  | _, 0 => [0]
  | 0, _ + 1 => []
  | n + 1, k + 1 => masksOf n (k + 1) ++ (masksOf n k).map (2 ^ n + ·)

/-- The sub-cubes with a die in this package that a job may take: lowest SCMASK first, then lowest SCBASE; a job that resumes
keeps its SCMASK (R4, R307). -/
def State.candidates (s : State) (j : Job) : List (BitVec 13 × BitVec 13) :=
  let masks := if j.image.isSome then [j.scmask] else (masksOf 13 j.record.k).map (BitVec.ofNat 13)
  masks.flatMap fun m =>
    ((List.range 8).filter fun p => decide (p &&& m.toNat = 0)).map fun p =>
      (m, BitVec.ofNat 13 (s.package + p) &&& ~~~m)

/-- A sub-cube reaches into other packages. -/
def beyondPackage (mask : BitVec 13) : Bool := decide (8 ≤ mask.toNat)

/-- The sub-cube on which a job is placed now. Where it reaches into other packages, their schedulers have their say
(DESIGN CHOICE, log 9). -/
def State.place? (s : State) (freed : Option Nat) (j : Job) : Option (BitVec 13 × BitVec 13) :=
  (s.candidates j).find? fun c => s.placeable freed j c.1 c.2 &&
    (!beyondPackage c.1 || Config.othersPlaceable s.draws j.id c.1 c.2)

/-- The tenant is granted an aligned sub-cube of 2^k dies (R306, status 0x15). -/
def State.granted (s : State) (j : Job) : Bool :=
  (s.candidates j).any fun c =>
    ((s.positions c.1 c.2).all fun p => (s.pkg.tenant j.tenant).cfg.grant.getLsbD p) &&
    (!beyondPackage c.1 || Config.othersGrant j.tenant c.1 c.2)

/-- Some SCMASK of k bits gives a domain that meets R26 and R114; the k lowest dimensions give the shortest. -/
def domainFits (k : Nat) (dom : Option (BitVec 13)) : Bool := (domainMask (BitVec.ofNat 13 (2 ^ k - 1)) dom).isSome

/-! ## The placement pass (R308, R309) -/

/-- `a` comes before `b` in the arrival order (R302). -/
def Arrival.before (a b : Arrival) : Bool :=
  decide (a.cycle < b.cycle) || (decide (a.cycle = b.cycle) &&
    (decide (a.queue < b.queue) || (decide (a.queue = b.queue) &&
      (decide (b.ahead < a.ahead) || (decide (a.ahead = b.ahead) && decide (a.count < b.count))))))

/-- `a` comes before `b` in a pass (R308). -/
def Job.before (a b : Job) : Bool :=
  decide (a.cls < b.cls) || (decide (a.cls = b.cls) &&
    ((decide (8 ≤ a.passes) && decide (b.passes < 8)) ||
      (decide (8 ≤ a.passes) == decide (8 ≤ b.passes) && a.arrival.before b.arrival)))

/-- Insert a job in the order of R308. -/
def insertJob (a : Job) : List Job → List Job
  | [] => [a]
  | b :: r => if a.before b then a :: b :: r else b :: insertJob a r

/-- The waiting jobs. -/
def Pkg.waiting (p : Pkg) : List Job := p.jobs.filter fun j => !j.placed

/-- A blocking job bars a later arrival of its class or of a lower one (R309). -/
def State.barred (s : State) (j : Job) : Bool :=
  s.pkg.waiting.any fun b => decide (8 ≤ b.passes) && decide (b.id ≠ j.id) && decide (b.cls ≤ j.cls) &&
    b.arrival.before j.arrival

/-- The jobs that a placement passes (R309): of its class, waiting, with an earlier arrival. -/
def State.passOthers (s : State) (j : Job) : State :=
  { s with pkg.jobs := s.pkg.jobs.map fun w =>
      if !w.placed && decide (w.cls = j.cls) && w.arrival.before j.arrival then { w with passes := w.passes + 1 } else w }

/-- A job takes its sub-cube: it is launched, or its images are to be applied. -/
def State.takeCube (s : State) (j : Job) (mask base : BitVec 13) : State :=
  let j := { j with scmask := mask, scbase := base }
  if j.image.isSome then
    -- this die's table and its refusals are of no use where the job runs without it (R33)
    let j := if s.inCube j then { j with state := .placed } else { j with state := .running, saved := none, refused := [] }
    let j := { j with peers := [], quantFrom := s.now }
    ({ s with pkg := s.pkg.setJob j } : State).passOthers j
  else match s.launch j ((domainMask mask (j.launch.bind (·.domain))).getD 0) with
    | (s, none) => s.passOthers j
    | (s, some (st, i)) =>
      ({ s with pkg.answers := i.toList.map (BitVec.ofNat 64) ++ s.pkg.answers } : State).closeJob j st

/-- One waiting job in a pass: what ends it before a placement (R26, R198, R307, R313), or its placement. A container whose
launch record asks for another number of dies than the job record is refused (R194; DESIGN CHOICE, log 50). -/
def State.tryPlace (s : State) (j : Job) : State :=
  let l := match j.launch with
    | some l => some l
    | none => s.launchRec j
  match l with
  | none => s.closeJob j 0x16
  | some l =>
    let j := { j with launch := some l }
    let s : State := { s with pkg := s.pkg.setJob j }
    if j.chain.isNone ∧ l.dims ≠ j.record.k then s.closeJob j 0x16
    else if maxRate < s.pkg.rate j then s.closeJob j 0x14
    else if domainFits j.record.k l.domain = false then s.closeJob j 0x11
    else if s.granted j = false then s.closeJob j 0x15
    else
      let w := vget s.pkg.status 0 0
      if s.barred j || !w.getLsbD 0 || !w.getLsbD 2 then s
      else
        let c := s.place? none j
        let s := if 0 < j.record.k then { s with draws := s.draws + 1 } else s
        match c with
        | some (m, b) => s.takeCube j m b
        | none => s

/-- The pass over the waiting jobs of a list of ids. -/
def State.passOver : List Nat → State → State
  | [], s => s
  | id :: r, s =>
    match s.pkg.waiting.find? fun j => decide (j.id = id) with
    | some j => (s.tryPlace j).passOver r
    | none => s.passOver r

/-- A pass has something to do: it is due, or the engines of this die have finished a job's last commands (R155). It writes the
storage of this die, so it waits for the end of a freeze (R51; DESIGN CHOICE, log 7). -/
def State.passReady (s : State) : Bool := !s.frozen && (s.pkg.passDue.isSome || (s.pkg.clearing && s.cleared))

/-- PLACEMENT_PASS (R308): in every cycle in which a job arrives or ends, a swap-out completes, or a ready bit is set; one
pass takes in all that came in the cycle. -/
def execPlacementPass (s : State) : Host.Outcome State Fault Refusal :=
  if s.passReady then
    let order := s.pkg.waiting.foldl (fun l j => insertJob j l) []
    .next (({ s with pkg := { s.pkg with passDue := none, clearing := s.pkg.clearing && !s.cleared } } : State).passOver
      (order.map (·.id)))
  else .next s

/-- AGING (R310): after AGEQ a waiting job rises one class; its clock restarts. -/
def execAging (s : State) : Host.Outcome State Fault Refusal :=
  match s.arg with
  | .nat id =>
    match s.pkg.waiting.find? fun j => decide (j.id = id) with
    | some j =>
      if 0 < j.cls ∧ j.agedAt + s.pkg.ageq ≤ s.now then
        .next { s with pkg := s.pkg.setJob { j with cls := j.cls - 1, agedAt := s.now } }
      else .next s
    | none => .next s
  | _ => .next s

/-! ## Quanta and long waits (R168, R311, R342) -/

/-- The other coordinates of a job's sub-cube. -/
def State.otherDies (s : State) (j : Job) : List (BitVec 13) :=
  j.coords.filter fun c => decide (c ≠ s.ctl.diecoord) || !s.inCube j

/-- Every other die of the job reports something. -/
def State.othersReport (s : State) (j : Job) (f : PeerReport → Bool) : Bool :=
  (s.otherDies j).all fun c => j.peers.any fun r => decide (r.coord = c) && f r

/-- A job is resident on this die. -/
def State.isHere (s : State) (j : Job) : Bool := decide (s.pkg.resident = some j.id)

/-- Every die program of a job is in a long wait or has ended (R168). -/
def State.allWait (s : State) (j : Job) : Bool :=
  (!s.inCube j || s.ctl.lwstat || s.stream.mode.isEnded) && s.othersReport j fun r => r.longWait || r.ended

/-- The quantum of a job is over: it counts only while the job is resident (R311). -/
def State.quantumOver (s : State) (j : Job) : Bool := decide (j.record.quant * 1750 ≤ j.quantUsed + (s.now - j.quantFrom))

/-- A waiting job of the same or a higher class would become placeable on the dies that a swap frees (R311). -/
def State.swapHelps (s : State) (j : Job) : Bool :=
  s.pkg.waiting.any fun w => decide (w.cls ≤ j.cls) &&
    match s.place? (some j.id) w with
    | some (m, b) => (s.positions m b).any fun p => j.holds (BitVec.ofNat 13 (s.package + p))
    | none => false

/-- QUANTUM_EXPIRY (R311, R168): the job is swapped out, by a scan of its dies (R342), or runs another quantum. -/
def execQuantumExpiry (s : State) : Host.Outcome State Fault Refusal :=
  match s.arg with
  | .nat id =>
    match s.pkg.jobs.find? fun j => decide (j.id = id) with
    | some j =>
      if j.state = .running ∧ s.swapHelps j = true ∧ (s.quantumOver j = true ∨ s.allWait j = true) then
        .next { s with pkg := s.pkg.setJob { j with
          state := .swapping, quantUsed := if s.quantumOver j then 0 else j.quantUsed + (s.now - j.quantFrom),
          quantFrom := s.now } }
      else if j.state = .running ∧ s.quantumOver j = true then
        .next { s with pkg := s.pkg.setJob { j with quantUsed := 0, quantFrom := s.now } }
      else .next s
    | none => .next s
  | _ => .next s

/-! ## The end of a job (R155, R169, R170, R306, R346) -/

/-- A complete buddy image of a job on this die, with its copy in the neighbour's hosting slot (R345, R346). -/
def Image.buddyOf (i : Image) (j : Job) : Bool :=
  decide (i.kind = 3) && i.complete && i.hosted && decide (i.jobid = BitVec.ofNat 32 j.id)

/-- A buddy point is complete on every die of a job, in its own slot and in its neighbour's (R346). -/
def State.pointOk (s : State) (j : Job) (p : W64) : Bool :=
  (!s.inCube j || s.pkg.images.any fun i => i.buddyOf j && decide (i.bpcnt = p)) &&
  s.othersReport j fun r => r.points.contains p && r.hosted.contains p

/-- The highest buddy point of a job that is complete on all its dies (R346). -/
def State.buddyPoint (s : State) (j : Job) : Option W64 :=
  let points := (s.pkg.images.filter (·.buddyOf j)).map (·.bpcnt) ++ j.peers.flatMap (·.points)
  (points.filter (s.pointOk j)).foldl (fun best p => some (if (best.getD 0).toNat ≤ p.toNat then p else best.getD 0)) none

/-- This die's image of that point (R346). -/
def State.buddyImage (s : State) (j : Job) : Option Image :=
  (s.buddyPoint j).bind fun p => s.pkg.images.find? fun i => i.buddyOf j && decide (i.bpcnt = p)

/-- A die of the job is frozen by a fatal trap. -/
def State.frozenDie (s : State) (j : Job) : Bool :=
  (s.isHere j && decide (s.stream.mode = .fatal)) || j.peers.any fun r => r.frozen

/-- The die program of a job on this die ends, unless a fatal trap has frozen it. -/
def State.stopJob (s : State) (j : Job) : State :=
  if s.isHere j && s.stream.mode.programRuns && decide (s.stream.mode ≠ .fatal) then s.endProgram false else s

/-- The place at the head of a job's queue: before every job of the queue that waits (R170). -/
def State.headOfQueue (s : State) (j : Job) : Arrival :=
  (s.pkg.waiting.filter fun w => decide (w.queue = j.queue) && decide (w.id ≠ j.id)).foldl
    (fun a w => if a.before w.arrival then a else { w.arrival with ahead := w.arrival.ahead + 1 }) j.arrival

/-- Level 4 (R170): the tenant's policy on a failed job. Under retry every die program ends and the job is queued again. -/
def State.levelFour (s : State) (j : Job) : State :=
  let pol := (s.pkg.tenant j.tenant).cfg.pol4
  if pol = 1 ∧ j.tenantRetries < 3 then
    let j' := { newJob j.id j.tenant j.queue j.seq j.record (s.headOfQueue j) s.now j.chain with
      tenantRetries := j.tenantRetries + 1, launch := j.launch }
    let s := s.stopJob j
    { s with pkg := { s.pkg.setJob j' with
        images := s.pkg.images.filter fun i => decide (i.jobid ≠ BitVec.ofNat 32 j.id),
        resident := if s.isHere j then none else s.pkg.resident, clearing := s.pkg.clearing || s.isHere j,
        passDue := some s.now } }
  else
    let s := s.closeJob j 0x02
    if pol = 2 ∨ pol = 3 then
      (s.cancelTenant j.tenant none).editTenant j.tenant fun x => { x with stopped := true }
    else s

/-- Level 3 (R170), with a die of the job frozen: `none` while the job goes on. -/
def State.levelThree (s : State) (j : Job) : Option State :=
  match j.record.pol3.toNat with
  | 0 => none
  | 1 => if (s.buddyPoint j).isNone then some (s.closeJob j 0x02) else none
  | 2 => some (s.closeJob j 0x02)
  | _ => some (s.levelFour j)

/-- Every die program of a job has ended (R155): a frozen die counts as ended, though not by END, also once it is reset. -/
def State.allEnded (s : State) (j : Job) : Bool :=
  (!s.inCube j || !s.isHere j || s.stream.mode.isEnded || decide (s.stream.mode = .fatal)) &&
    s.othersReport j fun r => r.ended || r.frozen

/-- Every die program ended by END (R155). -/
def State.allByEnd (s : State) (j : Job) : Bool :=
  (!s.inCube j || (s.isHere j && decide (s.stream.mode = .ended true))) &&
    s.othersReport j fun r => r.ended && r.endedByEnd && !r.frozen

/-- The end of a job, where its end has come (R155, R170, R306). -/
def State.endJob (s : State) (j : Job) : Option State :=
  match j.state with
  | .ended st => some (s.closeJob j st)
  | .awaitDie _ => if (s.buddyPoint j).isNone then some (s.closeJob j 0x02) else none
  | _ =>
    if j.runs = false then none
    else match (if s.frozenDie j then s.levelThree j else none) with
      | some t => some t
      | none =>
        if s.allEnded j && !(s.frozenDie j && decide (j.record.pol3 = 1)) then
          some (s.closeJob j (if s.allByEnd j then 0x00 else 0x01))
        else none

/-- JOB_END (R306): when all die programs have ended, or level 3 ends the job; the event, then the flag. -/
def execJobEnd (s : State) : Host.Outcome State Fault Refusal :=
  match s.arg with
  | .nat id =>
    match s.pkg.jobs.find? fun j => decide (j.id = id) with
    | some j => .next ((s.endJob j).getD s)
    | none => .next s
  | _ => .next s

end Sys2Proof.Machine
end

