-- ==== Sys2Proof/Machine/Images.lean ====
section
/-! DEFINITION. Stops, images and recovery: drain requests, scans, captures, resumes, buddy points, dumps, and the return of
a faulted die (R33, R109, R158, R330 to R346, R348, R351, R352). -/

namespace Sys2Proof.Machine

/-! ## Stops (R330, R331, R333, R334) -/

/-- A capture begins: the ports park, and the image takes the next SERIAL (R336, R337, R339). -/
def State.takeImage (s : State) (kind : Nat) : State :=
  let img := s.capture kind 0 0
  let s := s.parkAll
  { s with pkg := { s.pkg with serial := img.serial, images := s.pkg.images ++ [img] } }

/-- The quantum clock stops while a job is not resident; a quantum that is over is not carried on (R311). -/
def Job.stopClock (j : Job) (now : Nat) : Job :=
  if j.state = .swapping then j
  else
    let used := j.quantUsed + (now - j.quantFrom)
    { j with quantUsed := if j.record.quant * 1750 ≤ used then 0 else used, quantFrom := now }

/-- The scheduler may swap a job out (R168, R311): its quantum has expired or every die program of it waits or has ended, and
a waiting job would become placeable. -/
def State.swapDue (s : State) (j : Job) : Bool := (s.quantumOver j || s.allWait j) && s.swapHelps j

/-- DRAIN_REQUEST (R330): the scheduler sets TSTAT [8], for a swap that it may make (R168). -/
def execDrainRequest (s : State) : Host.Outcome State Fault Refusal :=
  match s.pkg.residentJob with
  | some j =>
    if j.state = .running ∧ s.swapDue j = true then
      .next { s with ctl.drainReq := true, pkg := s.pkg.setJob { j with state := .draining s.now } }
    else .next s
  | none => .next s

/-- A die of the job that takes part in a capture no more: it has stopped, or its program has ended. -/
def PeerReport.still (r : PeerReport) : Bool := r.ended || r.stopped

/-- IMAGE_CAPTURE (R331, R345): this die has stopped and is quiet, and every other die of the job has stopped, for a buddy
image at the same number. -/
def execImageCapture (s : State) : Host.Outcome State Fault Refusal :=
  match s.pkg.residentJob, s.stream.mode with
  | some j, .imageStop kind _ =>
    let there (r : PeerReport) : Bool := r.still && (r.ended || decide (kind ≠ 3) || decide (r.bpcnt = s.ctl.bpcnt))
    if s.quiet && decide (s.eng.freeze = 0) && !s.capturing && s.othersReport j there then
      let s := s.takeImage kind
      .next (if kind = 3 then s else { s with pkg := s.pkg.setJob { j.stopClock s.now with state := .swapping } })
    else .next s
  | _, _ => .next s

/-- The scan clock stops in this cycle and a bivouac image is taken (R334). -/
def State.scanNow (s : State) (j : Job) : State :=
  let s := s.lanternC 0x07 0x3 (pair32 (codeOff s.stream.pc) 0)
  let s := s.takeImage 2
  { s with stream.mode := .scanStop, pkg := s.pkg.setJob { j.stopClock s.now with state := .swapping } }

/-- The die's scan clock runs and can be stopped. -/
def State.canScan (s : State) : Bool :=
  !s.capturing && s.stream.mode.programRuns && decide (s.stream.mode ≠ .fatal) && decide (s.stream.mode ≠ .scanStop) &&
    decide (s.stream.mode ≠ .sdump) || (!s.capturing && s.stream.mode.isEnded)

/-- SCAN_STOP (R334, R342): in any cycle, of a job that is swapped out or may be (R168). -/
def execScanStop (s : State) : Host.Outcome State Fault Refusal :=
  match s.pkg.residentJob with
  | some j =>
    let due := decide (j.state = .swapping) || (decide (j.state = .running) && s.swapDue j)
    .next (if s.canScan && due then s.scanNow j else s)
  | none => .next s

/-- DRAIN_ESCALATION (R333, R342): not captured within 200 µs of the request. -/
def execDrainEscalation (s : State) : Host.Outcome State Fault Refusal :=
  match s.pkg.residentJob with
  | some j =>
    match j.state with
    | .draining since =>
      let stopped := match s.stream.mode with
        | .imageStop _ _ => s.quiet
        | _ => false
      .next (if decide (since + 350000 ≤ s.now) && s.canScan && !stopped then s.scanNow j else s)
    | _ => .next s
  | none => .next s

/-! ## Captures complete (R336, R343, R345) -/

/-- An image event of a job (R354); management sees it (R358). -/
def State.imageEvent (s : State) (j : Job) (kind : Nat) (what : Byte) (serial : Nat) : State :=
  s.emit j.tenant { s.dieEvent 0x0007 (BitVec.ofNat 8 kind) what 0 0 (BitVec.ofNat 64 serial) 0 with
    job := BitVec.ofNat 16 j.id }

/-- The sealed form of an image as a slot of 400 MiB holds it (R337, R343). -/
def Pkg.sealImage (p : Pkg) (i : Image) : List Byte := (i.seal (p.imageKey i)).take (400 * 2 ^ 20)

/-- The slot that an image is written into (R343, R345): a swap image the swap slot, a buddy image the free or older one of its
two. -/
def Pkg.imageSlot (p : Pkg) (kind : Nat) : Nat :=
  if kind ≠ 3 then 4
  else match p.images.filter fun i => decide (i.slot < 2) with
    | [] => 0
    | [i] => 1 - i.slot
    | i :: r => (r.foldl (fun a b => if b.serial < a.serial then b else a) i).slot

/-- An image fills a slot; the swap image that was there stays with the package (DESIGN CHOICE,
log 50), and a buddy image that was there is gone. -/
def Pkg.fillSlot (p : Pkg) (i : Image) : List Image :=
  p.images.filterMap fun x =>
    if x.serial = i.serial then some i
    else if x.slot = i.slot then (if i.slot = 4 then some { x with slot := 5 } else none)
    else some x

/-- An image is written sealed into the image area, and is complete (R336, R343). Its port records show the counts that the
neighbours answered (R339). -/
def State.writeImage (s : State) (i : Image) : State :=
  let i := { i with complete := true, slot := s.pkg.imageSlot i.kind, ports := s.portRecords }
  let bytes := s.pkg.sealImage i
  ({ s with pkg.images := s.pkg.fillSlot { i with bytes := bytes } } : State).storeDram (slotBase i.slot) bytes

/-- Of a job the latest drain and the latest scan image stay, and its buddy images. -/
def keepImages (is : List Image) (jobid : W32) : List Image :=
  let last (k : Nat) : List Nat :=
    (((is.filter fun i => decide (i.jobid = jobid) && i.complete && decide (i.kind = k)).map (·.serial)).getLast?).toList
  is.filter fun i => decide (i.jobid ≠ jobid) || !i.complete || decide (i.kind = 3) || (last 1 ++ last 2).contains i.serial

/-- The control stream, engines and timelines of a die that a job leaves; a frozen die stays frozen, and a freeze that no scan
image has recorded goes on (R51). WTLOCK falls back to 0 here, and after a job's end with the next launch (R16, R32; DESIGN
CHOICE, log 50). -/
def State.vacate (s : State) : State :=
  if s.stream.mode = .fatal then s
  else
    let left := if s.stream.mode = .scanStop then 0 else s.eng.freeze
    { s with
      stream := Stream.clear, eng := { Engines.clear with freeze := left }, lines := .replicate 11 Timeline.clear,
      ctl.wtlock := false }

/-- A job that is swapped out waits, with the image that it resumes from (R311). -/
def Job.out (j : Job) (kind serial now : Nat) : Job :=
  { j with state := .waiting, image := some (kind, serial), oldBase := j.scbase, passes := 0, agedAt := now, peers := [] }

/-- A swap-out is complete: the job waits with its image and its window table, and the die is free (R109, R311). The image holds
what the parked ports held (R149). -/
def State.swapOut (s : State) (j : Job) (kind serial : Nat) : State :=
  let j := { j.out kind serial s.now with saved := some s.mem.wtab, dieRetries := s.stream.retries }
  ({ s with
    ports := s.ports.map fun p => if p.state = .parked then { p with rx := [], swapped := true } else p,
    pkg := { s.pkg.setJob j with resident := none, passDue := some s.now } } : State).vacate

/-- A buddy point is over: what was reported about it counts no more. -/
def Job.pointOver (j : Job) : Job :=
  { j with peerStop := none, peers := j.peers.map fun r => { r with stopped := false } }

/-- CAPTURE_COMPLETE (R336): a sealed image is in the image area. After a buddy point issue resumes (R345); otherwise, once
every die of the job has been captured (R168), the swap-out is complete. `two id 0` is the swap-out of a job that holds other
dies of the package only. -/
def execCaptureComplete (s : State) : Host.Outcome State Fault Refusal :=
  match s.arg with
  | .nat n =>
    match s.pkg.images.find? (fun i => decide (i.serial = n) && !i.complete && decide (i.jobid = s.ctl.jobid)),
        s.pkg.residentJob with
    | some i, some j =>
      let s := s.parkRest
      if s.portsParked = false ∨ (i.kind ≠ 3 ∧ s.othersReport j PeerReport.still = false) then .next s
      else
        let s := s.writeImage i
        let s := ({ s with pkg.images := keepImages s.pkg.images i.jobid } : State).imageEvent j i.kind 0 n
        if i.kind = 3 then
          .next ({ s with stream.mode := .running, pkg := s.pkg.setJob j.pointOver } : State).unparkAll
        else .next (s.swapOut j i.kind n)
    | _, _ => .next s
  | .two id 0 =>
    match s.pkg.jobs.find? fun j => decide (j.id = id) with
    | some j =>
      if j.state = .swapping ∧ s.isHere j = false ∧ s.othersReport j PeerReport.still = true then
        .next { s with pkg := { s.pkg.setJob { j.out 2 0 s.now with saved := none } with passDue := some s.now } }
      else .next s
    | none => .next s
  | _ => .next s

/-! ## Resume (R33, R109, R158, R338, R340, R341) -/

/-- A peer entry at its new coordinate (R33). -/
def moveEntry (old base : BitVec 13) (e : WEntry) : WEntry :=
  if wV e && (decide (wKind e = 1) || decide (wKind e = 2)) then
    (e.1, e.2 ^^^ ((old ^^^ base).zeroExtend 64 <<< 48))
  else e

/-- The image of a job was captured on another die: this one was not in its sub-cube then. -/
def State.foreign (s : State) (j : Job) : Bool := s.ctl.diecoord &&& ~~~j.scmask != j.oldBase

/-- Cells in canonical form. -/
def tidyCells {w : Nat} (l : List (Nat × BitVec w)) : List (Nat × BitVec w) := l.foldl (fun m c => cellPut m c.1 c.2) []

/-- An image that comes from another die for a job: a free value, of the recorded kind, for this job and its shape, its stores in
canonical form (R158, R341). -/
def Image.forJob (i : Image) (j : Job) (kind : Nat) : Image :=
  { i with
    kind := kind, jobid := BitVec.ofNat 32 j.id, complete := true, slot := 5, scmask := j.scmask,
    ctl := { i.ctl with scmask := j.scmask, jobid := BitVec.ofNat 32 j.id }, loc := tidyCells i.loc,
    tiles := { i.tiles with
      bytes := tidyCells i.tiles.bytes, active := tidyCells i.tiles.active, shadow := tidyCells i.tiles.shadow,
      acc := tidyCells i.tiles.acc } }

/-- The image passes the checks of R338: what its slot holds, or the package, opens under the present image secret, and
tenant and stepping agree. -/
def State.imageOk (s : State) (j : Job) (i : Image) : Bool :=
  let x := s.pkg.sealImage i
  let held := if i.slot < 5 then getBytes s.mem.dram (slotBase i.slot) x.length else i.bytes
  (held == x) && i.complete && decide (i.tenant = j.tenant) &&
    (decide (i.kind ≠ 2) || decide (i.step = s.ctl.encrev.extractLsb' 4 4))

/-- A port takes its record, its replay buffer and what it had accepted from the image, and resyncs (R340). A port that was not
parked had nothing to hold. -/
def State.resumePort (s : State) (i : Image) (d : Nat) : State :=
  let p := s.port d
  let q := vget i.ports d Port.clear
  if q.state ≠ .parked then (if p.state = .parked then s.retrain d else s)
  else
    let r := { p with
      swapped := false, owes := false, lsent := q.lsent, lackd := q.lackd, lacc := q.lacc, replay := q.replay,
      waiting := q.waiting, rx := q.rx, guyLast := q.guyLast, rekey := q.rekey, before := q.before, guyBefore := q.guyBefore }
    if p.state = .parked ∨ p.state = .up ∨ p.state = .stopped then
      ((s.setPort d r).portState d .parked).resync d (decide (i.coord ≠ s.ctl.diecoord))
    else s.setPort d { r with rekey := false, guyLast := none, resync := true }

/-- A copy that waits at a page can go on: its entry is resident, or it reads a page that is no longer absent (R98). -/
def State.canGoOn (s : State) (c : CopyCmd) : Bool :=
  let st := wState (s.wentry c.stallAt)
  decide (st = 0) || (decide (c.stallCause = 1) && decide (st ≠ 1))

/-- Stalled copies of a resumed die (R108, R109): those with a pending refusal end with "page unavailable", and complete, by
turns of their own once no freeze is left and their acknowledgements have come (R51, R139), before any block moves. A block whose
page lets it move is tried again, and the others stay stalled without a second record. -/
def State.resumeStalls (s : State) (refused : List Nat) : State :=
  let s := refused.foldl (fun s i => s.releaseStalls i true) s
  let next (c : CopyCmd) : CopyCmd :=
    if c.stalled && decide (c.status = some 0x11) then { c with stallCause := 0 }
    else if c.stalled && c.status.isNone && s.canGoOn c then { c with stalled := false }
    else c
  { s with eng.copy := s.eng.copy.map fun q => q.map next }

/-- The window table that the runtime writes at a resume (R16, R33): the job's, with its peer entries moved. -/
def State.resumeTable (s : State) (j : Job) : Vector WEntry 2048 :=
  match j.saved with
  | some t => t.map (moveEntry j.oldBase j.scbase)
  | none => if s.foreign j then (Config.foreignTable s.draws).map (moveEntry j.oldBase j.scbase) else s.mem.wtab

/-- A job waits for a frozen die (R346). -/
def Job.awaits (j : Job) : Bool :=
  match j.state with
  | .awaitDie _ => true
  | _ => false

/-- The level 2 retries that this die has counted so far in the launch of its job: live until the job leaves it or it is reset
(R171). -/
def State.countedRetries (s : State) (j : Job) : Nat :=
  if s.isHere j ∧ s.stream.mode ≠ .idle then s.stream.retries else j.dieRetries

/-- The level 2 retries from which a resumed die counts on (R171); another die's come with its image. -/
def State.retriesOf (s : State) (j : Job) (i : Image) : Nat :=
  if s.foreign j then i.stream.retries else s.countedRetries j

/-- A buddy image that a reset die takes from its dimension-0 neighbour stands in its own slot again (R346). -/
def State.fetchImage (s : State) (i : Image) : State :=
  if i.kind = 3 ∧ i.slot = 5 then
    let i := { i with slot := s.pkg.imageSlot 3 }
    ({ s with pkg.images := s.pkg.fillSlot i } : State).storeDram (slotBase i.slot) i.bytes
  else s

/-- An image is applied whole (R341), after the window table has passed its check; a refused table leaves WTLOCK at 0 (R19). -/
def State.applyImage (s : State) (j : Job) (i : Image) : State :=
  let tab := s.resumeTable j
  let n := s.retriesOf j i
  let t := if s.pkg.lastTenant = some j.tenant then s else s.tenantClear
  let t := t.fetchImage i
  let again := if i.kind = 2 ∧ i.ctl.drainReq = true then JobState.draining s.now else .running
  let j' := { j with state := again, image := none, saved := none, refused := [], quantFrom := s.now, peerStop := none,
                     oldBase := j.scbase }
  let t := { t with pkg := { t.pkg.setJob j' with resident := some j.id, lastTenant := some j.tenant, clearing := false } }
  let t := t.restore i s.now
  let t := { t with
    ctl := { t.ctl with scbase := j.scbase, codelim := i.ctl.codelim, rshwb := 0xBFD000000#36, wtlock := true },
    mem := { t.mem with wtab := tab, loc := i.loc }, stream := { t.stream with retries := n } }
  match t.tableFault with
  | some k => ({ s with ctl.wtlock := false, mem.wtab := tab } : State).answerWord (BitVec.ofNat 64 k) |>.closeJob j 0x10
  | none =>
    let t := (List.range 13).foldl (fun s d => s.resumePort i d) t
    let t := t.lanternC 0x07 0x4 (pair32 (codeOff t.stream.pc) 0)
    (t.resumeStalls j.refused).imageEvent j i.kind 1 i.serial

/-- The image is refused (R338): reported, and the job falls back to its latest drain image; without one it has failed. -/
def State.refuseImage (s : State) (j : Job) (kind serial : Nat) : State :=
  let s := s.imageEvent j kind 2 serial
  let back := (s.pkg.images.filter fun i => decide (i.kind = 1) && i.complete && decide (i.serial ≠ serial) &&
    decide (i.jobid = BitVec.ofNat 32 j.id)).getLast?
  match back with
  | some i =>
    let left := s.pkg.images.filter fun (x : Image) => decide (x.serial ≠ serial)
    let j := { j with image := some (1, i.serial), state := .placed, saved := some (s.resumeTable j), oldBase := j.scbase,
                      dieRetries := s.countedRetries j }
    { s with pkg := { s.pkg.setJob j with images := left, resident := if s.isHere j then none else s.pkg.resident } }
  | none => s.closeJob j 0x02

/-- This die can take an image again: it is not frozen, and its self-test and training bits are set (R346). -/
def State.returned (s : State) : Bool :=
  let w := vget s.pkg.status 0 0
  let p := s.ctl.diecoord.toNat % 8
  decide (s.stream.mode ≠ .fatal) && w.getLsbD (8 + p) && w.getLsbD (16 + p)

/-- It takes one now: the end of a freeze comes first (R51; DESIGN CHOICE, log 7). -/
def State.takesImage (s : State) : Bool := s.returned && !s.frozen

/-- The image that a placed job resumes from: this die's own, or another die's. -/
def State.resumeImage (s : State) (j : Job) : Option Image :=
  if s.foreign j then j.image.bind fun (k, _) => (Config.foreignImage s.draws).map (·.forJob j k) else s.imageOf j

/-- A job resumes from an image, or the image is refused. -/
def State.resumeFrom (s : State) (j : Job) (img : Option Image) : State :=
  match img with
  | some i => if s.imageOk j i then s.applyImage j i else s.refuseImage j i.kind i.serial
  | none => match j.image with
    | some (k, n) => s.refuseImage j k n
    | none => s

/-- RESUME (R341): of a placed job from the image recorded for it, or, under level 3 retry, of a job whose faulted die has
returned, from its buddy image (R346). -/
def execResume (s : State) : Host.Outcome State Fault Refusal :=
  match s.arg with
  | .nat id =>
    match s.pkg.jobs.find? fun j => decide (j.id = id) with
    | none => .next s
    | some j =>
      match j.state with
      | .placed =>
        .next (if s.inCube j && s.takesImage && s.pkg.resident.isNone then
          { s.resumeFrom j (s.resumeImage j) with draws := s.draws + 2 } else s)
      | .awaitDie _ =>
        .next (if s.isHere j && s.takesImage && !j.peers.any fun r => r.frozen then s.resumeFrom j (s.buddyImage j) else s)
      | _ => .next s
  | _ => .next s

/-! ## Buddy points (R344, R345) -/

/-- BUDTGT_SET (R344): once in every BUDDY interval, one above the highest BPCNT among the job's dies. -/
def execBudtgtSet (s : State) : Host.Outcome State Fault Refusal :=
  match s.pkg.residentJob with
  | some j =>
    if j.record.buddy ≠ 0 ∧ j.state = .running ∧ j.buddyAt + j.record.buddy * 1750000 ≤ s.now then
      let top := j.peers.foldl (fun n r => max n r.bpcnt.toNat) s.ctl.bpcnt.toNat
      .next { s with ctl.budtgt := BitVec.ofNat 64 (top + 1), pkg := s.pkg.setJob { j with buddyAt := s.now } }
    else .next s
  | none => .next s

/-- A buddy point has waited 200 µs since the first stop of a die of the job, and not all have stopped (R345): `own` is this
die's stop. -/
def State.pointLate (s : State) (j : Job) (own : Option Nat) : Bool :=
  let first := match own, j.peerStop with
    | some a, some b => some (min a b)
    | some a, none => some a
    | none, x => x
  !s.capturing && (first.any fun t => decide (t + 350000 ≤ s.now)) && !(own.isSome && s.othersReport j PeerReport.still)

/-- BUDDY_POINT_ABANDON (R345): some die has not stopped within 200 µs of the first stop; every die resumes. -/
def execBuddyPointAbandon (s : State) : Host.Outcome State Fault Refusal :=
  match s.pkg.residentJob with
  | some j =>
    let give : State := { s with ctl.budtgt := 0, pkg := s.pkg.setJob j.pointOver }
    match s.stream.mode with
    | .imageStop 3 since => .next (if s.pointLate j (some since) then { give with stream.mode := .running } else s)
    | .running => .next (if s.ctl.budtgt ≠ 0 ∧ s.pointLate j none = true then give else s)
    | _ => .next s
  | none => .next s

/-! ## Dumps and the return of a faulted die (R346, R348, R351, R352) -/

/-- A dump of a running die waits until its ports are parked (R352). -/
def State.dumpWaits (s : State) (d : Dump) : Bool :=
  decide (d.img.kind = 5) && decide (s.stream.mode = .sdump) && !s.portsParked

/-- DUMP_COMPLETE (R348, R352): the sealed dump is in the tenant's dump area; the fatal-trap event is emitted, or after SDUMP
the ports resync and the die goes on. -/
def execDumpComplete (s : State) : Host.Outcome State Fault Refusal :=
  match s.arg with
  | .nat n =>
    match s.pkg.dumps.find? fun d => decide (d.serial = n) && !d.img.complete with
    | none => .next s
    | some d =>
      let s := if s.stream.mode = .sdump then s.parkRest else s
      if s.dumpWaits d then .next s
      else
        let ports := if d.img.kind = 5 then s.portRecords else d.img.ports
        let d := { d with img := { d.img with complete := true, ports := ports } }
        let bytes := (s.pkg.sealDump d).take (s.pkg.tenant d.tenant).cfg.dumpa.size
        let s := { s with
          mem.host := putBytes s.mem.host d.addr bytes, pkg.dumps := s.pkg.dumps.map fun x => if x.serial = n then d else x }
        if d.img.kind = 5 then
          .next (if s.stream.mode = .sdump then (({ s with stream.mode := .running } : State).resyncAll false).dueStop else s)
        else .next (if d.img.level = 3 then s.fatalEvent d.tenant d.img.cause (some n) else s)
  | _ => .next s

/-- The window table of a job that leaves this die is kept for its resume (R33). -/
def State.keepTable (s : State) (j : Job) : Job :=
  if s.isHere j then { j with saved := some (j.saved.getD s.mem.wtab), oldBase := j.scbase, dieRetries := s.countedRetries j }
  else j

/-- DIE_RESET (R346, R351): after its dump a frozen die is reset: it is cleared, its ports are DOWN, and its ready bits
clear (R125, R366). A job that waits for it keeps its window table, and of its buddy images those that the neighbour holds. -/
def execDieReset (s : State) : Host.Outcome State Fault Refusal :=
  if s.stream.mode ≠ .fatal ∨ (s.pkg.dumps.any fun d => !d.img.complete) = true then .next s
  else
    let p := s.ctl.diecoord.toNat % 8
    let w := vget s.pkg.status 0 0
    let bits : W32 := BitVec.ofNat 32 (2 ^ (8 + p) + 2 ^ (16 + p))
    let st := vset (vset s.pkg.status 0 (w &&& ~~~bits)) (1 + p) 0
    let images := s.pkg.images.filterMap fun i =>
      if i.kind ≠ 3 then some i else if i.hosted then some { i with slot := 5 } else none
    let jobs := s.pkg.jobs.map fun j => if j.awaits then s.keepTable j else j
    let resident := if s.pkg.residentJob.any Job.awaits then s.pkg.resident else none
    let s := s.launchClear
    .next { s with
      eng := Engines.clear, mem := { s.mem with loc := [], undoDram := [] },
      ports := s.ports.map fun q => { Port.clear with farUp := q.farUp },
      pkg := { s.pkg with status := st, images := images, jobs := jobs, resident := resident, clearing := false } }

/-- DIE_RETURN_TIMEOUT (R346): the faulted die has not returned within 4 s: the job resumes on another sub-cube of its shape,
which passes the waiting jobs of its class that arrived before it; behind a blocking one it waits with its image (R309).
Without a sub-cube or an image it ends with "failed". -/
def execDieReturnTimeout (s : State) : Host.Outcome State Fault Refusal :=
  match s.arg with
  | .nat id =>
    match s.pkg.jobs.find? fun j => decide (j.id = id) with
    | none => .next s
    | some j =>
      match j.state with
      | .awaitDie since =>
        let back := !(s.isHere j && !s.returned) && !j.peers.any fun r => r.frozen
        if s.now < since + 7000000000 ∨ back = true then .next s
        else
          let j' := { s.keepTable j with image := some (3, ((s.buddyImage j).map (·.serial)).getD 0), oldBase := j.scbase }
          let gone (t : State) : State := if s.isHere j then ({ t with pkg.resident := none } : State).vacate else t
          if (s.buddyPoint j).isSome = true ∧ s.barred j = true then
            .next (gone { s with pkg := { s.pkg.setJob { j' with state := .waiting, passes := 0, agedAt := s.now, peers := [] } with
              passDue := some s.now } })
          else
            match (if (s.buddyPoint j).isSome then s.place? (some j.id) j' else none) with
            | some (m, b) =>
              let j' := { j' with scmask := m, scbase := b, peers := [], quantFrom := s.now }
              let j' := if s.inCube j' then { j' with state := .placed }
                else { j' with state := .running, saved := none, refused := [] }
              .next (gone { s with draws := s.draws + 1, pkg := s.pkg.setJob j' } |>.passOthers j')
            | none => .next (({ s with draws := s.draws + 1 } : State).closeJob j 0x02)
      | _ => .next s
  | _ => .next s

end Sys2Proof.Machine
end

