-- ==== Sys2Proof/Machine/Dispatch.lean ====
section
/-! DEFINITION. One arm for each row of the opcode table: a direct call of its meaning, or a refusal by name. -/

namespace Sys2Proof.Machine

def exec (i : Instr) (s : State) : Host.Outcome State Fault Refusal :=
  match i with
  | .extHdr z y x => Sys2Proof.Machine.execExtHdr z y x s
  | .repeatPfx c x y v w => Sys2Proof.Machine.execRepeatPfx c x y v w s
  | .lbmark l p => Sys2Proof.Machine.execLbmark l p s
  | .nop g => Sys2Proof.Machine.execNop g s
  | .add g d a b => Sys2Proof.Machine.execAdd g d a b s
  | .sub g d a b => Sys2Proof.Machine.execSub g d a b s
  | .and g d a b => Sys2Proof.Machine.execAnd g d a b s
  | .or g d a b => Sys2Proof.Machine.execOr g d a b s
  | .xor g d a b => Sys2Proof.Machine.execXor g d a b s
  | .andn g d a b => Sys2Proof.Machine.execAndn g d a b s
  | .shl g d a b => Sys2Proof.Machine.execShl g d a b s
  | .shr g d a b => Sys2Proof.Machine.execShr g d a b s
  | .sar g d a b => Sys2Proof.Machine.execSar g d a b s
  | .ror g d a b => Sys2Proof.Machine.execRor g d a b s
  | .min g d a b => Sys2Proof.Machine.execMin g d a b s
  | .minN g d a b => Sys2Proof.Machine.execMinN g d a b s
  | .max g d a b => Sys2Proof.Machine.execMax g d a b s
  | .maxN g d a b => Sys2Proof.Machine.execMaxN g d a b s
  | .mul g d a b => Sys2Proof.Machine.execMul g d a b s
  | .mulh g d a b => Sys2Proof.Machine.execMulh g d a b s
  | .mulhN g d a b => Sys2Proof.Machine.execMulhN g d a b s
  | .madd g d a b c => Sys2Proof.Machine.execMadd g d a b c s
  | .div g d a b => Sys2Proof.Machine.execDiv g d a b s
  | .divN g d a b => Sys2Proof.Machine.execDivN g d a b s
  | .rem g d a b => Sys2Proof.Machine.execRem g d a b s
  | .remN g d a b => Sys2Proof.Machine.execRemN g d a b s
  | .sextB g d a => Sys2Proof.Machine.execSextB g d a s
  | .sextH g d a => Sys2Proof.Machine.execSextH g d a s
  | .sextW g d a => Sys2Proof.Machine.execSextW g d a s
  | .zextB g d a => Sys2Proof.Machine.execZextB g d a s
  | .zextH g d a => Sys2Proof.Machine.execZextH g d a s
  | .zextW g d a => Sys2Proof.Machine.execZextW g d a s
  | .popc g d a => Sys2Proof.Machine.execPopc g d a s
  | .clz g d a => Sys2Proof.Machine.execClz g d a s
  | .ctz g d a => Sys2Proof.Machine.execCtz g d a s
  | .addi g d a imm => Sys2Proof.Machine.execAddi g d a imm s
  | .andi g d a imm => Sys2Proof.Machine.execAndi g d a imm s
  | .ori g d a imm => Sys2Proof.Machine.execOri g d a imm s
  | .xori g d a imm => Sys2Proof.Machine.execXori g d a imm s
  | .shli g d a imm => Sys2Proof.Machine.execShli g d a imm s
  | .shri g d a imm => Sys2Proof.Machine.execShri g d a imm s
  | .sari g d a imm => Sys2Proof.Machine.execSari g d a imm s
  | .shori g d a imm => Sys2Proof.Machine.execShori g d a imm s
  | .adda g d a b m => Sys2Proof.Machine.execAdda g d a b m s
  | .movAS g d a => Sys2Proof.Machine.execMovAS g d a s
  | .movSA g d a => Sys2Proof.Machine.execMovSA g d a s
  | .movNS g d a => Sys2Proof.Machine.execMovNS g d a s
  | .movSN g d a => Sys2Proof.Machine.execMovSN g d a s
  | .movES g d a => Sys2Proof.Machine.execMovES g d a s
  | .movSE g d a => Sys2Proof.Machine.execMovSE g d a s
  | .movToControl g x a y => Sys2Proof.Machine.execMovToControl g x a y s
  | .movFromControl g d x y => Sys2Proof.Machine.execMovFromControl g d x y s
  | .movGS g d a => Sys2Proof.Machine.execMovGS g d a s
  | .movSG g d a => Sys2Proof.Machine.execMovSG g d a s
  | .gget g d => Sys2Proof.Machine.execGget g d s
  | .gset g a => Sys2Proof.Machine.execGset g a s
  | .cmpEq g h a b => Sys2Proof.Machine.execCmpEq g h a b s
  | .cmpEqImm g h a imm => Sys2Proof.Machine.execCmpEqImm g h a imm s
  | .cmpLt g h a b => Sys2Proof.Machine.execCmpLt g h a b s
  | .cmpLtImm g h a imm => Sys2Proof.Machine.execCmpLtImm g h a imm s
  | .cmpLe g h a b => Sys2Proof.Machine.execCmpLe g h a b s
  | .cmpLeImm g h a imm => Sys2Proof.Machine.execCmpLeImm g h a imm s
  | .cmpLtn g h a b => Sys2Proof.Machine.execCmpLtn g h a b s
  | .cmpLtnImm g h a imm => Sys2Proof.Machine.execCmpLtnImm g h a imm s
  | .cmpLen g h a b => Sys2Proof.Machine.execCmpLen g h a b s
  | .cmpLenImm g h a imm => Sys2Proof.Machine.execCmpLenImm g h a imm s
  | .cmpTst g h a b => Sys2Proof.Machine.execCmpTst g h a b s
  | .cmpTstImm g h a imm => Sys2Proof.Machine.execCmpTstImm g h a imm s
  | .brT g o => Sys2Proof.Machine.execBrT g o s
  | .brNt g o => Sys2Proof.Machine.execBrNt g o s
  | .call g o => Sys2Proof.Machine.execCall g o s
  | .bri g a => Sys2Proof.Machine.execBri g a s
  | .ret g a => Sys2Proof.Machine.execRet g a s
  | .loop g l e a => Sys2Proof.Machine.execLoop g l e a s
  | .wait g l r c t => Sys2Proof.Machine.execWait g l r c t s
  | .waitt g c a => Sys2Proof.Machine.execWaitt g c a s
  | .fence g => Sys2Proof.Machine.execFence g s
  | .lpoff g l => Sys2Proof.Machine.execLpoff g l s
  | .ldB g d a u off => Sys2Proof.Machine.execLdB g d a u off s
  | .ldH g d a u off => Sys2Proof.Machine.execLdH g d a u off s
  | .ldW g d a u off => Sys2Proof.Machine.execLdW g d a u off s
  | .ldD g d a u off => Sys2Proof.Machine.execLdD g d a u off s
  | .stB g d a u off => Sys2Proof.Machine.execStB g d a u off s
  | .stH g d a u off => Sys2Proof.Machine.execStH g d a u off s
  | .stW g d a u off => Sys2Proof.Machine.execStW g d a u off s
  | .stD g d a u off => Sys2Proof.Machine.execStD g d a u off s
  | .atmW g d a u p o => Sys2Proof.Machine.execAtmW g d a u p o s
  | .atmD g d a u p o => Sys2Proof.Machine.execAtmD g d a u p o s
  | .vand g d a b k => Sys2Proof.Machine.execVand g d a b k s
  | .vor g d a b k => Sys2Proof.Machine.execVor g d a b k s
  | .vxor g d a b k => Sys2Proof.Machine.execVxor g d a b k s
  | .vandn g d a b k => Sys2Proof.Machine.execVandn g d a b k s
  | .vaddI32 g d a b k => Sys2Proof.Machine.execVaddI32 g d a b k s
  | .vsubI32 g d a b k => Sys2Proof.Machine.execVsubI32 g d a b k s
  | .vmulI32 g d a b k => Sys2Proof.Machine.execVmulI32 g d a b k s
  | .vaddI16 g d a b k => Sys2Proof.Machine.execVaddI16 g d a b k s
  | .vsubI16 g d a b k => Sys2Proof.Machine.execVsubI16 g d a b k s
  | .vaddsI16 g d a b k => Sys2Proof.Machine.execVaddsI16 g d a b k s
  | .vsubsI16 g d a b k => Sys2Proof.Machine.execVsubsI16 g d a b k s
  | .vaddI8 g d a b k => Sys2Proof.Machine.execVaddI8 g d a b k s
  | .vsubI8 g d a b k => Sys2Proof.Machine.execVsubI8 g d a b k s
  | .vaddsI8 g d a b k => Sys2Proof.Machine.execVaddsI8 g d a b k s
  | .vsubsI8 g d a b k => Sys2Proof.Machine.execVsubsI8 g d a b k s
  | .vminI32 g d a b k => Sys2Proof.Machine.execVminI32 g d a b k s
  | .vmaxI32 g d a b k => Sys2Proof.Machine.execVmaxI32 g d a b k s
  | .vminN32 g d a b k => Sys2Proof.Machine.execVminN32 g d a b k s
  | .vmaxN32 g d a b k => Sys2Proof.Machine.execVmaxN32 g d a b k s
  | .vshlI32 g d a b k => Sys2Proof.Machine.execVshlI32 g d a b k s
  | .vshrN32 g d a b k => Sys2Proof.Machine.execVshrN32 g d a b k s
  | .vsarI32 g d a b k => Sys2Proof.Machine.execVsarI32 g d a b k s
  | .vdot4I8 g d a b k c => Sys2Proof.Machine.execVdot4I8 g d a b k c s
  | .vdot4N8 g d a b k c => Sys2Proof.Machine.execVdot4N8 g d a b k c s
  | .vdot2I16 g d a b k c => Sys2Proof.Machine.execVdot2I16 g d a b k c s
  | .vdot2N16 g d a b k c => Sys2Proof.Machine.execVdot2N16 g d a b k c s
  | .vaddF32 g d a b k => Sys2Proof.Machine.execVaddF32 g d a b k s
  | .vsubF32 g d a b k => Sys2Proof.Machine.execVsubF32 g d a b k s
  | .vmulF32 g d a b k => Sys2Proof.Machine.execVmulF32 g d a b k s
  | .vfmaF32 g d a b k c => Sys2Proof.Machine.execVfmaF32 g d a b k c s
  | .vfmsF32 g d a b k c => Sys2Proof.Machine.execVfmsF32 g d a b k c s
  | .vminF32 g d a b k => Sys2Proof.Machine.execVminF32 g d a b k s
  | .vmaxF32 g d a b k => Sys2Proof.Machine.execVmaxF32 g d a b k s
  | .vsubBf16 g d a b k => Sys2Proof.Machine.execVsubBf16 g d a b k s
  | .vaddBf16 g d a b k => Sys2Proof.Machine.execVaddBf16 g d a b k s
  | .vmulBf16 g d a b k => Sys2Proof.Machine.execVmulBf16 g d a b k s
  | .vfmaBf16 g d a b k c => Sys2Proof.Machine.execVfmaBf16 g d a b k c s
  | .vaddF16 g d a b k => Sys2Proof.Machine.execVaddF16 g d a b k s
  | .vmulF16 g d a b k => Sys2Proof.Machine.execVmulF16 g d a b k s
  | .vfmaF16 g d a b k c => Sys2Proof.Machine.execVfmaF16 g d a b k c s
  | .vrcpaF32 g d a k => Sys2Proof.Machine.execVrcpaF32 g d a k s
  | .vrsqaF32 g d a k => Sys2Proof.Machine.execVrsqaF32 g d a k s
  | .vcvtF32I32 g d a m k => Sys2Proof.Machine.execVcvtF32I32 g d a m k s
  | .vcvtF32N32 g d a m k => Sys2Proof.Machine.execVcvtF32N32 g d a m k s
  | .vcvtI32F32 g d a m k => Sys2Proof.Machine.execVcvtI32F32 g d a m k s
  | .vcvtN32F32 g d a m k => Sys2Proof.Machine.execVcvtN32F32 g d a m k s
  | .vcvtBf16F32 g d a m k => Sys2Proof.Machine.execVcvtBf16F32 g d a m k s
  | .vcvtF16F32 g d a m k => Sys2Proof.Machine.execVcvtF16F32 g d a m k s
  | .vcvtE4m3F32 g d a m n k => Sys2Proof.Machine.execVcvtE4m3F32 g d a m n k s
  | .vcvtE5m2F32 g d a m n k => Sys2Proof.Machine.execVcvtE5m2F32 g d a m n k s
  | .vcvtF32Widen g d a f k => Sys2Proof.Machine.execVcvtF32Widen g d a f k s
  | .vcvtQ4F32 g d a m t => Sys2Proof.Machine.execVcvtQ4F32 g d a m t s
  | .vcvtF32Q4 g d a k => Sys2Proof.Machine.execVcvtF32Q4 g d a k s
  | .vcmpF32 g c h a b k => Sys2Proof.Machine.execVcmpF32 g c h a b k s
  | .vcmpI32 g c h a b k => Sys2Proof.Machine.execVcmpI32 g c h a b k s
  | .vcmpN32 g c h a b k => Sys2Proof.Machine.execVcmpN32 g c h a b k s
  | .klogic g l h a b => Sys2Proof.Machine.execKlogic g l h a b s
  | .vbcast g d a k => Sys2Proof.Machine.execVbcast g d a k s
  | .viota g d a k => Sys2Proof.Machine.execViota g d a k s
  | .vperm g d a b k => Sys2Proof.Machine.execVperm g d a b k s
  | .vred g d a r n k => Sys2Proof.Machine.execVred g d a r n k s
  | .vld g d a u off => Sys2Proof.Machine.execVld g d a u off s
  | .vst g d a u off => Sys2Proof.Machine.execVst g d a u off s
  | .vldW g d a u off => Sys2Proof.Machine.execVldW g d a u off s
  | .vstW g d a u off => Sys2Proof.Machine.execVstW g d a u off s
  | .vldK g d a u off => Sys2Proof.Machine.execVldK g d a u off s
  | .vstK g d a u off => Sys2Proof.Machine.execVstK g d a u off s
  | .trdr g x y v k m => Sys2Proof.Machine.execTrdr g x y v k m s
  | .trdc g x y v k m => Sys2Proof.Machine.execTrdc g x y v k m s
  | .twrr32 g x y v k => Sys2Proof.Machine.execTwrr32 g x y v k s
  | .twrc32 g x y v k => Sys2Proof.Machine.execTwrc32 g x y v k s
  | .twrr16 g x y v k m => Sys2Proof.Machine.execTwrr16 g x y v k m s
  | .twrc16 g x y v k m => Sys2Proof.Machine.execTwrc16 g x y v k m s
  | .twrr8 g x y v k m => Sys2Proof.Machine.execTwrr8 g x y v k m s
  | .twrc8 g x y v k m => Sys2Proof.Machine.execTwrc8 g x y v k m s
  | .twrr8Nan g x y v k m => Sys2Proof.Machine.execTwrr8Nan g x y v k m s
  | .twrc8Nan g x y v k m => Sys2Proof.Machine.execTwrc8Nan g x y v k m s
  | .tld g x v => Sys2Proof.Machine.execTld g x v s
  | .tst g x v => Sys2Proof.Machine.execTst g x v s
  | .mwl g x y f => Sys2Proof.Machine.execMwl g x y f s
  | .mwlm g x y v f => Sys2Proof.Machine.execMwlm g x y v f s
  | .mwlp g x y f => Sys2Proof.Machine.execMwlp g x y f s
  | .mwlpm g x y v f => Sys2Proof.Machine.execMwlpm g x y v f s
  | .mwa g y => Sys2Proof.Machine.execMwa g y s
  | .mwap g y => Sys2Proof.Machine.execMwap g y s
  | .mms g x y f z => Sys2Proof.Machine.execMms g x y f z s
  | .mmsm g x y v f z => Sys2Proof.Machine.execMmsm g x y v f z s
  | .mmsp g x y f z => Sys2Proof.Machine.execMmsp g x y f z s
  | .mmspm g x y v f z => Sys2Proof.Machine.execMmspm g x y v f z s
  | .mdr g x y v => Sys2Proof.Machine.execMdr g x y v s
  | .mdrm g x y v => Sys2Proof.Machine.execMdrm g x y v s
  | .mdrp g x y v => Sys2Proof.Machine.execMdrp g x y v s
  | .mdrpm g x y v => Sys2Proof.Machine.execMdrpm g x y v s
  | .mpost g v => Sys2Proof.Machine.execMpost g v s
  | .mzero g y => Sys2Proof.Machine.execMzero g y s
  | .mzerop g y => Sys2Proof.Machine.execMzerop g y s
  | .tcpy g x y => Sys2Proof.Machine.execTcpy g x y s
  | .tzero g x => Sys2Proof.Machine.execTzero g x s
  | .mdrt g x y v => Sys2Proof.Machine.execMdrt g x y v s
  | .tldt g x v => Sys2Proof.Machine.execTldt g x v s
  | .tstt g x v => Sys2Proof.Machine.execTstt g x v s
  | .tshape g x v => Sys2Proof.Machine.execTshape g x v s
  | .cpy g u e f => Sys2Proof.Machine.execCpy g u e f s
  | .cpy2 g u e f => Sys2Proof.Machine.execCpy2 g u e f s
  | .cpyz g u e p => Sys2Proof.Machine.execCpyz g u e p s
  | .cpyx g u e p => Sys2Proof.Machine.execCpyx g u e p s
  | .cfill g u e f => Sys2Proof.Machine.execCfill g u e f s
  | .rld g u e => Sys2Proof.Machine.execRld g u e s
  | .rst g u e f => Sys2Proof.Machine.execRst g u e f s
  | .ratmW g u e p => Sys2Proof.Machine.execRatmW g u e p s
  | .ratmD g u e p => Sys2Proof.Machine.execRatmD g u e p s
  | .rred g u e f p => Sys2Proof.Machine.execRred g u e f p s
  | .fput g u e => Sys2Proof.Machine.execFput g u e s
  | .cfence g u => Sys2Proof.Machine.execCfence g u s
  | .xchg g u e q => Sys2Proof.Machine.execXchg g u e q s
  | .xcmb g u e q f o n => Sys2Proof.Machine.execXcmb g u e q f o n s
  | .sendif g u e q r n => Sys2Proof.Machine.execSendif g u e q r n s
  | .shiftg g e q d => Sys2Proof.Machine.execShiftg g e q d s
  | .xchgm g e => Sys2Proof.Machine.execXchgm g e s
  | .xcmbm g e f o => Sys2Proof.Machine.execXcmbm g e f o s
  | .xarm g u e q c => Sys2Proof.Machine.execXarm g u e q c s
  | .xdisarm g q => Sys2Proof.Machine.execXdisarm g q s
  | .xbar g e q => Sys2Proof.Machine.execXbar g e q s
  | .coll g e => Sys2Proof.Machine.execColl g e s
  | .route g u e => Sys2Proof.Machine.execRoute g u e s
  | .rqcfg g e => Sys2Proof.Machine.execRqcfg g e s
  | .rqreset g e => Sys2Proof.Machine.execRqreset g e s
  | .rcsnap g e => Sys2Proof.Machine.execRcsnap g e s
  | .chain g e => Sys2Proof.Machine.execChain g e s
  | .chstep g e => Sys2Proof.Machine.execChstep g e s
  | .chsize g e => Sys2Proof.Machine.execChsize g e s
  | .chabort g => Sys2Proof.Machine.execChabort g s
  | .trap g n => Sys2Proof.Machine.execTrap g n s
  | .rte g => Sys2Proof.Machine.execRte g s
  | .rteSw g => Sys2Proof.Machine.execRteSw g s
  | .endProg g => Sys2Proof.Machine.execEndProg g s
  | .reraise g => Sys2Proof.Machine.execReraise g s
  | .lmark g d a => Sys2Proof.Machine.execLmark g d a s
  | .bpoint g => Sys2Proof.Machine.execBpoint g s
  | .dpoint g => Sys2Proof.Machine.execDpoint g s
  | .rdcyc g d => Sys2Proof.Machine.execRdcyc g d s
  | .sdump g => Sys2Proof.Machine.execSdump g s
  | .enrd g d => Sys2Proof.Machine.execEnrd g d s
  | .enrdRsv g d => Sys2Proof.Machine.execEnrdRsv g d s
  | .enres g d a => Sys2Proof.Machine.execEnres g d a s
  | .enresRel g d a => Sys2Proof.Machine.execEnresRel g d a s
  | .issueBundle => Sys2Proof.Machine.execIssueBundle s
  | .stallEnd => Sys2Proof.Machine.execStallEnd s
  | .longWait => Sys2Proof.Machine.execLongWait s
  | .resultLands => Sys2Proof.Machine.execResultLands s
  | .sramAccessPerformed => Sys2Proof.Machine.execSramAccessPerformed s
  | .sramLoadLands => Sys2Proof.Machine.execSramLoadLands s
  | .tileOpComplete => Sys2Proof.Machine.execTileOpComplete s
  | .correctableError => Sys2Proof.Machine.execCorrectableError s
  | .freezeEnd => Sys2Proof.Machine.execFreezeEnd s
  | .patrolScrub => Sys2Proof.Machine.execPatrolScrub s
  | .uncorrectableError => Sys2Proof.Machine.execUncorrectableError s
  | .windowTableWrite => Sys2Proof.Machine.execWindowTableWrite s
  | .wtlockSet => Sys2Proof.Machine.execWtlockSet s
  | .codeStoreLoad => Sys2Proof.Machine.execCodeStoreLoad s
  | .controlPathRegisterWrite => Sys2Proof.Machine.execControlPathRegisterWrite s
  | .commandStart => Sys2Proof.Machine.execCommandStart s
  | .issueBufferEnter => Sys2Proof.Machine.execIssueBufferEnter s
  | .blockTransfer => Sys2Proof.Machine.execBlockTransfer s
  | .commandComplete => Sys2Proof.Machine.execCommandComplete s
  | .supply => Sys2Proof.Machine.execSupply s
  | .refuse => Sys2Proof.Machine.execRefuse s
  | .discard => Sys2Proof.Machine.execDiscard s
  | .reclaim => Sys2Proof.Machine.execReclaim s
  | .pgresRead => Sys2Proof.Machine.execPgresRead s
  | .writePacket => Sys2Proof.Machine.execWritePacket s
  | .readRequest => Sys2Proof.Machine.execReadRequest s
  | .readResponse => Sys2Proof.Machine.execReadResponse s
  | .atomicPacket => Sys2Proof.Machine.execAtomicPacket s
  | .atomicResponse => Sys2Proof.Machine.execAtomicResponse s
  | .reduceStore => Sys2Proof.Machine.execReduceStore s
  | .flagPacket => Sys2Proof.Machine.execFlagPacket s
  | .transferAcknowledgement => Sys2Proof.Machine.execTransferAcknowledgement s
  | .exchangeData => Sys2Proof.Machine.execExchangeData s
  | .unreachableNotice => Sys2Proof.Machine.execUnreachableNotice s
  | .linkAcknowledgement => Sys2Proof.Machine.execLinkAcknowledgement s
  | .negativeAcknowledgement => Sys2Proof.Machine.execNegativeAcknowledgement s
  | .replayTimeout => Sys2Proof.Machine.execReplayTimeout s
  | .detourForward => Sys2Proof.Machine.execDetourForward s
  | .lossOfSignal => Sys2Proof.Machine.execLossOfSignal s
  | .guylineSwitchBack => Sys2Proof.Machine.execGuylineSwitchBack s
  | .managementEnable => Sys2Proof.Machine.execManagementEnable s
  | .managementDisable => Sys2Proof.Machine.execManagementDisable s
  | .failedRetrain => Sys2Proof.Machine.execFailedRetrain s
  | .trainingComplete => Sys2Proof.Machine.execTrainingComplete s
  | .trainTimeout => Sys2Proof.Machine.execTrainTimeout s
  | .rekeyStart => Sys2Proof.Machine.execRekeyStart s
  | .rekeyComplete => Sys2Proof.Machine.execRekeyComplete s
  | .nonceLimit => Sys2Proof.Machine.execNonceLimit s
  | .park => Sys2Proof.Machine.execPark s
  | .parkack => Sys2Proof.Machine.execParkack s
  | .ready => Sys2Proof.Machine.execReady s
  | .abort => Sys2Proof.Machine.execAbort s
  | .exchangeTimeout => Sys2Proof.Machine.execExchangeTimeout s
  | .xarmFire => Sys2Proof.Machine.execXarmFire s
  | .walkerRound => Sys2Proof.Machine.execWalkerRound s
  | .routeRowReceive => Sys2Proof.Machine.execRouteRowReceive s
  | .taskDispatch => Sys2Proof.Machine.execTaskDispatch s
  | .chainStepStart => Sys2Proof.Machine.execChainStepStart s
  | .chainTaskPost => Sys2Proof.Machine.execChainTaskPost s
  | .energyRefill => Sys2Proof.Machine.execEnergyRefill s
  | .thermalLimit => Sys2Proof.Machine.execThermalLimit s
  | .qtailWrite => Sys2Proof.Machine.execQtailWrite s
  | .submitJob => Sys2Proof.Machine.execSubmitJob s
  | .submitChain => Sys2Proof.Machine.execSubmitChain s
  | .cancel => Sys2Proof.Machine.execCancel s
  | .registerPager => Sys2Proof.Machine.execRegisterPager s
  | .withdrawPager => Sys2Proof.Machine.execWithdrawPager s
  | .readDump => Sys2Proof.Machine.execReadDump s
  | .resetTenant => Sys2Proof.Machine.execResetTenant s
  | .placementPass => Sys2Proof.Machine.execPlacementPass s
  | .aging => Sys2Proof.Machine.execAging s
  | .quantumExpiry => Sys2Proof.Machine.execQuantumExpiry s
  | .jobEnd => Sys2Proof.Machine.execJobEnd s
  | .drainRequest => Sys2Proof.Machine.execDrainRequest s
  | .imageCapture => Sys2Proof.Machine.execImageCapture s
  | .drainEscalation => Sys2Proof.Machine.execDrainEscalation s
  | .scanStop => Sys2Proof.Machine.execScanStop s
  | .resume => Sys2Proof.Machine.execResume s
  | .budtgtSet => Sys2Proof.Machine.execBudtgtSet s
  | .buddyPointAbandon => Sys2Proof.Machine.execBuddyPointAbandon s
  | .fatalTrap => Sys2Proof.Machine.execFatalTrap s
  | .dieReset => Sys2Proof.Machine.execDieReset s
  | .trapDelivery => Sys2Proof.Machine.execTrapDelivery s
  | .trapCyclesEnd => Sys2Proof.Machine.execTrapCyclesEnd s
  | .returnCyclesEnd => Sys2Proof.Machine.execReturnCyclesEnd s
  | .evrdWrite => Sys2Proof.Machine.execEvrdWrite s
  | .evovfClear => Sys2Proof.Machine.execEvovfClear s
  | .tenantConfigWrite => Sys2Proof.Machine.execTenantConfigWrite s
  | .readyBitSet => Sys2Proof.Machine.execReadyBitSet s
  | .packageReset => Sys2Proof.Machine.execPackageReset s
  | .firmwareImageWrite => Sys2Proof.Machine.execFirmwareImageWrite s
  | .spdmMeasurement => Sys2Proof.Machine.execSpdmMeasurement s
  | .imageSecretInstall => Sys2Proof.Machine.execImageSecretInstall s
  | .cxlMemAccess => Sys2Proof.Machine.execCxlMemAccess s
  | .routerForward => Sys2Proof.Machine.execRouterForward s
  | .captureComplete => Sys2Proof.Machine.execCaptureComplete s
  | .dumpComplete => Sys2Proof.Machine.execDumpComplete s
  | .dieReturnTimeout => Sys2Proof.Machine.execDieReturnTimeout s

end Sys2Proof.Machine
end

