-- ==== Sys2Proof/Machine/Turns.lean ====
section
/-! DEFINITION. Who may move next: the inputs that have come, and what engines, ports and the package do of themselves. -/

namespace Sys2Proof.Machine

/-- An event, what it brings, and the inputs that are left when it is taken. -/
structure Turn where
  event : Instr
  arg : EvArg
  left : List (Instr × EvArg)
deriving DecidableEq, Repr

/-! ## Inputs -/

/-- An input may be taken now: a packet needs credit in the receive buffer of its port (R123), a RESYNC waits for an image
(R149), and what accesses the die's storage, for the end of a freeze (R51; DESIGN CHOICE, log 7). -/
def State.canTake (s : State) (a : EvArg) : Bool :=
  match a with
  | .pkt d k => s.credit d k
  | .cxl _ => !s.frozen
  | .code _ _ => !s.frozen
  | .ctl (.hostImage _ _) => !s.frozen
  -- the errors of one cycle share a freeze
  | .ecc _ _ _ _ true => !s.frozen || decide (s.eng.freeze = 16)
  | .resync d _ guy _ _ _ _ => !s.resyncWaits d guy
  | .trains d otherJob => !s.trainWaits d otherJob
  | _ => true

/-- The port of a frame, whose frames come in order; 13 for what the host and the scheduler write, which comes in order too
(R148). -/
def EvArg.port : EvArg → Option Nat
  | .cxl _ => some 13
  | .code _ _ => some 13
  | .ctl _ => some 13
  | .wtab _ _ _ => some 13
  | .qtail _ _ _ => some 13
  | .pgans _ _ _ => some 13
  | .pkt d _ => some d
  | .lack _ via _ _ _ _ => some via
  | .park _ via _ _ _ _ _ _ => some via
  | .resync _ via _ _ _ _ _ => some via
  | .rekey _ via _ _ _ _ => some via
  | _ => Option.none

/-- The first input that may be taken and that no waiting frame of its own port precedes; `seen` are the inputs before it,
last first. -/
def State.nextInput (s : State) (seen : List (Instr × EvArg)) : List (Instr × EvArg) → List Turn
  | [] => []
  | x :: r =>
    let behind := x.2.port.isSome && seen.any fun y => y.2.port == x.2.port
    if s.canTake x.2 && !behind then [{ event := x.1, arg := x.2, left := seen.reverse ++ r }]
    else s.nextInput (x :: seen) r

/-! ## What moves of itself -/

/-- A turn that takes no input. -/
def State.turn (s : State) (i : Instr) (a : EvArg) : Turn := { event := i, arg := a, left := s.inputs }

/-- A turn, when it may be taken. -/
def State.turnIf (s : State) (c : Bool) (i : Instr) (a : EvArg) : List Turn := if c then [s.turn i a] else []

/-- The row of the opcode table that a packet for this die comes under. -/
def Packet.row (k : Packet) : Instr :=
  match k.ptype with
  | .write => .writePacket
  | .readRequest => .readRequest
  | .readResponse => .readResponse
  | .atomic => .atomicPacket
  | .atomicResponse => .atomicResponse
  | .reduceStore => .reduceStore
  | .flag => .flagPacket
  | .transferAck => .transferAcknowledgement
  | .unreachable => .unreachableNotice
  | .exchangeData => match k.info with
    | .ready _ _ _ _ => .ready
    | .abort _ _ _ _ => .abort
    | .row _ _ _ => .routeRowReceive
    | _ => .exchangeData

/-- The row of a buffered packet, when it need not wait any more: it is performed here, or goes on (R111, R113, R129). -/
def State.rxRow (s : State) (k : Packet) : Option Instr :=
  if !k.opens then (if k.outer.any fun o => s.noExit o.out k then none else some .detourForward)
  else if k.dst = s.ctl.diecoord then (if s.mustWait k then none else some k.row)
  else if s.noExit ((nextDim s.ctl.diecoord k.dst).getD 13) k then none else some .routerForward

/-- The oldest buffered packet of each virtual channel of a port (R113). -/
def State.rxTurns (s : State) (d : Nat) : List Turn :=
  (List.range 4).filterMap fun vc =>
    (((s.port d).rxHead vc).bind s.rxRow).map fun i => s.turn i (.rx d vc)

/-- A tile operation may complete now: those of a cycle complete in issue order, so that the later bundle's write stands
(R245). -/
def State.mayFinish (s : State) (i : Nat) : Bool :=
  s.stream.tileOps[i]?.all fun o => s.stream.tileNow.all fun b => decide (b.seq ≤ o.seq)

/-- The tile operations that may complete now (R244). -/
def State.tileTurns (s : State) : List Turn :=
  if s.halted then []
  else ((List.range s.stream.tileOps.length).filter s.mayFinish).map fun i => s.turn .tileOpComplete (.nat i)

/-- What the engines do (R163, R22, R96, R139, R244, R289, R290). -/
def State.engineTurns (s : State) : List Turn :=
  if s.halted then []
  else
    ((List.range 4).flatMap fun i =>
      s.turnIf ((s.eng.issueBuf.any fun x => decide (x.1 = i)) &&
        decide ((s.copyQueue i).length < 32)) .issueBufferEnter (.nat i)) ++
    ((List.range 4).flatMap fun i =>
      ((s.copyQueue i).filter fun c => s.copyCanMove i c || s.copyCanLand i c).map fun c =>
        s.turn .blockTransfer (.two i c.num)) ++
    s.turnIf s.walkMover.isSome .walkerRound .none ++
    ((List.range 11).flatMap fun x => (s.completable x).map fun n => s.turn .commandComplete (.two x n)) ++
    s.turnIf s.stepDue.isSome .chainStepStart .none ++ s.turnIf (s.chainPostDue.any fun x => !x.1.posting) .chainTaskPost .none

/-- What a port does as time passes (R124, R125, R127, R132, R340). -/
def State.portTurns (s : State) (d : Nat) : List Turn :=
  let p := s.port d
  let up := decide (p.state = .up)
  s.turnIf (s.replayDue d) .replayTimeout (.nat d) ++
  s.turnIf (decide (p.state = .failed) && decide (p.since + 1750000 ≤ s.now)) .failedRetrain (.nat d) ++
  s.turnIf (decide (p.state = .train) && decide (p.since + 175000000 ≤ s.now)) .trainTimeout (.nat d) ++
  s.turnIf (up && decide (rekeyAt ≤ p.nctrOut) && !p.rekey) .rekeyStart (.nat d) ++
  s.turnIf (decide (rekeyAt ≤ p.detourOut) && !p.detourRekey && decide (p.detourOut < stopAt)) .rekeyStart (.two d 1) ++
  s.turnIf (up && decide (stopAt ≤ p.nctrOut)) .nonceLimit (.nat d) ++
  s.turnIf (p.state.detours && decide (stopAt ≤ p.detourOut) && !s.holdsPorts &&
    (!p.waiting.isEmpty || p.replay.any fun k => decide (k.ptype ≠ .unreachable)))
    .nonceLimit (.two d 1) ++
  s.turnIf (up && p.guyLast.any fun l => p.replay.all fun k => !ackedBy k.lseq l) .guylineSwitchBack (.nat d) ++
  s.turnIf (s.resyncDue d) .parkack (.nat d)

/-- The event of the entry at the head of a queue (R303, R364). -/
def State.entryTurn (s : State) (q : Nat) : List Turn :=
  match entryOp (s.entryAt q) with
  | 2 => [s.turn .submitChain (.nat q)]
  | 3 => [s.turn .cancel (.nat q)]
  | 4 => [s.turn .registerPager (.nat q)]
  | 5 => [s.turn .withdrawPager (.nat q)]
  | 6 => [s.turn .readDump (.nat q)]
  | 7 => match s.owner q with
    | some t => [s.turn .resetTenant (.resetT t (some q))]
    | none => []
  | _ => [s.turn .submitJob (.nat q)]

/-- The lowest queue with an entry (R302). -/
def State.queueTurns (s : State) : List Turn :=
  match (List.range 64).find? s.hasEntry with
  | some q => s.entryTurn q
  | none => []

/-- What the scheduler does with a job (R306, R310, R311, R341, R346). -/
def State.jobTurns (s : State) (j : Job) : List Turn :=
  match j.state with
  | .waiting => s.turnIf (decide (0 < j.cls) && decide (j.agedAt + s.pkg.ageq ≤ s.now)) .aging (.nat j.id)
  | .placed => s.turnIf (s.inCube j && s.takesImage && s.pkg.resident.isNone) .resume (.nat j.id)
  | .awaitDie since =>
    s.turnIf (s.endJob j).isSome .jobEnd (.nat j.id) ++
    s.turnIf (s.isHere j && s.takesImage && !(j.peers.any fun r => r.frozen) && (s.buddyImage j).isSome) .resume (.nat j.id) ++
    s.turnIf (decide (since + 7000000000 ≤ s.now)) .dieReturnTimeout (.nat j.id)
  | .running =>
    s.turnIf (s.endJob j).isSome .jobEnd (.nat j.id) ++
    s.turnIf (s.quantumOver j || (s.allWait j && s.swapHelps j)) .quantumExpiry (.nat j.id)
  | .swapping =>
    s.turnIf (s.endJob j).isSome .jobEnd (.nat j.id) ++
    s.turnIf (!s.isHere j && s.othersReport j PeerReport.still) .captureComplete (.two j.id 0)
  | _ => s.turnIf (s.endJob j).isSome .jobEnd (.nat j.id)

/-- What the scheduler does with the job on this die (R331, R333, R336, R342, R344, R345). -/
def State.hereTurns (s : State) : List Turn :=
  match s.pkg.residentJob with
  | none => []
  | some j =>
    let stopped := match s.stream.mode with
      | .imageStop _ _ => true
      | _ => false
    s.turnIf (stopped && s.quiet && decide (s.eng.freeze = 0) && !s.capturing) .imageCapture .none ++
    s.turnIf (decide (j.state = .swapping) && s.canScan) .scanStop .none ++
    s.turnIf (match j.state with
      | .draining t => decide (t + 350000 ≤ s.now)
      | _ => false) .drainEscalation .none ++
    s.turnIf (decide (j.record.buddy ≠ 0) && decide (j.state = .running) &&
      decide (j.buddyAt + j.record.buddy * 1750000 ≤ s.now)) .budtgtSet .none ++
    s.turnIf (match s.stream.mode with
      | .imageStop 3 t => s.pointLate j (some t)
      | .running => decide (s.ctl.budtgt ≠ 0) && s.pointLate j none
      | _ => false) .buddyPointAbandon .none ++
    (s.pkg.images.filter fun i => !i.complete && decide (i.jobid = s.ctl.jobid) && !s.frozen && s.parkRest.portsParked &&
      (decide (i.kind = 3) || s.othersReport j PeerReport.still)).map fun i => s.turn .captureComplete (.nat i.serial)

/-- What the package does of itself. -/
def State.packageTurns (s : State) : List Turn :=
  s.queueTurns ++ s.pkg.jobs.flatMap s.jobTurns ++ s.hereTurns ++
  s.turnIf (s.pkg.passDue.isNone && s.passReady) .placementPass .none ++
  ((List.range 16).flatMap fun t => s.turnIf (s.resetDue t) .resetTenant (.resetT t none)) ++
  (s.pkg.dumps.filter fun d => !d.img.complete && !s.parkRest.dumpWaits d).map fun d => s.turn .dumpComplete (.nat d.serial)

/-- Everyone but the die clock that may move next (R138, R140, R149: in no fixed order). The writes of tile operations are the
control stream's and come last in their cycle, in memory as in tiles (R44, R245): once one is complete only others follow before
the clock. -/
def State.turns (s : State) : List Turn :=
  if s.stream.tileNow.isEmpty then
    s.nextInput [] s.inputs ++ s.engineTurns ++ s.tileTurns ++
      ((List.range 13).flatMap fun d => s.rxTurns d ++ s.portTurns d) ++ s.packageTurns
  else s.tileTurns

/-- The numbers of the control registers end here (R207). -/
def ctlNumbers : Nat := 0x300

/-- What a read of the coming cycle must not see of a turn that led from `s` to `t` while the same program goes on: each
control register that it changed keeps the value of the start of the cycle (R206). A start, a resume or a level 2 retry is the
start for its reads. -/
def State.noted (s t : State) : State :=
  if s.stream.mode = .running ∧ t.stream.mode = .running ∧ t.stream.retries = s.stream.retries then
    { t with begun := t.begun ++ ((List.range ctlNumbers).filter fun n =>
        decide (t.ctlNow n ≠ s.ctlNow n) && (t.begun.lookup n).isNone).map fun n => (n, s.ctlNow n) }
  else t

/-- The state in which a turn's event acts. -/
def State.onTurn (s : State) (t : Turn) : State := { s with inputs := t.left, arg := t.arg }

/-- The turn that comes next, if it is not the die clock's: a free choice where several may move. -/
def State.pick (s : State) (ts : List Turn) : Option Turn := ts[Config.turn s.draws % (ts.length + 1)]?

/-- A free value is used up. -/
def State.drew (s : State) : State := { s with draws := s.draws + 1 }

/-- The bytes of an instruction word, low byte first (R56). -/
def wordBytes (w : Nat) : List Byte := leBytes 4 w

/-- The slot that stands behind a word in the bundle that fetches it: a repeat prefix needs a slot of class 0xA in its
bundle (R182); any other word stands alone (R176). -/
def companion (w : Nat) : Nat := if slotClass w = 15 ∧ w / 2 ^ 24 % 16 = 1 then 0xA0780000 else 0

end Sys2Proof.Machine
end

