-- ==== Sys2Proof/Machine/Step.lean ====
section
/-! DEFINITION. One step of the machine: the placement pass that is due, the event of whoever moves next, or a cycle of the
die clock; and the placing of one instruction where the next step fetches. -/

namespace Sys2Proof.Machine

/-- The placement pass of a cycle that is over is still due: one pass for all that came in it (R308). -/
def State.passNow (s : State) : Bool := !s.frozen && s.pkg.passDue.any fun t => decide (t < s.now)

/-- A turn is taken, unless it writes what an atomic of the coming cycle reads: then the clock runs first (R39, R147). The reads
of the coming cycle find the control registers as the cycle began (R206). -/
def State.take (s : State) (u : Turn) : Host.Outcome State Fault Refusal :=
  match exec u.event (s.onTurn u) with
  | .next t => if t.atomicBehind then exec .issueBundle s else .next (s.noted t)
  | .fault f => .fault f
  | .refused r => .refused r

/-- One step. The placement pass of the cycle before comes first. Otherwise the die clock runs, or, by a free choice, one of the
others that may move acts (R138, R140, R149). -/
def step (s : State) : Host.Outcome State Fault Refusal :=
  if s.passNow then exec .placementPass s
  else match s.turns with
    | [] => exec .issueBundle s
    | t :: r =>
      match s.pick (t :: r) with
      | some u => s.drew.take u
      | none => exec .issueBundle s.drew

/-- The instruction of a word in slot S0 of the bundle that the next step fetches: its 16 bytes in the code store at the
program counter, CODELIM, and a running die of revision 2. -/
def State.withFetchWord (s : State) (nbits w : Nat) : State :=
  let x := w % 2 ^ nbits
  let bytes := wordBytes x ++ wordBytes (companion x) ++ List.replicate 8 0
  { s with
    mem.loc := putBytes s.mem.loc s.stream.pc.toNat bytes,
    ctl := { s.ctl with codelim := 0x80000#20, rev := 2 },
    stream := { s.stream with mode := .running, bubbles := 0 } }

end Sys2Proof.Machine
end

