-- ==== Sys2Proof/Safety.lean ====
section
/-! DEFINITION. What holds of the machine in every state that a run can reach, and the terms in which claims about steps
are written. -/

namespace Sys2Proof.Machine

/-- Every memory is in its canonical form: addresses strictly rising, and no entry equal to what an unlisted address reads
as. -/
abbrev Memory.wf (m : Mem) : Prop := cellsWf m.loc = true ∧ cellsWf m.dram = true ∧ cellsWf m.host = true

/-- The tile store, the weights and the accumulators are in the same canonical form. -/
abbrev Tiles.wf (t : Tiles) : Prop :=
  cellsWf t.bytes = true ∧ cellsWf t.active = true ∧ cellsWf t.shadow = true ∧ cellsWf t.acc = true

/-- A captured image holds memories and tiles in canonical form. -/
abbrev Image.wf (i : Image) : Prop := cellsWf i.loc = true ∧ Tiles.wf i.tiles

/-- The invariant of the machine: every sparse store, those of captured images too, is canonical, and the power
controller's clock is within its 1,024 cycles (R314). -/
def State.Inv (s : State) : Prop :=
  Memory.wf s.mem ∧ Tiles.wf s.tiles ∧ (∀ i ∈ s.pkg.images, Image.wf i) ∧ s.refillClk < 1024

/-- The outcome of a step. -/
abbrev Out := Host.Outcome State Fault Refusal

/-- An outcome is safe: it is a next state in which the invariant holds. -/
def Safe (r : Out) : Prop :=
  match r with
  | .next t => t.Inv
  | .fault _ => False
  | .refused _ => False

/-- The state that a guarded slot leaves: `t` when its guard is 1, the state unchanged when it is 0 (R175). -/
def State.guarded (s : State) (g : BitVec 4) (t : State) : State := if s.regs.rg g then t else s

/-- The result that a slot puts in flight at issue, to land `lat` counted cycles after its issue (R36, R188). -/
def State.inFlight (s : State) (lat : Nat) (l : Landing) (flags : BitVec 6) : State :=
  { s with stream := { s.stream with
      results := s.stream.results ++ [{ seq := s.stream.seq, rem := lat, land := l, flags := flags, sat := 0 }],
      seq := s.stream.seq + 1 } }

/-- Two states agree on everything that a program sees except the results in flight, the tile operations, the queues of
the engines and the timelines' issue counts: registers, control registers, tiles, memories, ports and the package. -/
def SameArch (s t : State) : Prop :=
  t.regs = s.regs ∧ t.ctl = s.ctl ∧ t.tiles = s.tiles ∧ t.mem = s.mem ∧ t.ports = s.ports ∧ t.pkg = s.pkg ∧
  t.stream.pc = s.stream.pc ∧ t.stream.mode = s.stream.mode

/-- A vector slot of guard `g` gives lane `j` of v D the value `(f j).1` in the lanes that k K selects, after `lat` cycles; in
those lanes, and in no other, it raises the flags `(f j).2`; `t` is the state before it puts this result in flight (R223). -/
def VectorResult (s t : State) (g : BitVec 4) (lat : Nat) (d : BitVec 5) (k : BitVec 3) (f : Fin 1024 → W32 × BitVec 6)
    (r : Out) : Prop :=
  ∃ fl : BitVec 6,
    r = .next (s.guarded g (t.inFlight lat (.v d (s.regs.rk k) (Vector.ofFn fun j => (f j).1)) fl)) ∧
    ∀ b < 6, fl.getLsbD b = true ↔ ∃ j : Fin 1024, (s.regs.rk k).getLsbD j.val = true ∧ (f j).2.getLsbD b = true

/-- The draws of the stochastic generator for `n` elements in mode `m`, with the state that has taken them: none in the other
modes (R66 to R68). -/
def State.roundingDraws (s : State) (m : BitVec 2) (n : Nat) : List Nat × State :=
  if m = 2 then ((drawList n s.ctl.srstate).1, { s with ctl.srstate := (drawList n s.ctl.srstate).2 }) else ([], s)

/-- A slot that issues a command or a tile operation: it stalls its bundle, whatever its guard, while its queue or table is full
(R159, R175); otherwise it does nothing when its guard is 0, takes the fault of its operands when it has one, and else
leaves `post`. -/
def CommandSlot (s : State) (g : BitVec 4) (full : Bool) (fault : Option SFault) (post : State) (r : Out) : Prop :=
  (full = true → r = .next { s with stream.held := true }) ∧
  (full = false → s.regs.rg g = false → r = .next s) ∧
  (full = false → s.regs.rg g = true → fault = none → r = .next post) ∧
  (full = false → s.regs.rg g = true → ∀ f, fault = some f → r = .next (s.takeSlotFault f s.stream.ask.slot))

/-- Slots act one after another, each by the meaning of its instruction, at its position in the bundle. -/
def execSlots : List (Nat × Instr) → State → Out
  | [], s => .next s
  | (pos, i) :: r, s =>
    match exec i (s.atSlot pos) with
    | .next t => execSlots r t
    | .fault f => .fault f
    | .refused f => .refused f

/-- The rest of a cycle of the running die after its issue left `u` (R36, R138, R182): engines, shared SRAM, landings and
end-of-cycle acts, the advance of a repeat, what follows the bundle, and the time that passes. `s` is the state at the
start of the cycle. -/
def State.afterIssue (s u : State) : State :=
  let t := if u.stream.mode.lives || decide (u.stream.mode = .fatal) then u.background s.issueLimits else u
  let t := if t.stream.ask.counted then t.advanceRepeat u.stream.rpt else t
  (t.turnover.passTime true true).stopsHere

/-- The engines hold no command and no task, and the control stream asks for nothing: between two cycles of a die at rest. -/
def State.AtRest (s : State) : Prop := s.eng = Engines.clear ∧ s.stream.ask = Ask.none ∧ s.mem.undo = [] ∧
  s.mem.undoDram = [] ∧ s.mem.lanternNow = (0, 0)

/-- A packet for this die that the port of dimension `d` accepts: the port is UP, tag and NCTR are good, the LSEQ is the next
one (R124, R126); and it need not wait: the die is not halted (R52), and no packet of its virtual channel waits (R113). -/
def State.Arrives (s : State) (d : Nat) (k : Packet) : Prop :=
  d < 13 ∧ (s.port d).state = .up ∧ k.outer = none ∧ k.tagOk = true ∧ (s.port d).nctrIn < k.nctr ∧
  k.lseq = (s.port d).lacc + 1 ∧ s.halted = false ∧ s.mustWait k = false ∧ (s.port d).rxHead k.vc = none

/-- The state after the port of dimension `d` accepted a packet: LACC is its LSEQ, NCTR its counter, and the
acknowledgement is sent (R124); its pair has performed a packet in this cycle (R142). -/
def State.accepted (s : State) (d : Nat) (k : Packet) : State :=
  let p := s.port d
  { s with
    ports := vset s.ports d { p with
      lacc := k.lseq, nctrIn := k.nctr, nctrOut := p.nctrOut + 1,
      sent := p.sent ++ [{ frame := .ack k.lseq, nctr := p.nctrOut + 1, key := p.key }] },
    arrived := k.src :: s.arrived }

/-- No watchpoint watches the writes of engines and of other dies (R326). -/
def State.Unwatched (s : State) : Prop := ∀ a n, s.ctl.engineWatch a n = none

/-- The walker sends bytes of a command to the die of a RANK, as one packet that waits for its acknowledgement (R112, R277). -/
def State.walkerSends (s : State) (c : WCmd) (rank : BitVec 13) (info : PMeta) (a n : Nat) (bs : List Byte) : State :=
  ({ s with eng.walker := s.eng.walker.map fun d => if d.num = c.num then { d with acks := d.acks + 1 } else d } : State).route
    { s.ctl.packet .exchangeData ((s.ctl.diecoord &&& ~~~s.ctl.scmask) ||| deposit s.ctl.scmask rank.toNat) 9
        (xidOf c.num c.tries) with
      info := info, addr := BitVec.ofNat 48 a, len := n, payload := bs }

/-- The entry at the head of queue `q` of tenant `t` is read next, has operation `op`, zero reserved bytes and the next number
(R302, R303, R362). -/
def State.EntryReady (s : State) (t q op : Nat) : Prop :=
  q < 64 ∧ s.owner q = some t ∧ s.hasEntry q = true ∧ entryOp (s.entryAt q) = op ∧ entryOk (s.entryAt q) = true ∧
  entrySeq (s.entryAt q) = (s.pkg.queue q).qacc + 1

/-- The state in which an entry of queue `q` has been read and numbered (R362). -/
def State.tookEntry (s : State) (q : Nat) : State :=
  let x := s.pkg.queue q
  { s with pkg.queues := vset s.pkg.queues q { x with qhead := x.qhead + 1, qacc := x.qacc + 1 } }

end Sys2Proof.Machine

namespace Sys2Proof

/-- The register-only scalar forms: arithmetic, immediates, moves between register files, reads of control registers and
compares (R203 to R208). -/
def Instr.scalarOnly : Instr → Bool
  | .add _ _ _ _ | .sub _ _ _ _ | .and _ _ _ _ | .or _ _ _ _ | .xor _ _ _ _ | .andn _ _ _ _ | .shl _ _ _ _ |
    .shr _ _ _ _ | .sar _ _ _ _ | .ror _ _ _ _ | .min _ _ _ _ | .minN _ _ _ _ | .max _ _ _ _ | .maxN _ _ _ _ |
    .mul _ _ _ _ | .mulh _ _ _ _ | .mulhN _ _ _ _ | .madd _ _ _ _ _ | .div _ _ _ _ | .divN _ _ _ _ |
    .rem _ _ _ _ | .remN _ _ _ _ | .sextB _ _ _ | .sextH _ _ _ | .sextW _ _ _ | .zextB _ _ _ | .zextH _ _ _ |
    .zextW _ _ _ | .popc _ _ _ | .clz _ _ _ | .ctz _ _ _ | .addi _ _ _ _ | .andi _ _ _ _ | .ori _ _ _ _ |
    .xori _ _ _ _ | .shli _ _ _ _ | .shri _ _ _ _ | .sari _ _ _ _ | .shori _ _ _ _ | .adda _ _ _ _ _ |
    .movAS _ _ _ | .movSA _ _ _ | .movNS _ _ _ | .movSN _ _ _ | .movES _ _ _ | .movSE _ _ _ |
    .movFromControl _ _ _ _ | .movGS _ _ _ | .movSG _ _ _ | .gget _ _ | .gset _ _ | .cmpEq _ _ _ _ |
    .cmpEqImm _ _ _ _ | .cmpLt _ _ _ _ | .cmpLtImm _ _ _ _ | .cmpLe _ _ _ _ | .cmpLeImm _ _ _ _ |
    .cmpLtn _ _ _ _ | .cmpLtnImm _ _ _ _ | .cmpLen _ _ _ _ | .cmpLenImm _ _ _ _ | .cmpTst _ _ _ _ |
    .cmpTstImm _ _ _ _ => true
  | _ => false

/-- The register-only vector forms: integer and floating-point arithmetic, conversions, compares, predicate logic, broadcasts,
permutes and reductions (R223 to R235). -/
def Instr.vectorOnly : Instr → Bool
  | .vand _ _ _ _ _ | .vor _ _ _ _ _ | .vxor _ _ _ _ _ | .vandn _ _ _ _ _ | .vaddI32 _ _ _ _ _ |
    .vsubI32 _ _ _ _ _ | .vmulI32 _ _ _ _ _ | .vaddI16 _ _ _ _ _ | .vsubI16 _ _ _ _ _ | .vaddsI16 _ _ _ _ _ |
    .vsubsI16 _ _ _ _ _ | .vaddI8 _ _ _ _ _ | .vsubI8 _ _ _ _ _ | .vaddsI8 _ _ _ _ _ | .vsubsI8 _ _ _ _ _ |
    .vminI32 _ _ _ _ _ | .vmaxI32 _ _ _ _ _ | .vminN32 _ _ _ _ _ | .vmaxN32 _ _ _ _ _ | .vshlI32 _ _ _ _ _ |
    .vshrN32 _ _ _ _ _ | .vsarI32 _ _ _ _ _ |
    .vaddF32 _ _ _ _ _ | .vsubF32 _ _ _ _ _ |
    .vmulF32 _ _ _ _ _ | .vfmaF32 _ _ _ _ _ _ | .vfmsF32 _ _ _ _ _ _ | .vminF32 _ _ _ _ _ |
    .vmaxF32 _ _ _ _ _ | .vsubBf16 _ _ _ _ _ | .vaddBf16 _ _ _ _ _ | .vmulBf16 _ _ _ _ _ |
    .vfmaBf16 _ _ _ _ _ _ | .vaddF16 _ _ _ _ _ | .vmulF16 _ _ _ _ _ | .vfmaF16 _ _ _ _ _ _ |
    .vrcpaF32 _ _ _ _ | .vrsqaF32 _ _ _ _ | .vcvtF32I32 _ _ _ _ _ | .vcvtF32N32 _ _ _ _ _ |
    .vcvtI32F32 _ _ _ _ _ | .vcvtN32F32 _ _ _ _ _ | .vcvtBf16F32 _ _ _ _ _ | .vcvtF16F32 _ _ _ _ _ |
    .vcvtE4m3F32 _ _ _ _ _ _ | .vcvtE5m2F32 _ _ _ _ _ _ | .vcvtF32Widen _ _ _ _ _ | .vcvtQ4F32 _ _ _ _ _ |
    .vcvtF32Q4 _ _ _ _ | .vcmpF32 _ _ _ _ _ _ | .vcmpI32 _ _ _ _ _ _ | .vcmpN32 _ _ _ _ _ _ |
    .klogic _ _ _ _ _ | .vbcast _ _ _ _ | .viota _ _ _ _ | .vperm _ _ _ _ _ | .vred _ _ _ _ _ _ => true
  | _ => false

/-- A result that a register or predicate takes. -/
def Machine.Landing.isRegister : Machine.Landing → Bool
  | .s _ _ | .a _ _ | .n _ _ | .e _ _ | .g _ _ | .gset _ | .k _ _ _ | .v _ _ _ => true
  | _ => false

end Sys2Proof
end

