-- ==== Sys2Proof/Certificates/Slice0/Obligations.lean ====
section
/-! DEFINITION. The statements for the provers. Each docstring names the rules of spec/ that it formalises. A statement
about a free value (Config) holds for every value of it. -/

open Sys2Proof Sys2Proof.Machine

/-! ## Scalar, control-flow and scalar-memory instructions -/

/-- R203: every class 0x0 form puts in flight the value that its table row gives, for s D, after the latency of R188; with a
guard of 0 it leaves the state as it is (R175). R204: the class 0x1 forms on s A and the immediate, sign-extended to 64
bits; shift amounts are the immediate, and SHORI shifts by 18 and ORs the 18-bit immediate. -/
def Obligations.ScalarArithmetic : Prop :=
  (∀ (s : State) (g : BitVec 4) (d a b c : BitVec 5),
     let x := s.regs.rs a
     let y := s.regs.rs b
     let gives (lat : Nat) (v : W64) : Out := .next (s.guarded g (s.inFlight lat (.s d v) 0))
     exec (.add g d a b) s = gives 1 (x + y) ∧ exec (.sub g d a b) s = gives 1 (x - y) ∧
     exec (.and g d a b) s = gives 1 (x &&& y) ∧ exec (.or g d a b) s = gives 1 (x ||| y) ∧
     exec (.xor g d a b) s = gives 1 (x ^^^ y) ∧ exec (.andn g d a b) s = gives 1 (x &&& ~~~y) ∧
     exec (.shl g d a b) s = gives 1 (x <<< (y.toNat % 64)) ∧ exec (.shr g d a b) s = gives 1 (x >>> (y.toNat % 64)) ∧
     exec (.sar g d a b) s = gives 1 (x.sshiftRight (y.toNat % 64)) ∧
     exec (.ror g d a b) s = gives 1 (x.rotateRight (y.toNat % 64)) ∧
     exec (.min g d a b) s = gives 1 (BitVec.ofInt 64 (min x.toInt y.toInt)) ∧
     exec (.max g d a b) s = gives 1 (BitVec.ofInt 64 (max x.toInt y.toInt)) ∧
     exec (.minN g d a b) s = gives 1 (BitVec.ofNat 64 (min x.toNat y.toNat)) ∧
     exec (.maxN g d a b) s = gives 1 (BitVec.ofNat 64 (max x.toNat y.toNat)) ∧
     exec (.mul g d a b) s = gives 3 (x * y) ∧
     exec (.mulh g d a b) s = gives 3 (BitVec.ofInt 64 (x.toInt * y.toInt / 2 ^ 64)) ∧
     exec (.mulhN g d a b) s = gives 3 (BitVec.ofNat 64 (x.toNat * y.toNat / 2 ^ 64)) ∧
     exec (.madd g d a b c) s = gives 3 (x * y + s.regs.rs c) ∧
     exec (.sextB g d a) s = gives 1 ((x.truncate 8).signExtend 64) ∧
     exec (.sextH g d a) s = gives 1 ((x.truncate 16).signExtend 64) ∧
     exec (.sextW g d a) s = gives 1 ((x.truncate 32).signExtend 64) ∧
     exec (.zextB g d a) s = gives 1 (BitVec.ofNat 64 (x.toNat % 2 ^ 8)) ∧
     exec (.zextH g d a) s = gives 1 (BitVec.ofNat 64 (x.toNat % 2 ^ 16)) ∧
     exec (.zextW g d a) s = gives 1 (BitVec.ofNat 64 (x.toNat % 2 ^ 32))) ∧
  (∀ (s : State) (g : BitVec 4) (d a : BitVec 5) (i : BitVec 18),
     let x := s.regs.rs a
     let gives (v : W64) : Out := .next (s.guarded g (s.inFlight 1 (.s d v) 0))
     exec (.addi g d a i) s = gives (x + BitVec.ofInt 64 i.toInt) ∧
     exec (.andi g d a i) s = gives (x &&& BitVec.ofInt 64 i.toInt) ∧
     exec (.ori g d a i) s = gives (x ||| BitVec.ofInt 64 i.toInt) ∧
     exec (.xori g d a i) s = gives (x ^^^ BitVec.ofInt 64 i.toInt) ∧
     exec (.shli g d a i) s = gives (x <<< i.toNat) ∧ exec (.shri g d a i) s = gives (x >>> i.toNat) ∧
     exec (.sari g d a i) s = gives (x.sshiftRight i.toNat) ∧
     exec (.shori g d a i) s = gives ((x <<< 18) ||| BitVec.ofNat 64 i.toNat))

/-- R203, division: quotients truncate toward zero and a remainder has the dividend's sign; a zero divisor gives all ones
and the dividend; every one lands after 20 cycles. R203, CNT: the number of one bits, and the numbers of zero bits above the
highest and below the lowest one bit (64 for zero), each described by what it counts. -/
def Obligations.ScalarDivisionAndCounts : Prop :=
  (∀ (s : State) (g : BitVec 4) (d a b : BitVec 5),
     let x := s.regs.rs a
     let y := s.regs.rs b
     let gives (v : W64) : Out := .next (s.guarded g (s.inFlight 20 (.s d v) 0))
     (y ≠ 0 →
       exec (.div g d a b) s = gives (BitVec.ofInt 64 (x.toInt.tdiv y.toInt)) ∧
       exec (.rem g d a b) s = gives (BitVec.ofInt 64 (x.toInt.tmod y.toInt)) ∧
       exec (.divN g d a b) s = gives (BitVec.ofNat 64 (x.toNat / y.toNat)) ∧
       exec (.remN g d a b) s = gives (BitVec.ofNat 64 (x.toNat % y.toNat))) ∧
     (y = 0 →
       exec (.div g d a b) s = gives (BitVec.allOnes 64) ∧ exec (.divN g d a b) s = gives (BitVec.allOnes 64) ∧
       exec (.rem g d a b) s = gives x ∧ exec (.remN g d a b) s = gives x)) ∧
  (∀ (s : State) (g : BitVec 4) (d a : BitVec 5),
     let x := s.regs.rs a
     let gives (n : Nat) : Out := .next (s.guarded g (s.inFlight 1 (.s d (BitVec.ofNat 64 n)) 0))
     exec (.popc g d a) s = gives ((List.range 64).countP fun i => x.getLsbD i) ∧
     (∃ n ≤ 64, exec (.clz g d a) s = gives n ∧ (∀ i < n, x.getLsbD (63 - i) = false) ∧
       (n < 64 → x.getLsbD (63 - n) = true)) ∧
     (∃ n ≤ 64, exec (.ctz g d a) s = gives n ∧ (∀ i < n, x.getLsbD i = false) ∧ (n < 64 → x.getLsbD n = true)))

/-- R205: address arithmetic and the moves between scalar, address, stride, staging and guard registers, all of latency 1.
GGET reads all sixteen guards, g0 as 1 and g1 as 0, and GSET writes them from the low sixteen bits. R208: a compare puts its
condition in flight for g G and the negation for g G + 1. -/
def Obligations.RegisterMovesAndCompares : Prop :=
  (∀ (s : State) (g : BitVec 4) (d a b : BitVec 5) (m : BitVec 3), d.toNat < 16 → a.toNat < 16 →
     let gives (l : Landing) : Out := .next (s.guarded g (s.inFlight 1 l 0))
     let r (i : BitVec 5) : BitVec 4 := BitVec.ofNat 4 i.toNat
     exec (.adda g d a b m) s = gives (.a (r d) (s.regs.ra (r a) + (s.regs.rs b <<< m.toNat))) ∧
     exec (.movAS g d b) s = gives (.a (r d) (s.regs.rs b)) ∧ exec (.movSA g b a) s = gives (.s b (s.regs.ra (r a))) ∧
     exec (.movNS g d b) s = gives (.n (r d) (s.regs.rs b)) ∧ exec (.movSN g b a) s = gives (.s b (s.regs.rn (r a))) ∧
     exec (.movES g d b) s = gives (.e (r d) (s.regs.rs b)) ∧ exec (.movSE g b a) s = gives (.s b (s.regs.re a.toNat)) ∧
     exec (.movGS g d b) s = gives (.g (r d) (s.regs.rs b != 0)) ∧
     exec (.movSG g b a) s = gives (.s b (if s.regs.rg (r a) then 1 else 0)) ∧
     exec (.gset g b) s = gives (.gset ((s.regs.rs b).truncate 16)) ∧
     (∃ v : W64, exec (.gget g b) s = gives (.s b v) ∧ ∀ i < 64, v.getLsbD i = (decide (i < 16) && s.regs.rg (BitVec.ofNat 4 i)))) ∧
  (∀ (s : State) (g h : BitVec 4) (a b : BitVec 5) (i : BitVec 18),
     let x := s.regs.rs a
     let gives (c : Bool) : Out := .next (s.guarded g ((s.inFlight 1 (.g h c) 0).inFlight 1 (.g (h + 1) !c) 0))
     let forms (y : W64) (eq lt le ltn len tst : Out) : Prop :=
       eq = gives (decide (x = y)) ∧ lt = gives (decide (x.toInt < y.toInt)) ∧ le = gives (decide (x.toInt ≤ y.toInt)) ∧
       ltn = gives (decide (x.toNat < y.toNat)) ∧ len = gives (decide (x.toNat ≤ y.toNat)) ∧
       tst = gives (decide (x &&& y ≠ 0))
     forms (s.regs.rs b) (exec (.cmpEq g h a b) s) (exec (.cmpLt g h a b) s) (exec (.cmpLe g h a b) s)
       (exec (.cmpLtn g h a b) s) (exec (.cmpLen g h a b) s) (exec (.cmpTst g h a b) s) ∧
     forms (BitVec.ofInt 64 i.toInt) (exec (.cmpEqImm g h a i) s) (exec (.cmpLtImm g h a i) s)
       (exec (.cmpLeImm g h a i) s) (exec (.cmpLtnImm g h a i) s) (exec (.cmpLenImm g h a i) s)
       (exec (.cmpTstImm g h a i) s))

/-- R205, R206: with a guard of 1, a write of a writable control register with an accepted value completes, and its value is
in flight to land at the end of the cycle; a read completes, and the register's value at the start of the cycle is in flight
for s D. With a guard of 0 a read, and a write of a register that may be written, leave the state as it is. R206, R185: a
write to a read-only control register, and of TPC outside the handler, is the illegal-slot fault 0xB whatever the guard, and
a value outside the register's bits is 0xA when the guard is 1. With a handler and outside it, the fault goes to TRAPVEC
with the slot and the cause in ILINFO and the bundle's address in ILADDR. R206: what comes between two cycles of a running
program, but for a resume, changes no read of the coming cycle, which finds every register as that cycle began, and its end
makes the reads of the next cycle see what stands then (that what comes between two cycles belongs to the coming one is the
model's reading, DEDUCED, log 10). -/
def Obligations.ControlRegisterMoves : Prop :=
  (∀ (s : State) (g : BitVec 4) (d a x y : BitVec 5) (n : Nat), n = y.toNat * 32 + x.toNat →
     (s.regs.rg g = true → ctlWritable n = true → (n = 0x150 → s.ctl.inHandler = true) → s.ctlValueOk n (s.regs.rs a) = true →
       exec (.movToControl g x a y) s = .next (s.inFlight 1 (.ctl n (s.regs.rs a)) 0)) ∧
     (s.regs.rg g = true → exec (.movFromControl g d x y) s = .next (s.inFlight 1 (.s d (s.ctlRead n)) 0)) ∧
     (s.regs.rg g = false → ctlWritable n = true → (n = 0x150 → s.ctl.inHandler = true) →
       exec (.movToControl g x a y) s = .next s) ∧
     (s.regs.rg g = false → exec (.movFromControl g d x y) s = .next s)) ∧
  (∀ (s t : State) (n : Nat), n < 0x300 → s.stream.mode = .running →
     (t.stream.mode = .running → t.stream.retries = s.stream.retries → t.begun = s.begun → (s.noted t).ctlRead n = s.ctlRead n) ∧
     ∀ power counts, (s.passTime power counts).ctlRead n = (s.passTime power counts).ctlNow n) ∧
  (∀ (s : State) (g : BitVec 4) (a x y : BitVec 5) (n : Nat), n = y.toNat * 32 + x.toNat → s.stream.ask.slot < 4 →
     let faults (c : Nat) (r : Out) : Prop :=
       r = .next (s.takeIllegal c s.stream.ask.slot false) ∧
       (s.ctl.trapvec ≠ 0 → s.ctl.inHandler = false →
         let t := s.takeIllegal c s.stream.ask.slot false
         t.stream.ask.faulted = true ∧ t.stream.pc = s.ctl.trapvec ∧ t.ctl.ilinfo.toNat = c + 16 * s.stream.ask.slot ∧
         t.ctl.iladdr = s.stream.pc ∧ t.stream.results = [] ∧ t.stream.save.map (·.results) = some s.stream.results)
     (ctlWritable n = false ∨ (n = 0x150 ∧ s.ctl.inHandler = false) → faults 0xB (exec (.movToControl g x a y) s)) ∧
     (ctlWritable n = true → (n = 0x150 → s.ctl.inHandler = true) → s.ctlValueOk n (s.regs.rs a) = false →
       s.regs.rg g = true → faults 0xA (exec (.movToControl g x a y) s)))

/-- R209, R210: the branch forms. P is the address of the bundle. A branch not guarded off asks for its target with the
bubble cycles of R189 and R210; one guarded off asks for none and, where fetched as taken, for four bubble cycles. None of
them writes a register at issue or memory but the lantern ring; CALL puts P + 16 in flight for s31 and pushes it, RET pops.
-/
def Obligations.Branches : Prop :=
  ∀ (s : State) (g : BitVec 4) (o : BitVec 19) (a : BitVec 5),
    let p := s.stream.pc
    let near := p + BitVec.ofInt 64 (16 * o.toInt)
    let far := BitVec.ofNat 64 ((s.regs.rs a).toNat / 16 * 16)
    let same (t : State) : Prop :=
      t.regs = s.regs ∧ t.tiles = s.tiles ∧ t.mem.loc = s.mem.loc ∧ t.mem.dram = s.mem.dram ∧ t.mem.host = s.mem.host ∧
      t.ports = s.ports ∧ t.lines = s.lines ∧ t.stream.pc = p
    let asks (t : State) (x : W64) (n : Nat) : Prop :=
      same t ∧ t.stream.ask.target = some x ∧ t.stream.ask.taken = true ∧ t.stream.ask.bubbles = n
    let skips (t : State) (n : Nat) : Prop := t = { s with stream.ask.bubbles := n }
    (s.regs.rg g = true →
      (∃ t, exec (.brT g o) s = .next t ∧ asks t near 0 ∧ t.stream.ras = s.stream.ras) ∧
      (∃ t, exec (.brNt g o) s = .next t ∧ asks t near 4 ∧ t.stream.ras = s.stream.ras) ∧
      (∃ t, exec (.call g o) s = .next t ∧ asks t near 0 ∧ t.stream.ras = ((p + 16) :: s.stream.ras).take 8 ∧
        t.stream.results = (s.inFlight 1 (.s 31 (p + 16)) 0).stream.results) ∧
      (∃ t, exec (.bri g a) s = .next t ∧ asks t far 4 ∧ t.stream.ras = s.stream.ras) ∧
      (∃ t, exec (.ret g a) s = .next t ∧ asks t far (if s.stream.ras.head? = some far then 0 else 4) ∧
        t.stream.ras = s.stream.ras.tail)) ∧
    (s.regs.rg g = false →
      (∃ t, exec (.brT g o) s = .next t ∧ skips t 4) ∧ exec (.brNt g o) s = .next s ∧
      (∃ t, exec (.call g o) s = .next t ∧ skips t 4) ∧ exec (.bri g a) s = .next s ∧ exec (.ret g a) s = .next s)

/-- R211, R213: LOOP with a trip count of zero branches past the body; otherwise it puts in flight the counter, the address
of the bundle behind it and that of the body's last bundle. With a guard of 0 it sets up nothing and branches nowhere,
whatever the trip count (R175, R211). LPOFF puts in flight that its loop becomes inactive. R212, R214: the loop test after
the bundle at Q, with no drain asked: the innermost active loop that ends there and has more than one iteration left goes
back to its start; a loop with at most one left becomes inactive with its counter at zero; with no active loop ending there
the next address is Q + 16. That a LOOP with no trips leaves its bundle as a taken branch does, so that no outer loop is
tested there (DEDUCED, log 56), and whether a back edge costs 2 bubble cycles, by what the loop buffer holds (DEDUCED, logs
20 and 56), are the model's readings. -/
def Obligations.HardwareLoops : Prop :=
  (∀ (s : State) (g : BitVec 4) (l : BitVec 2) (e : BitVec 10) (a : BitVec 5),
     let first := s.stream.pc + 16
     let last := first + BitVec.ofNat 64 (16 * e.toNat)
     (s.regs.rs a ≠ 0 →
       exec (.loop g l e a) s = .next (s.guarded g (s.inFlight 1 (.loop l (s.regs.rs a) first last) 0))) ∧
     (s.regs.rs a = 0 → s.regs.rg g = true → ∃ t, exec (.loop g l e a) s = .next t ∧
       t = { s with stream.ask := { s.stream.ask with target := some (last + 16), taken := true, bubbles := 4 } }) ∧
     (s.regs.rg g = false → exec (.loop g l e a) s = .next s) ∧
     exec (.lpoff g l) s = .next (s.guarded g (s.inFlight 1 (.lpoff l) 0))) ∧
  (∀ (s : State) (q : W64) (l : BitVec 2) (r : List (BitVec 2)), s.ctl.drainReq = false → s.stream.draining = none →
     s.loopTest q [] = (s, q + 16, 0) ∧
     (vget s.ctl.lend l.toNat 0 ≠ q → s.loopTest q (l :: r) = s.loopTest q r) ∧
     (vget s.ctl.lend l.toNat 0 = q → 1 < (vget s.ctl.lc l.toNat 0).toNat →
       s.loopTest q (l :: r) = ({ s with ctl.lc := vset s.ctl.lc l.toNat (vget s.ctl.lc l.toNat 0 - 1) },
         vget s.ctl.lstart l.toNat 0, if s.bodyHeld l then 0 else 2)) ∧
     (vget s.ctl.lend l.toNat 0 = q → (vget s.ctl.lc l.toNat 0).toNat ≤ 1 →
       s.loopTest q (l :: r) = ({ s with ctl := { s.ctl with
         lc := vset s.ctl.lc l.toNat 0, loops := s.ctl.loops.filter fun m => decide (m ≠ l) } } : State).loopTest q r))

/-- R215 to R218: a wait whose counters OCLD, OCST, OCCI and OCTO, as reads of this cycle find them, are within its limits
(0xF: no limit), a WAITT whose timeline has reached s A, and a
FENCE with no load and no store outstanding leave the state as it is; otherwise the bundle is held, whatever the guard.
R176, R180 to R184: NOP and an extension header change nothing; a repeat prefix asks for a repeat with its count, its
registers and their values at issue; LBMARK marks the loop body. -/
def Obligations.WaitsHeadersAndNop : Prop :=
  (∀ (s : State) (g l st c t k : BitVec 4) (a : BitVec 5),
     let within (m : BitVec 4) (n : Nat) : Prop := m = 15 ∨ n ≤ m.toNat
     let holds (done : Prop) (r : Out) : Prop :=
       (done → r = .next s) ∧ (¬ done → r = .next { s with stream.held := true })
     holds (within l (s.ctlRead 0x020).toNat ∧ within st (s.ctlRead 0x021).toNat ∧ within c (s.ctlRead 0x022).toNat ∧
       within t (s.ctlRead 0x023).toNat) (exec (.wait g l st c t) s) ∧
     (∀ n, s.begun.lookup n = none → s.ctlRead n = s.ctlNow n) ∧
     s.ctlNow 0x020 = BitVec.ofNat 64 (s.stream.ocld % 256) ∧ s.ctlNow 0x021 = BitVec.ofNat 64 (s.stream.ocst % 256) ∧
     s.ctlNow 0x022 = BitVec.ofNat 64 (s.eng.occi % 256) ∧ s.ctlNow 0x023 = BitVec.ofNat 64 (s.stream.octo % 256) ∧
     holds ((s.regs.rs a).toNat ≤ (s.line k.toNat).seen.toNat) (exec (.waitt g k a) s) ∧
     holds (s.stream.ocld = 0 ∧ s.stream.ocst = 0) (exec (.fence g) s)) ∧
  (∀ (s : State) (g : BitVec 4) (z y x : BitVec 8) (c : BitVec 12) (ax ay : BitVec 4) (v w : BitVec 1) (l : BitVec 6)
     (p : BitVec 1),
     exec (.nop g) s = .next s ∧ exec (.extHdr z y x) s = .next s ∧
     (∃ r : Repeat, exec (.repeatPfx c ax ay v w) s = .next { s with stream.ask.rpt := some r } ∧ r.left = c.toNat ∧
       r.ax = ax ∧ r.ay = ay ∧ (r.vx = true ↔ v = 1) ∧ (r.vy = true ↔ w = 1) ∧ r.ax0 = s.regs.ra ax ∧ r.ay0 = s.regs.ra ay ∧
       r.sx = s.regs.rn ax ∧ r.sy = s.regs.rn ay) ∧
     exec (.lbmark l p) s = .next { s with stream.ask.mark := some (l.toNat, p == 1) })

/-- R219 to R222, R42, R13, R135: scalar loads, stores and atomics, at the effective address of R220 (base plus offset in
units of the size, low bits cleared) with the post-increment. A load from the working store or the code store puts the bytes
of earlier cycles in flight for s D, zero-extended, to land after 6 cycles; a store and an atomic on the working store are
performed at the end of the cycle. R34, R35, R38, R221: on shared SRAM, an access is performed after 8 + 2h cycles, a load
lands after 14 + 2h and an atomic after 16 + 2h; loads and atomics count in OCLD, stores in OCST. R35, R36, R38: an access
to shared SRAM counts down with the cycles that count, is performed in the cycle in which none is left, with the bytes of
earlier cycles, and its value lands at the end of the cycle in which its own count is over. -/
def Obligations.ScalarMemoryWorkingStore : Prop :=
  (∀ (s : State) (g : BitVec 4) (d : BitVec 5) (a : BitVec 4) (u : BitVec 1) (off : BitVec 18) (op : BitVec 4)
     (so : BitVec 6) (size : Nat),
     let ea (o : Int) : Nat := ((s.regs.ra a).toNat + (o * size % 2 ^ 64).toNat) % 2 ^ 64 / size * size
     let inc (t : State) : State := if u = 1 then t.inFlight 1 (.a a (s.regs.ra a + s.regs.rn a)) 0 else t
     let gives (l : Nat → Landing) (lat : Nat) (o : Int) (r : Out) : Prop :=
       0x10000000 ≤ ea o → ea o < (if lat = 6 then 0x18080000 else 0x18000000) →
         r = .next (s.guarded g (inc (s.inFlight lat (l (ea o)) 0)))
     let sram (k : SramKind) (lands : Nat → Nat) (dest : LoadDest) (bs : List Byte) (o : Int) (r : Out) : Prop :=
       ea o < 0x10000000 →
         let h := 1 + ea o / 4096 % 8 + ea o / 32768 % 8
         let t : State := { s with stream := { s.stream with
           sram := s.stream.sram ++ [{
             seq := s.stream.seq, kind := k, addr := ea o, size := size, part := 0, performIn := 8 + 2 * h, landIn := lands h,
             dest := dest, bytes := bs, performed := false }],
           seq := s.stream.seq + 1 } }
         r = .next (s.guarded g (inc t)) ∧
         t.stream.ocld = s.stream.ocld + (if k = .store then 0 else 1) ∧ t.stream.ocst = s.stream.ocst + (if k = .store then 1 else 0)
     let loads (i : Instr) : Prop :=
       gives (fun e => .s d (BitVec.ofNat 64 (leNat (s.load e size)))) 6 off.toInt (exec i s) ∧
       sram .load (fun h => 14 + 2 * h - 1) (.s d) [] off.toInt (exec i s)
     let stores (i : Instr) : Prop :=
       gives (fun e => .wstore e (leBytes size (s.regs.rs d).toNat)) 1 off.toInt (exec i s) ∧
       sram .store (fun _ => 0) .none (leBytes size (s.regs.rs d).toNat) off.toInt (exec i s)
     let atomics (i : Instr) : Prop :=
       gives (fun e => .watomic op d e size (s.regs.rs d) (s.regs.rs (d + 1))) 1 so.toInt (exec i s) ∧
       sram (.atomic op (s.regs.rs (d + 1))) (fun h => 16 + 2 * h - 1) (.s d) (leBytes size (s.regs.rs d).toNat) so.toInt (exec i s)
     (size = 1 → loads (.ldB g d a u off) ∧ stores (.stB g d a u off)) ∧
     (size = 2 → loads (.ldH g d a u off) ∧ stores (.stH g d a u off)) ∧
     (size = 4 → loads (.ldW g d a u off) ∧ stores (.stW g d a u off) ∧ atomics (.atmW g d a u op so)) ∧
     (size = 8 → loads (.ldD g d a u off) ∧ stores (.stD g d a u off) ∧ atomics (.atmD g d a u op so))) ∧
  (∀ (s : State) (o : SramOp), s.stream.sram = [o] → o.performed = false →
     let r := s.sramCycle
     let less (o : SramOp) : SramOp := { o with performIn := o.performIn - 1, landIn := o.landIn - 1 }
     (0 < o.performIn → r = ({ s with stream.sram := [less o] }, [])) ∧
     (o.performIn = 0 → o.kind = .load → 0 < o.landIn →
       r = ({ s with stream.sram := [less { o with performed := true, bytes := s.load o.addr o.size }] }, [])) ∧
     (o.performIn = 0 → o.kind = .store → r = ({ s.store o.addr o.bytes with stream.sram := [] }, [])) ∧
     (o.performIn = 0 → ∀ op c, o.kind = .atomic op c → 0 < o.landIn →
       let x := s.atomic op o.addr o.size (leNat o.bytes) c.toNat
       r = ({ x.1 with stream.sram := [less { o with performed := true, bytes := leBytes o.size x.2 }] }, [])) ∧
     (∀ t : State, t.stream.sram = [{ o with performed := true }] → o.kind ≠ .store → o.landIn = 0 →
       t.sramCycle = ({ t with stream.sram := [] },
         [{ seq := o.seq, rem := 0, land := o.dest.landing o.bytes, flags := 0, sat := 0 }])))

/-! ## Results landing, memory, and the frame of register-only slots -/

/-- R36, R201, R223: what a landing result writes. Every scalar register but s0, every guard but g0 and g1 and every
predicate but k0 takes the value; all other registers of the file keep theirs; s0 reads 0, g0 1, g1 0 and k0 all lanes
always. GSET gives g2 to g15 its bits. R206, R207, R211, R213, R240, R242: results of loops, tile shapes, tiles and control
registers. A LOOP result sets its loop up as the most recent one, LPOFF makes it inactive, a TSHAPE result writes its
register, a tile result each of its bytes and no other, but for those bytes that a tile operation of a later bundle has
written in the cycle, which keep what that operation wrote (R245: tile writes of one cycle come in issue order; DEDUCED, log
10), and a control register that a move wrote reads as the value (SRSTATE as its constant for zero, R67) while every other
one reads as before. R36, R175: landing a register's value changes nothing but that register's file: no other register file,
no control register, no tile, no memory, no port and nothing of the package. -/
def Obligations.LandingWritesItsRegister : Prop :=
  (∀ (s : State) (n : Nat) (i j : BitVec 5) (p q : BitVec 4) (h k : BitVec 3) (x : W64) (b : Bool) (m y : BitVec 1024)
     (v : Vector W32 1024) (e : Fin 1024),
     ((s.land n (.s i x)).regs.rs j = if j = 0 then 0 else if j = i then x else s.regs.rs j) ∧
     ((s.land n (.a p x)).regs.ra q = if q = p then x else s.regs.ra q) ∧
     ((s.land n (.n p x)).regs.rn q = if q = p then x else s.regs.rn q) ∧
     ((s.land n (.e p x)).regs.re q.toNat = if q = p then x else s.regs.re q.toNat) ∧
     ((s.land n (.g p b)).regs.rg q = if q = 0 then true else if q = 1 then false else if q = p then b else s.regs.rg q) ∧
     ((s.land n (.k h m y)).regs.rk k =
       if k = 0 then BitVec.allOnes 1024 else if k = h then (s.regs.rk k &&& ~~~m) ||| (y &&& m) else s.regs.rk k) ∧
     (((s.land n (.v i m v)).regs.rv j)[e] = if j = i ∧ m.getLsbD e = true then v[e] else (s.regs.rv j)[e]) ∧
     (∀ w : W16, (s.land n (.gset w)).regs.rg q = if q = 0 then true else if q = 1 then false else w.getLsbD q.toNat)) ∧
  ((∀ (s : State) (n : Nat) (l p : BitVec 2) (x first last : W64) (i j : BitVec 4) (sh : BitVec 24),
     let t := s.land n (.loop l x first last)
     let off := s.ctl.loops.filter fun m => decide (m ≠ l)
     (t = { s with ctl := { s.ctl with lc := t.ctl.lc, lstart := t.ctl.lstart, lend := t.ctl.lend, loops := l :: off } } ∧
       vget t.ctl.lc p.toNat 0 = (if p = l then x else vget s.ctl.lc p.toNat 0) ∧
       vget t.ctl.lstart p.toNat 0 = (if p = l then first else vget s.ctl.lstart p.toNat 0) ∧
       vget t.ctl.lend p.toNat 0 = if p = l then last else vget s.ctl.lend p.toNat 0) ∧
     s.land n (.lpoff l) = { s with ctl.loops := off } ∧
     (s.land n (.tshape i sh) = { s with ctl.tshape := (s.land n (.tshape i sh)).ctl.tshape } ∧
       (s.land n (.tshape i sh)).tshapeOf j = if j = i then sh else s.tshapeOf j)) ∧
   (∀ (s : State) (n : Nat) (cs : List Host.Cell), cellsWf s.tiles.bytes = true → (cs.map (·.1)).Nodup →
     let t := s.land n (.tile cs)
     t = { s with tiles.bytes := t.tiles.bytes } ∧ cellsWf t.tiles.bytes = true ∧
     (∀ c ∈ cs, cellGet t.tiles.bytes c.1 = if s.tileOver n c.1 = true then cellGet s.tiles.bytes c.1 else c.2) ∧
     ∀ a, (∀ c ∈ cs, c.1 ≠ a) → cellGet t.tiles.bytes a = cellGet s.tiles.bytes a) ∧
   (∀ (s : State) (n m k : Nat) (x : W64), ctlWritable m = true → s.ctlValueOk m x = true → k ≠ m →
     let t := s.land n (.ctl m x)
     t.ctlNow m = (if m = 0x002 ∧ x = 0 then 0x9E3779B97F4A7C15#64 else x) ∧ t.ctlNow k = s.ctlNow k ∧
     t = { s with regs := { s.regs with b := t.regs.b }, ctl := t.ctl, lines := t.lines })) ∧
  (∀ (s : State) (n : Nat) (i : BitVec 5) (p : BitVec 4) (h : BitVec 3) (x : W64) (b : Bool) (m y : BitVec 1024)
     (v : Vector W32 1024),
     let others (t : State) (r : Regs) : Prop := t = { s with regs := r }
     others (s.land n (.s i x)) { s.regs with s := (s.land n (.s i x)).regs.s } ∧
     others (s.land n (.a p x)) { s.regs with a := (s.land n (.a p x)).regs.a } ∧
     others (s.land n (.n p x)) { s.regs with n := (s.land n (.n p x)).regs.n } ∧
     others (s.land n (.e p x)) { s.regs with e := (s.land n (.e p x)).regs.e } ∧
     others (s.land n (.g p b)) { s.regs with g := (s.land n (.g p b)).regs.g } ∧
     others (s.land n (.k h m y)) { s.regs with k := (s.land n (.k h m y)).regs.k } ∧
     others (s.land n (.v i m v)) { s.regs with v := (s.land n (.v i m v)).regs.v })

/-- R36: the end of a counted cycle. Results whose remaining count is above 1 stay in flight with one cycle less; the others
land; results that land in one cycle land in issue order, so the later bundle's value stands. For two results of one scalar
register that are due together, the register holds the value of the one issued later, in whatever order they stand. R36: a
result that is not yet due stays in flight with one counted cycle less and changes no register. R36, R73, R82: a result
whose count is over lands, and ORs its flags into VFLAGS and its saturated engines into MSAT. -/
def Obligations.LaterBundleWins : Prop :=
  (∀ (s : State) (d : BitVec 5) (x y : W64) (m n : Nat), d ≠ 0 → m < n →
     let r (k : Nat) (v : W64) : Result := { seq := k, rem := 1, land := .s d v, flags := 0, sat := 0 }
     (({ s with stream.results := [r m x, r n y] } : State).landDue true []).regs.rs d = y ∧
     (({ s with stream.results := [r n y, r m x] } : State).landDue true []).regs.rs d = y) ∧
  (∀ (s : State) (r : Result), 1 < r.rem → s.stream.results = [r] →
     s.landDue true [] = { s with stream.results := [{ r with rem := r.rem - 1 }] }) ∧
  (∀ (s : State) (r : Result), r.rem ≤ 1 → s.stream.results = [r] →
     let t := ({ s with stream.results := [] } : State).land r.seq r.land
     s.landDue true [] =
       { t with ctl := { t.ctl with vflags := t.ctl.vflags ||| r.flags, msat := t.ctl.msat ||| r.sat } })

/-- R42, R219: the bytes of a store that is performed. In a canonical memory, every byte of the range reads as the byte
stored, every byte outside reads as before, and the memory stays canonical. -/
def Obligations.StoredBytesReadBack : Prop :=
  ∀ (l : List Host.Cell) (a : Nat) (bs : List Byte), cellsWf l = true →
    cellsWf (putBytes l a bs) = true ∧
    ∀ b, cellGet (putBytes l a bs) b = if h : a ≤ b ∧ b - a < bs.length then bs[b - a]'h.2 else cellGet l b

/-- R42, R219 to R222: a store that lands on the working store leaves its bytes there, and an atomic the bytes of its new
value, computed from those of earlier cycles, or none when its compare fails: the frame of every store form. Registers,
control registers, tiles and every other byte stay; an atomic's old value comes back five cycles later. R222: the operations
of an atomic on a value of `size` bytes: what the location holds afterwards; fmax and fmin on f32, with −0 below +0 and the
canonical NaN for a NaN (R59). -/
def Obligations.WorkingStoreFrame : Prop :=
  (∀ (s : State) (n a : Nat) (bs : List Byte) (op : BitVec 4) (d : BitVec 5) (size : Nat) (x c : W64),
     cellsWf s.mem.loc = true →
     let keeps (t : State) (len : Nat) : Prop :=
       t.regs = s.regs ∧ t.ctl = s.ctl ∧ t.tiles = s.tiles ∧ t.mem.dram = s.mem.dram ∧ t.mem.host = s.mem.host ∧
       t.ports = s.ports ∧ t.lines = s.lines ∧ t.pkg = s.pkg ∧
       ∀ b, ¬ (a ≤ b ∧ b < a + len) → cellGet t.mem.loc b = cellGet s.mem.loc b
     keeps (s.land n (.wstore a bs)) bs.length ∧ keeps (s.land n (.watomic op d a size x c)) size ∧
     (s.land n (.wstore a bs)).stream = s.stream ∧
     (s.land n (.watomic op d a size x c)).stream.results = s.stream.results ++
       [{ seq := n, rem := 5, land := .s d (BitVec.ofNat 64 (leNat (s.load a size))), flags := 0, sat := 0 }] ∧
     (∀ b, (h : a ≤ b ∧ b - a < bs.length) → cellGet (s.land n (.wstore a bs)).mem.loc b = bs[b - a]'h.2) ∧
     (s.mem.undo = [] → s.load a size = getBytes s.mem.loc a size) ∧
     (match atomicNew op size (leNat (s.load a size)) (x.toNat % 2 ^ (8 * size)) (c.toNat % 2 ^ (8 * size)) with
      | some y => leNat (getBytes (s.land n (.watomic op d a size x c)).mem.loc a size) = y % 2 ^ (8 * size)
      | none => (s.land n (.watomic op d a size x c)).mem.loc = s.mem.loc)) ∧
  (∀ (size old x c : Nat), (size = 4 ∨ size = 8) → old < 2 ^ (8 * size) → x < 2 ^ (8 * size) → c < 2 ^ (8 * size) →
     let w := 8 * size
     let signed (n : Nat) : Int := if n < 2 ^ (w - 1) then n else (n : Int) - 2 ^ w
     atomicNew 0 size old x c = some x ∧ atomicNew 1 size old x c = some ((old + x) % 2 ^ w) ∧
     atomicNew 2 size old x c = some (old &&& x) ∧ atomicNew 3 size old x c = some (old ||| x) ∧
     atomicNew 4 size old x c = some (old ^^^ x) ∧
     (∃ v, atomicNew 5 size old x c = some v ∧ (v = old ∨ v = x) ∧ signed old ≤ signed v ∧ signed x ≤ signed v) ∧
     (∃ v, atomicNew 6 size old x c = some v ∧ (v = old ∨ v = x) ∧ signed v ≤ signed old ∧ signed v ≤ signed x) ∧
     atomicNew 7 size old x c = some (max old x) ∧ atomicNew 8 size old x c = some (min old x) ∧
     atomicNew 9 size old x c = (if old = c then some x else none) ∧
     (size = 4 →
       let nan : Prop := (f32.decode old).isNan = true ∨ (f32.decode x).isNan = true
       (∃ v, atomicNew 0xA size old x c = some v ∧ (nan → v = 0x7FC00000) ∧
         (¬ nan → (v = old ∨ v = x) ∧ f32.key old ≤ f32.key v ∧ f32.key x ≤ f32.key v)) ∧
       (∃ v, atomicNew 0xB size old x c = some v ∧ (nan → v = 0x7FC00000) ∧
         (¬ nan → (v = old ∨ v = x) ∧ f32.key v ≤ f32.key old ∧ f32.key v ≤ f32.key x))))

/-- R175, R201, R203 to R208: the frame of the register-only scalar slots. Whatever the guard, no register, no control
register, no flag, no tile, no byte of memory, no timeline, no queue and no port changes at issue; only results are put in
flight. R223, R201: the frame of the register-only vector slots. At issue nothing changes but the results in flight and, for
a conversion in mode sr, SRSTATE. -/
def Obligations.RegisterSlotFrame : Prop :=
  (∀ (i : Instr) (s t : State), i.scalarOnly = true → exec i s = .next t →
     t = { s with stream := { s.stream with results := t.stream.results, seq := t.stream.seq } } ∧
     ∃ rs, t.stream.results = s.stream.results ++ rs ∧
       ∀ r ∈ rs, r.flags = 0 ∧ r.sat = 0 ∧ r.land.isRegister = true) ∧
  (∀ (i : Instr) (s t : State), i.vectorOnly = true → exec i s = .next t →
     t = { s with ctl.srstate := t.ctl.srstate, stream := { s.stream with results := t.stream.results, seq := t.stream.seq } } ∧
     ∃ rs, t.stream.results = s.stream.results ++ rs ∧ ∀ r ∈ rs, r.sat = 0 ∧ r.land.isRegister = true)

/-! ## Vector instructions -/

/-- R223, R225: the 32-bit integer and logic forms, lane by lane under the predicate, latency 2, no flag. Shift amounts are
the low five bits. R225, R56: the packed forms on two 16-bit or four 8-bit elements of each lane. The wrapping forms give
every element modulo 2^w and no flag; the clamping forms clamp to the signed range and raise `saturated` in a lane where
they clamp. -/
def Obligations.VectorInteger : Prop :=
  (∀ (s : State) (g : BitVec 4) (d a b : BitVec 5) (k : BitVec 3),
     let gives (f : W32 → W32 → W32) (r : Out) : Prop :=
       r = .next (s.guarded g (s.inFlight 2 (.v d (s.regs.rk k)
         (Vector.ofFn fun j : Fin 1024 => f ((s.regs.rv a)[j]) ((s.regs.rv b)[j]))) 0))
     gives (fun x y => x &&& y) (exec (.vand g d a b k) s) ∧ gives (fun x y => x ||| y) (exec (.vor g d a b k) s) ∧
     gives (fun x y => x ^^^ y) (exec (.vxor g d a b k) s) ∧ gives (fun x y => x &&& ~~~y) (exec (.vandn g d a b k) s) ∧
     gives (fun x y => x + y) (exec (.vaddI32 g d a b k) s) ∧ gives (fun x y => x - y) (exec (.vsubI32 g d a b k) s) ∧
     gives (fun x y => x * y) (exec (.vmulI32 g d a b k) s) ∧
     gives (fun x y => BitVec.ofInt 32 (min x.toInt y.toInt)) (exec (.vminI32 g d a b k) s) ∧
     gives (fun x y => BitVec.ofInt 32 (max x.toInt y.toInt)) (exec (.vmaxI32 g d a b k) s) ∧
     gives (fun x y => BitVec.ofNat 32 (min x.toNat y.toNat)) (exec (.vminN32 g d a b k) s) ∧
     gives (fun x y => BitVec.ofNat 32 (max x.toNat y.toNat)) (exec (.vmaxN32 g d a b k) s) ∧
     gives (fun x y => x <<< (y.toNat % 32)) (exec (.vshlI32 g d a b k) s) ∧
     gives (fun x y => x >>> (y.toNat % 32)) (exec (.vshrN32 g d a b k) s) ∧
     gives (fun x y => x.sshiftRight (y.toNat % 32)) (exec (.vsarI32 g d a b k) s)) ∧
  (∀ (s : State) (g : BitVec 4) (d a b : BitVec 5) (k : BitVec 3),
     let el (w : Nat) (x : W32) (i : Nat) : Nat := x.toNat / 2 ^ (w * i) % 2 ^ w
     let signed (w n : Nat) : Int := if n < 2 ^ (w - 1) then n else (n : Int) - 2 ^ w
     let wraps (w : Nat) (f : Int → Int → Int) (r : Out) : Prop :=
       ∃ z : Fin 1024 → W32, VectorResult s s g 2 d k (fun j => (z j, 0)) r ∧
         ∀ j : Fin 1024, ∀ i < 32 / w, (el w (z j) i : Int) = f (el w ((s.regs.rv a)[j]) i) (el w ((s.regs.rv b)[j]) i) % 2 ^ w
     let clamps (w : Nat) (f : Int → Int → Int) (r : Out) : Prop :=
       ∃ z : Fin 1024 → W32 × BitVec 6, VectorResult s s g 2 d k z r ∧
         ∀ j : Fin 1024,
           let e (i : Nat) : Int := f (signed w (el w ((s.regs.rv a)[j]) i)) (signed w (el w ((s.regs.rv b)[j]) i))
           (∀ i < 32 / w, signed w (el w (z j).1 i) = max (-2 ^ (w - 1)) (min (e i) (2 ^ (w - 1) - 1))) ∧
           ((z j).2 = if ∃ i < 32 / w, e i < -2 ^ (w - 1) ∨ 2 ^ (w - 1) ≤ e i then Flag.saturated else 0)
     wraps 16 (fun x y => x + y) (exec (.vaddI16 g d a b k) s) ∧ wraps 16 (fun x y => x - y) (exec (.vsubI16 g d a b k) s) ∧
     wraps 8 (fun x y => x + y) (exec (.vaddI8 g d a b k) s) ∧ wraps 8 (fun x y => x - y) (exec (.vsubI8 g d a b k) s) ∧
     clamps 16 (fun x y => x + y) (exec (.vaddsI16 g d a b k) s) ∧ clamps 16 (fun x y => x - y) (exec (.vsubsI16 g d a b k) s) ∧
     clamps 8 (fun x y => x + y) (exec (.vaddsI8 g d a b k) s) ∧ clamps 8 (fun x y => x - y) (exec (.vsubsI8 g d a b k) s))

/-- R226: the dot products of the codes 0x3C to 0x3F execute only on a B0 die whose job's launch record says rev 2; in every
other case they raise the illegal-slot fault with cause 0x8, whatever their guard. -/
def Obligations.RevisionTwoDotProducts : Prop :=
  ∀ (s : State) (g : BitVec 4) (d a b c : BitVec 5) (k : BitVec 3), s.stream.ask.slot < 4 →
    let b0 : Prop := s.ctl.encrev.toNat % 16 = 2
    let el (w : Nat) (x : W32) (i : Nat) : Nat := x.toNat / 2 ^ (w * i) % 2 ^ w
    let int (w : Nat) (sg : Bool) (n : Nat) : Int := if sg = true ∧ 2 ^ (w - 1) ≤ n then (n : Int) - 2 ^ w else n
    let form (w : Nat) (sg : Bool) (r : Out) : Prop :=
      (b0 ∧ s.ctl.rev = 2 →
        ∃ z : Fin 1024 → W32, VectorResult s s g 2 d k (fun j => (z j, 0)) r ∧
          ∀ j : Fin 1024, z j = BitVec.ofInt 32 ((((s.regs.rv c)[j]).toNat : Int) +
            ((List.range (32 / w)).map fun i =>
              int w sg (el w ((s.regs.rv a)[j]) i) * int w sg (el w ((s.regs.rv b)[j]) i)).sum)) ∧
      (¬ (b0 ∧ s.ctl.rev = 2) →
        r = .next (s.takeIllegal 0x8 s.stream.ask.slot false) ∧
        (s.ctl.trapvec ≠ 0 → s.ctl.inHandler = false →
          let t := s.takeIllegal 0x8 s.stream.ask.slot false
          t.stream.ask.faulted = true ∧ t.stream.pc = s.ctl.trapvec ∧ t.ctl.ilinfo.toNat = 0x8 + 16 * s.stream.ask.slot))
    form 8 true (exec (.vdot4I8 g d a b k c) s) ∧ form 8 false (exec (.vdot4N8 g d a b k c) s) ∧
    form 16 true (exec (.vdot2I16 g d a b k c) s) ∧ form 16 false (exec (.vdot2N16 g d a b k c) s)

/-- R227, R228: the floating-point forms, latency 5 (4 for the approximations), lane by lane or on two 16-bit elements of a
lane, with the operations of the model's formats; each lane selected raises the flags of its own operation. R59, R73, R228:
sums and products of finite values are exact, with a zero product signed by both factors and a zero sum −0 only from two −0;
∞ − ∞ and 0 × ∞ are invalid; a NaN gives NaN and no flag; an operation of a format stores the exact result, rounded once to
nearest. R58, R66: rounding of x = m · 2^e > 0 to a format, over its magnitude codes in order (the value of code c is that
of its exponent and fraction fields, subnormals included, with the exponent unbounded at the top): with c the code whose
interval holds x, and p how far x lies into it, mode rz gives c, mode rne the nearer of c and c + 1, an even one at a tie,
and mode sr c + 1 exactly when the draw is below ⌊p · 2^32⌋; the result is inexact unless x is the value of c. R59: the
minimum and the maximum of two numbers are those of their values, −0 below +0 and ±∞ at the ends; of a NaN and anything the
canonical NaN. R80, R81: the reciprocal of |x| from 2^e (1 + i / 128) up to 2^e (1 + (i + 1) / 128), with T the nearest
integer to 2^24 / (1 + i / 128), is T · 2^(−24 − e) rounded to nearest, with the sign of x; the reciprocal root of x > 0, with
T the nearest integer to 2^24 / √(1 + i / 128), is T · 2^(−24 − e/2) for e even, and for e odd the product of T · 2^−24 and
0x3F3504F3 rounded to nearest, scaled by 2^(−(e − 1)/2), inexact when that rounding is; zero gives ±∞ and divide by zero, a
negative operand of the root a NaN and invalid, ∞ a zero. -/
def Obligations.VectorFloat : Prop :=
  (∀ (s : State) (g : BitVec 4) (d a b c : BitVec 5) (k : BitVec 3),
     let x (j : Fin 1024) : Nat := ((s.regs.rv a)[j]).toNat
     let y (j : Fin 1024) : Nat := ((s.regs.rv b)[j]).toNat
     let z (j : Fin 1024) : Nat := ((s.regs.rv c)[j]).toNat
     let word (r : Nat × BitVec 6) : W32 × BitVec 6 := (BitVec.ofNat 32 r.1, r.2)
     let half (r0 r1 : Nat × BitVec 6) : W32 × BitVec 6 := (BitVec.ofNat 32 (r0.1 % 2 ^ 16 + 2 ^ 16 * (r1.1 % 2 ^ 16)), r0.2 ||| r1.2)
     let lo (n : Nat) : Nat := n % 2 ^ 16
     let hi (n : Nat) : Nat := n / 2 ^ 16 % 2 ^ 16
     let gives (n : Nat) (f : Fin 1024 → W32 × BitVec 6) (r : Out) : Prop := VectorResult s s g n d k f r
     gives 5 (fun j => word (f32.addB (x j) (y j))) (exec (.vaddF32 g d a b k) s) ∧
     gives 5 (fun j => word (f32.subB (x j) (y j))) (exec (.vsubF32 g d a b k) s) ∧
     gives 5 (fun j => word (f32.mulB (x j) (y j))) (exec (.vmulF32 g d a b k) s) ∧
     gives 5 (fun j => word (f32.fmaB (x j) (y j) (z j) false)) (exec (.vfmaF32 g d a b k c) s) ∧
     gives 5 (fun j => word (f32.fmaB (x j) (y j) (z j) true)) (exec (.vfmsF32 g d a b k c) s) ∧
     gives 5 (fun j => (BitVec.ofNat 32 (f32.minB (x j) (y j)), 0)) (exec (.vminF32 g d a b k) s) ∧
     gives 5 (fun j => (BitVec.ofNat 32 (f32.maxB (x j) (y j)), 0)) (exec (.vmaxF32 g d a b k) s) ∧
     gives 5 (fun j => half (bf16.addB (lo (x j)) (lo (y j))) (bf16.addB (hi (x j)) (hi (y j)))) (exec (.vaddBf16 g d a b k) s) ∧
     gives 5 (fun j => half (bf16.subB (lo (x j)) (lo (y j))) (bf16.subB (hi (x j)) (hi (y j)))) (exec (.vsubBf16 g d a b k) s) ∧
     gives 5 (fun j => half (bf16.mulB (lo (x j)) (lo (y j))) (bf16.mulB (hi (x j)) (hi (y j)))) (exec (.vmulBf16 g d a b k) s) ∧
     gives 5 (fun j => half (f16.addB (lo (x j)) (lo (y j))) (f16.addB (hi (x j)) (hi (y j)))) (exec (.vaddF16 g d a b k) s) ∧
     gives 5 (fun j => half (f16.mulB (lo (x j)) (lo (y j))) (f16.mulB (hi (x j)) (hi (y j)))) (exec (.vmulF16 g d a b k) s) ∧
     gives 5 (fun j => half (bf16.fmaB (lo (x j)) (lo (y j)) (lo (z j)) false) (bf16.fmaB (hi (x j)) (hi (y j)) (hi (z j)) false))
       (exec (.vfmaBf16 g d a b k c) s) ∧
     gives 5 (fun j => half (f16.fmaB (lo (x j)) (lo (y j)) (lo (z j)) false) (f16.fmaB (hi (x j)) (hi (y j)) (hi (z j)) false))
       (exec (.vfmaF16 g d a b k c) s) ∧
     gives 4 (fun j => word (rcpa (x j))) (exec (.vrcpaF32 g d a k) s) ∧ gives 4 (fun j => word (rsqa (x j))) (exec (.vrsqaF32 g d a k) s)) ∧
  (let num : FVal → Option ℚ := fun v => match v with
     | .zero _ => some 0
     | .fin neg m e => if m = 0 then none else some ((if neg then -1 else 1) * m * 2 ^ e)
     | _ => none
   (∀ (x y : FVal) (a b : ℚ), num x = some a → num y = some b →
     num (x.add y).1 = some (a + b) ∧ (x.add y).2 = false ∧ num (x.mul y).1 = some (a * b) ∧ (x.mul y).2 = false ∧
     (a + b = 0 → (x.add y).1 = .zero (decide (a = 0) && x.neg && y.neg)) ∧ (x.mul y).1.neg = (x.neg != y.neg)) ∧
   (∀ (p q : Bool) (y : FVal) (b : ℚ), num y = some b →
     (FVal.inf p).add (.inf q) = (if p = q then (.inf p, false) else (.nan, true)) ∧
     (FVal.inf p).add y = (.inf p, false) ∧ y.add (.inf p) = (.inf p, false) ∧
     (FVal.inf p).mul (.inf q) = (.inf (p != q), false) ∧
     (FVal.inf p).mul y = (if b = 0 then (.nan, true) else (.inf (p != y.neg), false)) ∧
     y.mul (.inf p) = (if b = 0 then (.nan, true) else (.inf (y.neg != p), false))) ∧
   (∀ y : FVal, FVal.nan.add y = (.nan, false) ∧ y.add .nan = (.nan, false) ∧ FVal.nan.mul y = (.nan, false) ∧
     y.mul .nan = (.nan, false)) ∧
   (∀ f ∈ [f32, f16, bf16], ∀ x y z : Nat,
     let a := f.decode x
     let b := f.decode y
     let c := f.decode z
     let stored (r : FVal × Bool) : Nat × BitVec 6 := if r.2 then (f.qnan, Flag.invalid) else f.pack r.1 .rne 0
     f.addB x y = stored (a.add b) ∧ f.subB x y = stored (a.add b.negate) ∧ f.mulB x y = stored (a.mul b) ∧
     (a = .nan ∨ b = .nan ∨ c = .nan → ∀ sub, f.fmaB x y z sub = (f.qnan, 0)) ∧
     (a ≠ .nan → b ≠ .nan → c ≠ .nan → (a.mul b).2 = true → ∀ sub, f.fmaB x y z sub = (f.qnan, Flag.invalid)) ∧
     (a ≠ .nan → b ≠ .nan → c ≠ .nan → (a.mul b).2 = false →
       f.fmaB x y z false = stored ((a.mul b).1.add c) ∧ f.fmaB x y z true = stored ((a.mul b).1.add c.negate)))) ∧
  (∀ f ∈ [f32, f16, bf16, e4m3, e5m2], ∀ (m u : Nat) (e : Int), 0 < m →
     let x : ℚ := m * 2 ^ e
     let frac (c : Nat) : Nat := if c < 2 ^ f.fbits then c else 2 ^ f.fbits + c % 2 ^ f.fbits
     let expo (c : Nat) : Int := if c < 2 ^ f.fbits then f.emin else ((c / 2 ^ f.fbits : Nat) : Int) - f.bias
     let val (c : Nat) : ℚ := frac c * 2 ^ (expo c - f.fbits)
     ∃ c : Nat, val c ≤ x ∧ x < val (c + 1) ∧
       let p := (x - val c) / (val (c + 1) - val c)
       (f.round m e .rz u).1 = c ∧
       (f.round m e .rne u).1 = (if p < 1 / 2 then c else if 1 / 2 < p then c + 1 else if c % 2 = 0 then c else c + 1) ∧
       (f.round m e .sr u).1 = (if (u : Int) < ⌊p * 2 ^ 32⌋ then c + 1 else c) ∧
       ∀ mode, (f.round m e mode u).2 = decide (x ≠ val c)) ∧
  (let ext : FVal → WithBot (WithTop ℚ) := fun v => match v with
     | .nan => ⊥
     | .inf neg => if neg then ⊥ else ((⊤ : WithTop ℚ) : WithBot (WithTop ℚ))
     | .zero _ => ((0 : ℚ) : WithTop ℚ)
     | .fin neg m e => ((((if neg then -1 else 1) * m * 2 ^ e : ℚ) : WithTop ℚ) : WithBot (WithTop ℚ))
   ∀ x y : Nat, x < 2 ^ 32 → y < 2 ^ 32 →
     let a := f32.decode x
     let b := f32.decode y
     (a = .nan ∨ b = .nan → f32.minB x y = 0x7FC00000 ∧ f32.maxB x y = 0x7FC00000) ∧
     (a ≠ .nan → b ≠ .nan →
       (ext a < ext b ∨ (a = .zero true ∧ b = .zero false) → f32.minB x y = x ∧ f32.maxB x y = y) ∧
       (ext b < ext a ∨ (b = .zero true ∧ a = .zero false) → f32.minB x y = y ∧ f32.maxB x y = x) ∧
       (x = y → f32.minB x y = x ∧ f32.maxB x y = x))) ∧
  (∀ x : Nat,
     let sign (neg : Bool) : Nat := if neg then 0x80000000 else 0
     let near (q : ℚ) (e : Int) (i : Nat) : Prop := i < 128 ∧ 2 ^ e * (1 + (i : ℚ) / 128) ≤ q ∧ q < 2 ^ e * (1 + ((i : ℚ) + 1) / 128)
     match f32.decode x with
     | .nan => rcpa x = (0x7FC00000, 0) ∧ rsqa x = (0x7FC00000, 0)
     | .zero neg => rcpa x = (0x7F800000 + sign neg, Flag.divZero) ∧ rsqa x = (0x7F800000 + sign neg, Flag.divZero)
     | .inf neg => rcpa x = (sign neg, 0) ∧ rsqa x = if neg then (0x7FC00000, Flag.invalid) else (0, 0)
     | .fin neg m k => 0 < m → ∃ (e : Int) (i T S : Nat), near (m * 2 ^ k) e i ∧
       2 ^ 32 < (2 * T + 1) * (128 + i) ∧ 2 * T * (128 + i) < 2 ^ 32 + (128 + i) ∧ rcpa x = f32.pack (.fin neg T (-24 - e)) .rne 0 ∧
       (2 * (S : Int) - 1) ^ 2 * (128 + i) < 2 ^ 57 ∧ (2 : Int) ^ 57 < (2 * S + 1) ^ 2 * (128 + i) ∧
       (neg = true → rsqa x = (0x7FC00000, Flag.invalid)) ∧
       (neg = false → e % 2 = 0 → rsqa x = f32.pack (.fin false S (-24 - e / 2)) .rne 0) ∧
       (neg = false → e % 2 = 1 → ∃ n d,
         let r := f32.round (S * 0xB504F3) (-48) .rne 0
         f32.decode r.1 = .fin false n d ∧
         rsqa x = ((f32.pack (.fin false n (d - (e - 1) / 2)) .rne 0).1, if r.2 then Flag.inexact else 0)))

/-- R229 to R231, R66 to R68: conversions of 32-bit elements in place and to narrower formats, latency 3. In mode sr they
take one draw for each element produced, in element order, and advance SRSTATE at issue; in the other modes none. R231,
R232: the widening forms, exact and without flags: element n l + j of v A goes to lane l of v D + j; and the q4 forms, of
which the encoder writes the whole register (codes, then the 32 scale bytes) and the decoder a lane per element. R69, R70: a
rounded value is stored with its sign; underflow and inexact when it is not exact and subnormal or zero. On overflow f32,
f16 and bf16 store ±∞, or the largest finite value in mode rz, with overflow and inexact; e4m3 and e5m2 the largest finite
value with saturated and inexact, or under .nan the canonical NaN with overflow and inexact. NaN is stored as the canonical
NaN, ±∞ and ±0 as they are, but ±∞ in e4m3 and e5m2 as the largest finite value (saturated) or under .nan as NaN (overflow).
R70, R230: cvt_int of a finite x to w bits: ⌊x⌋, the next integer or the one toward zero by the mode, clamped to the format
with the saturated flag, and inexact when it is not x; NaN gives 0 and invalid, ±∞ the maximum or minimum and saturated.
R64, R71: a finite x is encoded for q4 over the magnitudes of its type (−8 to 7 for type 0): clamped beyond the largest,
saturated and inexact; between two neighbours the one toward zero in mode rz, the nearer, at a tie the even code, in mode
rne, and by the draw in mode sr, inexact unless exact. R72, R232: the scale of a block of 32 without a NaN has EXP 0 when
every element is zero, and otherwise the least EXP from 0 to 62 for which every magnitude is at most the type's largest
times 2^(EXP − 32), or 62 when there is none; a block with a NaN has EXP 63, codes 0 and no flag (that its other elements
set none is the model's choice, log 49). The bytes of the register above the scales are zero, and its flags are those of
its blocks. -/
def Obligations.VectorConversions : Prop :=
  (∀ (s : State) (g : BitVec 4) (d a : BitVec 5) (m : BitVec 2) (n : BitVec 1) (k : BitVec 3),
     let dr (c : Nat) : List Nat × State := s.roundingDraws m c
     let x (i : Nat) (j : Fin 1024) : Nat := ((s.regs.rv (a + BitVec.ofNat 5 i))[j]).toNat
     let one (f : Nat → Nat → Nat × BitVec 6) (r : Out) : Prop :=
       VectorResult s (dr 1024).2 g 3 d k (fun j => let y := f (x 0 j) ((dr 1024).1.getD j 0); (BitVec.ofNat 32 y.1, y.2)) r
     let two (f : Nat → Nat → Nat × BitVec 6) (r : Out) : Prop :=
       VectorResult s (dr 2048).2 g 3 d k (fun j =>
         let y (i : Nat) := f (x i j) ((dr 2048).1.getD (2 * j + i) 0)
         (BitVec.ofNat 32 ((y 0).1 % 2 ^ 16 + 2 ^ 16 * ((y 1).1 % 2 ^ 16)), (y 0).2 ||| (y 1).2)) r
     let four (f : Nat → Nat → Nat × BitVec 6) (r : Out) : Prop :=
       VectorResult s (dr 4096).2 g 3 d k (fun j =>
         let y (i : Nat) := f (x i j) ((dr 4096).1.getD (4 * j + i) 0)
         (BitVec.ofNat 32 ((y 0).1 % 256 + 2 ^ 8 * ((y 1).1 % 256) + 2 ^ 16 * ((y 2).1 % 256) + 2 ^ 24 * ((y 3).1 % 256)),
           (y 0).2 ||| (y 1).2 ||| (y 2).2 ||| (y 3).2)) r
     let md := Rnd.of m
     one (fun v u => f32.pack (.ofZ (toSigned 32 v)) md u) (exec (.vcvtF32I32 g d a m k) s) ∧
     one (fun v u => f32.pack (.ofZ v) md u) (exec (.vcvtF32N32 g d a m k) s) ∧
     one (fun v u => cvtInt (f32.decode v) 32 true md u) (exec (.vcvtI32F32 g d a m k) s) ∧
     one (fun v u => cvtInt (f32.decode v) 32 false md u) (exec (.vcvtN32F32 g d a m k) s) ∧
     two (fun v u => bf16.pack (f32.decode v) md u) (exec (.vcvtBf16F32 g d a m k) s) ∧
     two (fun v u => f16.pack (f32.decode v) md u) (exec (.vcvtF16F32 g d a m k) s) ∧
     four (fun v u => e4m3.pack8 (f32.decode v) md (n == 1) u) (exec (.vcvtE4m3F32 g d a m n k) s) ∧
     four (fun v u => e5m2.pack8 (f32.decode v) md (n == 1) u) (exec (.vcvtE5m2F32 g d a m n k) s)) ∧
  (∀ (s : State) (g : BitVec 4) (d a : BitVec 5) (f m t : BitVec 2) (k : BitVec 3),
     let fmt : Fmt := if f = 0 then bf16 else if f = 1 then f16 else if f = 2 then e4m3 else e5m2
     let w := if f = 0 ∨ f = 1 then 16 else 8
     let x (l : Fin 1024) : Nat := ((s.regs.rv a)[l]).toNat
     let part (j : Nat) : Landing := .v (d + BitVec.ofNat 5 j) (s.regs.rk k) (Vector.ofFn fun l =>
       BitVec.ofNat 32 (f32.pack (fmt.decode (x l / 2 ^ (w * j) % 2 ^ w)) .rne 0).1)
     (w = 16 → exec (.vcvtF32Widen g d a f k) s = .next (s.guarded g ((s.inFlight 3 (part 0) 0).inFlight 3 (part 1) 0))) ∧
     (w = 8 → exec (.vcvtF32Widen g d a f k) s = .next (s.guarded g
       ((((s.inFlight 3 (part 0) 0).inFlight 3 (part 1) 0).inFlight 3 (part 2) 0).inFlight 3 (part 3) 0))) ∧
     (∃ (v : Vector W32 1024) (fl : BitVec 6), exec (.vcvtQ4F32 g d a m t) s =
         .next (s.guarded g ((s.roundingDraws m 1024).2.inFlight 3 (.v d (BitVec.allOnes 1024) v) fl)) ∧
       (let e (b : Nat) := encodeBlock ((List.range 32).map fun i => f32.decode (((s.regs.rv a).toList.getD (32 * b + i) 0).toNat))
           t.toNat (Rnd.of m) ((List.range 32).map fun i => (s.roundingDraws m 1024).1.getD (32 * b + i) 0)
        (∀ b < 32, (∀ i < 32, byteOf v (16 * b + i / 2) / 16 ^ (i % 2) % 16 = (e b).1.getD i 0 % 16) ∧
          byteOf v (512 + b) = (e b).2.1 % 256) ∧
        (∀ i < 6, fl.getLsbD i = true ↔ ∃ b < 32, (e b).2.2.getLsbD i = true)) ∧
       ∀ i, 544 ≤ i → i < 4096 → byteOf v i = 0) ∧
     VectorResult s s g 3 d k (fun l =>
       let code := byteOf (s.regs.rv a) (l / 2) / 16 ^ (l.val % 2) % 16
       (BitVec.ofNat 32 (f32.pack (decodeQ4 code (byteOf (s.regs.rv a) (512 + l / 32))) .rne 0).1, 0))
       (exec (.vcvtF32Q4 g d a k) s)) ∧
  (∀ (neg nv : Bool) (m u : Nat) (e : Int) (mode : Rnd), 0 < m →
     let code (f : Fmt) (c : Nat) : Nat := (if neg then 2 ^ (f.ebits + f.fbits) else 0) + c
     let small (f : Fmt) : BitVec 6 :=
       if (f.round m e mode u).2 = false then 0
       else if (f.round m e mode u).1 < 2 ^ f.fbits then Flag.inexact ||| Flag.underflow else Flag.inexact
     (∀ f ∈ [f32, f16, bf16],
       ((f.round m e mode u).1 ≤ f.maxMag → f.pack (.fin neg m e) mode u = (code f (f.round m e mode u).1, small f)) ∧
       (f.maxMag < (f.round m e mode u).1 → f.pack (.fin neg m e) mode u =
         (code f (if mode = .rz then f.maxMag else f.maxMag + 1), Flag.overflow ||| Flag.inexact)) ∧
       f.pack .nan mode u = (f.qnan, 0) ∧ f.pack (.inf neg) mode u = (code f (f.maxMag + 1), 0) ∧
       f.pack (.zero neg) mode u = (code f 0, 0)) ∧
     (∀ f ∈ [e4m3, e5m2],
       ((f.round m e mode u).1 ≤ f.maxMag → f.pack8 (.fin neg m e) mode nv u = (code f (f.round m e mode u).1, small f)) ∧
       (f.maxMag < (f.round m e mode u).1 → f.pack8 (.fin neg m e) mode nv u =
         if nv then (f.qnan, Flag.overflow ||| Flag.inexact) else (code f f.maxMag, Flag.saturated ||| Flag.inexact)) ∧
       f.pack8 .nan mode nv u = (f.qnan, 0) ∧
       f.pack8 (.inf neg) mode nv u = (if nv then (f.qnan, Flag.overflow) else (code f f.maxMag, Flag.saturated)) ∧
       f.pack8 (.zero neg) mode nv u = (code f 0, 0))) ∧
  (∀ (w : Nat) (signed neg : Bool) (m u : Nat) (e : Int) (mode : Rnd), w ∈ [8, 16, 32] → 0 < m →
     let x : ℚ := (if neg then -1 else 1) * m * 2 ^ e
     let i := ⌊x⌋
     let p := x - i
     let y : Int := match mode with
       | .rz => if neg then ⌈x⌉ else i
       | .rne => if p < 1 / 2 ∨ (p = 1 / 2 ∧ i % 2 = 0) then i else i + 1
       | .sr => if (u : Int) < ⌊p * 2 ^ 32⌋ then i + 1 else i
     let lo : Int := if signed then -2 ^ (w - 1) else 0
     let hi : Int := if signed then 2 ^ (w - 1) - 1 else 2 ^ w - 1
     let bits (z : Int) : Nat := (BitVec.ofInt w z).toNat
     let inexact : BitVec 6 := if (y : ℚ) = x then 0 else Flag.inexact
     cvtInt (.fin neg m e) w signed mode u =
       (if y < lo then (bits lo, Flag.saturated ||| inexact) else if hi < y then (bits hi, Flag.saturated ||| inexact)
        else (bits y, inexact)) ∧
     cvtInt .nan w signed mode u = (0, Flag.invalid) ∧ cvtInt (.zero neg) w signed mode u = (0, 0) ∧
     cvtInt (.inf neg) w signed mode u = (bits (if neg then lo else hi), Flag.saturated)) ∧
  (∀ (type ex : Nat) (neg : Bool) (m u : Nat) (e : Int) (mode : Rnd), type < 4 → ex < 63 → 0 < m →
     let top := if type = 0 ∧ neg = true then 8 else 7
     let mag (j : Nat) : ℚ := (q4Mag type j : ℚ) / 16
     let y : ℚ := m * 2 ^ e / 2 ^ ((ex : Int) - 32)
     let code (j : Nat) : Nat := if j = 0 ∨ neg = false then j else if type = 0 then 16 - j else 8 + j
     let r := encodeQ4 (.fin neg m e) type ex mode u
     (mag top < y → r = (code top, Flag.saturated ||| Flag.inexact)) ∧
     (∀ j ≤ top, y = mag j → r = (code j, 0)) ∧
     (∀ j < top, mag j < y → y < mag (j + 1) →
       let p := (y - mag j) / (mag (j + 1) - mag j)
       r = (code (match mode with
         | .rz => j
         | .rne => if p < 1 / 2 then j else if 1 / 2 < p then j + 1 else if j % 2 = 0 then j else j + 1
         | .sr => if (u : Int) < ⌊p * 2 ^ 32⌋ then j + 1 else j), Flag.inexact))) ∧
  (∀ (vs : List FVal) (us : List Nat) (type : Nat) (mode : Rnd), type < 4 → vs.length = 32 → us.length = 32 →
     let r := encodeBlock vs type mode us
     let fits (e : Nat) (v : FVal) : Prop := match v with
       | .zero _ => True
       | .fin _ m x => (m : ℚ) * 2 ^ x ≤ (q4Mag type 7 : ℚ) / 16 * 2 ^ ((e : Int) - 32)
       | _ => False
     (.nan ∈ vs → r = (List.replicate 32 0, 64 * type + 63, 0)) ∧
     (.nan ∉ vs → ∃ e < 63, r.2.1 = 64 * type + e ∧ ((∀ v ∈ vs, ∃ n, v = .zero n) → e = 0) ∧
       (∀ d < e, ∃ v ∈ vs, ¬ fits d v) ∧ (e < 62 → ∀ v ∈ vs, fits e v) ∧
       let rs := (vs.zip us).map fun p => encodeQ4 p.1 type e mode p.2
       r.1 = rs.map (·.1) ∧ ∀ i < 6, r.2.2.getLsbD i = true ↔ ∃ x ∈ rs, x.2.getLsbD i = true))

/-- R233 to R235: compares into a predicate (all 1,024 bits written, a lane not selected giving 0), predicate logic,
broadcast, lane index, permute and reduction, the last to s D after 9 cycles. R233: the floating compares order values, with
−0 equal to +0; only `unordered` holds with a NaN. R78, R79, R235: a reduction combines 1,024 terms in the pairwise tree, a
lane that does not take part as the identity of the operation; floating combines raise the flags of their additions. Without
NaN-skip an enabled NaN makes the result the canonical NaN; in element mode an enabled NaN lane, and in block mode every lane
of a block that has an enabled NaN or no enabled lane, does not take part, and the count of lanes or blocks that do stands in
bits [63:32], at most 255 or 65,535. With nothing taking part the result is 0. -/
def Obligations.VectorComparesAndLanes : Prop :=
  ∀ (s : State) (g : BitVec 4) (c l n : BitVec 2) (h p q k r : BitVec 3) (d a b : BitVec 5),
    let cmp (f : W32 → W32 → Bool) (o : Out) : Prop :=
      ∃ y : BitVec 1024, o = .next (s.guarded g (s.inFlight 2 (.k h (BitVec.allOnes 1024) y) 0)) ∧
        ∀ j : Fin 1024, y.getLsbD j.val = ((s.regs.rk k).getLsbD j.val && f ((s.regs.rv a)[j]) ((s.regs.rv b)[j]))
    let ext (v : FVal) : WithBot (WithTop ℚ) := match v with
      | .nan => ⊥
      | .inf neg => if neg then ⊥ else ((⊤ : WithTop ℚ) : WithBot (WithTop ℚ))
      | .zero _ => ((0 : ℚ) : WithTop ℚ)
      | .fin neg m e => ((((if neg then -1 else 1) * m * 2 ^ e : ℚ) : WithTop ℚ) : WithBot (WithTop ℚ))
    let f (l : Nat) : FVal := f32.decode ((s.regs.rv a).toList.getD l 0).toNat
    let on (l : Nat) : Prop := (s.regs.rk k).getLsbD l = true
    let nan (l : Nat) : Prop := r.toNat < 3 ∧ f l = .nan
    let good (b : Nat) : Prop := (∃ l < 32, on (32 * b + l)) ∧ ∀ l < 32, on (32 * b + l) → ¬ nan (32 * b + l)
    let takes (l : Nat) : Prop := on l ∧ (n = 1 → ¬ nan l) ∧ (n = 2 → good (l / 32))
    let none_ : W32 := if r = 1 then 0xFF800000 else if r = 2 then 0x7F800000 else if r = 4 then 0x80000000
      else if r = 5 then 0x7FFFFFFF else if r = 7 then 0xFFFFFFFF else 0
    let op (x y : W32) : W32 × BitVec 6 :=
      if r = 0 then (BitVec.ofNat 32 (f32.addB x.toNat y.toNat).1, (f32.addB x.toNat y.toNat).2)
      else if r = 1 then (BitVec.ofNat 32 (f32.maxB x.toNat y.toNat), 0)
      else if r = 2 then (BitVec.ofNat 32 (f32.minB x.toNat y.toNat), 0)
      else if r = 3 then (x + y, 0) else if r = 4 then (BitVec.ofInt 32 (max x.toInt y.toInt), 0)
      else if r = 5 then (BitVec.ofInt 32 (min x.toInt y.toInt), 0)
      else if r = 6 then (BitVec.ofNat 32 (max x.toNat y.toNat), 0) else (BitVec.ofNat 32 (min x.toNat y.toNat), 0)
    (∃ less : W32 → W32 → Bool, cmp less (exec (.vcmpF32 g c h a b k) s) ∧ ∀ x y : W32,
      let u := f32.decode x.toNat
      let v := f32.decode y.toNat
      (u = .nan ∨ v = .nan → less x y = decide (c = 3)) ∧
      (u ≠ .nan → v ≠ .nan → (less x y = true ↔
        (c = 0 ∧ ext u = ext v) ∨ (c = 1 ∧ ext u < ext v) ∨ (c = 2 ∧ ext u ≤ ext v)))) ∧
    cmp (fun x y => if c = 0 then decide (x = y) else if c = 1 then decide (x.toInt < y.toInt)
      else if c = 2 then decide (x.toInt ≤ y.toInt) else decide (x ≠ y)) (exec (.vcmpI32 g c h a b k) s) ∧
    cmp (fun x y => if c = 0 then decide (x = y) else if c = 1 then decide (x.toNat < y.toNat)
      else if c = 2 then decide (x.toNat ≤ y.toNat) else decide (x ≠ y)) (exec (.vcmpN32 g c h a b k) s) ∧
    exec (.klogic g l h p q) s = .next (s.guarded g (s.inFlight 2 (.k h (BitVec.allOnes 1024)
      (if l = 0 then s.regs.rk p &&& s.regs.rk q else if l = 1 then s.regs.rk p ||| s.regs.rk q
        else if l = 2 then s.regs.rk p ^^^ s.regs.rk q else s.regs.rk p &&& ~~~s.regs.rk q)) 0)) ∧
    VectorResult s s g 2 d k (fun _ => (BitVec.ofNat 32 (s.regs.rs a).toNat, 0)) (exec (.vbcast g d a k) s) ∧
    VectorResult s s g 2 d k (fun j => (BitVec.ofNat 32 ((s.regs.rs a).toNat + j), 0)) (exec (.viota g d a k) s) ∧
    VectorResult s s g 2 d k (fun j =>
      ((s.regs.rv a)[((s.regs.rv b)[j]).toNat % 1024]'(Nat.mod_lt _ (by omega)), 0)) (exec (.vperm g d a b k) s) ∧
    (n ≠ 3 → (n = 0 ∨ r.toNat < 3) → ∃ (value : W32) (count : Nat) (fl : BitVec 6),
      exec (.vred g d a r n k) s =
        .next (s.guarded g (s.inFlight 9 (.s d (BitVec.ofNat 64 (value.toNat + count * 2 ^ 32))) fl)) ∧
      (∀ ls : Finset Nat, n = 1 → (∀ l, l ∈ ls ↔ l < 1024 ∧ takes l) → count = min ls.card 255) ∧
      (∀ bs : Finset Nat, n = 2 → (∀ b, b ∈ bs ↔ b < 32 ∧ good b) → count = min bs.card 65535) ∧ (n = 0 → count = 0) ∧
      (n = 0 → (∃ l < 1024, on l ∧ nan l) → value = 0x7FC00000 ∧ fl = 0) ∧
      ((∀ l < 1024, ¬ takes l) → value = 0 ∧ fl = 0) ∧
      ((n = 0 → ∀ l < 1024, on l → ¬ nan l) → (∃ l < 1024, takes l) →
        ∃ t : Nat → Nat → W32 × BitVec 6,
          (∀ l < 1024, (takes l → t 0 l = ((s.regs.rv a).toList.getD l 0, 0)) ∧ (¬ takes l → t 0 l = (none_, 0))) ∧
          (∀ m < 10, ∀ i < 2 ^ (9 - m), t (m + 1) i = ((op (t m (2 * i)).1 (t m (2 * i + 1)).1).1,
            (t m (2 * i)).2 ||| (t m (2 * i + 1)).2 ||| (op (t m (2 * i)).1 (t m (2 * i + 1)).1).2)) ∧
          t 10 0 = (value, fl)))

/-- R236, R237, R42: vector loads and stores: VLD and VST of 4,096 bytes, VLD.W of one word to every lane and VST.W of lane
0, and VLDK and VSTK of 128 bytes, at the effective address of R220 and with its post-increment; on the working store a load
lands after 6 cycles and a store is performed at the end of the cycle. R35, R38: on shared SRAM an access is performed after
8 + 2h cycles and a load lands after 14 + 2h; it counts in OCLD or OCST. -/
def Obligations.VectorMemoryWorkingStore : Prop :=
  ∀ (s : State) (g : BitVec 4) (d : BitVec 5) (h' : BitVec 3) (a : BitVec 4) (u : BitVec 1) (off : BitVec 18) (size : Nat),
    let ea : Nat := ((s.regs.ra a).toNat + (off.toInt * size % 2 ^ 64).toNat) % 2 ^ 64 / size * size
    let inc (t : State) : State := if u = 1 then t.inFlight 1 (.a a (s.regs.ra a + s.regs.rn a)) 0 else t
    let gives (lat : Nat) (l : Landing) (r : Out) : Prop := r = .next (s.guarded g (inc (s.inFlight lat l 0)))
    let bytes := s.load ea size
    let h := 1 + ea / 4096 % 8 + ea / 32768 % 8
    let sram (k : SramKind) (lands : Nat) (dest : LoadDest) (bs : List Byte) (r : Out) : Prop :=
      let t : State := { s with stream := { s.stream with
        sram := s.stream.sram ++ [{
          seq := s.stream.seq, kind := k, addr := ea, size := size, part := 0, performIn := 8 + 2 * h, landIn := lands,
          dest := dest, bytes := bs, performed := false }],
        seq := s.stream.seq + 1 } }
      r = .next (s.guarded g (inc t)) ∧
      t.stream.ocld = s.stream.ocld + (if k = .store then 0 else 1) ∧ t.stream.ocst = s.stream.ocst + (if k = .store then 1 else 0)
    let sramLoad (dest : LoadDest) (r : Out) : Prop := sram .load (14 + 2 * h - 1) dest [] r
    let sramStore (bs : List Byte) (r : Out) : Prop := sram .store 0 .none bs r
    let lanes : List Byte := (s.regs.rv d).toList.flatMap fun w => leBytes 4 w.toNat
    (ea < 0x10000000 →
      (size = 4096 → sramLoad (.v d (BitVec.allOnes 1024) 4096) (exec (.vld g d a u off) s) ∧
        sramStore lanes (exec (.vst g d a u off) s)) ∧
      (size = 4 → sramLoad (.v d (BitVec.allOnes 1024) 4) (exec (.vldW g d a u off) s) ∧
        sramStore (leBytes 4 ((s.regs.rv d)[0]).toNat) (exec (.vstW g d a u off) s)) ∧
      (size = 128 → sramLoad (.k h') (exec (.vldK g h' a u off) s) ∧
        sramStore (leBytes 128 (s.regs.rk h').toNat) (exec (.vstK g h' a u off) s))) ∧
    (0x10000000 ≤ ea → ea < 0x18000000 →
    (size = 4096 →
      (∃ v : Vector W32 1024, gives 6 (.v d (BitVec.allOnes 1024) v) (exec (.vld g d a u off) s) ∧
        ∀ j : Fin 1024, v[j] = BitVec.ofNat 32 (leNat ((bytes.drop (4 * j)).take 4))) ∧
      (∃ bs, gives 1 (.wstore ea bs) (exec (.vst g d a u off) s) ∧ bs.length = 4096 ∧
        ∀ j : Fin 1024, (bs.drop (4 * j)).take 4 = leBytes 4 ((s.regs.rv d)[j]).toNat)) ∧
    (size = 4 →
      gives 6 (.v d (BitVec.allOnes 1024) (.replicate 1024 (BitVec.ofNat 32 (leNat bytes)))) (exec (.vldW g d a u off) s) ∧
      gives 1 (.wstore ea (leBytes 4 ((s.regs.rv d)[0]).toNat)) (exec (.vstW g d a u off) s)) ∧
    (size = 128 →
      gives 6 (.k h' (BitVec.allOnes 1024) (BitVec.ofNat 1024 (leNat bytes))) (exec (.vldK g h' a u off) s) ∧
      gives 1 (.wstore ea (leBytes 128 (s.regs.rk h').toNat)) (exec (.vstK g h' a u off) s)))

/-! ## Tiles and matrix engines -/

/-- R242, R91, R92: with a guard of 1, a tile read of the tile's width completes: it puts four lines of tile X in flight for
v V after 7 cycles: lane l of a row read is element (line + l / 256, l mod 256) and of a column read (l mod 256, line + l /
256), widened by the tile's format; outside the shape it is 0. A q4 tile and a width that is not the format's are the illegal
slot 0xA. With a guard of 0 it leaves the state as it is. R242, R92, R93: with a guard of 1, a tile write of the tile's width
completes: it puts in flight, to land after 7 cycles, the bytes of each element of the four lines that lies in the shape and
whose lane k K selects, converted from the lane of v V to the tile's format, and the flags of those conversions; nothing else
of the tile store. In mode sr it takes 1,024 draws. A q4 tile, a width that is not the format's, a mode on an integer tile,
and a .nan form on a tile that is not FP8 are the illegal slot 0xA. With a guard of 0 it leaves the state as it is. That a
guard of 0 raises nothing for a q4 tile, a width or a mode that does not fit TSHAPE either, a fault of a value and not of the
encoding (R185, R186), is the model's reading (DEDUCED, log 17). -/
def Obligations.TileReadsAndWrites : Prop :=
  (∀ (s : State) (g x y : BitVec 4) (v : BitVec 5) (k : BitVec 3) (m : BitVec 2),
     let sh := s.tshapeOf x
     let w := fmtWidth (shFmt sh)
     let line := (s.regs.rs (BitVec.ofNat 5 y.toNat)).toNat % 256
     let value (r c : Nat) : W32 :=
       if r < shRows sh ∧ c < shCols sh then
         BitVec.ofNat 32 (toLane (shFmt sh) (leNat (getBytes s.tiles.bytes (262144 * x.toNat + (1024 * r + w * c)) w)))
       else 0
     let width := if m = 0 then 4 else if m = 1 then 2 else 1
     let gives (f : Nat → W32) (r : Out) : Prop :=
       r = .next (s.inFlight 7 (.v v (s.regs.rk k) (Vector.ofFn fun l => f l.val)) 0)
     (s.regs.rg g = false → exec (.trdr g x y v k m) s = .next s ∧ exec (.trdc g x y v k m) s = .next s) ∧
     (s.regs.rg g = true → m ≠ 3 → shFmt sh ≠ 0xB → w = width →
       gives (fun l => value (line + l / 256) (l % 256)) (exec (.trdr g x y v k m) s) ∧
       gives (fun l => value (l % 256) (line + l / 256)) (exec (.trdc g x y v k m) s)) ∧
     (s.regs.rg g = true → m ≠ 3 → (shFmt sh = 0xB ∨ w ≠ width) →
       exec (.trdr g x y v k m) s = .next (s.takeSlotFault (.illegal 0xA) s.stream.ask.slot) ∧
       exec (.trdc g x y v k m) s = .next (s.takeSlotFault (.illegal 0xA) s.stream.ask.slot))) ∧
  (∀ (s : State) (g x y : BitVec 4) (v : BitVec 5) (k : BitVec 3) (m : BitVec 2),
     let sh := s.tshapeOf x
     let fmt := shFmt sh
     let w := fmtWidth fmt
     let line := (s.regs.rs (BitVec.ofNat 5 y.toNat)).toNat % 256
     let place (col : Bool) (l : Nat) : Nat × Nat := if col then (l % 256, line + l / 256) else (line + l / 256, l % 256)
     let within (p : Nat × Nat) : Prop := p.1 < shRows sh ∧ p.2 < shCols sh
     let writes (col nv : Bool) (m : BitVec 2) (r : Out) : Prop :=
       let conv (l : Nat) : Nat × BitVec 6 :=
         fromLane fmt ((s.regs.rv v).toList.getD l 0).toNat (Rnd.of m) nv ((s.roundingDraws m 1024).1.getD l 0)
       ∃ cells fl, r = .next ((s.roundingDraws m 1024).2.inFlight 7 (.tile cells) fl) ∧
         (∀ a b, (a, b) ∈ cells ↔ ∃ l < 1024, ∃ i < w, (s.regs.rk k).getLsbD l = true ∧ within (place col l) ∧
           a = 262144 * x.toNat + (1024 * (place col l).1 + w * (place col l).2) + i ∧ b = (leBytes w (conv l).1).getD i 0) ∧
         ∀ i < 6, fl.getLsbD i = true ↔
           ∃ l < 1024, (s.regs.rk k).getLsbD l = true ∧ within (place col l) ∧ (conv l).2.getLsbD i = true
     let float : Prop := fmtFloat fmt = true
     let forms (ok : Prop) (rows cols : Out) (nv : Bool) (m : BitVec 2) : Prop :=
       (s.regs.rg g = false → rows = .next s ∧ cols = .next s) ∧
       (s.regs.rg g = true → ok → writes false nv m rows ∧ writes true nv m cols) ∧
       (s.regs.rg g = true → ¬ ok → rows = .next (s.takeSlotFault (.illegal 0xA) s.stream.ask.slot) ∧
         cols = .next (s.takeSlotFault (.illegal 0xA) s.stream.ask.slot))
     forms (w = 4 ∧ fmt ≠ 0xB) (exec (.twrr32 g x y v k) s) (exec (.twrc32 g x y v k) s) false 0 ∧
     (m ≠ 3 →
       forms (w = 2 ∧ fmt ≠ 0xB ∧ (m = 0 ∨ float)) (exec (.twrr16 g x y v k m) s) (exec (.twrc16 g x y v k m) s) false m ∧
       forms (w = 1 ∧ fmt ≠ 0xB ∧ (m = 0 ∨ float)) (exec (.twrr8 g x y v k m) s) (exec (.twrc8 g x y v k m) s) false m ∧
       forms (fmt = 7 ∨ fmt = 8) (exec (.twrr8Nan g x y v k m) s) (exec (.twrc8Nan g x y v k m) s) true m))

/-- R240, R243, R244, R163: TSHAPE puts an accepted value in flight; tile loads, stores, copies and zeroings stall while
OCTO is 64, take a window fault for an image that does not lie wholly in shared SRAM or wholly in the working store, with
cause 0x2 when a byte of it lies in a hole and 0x6 otherwise (and 0xA for a transposed q4 tile), and else join the tile
operations outstanding. A TSHAPE value outside the limits is the illegal slot 0xA. R239, R243, R244: an operation that is
performed leaves the list. A load gives the tile bytes of the image the bytes of memory, row after row, the scales of a q4 row
after its codes, or column after column when transposed; a store writes them there; a copy gives them to tile Y; no other
byte of a tile changes. That a fault reports agent 0x0, the control stream, is the model's reading (DEDUCED, log 36). -/
def Obligations.TileOperations : Prop :=
  (∀ (s : State) (i : Nat) (o : TileOp) (x : BitVec 4), s.halted = false → s.stream.tileOps[i]? = some o →
    cellsWf s.tiles.bytes = true →
    let rows := shRows o.shape
    let cols := shCols o.shape
    let q4 : Prop := shFmt o.shape = 0xB
    let w := fmtWidth (shFmt o.shape)
    let rb := if shFmt o.shape = 0xB then cols + cols / 16 else cols * w
    let image (tr : Bool) (p b : Nat) : Prop :=
      if tr then ∃ r < rows, ∃ c < cols, ∃ j < w, p = c * (rows * w) + (r * w + j) ∧ b = 1024 * r + w * c + j
      else ∃ r < rows, ∃ j < rb, p = r * rb + j ∧ ((q4 → j < cols) → b = 1024 * r + j) ∧
        (q4 → cols ≤ j → b = 1024 * r + 256 + (j - cols))
    let tileOf (t : State) (y : BitVec 4) (b : Nat) : Byte := cellGet t.tiles.bytes (262144 * y.toNat + b)
    let others (t : State) (y : BitVec 4) (tr : Bool) : Prop :=
      ∀ k, (∀ p b, image tr p b → k ≠ 262144 * y.toNat + b) → cellGet t.tiles.bytes k = cellGet s.tiles.bytes k
    let done (t : State) : Prop := exec .tileOpComplete { s with arg := .nat i } = .next t ∧
      t.stream.tileOps = s.stream.tileOps.eraseIdx i ∧ t.stream.tileNow = s.stream.tileNow ++ [o] ∧
      t.regs = s.regs ∧ t.ctl = s.ctl ∧ t.tiles.acc = s.tiles.acc
    (∀ a tr, o.kind = .load x a tr → ∃ t, done t ∧ t.mem = s.mem ∧ others t x tr ∧
      ∀ p b, image tr p b → s.load (a + p) 1 = [tileOf t x b]) ∧
    (∀ a tr, o.kind = .store x a tr → ∃ t bs, done t ∧ t.tiles = s.tiles ∧ t.mem.dram = s.mem.dram ∧
      t.mem.loc = putBytes s.mem.loc a bs ∧ bs.length = (if tr then cols * (rows * w) else rows * rb) ∧
      ∀ p b, image tr p b → bs.getD p 0 = tileOf s x b) ∧
    (∀ y, o.kind = .copy x y → ∃ t, done t ∧ t.mem = s.mem ∧ others t y false ∧
      ∀ p b, image false p b → tileOf t y b = tileOf s x b)) ∧
  ∀ (s : State) (g x y : BitVec 4) (v : BitVec 5),
    let sh := s.tshapeOf x
    let ea := (s.regs.ra (BitVec.ofNat 4 v.toNat)).toNat / 32 * 32
    let full := decide (64 ≤ s.stream.tileOps.length)
    let hole (a n : Nat) : Bool := (List.range n).any fun i => region (a + i) = .hole
    let range (tr wr : Bool) : Option SFault :=
      if tr = true ∧ shFmt sh = 0xB then some (.illegal 0xA)
      else if inLocal ea (imageBytes sh tr) then none
      else some (.window ea (if hole ea (imageBytes sh tr) then 0x2 else 0x6) 0x0 none wr)
    let starts (k : TileKind) : State := { s with stream := { s.stream with
      tileOps := s.stream.tileOps ++ [{ kind := k, shape := sh, seq := s.stream.seq }], seq := s.stream.seq + 1 } }
    CommandSlot s g full (range false false) (starts (.load x ea false)) (exec (.tld g x v) s) ∧
    CommandSlot s g full (range false true) (starts (.store x ea false)) (exec (.tst g x v) s) ∧
    CommandSlot s g full (range true false) (starts (.load x ea true)) (exec (.tldt g x v) s) ∧
    CommandSlot s g full (range true true) (starts (.store x ea true)) (exec (.tstt g x v) s) ∧
    CommandSlot s g full none (starts (.copy x y)) (exec (.tcpy g x y) s) ∧
    CommandSlot s g full none (starts (.zero x)) (exec (.tzero g x) s) ∧
    (tshapeOk ((s.regs.rs v).toNat % 2 ^ 24) = true →
      exec (.tshape g x v) s = .next (s.guarded g (s.inFlight 1 (.tshape x ((s.regs.rs v).truncate 24)) 0))) ∧
    (tshapeOk ((s.regs.rs v).toNat % 2 ^ 24) = false → s.regs.rg g = true →
      exec (.tshape g x v) s = .next (s.takeSlotFault (.illegal 0xA) s.stream.ask.slot))

/-- R246, R247, R249 to R255: a direct matrix command stalls while a queue that it enters holds 16 commands; otherwise it
takes the next TLM number and enters the queue of engine Y, and that of Y + 1 in a pair form, with its operation and the
tile's shape at issue. A form with a memory image takes the window fault of its bytes. R252 to R254, R68: the drain forms
enter the queue like the other direct commands, with the drain record of the staging group of E, and with SRSTATE at issue as
the seed; a drain in mode sr advances SRSTATE at issue. R165, R256, R138: MPOST stalls while 60 entries of the dependency
table are held by posts; otherwise it takes the next TLM number, and its record is read at the end of the cycle, after the
stores of its own bundle. That a memory form faults as agent 0xB, its engine context, and MPOST as agent 0x0, the control
stream (DEDUCED, log 36), and that the record is read at the end of the issue cycle (DEDUCED, log 41), are the model's
readings. -/
def Obligations.MatrixCommands : Prop :=
  (∀ (s : State) (g x y : BitVec 4) (v : BitVec 5) (f : BitVec 3) (z : BitVec 1),
     let sh := s.tshapeOf x
     let a := (s.regs.ra (BitVec.ofNat 4 v.toNat)).toNat / 32 * 32
     let full (pair : Bool) : Bool :=
       decide (16 ≤ (s.mqueue y.toNat).length) || (pair && decide (16 ≤ (s.mqueue (y.toNat + 1)).length))
     let img := imageFault 0xB a (imageBytes sh false) false
     let form (pair : Bool) (fault : Option SFault) (op : MatOp) (shape : BitVec 24) (r : Out) : Prop :=
       CommandSlot s g (full pair) fault (s.postMatrix op shape 0) r
     form false none (.load false y x none f) sh (exec (.mwl g x y f) s) ∧
     form false img (.load false y x (some a) f) sh (exec (.mwlm g x y v f) s) ∧
     form true none (.load true y x none f) sh (exec (.mwlp g x y f) s) ∧
     form true img (.load true y x (some a) f) sh (exec (.mwlpm g x y v f) s) ∧
     form false none (.activate false y) 0 (exec (.mwa g y) s) ∧ form true none (.activate true y) 0 (exec (.mwap g y) s) ∧
     form false none (.stream false y x none f (z == 1)) sh (exec (.mms g x y f z) s) ∧
     form false img (.stream false y x (some a) f (z == 1)) sh (exec (.mmsm g x y v f z) s) ∧
     form true none (.stream true y x none f (z == 1)) sh (exec (.mmsp g x y f z) s) ∧
     form true img (.stream true y x (some a) f (z == 1)) sh (exec (.mmspm g x y v f z) s) ∧
     form false none (.zero false y) 0 (exec (.mzero g y) s) ∧ form true none (.zero true y) 0 (exec (.mzerop g y) s)) ∧
  (∀ (s : State) (g x y : BitVec 4) (v : BitVec 5),
     let sh := s.tshapeOf x
     let ctl := (s.regs.re v.toNat).toNat
     let blk := (s.regs.re (v.toNat + 1)).toNat
     let mem := (s.regs.re (v.toNat + 2)).toNat / 32 * 32
     let full (pair : Bool) : Bool :=
       decide (16 ≤ (s.mqueue y.toNat).length) || (pair && decide (16 ≤ (s.mqueue (y.toNat + 1)).length))
     let form (pair tr : Bool) (m : Option Nat) (r : Out) : Prop :=
       let t := s.postMatrix (.drain pair tr y x m (BitVec.ofNat 9 ctl) blk) sh s.ctl.srstate
       CommandSlot s g (full pair) (drainFault sh ctl blk m)
         (if ctl % 4 = 2 then { t with ctl.srstate := (drawList (drainCount sh) s.ctl.srstate).2 } else t) r
     form false false none (exec (.mdr g x y v) s) ∧ form false false (some mem) (exec (.mdrm g x y v) s) ∧
     form true false none (exec (.mdrp g x y v) s) ∧ form true false (some mem) (exec (.mdrpm g x y v) s) ∧
     form false true none (exec (.mdrt g x y v) s)) ∧
  (∀ (s : State) (g : BitVec 4) (v : BitVec 5),
     let a := (s.regs.ra (BitVec.ofNat 4 v.toNat)).toNat / 64 * 64
     let r := s.takeNumber 8
     r.2 = ((s.line 8).issued + 1).toNat ∧ (r.1.line 8).issued = (s.line 8).issued + 1 ∧
     CommandSlot s g (decide (60 ≤ (s.eng.tasks.filter fun t => !t.chain).length)) (rangeFault 0x0 a 64 false)
       { r.1 with stream.ask.late := s.stream.ask.late ++ [(.mpost g v, r.2,
         BitVec.ofNat 64 a :: s.ctl.pol1.zeroExtend 64 :: s.ctl.srstate :: s.ctl.tshape.toList.map (·.zeroExtend 64))] }
       (exec (.mpost g v) s))

/-- R250: a direct matrix command whose checks fail has no effect, and the status 0x16: a weight load or stream of another format
than MF's, a weight load of more than 128 rows (256 for a pair), a stream of another MF than the engine's active latch or,
without z, into an accumulator of the other family, and a drain beyond the limits of R253 (R251: MZERO and MZEROP have no check). That
any other has its whole effect in the step in which it completes is the model's (DESIGN CHOICE, log 39). R248, R239, R243: a weight load writes the rows of its operand, a tile or an image, into the shadow
weights, row n as column n (from 128 on into the second engine of a pair), the scales of a q4 row from byte 256, every other
byte zero, and the shadow latch becomes MF; MWA and MWAP copy shadow weights and latch to the active ones. R249, R74 to R77: a
stream adds, row by row of its operand, the K-groups of 16 exact products in ascending K to each accumulator element, from
zero with z; the accumulator's family is MF's where it had none or z is set; rows beyond the operand's keep their values (with
z they are zero); MSAT's bit of an engine is raised when an integer group saturates there. R75, R77: what a group does. R251:
MZERO and MZEROP zero their accumulators, whose mode becomes none. R252, R253: a drain writes each element of the destination,
a tile or an image, from its accumulator element, through scale, bias and activation and the conversion to the destination's
format, with one draw for each element in mode sr; it raises the flags of those, and with CLR zeroes the elements drained.
Nothing else changes. MZERO and MZEROP themselves, with a guard of 1 and room in their queues, post such a command. -/
def Obligations.MatrixCommandsPerformed : Prop :=
  (∀ (s : State) (g y : BitVec 4), s.regs.rg g = true →
    (s.matrixFull false y = false → exec (.mzero g y) s = .next (s.postMatrix (.zero false y) 0 0)) ∧
    (s.matrixFull true y = false → exec (.mzerop g y) s = .next (s.postMatrix (.zero true y) 0 0))) ∧
  (∀ (s : State) (c : MCmd), s.halted = false → s.eng.matrix.toList.flatten.find? (fun d => decide (d.num = c.num)) = some c →
    c.started = true →
    let e : State := { s with arg := .two 8 c.num }
    (s.matrixOk c.op c.shape = true → exec .commandComplete e = .next (((e.doMatrix c).dropMatrix c.num).complete 8 c.num c.pol 0x00)) ∧
    (s.matrixOk c.op c.shape = false → ¬ (c.pol = 1 ∧ c.tries < 3) →
      exec .commandComplete e = .next ((e.dropMatrix c.num).complete 8 c.num c.pol 0x16))) ∧
  (∀ (s : State) (sh : BitVec 24) (pair tr z : Bool) (y x : BitVec 4) (mem : Option Nat) (mf : BitVec 3) (ctl : BitVec 9)
    (blk : Nat), mf ≠ 7 →
    let fits : Prop := shFmt sh = [0x3, 0x4, 0x7, 0x8, 0x9, 0xA, 0xB].getD mf.toNat 0
    let takes (e : Nat) : Prop := vget s.tiles.activeFmt e none = some mf ∧ (z = true ∨ vget s.tiles.mode e .none = .none ∨
      vget s.tiles.mode e .none = if mf = 4 ∨ mf = 5 then .int else .float)
    let cols := if shFmt sh = 0xB then 2 * shCols sh else shCols sh
    (s.matrixOk (.load pair y x mem mf) sh = true ↔ fits ∧ shRows sh ≤ if pair then 256 else 128) ∧
    s.matrixOk (.activate pair y) sh = true ∧ s.matrixOk (.zero pair y) sh = true ∧
    (s.matrixOk (.stream pair y x mem mf z) sh = true ↔ fits ∧ takes y.toNat ∧ (pair = true → takes (y.toNat + 1))) ∧
    (s.matrixOk (.drain pair tr y x mem ctl blk) sh = true ↔
      if tr then shRows sh ≤ 128 ∧ cols ≤ 256 else cols ≤ if pair then 256 else 128)) ∧
  (∀ (s : State) (c : MCmd) (pair : Bool) (y x : BitVec 4) (mem : Option Nat) (mf : BitVec 3) (z : Bool),
    let sh := c.shape
    let rows := shRows sh
    let t := s.doMatrix c
    let hit (e : Nat) : Prop := e = y.toNat ∨ (pair = true ∧ e = y.toNat + 1)
    let width := shCols sh * fmtWidth (shFmt sh)
    -- byte `k` of row `r` of the operand, laid out along K
    let operand (r k : Nat) : Byte :=
      let at_ (b : Nat) : Byte := match mem with
        | none => cellGet s.tiles.bytes (262144 * x.toNat + 1024 * r + k)
        | some a => (s.load (a + r * rowBytes sh) (rowBytes sh)).getD b 0
      if k < width then at_ k
      else if shFmt sh = 0xB ∧ 256 ≤ k ∧ k < 256 + shCols sh / 16 then at_ (shCols sh + (k - 256)) else 0
    let weight (l : List Host.Cell) (e n k : Nat) : Byte := cellGet l (65536 * e + 512 * n + k)
    let accOf (u : State) (e m n : Nat) : W32 := cellGet u.tiles.acc (32768 * e + 128 * m + n)
    s.matrixOk c.op sh = true →
    (c.op = .load pair y x mem mf → cellsWf s.tiles.shadow = true →
      t = { s with tiles := { s.tiles with shadow := t.tiles.shadow, shadowFmt := t.tiles.shadowFmt } } ∧
      ∀ e < 16, (vget t.tiles.shadowFmt e none = if hit e then some mf else vget s.tiles.shadowFmt e none) ∧
        ∀ n < 128, ∀ k < 512, weight t.tiles.shadow e n k =
          if e = y.toNat then (if n < rows then operand n k else 0)
          else if hit e then (if n + 128 < rows then operand (n + 128) k else 0) else weight s.tiles.shadow e n k) ∧
    (c.op = .activate pair y → cellsWf s.tiles.active = true → cellsWf s.tiles.shadow = true →
      t = { s with tiles := { s.tiles with active := t.tiles.active, activeFmt := t.tiles.activeFmt } } ∧
      ∀ e < 16, (vget t.tiles.activeFmt e none = if hit e then vget s.tiles.shadowFmt e none else vget s.tiles.activeFmt e none) ∧
        ∀ n < 128, ∀ k < 512, weight t.tiles.active e n k =
          if hit e then weight s.tiles.shadow e n k else weight s.tiles.active e n k) ∧
    (c.op = .stream pair y x mem mf z → cellsWf s.tiles.acc = true →
      let groups := if mf = 6 then 32 else 16
      let int : Bool := decide (mf = 4 ∨ mf = 5)
      let real (b : Nat → Byte) (k : Nat) : FVal :=
        let v (i : Nat) : Nat := (b i).toNat
        if mf = 0 then bf16.decode (v (2 * k) + 256 * v (2 * k + 1)) else if mf = 1 then f16.decode (v (2 * k) + 256 * v (2 * k + 1))
        else if mf = 2 then e4m3.decode (v k) else if mf = 3 then e5m2.decode (v k)
        else decodeQ4 (v (k / 2) / 16 ^ (k % 2) % 16) (v (256 + k / 32))
      let whole (b : Nat → Byte) (k : Nat) : Int := if mf = 4 then (b k).toInt else (b k).toNat
      let start (e m n : Nat) : Nat := if z then 0 else (accOf s e m n).toNat
      let after (e m n g : Nat) : Nat := (List.range g).foldl (fun acc g =>
        let w := weight s.tiles.active e n
        if int then (macI32 acc ((List.range 16).map fun j => whole (operand m) (16 * g + j) * whole w (16 * g + j))).1
        else macF32 acc ((List.range 16).map fun j => (real (operand m) (16 * g + j)).mul (real w (16 * g + j)))) (start e m n)
      let saturates (e m n g : Nat) : Bool := (macI32 (after e m n g) ((List.range 16).map fun j =>
        whole (operand m) (16 * g + j) * whole (weight s.tiles.active e n) (16 * g + j))).2
      t = { s with tiles := { s.tiles with acc := t.tiles.acc, mode := t.tiles.mode }, late.sat := t.late.sat } ∧
      ∀ e < 16,
        (vget t.tiles.mode e .none = if hit e ∧ (z = true ∨ vget s.tiles.mode e .none = .none) then (if int then .int else .float)
          else vget s.tiles.mode e .none) ∧
        (t.late.sat.getLsbD e = true ↔ s.late.sat.getLsbD e = true ∨
          (hit e ∧ int = true ∧ ∃ m < rows, ∃ n < 128, ∃ g < groups, saturates e m n g = true)) ∧
        ∀ m < 256, ∀ n < 128, accOf t e m n =
          if hit e then (if m < rows then BitVec.ofNat 32 (after e m n groups) else if z then 0 else accOf s e m n)
          else accOf s e m n)) ∧
  (∀ (acc : W32) (ps : List (FVal × Bool)) (zs : List Int),
    let num : FVal → Option ℚ := fun v => match v with
      | .zero _ => some 0
      | .fin neg m e => if m = 0 then none else some ((if neg then -1 else 1) * m * 2 ^ e)
      | _ => none
    let vs := f32.decode acc.toNat :: ps.map (·.1)
    let r := macF32 acc.toNat ps
    (.nan ∈ vs ∨ (.inf false ∈ vs ∧ .inf true ∈ vs) → r = 0x7FC00000) ∧
    (.nan ∉ vs → .inf true ∉ vs → .inf false ∈ vs → r = 0x7F800000) ∧
    (.nan ∉ vs → .inf false ∉ vs → .inf true ∈ vs → r = 0xFF800000) ∧
    (∀ qs : List ℚ, vs.map num = qs.map some → (qs.sum = 0 → r = 0) ∧ (qs.sum ≠ 0 → ∃ neg m e,
      num (.fin neg m e) = some qs.sum ∧ r = (f32.pack (.fin neg m e) .rne 0).1)) ∧
    (let sum := acc.toInt + zs.sum
     macI32 acc.toNat zs = ((BitVec.ofInt 32 (max (-2 ^ 31) (min sum (2 ^ 31 - 1)))).toNat,
       decide (sum < -2 ^ 31 ∨ 2 ^ 31 ≤ sum)))) ∧
  (∀ (s : State) (c : MCmd) (y : BitVec 4) (pair : Bool), c.op = .zero pair y → (pair = true → y.toNat < 15) →
    cellsWf s.tiles.acc = true →
    let t := s.doMatrix c
    let hit (e : Nat) : Prop := e = y.toNat ∨ (pair = true ∧ e = y.toNat + 1)
    (∀ e < 16, ∀ i < 32768, hit e → cellGet t.tiles.acc (32768 * e + i) = 0) ∧
    (∀ e < 16, ∀ i < 32768, ¬ hit e → cellGet t.tiles.acc (32768 * e + i) = cellGet s.tiles.acc (32768 * e + i)) ∧
    (∀ e < 16, vget t.tiles.mode e .none = if hit e then .none else vget s.tiles.mode e .none) ∧
    t = { s with tiles := { s.tiles with acc := t.tiles.acc, mode := t.tiles.mode } }) ∧
  (∀ (s : State) (mode : AccMode) (a : W32) (n blk : Nat) (ctl : BitVec 9),
    let scl := ctl.getLsbD 3
    let bias := ctl.getLsbD 4
    let act := ctl.getLsbD 5
    let word (o : Nat) : Nat := leNat (s.load (blk + o) 4)
    (mode = .int → scl = false → bias = false → act = false → s.epi mode a n ctl blk = (.inl a.toInt, 0)) ∧
    (mode ≠ .int ∨ scl = true ∨ bias = true ∨ act = true → ∃ x0 x1 x2 : Nat × BitVec 6,
      s.epi mode a n ctl blk = (.inr x2.1, x0.2 ||| x1.2 ||| x2.2) ∧
      x0 = (match mode with
        | .int => f32.pack (.ofZ a.toInt) .rne 0
        | .float => (a.toNat, 0)
        | .none => (0, 0)) ∧
      (scl = false → bias = false → x1 = (x0.1, 0)) ∧
      (scl = true → bias = false → x1 = f32.mulB x0.1 (word (4 * n))) ∧
      (bias = true → x1 = f32.fmaB x0.1 (if scl then word (4 * n) else 0x3F800000) (word (1024 + 4 * n)) false) ∧
      (act = false → x2 = (x1.1, 0)) ∧
      (act = true → ∃ i ≤ 63, x2 = f32.fmaB (word (2048 + 8 * i)) x1.1 (word (2052 + 8 * i)) false ∧
        match f32.decode x1.1 with
        | .nan => i = 0
        | .inf neg => i = if neg then 0 else 63
        | .zero _ => i = 32
        | .fin neg m e => (i : Int) = max 0 (min 63 ⌊(((if neg then -1 else 1) * m * 2 ^ e + 8) * 4 : ℚ)⌋)))) ∧
  (∀ (s : State) (c : MCmd) (pair tr : Bool) (y x : BitVec 4) (mem : Option Nat) (ctl : BitVec 9) (blk : Nat),
    c.op = .drain pair tr y x mem ctl blk → s.matrixOk c.op c.shape = true → cellsWf s.tiles.acc = true →
    cellsWf s.tiles.bytes = true → (shFmt c.shape = 0xB → shCols c.shape % 16 = 0) →
    let sh := c.shape
    let f := shFmt sh
    let w := fmtWidth f
    let rows := shRows sh
    let cols := shElems sh
    let rb := rowBytes sh
    let md := Rnd.of (ctl.extractLsb' 0 2)
    let nv := ctl.getLsbD 2
    let t := s.doMatrix c
    -- row, column and engine of the accumulator element of destination element (r, c)
    let am (r c : Nat) : Nat := if tr then c else r
    let an (r c : Nat) : Nat := if tr then r else c
    let ae (r c : Nat) : Nat := if pair = true ∧ 128 ≤ an r c then y.toNat + 1 else y.toNat
    let key (r c : Nat) : Nat := 32768 * ae r c + 128 * am r c + an r c % 128
    let el (r c : Nat) : (Int ⊕ Nat) × BitVec 6 :=
      s.epi (vget s.tiles.mode (ae r c) .none) (cellGet s.tiles.acc (key r c)) (an r c) ctl blk
    let draw (r d : Nat) : Nat :=
      if ctl.extractLsb' 0 2 = 2#2 then (drawList (rows * cols) c.seed).1.getD (am r d * (if tr then rows else cols) + an r d) 0 else 0
    let code (v : Int ⊕ Nat) (u : Nat) : Nat × BitVec 6 := match v with
      | .inl z => match f with
        | 0 => f32.pack (.ofZ z) md u
        | 3 => bf16.pack (.ofZ z) md u
        | 4 => f16.pack (.ofZ z) md u
        | 7 => e4m3.pack8 (.ofZ z) md nv u
        | 8 => e5m2.pack8 (.ofZ z) md nv u
        | _ => clampInt (8 * w) (decide (f = 1 ∨ f = 5 ∨ f = 9)) z
      | .inr x => match f with
        | 0 => (x, 0)
        | 3 => bf16.pack (f32.decode x) md u
        | 4 => f16.pack (f32.decode x) md u
        | 7 => e4m3.pack8 (f32.decode x) md nv u
        | 8 => e5m2.pack8 (f32.decode x) md nv u
        | _ => cvtInt (f32.decode x) (8 * w) (decide (f = 1 ∨ f = 5 ∨ f = 9)) md u
    let val (v : Int ⊕ Nat) : FVal := match v with
      | .inl z => .ofZ z
      | .inr x => f32.decode x
    let block (r b : Nat) : List Nat × Nat × BitVec 6 :=
      encodeBlock ((List.range 32).map fun i => val (el r (32 * b + i)).1) (ctl.extractLsb' 7 2).toNat md
        ((List.range 32).map fun i => draw r (32 * b + i))
    let digit (r d : Nat) : Nat := (block r (d / 32)).1.getD (d % 32) 0
    let out (r b : Nat) : Byte :=
      if f ≠ 0xB then (leBytes w (code (el r (b / w)).1 (draw r (b / w))).1).getD (b % w) 0
      else if b < shCols sh then BitVec.ofNat 8 (digit r (2 * b) + 16 * digit r (2 * b + 1))
      else BitVec.ofNat 8 (block r (b - shCols sh)).2.1
    let place (r b : Nat) : Nat :=
      262144 * x.toNat + 1024 * r + if f = 0xB ∧ shCols sh ≤ b then 256 + (b - shCols sh) else b
    t = { s with
      tiles := { s.tiles with bytes := t.tiles.bytes, acc := t.tiles.acc }, mem := t.mem, late.flags := t.late.flags } ∧
    (mem = none → t.mem = s.mem ∧ (∀ r < rows, ∀ b < rb, cellGet t.tiles.bytes (place r b) = out r b) ∧
      ∀ k, (∀ r < rows, ∀ b < rb, k ≠ place r b) → cellGet t.tiles.bytes k = cellGet s.tiles.bytes k) ∧
    (∀ a, mem = some a → t.tiles.bytes = s.tiles.bytes ∧ t.mem.dram = s.mem.dram ∧ ∃ bs : List Byte, t.mem.loc = putBytes s.mem.loc a bs ∧
      bs.length = rows * rb ∧ ∀ r < rows, ∀ b < rb, bs.getD (r * rb + b) 0 = out r b) ∧
    (∀ k, cellGet t.tiles.acc k = if ctl.getLsbD 6 = true ∧ ∃ r < rows, ∃ d < cols, k = key r d then 0 else cellGet s.tiles.acc k) ∧
    ∀ i < 6, t.late.flags.getLsbD i = true ↔ s.late.flags.getLsbD i = true ∨
      (∃ r < rows, ∃ d < cols, (el r d).2.getLsbD i = true ∨
        (f ≠ 0xB ∧ (code (el r d).1 (draw r d)).2.getLsbD i = true) ∨ (f = 0xB ∧ (block r (d / 32)).2.2.getLsbD i = true)))

/-! ## Copy engines, exchange queues, walker and contraction engine -/

/-- R260 to R266, R163: the copy commands. Each stalls while the issue buffer of eight commands is full, checks the limits of
its staging registers (cause 0xA) and the accesses of its source, destination and flag in that order (window faults), and
else enters with the operation that its row describes and the flag write it asks for. R262: the packing copies: CPYZ writes P
groups of 32 bytes for each of n 256-byte granules of the working store to shared SRAM, and CPYX is its inverse; both only
check their limits. That the first of several faulting accesses is the one reported is the model's (DESIGN CHOICE, log 52).
-/
def Obligations.CopyCommands : Prop :=
  (∀ (s : State) (g u e : BitVec 4) (f : BitVec 1),
     let ag := u.toNat + 1
     let st (i : Nat) : Nat := (s.regs.re (e.toNat + i)).toNat
     let flag (i : Nat) : Option (Nat × W64) := if f = 1 then some (st i, s.regs.re (e.toNat + i + 1)) else none
     let lens (n : Nat) : Bool := decide (8 ≤ n) && decide (n ≤ 2 ^ 32) && decide (n % 8 = 0)
     let al (n : Nat) : Bool := decide (n % 8 = 0)
     let form (limit : Bool) (faults : List (Option SFault)) (op : CopyOp) (fl : Option (Nat × W64)) (r : Out) : Prop :=
       CommandSlot s g (s.copyFull) (if limit then firstFault faults else some (.illegal 0xA))
         (s.postCopy u.toNat op fl) r
     let rows := st 2 / 2 ^ 32 + 1
     let rb := st 2 % 2 ^ 32
     let ss := int32 (st 3)
     let ds := int32 (st 3 / 2 ^ 32)
     let src := footprint (st 0) ss rows rb
     let dst := footprint (st 1) ds rows rb
     form (lens (st 2) && al (st 0) && al (st 1))
       [s.copyFault ag (st 0) (st 2) true false, s.copyFault ag (st 1) (st 2) false true, s.flFault ag (flag 3) (st 1)]
       (.copy (st 0) (st 1) 1 (st 2) 0 0) (flag 3) (exec (.cpy g u e f) s) ∧
     form (decide (8 ≤ rb) && decide (rb ≤ 2 ^ 24) && al rb && decide (rows ≤ 65536) && al (st 0) && al (st 1) &&
         decide (ss % 8 = 0) && decide (ds % 8 = 0))
       [s.copyFault ag src.1 src.2 true false, s.copyFault ag dst.1 dst.2 false true, s.flFault ag (flag 4) (st 1)]
       (.copy (st 0) (st 1) rows rb ss ds) (flag 4) (exec (.cpy2 g u e f) s) ∧
     form (lens (st 1) && al (st 0)) [s.copyFault ag (st 0) (st 1) false true, s.flFault ag (flag 3) (st 0)]
       (.fill (st 0) (st 1) (s.regs.re (e.toNat + 2))) (flag 3) (exec (.cfill g u e f) s) ∧
     form true [] .cfence none (exec (.cfence g u) s)) ∧
  (∀ (s : State) (g u e p : BitVec 4),
     let st (i : Nat) : Nat := (s.regs.re (e.toNat + i)).toNat
     let ok (ws sram n : Nat) : Bool :=
       decide (1 ≤ n) && decide (n ≤ 65536) && decide (ws % 256 = 0) && inWs ws (256 * n) && decide (sram % 32 = 0) &&
       inSram sram (32 * p.toNat * n)
     let form (limit : Bool) (op : CopyOp) (r : Out) : Prop :=
       CommandSlot s g (s.copyFull) (if limit then none else some (.illegal 0xA)) (s.postCopy u.toNat op none) r
     form (ok (st 0) (st 1) (st 2)) (.pack (st 0) (st 1) (st 2) (32 * p.toNat)) (exec (.cpyz g u e p) s) ∧
     form (ok (st 1) (st 0) (st 2)) (.unpack (st 0) (st 1) (st 2) (32 * p.toNat)) (exec (.cpyx g u e p) s))

/-- R264, R265, R28: the small remote operations of 8 to 256 bytes, atomics of 4 and 8 bytes, reduce-stores and flag puts:
limits first, then the window faults in the order of the staging group (the model's, DESIGN CHOICE, log 52): the peer entry's before the local destination's for
RLD and RATM, the local source's before the peer entry's for RST and RRED, and the flag's last. That an entry which is no peer
entry of the domain gives cause 0x6 before its rights are looked at is the model's choice (DESIGN CHOICE, log 47). -/
def Obligations.RemoteOperations : Prop :=
  ∀ (s : State) (g u e p : BitVec 4) (f : BitVec 1),
    let ag := u.toNat + 1
    let st (i : Nat) : Nat := (s.regs.re (e.toNat + i)).toNat
    let re (i : Nat) : W64 := s.regs.re (e.toNat + i)
    let flag : Option (Nat × W64) := if f = 1 then some (st 3, re 4) else none
    let small : Bool := decide (8 ≤ st 2) && decide (st 2 ≤ 256) && decide (st 2 % 8 = 0) && decide (st 0 % 8 = 0) &&
      decide (st 1 % 8 = 0)
    let form (limit : Bool) (faults : List (Option SFault)) (op : CopyOp) (fl : Option (Nat × W64)) (r : Out) : Prop :=
      CommandSlot s g (s.copyFull) (if limit then firstFault faults else some (.illegal 0xA))
        (s.postCopy u.toNat op fl) r
    form small [s.peerFault ag (st 0) (st 2) true false true, sramFault ag (st 1) (st 2) true]
      (.rld (st 0) (st 1) (st 2)) none (exec (.rld g u e) s) ∧
    form small [rangeFault ag (st 0) (st 2) false, s.peerFault ag (st 1) (st 2) false true true, s.flFault ag flag (st 1)]
      (.rst (st 0) (st 1) (st 2)) flag (exec (.rst g u e f) s) ∧
    form small [rangeFault ag (st 0) (st 2) false, s.peerFault ag (st 1) (st 2) true true false, s.flFault ag flag (st 1)]
      (.rred p (st 0) (st 1) (st 2)) flag (exec (.rred g u e f p) s) ∧
    form (decide (st 0 % 4 = 0) && decide (st 3 % 8 = 0)) [s.peerFault ag (st 0) 4 true true true, sramFault ag (st 3) 8 true]
      (.ratm p false (st 0) (re 1) (re 2) (st 3)) none (exec (.ratmW g u e p) s) ∧
    form (decide (st 0 % 8 = 0) && decide (st 3 % 8 = 0)) [s.peerFault ag (st 0) 8 true true true, sramFault ag (st 3) 8 true]
      (.ratm p true (st 0) (re 1) (re 2) (st 3)) none (exec (.ratmD g u e p) s) ∧
    form true [s.flagFault ag (st 0) none] (.fput (st 0) (re 1)) (some (st 0, re 1)) (exec (.fput g u e) s)

/-- R157, R268 to R276: the exchange commands on queue q of one dimension: a dimension at or above k is the illegal slot 0xA
whatever the guard; otherwise the slot stalls on a full queue, checks lengths and bank groups, and posts its halves: a send
and a receive (XCHG, and XCMB with its combine), one of them (SENDIF), or an armed send (XARM). With a count array XCMB posts
two sends and two receives, with match numbers of their own (the model's reading, log 33). Of several faulting buffers the
first in the order of the staging registers is the one reported (DESIGN CHOICE, log 52). R79, R272, R73: when XCMB completes,
A, and C, hold the combination of both operands, the one of the die of lower coordinate first: element by element, and with
counts of the valid contributions alone; a block of .sb is valid as a whole; its flags join VFLAGS at the end of the cycle.
That a valid operand beside an invalid one is written as it is, a -0 too, as the pseudocode of R272 has it, where R79 counts
the invalid one as +0, is the model's reading (DEDUCED, log 56). -/
def Obligations.ExchangeCommands : Prop :=
  (∀ (s : State) (q : Nat) (c : XCmd) (m : Combine), s.halted = false → q < 4 → (s.xqueue q).queue = [c] →
    (s.xqueue q).arms = [] → c.finished = true → c.status = none → c.combine = some m → s.combineSettled c = true →
    s.Unwatched → m.fmt.toNat ≤ 4 → m.op ≠ 3 → (m.ns = 0 ∨ m.fmt.toNat ≤ 2 ∧ m.ns ≠ 3) →
    let w := if m.fmt = 1 ∨ m.fmt = 2 then 2 else 4
    let n := m.len / w
    let el (a : Nat) (i : Nat) : Nat := leNat (s.load (a + w * i) w)
    let low := !s.ctl.diecoord.getLsbD (s.ctl.phys c.dim)
    let lo := el (if low then m.a else m.r)
    let hi := el (if low then m.r else m.a)
    let F : Fmt := if m.fmt = 0 then f32 else if m.fmt = 1 then bf16 else f16
    let signed (x : Nat) : Int := if m.fmt = 3 ∧ 2 ^ 31 ≤ x then (x : Int) - 2 ^ 32 else x
    let joined (i : Nat) : Nat × BitVec 6 :=
      if m.fmt.toNat ≤ 2 then
        (if m.op = 0 then F.addB (lo i) (hi i) else (if m.op = 1 then F.maxB (lo i) (hi i) else F.minB (lo i) (hi i), 0))
      else (if m.op = 0 then (lo i + hi i) % 2 ^ 32
            else if m.op = 1 then (if signed (lo i) < signed (hi i) then hi i else lo i)
            else (if signed (hi i) < signed (lo i) then hi i else lo i), 0)
    ∃ (t : State) (vs : List (Nat × BitVec 6)), exec .commandComplete { s with arg := .two (q + 4) c.num } = .next t ∧
      t.regs = s.regs ∧ t.mem.dram = s.mem.dram ∧ (t.xqueue q).queue = [] ∧
      t.line (q + 4) = (s.line (q + 4)).complete c.num ∧
      (∀ b < 6, t.late.flags.getLsbD b = (s.late.flags.getLsbD b || vs.any fun v => v.2.getLsbD b)) ∧
      (m.ns = 0 → vs = (List.range n).map joined ∧
        t.mem.loc = putBytes s.mem.loc m.a (vs.flatMap fun v => leBytes w v.1)) ∧
      (m.ns ≠ 0 → (m.ns = 2 → m.len % (32 * w) = 0) →
        let per := if m.ns = 1 then 1 else 32
        let cw := if m.ns = 1 then 1 else 2
        let count (a : Nat) (j : Nat) : Nat := leNat (s.load (a + cw * j) cw)
        let clo := count (if low then m.c else m.cr)
        let chi := count (if low then m.cr else m.c)
        let valid (x : Nat → Nat) (k : Nat → Nat) (j : Nat) : Prop :=
          k j ≠ 0 ∧ ∀ i < per, (F.decode (x (per * j + i))).isNan = false
        vs.length = n ∧ ∃ cs : List Nat, cs.length = n / per ∧
          t.mem.loc = putBytes (putBytes s.mem.loc m.a (vs.flatMap fun v => leBytes w v.1)) m.c (cs.flatMap (leBytes cw)) ∧
          ∀ j < n / per,
            (valid lo clo j → valid hi chi j →
              cs.getD j 0 = min (clo j + chi j) (if m.ns = 1 then 255 else 65535) ∧
              ∀ i < per, vs[per * j + i]? = some (joined (per * j + i))) ∧
            (valid lo clo j → ¬ valid hi chi j → cs.getD j 0 = clo j ∧
              ∀ i < per, vs[per * j + i]? = some (lo (per * j + i), 0)) ∧
            (¬ valid lo clo j → valid hi chi j → cs.getD j 0 = chi j ∧
              ∀ i < per, vs[per * j + i]? = some (hi (per * j + i), 0)) ∧
            (¬ valid lo clo j → ¬ valid hi chi j → cs.getD j 0 = 0 ∧ ∀ i < per, vs[per * j + i]? = some (0, 0)))) ∧
  ∀ (s : State) (g u e c m : BitVec 4) (q o n : BitVec 2) (f : BitVec 3) (r : BitVec 1), u.toNat < s.ctl.dims →
    let st (i : Nat) : Nat := (s.regs.re (e.toNat + i)).toNat
    let send (a n : Nat) : HalfSpec := ⟨true, u.toNat, a, n⟩
    let recv (a n : Nat) : HalfSpec := ⟨false, u.toNat, a, n⟩
    let counts := countBytes f n (st 2)
    let halves := [send (st 0) (st 2), recv (st 1) (st 2)] ++
      (if n = 0 then [] else [send (st 3) counts, recv (st 4) counts])
    let form (n : Nat) (hs : List HalfSpec) (cmb : Option Combine) (x : Out) : Prop :=
      CommandSlot s g (s.xFull q.toNat) (firstFault (halfFaults q.toNat n hs))
        (s.postX q.toNat hs cmb u.toNat none false).1 x
    form (st 2) [send (st 0) (st 2), recv (st 1) (st 2)] none (exec (.xchg g u e q) s) ∧
    CommandSlot s g (s.xFull q.toNat)
      (firstFault (limitFault (decide (32 ≤ st 2) && decide (st 2 ≤ 2 ^ 25) && decide (st 2 % 32 = 0) &&
        (n != 2 || decide (st 2 % (32 * xWidth f) = 0))) :: halfFaults q.toNat (st 2) halves))
      (s.postX q.toNat halves
        (some { fmt := f, op := o, ns := n, a := st 0, r := st 1, len := st 2, c := st 3, cr := st 4 }) u.toNat none false).1
      (exec (.xcmb g u e q f o n) s) ∧
    ((r = 1 ∨ m.toNat < s.ctl.dims) →
      let on := if r = 1 then s.regs.rg m else s.ctl.rank.getLsbD m.toNat
      form (st 2) [if on then send (st 0) (st 2) else recv (st 1) (st 2)] none (exec (.sendif g u e q r m) s)) ∧
    CommandSlot s g (decide (16 ≤ (s.xqueue q.toNat).arms.length))
      (firstFault (halfFaults q.toNat (st 1) [send (st 0) (st 1)]))
      (s.postX q.toNat [send (st 0) (st 1)] none u.toNat (some (c.toNat, st 2)) false).1 (exec (.xarm g u e q c) s)

/-- R157: an exchange command that names a logical dimension at or above k, or a mask with a bit at or above k, raises the
illegal-slot fault with cause 0xA at its bundle; with a handler, no engine takes a command and no timeline counts one. A
dimension below k reaches the die whose RANK differs in that bit alone, over the physical dimension p_j. -/
def Obligations.DimensionOutsideTheJob : Prop :=
  ∀ (s : State) (g u e c m : BitVec 4) (q o n : BitVec 2) (d r : BitVec 1) (f : BitVec 3) (j : Nat), j < 13 →
    let t := s.takeIllegal 0xA s.stream.ask.slot false
    let mask (i : Nat) : Prop := (s.regs.re (e.toNat + i)).getLsbD j = true
    (s.ctl.dims ≤ u.toNat → exec (.xchg g u e q) s = .next t ∧ exec (.xcmb g u e q f o n) s = .next t ∧
      exec (.sendif g u e q r m) s = .next t ∧ exec (.xarm g u e q c) s = .next t) ∧
    (s.ctl.dims ≤ m.toNat → exec (.sendif g u e q 0 m) s = .next t) ∧
    (s.ctl.dims ≤ j → s.regs.rg g = true → (∀ p, s.xFull p = false) →
      (mask 3 → exec (.shiftg g e q d) s = .next t) ∧
      (mask 0 → exec (.xbar g e q) s = .next t ∧ exec (.xchgm g e) s = .next t ∧ exec (.xcmbm g e f o) s = .next t)) ∧
    (s.ctl.trapvec ≠ 0 → s.ctl.inHandler = false → t.lines = s.lines ∧ t.eng = s.eng ∧ t.stream.pc = s.ctl.trapvec ∧
      t.ctl.tpc = s.stream.pc ∧ t.ctl.ilinfo.toNat % 16 = 0xA) ∧
    (j < s.ctl.dims → extract s.ctl.scmask (s.ctl.partner j) = s.ctl.rank.toNat ^^^ 2 ^ j ∧
      s.ctl.partner j = s.ctl.diecoord ^^^ BitVec.ofNat 13 (2 ^ s.ctl.phys j) ∧ s.ctl.scmask.getLsbD (s.ctl.phys j) = true ∧
      (List.range (s.ctl.phys j)).countP (fun i => s.ctl.scmask.getLsbD i) = j)

/-- R271 to R276: the mask forms: shift along a Gray ring of the masked dimensions, exchange and combine on each dimension
of a mask, the barrier, and XDISARM. A mask that is zero or names a dimension at or above k is the illegal slot 0xA. The
masks are the low 13 bits of their staging registers, the bits above are ignored (the model's reading, log 19). R275: at the
end of its issue cycle (log 41) XDISARM cancels the send that was armed before it and has not fired, and its receive is
told; one that was armed later or has fired stays. That the cancelled arm keeps its place in the arm table, and XDISARM an
entry of the queue, until XDISARM completes is the model's reading (DEDUCED, log 33), the content of the ABORT packet (log 8)
and the order of faulting buffers (log 52) are its choices (DESIGN CHOICE). -/
def Obligations.MaskedExchangeCommands : Prop :=
  (∀ (s : State) (g : BitVec 4) (q : BitVec 2) (num : Nat) (c d : XCmd) (h : Half),
    s.stream.ask.late = [(.xdisarm g q, num, [])] → s.stream.ask.enres = none →
    let x := s.xqueue q.toNat
    let stays (y : XCmd) : Prop := num ≤ y.num ∨ y.started = true ∨ y.status ≠ none
    ((∀ y ∈ x.arms, stays y) → s.lateActs = s) ∧
    (x.arms = [c, d] → ¬ stays c → stays d → d.num ≠ c.num → (∀ y ∈ x.queue, y.num ≠ c.num) → c.halves = [h] →
      let cut : XCmd := { c with status := some 0x17#8, disarmed := some num }
      let t : State := { s with eng.xq := vset s.eng.xq q.toNat { x with arms := [cut, d] } }
      s.lateActs = (t.route { s.ctl.packet .exchangeData (s.ctl.partner h.dim) (q.toNat + 5) (xidOf 0 0) with
        info := .abort q.toNat h.m false 0x17 }).complete (q.toNat + 4) c.num c.pol 0x17)) ∧
  ∀ (s : State) (g e : BitVec 4) (q o : BitVec 2) (d : BitVec 1) (f : BitVec 3),
    let st (i : Nat) : Nat := (s.regs.re (e.toNat + i)).toNat
    let msk (n : Nat) : BitVec 13 := BitVec.ofNat 13 n
    let ok (m : BitVec 13) : Bool := (m != 0) && decide (m.toNat < 2 ^ s.ctl.dims)
    let ds := s.shiftDims (msk (st 3)) (d == 1)
    let hs : List HalfSpec := [⟨true, ds.1, st 0, st 2⟩, ⟨false, ds.2, st 1, st 2⟩]
    let n := st 0 / 2 ^ 32
    let ms := (setBits (msk (st 0))).zipIdx
    let pair (x : Nat × Nat) : List HalfSpec :=
      [⟨true, x.1, st (1 + 2 * x.2), n⟩, ⟨false, x.1, st (2 + 2 * x.2), n⟩]
    let faults := limitFault (ok (msk (st 0)) && decide (ms.length ≤ 4) && decide (e.toNat + 2 * ms.length ≤ 15)) ::
      ms.flatMap fun x => halfFaults x.2 n (pair x)
    let all (cmb : Nat → Nat → Option Combine) (r : Out) : Prop :=
      CommandSlot s g (ms.any fun x => s.xFull x.2) (firstFault faults)
        (ms.foldl (fun t x => (t.postX x.2 (pair x) (cmb (st (1 + 2 * x.2)) (st (2 + 2 * x.2))) x.1 none false).1) s) r
    CommandSlot s g (s.xFull q.toNat) (firstFault (limitFault (ok (msk (st 3))) :: halfFaults q.toNat (st 2) hs))
      (s.postX q.toNat hs none 0 none false).1 (exec (.shiftg g e q d) s) ∧
    all (fun _ _ => none) (exec (.xchgm g e) s) ∧
    all (fun a r => some { fmt := f, op := o, ns := 0, a := a, r := r, len := n, c := 0, cr := 0 }) (exec (.xcmbm g e f o) s) ∧
    CommandSlot s g (s.xFull q.toNat) (if ok (msk (st 0)) then none else some (.illegal 0xA))
      (s.postX q.toNat ((setBits (msk (st 0))).flatMap fun j => [⟨true, j, 0, 0⟩, ⟨false, j, 0, 0⟩]) none 0 none true).1
      (exec (.xbar g e q) s) ∧
    CommandSlot s g (s.xFull q.toNat) none
      (let r := s.postX q.toNat [] none 0 none true
       { r.1 with stream.ask.late := r.1.stream.ask.late ++ [(.xdisarm g q, r.2, [])] }) (exec (.xdisarm g q) s)

/-- R277 to R281: COLL and ROUTE stall while the walker's queue holds 16 commands, check their operands and else enter it;
RQCFG, RQRESET and RCSNAP take the next TLW number and act at the end of the cycle. R284 to R290: CHAIN, CHSTEP and CHSIZE
stall while the contraction engine's queue holds four commands, check their operands (cause 0xA) and else enter it; CHABORT
takes a number at once. A reserved format or q4 in CHCFG is the cause 0xA of all four (R294). The staging bits that no rule
names are accepted (the model's reading, log 19), and so are the cause 0xA of a misaligned COLL record and the agent 0x9 of
one outside (log 34). R278, R281, R297: at the end of their issue cycle (log 41) RQCFG configures a queue that held nothing,
but for rows performed in the cycle of its issue, RQRESET empties one that no task holds, and else they complete with a
record fault; RCSNAP captures the routing counters and clears them, and its completion writes them; CHABORT cancels the
running command and those behind it, and completes at once when the engine is idle. -/
def Obligations.CollectiveAndChainCommands : Prop :=
  (∀ (s : State) (g e : BitVec 4) (num : Nat) (x b h p : W64), s.stream.ask.enres = none →
     let pol : BitVec 2 := BitVec.ofNat 2 p.toNat
     let late (i : Instr) (vals : List W64) : Prop := s.stream.ask.late = [(i, num, vals)]
     let dead (ctx : Nat) : Prop := (s.line ctx).killed = true ∧ (s.line ctx).killedAt < num
     let i := x.toNat % 256
     let rows (q : RowQueue) : State := { s with eng.rows := vset s.eng.rows i q }
     (dead 10 → late (.rqcfg g e) [x, b, h, p] ∨ late (.rqreset g e) [x, p] ∨ late (.rcsnap g e) [x, p] →
       s.lateActs = s.complete 10 num pol 0x17) ∧
     (¬ dead 10 → late (.rqcfg g e) [x, b, h, p] →
       s.lateActs = if h = 1 then s.complete 10 num pol 0x15 else
         (rows { cfgd := true, base := b.toNat, rowsz := x.toNat / 256 % 2048, cap := x.toNat / 2 ^ 32 % 8192, depth := 0,
                 head := 0, heldBy := [] }).complete 10 num pol 0x00) ∧
     (¬ dead 10 → late (.rqreset g e) [x, p] →
       s.lateActs = if (s.rowQ i).heldBy ≠ [] then s.complete 10 num pol 0x15
         else (rows { s.rowQ i with depth := 0, head := 0 }).complete 10 num pol 0x00) ∧
     (¬ dead 10 → late (.rcsnap g e) [x, p] → ∃ c : WCmd, c.num = num ∧ c.op = .rcsnap x.toNat s.eng.routed ∧
       c.status = none ∧ c.pol = pol ∧
       s.lateActs = { s with eng := { s.eng with snaps := s.eng.snaps ++ [c], routed := .replicate 256 0 } }) ∧
     (dead 9 → late (.chabort g) [p] → s.lateActs = s.complete 9 num pol 0x17) ∧
     (¬ dead 9 → late (.chabort g) [p] → s.eng.chain = [] → s.lateActs = s.complete 9 num pol 0x00) ∧
     (∀ c d : ChCmd, ¬ dead 9 → late (.chabort g) [p] → s.eng.chain = [c, d] → c.num < num → d.num < num → c.op ≠ .abort →
       d.op ≠ .abort → c.started = true → c.status = none → d.started = false →
       ∃ a : ChCmd, a.op = .abort ∧ a.num = num ∧ a.pol = pol ∧ a.started = false ∧ s.lateActs = { s with eng.chain := [
         { c with aborted := true, toPost := [], posting := false,
                  status := if c.halted = true ∨ c.posted ≠ [] then none else some 0x17#8 },
         { d with started := true, aborted := true, status := some 0x17#8 }, a] })) ∧
  (∀ (s : State) (c : WCmd) (dst : Nat) (counts : Vector W32 256), s.halted = false → s.Unwatched → s.eng.walker = [] →
     s.eng.snaps = [c] → c.op = .rcsnap dst counts → c.status = none →
     ∃ t, exec .commandComplete { s with arg := .two 10 c.num } = .next t ∧ t.eng.snaps = [] ∧ t.regs = s.regs ∧
       t.mem.loc = putBytes s.mem.loc dst (counts.toList.flatMap fun x => leBytes 4 x.toNat) ∧
       t.line 10 = (s.line 10).complete c.num) ∧
  (∀ (s : State) (g u e : BitVec 4),
     let st (i : Nat) : Nat := (s.regs.re (e.toNat + i)).toNat
     let sh := s.tshapeOf u
     let n := st 1 % 512
     let full := decide (16 ≤ s.eng.walker.length)
     let x := st 0
     let rowsz := x / 256 % 2048
     let cap := x / 2 ^ 32 % 8192
     let okq := decide (16 ≤ rowsz) && decide (rowsz ≤ 1024) && decide (rowsz % 16 = 0) && decide (128 ≤ cap) &&
       decide (cap ≤ 4096) && decide (cap % 128 = 0) && decide (st 1 % 32 = 0)
     let rq := s.rowQ (x % 256)
     let pol : W64 := s.ctl.pol1.zeroExtend 64
     let lateForm (fault : Option SFault) (i : Instr) (vals : List W64) (r : Out) : Prop :=
       CommandSlot s g false fault
         { (s.takeNumber 10).1 with stream.ask.late := s.stream.ask.late ++ [(i, ((s.line 10).issued + 1).toNat, vals)] } r
     CommandSlot s g full (if st 0 % 32 = 0 then rangeFault 0x9 (st 0) 32 false else some (.illegal 0xA))
       (s.postW (.coll (st 0))) (exec (.coll g e) s) ∧
     CommandSlot s g full (if st 0 % 4 = 0 ∧ 1 ≤ n ∧ n ≤ 256 ∧ n ≤ shRows sh then rangeFault 0x9 (st 0) (4 * n) false
         else some (.illegal 0xA)) (s.postW (.route u (st 0) n sh)) (exec (.route g u e) s) ∧
     let before := rq.depth - s.eng.newRows.countP fun i => decide (i = x % 256)
     lateForm (if okq then rangeFault 0x9 (st 1) (cap * rowsz) true else some (.illegal 0xA)) (.rqcfg g e)
       [s.regs.re (e.toNat + 0), s.regs.re (e.toNat + 1), if 0 < before ∨ rq.heldBy ≠ [] then 1 else 0, pol]
       (exec (.rqcfg g e) s) ∧
     lateForm none (.rqreset g e) [s.regs.re (e.toNat + 0), pol] (exec (.rqreset g e) s) ∧
     lateForm (if st 0 % 1024 = 0 then rangeFault 0x9 (st 0) 1024 true else some (.illegal 0xA)) (.rcsnap g e)
       [s.regs.re (e.toNat + 0), pol] (exec (.rcsnap g e) s)) ∧
  (∀ (s : State) (g e : BitVec 4),
     let st (i : Nat) : Nat := (s.regs.re (e.toNat + i)).toNat
     let n := st 1 % 4096 + 1
     let count := st 1 / 2 ^ 32
     let ok := progOk (st 0) n && decide (st 1 / 2 ^ 12 % 2 ^ 20 = 0) && decide (1 ≤ count) && s.ctl.chainMfOk
     let limit (b : Bool) : Option SFault := if b then none else some (.illegal 0xA)
     CommandSlot s g s.chainFull (limit ok) (s.postChain (.chain (st 0) n count)) (exec (.chain g e) s) ∧
     CommandSlot s g s.chainFull (limit (decide (st 2 % 2 ^ 32 = 0) && s.ctl.chainMfOk))
       (s.postChain (.step (s.regs.re e.toNat) (s.regs.re (e.toNat + 1)) (st 2 / 2 ^ 32))) (exec (.chstep g e) s) ∧
     CommandSlot s g s.chainFull (limit (ok && decide (st 2 % 8 = 0) && inWs (st 2) (8 * n)))
       (s.postChain (.size (st 0) n count (st 2))) (exec (.chsize g e) s) ∧
     CommandSlot s g false (limit s.ctl.chainMfOk)
       { (s.takeNumber 9).1 with stream.ask.late := s.stream.ask.late ++
           [(.chabort g, ((s.line 9).issued + 1).toNat, [s.ctl.pol1.zeroExtend 64])] } (exec (.chabort g) s))

/-- R161, R163: what posting a copy command does: the context's issue count rises by one; the command stands last in the
engine's queue or, when that is full or a command of the engine waits before it, last in the issue buffer; nothing else
changes. R161, R247: what posting a direct matrix command does: TLM's issue count rises by one, the command stands last in
the queues it enters under that number, and nothing else changes. R161, R268, R275, R277, R284: what the posts of the other
engines do: the context's issue count rises by one, the command stands last in its queue under that number, and nothing
outside that timeline and that queue changes. Each half of an exchange command has the direction, dimension, address and length
asked for and the next match number of its direction and dimension on the queue, whose match counters rise by one for each half. -/
def Obligations.PostedCommands : Prop :=
  (∀ (s : State) (i : Nat) (op : CopyOp) (fl : Option (Nat × W64)), i < 4 →
     let t := s.postCopy i op fl
     let n := (s.line i).issued + 1
     t.line i = { s.line i with issued := n } ∧ (∀ c < 11, c ≠ i → t.line c = s.line c) ∧
     t = { s with lines := t.lines, eng := { s.eng with copy := t.eng.copy, issueBuf := t.eng.issueBuf } } ∧
     ∃ c : CopyCmd, c.num = n.toNat ∧ c.op = op ∧ c.flag = fl ∧ c.started = false ∧ c.pos = 0 ∧
       (s.copyBuffers i = true → t.eng.copy = s.eng.copy ∧ t.eng.issueBuf = s.eng.issueBuf ++ [(i, c)]) ∧
       (s.copyBuffers i = false → t.eng.issueBuf = s.eng.issueBuf ∧
         ∀ e < 4, t.copyQueue e = if e = i then s.copyQueue e ++ [c] else s.copyQueue e)) ∧
  (∀ (s : State) (op : MatOp) (sh : BitVec 24) (seed : W64), op.engine.2 + (if op.engine.1 then 1 else 0) < 16 →
     let t := s.postMatrix op sh seed
     let n := (s.line 8).issued + 1
     t.line 8 = { s.line 8 with issued := n } ∧ (∀ c < 11, c ≠ 8 → t.line c = s.line c) ∧
     t = { s with lines := t.lines, eng := { s.eng with matrix := t.eng.matrix } } ∧
     ∃ c : MCmd, c.num = n.toNat ∧ c.op = op ∧ c.shape = sh ∧ c.seed = seed ∧ c.started = false ∧
       ∀ e < 16, t.mqueue e = if e = op.engine.2 ∨ (op.engine.1 = true ∧ e = op.engine.2 + 1) then s.mqueue e ++ [c] else s.mqueue e) ∧
  (∀ (s : State) (q : Nat) (hs : List HalfSpec) (cmb : Option Combine) (dim : Nat) (tr : Option (Nat × Nat)) (bar : Bool)
     (w : WalkOp) (c : ChainOp), q < 4 →
     let only (t : State) (ctx : Nat) : Prop :=
       t.line ctx = { s.line ctx with issued := (s.line ctx).issued + 1 } ∧ (∀ k < 11, k ≠ ctx → t.line k = s.line k) ∧
       t = { s with lines := t.lines, eng := t.eng }
     (let r := s.postX q hs cmb dim tr bar
      let old := s.xqueue q
      let new := r.1.xqueue q
      let sent (l : List HalfSpec) (send : Bool) (j : Nat) : W32 :=
        BitVec.ofNat 32 (l.countP fun h => decide (h.send = send) && decide (h.dim = j))
      only r.1 (q + 4) ∧ r.2 = ((s.line (q + 4)).issued + 1).toNat ∧ r.1.eng = { s.eng with xq := r.1.eng.xq } ∧
      (∀ p < 4, p ≠ q → r.1.xqueue p = s.xqueue p) ∧
      (∀ j < 13, vget new.sendCount j 0 = vget old.sendCount j 0 + sent hs true j ∧
        vget new.recvCount j 0 = vget old.recvCount j 0 + sent hs false j) ∧
      ∃ x : XCmd, x.num = r.2 ∧ x.pol = s.ctl.pol1 ∧ x.combine = cmb ∧ x.dim = dim ∧ x.trigger = tr ∧ x.barrier = bar ∧
        x.started = false ∧ x.status = none ∧ x.halves.length = hs.length ∧
        (∀ (k : Nat) (h : HalfSpec), hs[k]? = some h → h.dim < 13 → x.halves[k]? = some {
          send := h.send, dim := h.dim, addr := h.addr, len := h.len, ready := none, open_ := 0, done := false, failed := false,
          m := vget (if h.send then old.sendCount else old.recvCount) h.dim 0 + sent (hs.take k) h.send h.dim + 1 }) ∧
        new = { old with sendCount := new.sendCount, recvCount := new.recvCount,
                         queue := if tr.isSome then old.queue else old.queue ++ [x],
                         arms := if tr.isSome then old.arms ++ [x] else old.arms }) ∧
     (let t := s.postW w
      only t 10 ∧ ∃ x, x.num = ((s.line 10).issued + 1).toNat ∧ x.op = w ∧ t.eng = { s.eng with walker := s.eng.walker ++ [x] }) ∧
     (let t := s.postChain c
      only t 9 ∧ ∃ x, x.num = ((s.line 9).issued + 1).toNat ∧ x.op = c ∧ t.eng = { s.eng with chain := s.eng.chain ++ [x] }))

/-! ## System instructions and traps -/

/-- R324, R316, R325: TRAP, RTE, END, DPOINT, SDUMP and the energy reservations ask for what the end of their bundle does;
LMARK writes one lantern entry; BPOINT counts in BPCNT and asks for a buddy point when the count meets BUDTGT outside the
handler; RDCYC, ENRD and ENRD.RSV put CYCNT, ENACCT and ENRSV in flight. RTE and RERAISE outside the handler are the illegal
slot 0xA, guarded off as well (the model's reading, DEDUCED, log 17). -/
def Obligations.SystemInstructions : Prop :=
  ∀ (s : State) (g : BitVec 4) (n : BitVec 10) (d a : BitVec 5),
    let on (t : State) : Out := .next (s.guarded g t)
    exec (.trap g n) s = on { s with stream.ask.trap := some n } ∧
    exec (.endProg g) s = on { s with stream.ask.ended := true } ∧
    exec (.dpoint g) s = on { s with stream.ask.dpoint := true } ∧
    exec (.sdump g) s = on { s with stream.ask.sdump := true } ∧
    exec (.enres g d a) s = on { s with stream.ask.enres := some (d, s.regs.rs a, false) } ∧
    exec (.enresRel g d a) s = on { s with stream.ask.enres := some (d, s.regs.rs a, true) } ∧
    exec (.rdcyc g d) s = on (s.inFlight 1 (.s d s.ctl.cyccnt) 0) ∧
    exec (.enrd g d) s = on (s.inFlight 1 (.s d s.ctl.enacct) 0) ∧
    exec (.enrdRsv g d) s = on (s.inFlight 1 (.s d s.ctl.enrsv) 0) ∧
    exec (.bpoint g) s = on { s with
      ctl.bpcnt := s.ctl.bpcnt + 1,
      stream.ask.bpoint := decide (s.ctl.bpcnt + 1 = s.ctl.budtgt) && !s.ctl.inHandler } ∧
    (∃ t, exec (.lmark g d a) s = on t ∧ t.ctl = { s.ctl with lnwrc := s.ctl.lnwrc + 1 } ∧ t.regs = s.regs ∧
      t.stream = s.stream ∧ t.mem.loc = s.mem.loc ∧ t = s.lanternC 0x08 d.toNat (s.regs.rs a) ∧
      (s.mem.lanternNow.1 = 0 → (vget t.mem.lanternC s.ctl.lnwrc.toNat (0, 0)).2 = s.regs.rs a ∧
        (vget t.mem.lanternC s.ctl.lnwrc.toNat (0, 0)).1.toNat = s.ctl.cyccnt.toNat % 2 ^ 48 + 8 * 2 ^ 48 + d.toNat * 2 ^ 56)) ∧
    (∀ x : W64,
      let y : W64 := if x.toNat ≤ s.ctl.enrsv.toNat then x else s.ctl.enrsv
      s.doEnres d x true =
        { s with ctl := { s.ctl with enrsv := s.ctl.enrsv - y, enacct := s.ctl.enacct + y }, regs := s.regs.ws d y } ∧
      ((x.toNat : Int) ≤ s.ctl.enacct.toInt → s.doEnres d x false =
        { s with ctl := { s.ctl with enacct := s.ctl.enacct - x, enrsv := s.ctl.enrsv + x }, regs := s.regs.ws d x }) ∧
      (s.ctl.enacct.toInt < x.toNat → s.doEnres d x false = { s with regs := s.regs.ws d 0 })) ∧
    (s.ctl.inHandler = true →
      exec (.rte g) s = on { s with stream.ask.rte := some false } ∧
      exec (.rteSw g) s = on { s with stream.ask.rte := some true } ∧
      exec (.reraise g) s = on { s with stream.ask.reraise := true }) ∧
    (s.ctl.inHandler = false →
      exec (.rte g) s = .next (s.takeIllegal 0xA s.stream.ask.slot false) ∧
      exec (.rteSw g) s = .next (s.takeIllegal 0xA s.stream.ask.slot false) ∧
      exec (.reraise g) s = .next (s.takeIllegal 0xA s.stream.ask.slot false))

/-- R320, R321: a program-level trap that is delivered: the results in flight, the active repeat and the loop state go to
the in-flight save area; TPC, TCAUSE, TINFO and TADDR are written and TSTAT [0] is set; the bundle at TRAPVEC is next after
the trap cycles. Registers, tiles, timelines, engines, die memory and the VFLAGS stay. R323: the end of the return cycles of
RTE: the save area comes back with its results and loop state, TSTAT [0] clears, the bundle at TPC issues next, and the loop
buffer is lost. R319 to R321: a trap and its return bring back what they saved: from a state with a handler that is not in
it, delivering a trap and ending the return at once give the same results in flight, loop state and registers, at the saved
address. -/
def Obligations.TrapEntryAndReturn : Prop :=
  (∀ (s : State) (cause : Byte) (info addr back : W64) (n : Nat), s.ctl.trapvec ≠ 0 → s.ctl.inHandler = false →
     let t := s.takeTrap cause info addr back n
     t.ctl.tpc = back ∧ t.ctl.tcause = cause ∧ t.ctl.tinfo = info ∧ t.ctl.taddr = addr ∧ t.ctl.inHandler = true ∧
     t.stream.pc = s.ctl.trapvec ∧ t.stream.mode = .trapping n ∧ t.stream.results = [] ∧ t.stream.rpt = none ∧
     (∃ a, t.stream.save = some a ∧ a.results = s.stream.results ∧ a.rpt = s.stream.rpt ∧ a.loops = s.ctl.loops ∧
       a.lc = s.ctl.lc ∧ a.lstart = s.ctl.lstart ∧ a.lend = s.ctl.lend ∧ a.draining = s.stream.draining) ∧
     t.regs = s.regs ∧ t.tiles = s.tiles ∧ t.lines = s.lines ∧ t.eng = s.eng ∧ t.mem.loc = s.mem.loc ∧
     t.mem.dram = s.mem.dram ∧ t.mem.host = s.mem.host ∧ t.ports = s.ports ∧ t.pkg = s.pkg ∧ t.ctl.vflags = s.ctl.vflags) ∧
  (∀ (s : State) (a : SaveArea), s.stream.save = some a →
     let t := s.endReturn
     t.stream.mode = .running ∧ t.stream.pc = s.ctl.tpc ∧ t.ctl.inHandler = false ∧ t.stream.save = none ∧
     t.stream.results = a.results ∧ t.stream.rpt = a.rpt ∧ t.ctl.loops = a.loops ∧ t.ctl.lc = a.lc ∧
     t.ctl.lstart = a.lstart ∧ t.ctl.lend = a.lend ∧ t.stream.draining = a.draining ∧ t.stream.buf = none ∧ t.regs = s.regs ∧ t.mem = s.mem ∧
     t.tiles = s.tiles ∧ t.ctl.trapvec = s.ctl.trapvec ∧ t.ctl.tpc = s.ctl.tpc) ∧
  (∀ (s : State) (cause : Byte) (info addr : W64) (n : Nat), s.ctl.trapvec ≠ 0 → s.ctl.inHandler = false →
     let t := (s.takeTrap cause info addr s.stream.pc n).endReturn
     t.stream.pc = s.stream.pc ∧ t.stream.results = s.stream.results ∧ t.stream.rpt = s.stream.rpt ∧
     t.ctl.loops = s.ctl.loops ∧ t.ctl.lc = s.ctl.lc ∧ t.ctl.lstart = s.ctl.lstart ∧ t.ctl.lend = s.ctl.lend ∧
     t.regs = s.regs ∧ t.tiles = s.tiles ∧ t.mem.loc = s.mem.loc ∧ t.ctl.inHandler = false ∧ t.stream.mode = .running)

/-- R186, R187, R320: an illegal slot or bundle writes ILINFO (cause, slot, bundle bit) and ILADDR; with a handler it is the
precise trap 0x08 whose TINFO and TADDR are those registers and whose TPC is the faulting bundle. R12, R13, R27, R220, R31,
R30, R236, R237: a load, a store and an atomic, scalar or vector, of each size, outside what the control stream may address
take the window fault, precisely:
WFADDR is the effective address, WFINFO names the cause (0x2 a hole, 0x3 non-zero bits [63:48], 0x6 the control window,
window space, or, for all but a scalar load, the code store) and the trap is 0x07; no register and no byte changes. -/
def Obligations.PreciseFaultTraps : Prop :=
  (∀ (s : State) (cause slot : Nat) (b : Bool), cause < 16 → slot < 4 → s.ctl.trapvec ≠ 0 → s.ctl.inHandler = false →
     let t := s.takeIllegal cause slot b
     t.ctl.ilinfo.toNat = cause + 16 * slot + (if b then 64 else 0) ∧ t.ctl.iladdr = s.stream.pc ∧ t.ctl.tcause = 0x08#8 ∧
     t.ctl.tinfo.toNat = t.ctl.ilinfo.toNat ∧ t.ctl.taddr = s.stream.pc ∧ t.ctl.tpc = s.stream.pc ∧
     t.stream.pc = s.ctl.trapvec ∧ t.stream.ask.faulted = true ∧ t.regs = s.regs ∧ t.mem.loc = s.mem.loc) ∧
  (∀ (s : State) (g : BitVec 4) (d : BitVec 5) (h : BitVec 3) (a : BitVec 4) (u : BitVec 1) (off : BitVec 18) (op : BitVec 4)
     (so : BitVec 6), s.regs.rg g = true → s.ctl.trapvec ≠ 0 → s.ctl.inHandler = false →
     let ea (o : Int) (size : Nat) : Nat := ((s.regs.ra a).toNat + (o * size % 2 ^ 64).toNat) % 2 ^ 64 / size * size
     let faults (ea cause : Nat) (write : Bool) (r : Out) : Prop :=
       ∃ t, r = .next t ∧ t.ctl.wfaddr.toNat = ea ∧ t.ctl.wfinfo.toNat % 16 = cause ∧ t.ctl.tcause = 0x07#8 ∧
         (t.ctl.wfinfo.toNat / 2 ^ 19 % 2 = if write then 1 else 0) ∧
         t.ctl.taddr.toNat = ea ∧ t.ctl.tpc = s.stream.pc ∧ t.regs = s.regs ∧ t.tiles = s.tiles ∧ t.mem.loc = s.mem.loc
     let cause (ea : Nat) (load : Bool) : Nat :=
       if 2 ^ 48 ≤ ea then 3
       else if 0x1C000000 ≤ ea ∧ ea < 0x20000000 ∨ 2 ^ 32 ≤ ea ∨ (load = false ∧ 0x18000000 ≤ ea ∧ ea < 0x18080000) then 6
       else if (0x18080000 ≤ ea ∧ ea < 0x1C000000) ∨ 0x20000000 ≤ ea then 2 else 0
     let form (scalarLoad write : Bool) (o : Int) (size : Nat) (i : Instr) : Prop :=
       cause (ea o size) scalarLoad ≠ 0 → faults (ea o size) (cause (ea o size) scalarLoad) write (exec i s)
     let o := off.toInt
     form true false o 1 (.ldB g d a u off) ∧ form true false o 2 (.ldH g d a u off) ∧ form true false o 4 (.ldW g d a u off) ∧
     form true false o 8 (.ldD g d a u off) ∧ form false true o 1 (.stB g d a u off) ∧ form false true o 2 (.stH g d a u off) ∧
     form false true o 4 (.stW g d a u off) ∧ form false true o 8 (.stD g d a u off) ∧
     form false true so.toInt 4 (.atmW g d a u op so) ∧ form false true so.toInt 8 (.atmD g d a u op so) ∧
     form false false o 4096 (.vld g d a u off) ∧ form false true o 4096 (.vst g d a u off) ∧
     form false false o 4 (.vldW g d a u off) ∧ form false true o 4 (.vstW g d a u off) ∧
     form false false o 128 (.vldK g h a u off) ∧ form false true o 128 (.vstK g h a u off))

/-- R169, R170, R318 to R320: with no handler (TRAPVEC zero), or while one runs, a precise fault (causes 0x02, 0x07 to 0x09)
goes to the level 2 policy of CONTPOL; so does, with no handler, a fault that level 1 passes up (causes 0x05 and 0x06). Kill
self, and ignore on a precise fault, end the die program and write a dump of KIND 0x4 and level 2, with the die's registers
and bytes, into the tenant's dump area where there is one; ignore absorbs a fault from level 1, and the die stays as it is.
Kill parent raises the fatal trap 0x21 with the cause and its address. Retry applies the latest drain or buddy image of the
job, up to three times in a launch, and raises that trap when they are used up. That the retries of a launch are counted
across the images applied is the model's reading (DEDUCED, log 26), and so are that a freeze under way goes on, unless the
image records a longer one (DEDUCED, log 26), and that a level 2 kill self writes its dump without a fatal-trap event
(DEDUCED, log 30); that retry with no image raises the fatal trap is its choice (DESIGN CHOICE, log 54). -/
def Obligations.TrapWithoutHandler : Prop :=
  ∀ (s : State) (cause : Byte) (info addr back : W64) (n : Nat), s.stream.mode = .running →
    let pol := s.ctl.contpol.toNat / 4
    let killed (t : State) : Prop :=
      let area := (s.pkg.tenant s.pkg.residentTenant).cfg.dumpa
      t.stream.mode = .ended false ∧ t.regs = s.regs ∧ t.tiles = s.tiles ∧ t.mem.loc = s.mem.loc ∧ t.eng = s.eng ∧
      (area.size = 0 → t.pkg = s.pkg) ∧
      (area.size ≠ 0 → ∃ d, t.pkg.dumps = s.pkg.dumps ++ [d] ∧ t.pkg.serial = s.pkg.serial + 1 ∧
        d.tenant = s.pkg.residentTenant ∧ d.addr = area.base ∧ d.serial = s.pkg.serial + 1 ∧ d.img.kind = 4 ∧ d.img.level = 2 ∧
        d.img.cause = cause ∧ d.img.regs = s.regs ∧ d.img.tiles = s.tiles ∧ d.img.loc = s.mem.loc)
    let fatal (t : State) : Prop := t.stream.mode = .fatal ∧ t.ctl.tcause = 0x21#8 ∧ t.ctl.tinfo = cause.zeroExtend 64 ∧
      t.ctl.taddr = addr ∧ t.regs = s.regs ∧ t.tiles = s.tiles ∧ t.mem.loc = s.mem.loc
    let acts (t : State) : Prop :=
      (pol = 2 → killed t) ∧ (pol = 3 → fatal t) ∧
      (pol = 1 → (s.pkg.retryImage s.ctl.jobid = none ∨ 3 ≤ s.stream.retries) → fatal t) ∧
      (pol = 1 → ∀ i, s.pkg.retryImage s.ctl.jobid = some i → s.stream.retries < 3 →
        t.regs = i.regs ∧ t.tiles = i.tiles ∧ t.lines = i.lines ∧
        t.eng = { i.eng with freeze := max i.eng.freeze s.eng.freeze } ∧ t.stream.pc = i.stream.pc ∧
        t.stream.results = i.stream.results ∧ t.stream.retries = s.stream.retries + 1 ∧ t.ctl.inHandler = false)
    (cause ∈ [0x02#8, 0x07#8, 0x08#8, 0x09#8] → (s.ctl.trapvec = 0 ∨ s.ctl.inHandler = true) →
      let t := s.takeTrap cause info addr back n
      acts t ∧ (pol = 0 → killed t)) ∧
    (cause ∈ [0x05#8, 0x06#8] → s.ctl.trapvec = 0 → s.ctl.inHandler = false →
      let t := s.raisePending cause info addr
      acts t ∧ (pol = 0 → t = s))

/-- R156: RANK is derived: its bit i is bit p_i of DIECOORD, where p_i is the position of the i-th set bit of SCMASK counted
from bit 0, and its bits at and above k = popcount(SCMASK) are zero. -/
def Obligations.RankIsTheExtractedCoordinate : Prop :=
  ∀ (s : State) (p : Fin 13),
    let below := (List.range p.val).countP fun i => s.ctl.scmask.getLsbD i
    (s.ctl.scmask.getLsbD p.val = true → s.ctl.rank.getLsbD below = s.ctl.diecoord.getLsbD p.val) ∧
    (∀ i, (List.range 13).countP (fun j => s.ctl.scmask.getLsbD j) ≤ i → s.ctl.rank.getLsbD i = false)

/-! ## Steps and events -/

/-- R46, R159, R174, R186, R217: a step in which nothing else may act is one cycle of the die clock, in which the slots of
the bundle at the program counter act, each by `exec` of the instruction that its word decodes to, when no cause is due, no
bubble is left, the bundle is in bounds and meets no fault, no watchpoint and no stall; a bundle that was held issues in that
cycle. A bundle of one slot with S1 to S3 zero words is `exec` of that slot. R45, R46: a bundle is in bounds when its address
less 0x1800_0000 is below CODELIM. That the step which ends a stall is the whole coming cycle (log 12), and that the slots of
a bundle, whose places say nothing (R176), act in the order moves, vector, matrix, loads, stores, engine commands, control
flow (`State.actors`, log 41), are the model's readings (DEDUCED). -/
def Obligations.StepRunsTheBundle : Prop :=
  (∀ (s : State) (ws : List Nat) (ss : List Slot),
     ws = s.bundleWords → ss = bundleSlots ws →
     s.eng.freeze = 0 → s.stream.mode = .running → s.duePending = none → s.stream.bubbles = 0 → s.inBounds = true →
     bundleFault s.rev2.isNone ws s.stream.rpt = none → s.slotFault ss = none → s.stalled = false →
     (∀ r, s.stream.rpt = some r → ∃ w, decodeSlot none w = .ok r.slot) →
     let t := (({ s with stream.held := false } : State).repeatRegs).endWait
     let head : List (Nat × Instr) := match bundleHeader ws with
       | some (.ok h) => [(0, h)]
       | _ => []
     (t.work ss).findSome? t.slotTrap = none → t.watchMatch (t.work ss) = none →
     ∃ u v, execSlots (head ++ t.actors ss) t = .next u ∧
       v = { u.flow t.stream.pc with stream := { (u.flow t.stream.pc).stream with
         held := false, noWatch := false, counting := true, rpt := t.nextRepeat (u.flow t.stream.pc).stream.ask.rpt ss,
         ask := { (u.flow t.stream.pc).stream.ask with counted := true } } } ∧
       exec .issueBundle s = .next (s.afterIssue v) ∧
       (s.stream.held = true → exec .stallEnd s = .next (s.afterIssue v)) ∧
       ((∀ n, s.pkg.passDue = some n → s.now ≤ n) → s.turns = [] → step s = .next (s.afterIssue v)) ∧
       (∀ w i, ws = [w, 0, 0, 0] → s.stream.rpt = none → slotClass w ≠ 15 → decodeSlot none w = .ok i →
         ∃ x, exec i (t.atSlot 0) = .next x ∧ u = { x with stream.ask.slot := u.stream.ask.slot })) ∧
  (∀ (s : State), s.inBounds = true ↔ (s.stream.pc - 0x18000000#64).toNat < s.ctl.codelim.toNat)

/-- R35, R36, R38, R51, R160, R168, R314, R319, R320, R323: the events of the die clock, each in a state in which the coming
cycle does what it names: the end of a freeze, the delivery of a pending cause, the last trap and return cycles, a refill, in
trap cycles and while bundles issue, where it follows what the cycle's commands charge, a result that lands, a shared-SRAM
access performed, a load that lands, and a stall that becomes a long wait. That each of these events is the whole coming
cycle (DEDUCED, log 12), and that the cycle in which a pending cause is taken is the first of the 24 trap cycles (DEDUCED,
log 21), are the model's readings. -/
def Obligations.ClockEvents : Prop :=
  ∀ (s : State),
    (s.eng.freeze = 1 → s.stream.mode.clockStops = false →
      ∃ t, exec .freezeEnd s = .next t ∧ t.eng = { s.eng with freeze := 0, newRows := [] } ∧ t.regs = s.regs ∧
      t.mem.loc = s.mem.loc ∧ t.stream.pc = s.stream.pc ∧ t.stream.results = s.stream.results ∧ t.stream.sram = s.stream.sram) ∧
    (∀ p, s.eng.freeze = 0 → s.stream.mode = .running → s.stream.ask = Ask.none → s.ctl.trapvec ≠ 0 →
      s.ctl.inHandler = false → s.ctl.nextPending = some p →
      ∃ t, exec .trapDelivery s = .next t ∧ t.stream.mode = .trapping 23 ∧ t.stream.pc = s.ctl.trapvec ∧
        t.ctl.tcause = p.cause ∧ t.ctl.tinfo = p.info ∧ t.ctl.taddr = p.addr ∧ t.ctl.tpc = s.stream.pc ∧
        t.ctl.inHandler = true ∧ (∀ q ∈ t.ctl.pend, q.cause ≠ p.cause) ∧ t.regs = s.regs) ∧
    (s.eng.freeze = 0 → s.stream.mode = .trapping 1 →
      ∃ t, exec .trapCyclesEnd s = .next t ∧ t.stream.mode = .running ∧ t.stream.pc = s.stream.pc ∧ t.regs = s.regs) ∧
    (∀ a, s.eng.freeze = 0 → s.stream.mode = .returning 1 → s.stream.save = some a → s.stream.results = [] →
      ∃ t, exec .returnCyclesEnd s = .next t ∧ (s.stream.stopDue = false → t.stream.mode = .running) ∧
        (s.stream.stopDue = true → s.ctl.drrem = 0 → ∃ n, t.stream.mode = .imageStop 1 n) ∧ (s.stream.stopDue = false ∨ s.ctl.drrem = 0 → t.stream.pc = s.ctl.tpc) ∧
        t.ctl.inHandler = false ∧ t.stream.save = none ∧ t.stream.results = a.results ∧ t.ctl.loops = a.loops ∧
        t.ctl.lc = a.lc ∧ t.regs = s.regs) ∧
    (∀ n, s.eng.freeze = 0 → s.stream.mode = .trapping n → s.refillClk = 1023 → s.pkg.withheld = false →
      s.pkg.celsius < 100 → 0 ≤ s.ctl.enrsv.toInt →
      ∃ t, exec .energyRefill s = .next t ∧ t.refillClk = 0 ∧
        t.ctl.enacct.toInt = max s.ctl.enacct.toInt
          (min (s.ctl.enacct.toInt + s.ctl.enrate.toNat) (s.ctl.encap.toInt - s.ctl.enrsv.toInt))) ∧
    (∀ u, s.eng.freeze = 0 → s.stream.mode = .running → s.refillClk = 1023 → s.issue = .next u →
      exec .energyRefill s = .next (s.afterIssue u)) ∧
    (∀ c, s.refillClk = 1023 → s.pkg.withheld = false → s.pkg.celsius < 100 → 0 ≤ s.ctl.enrsv.toInt →
      let t := s.passTime true c
      t.refillClk = 0 ∧ t.ctl.enrsv = s.ctl.enrsv ∧ t.ctl.encap = s.ctl.encap ∧
      t.ctl.enacct.toInt = max s.ctl.enacct.toInt
        (min (s.ctl.enacct.toInt + s.ctl.enrate.toNat) (s.ctl.encap.toInt - s.ctl.enrsv.toInt))) ∧
    (∀ n, s.eng.freeze = 0 → s.stream.mode = .returning (n + 2) → (s.stream.results.any fun r => decide (r.rem ≤ 1)) = true →
      ∃ t, exec .resultLands s = .next t ∧ t.stream.mode = .returning (n + 1) ∧ t.regs = (s.landDue true []).regs ∧
        t.stream.results = (s.landDue true []).stream.results) ∧
    (∀ o k c, s.AtRest → s.stream.mode = .imageStop k c → s.stream.sram = [o] → o.performed = false → o.performIn = 0 →
      (o.kind = .store → ∃ t, exec .sramAccessPerformed s = .next t ∧ t.mem.loc = putBytes s.mem.loc o.addr o.bytes ∧
        t.stream.sram = [] ∧ t.regs = s.regs) ∧
      (o.kind = .load → 0 < o.landIn → ∃ t, exec .sramAccessPerformed s = .next t ∧ t.mem.loc = s.mem.loc ∧
        t.regs = s.regs ∧ t.stream.sram = [{ o with
          performed := true, bytes := getBytes s.mem.loc o.addr o.size, landIn := o.landIn - 1 }])) ∧
    (∀ o k c d, s.AtRest → s.stream.mode = .imageStop k c → s.stream.sram = [o] → o.performed = true → o.landIn = 0 →
      o.kind = .load → o.dest = .s d → ∃ t, exec .sramLoadLands s = .next t ∧ t.stream.sram = [] ∧
        t.regs = s.regs.ws d (BitVec.ofNat 64 (leNat o.bytes)) ∧ t.mem.loc = s.mem.loc) ∧
    (s.eng.freeze = 0 → s.stream.mode = .running → s.duePending = none → s.stream.bubbles = 0 → s.inBounds = true →
      bundleFault s.rev2.isNone s.bundleWords s.stream.rpt = none → s.slotFault (bundleSlots s.bundleWords) = none →
      s.stream.held = true → s.stalledWait = true → s.ctl.lwstat = false → s.ctl.lwthr.toNat ≤ s.stream.waited + 1 →
      ∃ u, exec .longWait s = .next (s.afterIssue u) ∧ u.ctl.lwstat = true ∧ u.stream.held = true ∧
        u.stream.waited = s.stream.waited + 1 ∧ u.regs = s.regs ∧ u.stream.pc = s.stream.pc ∧ u.mem.loc = s.mem.loc)

/-- R51, R53, R54, R318, R348, R351: a correctable error that an access of the die finds is counted and recorded and freezes
the die for 16 cycles; one that the patrol scrubber finds is counted and recorded without a freeze; an uncorrectable one is
recorded and is the fatal trap 0x20, also while a dump of an earlier one is being written; a fatal trap freezes the die.
R34, R41, R48, R55: CEINFO names the slice, bank or channel of the address. No register and no byte of die-local memory
changes. -/
def Obligations.StorageErrors : Prop :=
  ∀ (s : State) (arr : BitVec 4) (unit : BitVec 6) (addr : W64) (n : Nat) (scrub : Bool),
    let at_ : Nat := if arr = 0 then addr.toNat / 2 ^ 12 % 64
      else if arr = 1 then 8 * ((addr.toNat - 0x10000000) / 2 ^ 25 % 4) + (addr.toNat - 0x10000000) / 2 ^ 9 % 8
      else if arr = 6 then addr.toNat / 2 ^ 8 % 32 else unit.toNat
    let traps : Prop := s.stream.mode ≠ .fatal ∨ ∃ d ∈ s.pkg.dumps, d.img.complete = false
    let found (sc : Bool) : State := { s with arg := .ecc arr unit addr n sc }
    let records (t : State) (more : Nat) : Prop :=
      t.ctl.ceinfo.toNat = arr.toNat + more + 64 * at_ ∧ t.ctl.ceaddr = addr ∧ t.regs = s.regs ∧
      t.tiles = s.tiles ∧ t.mem.loc = s.mem.loc ∧ t.mem.dram = s.mem.dram
    let counts (t : State) : Prop := t.ctl.cecnt.toNat = min (s.ctl.cecnt.toNat + n) (2 ^ 32 - 1)
    (arr.toNat ≤ 6 → 1 ≤ n → (s.eng.freeze = 0 ∨ s.eng.freeze = 16) → s.stream.mode ≠ .scanStop → s.stream.mode ≠ .sdump →
      s.stream.mode ≠ .fatal → ∃ t, exec .correctableError (found false) = .next t ∧ records t 0 ∧
      counts t ∧ t.eng = { s.eng with freeze := 16 } ∧ t.stream = s.stream) ∧
    (arr = 0 ∨ arr = 1 ∨ arr = 6 → 1 ≤ n → ∃ t, exec .patrolScrub (found true) = .next t ∧ records t 32 ∧ counts t ∧
      t.eng = s.eng ∧ t.stream = s.stream) ∧
    (arr.toNat ≤ 6 → traps → ∃ t, exec .uncorrectableError (found scrub) = .next t ∧
      records t (16 + if scrub then 32 else 0) ∧ t.stream.mode = .fatal ∧ t.ctl.tcause = 0x20#8 ∧ t.ctl.taddr = addr) ∧
    (arr.toNat ≤ 6 → ¬ traps → ∃ t, exec .uncorrectableError (found scrub) = .next t ∧
      records t (16 + if scrub then 32 else 0) ∧ t.stream = s.stream ∧ t.pkg = s.pkg) ∧
    (∀ c, c = 0x20 ∨ c = 0x21 → traps → ∃ t, exec .fatalTrap { s with arg := .nat c } = .next t ∧
      t.stream.mode = .fatal ∧ t.ctl.tcause.toNat = c ∧ t.regs = s.regs ∧ t.mem.loc = s.mem.loc ∧ t.mem.dram = s.mem.dram)

/-- R15, R16, R19, R45, R110, R310, R317, R353, R355, R367, R368: what reaches the die over the control path: window-table
entries while WTLOCK is 0; the check that sets WTLOCK, or leaves it at 0 and reports the lowest failing index; code bytes while no program runs;
registers, of which ENRATE and ENCAP are written, and DISCRD is cleared, before a launch only, and AGEQ and LKERR with
verified firmware; reads of the window table, the timeline
counters and the routing counters, and zero outside the regions; the junction temperature; the read counter of an event ring
with no held event, and its overflow bit. That timeline counter k stands at 0x1C20_0000 + 8k is the model's choice (DESIGN
CHOICE, log 50). -/
def Obligations.ControlPath : Prop :=
  ∀ (s : State) (i : BitVec 11) (x y : W64) (v : W32) (t off : Nat) (bs : List Byte), t < 16 →
    let wtab : State := { s with arg := .wtab i x y }
    let written : State := { wtab with mem.wtab := vset s.mem.wtab i.toNat (x, y) }
    let reg : State := { s with arg := .reg t v }
    let ten := s.pkg.tenant t
    let reads (a : Nat) (z : W64) : Prop :=
      exec .controlPathRegisterWrite { s with arg := .ctl (.read (BitVec.ofNat 64 a)) } =
        .next { s with arg := .ctl (.read (BitVec.ofNat 64 a)), pkg.answers := z :: s.pkg.answers, draws := s.draws + 1 }
    (s.ctl.wtlock = false → exec .windowTableWrite wtab = .next written) ∧
    (s.ctl.wtlock = true → exec .windowTableWrite wtab = .next wtab) ∧
    (∀ k < 2048, reads (0x1C100000 + 16 * k) (vget s.mem.wtab k (0, 0)).1 ∧
      reads (0x1C100008 + 16 * k) (vget s.mem.wtab k (0, 0)).2) ∧
    (∀ k < 11, reads (0x1C200000 + 8 * k) (s.line k).seen) ∧
    (∀ k < 128, reads (0x1C300000 + 8 * k) (BitVec.ofNat 64 ((vget s.eng.routed (2 * k) 0).toNat +
      2 ^ 32 * (vget s.eng.routed (2 * k + 1) 0).toNat))) ∧
    (∀ a, (0x1C001000 ≤ a ∧ a < 0x1C100000) ∨ (0x1C500000 ≤ a ∧ a < 0x20000000) → reads a 0) ∧
    exec .controlPathRegisterWrite { s with arg := .ctl (.other x y) } = .next { s with arg := .ctl (.other x y) } ∧
    (s.tableFault = none → exec .wtlockSet s = .next { s with ctl.wtlock := true }) ∧
    (∀ n, s.tableFault = some n →
      exec .wtlockSet s = .next { s with ctl.wtlock := false, pkg.answers := BitVec.ofNat 64 n :: s.pkg.answers }) ∧
    (s.stream.mode = .idle ∨ s.stream.mode = .ended true ∨ s.stream.mode = .ended false → off + bs.length ≤ 0x80000 →
      exec .codeStoreLoad { s with arg := .code off bs } =
        .next (({ s with arg := .code off bs } : State).store (0x18000000 + off) bs) ∧
        (s.store (0x18000000 + off) bs).mem.loc = putBytes s.mem.loc (0x18000000 + off) bs) ∧
    (∀ k, s.stream.mode = .running ∨ s.stream.mode = .trapping k ∨ s.stream.mode = .imageStop k off →
      exec .codeStoreLoad { s with arg := .code off bs } = .next { s with arg := .code off bs }) ∧
    (∀ c : BitVec 20, s.stream.mode = .idle → c.toNat % 16 = 0 → c.toNat ≤ 0x80000 →
      exec .controlPathRegisterWrite { s with arg := .ctl (.codelim c) } =
        .next { s with arg := .ctl (.codelim c), ctl.codelim := c }) ∧
    (let launch (w : CtlWrite) (c : Ctl) : Prop := exec .controlPathRegisterWrite { s with arg := .ctl w } =
      .next (if s.stream.mode = .idle then { s with arg := .ctl w, ctl := c } else { s with arg := .ctl w })
     launch (.enrate v) { s.ctl with enrate := v } ∧ launch (.encap x) { s.ctl with encap := x } ∧
     launch .discrdClear { s.ctl with discrd := 0 }) ∧
    (∀ d, d < 13 → let here : State := { s with arg := .ctl (.lkerrClear d) }
      exec .controlPathRegisterWrite here =
        .next (if s.pkg.verified then here.setPort d { s.port d with lkerr := 0 } else here)) ∧
    (1750000 ≤ off → off ≤ 1750000000 → exec .controlPathRegisterWrite { s with arg := .ctl (.ageq off) } =
      .next (if s.pkg.verified then { s with arg := .ctl (.ageq off), pkg.ageq := off } else { s with arg := .ctl (.ageq off) })) ∧
    exec .controlPathRegisterWrite { s with arg := .ctl .cecntClear } = .next { s with arg := .ctl .cecntClear, ctl.cecnt := 0 } ∧
    (∃ u, exec .thermalLimit { s with arg := .nat off } = .next u ∧ u.pkg.celsius = off ∧ u.ctl = s.ctl ∧
      (u.pkg.withheld = true ↔ 105 ≤ off ∨ (s.pkg.withheld = true ∧ 100 ≤ off))) ∧
    (ten.heldEvents = [] → ten.resetting = false → s.pkg.written = [] → (v - ten.evrd).toNat ≤ (ten.evwr - ten.evrd).toNat →
      ∃ u, exec .evrdWrite reg = .next u ∧ u.pkg.tenant t = { ten with evrd := v } ∧ u.mem = s.mem ∧ u.regs = s.regs) ∧
    ((ten.evwr - ten.evrd).toNat < (v - ten.evrd).toNat → exec .evrdWrite reg = .next reg) ∧
    (v.getLsbD 0 = false →
      ∃ u, exec .evovfClear reg = .next u ∧ u.pkg.tenant t = { ten with evovf := false } ∧ u.mem = s.mem ∧ u.regs = s.regs)

/-- R315: what a charge takes: from ENRSV when it covers it, else the rest from ENACCT, with ENRSV at zero; nothing else
changes. A start may proceed when its charge is zero, is covered by ENRSV, or ENACCT is positive. R161, R139: a timeline
counts in order: completing the number after its count raises the count by one when no later number is complete; completing
a later number leaves the count and keeps the number until it is reached. R217, R135: the tests of a cycle see the counters
as the cycle began. -/
def Obligations.EnergyAndTimelines : Prop :=
  (∀ (s : State) (q : Nat), q < 2 ^ 63 →
     let t := s.charge q
     t = { s with ctl := { s.ctl with enacct := t.ctl.enacct, enrsv := t.ctl.enrsv } } ∧
     (q ≤ s.ctl.enrsv.toNat → t.ctl.enacct = s.ctl.enacct ∧ t.ctl.enrsv.toNat = s.ctl.enrsv.toNat - q) ∧
     (s.ctl.enrsv.toNat < q → t.ctl.enrsv = 0 ∧
       t.ctl.enacct = s.ctl.enacct - BitVec.ofNat 64 (q - s.ctl.enrsv.toNat)) ∧
     (s.ctl.mayCharge q = true ↔ q = 0 ∨ q ≤ s.ctl.enrsv.toNat ∨ 0 < s.ctl.enacct.toInt)) ∧
  ((∀ (t : Timeline) (n : Nat),
     let next : Nat := (t.count + 1).toNat
     (t.done = [] → (t.complete next).count = t.count + 1 ∧ (t.complete next).done = []) ∧
     (t.count.toNat + 1 < n → t.done.contains next = false → (t.complete n).count = t.count ∧ (t.complete n).done = n :: t.done) ∧
     (t.done = [(t.count + 2).toNat] → (t.complete next).count = t.count + 2 ∧ (t.complete next).done = []) ∧
     (t.complete n).seen = t.seen) ∧
   (∀ (s : State) (k : Nat) (p c : Bool), k < 11 →
     (s.passTime p c).line k = { s.line k with seen := (s.line k).count } ∧
     s.ctlNow (0x030 + k) = (s.line k).seen ∧ s.ctlNow (0x040 + k) = (s.line k).issued))

/-- R139, R140, R163, R161, R22, R244, R263: what a copy engine does of itself: it begins its oldest waiting command with
its charge; a command of the issue buffer enters its queue; the next piece of a fill or a copy within die-local memory
moves, at most 256 bytes and no further than its row, and the reads of the same cycle still find the bytes of earlier cycles
(R135); a finished command leaves the queue and its number completes. R84 to R87, R90: the next block of a packing copy
becomes a slot: header, then its non-zero units in ascending order, then zeros, or the header alone with TAG 2 when they do
not fit, and it counts as overflowed; that of an unpacking copy comes back from a slot that passes the tests of R86, and of
another no byte moves and it counts as a fault; an overflowed copy completes with status 0x01 and its count goes to ZOVF. The
moves of 256 bytes within a row (DEDUCED, log 32), one by one (DESIGN CHOICE, log 39) in ascending order (DESIGN CHOICE, log
48), and that a start, a move and a completion are steps between cycles (DEDUCED, logs 10 and 12), are the model's; R263 lets
an engine write at any moment of its span. -/
def Obligations.CopyEngineEvents : Prop :=
  ∀ (s : State) (i : Nat), i < 4 → s.halted = false →
    let two (n : Nat) : State := { s with arg := .two i n }
    let only (n : Nat) (f : CopyCmd → CopyCmd) : List CopyCmd := (s.copyQueue i).map fun c => if c.num = n then f c else c
    (∀ c, s.copyNext i = some c → (s.line i).killed = false → s.ctl.mayCharge (s.copyCharge c.op) = true →
      ∃ t, exec .commandStart { s with arg := .eng (.ce i) } = .next t ∧
        t.copyQueue i = only c.num (fun c => { c with started := true }) ∧ t.ctl = (s.charge (s.copyCharge c.op)).ctl ∧
        t.mem = s.mem ∧ t.regs = s.regs ∧ t.lines = s.lines) ∧
    (∀ c r, s.eng.issueBuf = (i, c) :: r → (s.copyQueue i).length < 32 →
      ∃ t, exec .issueBufferEnter { s with arg := .nat i } = .next t ∧ t.copyQueue i = s.copyQueue i ++ [c] ∧
        t.eng.issueBuf = r ∧ t.mem = s.mem ∧ t.regs = s.regs ∧ t.lines = s.lines) ∧
    (∀ c a len pat, s.findCopy i c.num = some c → s.copyCanMove i c = true → c.op = .fill a len pat → c.pos < len →
      inLocal a len = true → s.Unwatched →
      ∃ t bs, exec .blockTransfer (two c.num) = .next t ∧ t.mem.loc = putBytes s.mem.loc (a + c.pos) bs ∧
        bs.length = min (len - c.pos) 256 ∧
        (∀ j < bs.length, bs.getD j 0 = BitVec.ofNat 8 (pat.toNat / 256 ^ ((c.pos + j) % 8))) ∧
        t.copyQueue i = only c.num (fun c => { c with pos := c.pos + bs.length }) ∧ t.regs = s.regs ∧ t.mem.dram = s.mem.dram) ∧
    (∀ c a b len, s.findCopy i c.num = some c → s.copyCanMove i c = true → c.op = .copy a b 1 len 0 0 → c.pos < len →
      inLocal a len = true → inLocal b len = true → s.Unwatched →
      ∃ t, exec .blockTransfer (two c.num) = .next t ∧
        (let n := min (len - c.pos) 256
         t.mem.loc = putBytes s.mem.loc (b + c.pos) (s.load (a + c.pos) n) ∧
         (∀ x m, t.load x m = s.load x m) ∧
         t.copyQueue i = only c.num (fun c => { c with pos := c.pos + n })) ∧ t.regs = s.regs ∧ t.mem.dram = s.mem.dram) ∧
    (∀ c, s.copyQueue i = [c] → c.finished = true → c.endStatus = 0 →
      ∃ t, exec .commandComplete (two c.num) = .next t ∧ t.copyQueue i = [] ∧ t.mem = s.mem ∧ t.regs = s.regs ∧
        t.line i = (s.line i).complete c.num) ∧
    (∀ c src dst n size, s.findCopy i c.num = some c → s.copyCanMove i c = true → c.op = .pack src dst n size → c.pos < n →
      32 ≤ size → size % 32 = 0 → size ≤ 288 → s.Unwatched →
      let blk := s.load (src + 256 * c.pos) 256
      ∃ (t : State) (slot : List Byte) (units : List Nat), exec .blockTransfer (two c.num) = .next t ∧ t.regs = s.regs ∧ t.mem.dram = s.mem.dram ∧
        t.mem.loc = putBytes s.mem.loc (dst + size * c.pos) slot ∧ slot.length = size ∧
        units.Pairwise (· < ·) ∧ (∀ u, u ∈ units ↔ u < 32 ∧ ∃ j < 8, blk.getD (8 * u + j) 0 ≠ 0) ∧
        leNat (slot.take 4) = (units.map (2 ^ ·)).sum ∧ (slot.getD 5 0).toNat = units.length ∧
        leNat ((slot.drop 6).take 2) = size / 32 ∧ (∀ j, 8 ≤ j → j < 32 → slot.getD j 0 = 0) ∧
        let fits := 32 + 8 * units.length ≤ size
        (fits → slot.getD 4 0 = 1 ∧ (∀ k < units.length, ∀ j < 8,
          slot.getD (32 + 8 * k + j) 0 = blk.getD (8 * units.getD k 0 + j) 0) ∧
          ∀ j, 32 + 8 * units.length ≤ j → slot.getD j 0 = 0) ∧
        (¬ fits → slot.getD 4 0 = 2 ∧ ∀ j, 32 ≤ j → slot.getD j 0 = 0) ∧
        t.copyQueue i = only c.num (fun c => { c with pos := c.pos + 1, bad := c.bad + if fits then 0 else 1 })) ∧
    (∀ c src dst n size, s.findCopy i c.num = some c → s.copyCanMove i c = true → c.op = .unpack src dst n size → c.pos < n →
      size ≤ 288 → s.Unwatched →
      let slot := s.load (src + size * c.pos) size
      let mask := leNat (slot.take 4)
      let below (u : Nat) : Nat := (List.range u).countP mask.testBit
      let count := (slot.getD 5 0).toNat
      let good := slot.getD 4 0 = 1 ∧ count = below 32 ∧ leNat ((slot.drop 6).take 2) = size / 32 ∧
        (∀ j, 8 ≤ j → j < 32 → slot.getD j 0 = 0) ∧ 32 + 8 * count ≤ size
      (good → ∃ t blk, exec .blockTransfer (two c.num) = .next t ∧ t.regs = s.regs ∧
        t.mem.loc = putBytes s.mem.loc (dst + 256 * c.pos) blk ∧ blk.length = 256 ∧
        (∀ u < 32, ∀ j < 8, blk.getD (8 * u + j) 0 = if mask.testBit u then slot.getD (32 + 8 * below u + j) 0 else 0) ∧
        t.copyQueue i = only c.num (fun c => { c with pos := c.pos + 1 })) ∧
      (¬ good → ∃ t, exec .blockTransfer (two c.num) = .next t ∧ t.regs = s.regs ∧ t.mem = s.mem ∧
        t.copyQueue i = only c.num (fun c => { c with pos := c.pos + 1, bad := c.bad + 1 }))) ∧
    (∀ c, s.copyQueue i = [c] → c.finished = true → c.endStatus = 1 →
      ∃ t, exec .commandComplete (two c.num) = .next t ∧ t.copyQueue i = [] ∧ t.mem = s.mem ∧ t.regs = s.regs ∧
        t.line i = (s.line i).complete c.num ∧ vget t.late.zovf i 0 = satAdd32 (vget s.late.zovf i 0) c.bad ∧
        vget t.addLate.ctl.zovf i 0 = satAdd32 (vget s.ctl.zovf i 0) (vget t.late.zovf i 0).toNat)

/-- R164, R167, R244, R247, R256, R269, R270, R275, R277, R287, R289, R290: what the other engines do of themselves: a matrix
engine begins the command at the head of its queue, that of a pair at the head of both, once no task runs there and every
direct command of a lower number, on whatever engine, has begun (R140, R172); a ready task is dispatched with its charge;
TZERO is performed and leaves OCTO; an armed send that is due fires; a command past EXTO times out; the walker moves a
transfer within this die; the chain engine starts a step and posts its first task, in the coming cycle and after the numbers
of its bundle (R298). R95, R96, R277, R279: the walker sends a transfer, the rows of a round, or a row of ROUTE, 256 bytes a
packet; the row of its own RANK it writes itself, a SKIP entry it passes over, and a bad entry or a rejected row makes the
status a record fault. R289, R291, R299: the last task of a step ends it. R292, R293: a boundary overflow. That starts,
dispatch, firing and time-out are steps between cycles (log 12), that a direct command does not wait for a task of a lower
number (log 56), that a time-out ends a command with all its halves at once (log 33), and that the chain engine posts after
the bundle (log 10) are the model's readings (DEDUCED); that a walker transfer moves in one event (log 39), and what the
packets of the walker and of rows carry (log 8), are its choices (DESIGN CHOICE). -/
def Obligations.OtherEngineEvents : Prop :=
  ∀ (s : State), s.halted = false →
    (∀ e : Nat, (s.mqueue e = [] → s.matrixNext e = none) ∧ ∀ (c : MCmd) (r : List MCmd), s.mqueue e = c :: r →
      let may : Prop := c.started = false ∧ c.op.engine.2 = e ∧ s.taskOn e = false ∧
        (∀ f, ∀ d ∈ s.mqueue f, d.num < c.num → d.started = true ∨ 0 < d.tries) ∧
        (c.op.engine.1 = true → s.taskOn (e + 1) = false ∧ ∃ d, (s.mqueue (e + 1)).head? = some d ∧ d.num = c.num)
      (may → s.matrixNext e = some c) ∧ (¬ may → s.matrixNext e = none)) ∧
    (∀ (e : Nat) (c : MCmd), s.matrixNext e = some c → s.cancelled c.num = false → s.ctl.mayCharge c.cost = true →
      ∃ t, exec .commandStart { s with arg := .eng (.me e) } = .next t ∧ t.ctl = (s.charge c.cost).ctl ∧ t.mem = s.mem ∧
        t.eng.matrix = s.eng.matrix.map (fun q => q.map fun d => if d.num = c.num then { d with started := true } else d)) ∧
    (∀ (t0 : Task) (e : Nat), s.eng.tasks = [t0] → s.taskReady t0 = true → t0.passes < 16 → s.engineFor t0 = some e →
      s.ctl.mayCharge t0.cost = true → (∀ c ∈ t0.conds, ∃ x n, c = .time x n) →
      ∃ t, exec .taskDispatch s = .next t ∧ t.eng.tasks = [{ t0 with runsOn := some e, hold := none }] ∧
        t.ctl = (s.charge t0.cost).ctl ∧ t.mem = s.mem ∧ t.regs = s.regs ∧ t.eng.rows = s.eng.rows) ∧
    (∀ (x : BitVec 4) (sh : BitVec 24) (n : Nat), s.stream.tileOps = [{ kind := .zero x, shape := sh, seq := n }] → cellsWf s.tiles.bytes = true →
      ∃ t, exec .tileOpComplete { s with arg := .nat 0 } = .next t ∧ t.stream.octo = 0 ∧ t.mem = s.mem ∧ t.regs = s.regs ∧
        ∀ b, cellGet t.tiles.bytes b = if 262144 * x.toNat ≤ b ∧ b < 262144 * (x.toNat + 1) then 0 else cellGet s.tiles.bytes b) ∧
    (∀ (q : Nat) (c : XCmd) (h : Half), q < 4 → (s.xqueue q).arms = [c] → (s.xqueue q).queue = [] →
      (s.xqueue q).aborts = [] → (s.xqueue q).readies = [] → c.halves = [h] → h.send = true → c.barrier = false →
      s.armDue q c = true → (s.line (q + 4)).killed = false → s.ctl.mayCharge c.cost = true →
      ∃ t, exec .xarmFire { s with arg := .two q c.num } = .next t ∧ t.ctl = (s.charge c.cost).ctl ∧ t.mem = s.mem ∧
        t.xqueue q = { s.xqueue q with arms := [{ c with started := true, elapsed := 0 }] }) ∧
    (∀ (q : Nat) (c : XCmd), q < 4 → (s.xqueue q).queue = [c] → (s.xqueue q).arms = [] → c.started = true →
      c.finished = false → s.ctl.exto ≠ 0 → s.ctl.exto.toNat ≤ c.elapsed →
      ∃ t, exec .exchangeTimeout { s with arg := .two (q + 4) c.num } = .next t ∧
        (t.xqueue q).queue = [{ c with
          status := some 0x14#8, halves := c.halves.map fun h => { h with failed := true } }] ∧
        t.mem = s.mem ∧ t.regs = s.regs ∧ t.lines = s.lines) ∧
    (∀ (c : WCmd) (a src dst : Nat), s.eng.walker = [c] → c.started = true → c.status = none → c.op = .coll a →
      recKind c.record = 1 → c.pos < recTotal c.record →
      recTransfer s.ctl.rank c.record c.pos = (s.ctl.rank, src, dst) → s.Unwatched →
      ∃ t, exec .walkerRound s = .next t ∧
        t.mem.loc = putBytes s.mem.loc dst (s.load src (recLen c.record)) ∧
        t.eng.walker = [{ c with pos := c.pos + 1 }] ∧ t.regs = s.regs ∧ t.mem.dram = s.mem.dram) ∧
    (∀ (c : WCmd), s.eng.walker = [c] → c.started = true → c.status = none →
      let moved : State := { s with eng.walker := [{ c with pos := c.pos + 1 }] }
      let sends (u : State) (peer : BitVec 13) (src dst n idx base : Nat) (final : Bool) : State :=
        (List.range ((n + 255) / 256)).foldl (fun u i =>
          u.walkerSends c peer (.walker c.num idx (base + 256 * i) (final && decide (n ≤ 256 * i + 256))) (dst + 256 * i)
            (min 256 (n - 256 * i)) (u.load (src + 256 * i) (min 256 (n - 256 * i)))) u
      (∀ (a : Nat) (peer : BitVec 13) (src dst : Nat), c.op = .coll a → recKind c.record = 1 → c.pos < recTotal c.record →
        recTransfer s.ctl.rank c.record c.pos = (peer, src, dst) → peer ≠ s.ctl.rank → 0 < recLen c.record →
        exec .walkerRound s = .next (sends moved peer src dst (recLen c.record) c.pos 0 true)) ∧
      (∀ a, c.op = .coll a → recKind c.record = 2 → c.pos < recGroup c.record → 0 < recLen c.record →
        let m := recMask c.record
        let x := extract m s.ctl.rank
        let y := x ^^^ c.pos
        let peer := (s.ctl.rank &&& ~~~m) ||| deposit m y
        let n := recLen c.record
        let rows := recRows c.record
        let src (r : Nat) : Nat := recSrc c.record + (y * rows + r) * n
        let dst (r : Nat) : Nat := recDst c.record + (x * rows + r) * n
        (peer = s.ctl.rank → s.Unwatched → ∃ t, exec .walkerRound s = .next t ∧ t.eng.walker = moved.eng.walker ∧
          t.mem.loc = (List.range rows).foldl (fun l r => putBytes l (dst r) (s.load (src r) n)) s.mem.loc ∧
          t.regs = s.regs ∧ t.mem.dram = s.mem.dram) ∧
        (peer ≠ s.ctl.rank → exec .walkerRound s = .next ((List.range rows).foldl (fun u r =>
          sends u peer (src r) (dst r) n 0 (r * n) (decide (r + 1 = rows))) moved))) ∧
      (∀ (tile : BitVec 4) (a n : Nat) (sh : BitVec 24), c.op = .route tile a n sh → c.pos < n →
        let e := (c.record.getD c.pos 0).toNat
        let skip := (c.record.getD c.pos 0).getLsbD 31
        let bad : Prop := e / 2 ^ 21 % 2 ^ 10 ≠ 0 ∨ 2 ^ s.ctl.dims ≤ e % 2 ^ 13
        let rank := BitVec.ofNat 13 e
        let i := e / 2 ^ 13 % 256
        let row := (rowKeys tile.toNat sh c.pos).map fun k => cellGet s.tiles.bytes k
        let q := s.rowQ i
        let failing : State := { s with eng.walker := [{ c with pos := c.pos + 1, bad := true }] }
        (bad → exec .walkerRound s = .next failing) ∧
        (¬ bad → skip = true → exec .walkerRound s = .next moved) ∧
        (¬ bad → skip = false → rank ≠ s.ctl.rank → row ≠ [] →
          exec .walkerRound s = .next ((List.range ((row.length + 255) / 256)).foldl (fun u j =>
            u.walkerSends c rank (.row i (256 * j) row.length) 0 (min 256 (row.length - 256 * j))
              ((row.drop (256 * j)).take (min 256 (row.length - 256 * j)))) moved)) ∧
        (¬ bad → skip = false → rank = s.ctl.rank → q.cfgd = true → q.rowsz = row.length → q.free = true → s.Unwatched →
          ∃ t, exec .walkerRound s = .next t ∧ t.eng.walker = moved.eng.walker ∧ t.regs = s.regs ∧
            t.mem.loc = putBytes s.mem.loc (q.base + q.rowsz * ((q.head + q.depth) % q.cap)) row ∧
            t.rowQ i = { q with depth := q.depth + 1 } ∧
            vget t.eng.routed i 0 = satAdd32 (vget s.eng.routed i 0) 1) ∧
        (¬ bad → skip = false → rank = s.ctl.rank → q.cfgd = false ∨ q.rowsz ≠ row.length ∨ q.free = false →
          exec .walkerRound s = .next { failing with ctl.rqdrop := satAdd32 s.ctl.rqdrop 1 }))) ∧
    (∀ (c : ChCmd) (k : Task) (e : StepEnd) (y : Nat) (u : State) (st : Byte),
      let here : State := { s with arg := .two 8 k.num }
      s.eng.matrix.toList.flatten = [] → s.eng.tasks = [k] → k.runsOn = some y → k.pol = 0 → k.taken = [] → k.chain = true →
      here.runTask k y k.seed = (u, st) → u.eng.tasks = [k] → u.eng.chain = [c] → c.posted = [k.num] → c.toPost = [] →
      c.aborted = false → c.failed = [] → c.after = some e →
      ∃ t, exec .commandComplete here = .next t ∧ t.eng.tasks = [] ∧ t.regs = u.regs ∧
        (st = 0 → t.line 8 = (u.line 8).complete k.num ∧
          t.ctl = { u.ctl with
            chelem := BitVec.ofNat 64 e.elems, bndAt := e.out,
            bndfmt := vset u.ctl.bndfmt (if e.out then 1 else 0) e.df } ∧
          t.mem.loc = (if e.tr then putBytes u.mem.loc e.base ((List.range e.rows).flatMap fun r =>
            getBytes u.tiles.bytes (262144 * e.tile.toNat + 1024 * r) e.rowBytes) else u.mem.loc) ∧
          t.eng.chain = [{ c with
            posted := [], inStep := false, after := none, step := c.step + 1,
            status := if c.op.steps ≤ c.step + 1 then some 0 else none }]) ∧
        (0x10 ≤ st.toNat → t.ctl.chelem = u.ctl.chelem ∧ t.ctl.bndfmt = u.ctl.bndfmt ∧ t.mem.loc = u.mem.loc ∧
          t.eng.chain = [{ c with posted := [], inStep := false, failed := [(k.num, st)], status := some st }])) ∧
    (∀ (c : ChCmd) (a n m : Nat) (p : StepPlan), s.eng.chain = [c] → s.stepDue = some c → c.op = .chain a n m →
      s.checkStep (s.stepRecord c.op c.step).1 (s.stepRecord c.op c.step).2 s.ctl.chelem.toNat s.ctl.bndfmt = .ok p →
      p.ocap < p.need → s.stream.mode.isEnded = false →
      let need := BitVec.ofNat 64 p.need
      (s.ctl.trapvec = 0 → s.ctl.inHandler = false → exec .chainStepStart s = .next { s with
        ctl.chneed := need, eng.chain := [{ c with status := some 0x15#8 }] }) ∧
      (s.ctl.trapvec ≠ 0 ∨ s.ctl.inHandler = true → s.ctl.pend = [] →
        let t : State := { s with
          ctl.chneed := need, eng.chain := [{ c with halted := true, haltOut := decide (p.output = 1) }] }
        t.chstat = BitVec.ofNat 64 (2 + c.step % 4096 * 16 + if p.output = 1 then 65536 else 0) ∧
        exec .chainStepStart s = .next { t with ctl.pend := [{ cause := 0x04#8, info := t.chstat, addr := need }] })) ∧
    (∀ (c : ChCmd) (a n m : Nat) (p : StepPlan), s.eng.chain = [c] → s.stepDue = some c → c.op = .chain a n m →
      s.checkStep (s.stepRecord c.op c.step).1 (s.stepRecord c.op c.step).2 s.ctl.chelem.toNat s.ctl.bndfmt = .ok p →
      p.need ≤ p.ocap → p.r ≠ 0 →
      ∃ t, exec .chainStepStart s = .next t ∧ t.mem = s.mem ∧ t.ctl = { s.ctl with bndAt := decide (p.input = 1) } ∧ t.eng.chain = [{ c with
        inStep := true, toPost := p.tasks (s.ctl.chcfg.extractLsb' 4 4), posted := [], failed := [],
        after := some (p.after (s.ctl.chcfg.extractLsb' 4 4)) }]) ∧
    (∀ (c : ChCmd) (k : Task) (r : List Task), s.eng.chain = [c] → c.toPost = k :: r → c.inStep = true → c.status = none →
      (s.eng.tasks.filter (·.chain)).length < 4 → (s.line 8).killed = false →
      exec .chainTaskPost s = .next { s with eng.chain := [{ c with posting := true }] } ∧
      ∀ u : State, u.eng.chain = [{ c with posting := true }] → (u.eng.tasks.filter (·.chain)).length < 4 →
        (u.line 8).killed = false →
        let n := ((u.line 8).issued + 1).toNat
        (u.chainPost.line 8).issued = (u.line 8).issued + 1 ∧ u.chainPost.mem = u.mem ∧ u.chainPost.ctl = u.ctl ∧
        u.chainPost.eng.chain = [{ c with toPost := r, posting := false, posted := n :: c.posted }] ∧
        u.chainPost.eng.tasks = u.eng.tasks ++ [{ k with num := n, pol := u.ctl.pol1, seed := taskSeed n u.ctl.srstate }])

/-- R23, R103 to R107: the pager's answers for the resident job on this die. An answer that names a paged-pool entry in use,
of a region with a registered pager, is accepted (PGRES code 0): SUPPLY gives the entry its frame and STATE 0, DISCARD STATE
2, RECLAIM STATE 1, REFUSE changes no entry; SUPPLY releases the copies stalled on it, and REFUSE gives them the status
0x11. Any other is rejected and counted: one whose COORD no job of the tenant holds, and, for this die, one with another OP, one
that names no paged-pool entry, a SUPPLY with a bad FRAME or a reserved bit, and another answer with any bit of word 1. SEQ is
not checked. A read of PGRES restarts the count. That an answer for a region without a pager is rejected (log 48), and that an
answer acts on the table of the job on this die also when another job of the tenant holds the coordinate (log 53), are the
model's choices (DESIGN CHOICE). -/
def Obligations.PagerAnswers : Prop :=
  ∀ (s : State) (t entry frame op : Nat) (j : Job) (w0 w1 : W64), t < 16 → entry < 2048 → 1 ≤ op → op ≤ 4 →
    s.pkg.residentJob = some j → j.tenant = t → s.ctl.diecoord &&& ~~~j.scmask = j.scbase →
    w0.toNat % 2 ^ 32 = s.ctl.diecoord.toNat + entry * 2 ^ 13 + op * 2 ^ 24 →
    let e := vget s.mem.wtab entry (0, 0)
    let x := s.pkg.tenant t
    let given : State := { s with arg := .pgans t w0 w1 }
    let row : Instr := if op = 1 then .supply else if op = 2 then .refuse else if op = 3 then .discard else .reclaim
    let rejects (v0 v1 : W64) : Prop :=
      ∃ u, exec row { s with arg := .pgans t v0 v1 } = .next u ∧ u.mem = s.mem ∧ u.eng = s.eng ∧ u.regs = s.regs ∧
        u.pkg.tenant t = { x with
          pgans0 := v0, pgans1 := v1, pgres := BitVec.ofNat 32 (1 + min (x.pgres.toNat / 256 + 1) (2 ^ 24 - 1) * 256) }
    (x.resetting = false → wV e = true → wKind e = 4 → x.pagers.contains (wRegion e) = true →
      (if op = 1 then w1.toNat = frame ∧ frame % wSize e = 0 ∧ frame < 2 ^ 36 ∧ frame % 2 ^ 21 = 0 ∧ dramRangeOk frame (wSize e) = true
        else w1 = 0) →
      ∃ u, exec row given = .next u ∧ u.pkg.tenant t = { x with
          pgans0 := w0, pgans1 := w1, pgres := BitVec.ofNat 32 (x.pgres.toNat / 256 * 256) } ∧
        (let e' := vget u.mem.wtab entry (0, 0)
         (∀ i < 2048, i ≠ entry → vget u.mem.wtab i (0, 0) = vget s.mem.wtab i (0, 0)) ∧
         wV e' = true ∧ wKind e' = 4 ∧ wBase e' = wBase e ∧ wSize e' = wSize e ∧ wRegion e' = wRegion e ∧
         wState e' = (if op = 1 then 0 else if op = 2 then wState e else if op = 3 then 2 else 1) ∧
         wOff e' = (if op = 1 then frame else wOff e)) ∧
        (∀ i < 4, u.copyQueue i = if op ≤ 2 then (s.copyQueue i).map fun c =>
            if c.stalled = true ∧ c.stallAt = entry ∧ c.status = none then
              (if op = 2 then { c with status := some 0x11#8 } else { c with stalled := false }) else c
          else s.copyQueue i) ∧ u.regs = s.regs ∧ u.mem.loc = s.mem.loc) ∧
    (x.resetting = true ∨ wV e = false ∨ wKind e ≠ 4 ∨ x.pagers.contains (wRegion e) = false → rejects w0 w1) ∧
    (∀ v0 v1 : W64,
      let code := v0.toNat / 2 ^ 24 % 256
      let at_ := BitVec.ofNat 13 v0.toNat
      let size := wSize (vget s.mem.wtab (v0.toNat / 2 ^ 13 % 2 ^ 11) (0, 0))
      let given := v1.toNat / 2 ^ 21 % 2 ^ 15 * 2 ^ 21
      (1 ≤ code → code ≤ 4 → op = code) →
      (∀ y ∈ s.pkg.jobs, y.tenant = t → at_ &&& ~~~y.scmask ≠ y.scbase) ∨ (at_ = s.ctl.diecoord ∧
        (code = 0 ∨ 4 < code ∨ (code ≠ 1 ∧ v1 ≠ 0) ∨
          (code = 1 ∧ (v1.toNat ≠ given ∨ given % size ≠ 0 ∨ dramRangeOk given size = false)))) → rejects v0 v1) ∧
    (∃ u, exec .pgresRead { s with arg := .nat t } = .next u ∧ u.pkg.answers = x.pgres.zeroExtend 64 :: s.pkg.answers ∧
      u.pkg.tenant t = { x with pgres := x.pgres &&& 0xFF#32 } ∧ u.mem = s.mem ∧ u.regs = s.regs)

/-- R39, R48, R115, R117, R119, R120, R124, R135, R142: packets for this die that its port accepts (LACC and the
acknowledgement as in `State.accepted`) are performed at their home and answered: writes, reads, flags, atomics and
reduce-stores of this job, once each by the high-water mark; a compare-and-swap whose compare fails writes nothing and
returns the old value (R222); a read gives the last writes of earlier cycles; a reduce-store of another job is answered by an
unreachable notice. The answers change nothing but ports. R113, R142: one that must wait stays in the receive buffer of its
port. R52, R113, R142: a write packet that its port accepts while it must wait, or behind one of its virtual channel, changes
the port alone and stands in its receive buffer; the oldest one of a channel is performed once nothing holds it. That such a
packet waits in `Port.rx` with a turn of its own (log 7), and what IMM, LEN and the payload of a read request, an atomic and
their responses carry (log 8), are the model's choices (DESIGN CHOICE), and the waits of `State.mustWait` within a cycle are
its reading (DEDUCED, log 10). -/
def Obligations.PacketsPerformed : Prop :=
  (∀ (s : State) (d : Nat) (k : Packet), s.Arrives d k → k.dst = s.ctl.diecoord → k.info = .none → s.Unwatched →
     let here : State := { s with arg := .pkt d k }
     let u := here.accepted d k
     let wrote (bs : List Byte) : State :=
       if k.dram then u.storeDram k.addr.toNat bs else u.storeEng k.addr.toNat bs
     let read (n : Nat) : List Byte := if k.dram then s.loadDram k.addr.toNat n else s.load k.addr.toNat n
     let mark := s.ctl.rshwb.toNat + 4 * (4 * extract s.ctl.scmask k.src + (k.eng.toNat - 1))
     let ahead := (k.rseq - BitVec.ofNat 32 (leNat (getBytes s.mem.dram mark 4))).toNat
     (k.ptype = .write → exec .writePacket here = .next ((wrote k.payload).answer k .transferAck id)) ∧
     (k.ptype = .readRequest → exec .readRequest here = .next (u.answer k .readResponse fun a =>
       { a with imm := k.imm, len := k.len, payload := read k.len })) ∧
     (k.ptype = .flag → exec .flagPacket here = .next ((wrote (leBytes 8 k.imm.toNat)).answer k .transferAck id)) ∧
     (k.ptype = .atomic → ∀ y, k.len = 4 ∨ k.len = 8 →
       atomicNew (k.op.truncate 4) k.len (leNat (read k.len)) (k.imm.toNat % 2 ^ (8 * k.len))
         (leNat k.payload % 2 ^ (8 * k.len)) = some y →
       exec .atomicPacket here = .next ((wrote (leBytes k.len y)).answer k .atomicResponse fun a =>
         { a with imm := BitVec.ofNat 64 (leNat (read k.len)) })) ∧
     (k.ptype = .atomic → k.op.truncate 4 = 0x9#4 → leNat (read k.len) ≠ leNat k.payload % 2 ^ (8 * k.len) →
       exec .atomicPacket here = .next (u.answer k .atomicResponse fun a =>
         { a with imm := BitVec.ofNat 64 (leNat (read k.len)) })) ∧
     (k.ptype = .reduceStore → k.job ≠ s.ctl.jobid → k.src ≠ s.ctl.diecoord →
       exec .reduceStore here = .next (u.route (u.ctl.notice k))) ∧
     (k.ptype = .reduceStore → k.job = s.ctl.jobid → ahead = 0 ∨ 2 ^ 31 ≤ ahead → exec .reduceStore here =
       .next (({ u with ctl.rsdup := satAdd32 s.ctl.rsdup 1 } : State).answer k .transferAck id)) ∧
     (k.ptype = .reduceStore → k.job = s.ctl.jobid → 1 ≤ ahead → ahead < 2 ^ 31 →
       (let w := wrote (ropBytes k.op.toNat (read k.payload.length) k.payload)
        let v : State := { w with mem.dram := putBytes w.mem.dram mark (leBytes 4 k.rseq.toNat) }
        exec .reduceStore here = .next (v.answer k .transferAck id))) ∧
     (∀ (v : State) (p : PType) (f : Packet → Packet), (∀ a, (f a).ptype = a.ptype) → p.answer = true →
       v.answer k p f = { v with ports := (v.answer k p f).ports })) ∧
  (∀ (s : State) (d vc : Nat) (k : Packet), d < 13 → k.ptype = .write → k.info = .none → k.outer = none →
     k.dst = s.ctl.diecoord → s.Unwatched →
     (∀ here : State, here = { s with arg := .pkt d k } → (s.port d).state = .up → k.tagOk = true →
       (s.port d).nctrIn < k.nctr → k.lseq = (s.port d).lacc + 1 →
       s.mustWait k = true ∨ ((s.port d).rxHead k.vc).isSome = true →
       ∃ t, exec .writePacket here = .next t ∧ (t.port d).rx = (s.port d).rx ++ [{ k with held := none }] ∧
         (t.port d).lacc = k.lseq ∧
         t.mem = s.mem ∧ t.regs = s.regs ∧ t.eng = s.eng ∧ ∀ e < 13, e ≠ d → t.port e = s.port e) ∧
     (∀ here : State, here = { s with arg := .rx d vc } → (s.port d).rxHead vc = some k → s.mustWait k = false →
       s.halted = false →
       let p := s.port d
       let u : State := { here with ports := vset s.ports d { p with rx := p.rx.erase k }, arrived := k.src :: s.arrived }
       exec .writePacket here = .next
         ((if k.dram then u.storeDram k.addr.toNat k.payload else u.storeEng k.addr.toNat k.payload).answer k .transferAck id)))

/-- R268, R269, R270, R275, R279: what exchange packets and routed rows do at their target: exchange data lands in the
receive buffer of its match, and the last packet finishes the half; a READY for a match not yet issued waits; one that finds
its begun send half sends the buffer, 256 bytes a packet, or, where the lengths differ, ends that half with record fault and
answers with an ABORT; an ABORT ends the half that it names; a row enters a row queue that has a free slot, once all its
packets have come. What the packets of READY, ABORT and rows carry, with the place of a packet in its buffer or row, and the
acknowledgement that says by IMM 0 or 1 whether a row was accepted, are the model's choice (DESIGN CHOICE, log 8). -/
def Obligations.ExchangePacketsPerformed : Prop :=
  ∀ (s : State) (d q : Nat) (k : Packet), s.Arrives d k → k.dst = s.ctl.diecoord → k.ptype = .exchangeData → s.Unwatched →
    q < 4 →
    let here : State := { s with arg := .pkt d k }
    let u := here.accepted d k
    let j := s.ctl.partnerDim k.src
    let x := s.xqueue q
    let alone (c : XCmd) : Prop := (x.queue = [c] ∧ x.arms = []) ∨ (x.queue = [] ∧ x.arms = [c])
    (∀ m off last c h, k.info = .exch q m off last → x.holder false j m = some (c, h) → c.begun h = true → h.failed = false →
      h.done = false → (last = true → alone c ∧ c.barrier = false) →
      exec .exchangeData here = .next (((u.storeEng (h.addr + off) k.payload).mapX q c.num fun c => c.mapHalf false j m fun h =>
        { h with open_ := h.open_ + k.payload.length, done := last }).answer k .transferAck id)) ∧
    (∀ m len a c h, k.info = .ready q m len a → x.deadSend = [] → x.holder true j m = some (c, h) → alone c →
      c.begun h = true → h.failed = false → h.done = false →
      let pieces : List (Nat × Nat) := if len = 0 then [(0, 0)]
        else (List.range ((len + 255) / 256)).map fun i => (256 * i, min 256 (len - 256 * i))
      let sent : State := u.mapX q c.num fun c => c.mapHalf true j m fun h =>
        { h with done := true, open_ := pieces.length, ready := some (len, a) }
      (len = h.len → exec .ready here = .next (pieces.foldl (fun w p =>
        w.route { w.ctl.packet .exchangeData (w.ctl.partner j) (q + 5) (xidOf c.num c.tries) with
          info := .exch q m p.1 (decide (len ≤ p.1 + p.2)), addr := BitVec.ofNat 48 (a + p.1), len := p.2,
          payload := w.load (h.addr + p.1) p.2 }) sent)) ∧
      (len ≠ h.len → c.status = none → c.barrier = false →
        let lost : XCmd := { c with
          status := some 0x15#8, halves := c.halves.map fun y => if y.is true j m then { y with failed := true } else y }
        exec .ready here = .next ((u.setXq q { x with
            queue := x.queue.map fun _ => lost, arms := x.arms.map fun _ => lost }).route
          { u.ctl.packet .exchangeData (u.ctl.partner j) (q + 5) (xidOf 0 0) with info := .abort q m false 0x15#8 }))) ∧
    (∀ m len a, k.info = .ready q m len a → x.deadSend = [] → x.holder true j m = none →
      (vget x.sendCount j 0 - m).toNat ≥ 2 ^ 31 →
      ∃ t, exec .ready here = .next t ∧ t.regs = s.regs ∧ t.mem = s.mem ∧ t.xqueue q = { x with
        readies := x.readies ++ [{ q := q, dim := j, m := m, len := len, addr := a }] }) ∧
    (∀ m st c h, k.info = .abort q m true st → x.arms = [] → x.queue = [c] → x.holder true j m = some (c, h) →
      c.begun h = true → h.finished = false → c.started = true → c.status = none → c.barrier = false →
      ∃ t, exec .abort here = .next t ∧ t.regs = s.regs ∧ t.mem = s.mem ∧ (t.xqueue q).queue = [{ c with
        status := some st, halves := c.halves.map fun y => if y.is true j m then { y with failed := true } else y }]) ∧
    (∀ n, k.info = .row n 0 k.payload.length → n < 256 → (s.rowQ n).cfgd = true → (s.rowQ n).rowsz = k.payload.length →
      (s.rowQ n).free = true →
      ∃ v : State, exec .routeRowReceive here = .next (v.answer k .transferAck fun a => { a with imm := 0 }) ∧
        v.mem.loc = putBytes s.mem.loc ((s.rowQ n).base + (s.rowQ n).rowsz *
          (((s.rowQ n).head + (s.rowQ n).depth) % (s.rowQ n).cap)) k.payload ∧
        v.rowQ n = { s.rowQ n with depth := (s.rowQ n).depth + 1 } ∧ v.regs = s.regs) ∧
    (let rest := s.eng.rowParts.filter fun x => decide (x.1 ≠ k.src)
     (∀ n, k.info = .row n 0 k.payload.length → n < 256 →
        (s.rowQ n).cfgd = false ∨ (s.rowQ n).rowsz ≠ k.payload.length ∨ (s.rowQ n).free = false →
        exec .routeRowReceive here = .next (({ u with
          ctl.rqdrop := satAdd32 s.ctl.rqdrop 1, eng.rowParts := rest } : State).answer k .transferAck
            fun a => { a with imm := 1 })) ∧
     (∀ n len, k.info = .row n 0 len → k.payload.length < len →
        exec .routeRowReceive here = .next
          (({ u with eng.rowParts := (k.src, k.payload) :: rest } : State).answer k .transferAck id)))

/-- R111, R113, R115, R129, R130, R265: answers reach the copy command they belong to: read data lands at its destination,
the old value of an atomic in shared SRAM, and each lowers the packets open; a notice ends the command with status 0x13. A
packet for another die goes on by the lowest dimension in which the coordinates differ, and a detour packet by its next hop.
R100, R109: while the command waits for an earlier stalled copy of its queue, or for one that a pending refusal has ended, its
data is kept, what has come first in front (the model's reading, DEDUCED, log 32), and lands when nothing holds the command. That
IMM carries the place of read data and the old value of an atomic (log 8), and that a packet leaves whole once its own port
may send (log 46), are the model's choices (DESIGN CHOICE). -/
def Obligations.AnswersAndForwarding : Prop :=
  ∀ (s : State) (d i : Nat) (k : Packet) (c : CopyCmd), i < 4 → d < 13 → s.Unwatched →
    let here : State := { s with arg := .pkt d k }
    let u := here.accepted d k
    let mine (n : Nat) (f : CopyCmd → CopyCmd) : List CopyCmd := (s.copyQueue i).map fun c => if c.num = n then f c else c
    (s.Arrives d k → k.dst = s.ctl.diecoord → k.eng.toNat = i + 1 →
      (s.copyQueue i).find? (fun c => c.started && decide (c.xid = k.xid)) = some c → c.status = none →
      (∀ a b len, k.info = .none → k.ptype = .readResponse → c.op = .copy a b 1 len 0 0 → k.imm.toNat < len →
        inLocal b len = true → s.copyHeld i c = false → c.kept = [] →
        ∃ t, exec .readResponse here = .next t ∧ t.mem.loc = putBytes s.mem.loc (b + k.imm.toNat) k.payload ∧
          t.copyQueue i = mine c.num (fun c => { c with acks := c.acks - 1 }) ∧ t.regs = s.regs) ∧
      (s.copyHeld i c = true ∨ c.kept ≠ [] → k.info = .none →
        let keeps (r : Instr) (pos : Nat) (bs : List Byte) : Prop := ∃ t, exec r here = .next t ∧ t.mem = s.mem ∧
          t.regs = s.regs ∧ t.copyQueue i = mine c.num (fun c => { c with kept := c.kept ++ [(pos, bs)] })
        (k.ptype = .readResponse → keeps .readResponse k.imm.toNat k.payload) ∧
        (∀ o w t x y res, k.ptype = .atomicResponse → c.op = .ratm o w t x y res →
          keeps .atomicResponse 0 (leBytes 8 k.imm.toNat))) ∧
      (∀ o w t x y res, k.info = .none → k.ptype = .atomicResponse → c.op = .ratm o w t x y res →
        s.copyHeld i c = false → c.kept = [] →
        ∃ t, exec .atomicResponse here = .next t ∧ t.mem.loc = putBytes s.mem.loc res (leBytes 8 k.imm.toNat) ∧
          t.copyQueue i = mine c.num (fun c => { c with acks := c.acks - 1 }) ∧ t.regs = s.regs) ∧
      (k.info = .none → k.ptype = .transferAck →
        ∃ t, exec .transferAcknowledgement here = .next t ∧ t.mem = s.mem ∧
          t.copyQueue i = mine c.num (fun c => { c with acks := c.acks - 1 }) ∧ t.regs = s.regs)) ∧
    (∀ a b len pos bs r, s.halted = false → s.findCopy i c.num = some c → c.started = true → s.copyHeld i c = false →
      c.status = none → c.kept = (pos, bs) :: r → c.op = .copy a b 1 len 0 0 → pos < len → inLocal b len = true →
      ∃ t, exec .blockTransfer { s with arg := .two i c.num } = .next t ∧ t.mem.loc = putBytes s.mem.loc (b + pos) bs ∧
        t.copyQueue i = mine c.num (fun c => { c with kept := r, acks := c.acks - 1 }) ∧ t.regs = s.regs) ∧
    (s.Arrives d k → k.dst = s.ctl.diecoord → k.eng.toNat = i + 1 → s.copyQueue i = [c] → k.xid = c.xid →
      c.status = none → k.info = .none → k.ptype = .unreachable → k.ofAnswer = false →
      ∃ t, exec .unreachableNotice here = .next t ∧
        t.copyQueue i = [{ c with status := some 0x13#8, acks := c.acks - 1 }] ∧ t.mem = s.mem ∧ t.regs = s.regs) ∧
    (∀ e, (s.port d).state = .up → k.tagOk = true → (s.port d).nctrIn < k.nctr → k.lseq = (s.port d).lacc + 1 →
      (s.port d).rxHead k.vc = none → e ≠ d → e < 13 → (s.port e).state = .up →
      (s.port e).held + k.flits ≤ 1024 → (s.port e).guyLast = none → (s.port e).resync = false → (s.port e).waiting = [] →
      (k.outer = none → k.dst ≠ s.ctl.diecoord → nextDim s.ctl.diecoord k.dst = some e →
        ∃ t, exec .routerForward here = .next t ∧ t.port d = u.port d ∧
          t.port e = (s.port e).sendNow { k with held := none } s.now ∧ t.mem = s.mem ∧ t.regs = s.regs ∧ t.eng = s.eng) ∧
      (∀ o : Detour, k.outer = some o → o.hop < 2 → e = (if o.hop = 0 then o.d else o.e) →
        ∃ t, exec .detourForward here = .next t ∧ t.port d = u.port d ∧
          t.port e = (s.port e).sendNow { k with outer := some { o with hop := o.hop + 1 }, held := none } s.now ∧
          t.mem = s.mem ∧ t.regs = s.regs ∧ t.eng = s.eng))

/-- R124, R126, R132: acknowledgements and replay: an acknowledgement frees what it covers; a negative one, and 2 µs without
an acknowledgement, send the rest again, each packet sealed with the next NCTR, and the eighth such replay in a row without
progress takes the port to FAILED; a frame whose tag or NCTR is bad is counted in LKERR and answered by a negative
acknowledgement; a port that has come back from its guyline sends directly again once everything it sent over it is
acknowledged. R113, R124, R128, R131: a packet handed to a port leaves under the next LSEQ and stays for replay when the port
is UP and has room, and waits when it is not to leave yet; when the port is out of use and its guyline is available it goes
over the guyline, sealed under the detour key, under the dead link's LSEQ; with neither it cannot be forwarded. That the far
links of a guyline are known by report is the model's reading (DEDUCED, log 45); that a packet leaves whole once its own port
has room (log 46), and what the outer header of a detour packet repeats (log 8), are its choices (DESIGN CHOICE). -/
def Obligations.LinkReplay : Prop :=
  (∀ (s : State) (d n : Nat) (l : W32) (ok : Bool), d < 13 → (s.port d).state = .up → (s.port d).waiting = [] →
     let p := s.port d
     let lack : State := { s with arg := .lack d d none l n ok }
     let nat : State := { s with arg := .nat d }
     let keep := p.replay.filter fun k => !ackedBy k.lseq l
     let again (q : Port) (ks : List Packet) : Prop :=
       q.sent = p.sent ++ (ks.zipIdx 1).map (fun x =>
         { frame := .data { x.1 with nctr := p.nctrOut + x.2 }, nctr := p.nctrOut + x.2, key := p.key }) ∧
       q.nctrOut = p.nctrOut + ks.length ∧ q.lsent = p.lsent
     let fails (t : State) : Prop := (t.port d).state = .failed ∧ (t.port d).since = s.now ∧
       (∀ e < 13, e ≠ d → (t.port e).state = (s.port e).state ∧ (t.port e).since = (s.port e).since) ∧
       t.mem.loc = s.mem.loc ∧ t.mem.dram = s.mem.dram ∧ t.regs = s.regs
     (ok = true → p.nctrIn < n → ackedBy l p.lsent = true →
       ∃ t, exec .linkAcknowledgement lack = .next t ∧ (t.port d).replay = keep ∧ (t.port d).nctrIn = n ∧
         (t.port d).sent = p.sent ∧ (t.port d).lastAck = s.now ∧ t.mem = s.mem ∧ t.regs = s.regs ∧ t.eng = s.eng) ∧
     (ok = true → p.nctrIn < n → ackedBy l p.lsent = true → p.replays < 7 ∨ keep.length < p.replay.length →
       ∃ t, exec .negativeAcknowledgement lack = .next t ∧ (t.port d).replay = keep ∧
         again (t.port d) keep ∧ t.mem = s.mem ∧ t.regs = s.regs ∧ t.eng = s.eng) ∧
     (ok = true → p.nctrIn < n → ackedBy l p.lsent = true → 7 ≤ p.replays → keep = p.replay → p.replay ≠ [] →
       ∃ t, exec .negativeAcknowledgement lack = .next t ∧ fails t) ∧
     (ok = false ∨ n ≤ p.nctrIn → ∀ i ∈ [Instr.linkAcknowledgement, .negativeAcknowledgement],
       ∃ t, exec i lack = .next t ∧ (t.port d).lkerr = satAdd32 p.lkerr 1 ∧ (t.port d).replay = p.replay ∧
         (t.port d).sent = p.sent ++ [{ frame := .nak p.lacc, nctr := p.nctrOut + 1, key := p.key }] ∧ t.mem = s.mem ∧
         t.regs = s.regs ∧ t.eng = s.eng) ∧
     (p.replay ≠ [] → p.lastAck + 3500 ≤ s.now → p.replays < 7 → ∃ t, exec .replayTimeout nat = .next t ∧
       (t.port d).replay = p.replay ∧ again (t.port d) p.replay ∧ (t.port d).replays = p.replays + 1 ∧ t.mem = s.mem ∧
       t.regs = s.regs ∧ t.eng = s.eng) ∧
     (p.replay ≠ [] → p.lastAck + 3500 ≤ s.now → 7 ≤ p.replays → ∃ t, exec .replayTimeout nat = .next t ∧ fails t) ∧
     (∀ x, p.guyLast = some x → p.replay = [] → ∃ t, exec .guylineSwitchBack nat = .next t ∧ (t.port d).guyLast = none ∧
       (t.port d).state = .up ∧ t.mem = s.mem ∧ t.regs = s.regs ∧ t.eng = s.eng)) ∧
  (∀ (s : State) (d : Nat) (k : Packet), d < 13 → k.outer = none → k.guy = false → (s.port d).waiting = [] →
     let p := s.port d
     let e := p.guydim.toNat % 16
     let l := p.lsent + 1
     (p.state = .up → p.guyLast = none → p.resync = false → p.held + k.flits ≤ 1024 →
       s.transmit d k = (s.setPort d (p.sendNow k s.now), true)) ∧
     (p.state = .up → p.guyLast ≠ none ∨ p.resync = true ∨ 1024 < p.held + k.flits →
       s.transmit d k = (s.setPort d { p with waiting := [k] }, true)) ∧
     (p.state.detours = true → p.resync = false → s.guyReady d = true → p.held + k.flits ≤ 1024 → e ≠ d → e < 13 → (s.port e).waiting = [] →
       (s.port e).guyLast = none → (s.port e).resync = false → (s.port e).held + k.flits + 1 ≤ 1024 →
       ∃ t, s.transmit d k = (t, true) ∧ (t.port d).lsent = l ∧ (t.port d).replay = p.replay ++ [{ k with lseq := l }] ∧
         (t.port d).guyLast = some l ∧ (t.port d).detourOut = p.detourOut + 1 ∧ (t.port d).sent = p.sent ∧
         (let o : Detour := { d := d, e := e, hop := 0, lseq := l, nctr := p.detourOut + 1, tagOk := true,
                              body := k.inner d p.detourKey (p.detourOut + 1) l }
          t.port e = (s.port e).sendNow { k with lseq := 0, outer := some o } s.now)) ∧
     (p.state.detours = true → s.guyReady d = false → s.transmit d k = (s, false)))

/-- R125, R127, R131, R339, R340, R347: the state of a port that holds no packet, where no port that is out of use holds one:
management, with verified firmware, enables a DOWN port into TRAIN and disables any port; training ends in UP with fresh keys
and counters, or, when it fails or after 100 ms, in FAILED; a FAILED port trains again after 1 ms; loss of signal is FAILED;
a rekey starts at NCTR 2^48, stops the port 2^40 later, and completes into UP with fresh counters; PARK and its
acknowledgement park every port, one whose link is out as well, and a capture sends PARK on the link, or over its guyline
while the link is out, where PARKACK goes too. A change of state is an entry of the memory half of the lantern ring, with the
dimension, the old state and the new one; no register, engine, other port or byte of memory changes. That a port which no
frame reaches parks at once, that loss of signal takes STOPPED to FAILED, and that the first transmission under a fresh key,
such as RESYNC's, has NCTR 1, are the model's choice (DESIGN CHOICE, log 47). -/
def Obligations.PortStates : Prop :=
  ∀ (s : State) (d n : Nat) (a b c : W32), d < 13 → (s.port d).replay = [] → (s.port d).waiting = [] →
    (∀ e < 13, (s.port e).state.detours = true → (s.port e).replay = [] ∧ (s.port e).waiting = []) →
    let p := s.port d
    let nat : State := { s with arg := .nat d }
    let fails : State := { s with arg := .two d 1 }
    let counts : State := { s with arg := .park d d none a b c n true }
    let v := p.guydim.toNat % 16
    let round : State := { s with arg := .park d v (some (v, 2)) a b c n true }
    let only (t : State) (x : PortState) : Prop :=
      (t.port d).state = x ∧ t.mem.loc = s.mem.loc ∧ t.mem.dram = s.mem.dram ∧ t.regs = s.regs ∧ t.eng = s.eng ∧
      (∀ e < 13, e ≠ d → t.port e = s.port e) ∧
      (x = p.state → t.mem = s.mem) ∧
      (x ≠ p.state → t.ctl = { s.ctl with lnwrm := s.ctl.lnwrm + 1 } ∧ (s.mem.lanternNow.2 = 0 →
        (vget t.mem.lanternM s.ctl.lnwrm.toNat (0, 0)).2.toNat = p.state.code + 256 * x.code ∧
        (vget t.mem.lanternM s.ctl.lnwrm.toNat (0, 0)).1.toNat =
          s.ctl.cyccnt.toNat % 2 ^ 48 + 0x25 * 2 ^ 48 + d * 2 ^ 56))
    let sends (t : State) (f : Frame) (m key : Nat) : Prop := (t.port d).sent = p.sent ++ [{ frame := f, nctr := m, key := key }]
    (s.pkg.verified = true → p.state = .down → ∃ t, exec .managementEnable nat = .next t ∧ only t .train ∧ (t.port d).since = s.now) ∧
    (s.pkg.verified = true → p.state ≠ .down → ∃ t, exec .managementDisable nat = .next t ∧ only t .down ∧ (t.port d).since = s.now) ∧
    (p.state = .train → ∃ t, exec .trainingComplete nat = .next t ∧ only t .up ∧ (t.port d).nctrIn = 0 ∧
      (t.port d).key = p.key + 1 ∧ (t.port d).detourKey = p.detourKey + 1 ∧ (t.port d).rekey = false ∧
      (p.resync = false → (t.port d).nctrOut = 0 ∧ (t.port d).sent = p.sent) ∧
      (p.resync = true → sends t (.resync p.lsent p.lacc) 1 (p.key + 1)) ∧
      (vget t.pkg.status (1 + s.ctl.diecoord.toNat % 8) 0).getLsbD d = true) ∧
    (p.state = .train → p.since + 175000000 ≤ s.now →
      ∃ t, exec .trainTimeout nat = .next t ∧ only t .failed ∧ (t.port d).since = s.now) ∧
    (p.state = .train → ∃ t, exec .trainTimeout fails = .next t ∧ only t .failed ∧ (t.port d).since = s.now) ∧
    (p.state = .failed → p.since + 1750000 ≤ s.now →
      ∃ t, exec .failedRetrain nat = .next t ∧ only t .train ∧ (t.port d).since = s.now) ∧
    (p.state = .up ∨ p.state = .train ∨ p.state = .stopped →
      ∃ t, exec .lossOfSignal nat = .next t ∧ only t .failed ∧ (t.port d).since = s.now) ∧
    (p.state = .up → 2 ^ 48 ≤ p.nctrOut → p.rekey = false →
      ∃ t, exec .rekeyStart nat = .next t ∧ only t .up ∧ (t.port d).rekey = true ∧ sends t .rekey (p.nctrOut + 1) p.key) ∧
    (p.state = .up → 2 ^ 48 + 2 ^ 40 ≤ p.nctrOut → ∃ t, exec .nonceLimit nat = .next t ∧ only t .stopped) ∧
    (p.rekey = true → p.state = .up ∨ p.state = .stopped → ∃ t, exec .rekeyComplete nat = .next t ∧ only t .up ∧
      (t.port d).nctrOut = 0 ∧ (t.port d).nctrIn = 0 ∧ (t.port d).key = p.key + 1 ∧ (t.port d).rekey = false) ∧
    (p.state ≠ .parked → p.nctrIn < n → p.state = .up ∨ p.state = .stopped → ∃ t, exec .park counts = .next t ∧ only t .parked ∧
      (t.port d).before = p.state ∧ sends t (.parkAck p.lsent p.lackd p.lacc) (p.nctrOut + 1) p.key) ∧
    (p.state ≠ .parked → p.nctrIn < n → p.asked = true → ∃ t, exec .parkack counts = .next t ∧ only t .parked ∧
      (t.port d).before = p.state ∧ (t.port d).asked = false ∧ (t.port d).sent = p.sent) ∧
    (p.state = .up ∨ p.state = .stopped →
      let t := s.askPark d
      only t p.state ∧ (t.port d).asked = true ∧ sends t .park (p.nctrOut + 1) p.key) ∧
    (p.state ≠ .up → p.state ≠ .stopped → p.state ≠ .parked → s.guyReady d = false →
      only (s.askPark d) .parked ∧ ((s.askPark d).port d).before = p.state) ∧
    (p.state ≠ .up → p.state ≠ .stopped → p.state ≠ .parked → s.guyReady d = true → v < 13 →
      let q := s.port v
      let goes (t : State) (w : LinkWord) : Prop :=
        (t.port v).sent = q.sent ++ [{ frame := .guy d v 0 w, nctr := q.nctrOut + 1, key := q.key }] ∧
        (t.port v).state = .up ∧ t.mem.loc = s.mem.loc ∧ t.mem.dram = s.mem.dram ∧ t.regs = s.regs ∧ t.eng = s.eng
      goes (s.askPark d) .park ∧ ((s.askPark d).port d).asked = true ∧ ((s.askPark d).port d).state = p.state ∧
      (q.nctrIn < n → (∃ t, exec .park round = .next t ∧ goes t (.parkAck p.lsent p.lackd p.lacc) ∧
        (t.port d).state = .parked ∧ (t.port d).before = p.state ∧ (t.port d).guyBefore = true) ∧
        (p.asked = true → ∃ t, exec .parkack round = .next t ∧ (t.port d).state = .parked ∧ (t.port d).before = p.state ∧
          (t.port v).sent = q.sent ∧ t.regs = s.regs ∧ t.eng = s.eng)))

/-- R102, R302 to R305, R311, R350, R357, R361 to R365, R367: an entry that is read, numbered and within the limits takes
effect: a job or a chain's first element waits and a placement pass is due; a cancelled job that runs is ordered to end; a
pager is registered or withdrawn; a dump that its area still holds as it was sealed is opened into the host buffer. One that
breaks a limit is rejected. A tail write within the ring moves QTAIL, or the shadow while the queue is switched out; a reset
of a tenant without jobs and chains is over at once. That a rejected entry sets QACC too is the model's reading (DEDUCED, log
28); that a dump is opened exactly while its area holds the sealed bytes (log 23), and that chains and jobs take their numbers
from one counter (log 8), are its choices (DESIGN CHOICE). -/
def Obligations.HostQueueEvents : Prop :=
  ∀ (s : State) (t q : Nat), t < 16 →
    let here : State := { s with arg := .nat q }
    let e := s.entryAt q
    let seq := (s.pkg.queue q).qacc + 1
    let u := here.tookEntry q
    let taken (w : State) : Prop := (w.pkg.queue q).qhead = (s.pkg.queue q).qhead + 1 ∧ (w.pkg.queue q).qacc = seq
    (∀ r, s.EntryReady t q 1 → parseRecord 1 (getBytes s.mem.host (entryAddr e) 64) = some r →
      ∃ w, exec .submitJob here = .next w ∧ taken w ∧ (w.pkg.queue q).live = (s.pkg.queue q).live ++ [seq] ∧
        w.pkg.jobs = s.pkg.jobs ++ [newJob s.pkg.nextJob t q seq r (s.arrivalAt q) s.now none] ∧
        w.pkg.arrivals = s.pkg.arrivals + 1 ∧ w.pkg.passDue = some s.now ∧ w.mem = s.mem ∧ w.regs = s.regs) ∧
    (s.EntryReady t q 1 → parseRecord 1 (getBytes s.mem.host (entryAddr e) 64) = none →
      exec .submitJob here = .next (u.emit t (pkgEvent 0x0006 0x13#8 0 seq.toNat q))) ∧
    (∀ r rs, s.EntryReady t q 2 → parseChain s.mem.host (entryAddr e) = some (r :: rs) →
      let id := s.pkg.nextJob
      ∃ w, exec .submitChain here = .next w ∧ taken w ∧ w.pkg.passDue = some s.now ∧ w.mem = s.mem ∧ w.regs = s.regs ∧
        w.pkg.jobs = s.pkg.jobs ++ [newJob (id + 1) t q seq r (s.arrivalAt q) s.now (some (id, 0))] ∧
        ∃ c : Chain, w.pkg.chains = s.pkg.chains ++ [c] ∧ c.id = id ∧ c.elems = r :: rs ∧ c.next = 1 ∧ c.cancelled = false) ∧
    (∀ j, s.EntryReady t q 3 → s.pkg.chains = [] → s.pkg.jobs = [j] → j.queue = q →
      j.seq.toNat = entryArg e → j.runs = true → s.pkg.resident = some j.id → s.stream.mode = .running →
      ∃ w, exec .cancel here = .next w ∧ taken w ∧ w.pkg.jobs = [{ j with state := .ended 0x03 }] ∧
        w.stream.mode = .ended false ∧ w.regs = s.regs ∧ w.mem.loc = s.mem.loc) ∧
    (s.EntryReady t q 4 → entryAddr e = 0 → entryArg e < 128 →
      ∃ w, exec .registerPager here = .next w ∧ taken w ∧ w.mem = s.mem ∧ w.regs = s.regs ∧
        ∀ r, r ∈ (w.pkg.tenant t).pagers ↔ r = entryArg e ∨ r ∈ (s.pkg.tenant t).pagers) ∧
    (s.EntryReady t q 5 → entryAddr e = 0 → entryArg e < 128 →
      ∃ w, exec .withdrawPager here = .next w ∧ taken w ∧ w.mem = s.mem ∧ w.regs = s.regs ∧
        ∀ r, r ∈ (w.pkg.tenant t).pagers ↔ r ≠ entryArg e ∧ r ∈ (s.pkg.tenant t).pagers) ∧
    (∀ d, s.EntryReady t q 6 → s.namedDump t (entryArg e) = some d →
      let opened := s.pkg.openDump d
      let sealed := s.pkg.sealDump d
      (getBytes s.mem.host d.addr sealed.length = sealed →
        ((s.pkg.tenant t).cfg.aper.any fun p => decide (p.size ≠ 0) && decide (p.base ≤ entryAddr e) &&
          decide (entryAddr e + opened.length ≤ p.base + p.size)) = true →
        ∃ w, exec .readDump here = .next w ∧ taken w ∧ w.mem = { s.mem with
          host := putBytes s.mem.host (entryAddr e) opened } ∧ w.regs = s.regs) ∧
      (getBytes s.mem.host d.addr sealed.length ≠ sealed →
        exec .readDump here = .next (u.emit t (pkgEvent 0x0006 0x13#8 0 seq.toNat q)))) ∧
    (∀ v, q < 64 → s.owner q = some t → (v - (s.pkg.queue q).qhead).toNat ≤ 2 ^ (s.pkg.queue q).qlog.toNat →
      ∃ w, exec .qtailWrite { s with arg := .qtail t q v } = .next w ∧ w.mem = s.mem ∧ w.regs = s.regs ∧
        w.pkg.queue q = if (s.pkg.queue q).out then { s.pkg.queue q with shadow := v } else { s.pkg.queue q with qtail := v }) ∧
    ((s.pkg.tenant t).used = true → s.pkg.verified = true → s.dumping t = false → (s.pkg.tenant t).resetting = false → s.pkg.jobs = [] →
      s.pkg.chains = [] → ∃ w, exec .resetTenant { s with arg := .resetT t none } = .next w ∧
        (w.pkg.tenant t).resetting = false ∧ (w.pkg.tenant t).stopped = false ∧ (w.pkg.tenant t).pagers = [] ∧
        (∀ i ∈ w.pkg.images, i.tenant ≠ t) ∧ w.regs = s.regs ∧ w.mem = s.mem)

/-- R306 to R311, R341: a placement pass gives the one waiting job, which resumes from an image, the sub-cube that it may
take; in a freeze, when nothing may write the die's storage (R51), no pass acts (DESIGN CHOICE, log 7); a job that has waited
AGEQ in its class rises one class; a quantum that is over, or a wait of all its dies, swaps the job out when that helps a
waiting job, and a quantum that does not starts again; a job whose end has come is closed, and its die is free. R16, R19,
R45, R47, R153, R156, R195, R198, R199, R313: a pass that places a job which does not resume launches it on this die: with a
window table that every die accepts, the program starts at its entry with cleared registers, timelines and engines, its code
in the code store, CODELIM and WTLOCK set, the sub-cube, JOBID and energy of the job; a table that is refused leaves WTLOCK
at 0 and reports the index, and the job starts on no die. R67, R194: a launch sets the registers of its reg keys and SRSTATE
by srseed. R360: before a job of another tenant, shared SRAM, the working store and the DRAM outside the image area are zero.
That container and launch record are read in the placement pass is the model's reading (DEDUCED, log 28); that a cube beyond
this package is placeable where other schedulers say so is the model's (DESIGN CHOICE, log 9). -/
def Obligations.SchedulerEvents : Prop :=
  ∀ (s : State) (j : Job),
    let nat : State := { s with arg := .nat j.id }
    let jobs (j' : Job) : List Job := s.pkg.jobs.map fun x => if x.id = j.id then j' else x
    let same (w : State) : Prop := w.mem = s.mem ∧ w.regs = s.regs ∧ w.stream = s.stream ∧ w.ctl = s.ctl
    (s.frozen = true → exec .placementPass s = .next s) ∧
    (∀ l m b, s.frozen = false → s.pkg.passDue.isSome = true → s.pkg.jobs = [j] → j.state = .waiting → j.launch = some l →
      l.dims = j.record.k → s.pkg.rate j ≤ maxRate → domainFits j.record.k l.domain = true → s.granted j = true →
      (vget s.pkg.status 0 0).getLsbD 0 = true → (vget s.pkg.status 0 0).getLsbD 2 = true → j.image.isSome = true →
      ({ s with pkg := { s.pkg with passDue := none, clearing := s.pkg.clearing && !s.cleared } } : State).place? none j =
        some (m, b) →
      ∃ w, exec .placementPass s = .next w ∧ same w ∧ w.pkg.passDue = none ∧ w.pkg.jobs = [{ j with
        scmask := m, scbase := b, peers := [],
        state := if s.ctl.diecoord &&& ~~~m = b then .placed else .running, quantFrom := s.now }]) ∧
    (∀ l m b ss code, s.frozen = false → s.pkg.passDue.isSome = true → s.pkg.jobs = [j] → j.state = .waiting → j.launch = some l →
      l.dims = j.record.k → s.pkg.rate j ≤ maxRate → domainFits j.record.k l.domain = true → s.granted j = true →
      (vget s.pkg.status 0 0).getLsbD 0 = true → (vget s.pkg.status 0 0).getLsbD 2 = true → j.image = none → j.chain = none →
      ({ s with pkg := { s.pkg with passDue := none, clearing := s.pkg.clearing && !s.cleared } } : State).place? none j =
        some (m, b) → s.ctl.diecoord &&& ~~~m = b →
      let bs := s.container j
      let ws := l.lines bs ss j.record.kernel
      let placed : Job := { j with scmask := m, scbase := b }
      containerSections bs = some ss → jobCode bs ss j.record.kernel l.rev = some code → codeOk code = true →
      ((kernelSections ss 6 j.record.kernel).all fun x => x.imageOk j.record.k) = true →
      let put (r : Regs) (x : Landing) : Regs := match x with
        | .s i v => r.ws i v
        | .a i v => r.wa i v
        | .n i v => r.wn i v
        | .e i v => r.we i v
        | .g i v => r.wg i v
        | _ => r
      (s.tableRefused placed ((domainMask m l.domain).getD 0) ws = none → cellsWf s.mem.loc = true →
        (∀ x ∈ l.regs, (∃ i v, x = .s i v) ∨ (∃ i v, x = .a i v) ∨ (∃ i v, x = .n i v) ∨ (∃ i v, x = .e i v) ∨ ∃ i v, x = .g i v) →
        ∃ w, exec .placementPass s = .next w ∧ w.pkg.passDue = none ∧ w.pkg.resident = some j.id ∧
          w.stream = { Stream.clear with pc := l.entry.getD 0x18000000#64, mode := .running } ∧
          w.regs = l.regs.foldl put Regs.clear ∧ w.ctl.srstate = (match l.srseed with
            | some x => if x = 0 then 0x9E3779B97F4A7C15#64 else x
            | none => 0x9E3779B97F4A7C15#64) ∧
          (s.pkg.lastTenant ≠ some j.tenant → (∀ a < 0xB80000000, cellGet w.mem.dram a = 0) ∧
            (kernelSections ss 6 j.record.kernel = [] → ∀ a < 0x18000000, cellGet w.mem.loc a = 0)) ∧
          w.lines = Vector.replicate 11 Timeline.clear ∧ w.eng = { Engines.clear with freeze := s.eng.freeze } ∧
          w.ctl.wtlock = true ∧ w.ctl.scmask = m ∧
          w.ctl.scbase = b ∧ w.ctl.diecoord = s.ctl.diecoord ∧ w.ctl.jobid = BitVec.ofNat 32 j.id ∧ w.ctl.rev = l.rev ∧
          w.ctl.codelim.toNat = code.length ∧ (∀ i < code.length, cellGet w.mem.loc (0x18000000 + i) = code.getD i 0) ∧
          w.ctl.enacct = BitVec.ofNat 64 (s.pkg.estimate j) ∧ w.ctl.encap = w.ctl.enacct ∧ w.ctl.enrsv = 0 ∧
          w.ctl.enrate = BitVec.ofNat 32 (s.pkg.rate j) ∧
          w.pkg.jobs = [{ placed with state := .running, peers := [], peerStop := none, dieRetries := 0, quantUsed := 0,
                                      quantFrom := s.now, buddyAt := s.now, oldBase := b }]) ∧
      (∀ i, s.tableRefused placed ((domainMask m l.domain).getD 0) ws = some i → s.pkg.resident = none →
        ∃ w, exec .placementPass s = .next w ∧ w.ctl = { s.ctl with wtlock := false } ∧ w.stream = s.stream ∧
          w.regs = s.regs ∧ w.pkg.jobs = [] ∧ w.pkg.answers = BitVec.ofNat 64 i :: s.pkg.answers)) ∧
    (s.pkg.waiting.find? (fun x => decide (x.id = j.id)) = some j → 0 < j.cls → j.agedAt + s.pkg.ageq ≤ s.now →
      ∃ w, exec .aging nat = .next w ∧ same w ∧ w.pkg.jobs = jobs { j with cls := j.cls - 1, agedAt := s.now }) ∧
    (s.pkg.jobs.find? (fun x => decide (x.id = j.id)) = some j → j.state = .running → s.quantumOver j = true →
      ∃ w, exec .quantumExpiry nat = .next w ∧ same w ∧ w.pkg.jobs = jobs
        (if s.swapHelps j = true then { j with state := .swapping, quantUsed := 0, quantFrom := s.now }
          else { j with quantUsed := 0, quantFrom := s.now })) ∧
    (s.pkg.jobs.find? (fun x => decide (x.id = j.id)) = some j → j.state = .running → s.quantumOver j = false →
      s.allWait j = true → s.swapHelps j = true →
      ∃ w, exec .quantumExpiry nat = .next w ∧ same w ∧ w.pkg.jobs = jobs
        { j with state := .swapping, quantUsed := j.quantUsed + (s.now - j.quantFrom), quantFrom := s.now }) ∧
    (∀ st, s.pkg.jobs.find? (fun x => decide (x.id = j.id)) = some j → j.state = .ended st → j.chain = none →
      ∃ w, exec .jobEnd nat = .next w ∧ w.regs = s.regs ∧ w.mem.loc = s.mem.loc ∧ w.pkg.passDue = some s.now ∧
        w.pkg.jobs = s.pkg.jobs.filter (fun x => decide (x.id ≠ j.id)) ∧
        w.pkg.resident = (if s.pkg.resident = some j.id then none else s.pkg.resident))

/-- R168, R330, R331, R333, R334, R336, R343 to R345: stops and images of the resident job: a drain request, of a job that
may be swapped, sets TSTAT [8]; a stopped, quiet die is captured with the next SERIAL, and a scan stop captures it at once;
an image is written sealed into its slot; the end of a buddy capture lets issue resume, that of another frees the die;
BUDTGT is set one above the highest BPCNT, and cleared when the point is abandoned. R51: a freeze holds a capture, and goes on after
one. R109, R149, R311: a job that is swapped out keeps its window table, its quantum clock stops, what its parked ports had
taken is in the image alone, and they take no resync until it is applied. The slot bases and the sealed bytes are the model's
choice (DESIGN CHOICE, log 23); that a port whose record stands in an image takes no RESYNC before (log 31), a quiet capture with
tasks that are not ready (log 22), and what the other dies report (log 14) are its readings (DEDUCED). -/
def Obligations.ImageEvents : Prop :=
  ∀ (s : State) (j : Job), s.pkg.residentJob = some j →
    let jobs (st : JobState) : List Job := s.pkg.jobs.map fun x => if x.id = j.id then { j with state := st } else x
    let same (w : State) : Prop := w.regs = s.regs ∧ w.tiles = s.tiles ∧ w.mem.loc = s.mem.loc ∧ w.mem.dram = s.mem.dram
    let used := j.quantUsed + (s.now - j.quantFrom)
    let stopped : List Job := s.pkg.jobs.map fun x => if x.id = j.id then { j with
      state := .swapping, quantUsed := if j.record.quant * 1750 ≤ used then 0 else used, quantFrom := s.now } else x
    let captured (w : State) (kind : Nat) : Prop := ∃ i : Image, w.pkg.images = s.pkg.images ++ [i] ∧ i.kind = kind ∧
      i.serial = s.pkg.serial + 1 ∧ i.regs = s.regs ∧ i.tiles = s.tiles ∧ i.complete = false ∧ w.pkg.serial = s.pkg.serial + 1
    (j.state = .running → s.swapDue j = true → ∃ w, exec .drainRequest s = .next w ∧ same w ∧ w.ctl = { s.ctl with drainReq := true } ∧
      w.pkg.jobs = jobs (.draining s.now) ∧ w.stream = s.stream) ∧
    (∀ t0, s.stream.mode = .imageStop 3 t0 → s.quiet = true → s.eng.freeze = 0 → s.capturing = false →
      s.othersReport j (fun r => r.ended || (r.stopped && decide (r.bpcnt = s.ctl.bpcnt))) = true →
      ∃ w, exec .imageCapture s = .next w ∧ same w ∧ captured w 3 ∧ w.stream = s.stream) ∧
    (∀ k t0, s.stream.mode = .imageStop k t0 → s.eng.freeze ≠ 0 → exec .imageCapture s = .next s) ∧
    (∀ t0, s.stream.mode = .imageStop 1 t0 → s.quiet = true → s.eng.freeze = 0 → s.capturing = false → j.state ≠ .swapping →
      s.othersReport j (fun r => r.ended || r.stopped) = true →
      ∃ w, exec .imageCapture s = .next w ∧ same w ∧ captured w 1 ∧ w.stream = s.stream ∧ w.pkg.jobs = stopped) ∧
    (s.canScan = true → j.state = .swapping ∨ (j.state = .running ∧ s.swapDue j = true) → ∃ w, exec .scanStop s = .next w ∧ same w ∧ captured w 2 ∧
      w.stream = { s.stream with mode := .scanStop }) ∧
    (∀ t0, j.state = .draining t0 → t0 + 350000 ≤ s.now → s.canScan = true → s.stream.mode = .running →
      ∃ w, exec .drainEscalation s = .next w ∧ same w ∧ captured w 2 ∧ w.stream = { s.stream with mode := .scanStop } ∧
        w.pkg.jobs = stopped) ∧
    (∀ i n, s.pkg.images = [i] → i.serial = n → i.complete = false → i.jobid = s.ctl.jobid →
      s.portsParked = true → s.stream.mode ≠ .fatal →
      let nat : State := { s with arg := .nat n }
      let x : Image := { i with complete := true, slot := s.pkg.imageSlot i.kind, ports := s.portRecords }
      let bs := s.pkg.sealImage x
      let written (w : State) : Prop := w.pkg.images = [{ x with bytes := bs }] ∧ w.regs = s.regs ∧ w.mem.loc = s.mem.loc ∧
        w.mem.dram = putBytes s.mem.dram (slotBase x.slot) bs
      (i.kind = 3 → ∃ w, exec .captureComplete nat = .next w ∧ w.stream.mode = .running ∧ written w) ∧
      (i.kind = 1 ∨ i.kind = 2 → s.othersReport j PeerReport.still = true → ∃ w, exec .captureComplete nat = .next w ∧
        w.stream = Stream.clear ∧ w.pkg.resident = none ∧ w.pkg.passDue = some s.now ∧ written w ∧
        w.eng = { Engines.clear with freeze := if s.stream.mode = .scanStop then 0 else s.eng.freeze } ∧
        (∀ d < 13, (w.port d).swapped = true ∧ (w.port d).rx = []) ∧
        ∃ y ∈ w.pkg.jobs, y.id = j.id ∧ y.state = .waiting ∧ y.image = some (i.kind, n) ∧ y.saved = some s.mem.wtab)) ∧
    (j.record.buddy ≠ 0 → j.state = .running → j.buddyAt + j.record.buddy * 1750000 ≤ s.now → j.peers = [] →
      ∃ w, exec .budtgtSet s = .next w ∧ same w ∧ w.ctl = { s.ctl with budtgt := s.ctl.bpcnt + 1 } ∧ w.stream = s.stream) ∧
    (let give : State := { s with ctl.budtgt := 0, pkg := s.pkg.setJob j.pointOver }
     (∀ t0, s.stream.mode = .running → s.ctl.budtgt ≠ 0 → s.capturing = false → j.peerStop = some t0 → t0 + 350000 ≤ s.now →
       exec .buddyPointAbandon s = .next give) ∧
     (∀ t0, s.stream.mode = .imageStop 3 t0 → s.capturing = false → t0 + 350000 ≤ s.now →
       s.othersReport j PeerReport.still = false →
       exec .buddyPointAbandon s = .next { give with stream.mode := .running }))

/-- R19, R33, R341, R346, R348, R351: a placed job resumes with the registers and tiles of its image at its sub-cube, its
window table checked and locked, but not in a freeze (R51; DESIGN CHOICE, log 7). R348, R352: when a dump is complete its
sealed bytes are in the tenant's dump area, and it alone of the dumps is marked so; that of a fatal trap, level 3, emits the
event, and after SDUMP, KIND 0x5, which waits until every port is parked, the ports resync and the die goes on. A frozen die
without an open dump is reset: its memory is clear, its ports are DOWN, its coordinate and its DRAM stay; a job without a
complete buddy point whose die has not returned after 4 s is closed; one with such a point that a blocking job bars waits
with its image (R309). R108, R109: a copy stalled in the image ends with "page unavailable" where its page was refused
meanwhile, is tried again where the page lets it move, and else stays stalled (DEDUCED, log 32). A window table that fails
its check leaves WTLOCK at 0, reports the entry, and closes the job. That DRAM outlives the reset, that the ports come up
DOWN, and the close after 4 s are the model's reading (DEDUCED, log 27); the dump cut to its area is its choice (DESIGN
CHOICE, log 23). -/
def Obligations.RecoveryEvents : Prop :=
  ∀ (s : State),
    (∀ (n : Nat) (d : Dump), (s.pkg.dumps.find? fun x => decide (x.serial = n) && !x.img.complete) = some d →
      let here : State := { s with arg := .nat n }
      let whole (ports : Vector Port 13) : Dump := { d with img := { d.img with complete := true, ports := ports } }
      let written (x : Dump) : State := { here with
        mem.host := putBytes s.mem.host d.addr ((s.pkg.sealDump x).take (s.pkg.tenant d.tenant).cfg.dumpa.size)
        pkg.dumps := s.pkg.dumps.map fun y => if y.serial = n then x else y }
      let settled : Prop := ∀ p < 13, (s.port p).state = .parked ∨ (s.port p).state = .up ∨ (s.port p).state = .stopped
      (d.img.kind ≠ 5 → s.stream.mode ≠ .sdump ∨ settled →
        exec .dumpComplete here = .next (if d.img.level = 3
          then (written (whole d.img.ports)).fatalEvent d.tenant d.img.cause (some n) else written (whole d.img.ports))) ∧
      (d.img.kind = 5 → s.stream.mode ≠ .sdump → exec .dumpComplete here = .next (written (whole s.portRecords))) ∧
      (d.img.kind = 5 → s.stream.mode = .sdump → (∀ p < 13, (s.port p).state = .parked) →
        ∃ w, exec .dumpComplete here = .next w ∧ w.mem.host = (written (whole s.portRecords)).mem.host ∧
          w.pkg.dumps = (written (whole s.portRecords)).pkg.dumps ∧ w.regs = s.regs ∧ w.mem.loc = s.mem.loc ∧
          (s.stream.stopDue = false → w.stream.mode = .running)) ∧
      (d.img.kind = 5 → s.stream.mode = .sdump → settled → (∃ p < 13, (s.port p).state ≠ .parked) →
        exec .dumpComplete here = .next here)) ∧
    (s.frozen = true → exec .resume s = .next s) ∧
    (∀ j i, s.pkg.jobs.find? (fun x => decide (x.id = j.id)) = some j → j.state = .placed → s.inCube j = true →
      s.returned = true → s.frozen = false → s.pkg.resident = none → s.foreign j = false → s.imageOf j = some i →
      s.imageOk j i = true →
      let checked (r : Option Nat) : Prop := ∀ t : State, t.mem.wtab = s.resumeTable j → t.ctl.diecoord = s.ctl.diecoord →
        t.ctl.scmask = i.ctl.scmask → t.ctl.lsdmask = i.ctl.lsdmask → t.ctl.scbase = j.scbase →
        (t.pkg.tenant t.pkg.residentTenant).cfg = (s.pkg.tenant j.tenant).cfg → t.tableFault = r
      (checked none →
        ∃ w, exec .resume { s with arg := .nat j.id } = .next w ∧ w.regs = i.regs ∧ w.tiles = i.tiles ∧ w.mem.loc = i.loc ∧
          w.pkg.resident = some j.id ∧ w.ctl.scbase = j.scbase ∧ w.ctl.wtlock = true ∧ w.mem.wtab = s.resumeTable j) ∧
      (∀ k, checked (some k) → s.pkg.jobs = [j] → j.chain = none →
        ∃ w, exec .resume { s with arg := .nat j.id } = .next w ∧ w.ctl = { s.ctl with wtlock := false } ∧
          w.mem.wtab = s.resumeTable j ∧ w.regs = s.regs ∧ w.stream = s.stream ∧ w.mem.loc = s.mem.loc ∧ w.pkg.jobs = [] ∧
          w.pkg.answers = BitVec.ofNat 64 k :: s.pkg.answers)) ∧
    (∀ (i : Nat) (c : CopyCmd) (refused : List Nat), i < 4 → s.copyQueue i = [c] → c.stalled = true → c.status = none →
      let st := wState (s.wentry c.stallAt)
      (s.resumeStalls refused).copyQueue i = [if c.stallAt ∈ refused then { c with status := some 0x11#8, stallCause := 0 }
        else if st = 0 ∨ (c.stallCause = 1 ∧ st ≠ 1) then { c with stalled := false } else c]) ∧
    (s.stream.mode = .fatal → (s.pkg.dumps.any fun d => !d.img.complete) = false →
      ∃ w, exec .dieReset s = .next w ∧ w.stream.mode = .idle ∧ w.mem.loc = [] ∧ w.mem.dram = s.mem.dram ∧
        w.mem.host = s.mem.host ∧ w.ctl.diecoord = s.ctl.diecoord ∧ w.ctl.trapvec = 0 ∧ w.regs = Regs.clear ∧
        ∀ p < 13, (w.port p).state = .down) ∧
    (∀ j t0, s.pkg.jobs.find? (fun x => decide (x.id = j.id)) = some j → j.state = .awaitDie t0 → t0 + 7000000000 ≤ s.now →
      s.isHere j = true → s.returned = false → s.buddyPoint j = none → j.chain = none →
      ∃ w, exec .dieReturnTimeout { s with arg := .nat j.id } = .next w ∧ w.regs = s.regs ∧ w.mem.loc = s.mem.loc ∧
        w.pkg.jobs = s.pkg.jobs.filter (fun x => decide (x.id ≠ j.id)) ∧ w.pkg.resident = none ∧ w.pkg.passDue = some s.now) ∧
    (∀ j t0, s.pkg.jobs.find? (fun x => decide (x.id = j.id)) = some j → j.state = .awaitDie t0 → t0 + 7000000000 ≤ s.now →
      s.isHere j = true → s.returned = false → (s.buddyPoint j).isSome = true → s.barred j = true →
      ∃ w, exec .dieReturnTimeout { s with arg := .nat j.id } = .next w ∧ w.regs = s.regs ∧ w.mem = s.mem ∧
        w.pkg.resident = none ∧ w.pkg.passDue = some s.now ∧
        ∃ y ∈ w.pkg.jobs, y.id = j.id ∧ y.state = .waiting ∧ y.passes = 0 ∧ y.peers = [] ∧ y.saved.isSome = true)

/-- R148, R343, R350, R356, R359, R366, R367: what management and the host do to the package: the configuration of a tenant
without jobs, ready bits, the image secret, a firmware image, a measurement, accesses through an HDM decoder to DRAM outside
the image area, and a package reset, after which everything but the coordinate, the stepping, DRAM, host memory and the
firmware is as after reset. Without verified firmware neither a configuration nor the secret is accepted. What a package
reset keeps is the model's reading (log 27), as are the form of a decoder (log 40) and an entry with no grant and no queue as
one that is not used (log 28); the epoch of a new entry is a free value (log 25). -/
def Obligations.ManagementEvents : Prop :=
  ∀ (s : State) (t : Nat) (c : TenantCfg) (n b : Nat) (bs : List Byte), t < 16 →
    let x := s.pkg.tenant t
    let same (w : State) : Prop := w.regs = s.regs ∧ w.mem = s.mem ∧ w.ctl = s.ctl ∧ w.stream = s.stream
    (s.pkg.verified = true → s.cfgOk t c = true → (s.pkg.jobs.any fun j => decide (j.tenant = t)) = false →
      ∃ w, exec .tenantConfigWrite { s with arg := .tcfg t c } = .next w ∧ same w ∧ (w.pkg.tenant t).cfg = c ∧
        ((w.pkg.tenant t).used = true ↔ c.grant ≠ 0 ∨ c.qmask ≠ 0) ∧
        (x.used = true → (w.pkg.tenant t).epoch = x.epoch) ∧
        (x.used = false → (w.pkg.tenant t).used = true → (w.pkg.tenant t).epoch = Config.dumpEpoch s.draws)) ∧
    (s.pkg.verified = false → exec .tenantConfigWrite { s with arg := .tcfg t c } = .next { s with arg := .tcfg t c } ∧
      exec .imageSecretInstall { s with arg := .bytes bs } = .next { s with arg := .bytes bs }) ∧
    (1 ≤ n → n ≤ 8 → b < 13 → n ≠ 1 + s.ctl.diecoord.toNat % 8 ∨ (s.port b).state = .up → ∃ w, exec .readyBitSet { s with arg := .two n b } = .next w ∧ same w ∧
      w.pkg.passDue = some s.now ∧ ∀ i < 9, ∀ k < 32, (vget w.pkg.status i 0).getLsbD k =
        ((vget s.pkg.status i 0).getLsbD k || (decide (i = n) && decide (k = b)))) ∧
    (s.pkg.verified = true → ∃ w, exec .imageSecretInstall { s with arg := .bytes bs } = .next w ∧ same w ∧ w.pkg.secret = some bs ∧
      (vget w.pkg.status 0 0).getLsbD 2 = true ∧ w.pkg.passDue = some s.now) ∧
    (∃ w, exec .firmwareImageWrite { s with arg := .bytes bs } = .next w ∧ same w ∧ w.pkg.newFirmware = some bs ∧
      w.pkg.firmware = s.pkg.firmware) ∧
    (1 ≤ n → n ≤ 3 → 
      let of : List TenantCfg := if n = 2 then s.pkg.tenants.toList.map (·.cfg) else if n = 3 then [x.cfg] else []
      ∃ w, exec .spdmMeasurement { s with arg := .two n t } = .next w ∧ same w ∧
        w.pkg.spdm = (n, t, Config.measurement n s.pkg.firmware of) :: s.pkg.spdm) ∧
    (∀ (r : HdmRange) (a : CxlAccess), r.die = s.ctl.diecoord.toNat % 8 →
      let here : State := { s with arg := .cxl a }
      let o := r.off + (a.addr - r.base)
      (a.data = some bs → s.pkg.decoder a.addr bs.length = some r → dramRangeOk o bs.length = true →
        exec .cxlMemAccess here = .next (here.storeDram o bs)) ∧
      (a.data = none → a.len = 8 → s.pkg.decoder a.addr 8 = some r → dramRangeOk o 8 = true →
        exec .cxlMemAccess here = .next (here.answerWord (BitVec.ofNat 64 (leNat (s.loadDram o 8)))))) ∧
    (∃ w, exec .packageReset s = .next w ∧ w.regs = State.reset.regs ∧ w.tiles = State.reset.tiles ∧
      w.stream = State.reset.stream ∧ w.ports = State.reset.ports ∧ w.eng = State.reset.eng ∧
      w.ctl = { State.reset.ctl with diecoord := s.ctl.diecoord, encrev := s.ctl.encrev } ∧ w.mem.loc = [] ∧ w.mem.dram = s.mem.dram ∧
      w.mem.host = s.mem.host ∧ w.pkg.jobs = [] ∧ w.pkg.secret = none ∧
      w.pkg.firmware = s.pkg.newFirmware.getD s.pkg.firmware)

/-! ## Number formats, encodings, reset, every step -/

/-- R65: an element of a q4 block with EXP 63 is NaN whatever its code and TYPE; the code 0x8 of types 1 to 3 is a zero; and
for these types the encoder gives no code 0x8, whatever value, exponent, mode and draw. -/
def Obligations.Q4ReservedCodes : Prop :=
  (∀ code scale : Nat, scale % 64 = 63 → decodeQ4 code scale = .nan) ∧
  (∀ code scale : Nat, code % 16 = 8 → scale % 64 ≠ 63 → scale / 64 % 4 ≠ 0 → ∃ neg, decodeQ4 code scale = .zero neg) ∧
  (∀ (v : FVal) (type e : Nat) (mode : Rnd) (u : Nat), 1 ≤ type → type ≤ 3 → (encodeQ4 v type e mode u).1 < 16 ∧
    (encodeQ4 v type e mode u).1 ≠ 8)

/-- R177, R180, R202 and the encoding tables: the words that the spec writes out for instructions of several classes, or
that follow from its fields; a word with a non-zero reserved bit (cause 0x9) is no instruction. -/
def Obligations.DecodeWords : Prop :=
  decodeTableWord 32 0x0204A638 = some (.add 2 5 6 7) ∧ decodeSlot (some 0x61) 0x100192A0 = .ok (.addi 0 3 4 100000#18) ∧
  decodeTableWord 32 0xF0000061 = some (.extHdr 0 0 0x61) ∧ decodeTableWord 32 0x4407FFFD = some (.brNt 4 0x7FFFD#19) ∧
  decodeTableWord 32 0xF10FF45C = some (.repeatPfx 0xFF#12 4 5 1 1) ∧
  decodeTableWord 32 0x50339C02 = some (.ldD 0 7 3 1 2) ∧ decodeTableWord 32 0x60108318 = some (.vaddI32 0 4 3 3 0) ∧
  decodeTableWord 32 0x803CA708 = some (.vred 0 5 7 0 1 0) ∧ decodeTableWord 32 0xA0780000 = some (.tzero 0 0) ∧
  decodeTableWord 32 0xB0288000 = some (.cfence 0 2) ∧ decodeTableWord 32 0xC000D100 = some (.xchg 0 3 4 1) ∧
  decodeTableWord 32 0xD0042000 = some (.chstep 0 8) ∧ decodeTableWord 32 0xE0103C00 = some (.lmark 0 1 28) ∧
  decodeTableWord 32 0x0204A639 = none ∧ decodeTableWord 32 0x40180000 = none

/-- R177 to R183, R202 and every encoding table: for every well-formed instruction with a word, the decoder reads exactly it
from its word and extension byte, and without the byte when that is zero; and every word that decodes gives a well-formed
instruction that encodes back to that word. -/
def Obligations.EncodeDecodeRoundTrip : Prop :=
  (∀ (i : Instr) (e w : Nat), i.wf = true → encode i = some (e, w) →
    e < 256 ∧ w < 2 ^ 32 ∧
    (if slotClass w = 15 then e = 0 ∧ decodeHeader w = .ok i else decodeSlot (some e) w = .ok i) ∧
    (e = 0 → decodeTableWord 32 w = some i)) ∧
  (∀ (i : Instr) (e w : Nat), e < 256 → w < 2 ^ 32 → decodeSlot (some e) w = .ok i → i.wf = true ∧ encode i = some (e, w)) ∧
  ∀ (i : Instr) (w : Nat), w < 2 ^ 32 → decodeTableWord 32 w = some i → i.wf = true ∧ ∃ e, encode i = some (e, w)

/-- R35, R36, R138, R140: every instruction and event has an effect in every state, and every step answers a next state:
nothing that a program or the outside does stops the machine with a fault or a refusal. That an event which is not enabled
answers too, and changes nothing, is the model's choice (DESIGN CHOICE, log 7). -/
def Obligations.EveryStepAnswers : Prop :=
  (∀ (i : Instr) (s : State), ∃ t, exec i s = .next t) ∧ ∀ s : State, ∃ t, step s = .next t

/-- R47, R314: every sparse memory and tile store keeps its canonical form (addresses rise, nothing listed twice and nothing
listed that reads as an unlisted address does), those of captured images too, and the power controller's clock stays within
its 1,024 cycles, in every step of the machine, whatever event it takes. -/
def Obligations.StepKeepsInvariant : Prop :=
  ∀ s t : State, s.Inv → step s = .next t → t.Inv

/-- R47: the invariant holds of the machine right after reset, whose memories list nothing. That a byte which nothing has
written reads zero is the model's choice (DESIGN CHOICE, log 4). -/
def Obligations.ResetInvariant : Prop :=
  State.reset.Inv ∧ ∀ a, cellGet State.reset.mem.loc a = 0 ∧ cellGet State.reset.mem.dram a = 0

/-- The reset values that the register tables of the spec give (R32, R55, R82, R90, R110, R133, R173, R187, R197, R207,
R214, R240, R256, R283, R301, R317, R355), as a move reads them from the register numbers of R207: every one is 0 but
SRSTATE, LWTHR, ENCREV and EXTO. CYCNT is 0, the event-ring registers of every tenant are 0 (R355), and every port is DOWN
(R125). DIECOORD, which the spec gives no reset value but the die's own coordinate, is left out. That the modelled die is a
B0, which ENCREV shows, is the model's choice (DESIGN CHOICE, log 3). -/
def Obligations.ResetValues : Prop :=
  let r := State.reset.ctlRead
  r 0x002 = 0x9E3779B97F4A7C15#64 ∧ r 0x004 = 0x00055730#64 ∧ r 0x015 = 0x0022#64 ∧ r 0x01D = 0x001AB3F0#64 ∧
  (∀ n ∈ [0x000, 0x001, 0x003, 0x005, 0x006, 0x007, 0x009, 0x00A, 0x00B, 0x00C, 0x00D, 0x00E, 0x00F, 0x010, 0x011, 0x012,
      0x013, 0x014, 0x016, 0x017, 0x018, 0x019, 0x01C, 0x01E, 0x020, 0x021, 0x022, 0x023, 0x06C, 0x080, 0x081, 0x100, 0x101,
      0x102, 0x120, 0x121, 0x122, 0x123, 0x130, 0x131, 0x132, 0x133, 0x150, 0x151, 0x152, 0x153, 0x154, 0x160, 0x161, 0x162,
      0x163, 0x164, 0x165, 0x166, 0x167, 0x168], r n = 0) ∧
  (∀ i < 4, r (0x024 + i) = 0 ∧ r (0x028 + i) = 0 ∧ r (0x060 + i) = 0 ∧ r (0x064 + i) = 0 ∧ r (0x068 + i) = 0 ∧
    r (0x084 + i) = 0 ∧ r (0x158 + i) = 0 ∧ r (0x15C + i) = 0) ∧
  (∀ c < 11, r (0x030 + c) = 0 ∧ r (0x040 + c) = 0 ∧ r (0x050 + c) = 0) ∧
  (∀ t < 16, r (0x070 + t) = 0 ∧ r (0x110 + t) = 0) ∧ (∀ d < 13, r (0x0A0 + d) = 0 ∧ r (0x0B0 + d) = 0 ∧ r (0x0C0 + d) = 0) ∧
  (∀ q < 256, r (0x200 + q) = 0) ∧ State.reset.ctl.cyccnt = 0 ∧
  (∀ t < 16, let x := State.reset.pkg.tenant t
    x.evbase = 0 ∧ x.evlog = 0 ∧ x.evwr = 0 ∧ x.evrd = 0 ∧ x.evovf = false) ∧
  ∀ d < 13, (State.reset.port d).state = .down
end

