-- ==== Sys2Proof/Laws/Memory.lean ====
section
/-! SUPPORT. Sparse stores: the canonical form is kept by every operation that writes one, and what a read gives after a
write. -/

namespace Sys2Proof.Machine

/-! ## The canonical form -/

theorem cellsFrom_mono {w : Nat} : ∀ {l : List (Nat × BitVec w)} {lo hi : Nat}, lo ≤ hi → cellsFrom hi l = true →
    cellsFrom lo l = true
  | [], _, _, _, _ => rfl
  | (b, x) :: r, lo, hi, h, hl => by
    simp only [cellsFrom, Bool.and_eq_true, decide_eq_true_eq] at hl ⊢
    exact ⟨⟨by omega, hl.1.2⟩, hl.2⟩

/-- Writing a key at or above the bound keeps the canonical form above it. -/
theorem cellsFrom_put {w : Nat} : ∀ {l : List (Nat × BitVec w)} {lo a : Nat} {x : BitVec w}, lo ≤ a →
    cellsFrom lo l = true → cellsFrom lo (cellPut l a x) = true
  | [], lo, a, x, h, _ => by
    simp only [cellPut]
    split
    · rfl
    · simp_all [cellsFrom]
  | (b, y) :: r, lo, a, x, h, hl => by
    simp only [cellsFrom, Bool.and_eq_true, decide_eq_true_eq] at hl
    simp only [cellPut]
    split
    · subst a
      split
      · exact cellsFrom_mono (by omega) hl.2
      · simp_all [cellsFrom]
    · split
      · split
        · simp_all [cellsFrom]
        · simp only [cellsFrom, Bool.and_eq_true, decide_eq_true_eq]
          exact ⟨⟨h, by assumption⟩, ⟨by omega, hl.1.2⟩, hl.2⟩
      · simp only [cellsFrom, Bool.and_eq_true, decide_eq_true_eq]
        exact ⟨hl.1, cellsFrom_put (by omega) hl.2⟩

/-- One write keeps the canonical form. -/
theorem cellsWf_put {w : Nat} {l : List (Nat × BitVec w)} {a : Nat} {x : BitVec w} (h : cellsWf l = true) :
    cellsWf (cellPut l a x) = true := cellsFrom_put (Nat.zero_le a) h

/-- A write of bytes keeps the canonical form. -/
theorem cellsWf_putBytes : ∀ {bs : List Byte} {l : List Host.Cell} {a : Nat}, cellsWf l = true →
    cellsWf (putBytes l a bs) = true
  | [], _, _, h => h
  | b :: r, l, a, h => by rw [putBytes]; exact cellsWf_putBytes (cellsWf_put h)

/-- A part of a canonical store is canonical. -/
theorem cellsFrom_filter {w : Nat} {p : Nat × BitVec w → Bool} : ∀ {l : List (Nat × BitVec w)} {lo : Nat},
    cellsFrom lo l = true → cellsFrom lo (l.filter p) = true
  | [], _, _ => rfl
  | (b, x) :: r, lo, hl => by
    simp only [cellsFrom, Bool.and_eq_true, decide_eq_true_eq] at hl
    simp only [List.filter_cons]
    split
    · simp only [cellsFrom, Bool.and_eq_true, decide_eq_true_eq]
      exact ⟨hl.1, cellsFrom_filter hl.2⟩
    · exact cellsFrom_mono (by omega) (cellsFrom_filter hl.2)

theorem cellsWf_filter {w : Nat} {p : Nat × BitVec w → Bool} {l : List (Nat × BitVec w)} (h : cellsWf l = true) :
    cellsWf (l.filter p) = true := cellsFrom_filter h

/-- Clearing a range keeps the canonical form. -/
theorem cellsWf_clear {w : Nat} {l : List (Nat × BitVec w)} {lo n : Nat} (h : cellsWf l = true) :
    cellsWf (clearCells l lo n) = true := cellsWf_filter h

/-- A canonical store below a bound, followed by one from the bound upward, is canonical. -/
theorem cellsFrom_append {w : Nat} : ∀ {l m : List (Nat × BitVec w)} {lo mid : Nat}, lo ≤ mid → cellsFrom lo l = true →
    (∀ c ∈ l, c.1 < mid) → cellsFrom mid m = true → cellsFrom lo (l ++ m) = true
  | [], _, _, _, h, _, _, hm => cellsFrom_mono h hm
  | (b, x) :: r, m, lo, mid, h, hl, hb, hm => by
    simp only [cellsFrom, Bool.and_eq_true, decide_eq_true_eq] at hl
    simp only [List.cons_append, cellsFrom, Bool.and_eq_true, decide_eq_true_eq]
    have h1 : b < mid := hb (b, x) (by simp)
    exact ⟨hl.1, cellsFrom_append (by omega) hl.2 (fun c hc => hb c (by simp [hc])) hm⟩

/-- A canonical store whose keys are all at or above a bound is canonical above it. -/
theorem cellsFrom_of_ge {w : Nat} : ∀ {l : List (Nat × BitVec w)} {lo mid : Nat}, cellsFrom lo l = true →
    (∀ c ∈ l, mid ≤ c.1) → cellsFrom mid l = true
  | [], _, _, _, _ => rfl
  | (b, x) :: r, lo, mid, hl, hb => by
    simp only [cellsFrom, Bool.and_eq_true, decide_eq_true_eq] at hl ⊢
    exact ⟨⟨hb (b, x) (by simp), hl.1.2⟩, hl.2⟩

/-- The part of one canonical store below a key, and the part of another from that key upward, together. -/
theorem cellsWf_splice {w : Nat} {l m : List (Nat × BitVec w)} {k : Nat} (hl : cellsWf l = true) (hm : cellsWf m = true) :
    cellsWf (l.filter (fun c => decide (c.1 < k)) ++ m.filter (fun c => decide (k ≤ c.1))) = true :=
  cellsFrom_append (Nat.zero_le k) (cellsFrom_filter hl)
    (fun c hc => by simpa using (List.mem_filter.mp hc).2)
    (cellsFrom_of_ge (cellsFrom_filter hm) fun c hc => by simpa using (List.mem_filter.mp hc).2)

/-! ## What a read gives -/

/-- Every key of a canonical store is at least its bound. -/
theorem cellGet_below {w : Nat} : ∀ {l : List (Nat × BitVec w)} {lo a : Nat}, cellsFrom lo l = true → a < lo →
    cellGet l a = 0
  | [], _, _, _, _ => rfl
  | (b, x) :: r, lo, a, hl, h => by
    simp only [cellsFrom, Bool.and_eq_true, decide_eq_true_eq] at hl
    simp only [cellGet]
    rw [if_neg (by omega), if_pos (by omega)]

/-- A read after a write, in a canonical store: the value written at its key, and what stood there elsewhere. -/
theorem cellGet_put_from {w : Nat} : ∀ {l : List (Nat × BitVec w)} {lo a b : Nat} {x : BitVec w}, cellsFrom lo l = true →
    cellGet (cellPut l a x) b = if b = a then x else cellGet l b
  | [], lo, a, b, x, _ => by
    simp only [cellPut]
    split
    · subst x; simp [cellGet]
    · simp only [cellGet]; split <;> simp_all
  | (c, y) :: r, lo, a, b, x, hl => by
    simp only [cellsFrom, Bool.and_eq_true, decide_eq_true_eq] at hl
    simp only [cellPut]
    split
    · subst a
      split
      · subst x
        by_cases hb : b = c
        · subst b; rw [if_pos rfl]; exact cellGet_below hl.2 (by omega)
        · rw [if_neg hb]; simp only [cellGet, if_neg hb]
          split
          · exact cellGet_below hl.2 (by omega)
          · rfl
      · simp only [cellGet]; split <;> rfl
    · split
      · split
        · subst x
          by_cases hb : b = a
          · subst b; simp only [cellGet]; rw [if_neg (by omega), if_pos (by omega)]; simp
          · rw [if_neg hb]
        · rw [cellGet]
          by_cases hb : b = a
          · simp [hb]
          · simp only [if_neg hb, cellGet]
            split
            · rw [if_neg (by omega), if_pos (by omega)]
            · rfl
      · simp only [cellGet]
        by_cases h1 : b = c
        · subst b; rw [if_pos rfl, if_neg (by omega), if_pos rfl]
        · rw [if_neg h1, if_neg h1]
          by_cases h2 : b < c
          · rw [if_pos h2, if_pos h2, if_neg (by omega)]
          · rw [if_neg h2, if_neg h2, cellGet_put_from hl.2]

theorem cellGet_put {w : Nat} {l : List (Nat × BitVec w)} {a b : Nat} {x : BitVec w} (h : cellsWf l = true) :
    cellGet (cellPut l a x) b = if b = a then x else cellGet l b := cellGet_put_from h

/-- A byte outside the range written reads as before. -/
theorem cellGet_putBytes_outside : ∀ {bs : List Byte} {l : List Host.Cell} {a b : Nat}, cellsWf l = true →
    (b < a ∨ a + bs.length ≤ b) → cellGet (putBytes l a bs) b = cellGet l b
  | [], _, _, _, _, _ => rfl
  | x :: r, l, a, b, h, hb => by
    simp only [List.length_cons] at hb
    rw [putBytes, cellGet_putBytes_outside (cellsWf_put h) (by omega), cellGet_put h, if_neg (by omega)]

/-- A cleared key reads zero, and another as before. -/
theorem cellGet_clear_from {w : Nat} {lo n : Nat} : ∀ {l : List (Nat × BitVec w)} {m a : Nat}, cellsFrom m l = true →
    cellGet (clearCells l lo n) a = if lo ≤ a ∧ a < lo + n then 0 else cellGet l a
  | [], _, _, _ => by simp [clearCells, cellGet]
  | (b, x) :: r, m, a, hl => by
    simp only [cellsFrom, Bool.and_eq_true, decide_eq_true_eq] at hl
    have ih := cellGet_clear_from (lo := lo) (n := n) (a := a) hl.2
    simp only [clearCells] at ih ⊢
    simp only [List.filter_cons]
    by_cases hk : lo ≤ b ∧ b < lo + n
    · rw [if_neg (by simp; omega), ih]
      split
      · rfl
      · simp only [cellGet]
        rw [if_neg (by omega)]
        split
        · exact cellGet_below hl.2 (by omega)
        · rfl
    · rw [if_pos (by simp; omega)]
      simp only [cellGet]
      by_cases h1 : a = b
      · subst a; simp [hk]
      · simp only [if_neg h1]
        by_cases h2 : a < b
        · simp [h2]
        · simp only [if_neg h2, ih]

theorem cellGet_clear {w : Nat} {l : List (Nat × BitVec w)} {lo n a : Nat} (h : cellsWf l = true) :
    cellGet (clearCells l lo n) a = if lo ≤ a ∧ a < lo + n then 0 else cellGet l a := cellGet_clear_from h

/-! ## Reset -/

/-- The memories after reset are canonical, and every byte reads zero. -/
theorem reset_memory_wf : Memory.wf State.reset.mem := by decide

theorem reset_tiles_wf : Tiles.wf State.reset.tiles := by decide

end Sys2Proof.Machine
end

