-- ==== Sys2Proof/Laws/Keeps.lean ====
section
/-! SUPPORT. How the invariant is kept: what a state update must show, by the parts that it changes. -/

namespace Sys2Proof.Machine

/-- An update of parts that the invariant does not name keeps it. -/
theorem Inv.frame {t : State} {regs ctl stream lines eng undo undoD wtab lc lm lnow ports late arrived begun inputs arg now draws}
    {p1 p2 p3 p4 p5 p6 p7 p8 p9
    p10 p11 p12 p13 p14 p15 p16 p17 p18 p19 p20 p21 p22 p23 p24 p25 p26 p27} (h : t.Inv) :
    State.Inv ⟨regs, t.tiles, ctl, stream, lines, eng,
      ⟨t.mem.loc, t.mem.dram, t.mem.host, undo, undoD, wtab, lc, lm, lnow⟩, ports,
      ⟨p1, p2, p3, p4, p5, p6, p7, p8, p9, p10, p11, p12, p13, p14, p15, p16, t.pkg.images, p17, p18, p19, p20, p21, p22,
       p23, p24, p25,
        p26, p27⟩,
      late, arrived, begun, inputs, arg, now, t.refillClk, draws⟩ := h

/-- The same, with new die-local bytes. -/
theorem Inv.local {t : State} {regs ctl stream lines eng loc undo undoD wtab lc lm lnow ports late arrived begun inputs arg now
    draws} {p1 p2 p3 p4 p5 p6 p7
    p8 p9 p10 p11 p12 p13 p14 p15 p16 p17 p18 p19 p20 p21 p22 p23 p24 p25 p26 p27} (h : t.Inv) (hl : cellsWf loc = true) :
    State.Inv ⟨regs, t.tiles, ctl, stream, lines, eng,
      ⟨loc, t.mem.dram, t.mem.host, undo, undoD, wtab, lc, lm, lnow⟩, ports,
      ⟨p1, p2, p3, p4, p5, p6, p7, p8, p9, p10, p11, p12, p13, p14, p15, p16, t.pkg.images, p17, p18, p19, p20, p21, p22,
       p23, p24, p25,
        p26, p27⟩,
      late, arrived, begun, inputs, arg, now, t.refillClk, draws⟩ := ⟨⟨hl, h.1.2⟩, h.2⟩

/-- The same, with new DRAM. -/
theorem Inv.dram {t : State} {regs ctl stream lines eng dram undo undoD wtab lc lm lnow ports late arrived begun inputs arg now
    draws} {p1 p2 p3 p4 p5 p6 p7
    p8 p9 p10 p11 p12 p13 p14 p15 p16 p17 p18 p19 p20 p21 p22 p23 p24 p25 p26 p27} (h : t.Inv) (hl : cellsWf dram = true) :
    State.Inv ⟨regs, t.tiles, ctl, stream, lines, eng,
      ⟨t.mem.loc, dram, t.mem.host, undo, undoD, wtab, lc, lm, lnow⟩, ports,
      ⟨p1, p2, p3, p4, p5, p6, p7, p8, p9, p10, p11, p12, p13, p14, p15, p16, t.pkg.images, p17, p18, p19, p20, p21, p22,
       p23, p24, p25,
        p26, p27⟩,
      late, arrived, begun, inputs, arg, now, t.refillClk, draws⟩ := ⟨⟨h.1.1, hl, h.1.2.2⟩, h.2⟩

/-- The same, with new host memory. -/
theorem Inv.host {t : State} {regs ctl stream lines eng host undo undoD wtab lc lm lnow ports late arrived begun inputs arg now
    draws} {p1 p2 p3 p4 p5 p6 p7
    p8 p9 p10 p11 p12 p13 p14 p15 p16 p17 p18 p19 p20 p21 p22 p23 p24 p25 p26 p27} (h : t.Inv) (hl : cellsWf host = true) :
    State.Inv ⟨regs, t.tiles, ctl, stream, lines, eng,
      ⟨t.mem.loc, t.mem.dram, host, undo, undoD, wtab, lc, lm, lnow⟩, ports,
      ⟨p1, p2, p3, p4, p5, p6, p7, p8, p9, p10, p11, p12, p13, p14, p15, p16, t.pkg.images, p17, p18, p19, p20, p21, p22,
       p23, p24, p25,
        p26, p27⟩,
      late, arrived, begun, inputs, arg, now, t.refillClk, draws⟩ := ⟨⟨h.1.1, h.1.2.1, hl⟩, h.2⟩

/-- The same, with new tiles. -/
theorem Inv.tiles {t : State} {regs tiles ctl stream lines eng undo undoD wtab lc lm lnow ports late arrived begun inputs arg now
    draws} {p1 p2 p3 p4 p5 p6 p7
    p8 p9 p10 p11 p12 p13 p14 p15 p16 p17 p18 p19 p20 p21 p22 p23 p24 p25 p26 p27} (h : t.Inv) (hl : Tiles.wf tiles) :
    State.Inv ⟨regs, tiles, ctl, stream, lines, eng,
      ⟨t.mem.loc, t.mem.dram, t.mem.host, undo, undoD, wtab, lc, lm, lnow⟩, ports,
      ⟨p1, p2, p3, p4, p5, p6, p7, p8, p9, p10, p11, p12, p13, p14, p15, p16, t.pkg.images, p17, p18, p19, p20, p21, p22,
       p23, p24, p25,
        p26, p27⟩,
      late, arrived, begun, inputs, arg, now, t.refillClk, draws⟩ := ⟨h.1, hl, h.2.2⟩

/-- The same, store by store. -/
theorem Inv.cells {t : State} {regs bytes active shadow acc mode act sha ctl stream lines eng undo undoD wtab lc lm lnow
    ports late arrived begun inputs arg
    now draws} {p1 p2 p3 p4 p5 p6 p7 p8 p9 p10 p11 p12 p13 p14 p15 p16 p17 p18 p19 p20 p21 p22 p23 p24 p25 p26 p27} (h : t.Inv)
    (hb : cellsWf bytes = true) (ha : cellsWf active = true) (hw : cellsWf shadow = true) (hc : cellsWf acc = true) :
    State.Inv ⟨regs, ⟨bytes, active, shadow, acc, mode, act, sha⟩, ctl, stream, lines, eng,
      ⟨t.mem.loc, t.mem.dram, t.mem.host, undo, undoD, wtab, lc, lm, lnow⟩, ports,
      ⟨p1, p2, p3, p4, p5, p6, p7, p8, p9, p10, p11, p12, p13, p14, p15, p16, t.pkg.images, p17, p18, p19, p20, p21, p22,
       p23, p24, p25,
        p26, p27⟩,
      late, arrived, begun, inputs, arg, now, t.refillClk, draws⟩ := Inv.tiles h ⟨hb, ha, hw, hc⟩

/-- Writing a list of keys keeps the canonical form. -/
theorem cellsWf_putCells {w : Nat} : ∀ {cs : List (Nat × BitVec w)} {l : List (Nat × BitVec w)}, cellsWf l = true →
    cellsWf (putCells l cs) = true
  | [], _, h => h
  | c :: r, l, h => by
    rw [putCells, List.foldl_cons]
    exact cellsWf_putCells (cs := r) (cellsWf_put h)

/-- A key that no cell names reads as before. -/
theorem cellGet_putCells_other {w : Nat} {b : Nat} : ∀ {cs : List (Nat × BitVec w)} {l : List (Nat × BitVec w)},
    cellsWf l = true → (∀ c ∈ cs, c.1 ≠ b) → cellGet (putCells l cs) b = cellGet l b
  | [], _, _, _ => rfl
  | c :: r, l, h, hb => by
    have hr : cellGet (putCells (cellPut l c.1 c.2) r) b = cellGet (cellPut l c.1 c.2) b :=
      cellGet_putCells_other (cellsWf_put h) fun x hx => hb x (List.mem_cons_of_mem _ hx)
    exact hr.trans ((cellGet_put h).trans (if_neg fun e => hb c List.mem_cons_self e.symm))

/-- Of cells with different keys each is what its key reads. -/
theorem cellGet_putCells {w : Nat} {x : Nat × BitVec w} : ∀ {cs : List (Nat × BitVec w)} {l : List (Nat × BitVec w)},
    cellsWf l = true → (cs.map (·.1)).Nodup → x ∈ cs → cellGet (putCells l cs) x.1 = x.2
  | [], _, _, _, hx => by cases hx
  | c :: r, l, h, hn, hx => by
    rw [List.map_cons, List.nodup_cons] at hn
    rcases List.mem_cons.mp hx with rfl | hr
    · exact (cellGet_putCells_other (cs := r) (cellsWf_put h) fun y hy e =>
        hn.1 (List.mem_map.mpr ⟨y, hy, e⟩)).trans ((cellGet_put h).trans (if_pos rfl))
    · exact cellGet_putCells (l := cellPut l c.1 c.2) (cellsWf_put h) hn.2 hr

/-- The same, with new images. -/
theorem Inv.images {t : State} {regs ctl stream lines eng undo undoD wtab lc lm lnow ports late arrived begun inputs arg now draws
    images} {p1 p2 p3 p4 p5 p6
    p7 p8 p9 p10 p11 p12 p13 p14 p15 p16 p17 p18 p19 p20 p21 p22 p23 p24 p25 p26 p27} (h : t.Inv) (hl : ∀ i ∈ images, Image.wf
    i) :
    State.Inv ⟨regs, t.tiles, ctl, stream, lines, eng,
      ⟨t.mem.loc, t.mem.dram, t.mem.host, undo, undoD, wtab, lc, lm, lnow⟩, ports,
      ⟨p1, p2, p3, p4, p5, p6, p7, p8, p9, p10, p11, p12, p13, p14, p15, p16, images, p17, p18, p19, p20, p21, p22, p23,
       p24, p25,
        p26, p27⟩,
      late, arrived, begun, inputs, arg, now, t.refillClk, draws⟩ := ⟨h.1, h.2.1, hl, h.2.2.2⟩

/-- The same, with fewer images. -/
theorem Inv.dropImages {t : State} {regs ctl stream lines eng undo undoD wtab lc lm lnow ports late arrived begun inputs arg now
    draws} {f : Image → Bool}
    {p1 p2 p3 p4 p5 p6 p7 p8 p9 p10 p11 p12 p13 p14 p15 p16 p17 p18 p19 p20 p21 p22 p23 p24 p25 p26 p27} (h : t.Inv) :
    State.Inv ⟨regs, t.tiles, ctl, stream, lines, eng,
      ⟨t.mem.loc, t.mem.dram, t.mem.host, undo, undoD, wtab, lc, lm, lnow⟩, ports,
      ⟨p1, p2, p3, p4, p5, p6, p7, p8, p9, p10, p11, p12, p13, p14, p15, p16, t.pkg.images.filter f, p17, p18, p19,
        p20, p21, p22, p23, p24, p25, p26, p27⟩,
      late, arrived, begun, inputs, arg, now, t.refillClk, draws⟩ := Inv.images h fun i hi => h.2.2.1 i (List.mem_of_mem_filter hi)

/-- A new package with the same images. -/
theorem Inv.pkg {t : State} {regs ctl stream lines eng undo undoD wtab lc lm lnow ports late arrived begun inputs arg now draws} {p :
    Pkg} (h : t.Inv)
    (hp : p.images = t.pkg.images) :
    State.Inv ⟨regs, t.tiles, ctl, stream, lines, eng, ⟨t.mem.loc, t.mem.dram, t.mem.host, undo, undoD, wtab, lc, lm,
    lnow⟩, ports, p,
      late, arrived, begun, inputs, arg, now, t.refillClk, draws⟩ := ⟨h.1, h.2.1, by dsimp only; rw [hp]; exact h.2.2.1, h.2.2.2⟩

theorem Inv.ite {c : Prop} [Decidable c] {a b : State} (ha : a.Inv) (hb : b.Inv) : (if c then a else b).Inv := by
  split <;> assumption

/-- The state of a pair that a match has taken apart. -/
theorem Inv.fst {β : Type} {p : State × β} {s : State} {b : β} (e : p = (s, b)) (h : p.1.Inv) : s.Inv := by
  rw [e] at h; exact h

theorem Safe.next {t : State} (h : t.Inv) : Safe (.next t) := h

theorem Safe.of_next {r : Out} {t : State} (h : Safe r) (e : r = .next t) : t.Inv := by
  subst e; exact h

theorem Safe.of_fault {r : Out} {f : Fault} (h : Safe r) (e : r = .fault f) : False := by
  subst e; exact h

theorem Safe.of_refused {r : Out} {f : Refusal} (h : Safe r) (e : r = .refused f) : False := by
  subst e; exact h

theorem Safe.ite {c : Prop} [Decidable c] {a b : Out} (ha : Safe a) (hb : Safe b) : Safe (if c then a else b) := by
  split <;> assumption

theorem foldl_inv {α : Type} {f : State → α → State} (hf : ∀ s x, s.Inv → (f s x).Inv) :
    ∀ {l : List α} {s : State}, s.Inv → (l.foldl f s).Inv
  | [], _, h => h
  | x :: l, s, h => by rw [List.foldl_cons]; exact foldl_inv hf (hf s x h)

theorem foldl_fst {α β : Type} {f : State × β → α → State × β} (hf : ∀ a x, a.1.Inv → (f a x).1.Inv) :
    ∀ {l : List α} {a : State × β}, a.1.Inv → (l.foldl f a).1.Inv
  | [], _, h => h
  | x :: l, a, h => by rw [List.foldl_cons]; exact foldl_fst hf (hf a x h)

theorem Inv.localWf {s : State} (h : s.Inv) : cellsWf s.mem.loc = true := h.1.1
theorem Inv.dramWf {s : State} (h : s.Inv) : cellsWf s.mem.dram = true := h.1.2.1
theorem Inv.hostWf {s : State} (h : s.Inv) : cellsWf s.mem.host = true := h.1.2.2
theorem Inv.tilesWf {s : State} (h : s.Inv) : Tiles.wf s.tiles := h.2.1
theorem Inv.bytesWf {s : State} (h : s.Inv) : cellsWf s.tiles.bytes = true := h.2.1.1
theorem Inv.activeWf {s : State} (h : s.Inv) : cellsWf s.tiles.active = true := h.2.1.2.1
theorem Inv.shadowWf {s : State} (h : s.Inv) : cellsWf s.tiles.shadow = true := h.2.1.2.2.1
theorem Inv.accWf {s : State} (h : s.Inv) : cellsWf s.tiles.acc = true := h.2.1.2.2.2
theorem Inv.imagesWf {s : State} (h : s.Inv) : ∀ i ∈ s.pkg.images, Image.wf i := h.2.2.1

end Sys2Proof.Machine
end

