-- ==== Sys2Proof/Laws/KeepsOps.lean ====
section
/-! SUPPORT. The shared operations keep the invariant. -/

namespace Sys2Proof.Machine

set_option linter.all false

theorem State.store_inv {s : State} {a : Nat} {bs : List Byte} (hs : s.Inv) : (s.store a bs).Inv :=
  Inv.local hs (cellsWf_putBytes (Inv.localWf hs))

theorem State.storeEng_inv {s : State} {a : Nat} {bs : List Byte} (hs : s.Inv) : (s.storeEng a bs).Inv :=
  Inv.local hs (cellsWf_putBytes (Inv.localWf hs))

theorem State.storeDram_inv {s : State} {o : Nat} {bs : List Byte} (hs : s.Inv) : (s.storeDram o bs).Inv :=
  Inv.dram hs (cellsWf_putBytes (Inv.dramWf hs))

theorem State.lanternC_inv {s : State} {kind info : Nat} {w1 : W64} (hs : s.Inv) : (State.lanternC s kind info w1).Inv := by
  unfold State.lanternC
  repeat' first
    | with_reducible exact hs | with_reducible assumption | with_reducible apply Inv.ite | (intro _)
    | fail_if_no_progress (with_reducible apply Inv.frame) | split

theorem State.lanternM_inv {s : State} {kind info : Nat} {w1 : W64} (hs : s.Inv) : (State.lanternM s kind info w1).Inv := by
  unfold State.lanternM
  repeat' first
    | with_reducible exact hs | with_reducible assumption | with_reducible apply Inv.ite | (intro _)
    | fail_if_no_progress (with_reducible apply Inv.frame) | split

theorem State.push_inv {s : State} {rem : Nat} {land : Landing} {flags : BitVec 6} {sat : W16} (hs : s.Inv) : (State.push s
    rem land flags sat).Inv := by
  unfold State.push
  repeat' first
    | with_reducible exact hs | with_reducible assumption | with_reducible apply Inv.ite | (intro _)
    | fail_if_no_progress (with_reducible apply Inv.frame) | split

theorem State.put_inv {s : State} {rem : Nat} {land : Landing} (hs : s.Inv) : (State.put s rem land).Inv := by
  unfold State.put
  repeat' first
    | with_reducible exact hs | with_reducible assumption | with_reducible apply State.push_inv
    | with_reducible apply Inv.ite | (intro _) | fail_if_no_progress (with_reducible apply Inv.frame) | split

theorem State.orFlags_inv {s : State} {flags : BitVec 6} {sat : W16} (hs : s.Inv) : (State.orFlags s flags sat).Inv := by
  unfold State.orFlags
  repeat' first
    | with_reducible exact hs | with_reducible assumption | with_reducible apply Inv.ite | (intro _)
    | fail_if_no_progress (with_reducible apply Inv.frame) | split

theorem State.orLate_inv {s : State} {flags : BitVec 6} {sat : W16} (hs : s.Inv) : (State.orLate s flags sat).Inv := by
  unfold State.orLate
  repeat' first
    | with_reducible exact hs | with_reducible assumption | with_reducible refine Inv.fst (by assumption) ?_
    | with_reducible apply Inv.ite | (intro _) | fail_if_no_progress (with_reducible apply Inv.frame) | split | (dsimp only)
    | fail_if_no_progress (refine Inv.pkg ?_ (by rfl))

theorem State.addOverflow_inv {s : State} {i n : Nat} (hs : s.Inv) : (State.addOverflow s i n).Inv := by
  unfold State.addOverflow
  repeat' first
    | with_reducible exact hs | with_reducible assumption | with_reducible refine Inv.fst (by assumption) ?_
    | with_reducible apply Inv.ite | (intro _) | fail_if_no_progress (with_reducible apply Inv.frame) | split | (dsimp only)
    | fail_if_no_progress (refine Inv.pkg ?_ (by rfl))

theorem State.addLate_inv {s : State} (hs : s.Inv) : (State.addLate s).Inv := by
  unfold State.addLate
  repeat' first
    | with_reducible exact hs | with_reducible assumption | with_reducible refine Inv.fst (by assumption) ?_
    | with_reducible apply Inv.ite | (intro _) | fail_if_no_progress (with_reducible apply Inv.frame) | split | (dsimp only)
    | fail_if_no_progress (refine Inv.pkg ?_ (by rfl))

theorem State.setTenant_inv {s : State} {t : Nat} {x : Tenant} (hs : s.Inv) : (State.setTenant s t x).Inv := by
  unfold State.setTenant
  repeat' first
    | with_reducible exact hs | with_reducible assumption | with_reducible apply Inv.ite | (intro _)
    | fail_if_no_progress (with_reducible apply Inv.frame) | split

theorem State.writeEvent_inv {s : State} {t : Nat} {e : Event} (hs : s.Inv) : (s.writeEvent t e).Inv := by
  unfold State.writeEvent
  dsimp only
  refine Inv.host hs ?_
  split
  · exact cellsWf_putBytes (cellsWf_putBytes (Inv.hostWf hs))
  · exact cellsWf_putBytes (Inv.hostWf hs)

theorem State.emit_inv {s : State} {t : Nat} {e : Event} (hs : s.Inv) : (State.emit s t e).Inv := by
  unfold State.emit
  repeat' first
    | with_reducible exact hs | with_reducible assumption | with_reducible refine Inv.fst (by assumption) ?_
    | with_reducible apply State.setTenant_inv | with_reducible apply State.writeEvent_inv | with_reducible apply Inv.ite
    | (intro _) | fail_if_no_progress (with_reducible apply Inv.frame) | split | (dsimp only)
    | fail_if_no_progress (refine Inv.pkg ?_ (by rfl))

theorem State.dump_inv {s : State} {kind : Nat} {cause : Byte} {level : Nat} (hs : s.Inv) : (State.dump s kind cause
    level).Inv := by
  unfold State.dump
  repeat' first
    | with_reducible exact hs | with_reducible assumption | with_reducible apply Inv.ite | (intro _)
    | fail_if_no_progress (with_reducible apply Inv.frame) | split

theorem State.recapture_inv {s : State} (hs : s.Inv) : s.recapture.Inv := Inv.frame hs

theorem State.stopsHere_inv {s : State} (hs : s.Inv) : s.stopsHere.Inv := by
  unfold State.stopsHere
  split
  · exact State.recapture_inv (Inv.frame hs)
  · exact State.recapture_inv (Inv.frame hs)
  · exact hs

theorem State.deliver_inv {s : State} {cause : Byte} {info addr tpc : W64} {cycles : Nat} (hs : s.Inv) : (State.deliver s
    cause info addr tpc cycles).Inv := by
  unfold State.deliver
  repeat' first
    | with_reducible exact hs | with_reducible assumption | with_reducible apply State.lanternC_inv
    | with_reducible apply Inv.ite | (intro _) | fail_if_no_progress (with_reducible apply Inv.frame) | split

theorem State.endProgram_inv {s : State} {byEnd : Bool} (hs : s.Inv) : (State.endProgram s byEnd).Inv := by
  unfold State.endProgram
  repeat' first
    | with_reducible exact hs | with_reducible assumption | with_reducible apply State.lanternC_inv
    | with_reducible apply Inv.ite | (intro _) | fail_if_no_progress (with_reducible apply Inv.frame) | split

theorem State.fatalEvent_inv {s : State} {t : Nat} {cause : Byte} {serial : Option Nat} (hs : s.Inv) : (State.fatalEvent s t
    cause serial).Inv := by
  unfold State.fatalEvent
  repeat' first
    | with_reducible exact hs | with_reducible assumption | with_reducible apply State.emit_inv
    | with_reducible apply Inv.ite | (intro _) | fail_if_no_progress (with_reducible apply Inv.frame) | split

theorem State.fatalTrap_inv {s : State} {cause : Byte} {info addr : W64} (hs : s.Inv) :
    (s.fatalTrap cause info addr).Inv := by
  unfold State.fatalTrap
  dsimp only
  split
  · exact State.fatalEvent_inv (Inv.dropImages hs)
  · exact State.dump_inv (Inv.dropImages hs)

/-- A captured image is well formed: what it holds of the memories is a part of them. -/
theorem State.capture_wf {s : State} {kind : Nat} {cause : Byte} {level : Nat} (hs : s.Inv) :
    Image.wf (s.capture kind cause level) := by
  refine ⟨?_, (Inv.tilesWf hs)⟩
  unfold State.capture
  dsimp only
  split
  · exact (Inv.localWf hs)
  · exact cellsWf_filter (Inv.localWf hs)

/-- An image that is well formed leaves the die in a state that keeps the invariant. -/
theorem State.restore_inv {s : State} {i : Image} {now : Nat} (hs : s.Inv) (hi : Image.wf i) : (s.restore i now).Inv :=
  ⟨⟨cellsWf_splice hi.1 (Inv.localWf hs), cellsWf_putBytes (Inv.dramWf hs), hs.1.2.2⟩, hi.2, hs.2.2.1, Nat.mod_lt _ (by decide)⟩

theorem Pkg.retryImage_mem {p : Pkg} {j : W32} {i : Image} (hs : p.retryImage j = some i) : i ∈ p.images :=
  (List.mem_filter.mp (List.mem_of_getLast? hs)).1

theorem State.levelTwo_inv {s : State} {cause : Byte} {addr : W64} {lower : Bool} (hs : s.Inv) :
    (s.levelTwo cause addr lower).Inv := by
  have kill := State.dump_inv (kind := 4) (cause := cause) (level := 2) (State.endProgram_inv (byEnd := false) hs)
  unfold State.levelTwo
  split
  · split
    · exact hs
    · exact kill
  · split
    · rename_i i hi
      split
      · exact State.lanternC_inv (Inv.frame (State.restore_inv hs ((Inv.imagesWf hs) i (Pkg.retryImage_mem hi))))
      · exact State.fatalTrap_inv hs
    · exact State.fatalTrap_inv hs
  · exact kill
  · exact State.fatalTrap_inv hs

theorem State.takeTrap_inv {s : State} {cause : Byte} {info addr tpc : W64} {cycles : Nat} (hs : s.Inv) : (State.takeTrap s
    cause info addr tpc cycles).Inv := by
  unfold State.takeTrap
  repeat' first
    | with_reducible exact hs | with_reducible assumption | with_reducible apply State.deliver_inv
    | with_reducible apply State.levelTwo_inv | with_reducible apply Inv.ite | (intro _)
    | fail_if_no_progress (with_reducible apply Inv.frame) | split

theorem State.raisePending_inv {s : State} {cause : Byte} {info addr : W64} (hs : s.Inv) : (State.raisePending s cause info
    addr).Inv := by
  unfold State.raisePending
  repeat' first
    | with_reducible exact hs | with_reducible assumption | with_reducible apply State.levelTwo_inv
    | with_reducible apply Inv.ite | (intro _) | fail_if_no_progress (with_reducible apply Inv.frame) | split

theorem State.beginReturn_inv {s : State} {sw : Bool} {cycles : Nat} (hs : s.Inv) : (State.beginReturn s sw cycles).Inv :=
    by
  unfold State.beginReturn
  repeat' first
    | with_reducible exact hs | with_reducible assumption | with_reducible apply State.lanternC_inv
    | with_reducible apply Inv.ite | (intro _) | fail_if_no_progress (with_reducible apply Inv.frame) | split

theorem State.endReturn_inv {s : State} (hs : s.Inv) : (State.endReturn s).Inv := by
  unfold State.endReturn
  repeat' first
    | with_reducible exact hs | with_reducible assumption | with_reducible apply Inv.ite | (intro _)
    | fail_if_no_progress (with_reducible apply Inv.frame) | split

theorem State.setLine_inv {s : State} {ctx : Nat} {t : Timeline} (hs : s.Inv) : (State.setLine s ctx t).Inv := by
  unfold State.setLine
  repeat' first
    | with_reducible exact hs | with_reducible assumption | with_reducible apply Inv.ite | (intro _)
    | fail_if_no_progress (with_reducible apply Inv.frame) | split

theorem State.takeNumber_inv {s : State} {ctx : Nat} (hs : s.Inv) : (State.takeNumber s ctx).1.Inv := by
  unfold State.takeNumber
  repeat' first
    | with_reducible exact hs | with_reducible assumption | with_reducible apply State.setLine_inv
    | with_reducible apply Inv.ite | (intro _) | fail_if_no_progress (with_reducible apply Inv.frame) | split

theorem State.passUp_inv {s : State} {ctx n : Nat} {st : Byte} (hs : s.Inv) : (State.passUp s ctx n st).Inv := by
  unfold State.passUp
  repeat' first
    | with_reducible exact hs | with_reducible assumption | with_reducible apply State.raisePending_inv
    | with_reducible apply Inv.ite | (intro _) | fail_if_no_progress (with_reducible apply Inv.frame) | split

theorem State.complete_inv {s : State} {ctx n : Nat} {pol : BitVec 2} {st : Byte} (hs : s.Inv) : (State.complete s ctx n pol
    st).Inv := by
  unfold State.complete
  repeat' first
    | with_reducible exact hs | with_reducible assumption | with_reducible apply State.lanternM_inv
    | with_reducible apply State.setLine_inv | with_reducible apply State.passUp_inv | with_reducible apply Inv.ite
    | (intro _) | fail_if_no_progress (with_reducible apply Inv.frame) | split

theorem State.windowFault_inv {s : State} {addr cause agent : Nat} {entry : Option Nat} {write : Bool} (hs : s.Inv) :
    (State.windowFault s addr cause agent entry write).Inv := by
  unfold State.windowFault
  repeat' first
    | with_reducible exact hs | with_reducible assumption | with_reducible apply State.lanternM_inv
    | with_reducible apply Inv.ite | (intro _) | fail_if_no_progress (with_reducible apply Inv.frame) | split

theorem State.watchWrite_inv {s : State} {a n : Nat} {src : W64} (hs : s.Inv) : (State.watchWrite s a n src).Inv := by
  unfold State.watchWrite
  repeat' first
    | with_reducible exact hs | with_reducible assumption | with_reducible apply State.lanternM_inv
    | with_reducible apply State.raisePending_inv | with_reducible apply Inv.ite | (intro _)
    | fail_if_no_progress (with_reducible apply Inv.frame) | split

theorem State.storeWatched_inv {s : State} {a : Nat} {bs : List Byte} {src : W64} (hs : s.Inv) : (State.storeWatched s a bs
    src).Inv := by
  unfold State.storeWatched
  repeat' first
    | with_reducible exact hs | with_reducible assumption | with_reducible apply State.storeEng_inv
    | with_reducible apply State.watchWrite_inv | with_reducible apply Inv.ite | (intro _)
    | fail_if_no_progress (with_reducible apply Inv.frame) | split

end Sys2Proof.Machine
end

