-- ==== Sys2Proof/Laws/KeepsOperands.lean ====
section
/-! SUPPORT. Control registers and operands keep the invariant. -/

namespace Sys2Proof.Machine

set_option linter.all false

theorem State.ctlWrite_inv {s : State} {n : Nat} {x : W64} (hs : s.Inv) : (State.ctlWrite s n x).Inv := by
  unfold State.ctlWrite
  repeat' first
    | with_reducible exact hs | with_reducible assumption | with_reducible apply State.setLine_inv
    | with_reducible apply Inv.ite | (intro _) | fail_if_no_progress (with_reducible apply Inv.frame) | split

theorem State.takeIllegal_inv {s : State} {cause slot : Nat} {bundle : Bool} (hs : s.Inv) : (State.takeIllegal s cause slot
    bundle).Inv := by
  unfold State.takeIllegal
  repeat' first
    | with_reducible exact hs | with_reducible assumption | with_reducible apply State.lanternC_inv
    | with_reducible apply State.takeTrap_inv | with_reducible apply Inv.ite | (intro _)
    | fail_if_no_progress (with_reducible apply Inv.frame) | split

theorem State.takeSlotFault_inv {s : State} {f : SFault} {slot : Nat} (hs : s.Inv) : (State.takeSlotFault s f slot).Inv :=
    by
  unfold State.takeSlotFault
  repeat' first
    | with_reducible exact hs | with_reducible assumption | with_reducible apply State.takeTrap_inv
    | with_reducible apply State.windowFault_inv | with_reducible apply State.takeIllegal_inv | with_reducible apply Inv.ite
    | (intro _) | fail_if_no_progress (with_reducible apply Inv.frame) | split

theorem State.slot_safe {s : State} {g : BitVec 4} {fault : Option SFault} {effect : State → State} (hs : s.Inv)
    (he : ∀ s, s.Inv → (effect s).Inv) : Safe (s.slot g fault effect) := by
  unfold State.slot
  split
  · split
    · exact State.takeSlotFault_inv hs
    · exact he s hs
  · exact hs

theorem State.encSlot_safe {s : State} {enc : Option Nat} {r : Out} (hs : s.Inv) (hr : Safe r) : Safe (s.encSlot enc r) := by
  unfold State.encSlot
  split
  · exact State.takeIllegal_inv hs
  · exact hr

theorem State.postInc_inv {s : State} {a : BitVec 4} {u : BitVec 1} (hs : s.Inv) : (State.postInc s a u).Inv := by
  unfold State.postInc
  repeat' first
    | with_reducible exact hs | with_reducible assumption | with_reducible apply State.put_inv
    | with_reducible apply Inv.ite | (intro _) | fail_if_no_progress (with_reducible apply Inv.frame) | split

theorem State.startLoad_inv {s : State} {a size : Nat} {d : LoadDest} (hs : s.Inv) : (State.startLoad s a size d).Inv := by
  unfold State.startLoad
  repeat' first
    | with_reducible exact hs | with_reducible assumption | with_reducible apply State.put_inv
    | with_reducible apply Inv.ite | (intro _) | fail_if_no_progress (with_reducible apply Inv.frame) | split

theorem State.startStore_inv {s : State} {a : Nat} {bs : List Byte} (hs : s.Inv) : (State.startStore s a bs).Inv := by
  unfold State.startStore
  repeat' first
    | with_reducible exact hs | with_reducible assumption | with_reducible apply State.store_inv
    | with_reducible apply State.put_inv | with_reducible apply Inv.ite | (intro _)
    | fail_if_no_progress (with_reducible apply Inv.frame) | split

theorem State.atomic_inv {s : State} {op : BitVec 4} {a size x cmp : Nat} (hs : s.Inv) : (State.atomic s op a size x
    cmp).1.Inv := by
  unfold State.atomic
  repeat' first
    | with_reducible exact hs | with_reducible assumption | with_reducible refine Inv.fst (by assumption) ?_
    | with_reducible apply State.store_inv | with_reducible apply Inv.ite | (intro _) | dsimp only
    | fail_if_no_progress (with_reducible apply Inv.frame) | split | (dsimp only)
    | fail_if_no_progress (refine Inv.pkg ?_ (by rfl))

theorem State.startAtomic_inv {s : State} {op : BitVec 4} {d : BitVec 5} {a size : Nat} {x cmp : W64} (hs : s.Inv) :
    (State.startAtomic s op d a size x cmp).Inv := by
  unfold State.startAtomic
  repeat' first
    | with_reducible exact hs | with_reducible assumption | with_reducible apply State.put_inv
    | with_reducible apply Inv.ite | (intro _) | fail_if_no_progress (with_reducible apply Inv.frame) | split

end Sys2Proof.Machine
end

