-- ==== Sys2Proof/Laws/KeepsSlots.lean ====
section
/-! SUPPORT. The scalar and vector slots keep the invariant. -/

namespace Sys2Proof.Machine

set_option linter.all false

theorem execExtHdr_safe {_z _y _x : BitVec 8} {s : State} (hs : s.Inv) : Safe (execExtHdr _z _y _x s) := by
  unfold execExtHdr
  repeat' first
    | with_reducible exact hs | with_reducible assumption | with_reducible apply Safe.next | with_reducible apply Safe.ite
    | (intro _) | fail_if_no_progress (with_reducible apply Inv.frame) | split

theorem execRepeatPfx_safe {c : BitVec 12} {x y : BitVec 4} {v w : BitVec 1} {s : State} (hs : s.Inv) : Safe (execRepeatPfx
    c x y v w s) := by
  unfold execRepeatPfx
  repeat' first
    | with_reducible exact hs | with_reducible assumption | with_reducible apply Safe.next | with_reducible apply Safe.ite
    | (intro _) | fail_if_no_progress (with_reducible apply Inv.frame) | split

theorem execLbmark_safe {l : BitVec 6} {p : BitVec 1} {s : State} (hs : s.Inv) : Safe (execLbmark l p s) := by
  unfold execLbmark
  repeat' first
    | with_reducible exact hs | with_reducible assumption | with_reducible apply Safe.next | with_reducible apply Safe.ite
    | (intro _) | fail_if_no_progress (with_reducible apply Inv.frame) | split

theorem State.slotS_safe {s : State} {g : BitVec 4} {lat : Nat} {d : BitVec 5} {x : W64} (hs : s.Inv) : Safe (State.slotS s
    g lat d x) := by
  unfold State.slotS
  repeat' first
    | with_reducible exact hs | with_reducible assumption | with_reducible apply State.put_inv
    | with_reducible apply State.slot_safe | with_reducible apply Safe.next | with_reducible apply Safe.ite | (intro _)
    | fail_if_no_progress (with_reducible apply Inv.frame) | split

theorem execNop_safe {_g : BitVec 4} {s : State} (hs : s.Inv) : Safe (execNop _g s) := by
  unfold execNop
  repeat' first
    | with_reducible exact hs | with_reducible assumption | with_reducible apply Safe.next | with_reducible apply Safe.ite
    | (intro _) | fail_if_no_progress (with_reducible apply Inv.frame) | split

theorem execAdd_safe {g : BitVec 4} {d a b : BitVec 5} {s : State} (hs : s.Inv) : Safe (execAdd g d a b s) := by
  unfold execAdd
  repeat' first
    | with_reducible exact hs | with_reducible assumption | with_reducible apply State.slotS_safe
    | with_reducible apply Safe.next | with_reducible apply Safe.ite | (intro _)
    | fail_if_no_progress (with_reducible apply Inv.frame) | split

theorem execSub_safe {g : BitVec 4} {d a b : BitVec 5} {s : State} (hs : s.Inv) : Safe (execSub g d a b s) := by
  unfold execSub
  repeat' first
    | with_reducible exact hs | with_reducible assumption | with_reducible apply State.slotS_safe
    | with_reducible apply Safe.next | with_reducible apply Safe.ite | (intro _)
    | fail_if_no_progress (with_reducible apply Inv.frame) | split

theorem execAnd_safe {g : BitVec 4} {d a b : BitVec 5} {s : State} (hs : s.Inv) : Safe (execAnd g d a b s) := by
  unfold execAnd
  repeat' first
    | with_reducible exact hs | with_reducible assumption | with_reducible apply State.slotS_safe
    | with_reducible apply Safe.next | with_reducible apply Safe.ite | (intro _)
    | fail_if_no_progress (with_reducible apply Inv.frame) | split

theorem execOr_safe {g : BitVec 4} {d a b : BitVec 5} {s : State} (hs : s.Inv) : Safe (execOr g d a b s) := by
  unfold execOr
  repeat' first
    | with_reducible exact hs | with_reducible assumption | with_reducible apply State.slotS_safe
    | with_reducible apply Safe.next | with_reducible apply Safe.ite | (intro _)
    | fail_if_no_progress (with_reducible apply Inv.frame) | split

theorem execXor_safe {g : BitVec 4} {d a b : BitVec 5} {s : State} (hs : s.Inv) : Safe (execXor g d a b s) := by
  unfold execXor
  repeat' first
    | with_reducible exact hs | with_reducible assumption | with_reducible apply State.slotS_safe
    | with_reducible apply Safe.next | with_reducible apply Safe.ite | (intro _)
    | fail_if_no_progress (with_reducible apply Inv.frame) | split

theorem execAndn_safe {g : BitVec 4} {d a b : BitVec 5} {s : State} (hs : s.Inv) : Safe (execAndn g d a b s) := by
  unfold execAndn
  repeat' first
    | with_reducible exact hs | with_reducible assumption | with_reducible apply State.slotS_safe
    | with_reducible apply Safe.next | with_reducible apply Safe.ite | (intro _)
    | fail_if_no_progress (with_reducible apply Inv.frame) | split

theorem execShl_safe {g : BitVec 4} {d a b : BitVec 5} {s : State} (hs : s.Inv) : Safe (execShl g d a b s) := by
  unfold execShl
  repeat' first
    | with_reducible exact hs | with_reducible assumption | with_reducible apply State.slotS_safe
    | with_reducible apply Safe.next | with_reducible apply Safe.ite | (intro _)
    | fail_if_no_progress (with_reducible apply Inv.frame) | split

theorem execShr_safe {g : BitVec 4} {d a b : BitVec 5} {s : State} (hs : s.Inv) : Safe (execShr g d a b s) := by
  unfold execShr
  repeat' first
    | with_reducible exact hs | with_reducible assumption | with_reducible apply State.slotS_safe
    | with_reducible apply Safe.next | with_reducible apply Safe.ite | (intro _)
    | fail_if_no_progress (with_reducible apply Inv.frame) | split

theorem execSar_safe {g : BitVec 4} {d a b : BitVec 5} {s : State} (hs : s.Inv) : Safe (execSar g d a b s) := by
  unfold execSar
  repeat' first
    | with_reducible exact hs | with_reducible assumption | with_reducible apply State.slotS_safe
    | with_reducible apply Safe.next | with_reducible apply Safe.ite | (intro _)
    | fail_if_no_progress (with_reducible apply Inv.frame) | split

theorem execRor_safe {g : BitVec 4} {d a b : BitVec 5} {s : State} (hs : s.Inv) : Safe (execRor g d a b s) := by
  unfold execRor
  repeat' first
    | with_reducible exact hs | with_reducible assumption | with_reducible apply State.slotS_safe
    | with_reducible apply Safe.next | with_reducible apply Safe.ite | (intro _)
    | fail_if_no_progress (with_reducible apply Inv.frame) | split

theorem execMin_safe {g : BitVec 4} {d a b : BitVec 5} {s : State} (hs : s.Inv) : Safe (execMin g d a b s) := by
  unfold execMin
  repeat' first
    | with_reducible exact hs | with_reducible assumption | with_reducible apply State.slotS_safe
    | with_reducible apply Safe.next | with_reducible apply Safe.ite | (intro _)
    | fail_if_no_progress (with_reducible apply Inv.frame) | split

theorem execMinN_safe {g : BitVec 4} {d a b : BitVec 5} {s : State} (hs : s.Inv) : Safe (execMinN g d a b s) := by
  unfold execMinN
  repeat' first
    | with_reducible exact hs | with_reducible assumption | with_reducible apply State.slotS_safe
    | with_reducible apply Safe.next | with_reducible apply Safe.ite | (intro _)
    | fail_if_no_progress (with_reducible apply Inv.frame) | split

theorem execMax_safe {g : BitVec 4} {d a b : BitVec 5} {s : State} (hs : s.Inv) : Safe (execMax g d a b s) := by
  unfold execMax
  repeat' first
    | with_reducible exact hs | with_reducible assumption | with_reducible apply State.slotS_safe
    | with_reducible apply Safe.next | with_reducible apply Safe.ite | (intro _)
    | fail_if_no_progress (with_reducible apply Inv.frame) | split

theorem execMaxN_safe {g : BitVec 4} {d a b : BitVec 5} {s : State} (hs : s.Inv) : Safe (execMaxN g d a b s) := by
  unfold execMaxN
  repeat' first
    | with_reducible exact hs | with_reducible assumption | with_reducible apply State.slotS_safe
    | with_reducible apply Safe.next | with_reducible apply Safe.ite | (intro _)
    | fail_if_no_progress (with_reducible apply Inv.frame) | split

theorem execMul_safe {g : BitVec 4} {d a b : BitVec 5} {s : State} (hs : s.Inv) : Safe (execMul g d a b s) := by
  unfold execMul
  repeat' first
    | with_reducible exact hs | with_reducible assumption | with_reducible apply State.slotS_safe
    | with_reducible apply Safe.next | with_reducible apply Safe.ite | (intro _)
    | fail_if_no_progress (with_reducible apply Inv.frame) | split

theorem execMulh_safe {g : BitVec 4} {d a b : BitVec 5} {s : State} (hs : s.Inv) : Safe (execMulh g d a b s) := by
  unfold execMulh
  repeat' first
    | with_reducible exact hs | with_reducible assumption | with_reducible apply State.slotS_safe
    | with_reducible apply Safe.next | with_reducible apply Safe.ite | (intro _)
    | fail_if_no_progress (with_reducible apply Inv.frame) | split

theorem execMulhN_safe {g : BitVec 4} {d a b : BitVec 5} {s : State} (hs : s.Inv) : Safe (execMulhN g d a b s) := by
  unfold execMulhN
  repeat' first
    | with_reducible exact hs | with_reducible assumption | with_reducible apply State.slotS_safe
    | with_reducible apply Safe.next | with_reducible apply Safe.ite | (intro _)
    | fail_if_no_progress (with_reducible apply Inv.frame) | split

theorem execMadd_safe {g : BitVec 4} {d a b c : BitVec 5} {s : State} (hs : s.Inv) : Safe (execMadd g d a b c s) := by
  unfold execMadd
  repeat' first
    | with_reducible exact hs | with_reducible assumption | with_reducible apply State.slotS_safe
    | with_reducible apply Safe.next | with_reducible apply Safe.ite | (intro _)
    | fail_if_no_progress (with_reducible apply Inv.frame) | split

theorem execDiv_safe {g : BitVec 4} {d a b : BitVec 5} {s : State} (hs : s.Inv) : Safe (execDiv g d a b s) := by
  unfold execDiv
  repeat' first
    | with_reducible exact hs | with_reducible assumption | with_reducible apply State.slotS_safe
    | with_reducible apply Safe.next | with_reducible apply Safe.ite | (intro _)
    | fail_if_no_progress (with_reducible apply Inv.frame) | split

theorem execDivN_safe {g : BitVec 4} {d a b : BitVec 5} {s : State} (hs : s.Inv) : Safe (execDivN g d a b s) := by
  unfold execDivN
  repeat' first
    | with_reducible exact hs | with_reducible assumption | with_reducible apply State.slotS_safe
    | with_reducible apply Safe.next | with_reducible apply Safe.ite | (intro _)
    | fail_if_no_progress (with_reducible apply Inv.frame) | split

theorem execRem_safe {g : BitVec 4} {d a b : BitVec 5} {s : State} (hs : s.Inv) : Safe (execRem g d a b s) := by
  unfold execRem
  repeat' first
    | with_reducible exact hs | with_reducible assumption | with_reducible apply State.slotS_safe
    | with_reducible apply Safe.next | with_reducible apply Safe.ite | (intro _)
    | fail_if_no_progress (with_reducible apply Inv.frame) | split

theorem execRemN_safe {g : BitVec 4} {d a b : BitVec 5} {s : State} (hs : s.Inv) : Safe (execRemN g d a b s) := by
  unfold execRemN
  repeat' first
    | with_reducible exact hs | with_reducible assumption | with_reducible apply State.slotS_safe
    | with_reducible apply Safe.next | with_reducible apply Safe.ite | (intro _)
    | fail_if_no_progress (with_reducible apply Inv.frame) | split

theorem execSextB_safe {g : BitVec 4} {d a : BitVec 5} {s : State} (hs : s.Inv) : Safe (execSextB g d a s) := by
  unfold execSextB
  repeat' first
    | with_reducible exact hs | with_reducible assumption | with_reducible apply State.slotS_safe
    | with_reducible apply Safe.next | with_reducible apply Safe.ite | (intro _)
    | fail_if_no_progress (with_reducible apply Inv.frame) | split

theorem execSextH_safe {g : BitVec 4} {d a : BitVec 5} {s : State} (hs : s.Inv) : Safe (execSextH g d a s) := by
  unfold execSextH
  repeat' first
    | with_reducible exact hs | with_reducible assumption | with_reducible apply State.slotS_safe
    | with_reducible apply Safe.next | with_reducible apply Safe.ite | (intro _)
    | fail_if_no_progress (with_reducible apply Inv.frame) | split

theorem execSextW_safe {g : BitVec 4} {d a : BitVec 5} {s : State} (hs : s.Inv) : Safe (execSextW g d a s) := by
  unfold execSextW
  repeat' first
    | with_reducible exact hs | with_reducible assumption | with_reducible apply State.slotS_safe
    | with_reducible apply Safe.next | with_reducible apply Safe.ite | (intro _)
    | fail_if_no_progress (with_reducible apply Inv.frame) | split

theorem execZextB_safe {g : BitVec 4} {d a : BitVec 5} {s : State} (hs : s.Inv) : Safe (execZextB g d a s) := by
  unfold execZextB
  repeat' first
    | with_reducible exact hs | with_reducible assumption | with_reducible apply State.slotS_safe
    | with_reducible apply Safe.next | with_reducible apply Safe.ite | (intro _)
    | fail_if_no_progress (with_reducible apply Inv.frame) | split

theorem execZextH_safe {g : BitVec 4} {d a : BitVec 5} {s : State} (hs : s.Inv) : Safe (execZextH g d a s) := by
  unfold execZextH
  repeat' first
    | with_reducible exact hs | with_reducible assumption | with_reducible apply State.slotS_safe
    | with_reducible apply Safe.next | with_reducible apply Safe.ite | (intro _)
    | fail_if_no_progress (with_reducible apply Inv.frame) | split

theorem execZextW_safe {g : BitVec 4} {d a : BitVec 5} {s : State} (hs : s.Inv) : Safe (execZextW g d a s) := by
  unfold execZextW
  repeat' first
    | with_reducible exact hs | with_reducible assumption | with_reducible apply State.slotS_safe
    | with_reducible apply Safe.next | with_reducible apply Safe.ite | (intro _)
    | fail_if_no_progress (with_reducible apply Inv.frame) | split

theorem execPopc_safe {g : BitVec 4} {d a : BitVec 5} {s : State} (hs : s.Inv) : Safe (execPopc g d a s) := by
  unfold execPopc
  repeat' first
    | with_reducible exact hs | with_reducible assumption | with_reducible apply State.slotS_safe
    | with_reducible apply Safe.next | with_reducible apply Safe.ite | (intro _)
    | fail_if_no_progress (with_reducible apply Inv.frame) | split

theorem execClz_safe {g : BitVec 4} {d a : BitVec 5} {s : State} (hs : s.Inv) : Safe (execClz g d a s) := by
  unfold execClz
  repeat' first
    | with_reducible exact hs | with_reducible assumption | with_reducible apply State.slotS_safe
    | with_reducible apply Safe.next | with_reducible apply Safe.ite | (intro _)
    | fail_if_no_progress (with_reducible apply Inv.frame) | split

theorem execCtz_safe {g : BitVec 4} {d a : BitVec 5} {s : State} (hs : s.Inv) : Safe (execCtz g d a s) := by
  unfold execCtz
  repeat' first
    | with_reducible exact hs | with_reducible assumption | with_reducible apply State.slotS_safe
    | with_reducible apply Safe.next | with_reducible apply Safe.ite | (intro _)
    | fail_if_no_progress (with_reducible apply Inv.frame) | split

theorem execAddi_safe {g : BitVec 4} {d a : BitVec 5} {imm : BitVec 18} {s : State} (hs : s.Inv) : Safe (execAddi g d a imm
    s) := by
  unfold execAddi
  repeat' first
    | with_reducible exact hs | with_reducible assumption | with_reducible apply State.slotS_safe
    | with_reducible apply Safe.next | with_reducible apply Safe.ite | (intro _)
    | fail_if_no_progress (with_reducible apply Inv.frame) | split

theorem execAndi_safe {g : BitVec 4} {d a : BitVec 5} {imm : BitVec 18} {s : State} (hs : s.Inv) : Safe (execAndi g d a imm
    s) := by
  unfold execAndi
  repeat' first
    | with_reducible exact hs | with_reducible assumption | with_reducible apply State.slotS_safe
    | with_reducible apply Safe.next | with_reducible apply Safe.ite | (intro _)
    | fail_if_no_progress (with_reducible apply Inv.frame) | split

theorem execOri_safe {g : BitVec 4} {d a : BitVec 5} {imm : BitVec 18} {s : State} (hs : s.Inv) : Safe (execOri g d a imm s)
    := by
  unfold execOri
  repeat' first
    | with_reducible exact hs | with_reducible assumption | with_reducible apply State.slotS_safe
    | with_reducible apply Safe.next | with_reducible apply Safe.ite | (intro _)
    | fail_if_no_progress (with_reducible apply Inv.frame) | split

theorem execXori_safe {g : BitVec 4} {d a : BitVec 5} {imm : BitVec 18} {s : State} (hs : s.Inv) : Safe (execXori g d a imm
    s) := by
  unfold execXori
  repeat' first
    | with_reducible exact hs | with_reducible assumption | with_reducible apply State.slotS_safe
    | with_reducible apply Safe.next | with_reducible apply Safe.ite | (intro _)
    | fail_if_no_progress (with_reducible apply Inv.frame) | split

theorem execShli_safe {g : BitVec 4} {d a : BitVec 5} {imm : BitVec 18} {s : State} (hs : s.Inv) : Safe (execShli g d a imm
    s) := by
  unfold execShli
  repeat' first
    | with_reducible exact hs | with_reducible assumption | with_reducible apply State.slotS_safe
    | with_reducible apply Safe.next | with_reducible apply Safe.ite | (intro _)
    | fail_if_no_progress (with_reducible apply Inv.frame) | split

theorem execShri_safe {g : BitVec 4} {d a : BitVec 5} {imm : BitVec 18} {s : State} (hs : s.Inv) : Safe (execShri g d a imm
    s) := by
  unfold execShri
  repeat' first
    | with_reducible exact hs | with_reducible assumption | with_reducible apply State.slotS_safe
    | with_reducible apply Safe.next | with_reducible apply Safe.ite | (intro _)
    | fail_if_no_progress (with_reducible apply Inv.frame) | split

theorem execSari_safe {g : BitVec 4} {d a : BitVec 5} {imm : BitVec 18} {s : State} (hs : s.Inv) : Safe (execSari g d a imm
    s) := by
  unfold execSari
  repeat' first
    | with_reducible exact hs | with_reducible assumption | with_reducible apply State.slotS_safe
    | with_reducible apply Safe.next | with_reducible apply Safe.ite | (intro _)
    | fail_if_no_progress (with_reducible apply Inv.frame) | split

theorem execShori_safe {g : BitVec 4} {d a : BitVec 5} {imm : BitVec 18} {s : State} (hs : s.Inv) : Safe (execShori g d a
    imm s) := by
  unfold execShori
  repeat' first
    | with_reducible exact hs | with_reducible assumption | with_reducible apply State.slotS_safe
    | with_reducible apply Safe.next | with_reducible apply Safe.ite | (intro _)
    | fail_if_no_progress (with_reducible apply Inv.frame) | split

theorem execAdda_safe {g : BitVec 4} {d a b : BitVec 5} {m : BitVec 3} {s : State} (hs : s.Inv) : Safe (execAdda g d a b m
    s) := by
  unfold execAdda
  repeat' first
    | with_reducible exact hs | with_reducible assumption | with_reducible apply State.put_inv
    | with_reducible apply State.slot_safe | with_reducible apply Safe.next | with_reducible apply Safe.ite | (intro _)
    | fail_if_no_progress (with_reducible apply Inv.frame) | split

theorem execMovAS_safe {g : BitVec 4} {d a : BitVec 5} {s : State} (hs : s.Inv) : Safe (execMovAS g d a s) := by
  unfold execMovAS
  repeat' first
    | with_reducible exact hs | with_reducible assumption | with_reducible apply State.put_inv
    | with_reducible apply State.slot_safe | with_reducible apply Safe.next | with_reducible apply Safe.ite | (intro _)
    | fail_if_no_progress (with_reducible apply Inv.frame) | split

theorem execMovSA_safe {g : BitVec 4} {d a : BitVec 5} {s : State} (hs : s.Inv) : Safe (execMovSA g d a s) := by
  unfold execMovSA
  repeat' first
    | with_reducible exact hs | with_reducible assumption | with_reducible apply State.put_inv
    | with_reducible apply State.slot_safe | with_reducible apply Safe.next | with_reducible apply Safe.ite | (intro _)
    | fail_if_no_progress (with_reducible apply Inv.frame) | split

theorem execMovNS_safe {g : BitVec 4} {d a : BitVec 5} {s : State} (hs : s.Inv) : Safe (execMovNS g d a s) := by
  unfold execMovNS
  repeat' first
    | with_reducible exact hs | with_reducible assumption | with_reducible apply State.put_inv
    | with_reducible apply State.slot_safe | with_reducible apply Safe.next | with_reducible apply Safe.ite | (intro _)
    | fail_if_no_progress (with_reducible apply Inv.frame) | split

theorem execMovSN_safe {g : BitVec 4} {d a : BitVec 5} {s : State} (hs : s.Inv) : Safe (execMovSN g d a s) := by
  unfold execMovSN
  repeat' first
    | with_reducible exact hs | with_reducible assumption | with_reducible apply State.put_inv
    | with_reducible apply State.slot_safe | with_reducible apply Safe.next | with_reducible apply Safe.ite | (intro _)
    | fail_if_no_progress (with_reducible apply Inv.frame) | split

theorem execMovES_safe {g : BitVec 4} {d a : BitVec 5} {s : State} (hs : s.Inv) : Safe (execMovES g d a s) := by
  unfold execMovES
  repeat' first
    | with_reducible exact hs | with_reducible assumption | with_reducible apply State.put_inv
    | with_reducible apply State.slot_safe | with_reducible apply Safe.next | with_reducible apply Safe.ite | (intro _)
    | fail_if_no_progress (with_reducible apply Inv.frame) | split

theorem execMovSE_safe {g : BitVec 4} {d a : BitVec 5} {s : State} (hs : s.Inv) : Safe (execMovSE g d a s) := by
  unfold execMovSE
  repeat' first
    | with_reducible exact hs | with_reducible assumption | with_reducible apply State.put_inv
    | with_reducible apply State.slot_safe | with_reducible apply Safe.next | with_reducible apply Safe.ite | (intro _)
    | fail_if_no_progress (with_reducible apply Inv.frame) | split

theorem execMovToControl_safe {g : BitVec 4} {x a y : BitVec 5} {s : State} (hs : s.Inv) : Safe (execMovToControl g x a y s)
    := by
  unfold execMovToControl
  repeat' first
    | with_reducible exact hs | with_reducible assumption | with_reducible apply State.put_inv
    | with_reducible apply State.slot_safe | with_reducible apply State.encSlot_safe | with_reducible apply Safe.next
    | with_reducible apply Safe.ite | (intro _) | fail_if_no_progress (with_reducible apply Inv.frame) | split

theorem execMovFromControl_safe {g : BitVec 4} {d x y : BitVec 5} {s : State} (hs : s.Inv) : Safe (execMovFromControl g d x
    y s) := by
  unfold execMovFromControl
  repeat' first
    | with_reducible exact hs | with_reducible assumption | with_reducible apply State.slotS_safe
    | with_reducible apply Safe.next | with_reducible apply Safe.ite | (intro _)
    | fail_if_no_progress (with_reducible apply Inv.frame) | split

theorem execMovGS_safe {g : BitVec 4} {d a : BitVec 5} {s : State} (hs : s.Inv) : Safe (execMovGS g d a s) := by
  unfold execMovGS
  repeat' first
    | with_reducible exact hs | with_reducible assumption | with_reducible apply State.put_inv
    | with_reducible apply State.slot_safe | with_reducible apply Safe.next | with_reducible apply Safe.ite | (intro _)
    | fail_if_no_progress (with_reducible apply Inv.frame) | split

theorem execMovSG_safe {g : BitVec 4} {d a : BitVec 5} {s : State} (hs : s.Inv) : Safe (execMovSG g d a s) := by
  unfold execMovSG
  repeat' first
    | with_reducible exact hs | with_reducible assumption | with_reducible apply State.put_inv
    | with_reducible apply State.slot_safe | with_reducible apply Safe.next | with_reducible apply Safe.ite | (intro _)
    | fail_if_no_progress (with_reducible apply Inv.frame) | split

theorem execGget_safe {g : BitVec 4} {d : BitVec 5} {s : State} (hs : s.Inv) : Safe (execGget g d s) := by
  unfold execGget
  repeat' first
    | with_reducible exact hs | with_reducible assumption | with_reducible apply State.slotS_safe
    | with_reducible apply Safe.next | with_reducible apply Safe.ite | (intro _)
    | fail_if_no_progress (with_reducible apply Inv.frame) | split

theorem execGset_safe {g : BitVec 4} {a : BitVec 5} {s : State} (hs : s.Inv) : Safe (execGset g a s) := by
  unfold execGset
  repeat' first
    | with_reducible exact hs | with_reducible assumption | with_reducible apply State.put_inv
    | with_reducible apply State.slot_safe | with_reducible apply Safe.next | with_reducible apply Safe.ite | (intro _)
    | fail_if_no_progress (with_reducible apply Inv.frame) | split

theorem State.slotCmp_safe {s : State} {g h : BitVec 4} {cond : Bool} (hs : s.Inv) : Safe (State.slotCmp s g h cond) := by
  unfold State.slotCmp
  repeat' first
    | with_reducible exact hs | with_reducible assumption | with_reducible apply State.put_inv
    | with_reducible apply State.slot_safe | with_reducible apply Safe.next | with_reducible apply Safe.ite | (intro _)
    | fail_if_no_progress (with_reducible apply Inv.frame) | split

theorem execCmpEq_safe {g h : BitVec 4} {a b : BitVec 5} {s : State} (hs : s.Inv) : Safe (execCmpEq g h a b s) := by
  unfold execCmpEq
  repeat' first
    | with_reducible exact hs | with_reducible assumption | with_reducible apply State.slotCmp_safe
    | with_reducible apply Safe.next | with_reducible apply Safe.ite | (intro _)
    | fail_if_no_progress (with_reducible apply Inv.frame) | split

theorem execCmpEqImm_safe {g h : BitVec 4} {a : BitVec 5} {imm : BitVec 18} {s : State} (hs : s.Inv) : Safe (execCmpEqImm g
    h a imm s) := by
  unfold execCmpEqImm
  repeat' first
    | with_reducible exact hs | with_reducible assumption | with_reducible apply State.slotCmp_safe
    | with_reducible apply Safe.next | with_reducible apply Safe.ite | (intro _)
    | fail_if_no_progress (with_reducible apply Inv.frame) | split

theorem execCmpLt_safe {g h : BitVec 4} {a b : BitVec 5} {s : State} (hs : s.Inv) : Safe (execCmpLt g h a b s) := by
  unfold execCmpLt
  repeat' first
    | with_reducible exact hs | with_reducible assumption | with_reducible apply State.slotCmp_safe
    | with_reducible apply Safe.next | with_reducible apply Safe.ite | (intro _)
    | fail_if_no_progress (with_reducible apply Inv.frame) | split

theorem execCmpLtImm_safe {g h : BitVec 4} {a : BitVec 5} {imm : BitVec 18} {s : State} (hs : s.Inv) : Safe (execCmpLtImm g
    h a imm s) := by
  unfold execCmpLtImm
  repeat' first
    | with_reducible exact hs | with_reducible assumption | with_reducible apply State.slotCmp_safe
    | with_reducible apply Safe.next | with_reducible apply Safe.ite | (intro _)
    | fail_if_no_progress (with_reducible apply Inv.frame) | split

theorem execCmpLe_safe {g h : BitVec 4} {a b : BitVec 5} {s : State} (hs : s.Inv) : Safe (execCmpLe g h a b s) := by
  unfold execCmpLe
  repeat' first
    | with_reducible exact hs | with_reducible assumption | with_reducible apply State.slotCmp_safe
    | with_reducible apply Safe.next | with_reducible apply Safe.ite | (intro _)
    | fail_if_no_progress (with_reducible apply Inv.frame) | split

theorem execCmpLeImm_safe {g h : BitVec 4} {a : BitVec 5} {imm : BitVec 18} {s : State} (hs : s.Inv) : Safe (execCmpLeImm g
    h a imm s) := by
  unfold execCmpLeImm
  repeat' first
    | with_reducible exact hs | with_reducible assumption | with_reducible apply State.slotCmp_safe
    | with_reducible apply Safe.next | with_reducible apply Safe.ite | (intro _)
    | fail_if_no_progress (with_reducible apply Inv.frame) | split

theorem execCmpLtn_safe {g h : BitVec 4} {a b : BitVec 5} {s : State} (hs : s.Inv) : Safe (execCmpLtn g h a b s) := by
  unfold execCmpLtn
  repeat' first
    | with_reducible exact hs | with_reducible assumption | with_reducible apply State.slotCmp_safe
    | with_reducible apply Safe.next | with_reducible apply Safe.ite | (intro _)
    | fail_if_no_progress (with_reducible apply Inv.frame) | split

theorem execCmpLtnImm_safe {g h : BitVec 4} {a : BitVec 5} {imm : BitVec 18} {s : State} (hs : s.Inv) : Safe (execCmpLtnImm
    g h a imm s) := by
  unfold execCmpLtnImm
  repeat' first
    | with_reducible exact hs | with_reducible assumption | with_reducible apply State.slotCmp_safe
    | with_reducible apply Safe.next | with_reducible apply Safe.ite | (intro _)
    | fail_if_no_progress (with_reducible apply Inv.frame) | split

theorem execCmpLen_safe {g h : BitVec 4} {a b : BitVec 5} {s : State} (hs : s.Inv) : Safe (execCmpLen g h a b s) := by
  unfold execCmpLen
  repeat' first
    | with_reducible exact hs | with_reducible assumption | with_reducible apply State.slotCmp_safe
    | with_reducible apply Safe.next | with_reducible apply Safe.ite | (intro _)
    | fail_if_no_progress (with_reducible apply Inv.frame) | split

theorem execCmpLenImm_safe {g h : BitVec 4} {a : BitVec 5} {imm : BitVec 18} {s : State} (hs : s.Inv) : Safe (execCmpLenImm
    g h a imm s) := by
  unfold execCmpLenImm
  repeat' first
    | with_reducible exact hs | with_reducible assumption | with_reducible apply State.slotCmp_safe
    | with_reducible apply Safe.next | with_reducible apply Safe.ite | (intro _)
    | fail_if_no_progress (with_reducible apply Inv.frame) | split

theorem execCmpTst_safe {g h : BitVec 4} {a b : BitVec 5} {s : State} (hs : s.Inv) : Safe (execCmpTst g h a b s) := by
  unfold execCmpTst
  repeat' first
    | with_reducible exact hs | with_reducible assumption | with_reducible apply State.slotCmp_safe
    | with_reducible apply Safe.next | with_reducible apply Safe.ite | (intro _)
    | fail_if_no_progress (with_reducible apply Inv.frame) | split

theorem execCmpTstImm_safe {g h : BitVec 4} {a : BitVec 5} {imm : BitVec 18} {s : State} (hs : s.Inv) : Safe (execCmpTstImm
    g h a imm s) := by
  unfold execCmpTstImm
  repeat' first
    | with_reducible exact hs | with_reducible assumption | with_reducible apply State.slotCmp_safe
    | with_reducible apply Safe.next | with_reducible apply Safe.ite | (intro _)
    | fail_if_no_progress (with_reducible apply Inv.frame) | split

theorem State.leave_inv {s : State} {target : W64} {bubbles kind : Nat} (hs : s.Inv) : (State.leave s target bubbles
    kind).Inv := by
  unfold State.leave
  repeat' first
    | with_reducible exact hs | with_reducible assumption | with_reducible apply State.lanternC_inv
    | with_reducible apply State.slot_safe | with_reducible apply Inv.ite | (intro _)
    | fail_if_no_progress (with_reducible apply Inv.frame) | split

theorem State.bubble_inv {s : State} {n : Nat} (hs : s.Inv) : (State.bubble s n).Inv := by
  unfold State.bubble
  repeat' first
    | with_reducible exact hs | with_reducible assumption | with_reducible apply Inv.ite | (intro _)
    | fail_if_no_progress (with_reducible apply Inv.frame) | split

theorem execBrT_safe {g : BitVec 4} {o : BitVec 19} {s : State} (hs : s.Inv) : Safe (execBrT g o s) := by
  unfold execBrT
  repeat' first
    | with_reducible exact hs | with_reducible assumption | with_reducible apply State.leave_inv
    | with_reducible apply State.bubble_inv | with_reducible apply Safe.next | with_reducible apply Safe.ite | (intro _)
    | fail_if_no_progress (with_reducible apply Inv.frame) | split

theorem execBrNt_safe {g : BitVec 4} {o : BitVec 19} {s : State} (hs : s.Inv) : Safe (execBrNt g o s) := by
  unfold execBrNt
  repeat' first
    | with_reducible exact hs | with_reducible assumption | with_reducible apply State.leave_inv
    | with_reducible apply Safe.next | with_reducible apply Safe.ite | (intro _)
    | fail_if_no_progress (with_reducible apply Inv.frame) | split

theorem execCall_safe {g : BitVec 4} {o : BitVec 19} {s : State} (hs : s.Inv) : Safe (execCall g o s) := by
  unfold execCall
  repeat' first
    | with_reducible exact hs | with_reducible assumption | with_reducible apply State.put_inv
    | with_reducible apply State.leave_inv | with_reducible apply State.bubble_inv | with_reducible apply Safe.next
    | with_reducible apply Safe.ite | (intro _) | fail_if_no_progress (with_reducible apply Inv.frame) | split

theorem execBri_safe {g : BitVec 4} {a : BitVec 5} {s : State} (hs : s.Inv) : Safe (execBri g a s) := by
  unfold execBri
  repeat' first
    | with_reducible exact hs | with_reducible assumption | with_reducible apply State.slot_safe
    | with_reducible apply State.leave_inv | with_reducible apply Safe.next | with_reducible apply Safe.ite | (intro _)
    | fail_if_no_progress (with_reducible apply Inv.frame) | split

theorem execRet_safe {g : BitVec 4} {a : BitVec 5} {s : State} (hs : s.Inv) : Safe (execRet g a s) := by
  unfold execRet
  repeat' first
    | with_reducible exact hs | with_reducible assumption | with_reducible apply State.slot_safe
    | with_reducible apply State.leave_inv | with_reducible apply Safe.next | with_reducible apply Safe.ite | (intro _)
    | fail_if_no_progress (with_reducible apply Inv.frame) | split

theorem execLoop_safe {g : BitVec 4} {l : BitVec 2} {e : BitVec 10} {a : BitVec 5} {s : State} (hs : s.Inv) : Safe (execLoop
    g l e a s) := by
  unfold execLoop
  repeat' first
    | with_reducible exact hs | with_reducible assumption | with_reducible apply State.put_inv
    | with_reducible apply State.slot_safe | with_reducible apply Safe.next | with_reducible apply Safe.ite | (intro _)
    | fail_if_no_progress (with_reducible apply Inv.frame) | split

theorem State.waitFor_safe {s : State} {done : Bool} (hs : s.Inv) : Safe (State.waitFor s done) := by
  unfold State.waitFor
  repeat' first
    | with_reducible exact hs | with_reducible assumption | with_reducible apply Safe.next | with_reducible apply Safe.ite
    | (intro _) | fail_if_no_progress (with_reducible apply Inv.frame) | split

theorem execWait_safe {_g l st c t : BitVec 4} {s : State} (hs : s.Inv) : Safe (execWait _g l st c t s) := by
  unfold execWait
  repeat' first
    | with_reducible exact hs | with_reducible assumption | with_reducible apply State.waitFor_safe
    | with_reducible apply Safe.next | with_reducible apply Safe.ite | (intro _)
    | fail_if_no_progress (with_reducible apply Inv.frame) | split

theorem execWaitt_safe {_g c : BitVec 4} {a : BitVec 5} {s : State} (hs : s.Inv) : Safe (execWaitt _g c a s) := by
  unfold execWaitt
  repeat' first
    | with_reducible exact hs | with_reducible assumption | with_reducible apply State.waitFor_safe
    | with_reducible apply Safe.next | with_reducible apply Safe.ite | (intro _)
    | fail_if_no_progress (with_reducible apply Inv.frame) | split

theorem execFence_safe {_g : BitVec 4} {s : State} (hs : s.Inv) : Safe (execFence _g s) := by
  unfold execFence
  repeat' first
    | with_reducible exact hs | with_reducible assumption | with_reducible apply State.waitFor_safe
    | with_reducible apply Safe.next | with_reducible apply Safe.ite | (intro _)
    | fail_if_no_progress (with_reducible apply Inv.frame) | split

theorem execLpoff_safe {g : BitVec 4} {l : BitVec 2} {s : State} (hs : s.Inv) : Safe (execLpoff g l s) := by
  unfold execLpoff
  repeat' first
    | with_reducible exact hs | with_reducible assumption | with_reducible apply State.put_inv
    | with_reducible apply State.slot_safe | with_reducible apply Safe.next | with_reducible apply Safe.ite | (intro _)
    | fail_if_no_progress (with_reducible apply Inv.frame) | split

theorem State.slotLoad_safe {s : State} {g : BitVec 4} {size : Nat} {d : BitVec 5} {a : BitVec 4} {u : BitVec 1} {off :
    BitVec 18} (hs : s.Inv) : Safe (State.slotLoad s g size d a u off) := by
  unfold State.slotLoad
  repeat' first
    | with_reducible exact hs | with_reducible assumption | with_reducible apply State.slot_safe
    | with_reducible apply State.postInc_inv | with_reducible apply State.startLoad_inv | with_reducible apply Safe.next
    | with_reducible apply Safe.ite | (intro _) | fail_if_no_progress (with_reducible apply Inv.frame) | split

theorem State.slotStore_safe {s : State} {g : BitVec 4} {size : Nat} {d : BitVec 5} {a : BitVec 4} {u : BitVec 1} {off :
    BitVec 18} (hs : s.Inv) : Safe (State.slotStore s g size d a u off) := by
  unfold State.slotStore
  repeat' first
    | with_reducible exact hs | with_reducible assumption | with_reducible apply State.slot_safe
    | with_reducible apply State.postInc_inv | with_reducible apply State.startStore_inv | with_reducible apply Safe.next
    | with_reducible apply Safe.ite | (intro _) | fail_if_no_progress (with_reducible apply Inv.frame) | split

theorem State.slotAtomic_safe {s : State} {g : BitVec 4} {size : Nat} {d : BitVec 5} {a : BitVec 4} {u : BitVec 1} {op :
    BitVec 4} {off : BitVec 6} (hs : s.Inv) : Safe (State.slotAtomic s g size d a u op off) := by
  unfold State.slotAtomic
  repeat' first
    | with_reducible exact hs | with_reducible assumption | with_reducible apply State.slot_safe
    | with_reducible apply State.postInc_inv | with_reducible apply State.startAtomic_inv | with_reducible apply Safe.next
    | with_reducible apply Safe.ite | (intro _) | fail_if_no_progress (with_reducible apply Inv.frame) | split

theorem execLdB_safe {g : BitVec 4} {d : BitVec 5} {a : BitVec 4} {u : BitVec 1} {off : BitVec 18} {s : State} (hs : s.Inv)
    : Safe (execLdB g d a u off s) := by
  unfold execLdB
  repeat' first
    | with_reducible exact hs | with_reducible assumption | with_reducible apply State.slotLoad_safe
    | with_reducible apply Safe.next | with_reducible apply Safe.ite | (intro _)
    | fail_if_no_progress (with_reducible apply Inv.frame) | split

theorem execLdH_safe {g : BitVec 4} {d : BitVec 5} {a : BitVec 4} {u : BitVec 1} {off : BitVec 18} {s : State} (hs : s.Inv)
    : Safe (execLdH g d a u off s) := by
  unfold execLdH
  repeat' first
    | with_reducible exact hs | with_reducible assumption | with_reducible apply State.slotLoad_safe
    | with_reducible apply Safe.next | with_reducible apply Safe.ite | (intro _)
    | fail_if_no_progress (with_reducible apply Inv.frame) | split

theorem execLdW_safe {g : BitVec 4} {d : BitVec 5} {a : BitVec 4} {u : BitVec 1} {off : BitVec 18} {s : State} (hs : s.Inv)
    : Safe (execLdW g d a u off s) := by
  unfold execLdW
  repeat' first
    | with_reducible exact hs | with_reducible assumption | with_reducible apply State.slotLoad_safe
    | with_reducible apply Safe.next | with_reducible apply Safe.ite | (intro _)
    | fail_if_no_progress (with_reducible apply Inv.frame) | split

theorem execLdD_safe {g : BitVec 4} {d : BitVec 5} {a : BitVec 4} {u : BitVec 1} {off : BitVec 18} {s : State} (hs : s.Inv)
    : Safe (execLdD g d a u off s) := by
  unfold execLdD
  repeat' first
    | with_reducible exact hs | with_reducible assumption | with_reducible apply State.slotLoad_safe
    | with_reducible apply Safe.next | with_reducible apply Safe.ite | (intro _)
    | fail_if_no_progress (with_reducible apply Inv.frame) | split

theorem execStB_safe {g : BitVec 4} {d : BitVec 5} {a : BitVec 4} {u : BitVec 1} {off : BitVec 18} {s : State} (hs : s.Inv)
    : Safe (execStB g d a u off s) := by
  unfold execStB
  repeat' first
    | with_reducible exact hs | with_reducible assumption | with_reducible apply State.slotStore_safe
    | with_reducible apply Safe.next | with_reducible apply Safe.ite | (intro _)
    | fail_if_no_progress (with_reducible apply Inv.frame) | split

theorem execStH_safe {g : BitVec 4} {d : BitVec 5} {a : BitVec 4} {u : BitVec 1} {off : BitVec 18} {s : State} (hs : s.Inv)
    : Safe (execStH g d a u off s) := by
  unfold execStH
  repeat' first
    | with_reducible exact hs | with_reducible assumption | with_reducible apply State.slotStore_safe
    | with_reducible apply Safe.next | with_reducible apply Safe.ite | (intro _)
    | fail_if_no_progress (with_reducible apply Inv.frame) | split

theorem execStW_safe {g : BitVec 4} {d : BitVec 5} {a : BitVec 4} {u : BitVec 1} {off : BitVec 18} {s : State} (hs : s.Inv)
    : Safe (execStW g d a u off s) := by
  unfold execStW
  repeat' first
    | with_reducible exact hs | with_reducible assumption | with_reducible apply State.slotStore_safe
    | with_reducible apply Safe.next | with_reducible apply Safe.ite | (intro _)
    | fail_if_no_progress (with_reducible apply Inv.frame) | split

theorem execStD_safe {g : BitVec 4} {d : BitVec 5} {a : BitVec 4} {u : BitVec 1} {off : BitVec 18} {s : State} (hs : s.Inv)
    : Safe (execStD g d a u off s) := by
  unfold execStD
  repeat' first
    | with_reducible exact hs | with_reducible assumption | with_reducible apply State.slotStore_safe
    | with_reducible apply Safe.next | with_reducible apply Safe.ite | (intro _)
    | fail_if_no_progress (with_reducible apply Inv.frame) | split

theorem execAtmW_safe {g : BitVec 4} {d : BitVec 5} {a : BitVec 4} {u : BitVec 1} {p : BitVec 4} {o : BitVec 6} {s : State}
    (hs : s.Inv) : Safe (execAtmW g d a u p o s) := by
  unfold execAtmW
  repeat' first
    | with_reducible exact hs | with_reducible assumption | with_reducible apply State.slotAtomic_safe
    | with_reducible apply Safe.next | with_reducible apply Safe.ite | (intro _)
    | fail_if_no_progress (with_reducible apply Inv.frame) | split

theorem execAtmD_safe {g : BitVec 4} {d : BitVec 5} {a : BitVec 4} {u : BitVec 1} {p : BitVec 4} {o : BitVec 6} {s : State}
    (hs : s.Inv) : Safe (execAtmD g d a u p o s) := by
  unfold execAtmD
  repeat' first
    | with_reducible exact hs | with_reducible assumption | with_reducible apply State.slotAtomic_safe
    | with_reducible apply Safe.next | with_reducible apply Safe.ite | (intro _)
    | fail_if_no_progress (with_reducible apply Inv.frame) | split

theorem State.vput_inv {s : State} {lat : Nat} {d : BitVec 5} {lanes : BitVec 1024} {f : Nat → W32 × BitVec 6} (hs : s.Inv)
    : (State.vput s lat d lanes f).Inv := by
  unfold State.vput
  repeat' first
    | with_reducible exact hs | with_reducible assumption | with_reducible apply State.push_inv
    | (with_reducible apply foldl_inv; intro _ _ _) | with_reducible apply Inv.ite | (intro _)
    | fail_if_no_progress (with_reducible apply Inv.frame) | split

theorem State.slotV2_safe {s : State} {g : BitVec 4} {lat : Nat} {d a b : BitVec 5} {k : BitVec 3} {f : W32 → W32 → W32 ×
    BitVec 6} (hs : s.Inv) : Safe (State.slotV2 s g lat d a b k f) := by
  unfold State.slotV2
  repeat' first
    | with_reducible exact hs | with_reducible assumption | with_reducible apply State.slot_safe
    | with_reducible apply State.vput_inv | with_reducible apply Safe.next | with_reducible apply Safe.ite | (intro _)
    | fail_if_no_progress (with_reducible apply Inv.frame) | split

theorem State.slotV3_safe {s : State} {g : BitVec 4} {lat : Nat} {d a b c : BitVec 5} {k : BitVec 3} {f : W32 → W32 → W32 →
    W32 × BitVec 6} (hs : s.Inv) : Safe (State.slotV3 s g lat d a b c k f) := by
  unfold State.slotV3
  repeat' first
    | with_reducible exact hs | with_reducible assumption | with_reducible apply State.slot_safe
    | with_reducible apply State.vput_inv | with_reducible apply Safe.next | with_reducible apply Safe.ite | (intro _)
    | fail_if_no_progress (with_reducible apply Inv.frame) | split

theorem execVand_safe {g : BitVec 4} {d a b : BitVec 5} {k : BitVec 3} {s : State} (hs : s.Inv) : Safe (execVand g d a b k
    s) := by
  unfold execVand
  repeat' first
    | with_reducible exact hs | with_reducible assumption | with_reducible apply State.slotV2_safe
    | with_reducible apply Safe.next | with_reducible apply Safe.ite | (intro _)
    | fail_if_no_progress (with_reducible apply Inv.frame) | split

theorem execVor_safe {g : BitVec 4} {d a b : BitVec 5} {k : BitVec 3} {s : State} (hs : s.Inv) : Safe (execVor g d a b k s)
    := by
  unfold execVor
  repeat' first
    | with_reducible exact hs | with_reducible assumption | with_reducible apply State.slotV2_safe
    | with_reducible apply Safe.next | with_reducible apply Safe.ite | (intro _)
    | fail_if_no_progress (with_reducible apply Inv.frame) | split

theorem execVxor_safe {g : BitVec 4} {d a b : BitVec 5} {k : BitVec 3} {s : State} (hs : s.Inv) : Safe (execVxor g d a b k
    s) := by
  unfold execVxor
  repeat' first
    | with_reducible exact hs | with_reducible assumption | with_reducible apply State.slotV2_safe
    | with_reducible apply Safe.next | with_reducible apply Safe.ite | (intro _)
    | fail_if_no_progress (with_reducible apply Inv.frame) | split

theorem execVandn_safe {g : BitVec 4} {d a b : BitVec 5} {k : BitVec 3} {s : State} (hs : s.Inv) : Safe (execVandn g d a b k
    s) := by
  unfold execVandn
  repeat' first
    | with_reducible exact hs | with_reducible assumption | with_reducible apply State.slotV2_safe
    | with_reducible apply Safe.next | with_reducible apply Safe.ite | (intro _)
    | fail_if_no_progress (with_reducible apply Inv.frame) | split

theorem execVaddI32_safe {g : BitVec 4} {d a b : BitVec 5} {k : BitVec 3} {s : State} (hs : s.Inv) : Safe (execVaddI32 g d a
    b k s) := by
  unfold execVaddI32
  repeat' first
    | with_reducible exact hs | with_reducible assumption | with_reducible apply State.slotV2_safe
    | with_reducible apply Safe.next | with_reducible apply Safe.ite | (intro _)
    | fail_if_no_progress (with_reducible apply Inv.frame) | split

theorem execVsubI32_safe {g : BitVec 4} {d a b : BitVec 5} {k : BitVec 3} {s : State} (hs : s.Inv) : Safe (execVsubI32 g d a
    b k s) := by
  unfold execVsubI32
  repeat' first
    | with_reducible exact hs | with_reducible assumption | with_reducible apply State.slotV2_safe
    | with_reducible apply Safe.next | with_reducible apply Safe.ite | (intro _)
    | fail_if_no_progress (with_reducible apply Inv.frame) | split

theorem execVmulI32_safe {g : BitVec 4} {d a b : BitVec 5} {k : BitVec 3} {s : State} (hs : s.Inv) : Safe (execVmulI32 g d a
    b k s) := by
  unfold execVmulI32
  repeat' first
    | with_reducible exact hs | with_reducible assumption | with_reducible apply State.slotV2_safe
    | with_reducible apply Safe.next | with_reducible apply Safe.ite | (intro _)
    | fail_if_no_progress (with_reducible apply Inv.frame) | split

theorem execVaddI16_safe {g : BitVec 4} {d a b : BitVec 5} {k : BitVec 3} {s : State} (hs : s.Inv) : Safe (execVaddI16 g d a
    b k s) := by
  unfold execVaddI16
  repeat' first
    | with_reducible exact hs | with_reducible assumption | with_reducible apply State.slotV2_safe
    | with_reducible apply Safe.next | with_reducible apply Safe.ite | (intro _)
    | fail_if_no_progress (with_reducible apply Inv.frame) | split

theorem execVsubI16_safe {g : BitVec 4} {d a b : BitVec 5} {k : BitVec 3} {s : State} (hs : s.Inv) : Safe (execVsubI16 g d a
    b k s) := by
  unfold execVsubI16
  repeat' first
    | with_reducible exact hs | with_reducible assumption | with_reducible apply State.slotV2_safe
    | with_reducible apply Safe.next | with_reducible apply Safe.ite | (intro _)
    | fail_if_no_progress (with_reducible apply Inv.frame) | split

theorem execVaddsI16_safe {g : BitVec 4} {d a b : BitVec 5} {k : BitVec 3} {s : State} (hs : s.Inv) : Safe (execVaddsI16 g d
    a b k s) := by
  unfold execVaddsI16
  repeat' first
    | with_reducible exact hs | with_reducible assumption | with_reducible apply State.slotV2_safe
    | with_reducible apply Safe.next | with_reducible apply Safe.ite | (intro _)
    | fail_if_no_progress (with_reducible apply Inv.frame) | split

theorem execVsubsI16_safe {g : BitVec 4} {d a b : BitVec 5} {k : BitVec 3} {s : State} (hs : s.Inv) : Safe (execVsubsI16 g d
    a b k s) := by
  unfold execVsubsI16
  repeat' first
    | with_reducible exact hs | with_reducible assumption | with_reducible apply State.slotV2_safe
    | with_reducible apply Safe.next | with_reducible apply Safe.ite | (intro _)
    | fail_if_no_progress (with_reducible apply Inv.frame) | split

theorem execVaddI8_safe {g : BitVec 4} {d a b : BitVec 5} {k : BitVec 3} {s : State} (hs : s.Inv) : Safe (execVaddI8 g d a b
    k s) := by
  unfold execVaddI8
  repeat' first
    | with_reducible exact hs | with_reducible assumption | with_reducible apply State.slotV2_safe
    | with_reducible apply Safe.next | with_reducible apply Safe.ite | (intro _)
    | fail_if_no_progress (with_reducible apply Inv.frame) | split

theorem execVsubI8_safe {g : BitVec 4} {d a b : BitVec 5} {k : BitVec 3} {s : State} (hs : s.Inv) : Safe (execVsubI8 g d a b
    k s) := by
  unfold execVsubI8
  repeat' first
    | with_reducible exact hs | with_reducible assumption | with_reducible apply State.slotV2_safe
    | with_reducible apply Safe.next | with_reducible apply Safe.ite | (intro _)
    | fail_if_no_progress (with_reducible apply Inv.frame) | split

theorem execVaddsI8_safe {g : BitVec 4} {d a b : BitVec 5} {k : BitVec 3} {s : State} (hs : s.Inv) : Safe (execVaddsI8 g d a
    b k s) := by
  unfold execVaddsI8
  repeat' first
    | with_reducible exact hs | with_reducible assumption | with_reducible apply State.slotV2_safe
    | with_reducible apply Safe.next | with_reducible apply Safe.ite | (intro _)
    | fail_if_no_progress (with_reducible apply Inv.frame) | split

theorem execVsubsI8_safe {g : BitVec 4} {d a b : BitVec 5} {k : BitVec 3} {s : State} (hs : s.Inv) : Safe (execVsubsI8 g d a
    b k s) := by
  unfold execVsubsI8
  repeat' first
    | with_reducible exact hs | with_reducible assumption | with_reducible apply State.slotV2_safe
    | with_reducible apply Safe.next | with_reducible apply Safe.ite | (intro _)
    | fail_if_no_progress (with_reducible apply Inv.frame) | split

theorem execVminI32_safe {g : BitVec 4} {d a b : BitVec 5} {k : BitVec 3} {s : State} (hs : s.Inv) : Safe (execVminI32 g d a
    b k s) := by
  unfold execVminI32
  repeat' first
    | with_reducible exact hs | with_reducible assumption | with_reducible apply State.slotV2_safe
    | with_reducible apply Safe.next | with_reducible apply Safe.ite | (intro _)
    | fail_if_no_progress (with_reducible apply Inv.frame) | split

theorem execVmaxI32_safe {g : BitVec 4} {d a b : BitVec 5} {k : BitVec 3} {s : State} (hs : s.Inv) : Safe (execVmaxI32 g d a
    b k s) := by
  unfold execVmaxI32
  repeat' first
    | with_reducible exact hs | with_reducible assumption | with_reducible apply State.slotV2_safe
    | with_reducible apply Safe.next | with_reducible apply Safe.ite | (intro _)
    | fail_if_no_progress (with_reducible apply Inv.frame) | split

theorem execVminN32_safe {g : BitVec 4} {d a b : BitVec 5} {k : BitVec 3} {s : State} (hs : s.Inv) : Safe (execVminN32 g d a
    b k s) := by
  unfold execVminN32
  repeat' first
    | with_reducible exact hs | with_reducible assumption | with_reducible apply State.slotV2_safe
    | with_reducible apply Safe.next | with_reducible apply Safe.ite | (intro _)
    | fail_if_no_progress (with_reducible apply Inv.frame) | split

theorem execVmaxN32_safe {g : BitVec 4} {d a b : BitVec 5} {k : BitVec 3} {s : State} (hs : s.Inv) : Safe (execVmaxN32 g d a
    b k s) := by
  unfold execVmaxN32
  repeat' first
    | with_reducible exact hs | with_reducible assumption | with_reducible apply State.slotV2_safe
    | with_reducible apply Safe.next | with_reducible apply Safe.ite | (intro _)
    | fail_if_no_progress (with_reducible apply Inv.frame) | split

theorem execVshlI32_safe {g : BitVec 4} {d a b : BitVec 5} {k : BitVec 3} {s : State} (hs : s.Inv) : Safe (execVshlI32 g d a
    b k s) := by
  unfold execVshlI32
  repeat' first
    | with_reducible exact hs | with_reducible assumption | with_reducible apply State.slotV2_safe
    | with_reducible apply Safe.next | with_reducible apply Safe.ite | (intro _)
    | fail_if_no_progress (with_reducible apply Inv.frame) | split

theorem execVshrN32_safe {g : BitVec 4} {d a b : BitVec 5} {k : BitVec 3} {s : State} (hs : s.Inv) : Safe (execVshrN32 g d a
    b k s) := by
  unfold execVshrN32
  repeat' first
    | with_reducible exact hs | with_reducible assumption | with_reducible apply State.slotV2_safe
    | with_reducible apply Safe.next | with_reducible apply Safe.ite | (intro _)
    | fail_if_no_progress (with_reducible apply Inv.frame) | split

theorem execVsarI32_safe {g : BitVec 4} {d a b : BitVec 5} {k : BitVec 3} {s : State} (hs : s.Inv) : Safe (execVsarI32 g d a
    b k s) := by
  unfold execVsarI32
  repeat' first
    | with_reducible exact hs | with_reducible assumption | with_reducible apply State.slotV2_safe
    | with_reducible apply Safe.next | with_reducible apply Safe.ite | (intro _)
    | fail_if_no_progress (with_reducible apply Inv.frame) | split

theorem execVdot4I8_safe {g : BitVec 4} {d a b : BitVec 5} {k : BitVec 3} {c : BitVec 5} {s : State} (hs : s.Inv) : Safe
    (execVdot4I8 g d a b k c s) := by
  unfold execVdot4I8
  repeat' first
    | with_reducible exact hs | with_reducible assumption | with_reducible apply State.encSlot_safe
    | with_reducible apply State.slotV3_safe | with_reducible apply Safe.next | with_reducible apply Safe.ite | (intro _)
    | fail_if_no_progress (with_reducible apply Inv.frame) | split

theorem execVdot4N8_safe {g : BitVec 4} {d a b : BitVec 5} {k : BitVec 3} {c : BitVec 5} {s : State} (hs : s.Inv) : Safe
    (execVdot4N8 g d a b k c s) := by
  unfold execVdot4N8
  repeat' first
    | with_reducible exact hs | with_reducible assumption | with_reducible apply State.encSlot_safe
    | with_reducible apply State.slotV3_safe | with_reducible apply Safe.next | with_reducible apply Safe.ite | (intro _)
    | fail_if_no_progress (with_reducible apply Inv.frame) | split

theorem execVdot2I16_safe {g : BitVec 4} {d a b : BitVec 5} {k : BitVec 3} {c : BitVec 5} {s : State} (hs : s.Inv) : Safe
    (execVdot2I16 g d a b k c s) := by
  unfold execVdot2I16
  repeat' first
    | with_reducible exact hs | with_reducible assumption | with_reducible apply State.encSlot_safe
    | with_reducible apply State.slotV3_safe | with_reducible apply Safe.next | with_reducible apply Safe.ite | (intro _)
    | fail_if_no_progress (with_reducible apply Inv.frame) | split

theorem execVdot2N16_safe {g : BitVec 4} {d a b : BitVec 5} {k : BitVec 3} {c : BitVec 5} {s : State} (hs : s.Inv) : Safe
    (execVdot2N16 g d a b k c s) := by
  unfold execVdot2N16
  repeat' first
    | with_reducible exact hs | with_reducible assumption | with_reducible apply State.encSlot_safe
    | with_reducible apply State.slotV3_safe | with_reducible apply Safe.next | with_reducible apply Safe.ite | (intro _)
    | fail_if_no_progress (with_reducible apply Inv.frame) | split

theorem execVaddF32_safe {g : BitVec 4} {d a b : BitVec 5} {k : BitVec 3} {s : State} (hs : s.Inv) : Safe (execVaddF32 g d a
    b k s) := by
  unfold execVaddF32
  repeat' first
    | with_reducible exact hs | with_reducible assumption | with_reducible apply State.slotV2_safe
    | with_reducible apply Safe.next | with_reducible apply Safe.ite | (intro _)
    | fail_if_no_progress (with_reducible apply Inv.frame) | split

theorem execVsubF32_safe {g : BitVec 4} {d a b : BitVec 5} {k : BitVec 3} {s : State} (hs : s.Inv) : Safe (execVsubF32 g d a
    b k s) := by
  unfold execVsubF32
  repeat' first
    | with_reducible exact hs | with_reducible assumption | with_reducible apply State.slotV2_safe
    | with_reducible apply Safe.next | with_reducible apply Safe.ite | (intro _)
    | fail_if_no_progress (with_reducible apply Inv.frame) | split

theorem execVmulF32_safe {g : BitVec 4} {d a b : BitVec 5} {k : BitVec 3} {s : State} (hs : s.Inv) : Safe (execVmulF32 g d a
    b k s) := by
  unfold execVmulF32
  repeat' first
    | with_reducible exact hs | with_reducible assumption | with_reducible apply State.slotV2_safe
    | with_reducible apply Safe.next | with_reducible apply Safe.ite | (intro _)
    | fail_if_no_progress (with_reducible apply Inv.frame) | split

theorem execVfmaF32_safe {g : BitVec 4} {d a b : BitVec 5} {k : BitVec 3} {c : BitVec 5} {s : State} (hs : s.Inv) : Safe
    (execVfmaF32 g d a b k c s) := by
  unfold execVfmaF32
  repeat' first
    | with_reducible exact hs | with_reducible assumption | with_reducible apply State.slotV3_safe
    | with_reducible apply Safe.next | with_reducible apply Safe.ite | (intro _)
    | fail_if_no_progress (with_reducible apply Inv.frame) | split

theorem execVfmsF32_safe {g : BitVec 4} {d a b : BitVec 5} {k : BitVec 3} {c : BitVec 5} {s : State} (hs : s.Inv) : Safe
    (execVfmsF32 g d a b k c s) := by
  unfold execVfmsF32
  repeat' first
    | with_reducible exact hs | with_reducible assumption | with_reducible apply State.slotV3_safe
    | with_reducible apply Safe.next | with_reducible apply Safe.ite | (intro _)
    | fail_if_no_progress (with_reducible apply Inv.frame) | split

theorem execVminF32_safe {g : BitVec 4} {d a b : BitVec 5} {k : BitVec 3} {s : State} (hs : s.Inv) : Safe (execVminF32 g d a
    b k s) := by
  unfold execVminF32
  repeat' first
    | with_reducible exact hs | with_reducible assumption | with_reducible apply State.slotV2_safe
    | with_reducible apply Safe.next | with_reducible apply Safe.ite | (intro _)
    | fail_if_no_progress (with_reducible apply Inv.frame) | split

theorem execVmaxF32_safe {g : BitVec 4} {d a b : BitVec 5} {k : BitVec 3} {s : State} (hs : s.Inv) : Safe (execVmaxF32 g d a
    b k s) := by
  unfold execVmaxF32
  repeat' first
    | with_reducible exact hs | with_reducible assumption | with_reducible apply State.slotV2_safe
    | with_reducible apply Safe.next | with_reducible apply Safe.ite | (intro _)
    | fail_if_no_progress (with_reducible apply Inv.frame) | split

theorem execVsubBf16_safe {g : BitVec 4} {d a b : BitVec 5} {k : BitVec 3} {s : State} (hs : s.Inv) : Safe (execVsubBf16 g d
    a b k s) := by
  unfold execVsubBf16
  repeat' first
    | with_reducible exact hs | with_reducible assumption | with_reducible apply State.slotV2_safe
    | with_reducible apply Safe.next | with_reducible apply Safe.ite | (intro _)
    | fail_if_no_progress (with_reducible apply Inv.frame) | split

theorem execVaddBf16_safe {g : BitVec 4} {d a b : BitVec 5} {k : BitVec 3} {s : State} (hs : s.Inv) : Safe (execVaddBf16 g d
    a b k s) := by
  unfold execVaddBf16
  repeat' first
    | with_reducible exact hs | with_reducible assumption | with_reducible apply State.slotV2_safe
    | with_reducible apply Safe.next | with_reducible apply Safe.ite | (intro _)
    | fail_if_no_progress (with_reducible apply Inv.frame) | split

theorem execVmulBf16_safe {g : BitVec 4} {d a b : BitVec 5} {k : BitVec 3} {s : State} (hs : s.Inv) : Safe (execVmulBf16 g d
    a b k s) := by
  unfold execVmulBf16
  repeat' first
    | with_reducible exact hs | with_reducible assumption | with_reducible apply State.slotV2_safe
    | with_reducible apply Safe.next | with_reducible apply Safe.ite | (intro _)
    | fail_if_no_progress (with_reducible apply Inv.frame) | split

theorem execVaddF16_safe {g : BitVec 4} {d a b : BitVec 5} {k : BitVec 3} {s : State} (hs : s.Inv) : Safe (execVaddF16 g d a
    b k s) := by
  unfold execVaddF16
  repeat' first
    | with_reducible exact hs | with_reducible assumption | with_reducible apply State.slotV2_safe
    | with_reducible apply Safe.next | with_reducible apply Safe.ite | (intro _)
    | fail_if_no_progress (with_reducible apply Inv.frame) | split

theorem execVmulF16_safe {g : BitVec 4} {d a b : BitVec 5} {k : BitVec 3} {s : State} (hs : s.Inv) : Safe (execVmulF16 g d a
    b k s) := by
  unfold execVmulF16
  repeat' first
    | with_reducible exact hs | with_reducible assumption | with_reducible apply State.slotV2_safe
    | with_reducible apply Safe.next | with_reducible apply Safe.ite | (intro _)
    | fail_if_no_progress (with_reducible apply Inv.frame) | split

theorem execVfmaBf16_safe {g : BitVec 4} {d a b : BitVec 5} {k : BitVec 3} {c : BitVec 5} {s : State} (hs : s.Inv) : Safe
    (execVfmaBf16 g d a b k c s) := by
  unfold execVfmaBf16
  repeat' first
    | with_reducible exact hs | with_reducible assumption | with_reducible apply State.slotV3_safe
    | with_reducible apply Safe.next | with_reducible apply Safe.ite | (intro _)
    | fail_if_no_progress (with_reducible apply Inv.frame) | split

theorem execVfmaF16_safe {g : BitVec 4} {d a b : BitVec 5} {k : BitVec 3} {c : BitVec 5} {s : State} (hs : s.Inv) : Safe
    (execVfmaF16 g d a b k c s) := by
  unfold execVfmaF16
  repeat' first
    | with_reducible exact hs | with_reducible assumption | with_reducible apply State.slotV3_safe
    | with_reducible apply Safe.next | with_reducible apply Safe.ite | (intro _)
    | fail_if_no_progress (with_reducible apply Inv.frame) | split

theorem execVrcpaF32_safe {g : BitVec 4} {d a : BitVec 5} {k : BitVec 3} {s : State} (hs : s.Inv) : Safe (execVrcpaF32 g d a
    k s) := by
  unfold execVrcpaF32
  repeat' first
    | with_reducible exact hs | with_reducible assumption | with_reducible apply State.slot_safe
    | with_reducible apply State.vput_inv | with_reducible apply Safe.next | with_reducible apply Safe.ite | (intro _)
    | fail_if_no_progress (with_reducible apply Inv.frame) | split

theorem execVrsqaF32_safe {g : BitVec 4} {d a : BitVec 5} {k : BitVec 3} {s : State} (hs : s.Inv) : Safe (execVrsqaF32 g d a
    k s) := by
  unfold execVrsqaF32
  repeat' first
    | with_reducible exact hs | with_reducible assumption | with_reducible apply State.slot_safe
    | with_reducible apply State.vput_inv | with_reducible apply Safe.next | with_reducible apply Safe.ite | (intro _)
    | fail_if_no_progress (with_reducible apply Inv.frame) | split

theorem State.takeDraws_inv {s : State} {mode : Rnd} {n : Nat} (hs : s.Inv) : (State.takeDraws s mode n).2.Inv := by
  unfold State.takeDraws
  repeat' first
    | with_reducible exact hs | with_reducible assumption | with_reducible apply Inv.ite | (intro _)
    | fail_if_no_progress (with_reducible apply Inv.frame) | split

theorem State.slotCvt_safe {s : State} {g : BitVec 4} {d a : BitVec 5} {m : BitVec 2} {k : BitVec 3} {f : Nat → Nat → Nat ×
    BitVec 6} (hs : s.Inv) : Safe (State.slotCvt s g d a m k f) := by
  unfold State.slotCvt
  repeat' first
    | with_reducible exact hs | with_reducible assumption | with_reducible apply State.slot_safe
    | with_reducible apply State.vput_inv | with_reducible apply State.takeDraws_inv | with_reducible apply Safe.next
    | with_reducible apply Safe.ite | (intro _) | fail_if_no_progress (with_reducible apply Inv.frame) | split

theorem execVcvtF32I32_safe {g : BitVec 4} {d a : BitVec 5} {m : BitVec 2} {k : BitVec 3} {s : State} (hs : s.Inv) : Safe
    (execVcvtF32I32 g d a m k s) := by
  unfold execVcvtF32I32
  repeat' first
    | with_reducible exact hs | with_reducible assumption | with_reducible apply State.slotCvt_safe
    | with_reducible apply Safe.next | with_reducible apply Safe.ite | (intro _)
    | fail_if_no_progress (with_reducible apply Inv.frame) | split

theorem execVcvtF32N32_safe {g : BitVec 4} {d a : BitVec 5} {m : BitVec 2} {k : BitVec 3} {s : State} (hs : s.Inv) : Safe
    (execVcvtF32N32 g d a m k s) := by
  unfold execVcvtF32N32
  repeat' first
    | with_reducible exact hs | with_reducible assumption | with_reducible apply State.slotCvt_safe
    | with_reducible apply Safe.next | with_reducible apply Safe.ite | (intro _)
    | fail_if_no_progress (with_reducible apply Inv.frame) | split

theorem execVcvtI32F32_safe {g : BitVec 4} {d a : BitVec 5} {m : BitVec 2} {k : BitVec 3} {s : State} (hs : s.Inv) : Safe
    (execVcvtI32F32 g d a m k s) := by
  unfold execVcvtI32F32
  repeat' first
    | with_reducible exact hs | with_reducible assumption | with_reducible apply State.slotCvt_safe
    | with_reducible apply Safe.next | with_reducible apply Safe.ite | (intro _)
    | fail_if_no_progress (with_reducible apply Inv.frame) | split

theorem execVcvtN32F32_safe {g : BitVec 4} {d a : BitVec 5} {m : BitVec 2} {k : BitVec 3} {s : State} (hs : s.Inv) : Safe
    (execVcvtN32F32 g d a m k s) := by
  unfold execVcvtN32F32
  repeat' first
    | with_reducible exact hs | with_reducible assumption | with_reducible apply State.slotCvt_safe
    | with_reducible apply Safe.next | with_reducible apply Safe.ite | (intro _)
    | fail_if_no_progress (with_reducible apply Inv.frame) | split

theorem State.slotNarrow_safe {s : State} {g : BitVec 4} {d a : BitVec 5} {m : BitVec 2} {k : BitVec 3} {w : Nat} {f : Nat →
    Nat → Nat × BitVec 6} (hs : s.Inv) : Safe (State.slotNarrow s g d a m k w f) := by
  unfold State.slotNarrow
  repeat' first
    | with_reducible exact hs | with_reducible assumption | with_reducible apply State.slot_safe
    | with_reducible apply State.vput_inv | with_reducible apply State.takeDraws_inv | with_reducible apply Safe.next
    | (with_reducible apply foldl_inv; intro _ _ _) | with_reducible apply Safe.ite | (intro _)
    | fail_if_no_progress (with_reducible apply Inv.frame) | split

theorem execVcvtBf16F32_safe {g : BitVec 4} {d a : BitVec 5} {m : BitVec 2} {k : BitVec 3} {s : State} (hs : s.Inv) : Safe
    (execVcvtBf16F32 g d a m k s) := by
  unfold execVcvtBf16F32
  repeat' first
    | with_reducible exact hs | with_reducible assumption | with_reducible apply State.slotNarrow_safe
    | with_reducible apply Safe.next | with_reducible apply Safe.ite | (intro _)
    | fail_if_no_progress (with_reducible apply Inv.frame) | split

theorem execVcvtF16F32_safe {g : BitVec 4} {d a : BitVec 5} {m : BitVec 2} {k : BitVec 3} {s : State} (hs : s.Inv) : Safe
    (execVcvtF16F32 g d a m k s) := by
  unfold execVcvtF16F32
  repeat' first
    | with_reducible exact hs | with_reducible assumption | with_reducible apply State.slotNarrow_safe
    | with_reducible apply Safe.next | with_reducible apply Safe.ite | (intro _)
    | fail_if_no_progress (with_reducible apply Inv.frame) | split

theorem execVcvtE4m3F32_safe {g : BitVec 4} {d a : BitVec 5} {m : BitVec 2} {n : BitVec 1} {k : BitVec 3} {s : State} (hs :
    s.Inv) : Safe (execVcvtE4m3F32 g d a m n k s) := by
  unfold execVcvtE4m3F32
  repeat' first
    | with_reducible exact hs | with_reducible assumption | with_reducible apply State.slotNarrow_safe
    | with_reducible apply Safe.next | with_reducible apply Safe.ite | (intro _)
    | fail_if_no_progress (with_reducible apply Inv.frame) | split

theorem execVcvtE5m2F32_safe {g : BitVec 4} {d a : BitVec 5} {m : BitVec 2} {n : BitVec 1} {k : BitVec 3} {s : State} (hs :
    s.Inv) : Safe (execVcvtE5m2F32 g d a m n k s) := by
  unfold execVcvtE5m2F32
  repeat' first
    | with_reducible exact hs | with_reducible assumption | with_reducible apply State.slotNarrow_safe
    | with_reducible apply Safe.next | with_reducible apply Safe.ite | (intro _)
    | fail_if_no_progress (with_reducible apply Inv.frame) | split

theorem execVcvtF32Widen_safe {g : BitVec 4} {d a : BitVec 5} {f : BitVec 2} {k : BitVec 3} {s : State} (hs : s.Inv) : Safe
    (execVcvtF32Widen g d a f k s) := by
  unfold execVcvtF32Widen
  repeat' first
    | with_reducible exact hs | with_reducible assumption | with_reducible apply State.slot_safe
    | with_reducible apply State.vput_inv | with_reducible apply Safe.next | (with_reducible apply foldl_inv; intro _ _ _)
    | with_reducible apply Safe.ite | (intro _) | fail_if_no_progress (with_reducible apply Inv.frame) | split

theorem execVcvtQ4F32_safe {g : BitVec 4} {d a : BitVec 5} {m t : BitVec 2} {s : State} (hs : s.Inv) : Safe (execVcvtQ4F32 g
    d a m t s) := by
  unfold execVcvtQ4F32
  repeat' first
    | with_reducible exact hs | with_reducible assumption | with_reducible apply State.push_inv
    | with_reducible apply State.slot_safe | with_reducible apply State.takeDraws_inv | with_reducible apply Safe.next
    | (with_reducible apply foldl_inv; intro _ _ _) | with_reducible apply Safe.ite | (intro _)
    | fail_if_no_progress (with_reducible apply Inv.frame) | split

theorem execVcvtF32Q4_safe {g : BitVec 4} {d a : BitVec 5} {k : BitVec 3} {s : State} (hs : s.Inv) : Safe (execVcvtF32Q4 g d
    a k s) := by
  unfold execVcvtF32Q4
  repeat' first
    | with_reducible exact hs | with_reducible assumption | with_reducible apply State.slot_safe
    | with_reducible apply State.vput_inv | with_reducible apply Safe.next | with_reducible apply Safe.ite | (intro _)
    | fail_if_no_progress (with_reducible apply Inv.frame) | split

theorem State.slotVcmp_safe {s : State} {g : BitVec 4} {h : BitVec 3} {a b : BitVec 5} {k : BitVec 3} {f : W32 → W32 → Bool}
    (hs : s.Inv) : Safe (State.slotVcmp s g h a b k f) := by
  unfold State.slotVcmp
  repeat' first
    | with_reducible exact hs | with_reducible assumption | with_reducible apply State.put_inv
    | with_reducible apply State.slot_safe | with_reducible apply Safe.next | with_reducible apply Safe.ite | (intro _)
    | fail_if_no_progress (with_reducible apply Inv.frame) | split

theorem execVcmpF32_safe {g : BitVec 4} {c : BitVec 2} {h : BitVec 3} {a b : BitVec 5} {k : BitVec 3} {s : State} (hs :
    s.Inv) : Safe (execVcmpF32 g c h a b k s) := by
  unfold execVcmpF32
  repeat' first
    | with_reducible exact hs | with_reducible assumption | with_reducible apply State.slotVcmp_safe
    | with_reducible apply Safe.next | with_reducible apply Safe.ite | (intro _)
    | fail_if_no_progress (with_reducible apply Inv.frame) | split

theorem execVcmpI32_safe {g : BitVec 4} {c : BitVec 2} {h : BitVec 3} {a b : BitVec 5} {k : BitVec 3} {s : State} (hs :
    s.Inv) : Safe (execVcmpI32 g c h a b k s) := by
  unfold execVcmpI32
  repeat' first
    | with_reducible exact hs | with_reducible assumption | with_reducible apply State.slotVcmp_safe
    | with_reducible apply Safe.next | with_reducible apply Safe.ite | (intro _)
    | fail_if_no_progress (with_reducible apply Inv.frame) | split

theorem execVcmpN32_safe {g : BitVec 4} {c : BitVec 2} {h : BitVec 3} {a b : BitVec 5} {k : BitVec 3} {s : State} (hs :
    s.Inv) : Safe (execVcmpN32 g c h a b k s) := by
  unfold execVcmpN32
  repeat' first
    | with_reducible exact hs | with_reducible assumption | with_reducible apply State.slotVcmp_safe
    | with_reducible apply Safe.next | with_reducible apply Safe.ite | (intro _)
    | fail_if_no_progress (with_reducible apply Inv.frame) | split

theorem execKlogic_safe {g : BitVec 4} {l : BitVec 2} {h a b : BitVec 3} {s : State} (hs : s.Inv) : Safe (execKlogic g l h a
    b s) := by
  unfold execKlogic
  repeat' first
    | with_reducible exact hs | with_reducible assumption | with_reducible apply State.put_inv
    | with_reducible apply State.slot_safe | with_reducible apply Safe.next | with_reducible apply Safe.ite | (intro _)
    | fail_if_no_progress (with_reducible apply Inv.frame) | split

theorem execVbcast_safe {g : BitVec 4} {d a : BitVec 5} {k : BitVec 3} {s : State} (hs : s.Inv) : Safe (execVbcast g d a k
    s) := by
  unfold execVbcast
  repeat' first
    | with_reducible exact hs | with_reducible assumption | with_reducible apply State.slot_safe
    | with_reducible apply State.vput_inv | with_reducible apply Safe.next | with_reducible apply Safe.ite | (intro _)
    | fail_if_no_progress (with_reducible apply Inv.frame) | split

theorem execViota_safe {g : BitVec 4} {d a : BitVec 5} {k : BitVec 3} {s : State} (hs : s.Inv) : Safe (execViota g d a k s)
    := by
  unfold execViota
  repeat' first
    | with_reducible exact hs | with_reducible assumption | with_reducible apply State.slot_safe
    | with_reducible apply State.vput_inv | with_reducible apply Safe.next | with_reducible apply Safe.ite | (intro _)
    | fail_if_no_progress (with_reducible apply Inv.frame) | split

theorem execVperm_safe {g : BitVec 4} {d a b : BitVec 5} {k : BitVec 3} {s : State} (hs : s.Inv) : Safe (execVperm g d a b k
    s) := by
  unfold execVperm
  repeat' first
    | with_reducible exact hs | with_reducible assumption | with_reducible apply State.slot_safe
    | with_reducible apply State.vput_inv | with_reducible apply Safe.next | with_reducible apply Safe.ite | (intro _)
    | fail_if_no_progress (with_reducible apply Inv.frame) | split

theorem execVred_safe {g : BitVec 4} {d a : BitVec 5} {r : BitVec 3} {n : BitVec 2} {k : BitVec 3} {s : State} (hs : s.Inv)
    : Safe (execVred g d a r n k s) := by
  unfold execVred
  repeat' first
    | with_reducible exact hs | with_reducible assumption | with_reducible apply State.push_inv
    | with_reducible apply State.slot_safe | with_reducible apply Safe.next | with_reducible apply Safe.ite | (intro _)
    | fail_if_no_progress (with_reducible apply Inv.frame) | split

theorem State.slotVload_safe {s : State} {g : BitVec 4} {size : Nat} {dest : LoadDest} {a : BitVec 4} {u : BitVec 1} {off :
    BitVec 18} (hs : s.Inv) : Safe (State.slotVload s g size dest a u off) := by
  unfold State.slotVload
  repeat' first
    | with_reducible exact hs | with_reducible assumption | with_reducible apply State.slot_safe
    | with_reducible apply State.postInc_inv | with_reducible apply State.startLoad_inv | with_reducible apply Safe.next
    | with_reducible apply Safe.ite | (intro _) | fail_if_no_progress (with_reducible apply Inv.frame) | split

theorem State.slotVstore_safe {s : State} {g : BitVec 4} {bs : List Byte} {a : BitVec 4} {u : BitVec 1} {off : BitVec 18}
    {size : Nat} (hs : s.Inv) : Safe (State.slotVstore s g bs a u off size) := by
  unfold State.slotVstore
  repeat' first
    | with_reducible exact hs | with_reducible assumption | with_reducible apply State.slot_safe
    | with_reducible apply State.postInc_inv | with_reducible apply State.startStore_inv | with_reducible apply Safe.next
    | with_reducible apply Safe.ite | (intro _) | fail_if_no_progress (with_reducible apply Inv.frame) | split

theorem execVld_safe {g : BitVec 4} {d : BitVec 5} {a : BitVec 4} {u : BitVec 1} {off : BitVec 18} {s : State} (hs : s.Inv)
    : Safe (execVld g d a u off s) := by
  unfold execVld
  repeat' first
    | with_reducible exact hs | with_reducible assumption | with_reducible apply State.slotVload_safe
    | with_reducible apply Safe.next | with_reducible apply Safe.ite | (intro _)
    | fail_if_no_progress (with_reducible apply Inv.frame) | split

theorem execVst_safe {g : BitVec 4} {d : BitVec 5} {a : BitVec 4} {u : BitVec 1} {off : BitVec 18} {s : State} (hs : s.Inv)
    : Safe (execVst g d a u off s) := by
  unfold execVst
  repeat' first
    | with_reducible exact hs | with_reducible assumption | with_reducible apply State.slotVstore_safe
    | with_reducible apply Safe.next | with_reducible apply Safe.ite | (intro _)
    | fail_if_no_progress (with_reducible apply Inv.frame) | split

theorem execVldW_safe {g : BitVec 4} {d : BitVec 5} {a : BitVec 4} {u : BitVec 1} {off : BitVec 18} {s : State} (hs : s.Inv)
    : Safe (execVldW g d a u off s) := by
  unfold execVldW
  repeat' first
    | with_reducible exact hs | with_reducible assumption | with_reducible apply State.slotVload_safe
    | with_reducible apply Safe.next | with_reducible apply Safe.ite | (intro _)
    | fail_if_no_progress (with_reducible apply Inv.frame) | split

theorem execVstW_safe {g : BitVec 4} {d : BitVec 5} {a : BitVec 4} {u : BitVec 1} {off : BitVec 18} {s : State} (hs : s.Inv)
    : Safe (execVstW g d a u off s) := by
  unfold execVstW
  repeat' first
    | with_reducible exact hs | with_reducible assumption | with_reducible apply State.slotVstore_safe
    | with_reducible apply Safe.next | with_reducible apply Safe.ite | (intro _)
    | fail_if_no_progress (with_reducible apply Inv.frame) | split

theorem execVldK_safe {g : BitVec 4} {d : BitVec 3} {a : BitVec 4} {u : BitVec 1} {off : BitVec 18} {s : State} (hs : s.Inv)
    : Safe (execVldK g d a u off s) := by
  unfold execVldK
  repeat' first
    | with_reducible exact hs | with_reducible assumption | with_reducible apply State.slotVload_safe
    | with_reducible apply Safe.next | with_reducible apply Safe.ite | (intro _)
    | fail_if_no_progress (with_reducible apply Inv.frame) | split

theorem execVstK_safe {g : BitVec 4} {d : BitVec 3} {a : BitVec 4} {u : BitVec 1} {off : BitVec 18} {s : State} (hs : s.Inv)
    : Safe (execVstK g d a u off s) := by
  unfold execVstK
  repeat' first
    | with_reducible exact hs | with_reducible assumption | with_reducible apply State.slotVstore_safe
    | with_reducible apply Safe.next | with_reducible apply Safe.ite | (intro _)
    | fail_if_no_progress (with_reducible apply Inv.frame) | split

end Sys2Proof.Machine
end

