-- ==== Sys2Proof/Laws/KeepsEngines.lean ====
section
/-! SUPPORT. Tiles, matrix engines, windows and ports keep the invariant. -/

namespace Sys2Proof.Machine

set_option linter.all false

theorem State.doTileOp_inv {s : State} {o : TileOp} (hs : s.Inv) : (State.doTileOp s o).Inv := by
  unfold State.doTileOp
  repeat' first
    | with_reducible exact hs | with_reducible assumption | with_reducible refine Inv.fst (by assumption) ?_
    | with_reducible apply State.storeEng_inv | with_reducible apply Inv.ite | (intro _)
    | fail_if_no_progress (with_reducible apply Inv.frame) | split | (dsimp only)
    | fail_if_no_progress (refine Inv.pkg ?_ (by rfl)) | with_reducible apply Inv.cells
    | with_reducible exact Inv.bytesWf hs | with_reducible exact Inv.activeWf hs | with_reducible exact Inv.shadowWf hs
    | with_reducible exact Inv.accWf hs | with_reducible apply cellsWf_putCells | with_reducible apply cellsWf_clear

theorem State.loadShadow_inv {s : State} {e : Nat} {src : RowSrc} {x : BitVec 24} {lo : Nat} {mf : BitVec 3} (hs : s.Inv) :
    (State.loadShadow s e src x lo mf).Inv := by
  unfold State.loadShadow
  repeat' first
    | with_reducible exact hs | with_reducible assumption | with_reducible refine Inv.fst (by assumption) ?_
    | with_reducible apply Inv.ite | (intro _) | fail_if_no_progress (with_reducible apply Inv.frame) | split | (dsimp only)
    | fail_if_no_progress (refine Inv.pkg ?_ (by rfl)) | with_reducible apply Inv.cells
    | with_reducible exact Inv.bytesWf hs | with_reducible exact Inv.activeWf hs | with_reducible exact Inv.shadowWf hs
    | with_reducible exact Inv.accWf hs | with_reducible apply cellsWf_putCells | with_reducible apply cellsWf_clear

theorem State.weightLoad_inv {s : State} {pair : Bool} {y : Nat} {src : RowSrc} {x : BitVec 24} {mf : BitVec 3} (hs : s.Inv)
    : (State.weightLoad s pair y src x mf).Inv := by
  unfold State.weightLoad
  repeat' first
    | with_reducible exact hs | with_reducible assumption | with_reducible refine Inv.fst (by assumption) ?_
    | with_reducible apply State.loadShadow_inv | with_reducible apply Inv.ite | (intro _)
    | fail_if_no_progress (with_reducible apply Inv.frame) | split | (dsimp only)
    | fail_if_no_progress (refine Inv.pkg ?_ (by rfl)) | with_reducible apply Inv.cells
    | with_reducible exact Inv.bytesWf hs | with_reducible exact Inv.activeWf hs | with_reducible exact Inv.shadowWf hs
    | with_reducible exact Inv.accWf hs | with_reducible apply cellsWf_putCells | with_reducible apply cellsWf_clear

theorem State.activate1_inv {s : State} {e : Nat} (hs : s.Inv) : (State.activate1 s e).Inv := by
  unfold State.activate1
  repeat' first
    | with_reducible exact hs | with_reducible assumption | with_reducible refine Inv.fst (by assumption) ?_
    | with_reducible apply Inv.ite | (intro _) | fail_if_no_progress (with_reducible apply Inv.frame) | split | (dsimp only)
    | fail_if_no_progress (refine Inv.pkg ?_ (by rfl)) | with_reducible apply Inv.cells
    | with_reducible exact Inv.bytesWf hs | with_reducible exact Inv.activeWf hs | with_reducible exact Inv.shadowWf hs
    | with_reducible exact Inv.accWf hs | with_reducible apply cellsWf_putCells | with_reducible apply cellsWf_clear

theorem State.activate_inv {s : State} {pair : Bool} {y : Nat} (hs : s.Inv) : (State.activate s pair y).Inv := by
  unfold State.activate
  repeat' first
    | with_reducible exact hs | with_reducible assumption | with_reducible refine Inv.fst (by assumption) ?_
    | with_reducible apply State.activate1_inv | with_reducible apply Inv.ite | (intro _)
    | fail_if_no_progress (with_reducible apply Inv.frame) | split | (dsimp only)
    | fail_if_no_progress (refine Inv.pkg ?_ (by rfl)) | with_reducible apply Inv.cells
    | with_reducible exact Inv.bytesWf hs | with_reducible exact Inv.activeWf hs | with_reducible exact Inv.shadowWf hs
    | with_reducible exact Inv.accWf hs | with_reducible apply cellsWf_putCells | with_reducible apply cellsWf_clear

theorem State.stream1_inv {s : State} {e : Nat} {src : RowSrc} {x : BitVec 24} {mf : BitVec 3} {z : Bool} (hs : s.Inv) :
    (State.stream1 s e src x mf z).Inv := by
  unfold State.stream1
  repeat' first
    | with_reducible exact hs | with_reducible assumption | with_reducible refine Inv.fst (by assumption) ?_
    | with_reducible apply State.orFlags_inv | with_reducible apply Inv.ite | (intro _)
    | fail_if_no_progress (with_reducible apply Inv.frame) | split | (dsimp only)
    | fail_if_no_progress (refine Inv.pkg ?_ (by rfl)) | with_reducible apply Inv.cells
    | with_reducible exact Inv.bytesWf hs | with_reducible exact Inv.activeWf hs | with_reducible exact Inv.shadowWf hs
    | with_reducible exact Inv.accWf hs | with_reducible apply cellsWf_putCells | with_reducible apply cellsWf_clear

theorem State.streamOp_inv {s : State} {pair : Bool} {y : Nat} {src : RowSrc} {x : BitVec 24} {mf : BitVec 3} {z : Bool} (hs
    : s.Inv) : (State.streamOp s pair y src x mf z).Inv := by
  unfold State.streamOp
  repeat' first
    | with_reducible exact hs | with_reducible assumption | with_reducible refine Inv.fst (by assumption) ?_
    | with_reducible apply State.stream1_inv | with_reducible apply Inv.ite | (intro _)
    | fail_if_no_progress (with_reducible apply Inv.frame) | split | (dsimp only)
    | fail_if_no_progress (refine Inv.pkg ?_ (by rfl)) | with_reducible apply Inv.cells
    | with_reducible exact Inv.bytesWf hs | with_reducible exact Inv.activeWf hs | with_reducible exact Inv.shadowWf hs
    | with_reducible exact Inv.accWf hs | with_reducible apply cellsWf_putCells | with_reducible apply cellsWf_clear

theorem State.zeroAcc_inv {s : State} {pair : Bool} {y : Nat} (hs : s.Inv) : (State.zeroAcc s pair y).Inv := by
  unfold State.zeroAcc
  repeat' first
    | with_reducible exact hs | with_reducible assumption | with_reducible refine Inv.fst (by assumption) ?_
    | with_reducible apply Inv.ite | (intro _) | fail_if_no_progress (with_reducible apply Inv.frame) | split | (dsimp only)
    | fail_if_no_progress (refine Inv.pkg ?_ (by rfl)) | with_reducible apply Inv.cells
    | with_reducible exact Inv.bytesWf hs | with_reducible exact Inv.activeWf hs | with_reducible exact Inv.shadowWf hs
    | with_reducible exact Inv.accWf hs | with_reducible apply cellsWf_putCells | with_reducible apply cellsWf_clear

theorem State.drainOp_inv {s : State} {pair tr : Bool} {y : Nat} {t : Nat} {mem : Option Nat} {x : BitVec 24}
    {ctl : BitVec 9} {blk : Nat} {seed : W64} (hs : s.Inv) : (s.drainOp pair tr y t mem x ctl blk seed).Inv := by
  have hd : ∀ {zeros : List (Nat × W32)} {c : Prop} [Decidable c],
      (if c then { s with tiles.acc := putCells s.tiles.acc zeros } else s).Inv := by
    intro zeros c _
    split
    · exact Inv.cells hs hs.2.1.1 hs.2.1.2.1 hs.2.1.2.2.1 (cellsWf_putCells hs.2.1.2.2.2)
    · exact hs
  unfold State.drainOp
  dsimp only
  refine State.orLate_inv ?_
  split
  · exact State.storeEng_inv hd
  · exact Inv.cells hd (cellsWf_putCells hd.2.1.1) hd.2.1.2.1 hd.2.1.2.2.1 hd.2.1.2.2.2

theorem State.doMatrix_inv {s : State} {c : MCmd} (hs : s.Inv) : (State.doMatrix s c).Inv := by
  unfold State.doMatrix
  repeat' first
    | with_reducible exact hs | with_reducible assumption | with_reducible refine Inv.fst (by assumption) ?_
    | with_reducible apply State.weightLoad_inv | with_reducible apply State.activate_inv
    | with_reducible apply State.streamOp_inv | with_reducible apply State.zeroAcc_inv
    | with_reducible apply State.drainOp_inv | with_reducible apply Inv.ite | (intro _)
    | fail_if_no_progress (with_reducible apply Inv.frame) | split | (dsimp only)
    | fail_if_no_progress (refine Inv.pkg ?_ (by rfl)) | with_reducible apply Inv.cells
    | with_reducible exact Inv.bytesWf hs | with_reducible exact Inv.activeWf hs | with_reducible exact Inv.shadowWf hs
    | with_reducible exact Inv.accWf hs | with_reducible apply cellsWf_putCells | with_reducible apply cellsWf_clear

theorem State.taskPasses_inv {t : Task} {y aaddr : Nat} : ∀ {f p : Nat} {s : State}, s.Inv →
    (s.taskPasses t y aaddr f p).Inv
  | 0, _, _, hs => hs
  | f + 1, p, s, hs => by
    unfold State.taskPasses
    dsimp only
    refine State.taskPasses_inv (State.streamOp_inv ?_)
    split
    · exact hs
    · exact State.activate_inv (State.weightLoad_inv hs)

theorem State.runTask_inv {s : State} {t : Task} {y : Nat} {seed : W64} (hs : s.Inv) : (s.runTask t y seed).1.Inv := by
  unfold State.runTask
  extract_lets aaddr u
  have hp : u.Inv := State.taskPasses_inv hs
  clear_value u
  split
  · exact hs
  · split
    · exact State.windowFault_inv hs
    · split
      · exact hp
      · exact State.drainOp_inv hp

theorem State.stallSlot_safe {s : State} {stall : Bool} {r : Out} (hs : s.Inv) (hr : Safe r) : Safe (s.stallSlot stall r) := by
  unfold State.stallSlot
  split
  · exact hs
  · exact hr

theorem State.tileRead_safe {s : State} {col : Bool} {g x y : BitVec 4} {v : BitVec 5} {k : BitVec 3} {m : BitVec 2} (hs :
    s.Inv) : Safe (State.tileRead s col g x y v k m) := by
  unfold State.tileRead
  repeat' first
    | with_reducible exact hs | with_reducible assumption | with_reducible refine Inv.fst (by assumption) ?_
    | with_reducible apply State.put_inv | with_reducible apply State.slot_safe | with_reducible apply Safe.next
    | with_reducible apply Safe.ite | (intro _) | fail_if_no_progress (with_reducible apply Inv.frame) | split
    | (dsimp only) | fail_if_no_progress (refine Inv.pkg ?_ (by rfl))

theorem State.tileWrite_safe {s : State} {col : Bool} {width : Nat} {nv : Bool} {g x y : BitVec 4} {v : BitVec 5} {k :
    BitVec 3} {m : BitVec 2} (hs : s.Inv) : Safe (State.tileWrite s col width nv g x y v k m) := by
  unfold State.tileWrite
  repeat' first
    | with_reducible exact hs | with_reducible assumption | with_reducible refine Inv.fst (by assumption) ?_
    | with_reducible apply State.push_inv | with_reducible apply State.slot_safe | with_reducible apply State.takeDraws_inv
    | with_reducible apply Safe.next | (with_reducible apply foldl_inv; intro _ _ _) | with_reducible apply Safe.ite
    | (intro _) | fail_if_no_progress (with_reducible apply Inv.frame) | split | (dsimp only)
    | fail_if_no_progress (refine Inv.pkg ?_ (by rfl))

theorem execTrdr_safe {g x y : BitVec 4} {v : BitVec 5} {k : BitVec 3} {m : BitVec 2} {s : State} (hs : s.Inv) : Safe
    (execTrdr g x y v k m s) := by
  unfold execTrdr
  repeat' first
    | with_reducible exact hs | with_reducible assumption | with_reducible refine Inv.fst (by assumption) ?_
    | with_reducible apply State.tileRead_safe | with_reducible apply Safe.next | with_reducible apply Safe.ite | (intro _)
    | fail_if_no_progress (with_reducible apply Inv.frame) | split | (dsimp only)
    | fail_if_no_progress (refine Inv.pkg ?_ (by rfl))

theorem execTrdc_safe {g x y : BitVec 4} {v : BitVec 5} {k : BitVec 3} {m : BitVec 2} {s : State} (hs : s.Inv) : Safe
    (execTrdc g x y v k m s) := by
  unfold execTrdc
  repeat' first
    | with_reducible exact hs | with_reducible assumption | with_reducible refine Inv.fst (by assumption) ?_
    | with_reducible apply State.tileRead_safe | with_reducible apply Safe.next | with_reducible apply Safe.ite | (intro _)
    | fail_if_no_progress (with_reducible apply Inv.frame) | split | (dsimp only)
    | fail_if_no_progress (refine Inv.pkg ?_ (by rfl))

theorem execTwrr32_safe {g x y : BitVec 4} {v : BitVec 5} {k : BitVec 3} {s : State} (hs : s.Inv) : Safe (execTwrr32 g x y v
    k s) := by
  unfold execTwrr32
  repeat' first
    | with_reducible exact hs | with_reducible assumption | with_reducible refine Inv.fst (by assumption) ?_
    | with_reducible apply State.tileWrite_safe | with_reducible apply Safe.next | with_reducible apply Safe.ite | (intro _)
    | fail_if_no_progress (with_reducible apply Inv.frame) | split | (dsimp only)
    | fail_if_no_progress (refine Inv.pkg ?_ (by rfl))

theorem execTwrc32_safe {g x y : BitVec 4} {v : BitVec 5} {k : BitVec 3} {s : State} (hs : s.Inv) : Safe (execTwrc32 g x y v
    k s) := by
  unfold execTwrc32
  repeat' first
    | with_reducible exact hs | with_reducible assumption | with_reducible refine Inv.fst (by assumption) ?_
    | with_reducible apply State.tileWrite_safe | with_reducible apply Safe.next | with_reducible apply Safe.ite | (intro _)
    | fail_if_no_progress (with_reducible apply Inv.frame) | split | (dsimp only)
    | fail_if_no_progress (refine Inv.pkg ?_ (by rfl))

theorem execTwrr16_safe {g x y : BitVec 4} {v : BitVec 5} {k : BitVec 3} {m : BitVec 2} {s : State} (hs : s.Inv) : Safe
    (execTwrr16 g x y v k m s) := by
  unfold execTwrr16
  repeat' first
    | with_reducible exact hs | with_reducible assumption | with_reducible refine Inv.fst (by assumption) ?_
    | with_reducible apply State.tileWrite_safe | with_reducible apply Safe.next | with_reducible apply Safe.ite | (intro _)
    | fail_if_no_progress (with_reducible apply Inv.frame) | split | (dsimp only)
    | fail_if_no_progress (refine Inv.pkg ?_ (by rfl))

theorem execTwrc16_safe {g x y : BitVec 4} {v : BitVec 5} {k : BitVec 3} {m : BitVec 2} {s : State} (hs : s.Inv) : Safe
    (execTwrc16 g x y v k m s) := by
  unfold execTwrc16
  repeat' first
    | with_reducible exact hs | with_reducible assumption | with_reducible refine Inv.fst (by assumption) ?_
    | with_reducible apply State.tileWrite_safe | with_reducible apply Safe.next | with_reducible apply Safe.ite | (intro _)
    | fail_if_no_progress (with_reducible apply Inv.frame) | split | (dsimp only)
    | fail_if_no_progress (refine Inv.pkg ?_ (by rfl))

theorem execTwrr8_safe {g x y : BitVec 4} {v : BitVec 5} {k : BitVec 3} {m : BitVec 2} {s : State} (hs : s.Inv) : Safe
    (execTwrr8 g x y v k m s) := by
  unfold execTwrr8
  repeat' first
    | with_reducible exact hs | with_reducible assumption | with_reducible refine Inv.fst (by assumption) ?_
    | with_reducible apply State.tileWrite_safe | with_reducible apply Safe.next | with_reducible apply Safe.ite | (intro _)
    | fail_if_no_progress (with_reducible apply Inv.frame) | split | (dsimp only)
    | fail_if_no_progress (refine Inv.pkg ?_ (by rfl))

theorem execTwrc8_safe {g x y : BitVec 4} {v : BitVec 5} {k : BitVec 3} {m : BitVec 2} {s : State} (hs : s.Inv) : Safe
    (execTwrc8 g x y v k m s) := by
  unfold execTwrc8
  repeat' first
    | with_reducible exact hs | with_reducible assumption | with_reducible refine Inv.fst (by assumption) ?_
    | with_reducible apply State.tileWrite_safe | with_reducible apply Safe.next | with_reducible apply Safe.ite | (intro _)
    | fail_if_no_progress (with_reducible apply Inv.frame) | split | (dsimp only)
    | fail_if_no_progress (refine Inv.pkg ?_ (by rfl))

theorem execTwrr8Nan_safe {g x y : BitVec 4} {v : BitVec 5} {k : BitVec 3} {m : BitVec 2} {s : State} (hs : s.Inv) : Safe
    (execTwrr8Nan g x y v k m s) := by
  unfold execTwrr8Nan
  repeat' first
    | with_reducible exact hs | with_reducible assumption | with_reducible refine Inv.fst (by assumption) ?_
    | with_reducible apply State.tileWrite_safe | with_reducible apply Safe.next | with_reducible apply Safe.ite | (intro _)
    | fail_if_no_progress (with_reducible apply Inv.frame) | split | (dsimp only)
    | fail_if_no_progress (refine Inv.pkg ?_ (by rfl))

theorem execTwrc8Nan_safe {g x y : BitVec 4} {v : BitVec 5} {k : BitVec 3} {m : BitVec 2} {s : State} (hs : s.Inv) : Safe
    (execTwrc8Nan g x y v k m s) := by
  unfold execTwrc8Nan
  repeat' first
    | with_reducible exact hs | with_reducible assumption | with_reducible refine Inv.fst (by assumption) ?_
    | with_reducible apply State.tileWrite_safe | with_reducible apply Safe.next | with_reducible apply Safe.ite | (intro _)
    | fail_if_no_progress (with_reducible apply Inv.frame) | split | (dsimp only)
    | fail_if_no_progress (refine Inv.pkg ?_ (by rfl))

theorem execTshape_safe {g x : BitVec 4} {v : BitVec 5} {s : State} (hs : s.Inv) : Safe (execTshape g x v s) := by
  unfold execTshape
  repeat' first
    | with_reducible exact hs | with_reducible assumption | with_reducible refine Inv.fst (by assumption) ?_
    | with_reducible apply State.put_inv | with_reducible apply State.slot_safe | with_reducible apply Safe.next
    | with_reducible apply Safe.ite | (intro _) | fail_if_no_progress (with_reducible apply Inv.frame) | split
    | (dsimp only) | fail_if_no_progress (refine Inv.pkg ?_ (by rfl))

theorem State.startTileOp_inv {s : State} {kind : TileKind} {shape : BitVec 24} (hs : s.Inv) : (State.startTileOp s kind
    shape).Inv := by
  unfold State.startTileOp
  repeat' first
    | with_reducible exact hs | with_reducible assumption | with_reducible refine Inv.fst (by assumption) ?_
    | with_reducible apply Inv.ite | (intro _) | fail_if_no_progress (with_reducible apply Inv.frame) | split | (dsimp only)
    | fail_if_no_progress (refine Inv.pkg ?_ (by rfl))

theorem State.tileMem_safe {s : State} {g x : BitVec 4} {v : BitVec 5} {tr write : Bool} {kind : Nat → TileKind} (hs :
    s.Inv) : Safe (State.tileMem s g x v tr write kind) := by
  unfold State.tileMem
  repeat' first
    | with_reducible exact hs | with_reducible assumption | with_reducible refine Inv.fst (by assumption) ?_
    | with_reducible apply State.slot_safe | with_reducible apply State.stallSlot_safe
    | with_reducible apply State.startTileOp_inv | with_reducible apply Safe.next | with_reducible apply Safe.ite
    | (intro _) | fail_if_no_progress (with_reducible apply Inv.frame) | split | (dsimp only)
    | fail_if_no_progress (refine Inv.pkg ?_ (by rfl))

theorem execTld_safe {g x : BitVec 4} {v : BitVec 5} {s : State} (hs : s.Inv) : Safe (execTld g x v s) := by
  unfold execTld
  repeat' first
    | with_reducible exact hs | with_reducible assumption | with_reducible refine Inv.fst (by assumption) ?_
    | with_reducible apply State.tileMem_safe | with_reducible apply Safe.next | with_reducible apply Safe.ite | (intro _)
    | fail_if_no_progress (with_reducible apply Inv.frame) | split | (dsimp only)
    | fail_if_no_progress (refine Inv.pkg ?_ (by rfl))

theorem execTst_safe {g x : BitVec 4} {v : BitVec 5} {s : State} (hs : s.Inv) : Safe (execTst g x v s) := by
  unfold execTst
  repeat' first
    | with_reducible exact hs | with_reducible assumption | with_reducible refine Inv.fst (by assumption) ?_
    | with_reducible apply State.store_inv | with_reducible apply State.tileMem_safe | with_reducible apply Safe.next
    | with_reducible apply Safe.ite | (intro _) | fail_if_no_progress (with_reducible apply Inv.frame) | split
    | (dsimp only) | fail_if_no_progress (refine Inv.pkg ?_ (by rfl))

theorem execTldt_safe {g x : BitVec 4} {v : BitVec 5} {s : State} (hs : s.Inv) : Safe (execTldt g x v s) := by
  unfold execTldt
  repeat' first
    | with_reducible exact hs | with_reducible assumption | with_reducible refine Inv.fst (by assumption) ?_
    | with_reducible apply State.tileMem_safe | with_reducible apply Safe.next | with_reducible apply Safe.ite | (intro _)
    | fail_if_no_progress (with_reducible apply Inv.frame) | split | (dsimp only)
    | fail_if_no_progress (refine Inv.pkg ?_ (by rfl))

theorem execTstt_safe {g x : BitVec 4} {v : BitVec 5} {s : State} (hs : s.Inv) : Safe (execTstt g x v s) := by
  unfold execTstt
  repeat' first
    | with_reducible exact hs | with_reducible assumption | with_reducible refine Inv.fst (by assumption) ?_
    | with_reducible apply State.store_inv | with_reducible apply State.tileMem_safe | with_reducible apply Safe.next
    | with_reducible apply Safe.ite | (intro _) | fail_if_no_progress (with_reducible apply Inv.frame) | split
    | (dsimp only) | fail_if_no_progress (refine Inv.pkg ?_ (by rfl))

theorem execTcpy_safe {g x y : BitVec 4} {s : State} (hs : s.Inv) : Safe (execTcpy g x y s) := by
  unfold execTcpy
  repeat' first
    | with_reducible exact hs | with_reducible assumption | with_reducible refine Inv.fst (by assumption) ?_
    | with_reducible apply State.slot_safe | with_reducible apply State.stallSlot_safe
    | with_reducible apply State.startTileOp_inv | with_reducible apply Safe.next | with_reducible apply Safe.ite
    | (intro _) | fail_if_no_progress (with_reducible apply Inv.frame) | split | (dsimp only)
    | fail_if_no_progress (refine Inv.pkg ?_ (by rfl))

theorem execTzero_safe {g x : BitVec 4} {s : State} (hs : s.Inv) : Safe (execTzero g x s) := by
  unfold execTzero
  repeat' first
    | with_reducible exact hs | with_reducible assumption | with_reducible refine Inv.fst (by assumption) ?_
    | with_reducible apply State.slot_safe | with_reducible apply State.stallSlot_safe
    | with_reducible apply State.startTileOp_inv | with_reducible apply Safe.next | with_reducible apply Safe.ite
    | (intro _) | fail_if_no_progress (with_reducible apply Inv.frame) | split | (dsimp only)
    | fail_if_no_progress (refine Inv.pkg ?_ (by rfl))

theorem State.postMatrix_inv {s : State} {op : MatOp} {shape : BitVec 24} {seed : W64} (hs : s.Inv) : (State.postMatrix s op
    shape seed).Inv := by
  unfold State.postMatrix
  repeat' first
    | with_reducible exact hs | with_reducible assumption | with_reducible refine Inv.fst (by assumption) ?_
    | with_reducible apply State.takeNumber_inv | with_reducible apply Inv.ite | (intro _)
    | fail_if_no_progress (with_reducible apply Inv.frame) | split | (dsimp only)
    | fail_if_no_progress (refine Inv.pkg ?_ (by rfl))

theorem State.matrixSlot_safe {s : State} {g : BitVec 4} {pair : Bool} {y : BitVec 4} {fault : Option SFault} {op : MatOp}
    {shape : BitVec 24} (hs : s.Inv) : Safe (State.matrixSlot s g pair y fault op shape) := by
  unfold State.matrixSlot
  repeat' first
    | with_reducible exact hs | with_reducible assumption | with_reducible refine Inv.fst (by assumption) ?_
    | with_reducible apply State.slot_safe | with_reducible apply State.stallSlot_safe
    | with_reducible apply State.postMatrix_inv | with_reducible apply Safe.next | with_reducible apply Safe.ite | (intro _)
    | fail_if_no_progress (with_reducible apply Inv.frame) | split | (dsimp only)
    | fail_if_no_progress (refine Inv.pkg ?_ (by rfl))

theorem State.imageSlot_safe {s : State} {g x : BitVec 4} {pair : Bool} {y : BitVec 4} {v : Option (BitVec 5)} {op : Option
    Nat → MatOp} (hs : s.Inv) : Safe (State.imageSlot s g x pair y v op) := by
  unfold State.imageSlot
  repeat' first
    | with_reducible exact hs | with_reducible assumption | with_reducible refine Inv.fst (by assumption) ?_
    | with_reducible apply State.matrixSlot_safe | with_reducible apply Safe.next | with_reducible apply Safe.ite
    | (intro _) | fail_if_no_progress (with_reducible apply Inv.frame) | split | (dsimp only)
    | fail_if_no_progress (refine Inv.pkg ?_ (by rfl))

theorem execMwl_safe {g x y : BitVec 4} {f : BitVec 3} {s : State} (hs : s.Inv) : Safe (execMwl g x y f s) := by
  unfold execMwl
  repeat' first
    | with_reducible exact hs | with_reducible assumption | with_reducible refine Inv.fst (by assumption) ?_
    | with_reducible apply State.imageSlot_safe | with_reducible apply Safe.next | with_reducible apply Safe.ite | (intro _)
    | fail_if_no_progress (with_reducible apply Inv.frame) | split | (dsimp only)
    | fail_if_no_progress (refine Inv.pkg ?_ (by rfl))

theorem execMwlm_safe {g x y : BitVec 4} {v : BitVec 5} {f : BitVec 3} {s : State} (hs : s.Inv) : Safe (execMwlm g x y v f
    s) := by
  unfold execMwlm
  repeat' first
    | with_reducible exact hs | with_reducible assumption | with_reducible refine Inv.fst (by assumption) ?_
    | with_reducible apply State.imageSlot_safe | with_reducible apply Safe.next | with_reducible apply Safe.ite | (intro _)
    | fail_if_no_progress (with_reducible apply Inv.frame) | split | (dsimp only)
    | fail_if_no_progress (refine Inv.pkg ?_ (by rfl))

theorem execMwlp_safe {g x y : BitVec 4} {f : BitVec 3} {s : State} (hs : s.Inv) : Safe (execMwlp g x y f s) := by
  unfold execMwlp
  repeat' first
    | with_reducible exact hs | with_reducible assumption | with_reducible refine Inv.fst (by assumption) ?_
    | with_reducible apply State.imageSlot_safe | with_reducible apply Safe.next | with_reducible apply Safe.ite | (intro _)
    | fail_if_no_progress (with_reducible apply Inv.frame) | split | (dsimp only)
    | fail_if_no_progress (refine Inv.pkg ?_ (by rfl))

theorem execMwlpm_safe {g x y : BitVec 4} {v : BitVec 5} {f : BitVec 3} {s : State} (hs : s.Inv) : Safe (execMwlpm g x y v f
    s) := by
  unfold execMwlpm
  repeat' first
    | with_reducible exact hs | with_reducible assumption | with_reducible refine Inv.fst (by assumption) ?_
    | with_reducible apply State.imageSlot_safe | with_reducible apply Safe.next | with_reducible apply Safe.ite | (intro _)
    | fail_if_no_progress (with_reducible apply Inv.frame) | split | (dsimp only)
    | fail_if_no_progress (refine Inv.pkg ?_ (by rfl))

theorem execMwa_safe {g y : BitVec 4} {s : State} (hs : s.Inv) : Safe (execMwa g y s) := by
  unfold execMwa
  repeat' first
    | with_reducible exact hs | with_reducible assumption | with_reducible refine Inv.fst (by assumption) ?_
    | with_reducible apply State.activate_inv | with_reducible apply State.matrixSlot_safe | with_reducible apply Safe.next
    | with_reducible apply Safe.ite | (intro _) | fail_if_no_progress (with_reducible apply Inv.frame) | split
    | (dsimp only) | fail_if_no_progress (refine Inv.pkg ?_ (by rfl))

theorem execMwap_safe {g y : BitVec 4} {s : State} (hs : s.Inv) : Safe (execMwap g y s) := by
  unfold execMwap
  repeat' first
    | with_reducible exact hs | with_reducible assumption | with_reducible refine Inv.fst (by assumption) ?_
    | with_reducible apply State.activate_inv | with_reducible apply State.matrixSlot_safe | with_reducible apply Safe.next
    | with_reducible apply Safe.ite | (intro _) | fail_if_no_progress (with_reducible apply Inv.frame) | split
    | (dsimp only) | fail_if_no_progress (refine Inv.pkg ?_ (by rfl))

theorem execMms_safe {g x y : BitVec 4} {f : BitVec 3} {z : BitVec 1} {s : State} (hs : s.Inv) : Safe (execMms g x y f z s)
    := by
  unfold execMms
  repeat' first
    | with_reducible exact hs | with_reducible assumption | with_reducible refine Inv.fst (by assumption) ?_
    | with_reducible apply State.imageSlot_safe | with_reducible apply Safe.next | with_reducible apply Safe.ite | (intro _)
    | fail_if_no_progress (with_reducible apply Inv.frame) | split | (dsimp only)
    | fail_if_no_progress (refine Inv.pkg ?_ (by rfl))

theorem execMmsm_safe {g x y : BitVec 4} {v : BitVec 5} {f : BitVec 3} {z : BitVec 1} {s : State} (hs : s.Inv) : Safe
    (execMmsm g x y v f z s) := by
  unfold execMmsm
  repeat' first
    | with_reducible exact hs | with_reducible assumption | with_reducible refine Inv.fst (by assumption) ?_
    | with_reducible apply State.imageSlot_safe | with_reducible apply Safe.next | with_reducible apply Safe.ite | (intro _)
    | fail_if_no_progress (with_reducible apply Inv.frame) | split | (dsimp only)
    | fail_if_no_progress (refine Inv.pkg ?_ (by rfl))

theorem execMmsp_safe {g x y : BitVec 4} {f : BitVec 3} {z : BitVec 1} {s : State} (hs : s.Inv) : Safe (execMmsp g x y f z
    s) := by
  unfold execMmsp
  repeat' first
    | with_reducible exact hs | with_reducible assumption | with_reducible refine Inv.fst (by assumption) ?_
    | with_reducible apply State.imageSlot_safe | with_reducible apply Safe.next | with_reducible apply Safe.ite | (intro _)
    | fail_if_no_progress (with_reducible apply Inv.frame) | split | (dsimp only)
    | fail_if_no_progress (refine Inv.pkg ?_ (by rfl))

theorem execMmspm_safe {g x y : BitVec 4} {v : BitVec 5} {f : BitVec 3} {z : BitVec 1} {s : State} (hs : s.Inv) : Safe
    (execMmspm g x y v f z s) := by
  unfold execMmspm
  repeat' first
    | with_reducible exact hs | with_reducible assumption | with_reducible refine Inv.fst (by assumption) ?_
    | with_reducible apply State.imageSlot_safe | with_reducible apply Safe.next | with_reducible apply Safe.ite | (intro _)
    | fail_if_no_progress (with_reducible apply Inv.frame) | split | (dsimp only)
    | fail_if_no_progress (refine Inv.pkg ?_ (by rfl))

theorem execMzero_safe {g y : BitVec 4} {s : State} (hs : s.Inv) : Safe (execMzero g y s) := by
  unfold execMzero
  repeat' first
    | with_reducible exact hs | with_reducible assumption | with_reducible refine Inv.fst (by assumption) ?_
    | with_reducible apply State.matrixSlot_safe | with_reducible apply Safe.next | with_reducible apply Safe.ite
    | (intro _) | fail_if_no_progress (with_reducible apply Inv.frame) | split | (dsimp only)
    | fail_if_no_progress (refine Inv.pkg ?_ (by rfl))

theorem execMzerop_safe {g y : BitVec 4} {s : State} (hs : s.Inv) : Safe (execMzerop g y s) := by
  unfold execMzerop
  repeat' first
    | with_reducible exact hs | with_reducible assumption | with_reducible refine Inv.fst (by assumption) ?_
    | with_reducible apply State.matrixSlot_safe | with_reducible apply Safe.next | with_reducible apply Safe.ite
    | (intro _) | fail_if_no_progress (with_reducible apply Inv.frame) | split | (dsimp only)
    | fail_if_no_progress (refine Inv.pkg ?_ (by rfl))

theorem State.drainSlot_safe {s : State} {g x y : BitVec 4} {v : BitVec 5} {pair tr toMem : Bool} (hs : s.Inv) : Safe
    (State.drainSlot s g x y v pair tr toMem) := by
  unfold State.drainSlot
  repeat' first
    | with_reducible exact hs | with_reducible assumption | with_reducible refine Inv.fst (by assumption) ?_
    | with_reducible apply State.slot_safe | with_reducible apply State.stallSlot_safe
    | with_reducible apply State.postMatrix_inv | with_reducible apply Safe.next | with_reducible apply Safe.ite | (intro _)
    | fail_if_no_progress (with_reducible apply Inv.frame) | split | (dsimp only)
    | fail_if_no_progress (refine Inv.pkg ?_ (by rfl))

theorem execMdr_safe {g x y : BitVec 4} {v : BitVec 5} {s : State} (hs : s.Inv) : Safe (execMdr g x y v s) := by
  unfold execMdr
  repeat' first
    | with_reducible exact hs | with_reducible assumption | with_reducible refine Inv.fst (by assumption) ?_
    | with_reducible apply State.drainSlot_safe | with_reducible apply Safe.next | with_reducible apply Safe.ite | (intro _)
    | fail_if_no_progress (with_reducible apply Inv.frame) | split | (dsimp only)
    | fail_if_no_progress (refine Inv.pkg ?_ (by rfl))

theorem execMdrm_safe {g x y : BitVec 4} {v : BitVec 5} {s : State} (hs : s.Inv) : Safe (execMdrm g x y v s) := by
  unfold execMdrm
  repeat' first
    | with_reducible exact hs | with_reducible assumption | with_reducible refine Inv.fst (by assumption) ?_
    | with_reducible apply State.drainSlot_safe | with_reducible apply Safe.next | with_reducible apply Safe.ite | (intro _)
    | fail_if_no_progress (with_reducible apply Inv.frame) | split | (dsimp only)
    | fail_if_no_progress (refine Inv.pkg ?_ (by rfl))

theorem execMdrp_safe {g x y : BitVec 4} {v : BitVec 5} {s : State} (hs : s.Inv) : Safe (execMdrp g x y v s) := by
  unfold execMdrp
  repeat' first
    | with_reducible exact hs | with_reducible assumption | with_reducible refine Inv.fst (by assumption) ?_
    | with_reducible apply State.drainSlot_safe | with_reducible apply Safe.next | with_reducible apply Safe.ite | (intro _)
    | fail_if_no_progress (with_reducible apply Inv.frame) | split | (dsimp only)
    | fail_if_no_progress (refine Inv.pkg ?_ (by rfl))

theorem execMdrpm_safe {g x y : BitVec 4} {v : BitVec 5} {s : State} (hs : s.Inv) : Safe (execMdrpm g x y v s) := by
  unfold execMdrpm
  repeat' first
    | with_reducible exact hs | with_reducible assumption | with_reducible refine Inv.fst (by assumption) ?_
    | with_reducible apply State.drainSlot_safe | with_reducible apply Safe.next | with_reducible apply Safe.ite | (intro _)
    | fail_if_no_progress (with_reducible apply Inv.frame) | split | (dsimp only)
    | fail_if_no_progress (refine Inv.pkg ?_ (by rfl))

theorem execMdrt_safe {g x y : BitVec 4} {v : BitVec 5} {s : State} (hs : s.Inv) : Safe (execMdrt g x y v s) := by
  unfold execMdrt
  repeat' first
    | with_reducible exact hs | with_reducible assumption | with_reducible refine Inv.fst (by assumption) ?_
    | with_reducible apply State.drainSlot_safe | with_reducible apply Safe.next | with_reducible apply Safe.ite | (intro _)
    | fail_if_no_progress (with_reducible apply Inv.frame) | split | (dsimp only)
    | fail_if_no_progress (refine Inv.pkg ?_ (by rfl))

theorem State.enterTask_inv {s : State} {num : Nat} {pol : BitVec 2} {t : Option Task} (hs : s.Inv) : (State.enterTask s num
    pol t).Inv := by
  unfold State.enterTask
  repeat' first
    | with_reducible exact hs | with_reducible assumption | with_reducible refine Inv.fst (by assumption) ?_
    | with_reducible apply State.complete_inv | with_reducible apply Inv.ite | (intro _)
    | fail_if_no_progress (with_reducible apply Inv.frame) | split | (dsimp only)
    | fail_if_no_progress (refine Inv.pkg ?_ (by rfl))

theorem State.later_inv {s : State} {i : Instr} {num : Nat} {vals : List W64} (hs : s.Inv) : (State.later s i num vals).Inv
    := by
  unfold State.later
  repeat' first
    | with_reducible exact hs | with_reducible assumption | with_reducible refine Inv.fst (by assumption) ?_
    | with_reducible apply Inv.ite | (intro _) | fail_if_no_progress (with_reducible apply Inv.frame) | split | (dsimp only)
    | fail_if_no_progress (refine Inv.pkg ?_ (by rfl))

theorem execMpost_safe {g : BitVec 4} {v : BitVec 5} {s : State} (hs : s.Inv) : Safe (execMpost g v s) := by
  unfold execMpost
  repeat' first
    | with_reducible exact hs | with_reducible assumption | with_reducible refine Inv.fst (by assumption) ?_
    | with_reducible apply State.takeNumber_inv | with_reducible apply State.slot_safe
    | with_reducible apply State.stallSlot_safe | with_reducible apply State.later_inv | with_reducible apply Safe.next
    | with_reducible apply Safe.ite | (intro _) | fail_if_no_progress (with_reducible apply Inv.frame) | split
    | (dsimp only) | fail_if_no_progress (refine Inv.pkg ?_ (by rfl))

theorem State.readTask_inv {s : State} {num : Nat} {vals : List W64} (hs : s.Inv) : (State.readTask s num vals).Inv := by
  unfold State.readTask
  repeat' first
    | with_reducible exact hs | with_reducible assumption | with_reducible refine Inv.fst (by assumption) ?_
    | with_reducible apply State.enterTask_inv | with_reducible apply Inv.ite | (intro _)
    | fail_if_no_progress (with_reducible apply Inv.frame) | split | (dsimp only)
    | fail_if_no_progress (refine Inv.pkg ?_ (by rfl))

theorem State.writePlace_inv {s : State} {p : Place} {bs : List Byte} {src : W64} (hs : s.Inv) :
    (s.writePlace p bs src).Inv := by
  unfold State.writePlace
  split
  · exact State.storeWatched_inv hs
  · exact Inv.dram hs (cellsWf_putBytes (Inv.dramWf hs))
  · exact Inv.host hs (cellsWf_putBytes (Inv.hostWf hs))
  · exact hs

theorem State.setPort_inv {s : State} {d : Nat} {p : Port} (hs : s.Inv) : (State.setPort s d p).Inv := by
  unfold State.setPort
  repeat' first
    | with_reducible exact hs | with_reducible assumption | with_reducible refine Inv.fst (by assumption) ?_
    | with_reducible apply Inv.ite | (intro _) | fail_if_no_progress (with_reducible apply Inv.frame) | split | (dsimp only)
    | fail_if_no_progress (refine Inv.pkg ?_ (by rfl))

theorem State.portState_inv {s : State} {d : Nat} {x : PortState} (hs : s.Inv) : (State.portState s d x).Inv := by
  unfold State.portState
  repeat' first
    | with_reducible exact hs | with_reducible assumption | with_reducible refine Inv.fst (by assumption) ?_
    | with_reducible apply State.lanternM_inv | with_reducible apply State.setPort_inv | with_reducible apply Inv.ite
    | (intro _) | fail_if_no_progress (with_reducible apply Inv.frame) | split | (dsimp only)
    | fail_if_no_progress (refine Inv.pkg ?_ (by rfl))

theorem State.enter_inv {s : State} {d : Nat} {k : Packet} (hs : s.Inv) : (State.enter s d k).Inv := by
  unfold State.enter
  repeat' first
    | with_reducible exact hs | with_reducible assumption | with_reducible refine Inv.fst (by assumption) ?_
    | with_reducible apply State.setPort_inv | with_reducible apply Inv.ite | (intro _)
    | fail_if_no_progress (with_reducible apply Inv.frame) | split | (dsimp only)
    | fail_if_no_progress (refine Inv.pkg ?_ (by rfl))

theorem State.overGuyline_inv {s : State} {d : Nat} {k : Packet} {l : W32} (hs : s.Inv) : (State.overGuyline s d k l).Inv :=
    by
  unfold State.overGuyline
  repeat' first
    | with_reducible exact hs | with_reducible assumption | with_reducible refine Inv.fst (by assumption) ?_
    | with_reducible apply State.setPort_inv | with_reducible apply State.enter_inv | with_reducible apply Inv.ite
    | (intro _) | fail_if_no_progress (with_reducible apply Inv.frame) | split | (dsimp only)
    | fail_if_no_progress (refine Inv.pkg ?_ (by rfl))

theorem State.trySend_inv {s : State} {d : Nat} {k : Packet} (hs : s.Inv) : ∀ t, s.trySend d k = some t → t.Inv := by
  intro t h
  unfold State.trySend at h
  dsimp only at h
  split at h
  · cases h
    exact State.setPort_inv hs
  · split at h
    · cases h
      exact State.overGuyline_inv (State.setPort_inv hs)
    · cases h

theorem State.transmit_inv {s : State} {d : Nat} {k : Packet} (hs : s.Inv) : (s.transmit d k).1.Inv := by
  unfold State.transmit
  split
  · exact hs
  · dsimp only
    split
    · exact State.setPort_inv hs
    · cases h : s.trySend d k with
      | none => exact State.setPort_inv hs
      | some t => exact State.trySend_inv hs t h

theorem State.flushFrom_inv {d : Nat} : ∀ {n : Nat} {s : State}, s.Inv → (s.flushFrom d n).Inv
  | 0, _, hs => hs
  | n + 1, s, hs => by
    unfold State.flushFrom
    dsimp only
    split
    · exact hs
    · split
      · rename_i t h
        exact State.flushFrom_inv (State.trySend_inv (State.setPort_inv hs) t h)
      · exact hs

theorem State.flushPort_inv {s : State} {d : Nat} (hs : s.Inv) : (s.flushPort d).Inv := State.flushFrom_inv hs

theorem State.mapCopy_inv {s : State} {i num : Nat} {f : CopyCmd → CopyCmd} (hs : s.Inv) : (State.mapCopy s i num f).Inv :=
    by
  unfold State.mapCopy
  repeat' first
    | with_reducible exact hs | with_reducible assumption | with_reducible refine Inv.fst (by assumption) ?_
    | with_reducible apply Inv.ite | (intro _) | fail_if_no_progress (with_reducible apply Inv.frame) | split | (dsimp only)
    | fail_if_no_progress (refine Inv.pkg ?_ (by rfl))

theorem State.mapCopyX_inv {s : State} {i : Nat} {x : W16} {f : CopyCmd → CopyCmd} (hs : s.Inv) : (State.mapCopyX s i x
    f).Inv := by
  unfold State.mapCopyX
  repeat' first
    | with_reducible exact hs | with_reducible assumption | with_reducible refine Inv.fst (by assumption) ?_
    | with_reducible apply Inv.ite | (intro _) | fail_if_no_progress (with_reducible apply Inv.frame) | split | (dsimp only)
    | fail_if_no_progress (refine Inv.pkg ?_ (by rfl))

theorem State.mapWalk_inv {s : State} {num : Nat} {f : WCmd → WCmd} (hs : s.Inv) : (State.mapWalk s num f).Inv := by
  unfold State.mapWalk
  repeat' first
    | with_reducible exact hs | with_reducible assumption | with_reducible refine Inv.fst (by assumption) ?_
    | with_reducible apply Inv.ite | (intro _) | fail_if_no_progress (with_reducible apply Inv.frame) | split | (dsimp only)
    | fail_if_no_progress (refine Inv.pkg ?_ (by rfl))

theorem State.setXq_inv {s : State} {q : Nat} {x : XQueue} (hs : s.Inv) : (State.setXq s q x).Inv := by
  unfold State.setXq
  repeat' first
    | with_reducible exact hs | with_reducible assumption | with_reducible refine Inv.fst (by assumption) ?_
    | with_reducible apply Inv.ite | (intro _) | fail_if_no_progress (with_reducible apply Inv.frame) | split | (dsimp only)
    | fail_if_no_progress (refine Inv.pkg ?_ (by rfl))

theorem State.linkDown_inv {s : State} {k : Packet} (hs : s.Inv) : (State.linkDown s k).Inv := by
  unfold State.linkDown
  repeat' first
    | with_reducible exact hs | with_reducible assumption | with_reducible refine Inv.fst (by assumption) ?_
    | with_reducible apply State.mapCopy_inv | with_reducible apply State.mapWalk_inv | with_reducible apply State.setXq_inv
    | with_reducible apply Inv.ite | (intro _) | fail_if_no_progress (with_reducible apply Inv.frame) | split | (dsimp only)
    | fail_if_no_progress (refine Inv.pkg ?_ (by rfl))

theorem State.giveUp_inv {s : State} {k : Packet} (hs : s.Inv) : (State.giveUp s k).Inv := by
  unfold State.giveUp
  repeat' first
    | with_reducible exact hs | with_reducible assumption | with_reducible refine Inv.fst (by assumption) ?_
    | with_reducible apply State.transmit_inv | with_reducible apply State.linkDown_inv
    | with_reducible apply State.answer_inv | with_reducible apply Inv.ite | (intro _)
    | fail_if_no_progress (with_reducible apply Inv.frame) | split | (dsimp only)
    | fail_if_no_progress (refine Inv.pkg ?_ (by rfl))

theorem State.route_inv {s : State} {k : Packet} (hs : s.Inv) : (State.route s k).Inv := by
  unfold State.route
  repeat' first
    | with_reducible exact hs | with_reducible assumption | with_reducible refine Inv.fst (by assumption) ?_
    | with_reducible apply State.transmit_inv | with_reducible apply State.giveUp_inv | with_reducible apply Inv.ite
    | (intro _) | fail_if_no_progress (with_reducible apply Inv.frame) | split | (dsimp only)
    | fail_if_no_progress (refine Inv.pkg ?_ (by rfl))

theorem State.answer_inv {s : State} {k : Packet} {t : PType} {f : Packet → Packet} (hs : s.Inv) : (State.answer s k t
    f).Inv := by
  unfold State.answer
  repeat' first
    | with_reducible exact hs | with_reducible assumption | with_reducible refine Inv.fst (by assumption) ?_
    | with_reducible apply State.route_inv | with_reducible apply Inv.ite | (intro _)
    | fail_if_no_progress (with_reducible apply Inv.frame) | split | (dsimp only)
    | fail_if_no_progress (refine Inv.pkg ?_ (by rfl))

theorem State.sendWord_inv {s : State} {d : Nat} {w : LinkWord} (hs : s.Inv) : (State.sendWord s d w).Inv := by
  unfold State.sendWord
  repeat' first
    | with_reducible exact hs | with_reducible assumption | with_reducible refine Inv.fst (by assumption) ?_
    | with_reducible apply State.setPort_inv | with_reducible apply Inv.ite | (intro _)
    | fail_if_no_progress (with_reducible apply Inv.frame) | split | (dsimp only)
    | fail_if_no_progress (refine Inv.pkg ?_ (by rfl))

theorem State.linkReply_inv {s : State} {d : Nat} {ok : Bool} {l : W32} (hs : s.Inv) : (State.linkReply s d ok l).Inv := by
  unfold State.linkReply
  repeat' first
    | with_reducible exact hs | with_reducible assumption | with_reducible refine Inv.fst (by assumption) ?_
    | with_reducible apply State.sendWord_inv | with_reducible apply Inv.ite | (intro _)
    | fail_if_no_progress (with_reducible apply Inv.frame) | split | (dsimp only)
    | fail_if_no_progress (refine Inv.pkg ?_ (by rfl))

theorem State.checkFrame_inv {s : State} {d nctr : Nat} {tagOk : Bool} (hs : s.Inv) : (State.checkFrame s d nctr
    tagOk).1.Inv := by
  unfold State.checkFrame
  repeat' first
    | with_reducible exact hs | with_reducible assumption | with_reducible refine Inv.fst (by assumption) ?_
    | with_reducible apply State.setPort_inv | with_reducible apply State.linkReply_inv | with_reducible apply Inv.ite
    | (intro _) | dsimp only | fail_if_no_progress (with_reducible apply Inv.frame) | split | (dsimp only)
    | fail_if_no_progress (refine Inv.pkg ?_ (by rfl))

theorem State.acceptSeq_inv {s : State} {d : Nat} {l : W32} (hs : s.Inv) : (State.acceptSeq s d l).1.Inv := by
  unfold State.acceptSeq
  repeat' first
    | with_reducible exact hs | with_reducible assumption | with_reducible refine Inv.fst (by assumption) ?_
    | with_reducible apply State.setPort_inv | with_reducible apply State.linkReply_inv | with_reducible apply Inv.ite
    | (intro _) | dsimp only | fail_if_no_progress (with_reducible apply Inv.frame) | split | (dsimp only)
    | fail_if_no_progress (refine Inv.pkg ?_ (by rfl))

theorem State.openDetour_inv {s : State} {d : Nat} {o : Detour} {k : Packet} (hs : s.Inv) : (State.openDetour s d o k).1.Inv
    := by
  unfold State.openDetour
  repeat' first
    | with_reducible exact hs | with_reducible assumption | with_reducible refine Inv.fst (by assumption) ?_
    | with_reducible apply State.setPort_inv | with_reducible apply State.linkReply_inv
    | with_reducible apply State.acceptSeq_inv | with_reducible apply Inv.ite | (intro _) | dsimp only
    | fail_if_no_progress (with_reducible apply Inv.frame) | split | (dsimp only)
    | fail_if_no_progress (refine Inv.pkg ?_ (by rfl))

theorem State.accept_inv {s : State} {d : Nat} {k : Packet} (hs : s.Inv) : (State.accept s d k).1.Inv := by
  unfold State.accept
  repeat' first
    | with_reducible exact hs | with_reducible assumption | with_reducible refine Inv.fst (by assumption) ?_
    | with_reducible apply State.checkFrame_inv | with_reducible apply State.acceptSeq_inv
    | with_reducible apply State.openDetour_inv | with_reducible apply Inv.ite | (intro _) | dsimp only
    | fail_if_no_progress (with_reducible apply Inv.frame) | split | (dsimp only)
    | fail_if_no_progress (refine Inv.pkg ?_ (by rfl))

theorem State.receive_inv {s : State} {k : Packet} {perform : Packet → State → State} (hs : s.Inv)
    (hp : ∀ k s, s.Inv → (perform k s).Inv) : (s.receive k perform).Inv :=
  Inv.ite (State.giveUp_inv hs) (hp _ _ (Inv.frame hs))

theorem State.orBuffer_inv {s : State} {d : Nat} {k : Packet} {wait : Bool} {act : Packet → State → State} (hs : s.Inv)
    (ha : ∀ k s, s.Inv → (act k s).Inv) : (s.orBuffer d k wait act).Inv :=
  Inv.ite (State.setPort_inv hs) (ha _ _ hs)

theorem State.linkEvent_safe {s : State} {kind : Packet → Bool} {wait : State → Packet → Bool}
    {act : Packet → State → State} (hs : s.Inv) (ha : ∀ k s, s.Inv → (act k s).Inv) : Safe (s.linkEvent kind wait act) := by
  unfold State.linkEvent
  split
  · split
    · split
      · rename_i h
        exact State.orBuffer_inv (Inv.fst h (State.accept_inv hs)) ha
      · rename_i h
        exact Inv.fst h (State.accept_inv hs)
    · exact hs
  · dsimp only
    split
    · split
      · exact ha _ _ (State.setPort_inv hs)
      · exact hs
    · exact hs
  · exact hs

theorem State.packetEvent_safe {s : State} {kind : Packet → Bool} {perform : Packet → State → State} (hs : s.Inv)
    (hp : ∀ k s, s.Inv → (perform k s).Inv) : Safe (s.packetEvent kind perform) :=
  State.linkEvent_safe hs fun _ _ h => State.receive_inv h hp

theorem execRouterForward_safe {s : State} (hs : s.Inv) : Safe (execRouterForward s) := by
  unfold execRouterForward
  repeat' first
    | with_reducible exact hs | with_reducible assumption | with_reducible refine Inv.fst (by assumption) ?_
    | with_reducible apply State.route_inv | with_reducible apply State.linkEvent_safe | with_reducible apply Safe.next
    | with_reducible apply Safe.ite | (intro _) | fail_if_no_progress (with_reducible apply Inv.frame) | split
    | (dsimp only) | fail_if_no_progress (refine Inv.pkg ?_ (by rfl))

theorem execDetourForward_safe {s : State} (hs : s.Inv) : Safe (execDetourForward s) := by
  unfold execDetourForward
  repeat' first
    | with_reducible exact hs | with_reducible assumption | with_reducible refine Inv.fst (by assumption) ?_
    | with_reducible apply State.transmit_inv | with_reducible apply State.giveUp_inv
    | with_reducible apply State.linkEvent_safe | with_reducible apply Safe.next | with_reducible apply Safe.ite | (intro _)
    | fail_if_no_progress (with_reducible apply Inv.frame) | split | (dsimp only)
    | fail_if_no_progress (refine Inv.pkg ?_ (by rfl))

theorem State.passWord_inv {s : State} {d e hop : Nat} {f : LinkWord} (hs : s.Inv) : (State.passWord s d e hop f).Inv := by
  unfold State.passWord
  repeat' first
    | with_reducible exact hs | with_reducible assumption | with_reducible refine Inv.fst (by assumption) ?_
    | with_reducible apply State.setPort_inv | with_reducible apply Inv.ite | (intro _)
    | fail_if_no_progress (with_reducible apply Inv.frame) | split | (dsimp only)
    | fail_if_no_progress (refine Inv.pkg ?_ (by rfl))

theorem State.wordEvent_safe {s : State} {d via : Nat} {guy : Option (Nat × Nat)} {nctr : Nat} {tagOk : Bool} {f : LinkWord}
    {act : State → State} (hs : s.Inv) (ha : ∀ s, s.Inv → (act s).Inv) : Safe (s.wordEvent d via guy nctr tagOk f act) := by
  unfold State.wordEvent
  split
  · rename_i h
    exact Inv.fst h (State.checkFrame_inv hs)
  · rename_i h
    have hc := Inv.fst h (State.checkFrame_inv hs)
    split
    · exact Safe.next (Inv.ite (State.passWord_inv hc) (ha _ hc))
    · exact Safe.next (ha _ hc)

theorem execLinkAcknowledgement_safe {s : State} (hs : s.Inv) : Safe (execLinkAcknowledgement s) := by
  unfold execLinkAcknowledgement
  repeat' first
    | with_reducible exact hs | with_reducible assumption | with_reducible refine Inv.fst (by assumption) ?_
    | with_reducible apply State.setPort_inv | with_reducible apply State.flushPort_inv
    | with_reducible apply State.wordEvent_safe | with_reducible apply Safe.next | with_reducible apply Safe.ite | (intro _)
    | fail_if_no_progress (with_reducible apply Inv.frame) | split | (dsimp only)
    | fail_if_no_progress (refine Inv.pkg ?_ (by rfl))

theorem State.dropHeld_inv {s : State} {d : Nat} {which : Packet → Bool} (hs : s.Inv) : (State.dropHeld s d which).Inv := by
  unfold State.dropHeld
  repeat' first
    | with_reducible exact hs | with_reducible assumption | with_reducible refine Inv.fst (by assumption) ?_
    | with_reducible apply State.setPort_inv | with_reducible apply State.giveUp_inv | with_reducible apply State.replay_inv
    | (with_reducible apply foldl_inv; intro _ _ _) | (with_reducible apply foldl_fst; intro _ _ _)
    | with_reducible apply Inv.ite | (intro _) | fail_if_no_progress (with_reducible apply Inv.frame) | split | (dsimp only)
    | fail_if_no_progress (refine Inv.pkg ?_ (by rfl))

theorem State.resend_inv {s : State} {d : Nat} (hs : s.Inv) : (State.resend s d).Inv := by
  unfold State.resend
  repeat' first
    | with_reducible exact hs | with_reducible assumption | with_reducible refine Inv.fst (by assumption) ?_
    | with_reducible apply State.setPort_inv | with_reducible apply State.giveUp_inv | with_reducible apply State.replay_inv
    | (with_reducible apply foldl_inv; intro _ _ _) | with_reducible apply Inv.ite | (intro _)
    | fail_if_no_progress (with_reducible apply Inv.frame) | split | (dsimp only)
    | fail_if_no_progress (refine Inv.pkg ?_ (by rfl))

theorem State.dropAll_inv {s : State} {d : Nat} (hs : s.Inv) : (State.dropAll s d).Inv := by
  unfold State.dropAll
  repeat' first
    | with_reducible exact hs | with_reducible assumption | with_reducible refine Inv.fst (by assumption) ?_
    | with_reducible apply State.setPort_inv | with_reducible apply State.giveUp_inv | with_reducible apply State.replay_inv
    | (with_reducible apply foldl_inv; intro _ _ _) | with_reducible apply Inv.ite | (intro _)
    | fail_if_no_progress (with_reducible apply Inv.frame) | split | (dsimp only)
    | fail_if_no_progress (refine Inv.pkg ?_ (by rfl))

theorem State.dropStuck_inv {s : State} {d : Nat} (hs : s.Inv) : (State.dropStuck s d).Inv :=
  Inv.ite (State.dropAll_inv hs) hs

theorem State.sweepPorts_inv {s : State} (hs : s.Inv) : (State.sweepPorts s).Inv := by
  unfold State.sweepPorts
  repeat' first
    | with_reducible exact hs | with_reducible assumption | with_reducible refine Inv.fst (by assumption) ?_
    | with_reducible apply State.dropStuck_inv | (with_reducible apply foldl_inv; intro _ _ _)
    | (with_reducible apply foldl_fst; intro _ _ _) | with_reducible apply Inv.ite | (intro _)
    | fail_if_no_progress (with_reducible apply Inv.frame) | split | (dsimp only)
    | fail_if_no_progress (refine Inv.pkg ?_ (by rfl))

theorem State.dropWaiting_inv {s : State} {d : Nat} (hs : s.Inv) : (State.dropWaiting s d).Inv := by
  unfold State.dropWaiting
  repeat' first
    | with_reducible exact hs | with_reducible assumption | with_reducible refine Inv.fst (by assumption) ?_
    | with_reducible apply State.setPort_inv | with_reducible apply State.giveUp_inv
    | (with_reducible apply foldl_inv; intro _ _ _) | (with_reducible apply foldl_fst; intro _ _ _)
    | with_reducible apply Inv.ite | (intro _) | fail_if_no_progress (with_reducible apply Inv.frame) | split | (dsimp only)
    | fail_if_no_progress (refine Inv.pkg ?_ (by rfl))

theorem State.switchOver_inv {s : State} {d : Nat} {x : PortState} (hs : s.Inv) : (State.switchOver s d x).Inv := by
  unfold State.switchOver
  repeat' first
    | with_reducible exact hs | with_reducible assumption | with_reducible refine Inv.fst (by assumption) ?_
    | with_reducible apply State.portState_inv | with_reducible apply State.flushPort_inv
    | with_reducible apply State.resend_inv | with_reducible apply State.sweepPorts_inv
    | with_reducible apply State.dropWaiting_inv | with_reducible apply Inv.ite | (intro _)
    | fail_if_no_progress (with_reducible apply Inv.frame) | split | (dsimp only)
    | fail_if_no_progress (refine Inv.pkg ?_ (by rfl))

theorem State.replay_inv {s : State} {d : Nat} (hs : s.Inv) : (State.replay s d).Inv := by
  unfold State.replay
  repeat' first
    | with_reducible exact hs | with_reducible assumption | with_reducible refine Inv.fst (by assumption) ?_
    | with_reducible apply State.setPort_inv | with_reducible apply State.resend_inv
    | with_reducible apply State.switchOver_inv | with_reducible apply Inv.ite | (intro _)
    | fail_if_no_progress (with_reducible apply Inv.frame) | split | (dsimp only)
    | fail_if_no_progress (refine Inv.pkg ?_ (by rfl))

theorem execNegativeAcknowledgement_safe {s : State} (hs : s.Inv) : Safe (execNegativeAcknowledgement s) := by
  unfold execNegativeAcknowledgement
  repeat' first
    | with_reducible exact hs | with_reducible assumption | with_reducible refine Inv.fst (by assumption) ?_
    | with_reducible apply State.setPort_inv | with_reducible apply State.flushPort_inv
    | with_reducible apply State.wordEvent_safe | with_reducible apply State.replay_inv | with_reducible apply Safe.next
    | with_reducible apply Safe.ite | (intro _) | fail_if_no_progress (with_reducible apply Inv.frame) | split
    | (dsimp only) | fail_if_no_progress (refine Inv.pkg ?_ (by rfl))

theorem execReplayTimeout_safe {s : State} (hs : s.Inv) : Safe (execReplayTimeout s) := by
  unfold execReplayTimeout
  repeat' first
    | with_reducible exact hs | with_reducible assumption | with_reducible refine Inv.fst (by assumption) ?_
    | with_reducible apply State.replay_inv | with_reducible apply Safe.next | with_reducible apply Safe.ite | (intro _)
    | fail_if_no_progress (with_reducible apply Inv.frame) | split | (dsimp only)
    | fail_if_no_progress (refine Inv.pkg ?_ (by rfl))

theorem execGuylineSwitchBack_safe {s : State} (hs : s.Inv) : Safe (execGuylineSwitchBack s) := by
  unfold execGuylineSwitchBack
  repeat' first
    | with_reducible exact hs | with_reducible assumption | with_reducible refine Inv.fst (by assumption) ?_
    | with_reducible apply State.setPort_inv | with_reducible apply State.flushPort_inv
    | with_reducible apply State.replay_inv | with_reducible apply Safe.next | with_reducible apply Safe.ite | (intro _)
    | fail_if_no_progress (with_reducible apply Inv.frame) | split | (dsimp only)
    | fail_if_no_progress (refine Inv.pkg ?_ (by rfl))

theorem execLossOfSignal_safe {s : State} (hs : s.Inv) : Safe (execLossOfSignal s) := by
  unfold execLossOfSignal
  repeat' first
    | with_reducible exact hs | with_reducible assumption | with_reducible refine Inv.fst (by assumption) ?_
    | with_reducible apply State.switchOver_inv | with_reducible apply Safe.next | with_reducible apply Safe.ite | (intro _)
    | fail_if_no_progress (with_reducible apply Inv.frame) | split | (dsimp only)
    | fail_if_no_progress (refine Inv.pkg ?_ (by rfl))

theorem execManagementEnable_safe {s : State} (hs : s.Inv) : Safe (execManagementEnable s) := by
  unfold execManagementEnable
  repeat' first
    | with_reducible exact hs | with_reducible assumption | with_reducible refine Inv.fst (by assumption) ?_
    | with_reducible apply State.portState_inv | with_reducible apply Safe.next | with_reducible apply Safe.ite | (intro _)
    | fail_if_no_progress (with_reducible apply Inv.frame) | split | (dsimp only)
    | fail_if_no_progress (refine Inv.pkg ?_ (by rfl))

theorem execManagementDisable_safe {s : State} (hs : s.Inv) : Safe (execManagementDisable s) := by
  unfold execManagementDisable
  repeat' first
    | with_reducible exact hs | with_reducible assumption | with_reducible refine Inv.fst (by assumption) ?_
    | with_reducible apply State.switchOver_inv | with_reducible apply Safe.next | with_reducible apply Safe.ite | (intro _)
    | fail_if_no_progress (with_reducible apply Inv.frame) | split | (dsimp only)
    | fail_if_no_progress (refine Inv.pkg ?_ (by rfl))

theorem execFailedRetrain_safe {s : State} (hs : s.Inv) : Safe (execFailedRetrain s) := by
  unfold execFailedRetrain
  repeat' first
    | with_reducible exact hs | with_reducible assumption | with_reducible refine Inv.fst (by assumption) ?_
    | with_reducible apply State.portState_inv | with_reducible apply Safe.next | with_reducible apply Safe.ite | (intro _)
    | fail_if_no_progress (with_reducible apply Inv.frame) | split | (dsimp only)
    | fail_if_no_progress (refine Inv.pkg ?_ (by rfl))

theorem State.setReady_inv {s : State} {w b : Nat} (hs : s.Inv) : (State.setReady s w b).Inv := by
  unfold State.setReady
  repeat' first
    | with_reducible exact hs | with_reducible assumption | with_reducible refine Inv.fst (by assumption) ?_
    | with_reducible apply Inv.ite | (intro _) | fail_if_no_progress (with_reducible apply Inv.frame) | split | (dsimp only)
    | fail_if_no_progress (refine Inv.pkg ?_ (by rfl))

theorem execTrainingComplete_safe {s : State} (hs : s.Inv) : Safe (execTrainingComplete s) := by
  unfold execTrainingComplete
  repeat' first
    | with_reducible exact hs | with_reducible assumption | with_reducible refine Inv.fst (by assumption) ?_
    | with_reducible apply State.setPort_inv | with_reducible apply State.portState_inv
    | with_reducible apply State.flushPort_inv | with_reducible apply State.resend_inv | with_reducible apply Safe.next
    | with_reducible apply Safe.ite | (intro _) | fail_if_no_progress (with_reducible apply Inv.frame) | split
    | (dsimp only) | fail_if_no_progress (refine Inv.pkg ?_ (by rfl))

theorem execTrainTimeout_safe {s : State} (hs : s.Inv) : Safe (execTrainTimeout s) := by
  unfold execTrainTimeout
  repeat' first
    | with_reducible exact hs | with_reducible assumption | with_reducible refine Inv.fst (by assumption) ?_
    | with_reducible apply State.switchOver_inv | with_reducible apply Safe.next | with_reducible apply Safe.ite | (intro _)
    | fail_if_no_progress (with_reducible apply Inv.frame) | split | (dsimp only)
    | fail_if_no_progress (refine Inv.pkg ?_ (by rfl))

theorem execRekeyStart_safe {s : State} (hs : s.Inv) : Safe (execRekeyStart s) := by
  unfold execRekeyStart
  repeat' first
    | with_reducible exact hs | with_reducible assumption | with_reducible refine Inv.fst (by assumption) ?_
    | with_reducible apply State.setPort_inv | with_reducible apply State.sendWord_inv
    | with_reducible apply State.wordEvent_safe | with_reducible apply Safe.next | with_reducible apply Safe.ite | (intro _)
    | fail_if_no_progress (with_reducible apply Inv.frame) | split | (dsimp only)
    | fail_if_no_progress (refine Inv.pkg ?_ (by rfl))

theorem execRekeyComplete_safe {s : State} (hs : s.Inv) : Safe (execRekeyComplete s) := by
  unfold execRekeyComplete
  repeat' first
    | with_reducible exact hs | with_reducible assumption | with_reducible refine Inv.fst (by assumption) ?_
    | with_reducible apply State.setPort_inv | with_reducible apply State.portState_inv
    | with_reducible apply State.flushPort_inv | with_reducible apply Safe.next | with_reducible apply Safe.ite | (intro _)
    | fail_if_no_progress (with_reducible apply Inv.frame) | split | (dsimp only)
    | fail_if_no_progress (refine Inv.pkg ?_ (by rfl))

theorem execNonceLimit_safe {s : State} (hs : s.Inv) : Safe (execNonceLimit s) := by
  unfold execNonceLimit
  repeat' first
    | with_reducible exact hs | with_reducible assumption | with_reducible refine Inv.fst (by assumption) ?_
    | with_reducible apply State.dropStuck_inv | with_reducible apply State.switchOver_inv | with_reducible apply Safe.next
    | with_reducible apply Safe.ite | (intro _) | fail_if_no_progress (with_reducible apply Inv.frame) | split
    | (dsimp only) | fail_if_no_progress (refine Inv.pkg ?_ (by rfl))

theorem State.park_inv {s : State} {d : Nat} (hs : s.Inv) : (State.park s d).Inv := by
  unfold State.park
  repeat' first
    | with_reducible exact hs | with_reducible assumption | with_reducible refine Inv.fst (by assumption) ?_
    | with_reducible apply State.setPort_inv | with_reducible apply State.portState_inv | with_reducible apply Inv.ite
    | (intro _) | fail_if_no_progress (with_reducible apply Inv.frame) | split | (dsimp only)
    | fail_if_no_progress (refine Inv.pkg ?_ (by rfl))

theorem execPark_safe {s : State} (hs : s.Inv) : Safe (execPark s) := by
  unfold execPark
  repeat' first
    | with_reducible exact hs | with_reducible assumption | with_reducible refine Inv.fst (by assumption) ?_
    | with_reducible apply State.sendWord_inv | with_reducible apply State.wordEvent_safe
    | with_reducible apply State.sweepPorts_inv | with_reducible apply State.dropWaiting_inv
    | with_reducible apply State.park_inv | with_reducible apply Safe.next | with_reducible apply Safe.ite | (intro _)
    | fail_if_no_progress (with_reducible apply Inv.frame) | split | (dsimp only)
    | fail_if_no_progress (refine Inv.pkg ?_ (by rfl))

theorem State.sendResync_inv {s : State} {d : Nat} (hs : s.Inv) : (State.sendResync s d).Inv := by
  unfold State.sendResync
  repeat' first
    | with_reducible exact hs | with_reducible assumption | with_reducible refine Inv.fst (by assumption) ?_
    | with_reducible apply State.sendWord_inv | with_reducible apply State.setPort_inv | with_reducible apply Inv.ite
    | (intro _) | fail_if_no_progress (with_reducible apply Inv.frame) | split | (dsimp only)
    | fail_if_no_progress (refine Inv.pkg ?_ (by rfl))

theorem State.payResync_inv {s : State} {d : Nat} (hs : s.Inv) : (s.payResync d).Inv :=
  Inv.ite (State.sendResync_inv hs) (State.flushPort_inv (State.resend_inv (State.sendResync_inv hs)))

theorem State.takeResync_inv {s : State} {d : Nat} {lacc : W32} (hs : s.Inv) : (State.takeResync s d lacc).Inv := by
  unfold State.takeResync
  repeat' first
    | with_reducible exact hs | with_reducible assumption | with_reducible refine Inv.fst (by assumption) ?_
    | with_reducible apply State.setPort_inv | with_reducible apply State.portState_inv
    | with_reducible apply State.flushPort_inv | with_reducible apply State.resend_inv
    | with_reducible apply State.sweepPorts_inv | with_reducible apply State.sendResync_inv
    | with_reducible apply Inv.ite
    | (intro _) | fail_if_no_progress (with_reducible apply Inv.frame) | split | (dsimp only)
    | fail_if_no_progress (refine Inv.pkg ?_ (by rfl))

theorem State.retrain_inv {s : State} {d : Nat} (hs : s.Inv) : (State.retrain s d).Inv := by
  unfold State.retrain
  repeat' first
    | with_reducible exact hs | with_reducible assumption | with_reducible refine Inv.fst (by assumption) ?_
    | with_reducible apply State.setPort_inv | with_reducible apply State.portState_inv | with_reducible apply Inv.ite
    | (intro _) | fail_if_no_progress (with_reducible apply Inv.frame) | split | (dsimp only)
    | fail_if_no_progress (refine Inv.pkg ?_ (by rfl))

theorem State.freshPort_inv {s : State} {d : Nat} (hs : s.Inv) : (State.freshPort s d).Inv := by
  unfold State.freshPort
  repeat' first
    | with_reducible exact hs | with_reducible assumption | with_reducible refine Inv.fst (by assumption) ?_
    | with_reducible apply State.setPort_inv | with_reducible apply State.portState_inv
    | with_reducible apply State.giveUp_inv | with_reducible apply State.replay_inv
    | (with_reducible apply foldl_inv; intro _ _ _) | (with_reducible apply foldl_fst; intro _ _ _)
    | with_reducible apply Inv.ite | (intro _) | fail_if_no_progress (with_reducible apply Inv.frame) | split | (dsimp only)
    | fail_if_no_progress (refine Inv.pkg ?_ (by rfl))

theorem execParkack_safe {s : State} (hs : s.Inv) : Safe (execParkack s) := by
  unfold execParkack
  repeat' first
    | with_reducible exact hs | with_reducible assumption | with_reducible refine Inv.fst (by assumption) ?_
    | with_reducible apply State.setPort_inv | with_reducible apply State.wordEvent_safe
    | with_reducible apply State.sweepPorts_inv | with_reducible apply State.park_inv
    | with_reducible apply State.takeResync_inv | with_reducible apply State.retrain_inv
    | with_reducible apply State.freshPort_inv | with_reducible apply State.payResync_inv | with_reducible apply Safe.next
    | with_reducible apply Safe.ite | (intro _) | fail_if_no_progress (with_reducible apply Inv.frame) | split
    | (dsimp only) | fail_if_no_progress (refine Inv.pkg ?_ (by rfl))

theorem State.askPark_inv {s : State} {d : Nat} (hs : s.Inv) : (State.askPark s d).Inv := by
  unfold State.askPark
  repeat' first
    | with_reducible exact hs | with_reducible assumption | with_reducible refine Inv.fst (by assumption) ?_
    | with_reducible apply State.setPort_inv | with_reducible apply State.sendWord_inv | with_reducible apply State.park_inv
    | with_reducible apply Inv.ite | (intro _) | fail_if_no_progress (with_reducible apply Inv.frame) | split | (dsimp only)
    | fail_if_no_progress (refine Inv.pkg ?_ (by rfl))

theorem State.parkAll_inv {s : State} (hs : s.Inv) : (State.parkAll s).Inv := by
  unfold State.parkAll
  repeat' first
    | with_reducible exact hs | with_reducible assumption | with_reducible refine Inv.fst (by assumption) ?_
    | with_reducible apply State.askPark_inv | (with_reducible apply foldl_inv; intro _ _ _)
    | (with_reducible apply foldl_fst; intro _ _ _) | with_reducible apply Inv.ite | (intro _)
    | fail_if_no_progress (with_reducible apply Inv.frame) | split | (dsimp only)
    | fail_if_no_progress (refine Inv.pkg ?_ (by rfl))

theorem State.parkRest_inv {s : State} (hs : s.Inv) : (State.parkRest s).Inv := by
  unfold State.parkRest
  repeat' first
    | with_reducible exact hs | with_reducible assumption | with_reducible refine Inv.fst (by assumption) ?_
    | with_reducible apply State.park_inv | (with_reducible apply foldl_inv; intro _ _ _)
    | (with_reducible apply foldl_fst; intro _ _ _) | with_reducible apply Inv.ite | (intro _)
    | fail_if_no_progress (with_reducible apply Inv.frame) | split | (dsimp only)
    | fail_if_no_progress (refine Inv.pkg ?_ (by rfl))

theorem State.resync_inv {s : State} {d : Nat} {otherLink : Bool} (hs : s.Inv) : (State.resync s d otherLink).Inv := by
  unfold State.resync
  repeat' first
    | with_reducible exact hs | with_reducible assumption | with_reducible refine Inv.fst (by assumption) ?_
    | with_reducible apply State.setPort_inv | with_reducible apply State.portState_inv
    | with_reducible apply State.dropStuck_inv | with_reducible apply State.sendResync_inv
    | with_reducible apply State.retrain_inv | with_reducible apply Inv.ite | (intro _)
    | fail_if_no_progress (with_reducible apply Inv.frame) | split | (dsimp only)
    | fail_if_no_progress (refine Inv.pkg ?_ (by rfl))

theorem State.resyncAll_inv {s : State} {otherLink : Bool} (hs : s.Inv) : (State.resyncAll s otherLink).Inv := by
  unfold State.resyncAll
  repeat' first
    | with_reducible exact hs | with_reducible assumption | with_reducible refine Inv.fst (by assumption) ?_
    | with_reducible apply State.resync_inv | (with_reducible apply foldl_inv; intro _ _ _) | with_reducible apply Inv.ite
    | (intro _) | fail_if_no_progress (with_reducible apply Inv.frame) | split | (dsimp only)
    | fail_if_no_progress (refine Inv.pkg ?_ (by rfl))

theorem State.unparkAll_inv {s : State} (hs : s.Inv) : (State.unparkAll s).Inv := by
  unfold State.unparkAll
  repeat' first
    | with_reducible exact hs | with_reducible assumption | with_reducible refine Inv.fst (by assumption) ?_
    | with_reducible apply State.portState_inv | with_reducible apply State.flushPort_inv
    | with_reducible apply State.sweepPorts_inv | with_reducible apply State.sendResync_inv
    | (with_reducible apply foldl_inv; intro _ _ _) | (with_reducible apply foldl_fst; intro _ _ _)
    | with_reducible apply Inv.ite | (intro _) | fail_if_no_progress (with_reducible apply Inv.frame) | split | (dsimp only)
    | fail_if_no_progress (refine Inv.pkg ?_ (by rfl))

end Sys2Proof.Machine
end

