-- ==== Sys2Proof/Laws/KeepsCommands.lean ====
section
/-! SUPPORT. Copy engines, exchange queues, the walker and packets keep the invariant. -/

namespace Sys2Proof.Machine

set_option linter.all false

theorem State.charge_inv {s : State} {q : Nat} (hs : s.Inv) : (State.charge s q).Inv := by
  unfold State.charge
  repeat' first
    | with_reducible exact hs | with_reducible assumption | with_reducible refine Inv.fst (by assumption) ?_
    | with_reducible apply Inv.ite | (intro _) | fail_if_no_progress (with_reducible apply Inv.frame) | split | (dsimp only)
    | fail_if_no_progress (refine Inv.pkg ?_ (by rfl))

theorem State.postCopy_inv {s : State} {i : Nat} {op : CopyOp} {flag : Option (Nat × W64)} (hs : s.Inv) : (State.postCopy s
    i op flag).Inv := by
  unfold State.postCopy
  repeat' first
    | with_reducible exact hs | with_reducible assumption | with_reducible refine Inv.fst (by assumption) ?_
    | with_reducible apply State.takeNumber_inv | with_reducible apply Inv.ite | (intro _)
    | fail_if_no_progress (with_reducible apply Inv.frame) | split | (dsimp only)
    | fail_if_no_progress (refine Inv.pkg ?_ (by rfl))

theorem State.copySlot_safe {s : State} {g u : BitVec 4} {faults : List (Option SFault)} {op : CopyOp} {flag : Option (Nat ×
    W64)} (hs : s.Inv) : Safe (State.copySlot s g u faults op flag) := by
  unfold State.copySlot
  repeat' first
    | with_reducible exact hs | with_reducible assumption | with_reducible refine Inv.fst (by assumption) ?_
    | with_reducible apply State.slot_safe | with_reducible apply State.stallSlot_safe
    | with_reducible apply State.postCopy_inv | with_reducible apply Safe.next | with_reducible apply Safe.ite | (intro _)
    | fail_if_no_progress (with_reducible apply Inv.frame) | split | (dsimp only)
    | fail_if_no_progress (refine Inv.pkg ?_ (by rfl))

theorem execCpy_safe {g u e : BitVec 4} {f : BitVec 1} {s : State} (hs : s.Inv) : Safe (execCpy g u e f s) := by
  unfold execCpy
  repeat' first
    | with_reducible exact hs | with_reducible assumption | with_reducible refine Inv.fst (by assumption) ?_
    | with_reducible apply State.copySlot_safe | with_reducible apply Safe.next | with_reducible apply Safe.ite | (intro _)
    | fail_if_no_progress (with_reducible apply Inv.frame) | split | (dsimp only)
    | fail_if_no_progress (refine Inv.pkg ?_ (by rfl))

theorem execCpy2_safe {g u e : BitVec 4} {f : BitVec 1} {s : State} (hs : s.Inv) : Safe (execCpy2 g u e f s) := by
  unfold execCpy2
  repeat' first
    | with_reducible exact hs | with_reducible assumption | with_reducible refine Inv.fst (by assumption) ?_
    | with_reducible apply State.copySlot_safe | with_reducible apply Safe.next | with_reducible apply Safe.ite | (intro _)
    | fail_if_no_progress (with_reducible apply Inv.frame) | split | (dsimp only)
    | fail_if_no_progress (refine Inv.pkg ?_ (by rfl))

theorem execCpyz_safe {g u e p : BitVec 4} {s : State} (hs : s.Inv) : Safe (execCpyz g u e p s) := by
  unfold execCpyz
  repeat' first
    | with_reducible exact hs | with_reducible assumption | with_reducible refine Inv.fst (by assumption) ?_
    | with_reducible apply State.copySlot_safe | with_reducible apply Safe.next | with_reducible apply Safe.ite | (intro _)
    | fail_if_no_progress (with_reducible apply Inv.frame) | split | (dsimp only)
    | fail_if_no_progress (refine Inv.pkg ?_ (by rfl))

theorem execCpyx_safe {g u e p : BitVec 4} {s : State} (hs : s.Inv) : Safe (execCpyx g u e p s) := by
  unfold execCpyx
  repeat' first
    | with_reducible exact hs | with_reducible assumption | with_reducible refine Inv.fst (by assumption) ?_
    | with_reducible apply State.copySlot_safe | with_reducible apply Safe.next | with_reducible apply Safe.ite | (intro _)
    | fail_if_no_progress (with_reducible apply Inv.frame) | split | (dsimp only)
    | fail_if_no_progress (refine Inv.pkg ?_ (by rfl))

theorem execCfill_safe {g u e : BitVec 4} {f : BitVec 1} {s : State} (hs : s.Inv) : Safe (execCfill g u e f s) := by
  unfold execCfill
  repeat' first
    | with_reducible exact hs | with_reducible assumption | with_reducible refine Inv.fst (by assumption) ?_
    | with_reducible apply State.copySlot_safe | with_reducible apply Safe.next | with_reducible apply Safe.ite | (intro _)
    | fail_if_no_progress (with_reducible apply Inv.frame) | split | (dsimp only)
    | fail_if_no_progress (refine Inv.pkg ?_ (by rfl))

theorem execRld_safe {g u e : BitVec 4} {s : State} (hs : s.Inv) : Safe (execRld g u e s) := by
  unfold execRld
  repeat' first
    | with_reducible exact hs | with_reducible assumption | with_reducible refine Inv.fst (by assumption) ?_
    | with_reducible apply State.copySlot_safe | with_reducible apply Safe.next | with_reducible apply Safe.ite | (intro _)
    | fail_if_no_progress (with_reducible apply Inv.frame) | split | (dsimp only)
    | fail_if_no_progress (refine Inv.pkg ?_ (by rfl))

theorem execRst_safe {g u e : BitVec 4} {f : BitVec 1} {s : State} (hs : s.Inv) : Safe (execRst g u e f s) := by
  unfold execRst
  repeat' first
    | with_reducible exact hs | with_reducible assumption | with_reducible refine Inv.fst (by assumption) ?_
    | with_reducible apply State.copySlot_safe | with_reducible apply Safe.next | with_reducible apply Safe.ite | (intro _)
    | fail_if_no_progress (with_reducible apply Inv.frame) | split | (dsimp only)
    | fail_if_no_progress (refine Inv.pkg ?_ (by rfl))

theorem State.ratmSlot_safe {s : State} {g u e p : BitVec 4} {wide : Bool} (hs : s.Inv) : Safe (State.ratmSlot s g u e p
    wide) := by
  unfold State.ratmSlot
  repeat' first
    | with_reducible exact hs | with_reducible assumption | with_reducible refine Inv.fst (by assumption) ?_
    | with_reducible apply State.copySlot_safe | with_reducible apply Safe.next | with_reducible apply Safe.ite | (intro _)
    | fail_if_no_progress (with_reducible apply Inv.frame) | split | (dsimp only)
    | fail_if_no_progress (refine Inv.pkg ?_ (by rfl))

theorem execRatmW_safe {g u e p : BitVec 4} {s : State} (hs : s.Inv) : Safe (execRatmW g u e p s) := by
  unfold execRatmW
  repeat' first
    | with_reducible exact hs | with_reducible assumption | with_reducible refine Inv.fst (by assumption) ?_
    | with_reducible apply State.ratmSlot_safe | with_reducible apply Safe.next | with_reducible apply Safe.ite | (intro _)
    | fail_if_no_progress (with_reducible apply Inv.frame) | split | (dsimp only)
    | fail_if_no_progress (refine Inv.pkg ?_ (by rfl))

theorem execRatmD_safe {g u e p : BitVec 4} {s : State} (hs : s.Inv) : Safe (execRatmD g u e p s) := by
  unfold execRatmD
  repeat' first
    | with_reducible exact hs | with_reducible assumption | with_reducible refine Inv.fst (by assumption) ?_
    | with_reducible apply State.ratmSlot_safe | with_reducible apply Safe.next | with_reducible apply Safe.ite | (intro _)
    | fail_if_no_progress (with_reducible apply Inv.frame) | split | (dsimp only)
    | fail_if_no_progress (refine Inv.pkg ?_ (by rfl))

theorem execRred_safe {g u e : BitVec 4} {f : BitVec 1} {p : BitVec 4} {s : State} (hs : s.Inv) : Safe (execRred g u e f p
    s) := by
  unfold execRred
  repeat' first
    | with_reducible exact hs | with_reducible assumption | with_reducible refine Inv.fst (by assumption) ?_
    | with_reducible apply State.copySlot_safe | with_reducible apply Safe.next | with_reducible apply Safe.ite | (intro _)
    | fail_if_no_progress (with_reducible apply Inv.frame) | split | (dsimp only)
    | fail_if_no_progress (refine Inv.pkg ?_ (by rfl))

theorem execFput_safe {g u e : BitVec 4} {s : State} (hs : s.Inv) : Safe (execFput g u e s) := by
  unfold execFput
  repeat' first
    | with_reducible exact hs | with_reducible assumption | with_reducible refine Inv.fst (by assumption) ?_
    | with_reducible apply State.copySlot_safe | with_reducible apply Safe.next | with_reducible apply Safe.ite | (intro _)
    | fail_if_no_progress (with_reducible apply Inv.frame) | split | (dsimp only)
    | fail_if_no_progress (refine Inv.pkg ?_ (by rfl))

theorem execCfence_safe {g u : BitVec 4} {s : State} (hs : s.Inv) : Safe (execCfence g u s) := by
  unfold execCfence
  repeat' first
    | with_reducible exact hs | with_reducible assumption | with_reducible refine Inv.fst (by assumption) ?_
    | with_reducible apply State.copySlot_safe | with_reducible apply Safe.next | with_reducible apply Safe.ite | (intro _)
    | fail_if_no_progress (with_reducible apply Inv.frame) | split | (dsimp only)
    | fail_if_no_progress (refine Inv.pkg ?_ (by rfl))

theorem State.startCopy_inv {s : State} {i : Nat} (hs : s.Inv) : (State.startCopy s i).Inv := by
  unfold State.startCopy
  repeat' first
    | with_reducible exact hs | with_reducible assumption | with_reducible refine Inv.fst (by assumption) ?_
    | with_reducible apply State.mapCopy_inv | with_reducible apply State.charge_inv | with_reducible apply Inv.ite
    | (intro _) | fail_if_no_progress (with_reducible apply Inv.frame) | split | (dsimp only)
    | fail_if_no_progress (refine Inv.pkg ?_ (by rfl))

theorem execIssueBufferEnter_safe {s : State} (hs : s.Inv) : Safe (execIssueBufferEnter s) := by
  unfold execIssueBufferEnter
  repeat' first
    | with_reducible exact hs | with_reducible assumption | with_reducible refine Inv.fst (by assumption) ?_
    | with_reducible apply Safe.next | with_reducible apply Safe.ite | (intro _)
    | fail_if_no_progress (with_reducible apply Inv.frame) | split | (dsimp only)
    | fail_if_no_progress (refine Inv.pkg ?_ (by rfl))

theorem State.stallCopy_inv {s : State} {i : Nat} {c : CopyCmd} {cause entry va : Nat} (hs : s.Inv) : (State.stallCopy s i c
    cause entry va).Inv := by
  unfold State.stallCopy
  repeat' first
    | with_reducible exact hs | with_reducible assumption | with_reducible refine Inv.fst (by assumption) ?_
    | with_reducible apply State.lanternM_inv | with_reducible apply State.emit_inv | with_reducible apply State.mapCopy_inv
    | with_reducible apply Inv.ite | (intro _) | fail_if_no_progress (with_reducible apply Inv.frame) | split | (dsimp only)
    | fail_if_no_progress (refine Inv.pkg ?_ (by rfl))

theorem State.copyPacket_inv {s : State} {i : Nat} {c : CopyCmd} {t : PType} {p : Place} {f : Packet → Packet} (hs : s.Inv)
    : (State.copyPacket s i c t p f).Inv := by
  unfold State.copyPacket
  repeat' first
    | with_reducible exact hs | with_reducible assumption | with_reducible refine Inv.fst (by assumption) ?_
    | with_reducible apply State.mapCopy_inv | with_reducible apply State.route_inv | with_reducible apply Inv.ite
    | (intro _) | fail_if_no_progress (with_reducible apply Inv.frame) | split | (dsimp only)
    | fail_if_no_progress (refine Inv.pkg ?_ (by rfl))

theorem State.deliverCopy_inv {s : State} {i : Nat} {c : CopyCmd} {da : Nat} {bs : List Byte} (hs : s.Inv) :
    (State.deliverCopy s i c da bs).Inv := by
  unfold State.deliverCopy
  repeat' first
    | with_reducible exact hs | with_reducible assumption | with_reducible refine Inv.fst (by assumption) ?_
    | with_reducible apply State.writePlace_inv | with_reducible apply State.copyPacket_inv | with_reducible apply Inv.ite
    | (intro _) | fail_if_no_progress (with_reducible apply Inv.frame) | split | (dsimp only)
    | fail_if_no_progress (refine Inv.pkg ?_ (by rfl))

theorem State.moveCopy_inv {s : State} {i : Nat} {c : CopyCmd} (hs : s.Inv) : (State.moveCopy s i c).Inv := by
  unfold State.moveCopy
  repeat' first
    | with_reducible exact hs | with_reducible assumption | with_reducible refine Inv.fst (by assumption) ?_
    | with_reducible apply State.storeWatched_inv | with_reducible apply State.mapCopy_inv
    | with_reducible apply State.stallCopy_inv | with_reducible apply State.copyPacket_inv
    | with_reducible apply State.deliverCopy_inv | with_reducible apply Inv.ite | (intro _)
    | fail_if_no_progress (with_reducible apply Inv.frame) | split | (dsimp only)
    | fail_if_no_progress (refine Inv.pkg ?_ (by rfl))

theorem State.flagCopy_inv {s : State} {i : Nat} {c : CopyCmd} {fa : Nat} {v : W64} (hs : s.Inv) : (State.flagCopy s i c fa
    v).Inv := by
  unfold State.flagCopy
  repeat' first
    | with_reducible exact hs | with_reducible assumption | with_reducible refine Inv.fst (by assumption) ?_
    | with_reducible apply State.writePlace_inv | with_reducible apply State.mapCopy_inv
    | with_reducible apply State.copyPacket_inv | with_reducible apply Inv.ite | (intro _)
    | fail_if_no_progress (with_reducible apply Inv.frame) | split | (dsimp only)
    | fail_if_no_progress (refine Inv.pkg ?_ (by rfl))

theorem State.lessAcks_inv {s : State} {i num : Nat} (hs : s.Inv) : (State.lessAcks s i num).Inv := by
  unfold State.lessAcks
  repeat' first
    | with_reducible exact hs | with_reducible assumption | with_reducible refine Inv.fst (by assumption) ?_
    | with_reducible apply State.mapCopy_inv | with_reducible apply Inv.ite | (intro _)
    | fail_if_no_progress (with_reducible apply Inv.frame) | split | (dsimp only)
    | fail_if_no_progress (refine Inv.pkg ?_ (by rfl))

theorem State.landRead_inv {s : State} {i : Nat} {c : CopyCmd} {pos : Nat} {bs : List Byte} (hs : s.Inv) : (State.landRead s
    i c pos bs).Inv := by
  unfold State.landRead
  repeat' first
    | with_reducible exact hs | with_reducible assumption | with_reducible refine Inv.fst (by assumption) ?_
    | with_reducible apply State.mapCopy_inv | with_reducible apply State.stallCopy_inv
    | with_reducible apply State.deliverCopy_inv | with_reducible apply Inv.ite | (intro _)
    | fail_if_no_progress (with_reducible apply Inv.frame) | split | (dsimp only)
    | fail_if_no_progress (refine Inv.pkg ?_ (by rfl))

theorem State.landData_inv {s : State} {i : Nat} {c : CopyCmd} {pos : Nat} {bs : List Byte} (hs : s.Inv) : (State.landData s
    i c pos bs).Inv := by
  unfold State.landData
  repeat' first
    | with_reducible exact hs | with_reducible assumption | with_reducible refine Inv.fst (by assumption) ?_
    | with_reducible apply State.storeWatched_inv | with_reducible apply State.lessAcks_inv
    | with_reducible apply State.landRead_inv | with_reducible apply Inv.ite | (intro _)
    | fail_if_no_progress (with_reducible apply Inv.frame) | split | (dsimp only)
    | fail_if_no_progress (refine Inv.pkg ?_ (by rfl))

theorem State.takeData_inv {s : State} {i : Nat} {c : CopyCmd} {pos : Nat} {bs : List Byte} (hs : s.Inv) : (State.takeData s
    i c pos bs).Inv := by
  unfold State.takeData
  repeat' first
    | with_reducible exact hs | with_reducible assumption | with_reducible refine Inv.fst (by assumption) ?_
    | with_reducible apply State.mapCopy_inv | with_reducible apply State.landData_inv | with_reducible apply Inv.ite
    | (intro _) | fail_if_no_progress (with_reducible apply Inv.frame) | split | (dsimp only)
    | fail_if_no_progress (refine Inv.pkg ?_ (by rfl))

theorem State.landKept_inv {s : State} {i : Nat} {c : CopyCmd} (hs : s.Inv) : (State.landKept s i c).Inv := by
  unfold State.landKept
  repeat' first
    | with_reducible exact hs | with_reducible assumption | with_reducible refine Inv.fst (by assumption) ?_
    | with_reducible apply State.mapCopy_inv | with_reducible apply State.landData_inv | with_reducible apply Inv.ite
    | (intro _) | fail_if_no_progress (with_reducible apply Inv.frame) | split | (dsimp only)
    | fail_if_no_progress (refine Inv.pkg ?_ (by rfl))

theorem execBlockTransfer_safe {s : State} (hs : s.Inv) : Safe (execBlockTransfer s) := by
  unfold execBlockTransfer
  repeat' first
    | with_reducible exact hs | with_reducible assumption | with_reducible refine Inv.fst (by assumption) ?_
    | with_reducible apply State.moveCopy_inv | with_reducible apply State.flagCopy_inv
    | with_reducible apply State.landKept_inv | with_reducible apply Safe.next | with_reducible apply Safe.ite | (intro _)
    | fail_if_no_progress (with_reducible apply Inv.frame) | split | (dsimp only)
    | fail_if_no_progress (refine Inv.pkg ?_ (by rfl))

theorem State.finishCopy_inv {s : State} {i : Nat} {c : CopyCmd} (hs : s.Inv) : (State.finishCopy s i c).Inv := by
  unfold State.finishCopy
  repeat' first
    | with_reducible exact hs | with_reducible assumption | with_reducible refine Inv.fst (by assumption) ?_
    | with_reducible apply State.complete_inv | with_reducible apply State.mapCopy_inv | with_reducible apply Inv.ite
    | (intro _) | fail_if_no_progress (with_reducible apply Inv.frame) | split | (dsimp only)
    | fail_if_no_progress (refine Inv.pkg ?_ (by rfl))

theorem State.rejectAnswer_inv {s : State} {t : Nat} (hs : s.Inv) : (State.rejectAnswer s t).Inv := by
  unfold State.rejectAnswer
  repeat' first
    | with_reducible exact hs | with_reducible assumption | with_reducible refine Inv.fst (by assumption) ?_
    | with_reducible apply State.setTenant_inv | with_reducible apply Inv.ite | (intro _)
    | fail_if_no_progress (with_reducible apply Inv.frame) | split | (dsimp only)
    | fail_if_no_progress (refine Inv.pkg ?_ (by rfl))

theorem State.acceptAnswer_inv {s : State} {t : Nat} (hs : s.Inv) : (State.acceptAnswer s t).Inv := by
  unfold State.acceptAnswer
  repeat' first
    | with_reducible exact hs | with_reducible assumption | with_reducible refine Inv.fst (by assumption) ?_
    | with_reducible apply State.setTenant_inv | with_reducible apply Inv.ite | (intro _)
    | fail_if_no_progress (with_reducible apply Inv.frame) | split | (dsimp only)
    | fail_if_no_progress (refine Inv.pkg ?_ (by rfl))

theorem State.applyAnswer_inv {s : State} {j : AnswerAt} {entry op : Nat} {frame : Nat} (hs : s.Inv) : (State.applyAnswer s
    j entry op frame).Inv := by
  unfold State.applyAnswer
  repeat' first
    | with_reducible exact hs | with_reducible assumption | with_reducible refine Inv.fst (by assumption) ?_
    | with_reducible apply Inv.ite | (intro _) | fail_if_no_progress (with_reducible apply Inv.frame) | split | (dsimp only)
    | fail_if_no_progress (refine Inv.pkg ?_ (by rfl))

theorem State.releaseStalls_inv {s : State} {entry : Nat} {refuse : Bool} (hs : s.Inv) : (State.releaseStalls s entry
    refuse).Inv := by
  unfold State.releaseStalls
  repeat' first
    | with_reducible exact hs | with_reducible assumption | with_reducible refine Inv.fst (by assumption) ?_
    | (with_reducible apply foldl_inv; intro _ _ _) | with_reducible apply Inv.ite | (intro _)
    | fail_if_no_progress (with_reducible apply Inv.frame) | split | (dsimp only)
    | fail_if_no_progress (refine Inv.pkg ?_ (by rfl))

theorem State.pagerAnswer_safe {s : State} {op : Nat} (hs : s.Inv) : Safe (State.pagerAnswer s op) := by
  unfold State.pagerAnswer
  repeat' first
    | with_reducible exact hs | with_reducible assumption | with_reducible refine Inv.fst (by assumption) ?_
    | with_reducible apply State.setTenant_inv | with_reducible apply State.rejectAnswer_inv
    | with_reducible apply State.acceptAnswer_inv | with_reducible apply State.applyAnswer_inv
    | with_reducible apply State.releaseStalls_inv | with_reducible apply Safe.next | with_reducible apply Safe.ite
    | (intro _) | fail_if_no_progress (with_reducible apply Inv.frame) | split | (dsimp only)
    | fail_if_no_progress (refine Inv.pkg ?_ (by rfl))

theorem execSupply_safe {s : State} (hs : s.Inv) : Safe (execSupply s) := by
  unfold execSupply
  repeat' first
    | with_reducible exact hs | with_reducible assumption | with_reducible refine Inv.fst (by assumption) ?_
    | with_reducible apply State.pagerAnswer_safe | with_reducible apply Safe.next | with_reducible apply Safe.ite
    | (intro _) | fail_if_no_progress (with_reducible apply Inv.frame) | split | (dsimp only)
    | fail_if_no_progress (refine Inv.pkg ?_ (by rfl))

theorem execRefuse_safe {s : State} (hs : s.Inv) : Safe (execRefuse s) := by
  unfold execRefuse
  repeat' first
    | with_reducible exact hs | with_reducible assumption | with_reducible refine Inv.fst (by assumption) ?_
    | with_reducible apply State.pagerAnswer_safe | with_reducible apply Safe.next | with_reducible apply Safe.ite
    | (intro _) | fail_if_no_progress (with_reducible apply Inv.frame) | split | (dsimp only)
    | fail_if_no_progress (refine Inv.pkg ?_ (by rfl))

theorem execDiscard_safe {s : State} (hs : s.Inv) : Safe (execDiscard s) := by
  unfold execDiscard
  repeat' first
    | with_reducible exact hs | with_reducible assumption | with_reducible refine Inv.fst (by assumption) ?_
    | with_reducible apply State.pagerAnswer_safe | with_reducible apply Safe.next | with_reducible apply Safe.ite
    | (intro _) | fail_if_no_progress (with_reducible apply Inv.frame) | split | (dsimp only)
    | fail_if_no_progress (refine Inv.pkg ?_ (by rfl))

theorem execReclaim_safe {s : State} (hs : s.Inv) : Safe (execReclaim s) := by
  unfold execReclaim
  repeat' first
    | with_reducible exact hs | with_reducible assumption | with_reducible refine Inv.fst (by assumption) ?_
    | with_reducible apply State.pagerAnswer_safe | with_reducible apply Safe.next | with_reducible apply Safe.ite
    | (intro _) | fail_if_no_progress (with_reducible apply Inv.frame) | split | (dsimp only)
    | fail_if_no_progress (refine Inv.pkg ?_ (by rfl))

theorem execPgresRead_safe {s : State} (hs : s.Inv) : Safe (execPgresRead s) := by
  unfold execPgresRead
  repeat' first
    | with_reducible exact hs | with_reducible assumption | with_reducible refine Inv.fst (by assumption) ?_
    | with_reducible apply State.setTenant_inv | with_reducible apply Safe.next | with_reducible apply Safe.ite | (intro _)
    | fail_if_no_progress (with_reducible apply Inv.frame) | split | (dsimp only)
    | fail_if_no_progress (refine Inv.pkg ?_ (by rfl))

theorem State.mapX_inv {s : State} {q num : Nat} {f : XCmd → XCmd} (hs : s.Inv) : (State.mapX s q num f).Inv := by
  unfold State.mapX
  repeat' first
    | with_reducible exact hs | with_reducible assumption | with_reducible refine Inv.fst (by assumption) ?_
    | with_reducible apply State.setXq_inv | with_reducible apply Inv.ite | (intro _)
    | fail_if_no_progress (with_reducible apply Inv.frame) | split | (dsimp only)
    | fail_if_no_progress (refine Inv.pkg ?_ (by rfl))

theorem State.abortMatch_inv {s : State} {q j : Nat} {m : W32} {toSend : Bool} {st : Byte} (hs : s.Inv) : (State.abortMatch
    s q j m toSend st).Inv := by
  unfold State.abortMatch
  repeat' first
    | with_reducible exact hs | with_reducible assumption | with_reducible refine Inv.fst (by assumption) ?_
    | with_reducible apply State.route_inv | with_reducible apply Inv.ite | (intro _)
    | fail_if_no_progress (with_reducible apply Inv.frame) | split | (dsimp only)
    | fail_if_no_progress (refine Inv.pkg ?_ (by rfl))

theorem State.sendHalf_inv {s : State} {q num : Nat} {h : Half} {raddr : Nat} (hs : s.Inv) : (State.sendHalf s q num h
    raddr).Inv := by
  unfold State.sendHalf
  repeat' first
    | with_reducible exact hs | with_reducible assumption | with_reducible refine Inv.fst (by assumption) ?_
    | with_reducible apply State.route_inv | with_reducible apply State.mapX_inv
    | (with_reducible apply foldl_inv; intro _ _ _) | with_reducible apply Inv.ite | (intro _)
    | fail_if_no_progress (with_reducible apply Inv.frame) | split | (dsimp only)
    | fail_if_no_progress (refine Inv.pkg ?_ (by rfl))

theorem State.takeReady_inv {s : State} {q num : Nat} {h : Half} {len raddr : Nat} (hs : s.Inv) : (State.takeReady s q num h
    len raddr).Inv := by
  unfold State.takeReady
  repeat' first
    | with_reducible exact hs | with_reducible assumption | with_reducible refine Inv.fst (by assumption) ?_
    | with_reducible apply State.setXq_inv | with_reducible apply State.abortMatch_inv
    | with_reducible apply State.sendHalf_inv | with_reducible apply Inv.ite | (intro _)
    | fail_if_no_progress (with_reducible apply Inv.frame) | split | (dsimp only)
    | fail_if_no_progress (refine Inv.pkg ?_ (by rfl))

theorem State.beginHalf_inv {s : State} {q num : Nat} {h : Half} (hs : s.Inv) : (State.beginHalf s q num h).Inv := by
  unfold State.beginHalf
  repeat' first
    | with_reducible exact hs | with_reducible assumption | with_reducible refine Inv.fst (by assumption) ?_
    | with_reducible apply State.setXq_inv | with_reducible apply State.route_inv | with_reducible apply State.takeReady_inv
    | with_reducible apply Inv.ite | (intro _) | fail_if_no_progress (with_reducible apply Inv.frame) | split | (dsimp only)
    | fail_if_no_progress (refine Inv.pkg ?_ (by rfl))

theorem State.nextBarrier_inv {s : State} {q num j : Nat} (hs : s.Inv) : (State.nextBarrier s q num j).Inv := by
  unfold State.nextBarrier
  repeat' first
    | with_reducible exact hs | with_reducible assumption | with_reducible refine Inv.fst (by assumption) ?_
    | with_reducible apply State.beginHalf_inv | (with_reducible apply foldl_inv; intro _ _ _)
    | with_reducible apply Inv.ite | (intro _) | fail_if_no_progress (with_reducible apply Inv.frame) | split | (dsimp only)
    | fail_if_no_progress (refine Inv.pkg ?_ (by rfl))

theorem State.postX_inv {s : State} {q : Nat} {specs : List HalfSpec} {combine : Option Combine} {dim : Nat} {trigger :
    Option (Nat × Nat)} {barrier : Bool} (hs : s.Inv) : (State.postX s q specs combine dim trigger barrier).1.Inv := by
  unfold State.postX
  repeat' first
    | with_reducible exact hs | with_reducible assumption | with_reducible refine Inv.fst (by assumption) ?_
    | with_reducible apply State.takeNumber_inv | with_reducible apply State.setXq_inv | with_reducible apply Inv.ite
    | (intro _) | dsimp only | fail_if_no_progress (with_reducible apply Inv.frame) | split | (dsimp only)
    | fail_if_no_progress (refine Inv.pkg ?_ (by rfl))

theorem State.xSlot_safe {s : State} {g : BitVec 4} {q n : Nat} {specs : List HalfSpec} {combine : Option Combine} {dim :
    Nat} (hs : s.Inv) : Safe (State.xSlot s g q n specs combine dim) := by
  unfold State.xSlot
  repeat' first
    | with_reducible exact hs | with_reducible assumption | with_reducible refine Inv.fst (by assumption) ?_
    | with_reducible apply State.slot_safe | with_reducible apply State.stallSlot_safe
    | with_reducible apply State.postX_inv | with_reducible apply Safe.next | with_reducible apply Safe.ite | (intro _)
    | fail_if_no_progress (with_reducible apply Inv.frame) | split | (dsimp only)
    | fail_if_no_progress (refine Inv.pkg ?_ (by rfl))

theorem execXchg_safe {g u e : BitVec 4} {q : BitVec 2} {s : State} (hs : s.Inv) : Safe (execXchg g u e q s) := by
  unfold execXchg
  repeat' first
    | with_reducible exact hs | with_reducible assumption | with_reducible refine Inv.fst (by assumption) ?_
    | with_reducible apply State.encSlot_safe | with_reducible apply State.xSlot_safe | with_reducible apply Safe.next
    | with_reducible apply Safe.ite | (intro _) | fail_if_no_progress (with_reducible apply Inv.frame) | split
    | (dsimp only) | fail_if_no_progress (refine Inv.pkg ?_ (by rfl))

theorem execXcmb_safe {g u e : BitVec 4} {q : BitVec 2} {f : BitVec 3} {o n : BitVec 2} {s : State} (hs : s.Inv) : Safe
    (execXcmb g u e q f o n s) := by
  unfold execXcmb
  repeat' first
    | with_reducible exact hs | with_reducible assumption | with_reducible refine Inv.fst (by assumption) ?_
    | with_reducible apply State.slot_safe | with_reducible apply State.encSlot_safe
    | with_reducible apply State.stallSlot_safe | with_reducible apply State.postX_inv | with_reducible apply Safe.next
    | with_reducible apply Safe.ite | (intro _) | fail_if_no_progress (with_reducible apply Inv.frame) | split
    | (dsimp only) | fail_if_no_progress (refine Inv.pkg ?_ (by rfl))

theorem execSendif_safe {g u e : BitVec 4} {q : BitVec 2} {sel : BitVec 1} {n : BitVec 4} {s : State} (hs : s.Inv) : Safe
    (execSendif g u e q sel n s) := by
  unfold execSendif
  repeat' first
    | with_reducible exact hs | with_reducible assumption | with_reducible refine Inv.fst (by assumption) ?_
    | with_reducible apply State.encSlot_safe | with_reducible apply State.xSlot_safe | with_reducible apply Safe.next
    | with_reducible apply Safe.ite | (intro _) | fail_if_no_progress (with_reducible apply Inv.frame) | split
    | (dsimp only) | fail_if_no_progress (refine Inv.pkg ?_ (by rfl))

theorem execShiftg_safe {g e : BitVec 4} {q : BitVec 2} {d : BitVec 1} {s : State} (hs : s.Inv) : Safe (execShiftg g e q d
    s) := by
  unfold execShiftg
  repeat' first
    | with_reducible exact hs | with_reducible assumption | with_reducible refine Inv.fst (by assumption) ?_
    | with_reducible apply State.slot_safe | with_reducible apply State.stallSlot_safe
    | with_reducible apply State.postX_inv | with_reducible apply Safe.next | with_reducible apply Safe.ite | (intro _)
    | fail_if_no_progress (with_reducible apply Inv.frame) | split | (dsimp only)
    | fail_if_no_progress (refine Inv.pkg ?_ (by rfl))

theorem State.maskSlot_safe {s : State} {g e : BitVec 4} {combine : Nat → Nat → Nat → Option Combine} (hs : s.Inv) : Safe
    (State.maskSlot s g e combine) := by
  unfold State.maskSlot
  repeat' first
    | with_reducible exact hs | with_reducible assumption | with_reducible refine Inv.fst (by assumption) ?_
    | with_reducible apply State.slot_safe | with_reducible apply State.stallSlot_safe
    | with_reducible apply State.postX_inv | with_reducible apply Safe.next | (with_reducible apply foldl_inv; intro _ _ _)
    | with_reducible apply Safe.ite | (intro _) | fail_if_no_progress (with_reducible apply Inv.frame) | split
    | (dsimp only) | fail_if_no_progress (refine Inv.pkg ?_ (by rfl))

theorem execXchgm_safe {g e : BitVec 4} {s : State} (hs : s.Inv) : Safe (execXchgm g e s) := by
  unfold execXchgm
  repeat' first
    | with_reducible exact hs | with_reducible assumption | with_reducible refine Inv.fst (by assumption) ?_
    | with_reducible apply State.maskSlot_safe | with_reducible apply Safe.next | with_reducible apply Safe.ite | (intro _)
    | fail_if_no_progress (with_reducible apply Inv.frame) | split | (dsimp only)
    | fail_if_no_progress (refine Inv.pkg ?_ (by rfl))

theorem execXcmbm_safe {g e : BitVec 4} {f : BitVec 3} {o : BitVec 2} {s : State} (hs : s.Inv) : Safe (execXcmbm g e f o s)
    := by
  unfold execXcmbm
  repeat' first
    | with_reducible exact hs | with_reducible assumption | with_reducible refine Inv.fst (by assumption) ?_
    | with_reducible apply State.maskSlot_safe | with_reducible apply Safe.next | with_reducible apply Safe.ite | (intro _)
    | fail_if_no_progress (with_reducible apply Inv.frame) | split | (dsimp only)
    | fail_if_no_progress (refine Inv.pkg ?_ (by rfl))

theorem execXarm_safe {g u e : BitVec 4} {q : BitVec 2} {c : BitVec 4} {s : State} (hs : s.Inv) : Safe (execXarm g u e q c
    s) := by
  unfold execXarm
  repeat' first
    | with_reducible exact hs | with_reducible assumption | with_reducible refine Inv.fst (by assumption) ?_
    | with_reducible apply State.slot_safe | with_reducible apply State.encSlot_safe
    | with_reducible apply State.stallSlot_safe | with_reducible apply State.postX_inv | with_reducible apply Safe.next
    | with_reducible apply Safe.ite | (intro _) | fail_if_no_progress (with_reducible apply Inv.frame) | split
    | (dsimp only) | fail_if_no_progress (refine Inv.pkg ?_ (by rfl))

theorem execXdisarm_safe {g : BitVec 4} {q : BitVec 2} {s : State} (hs : s.Inv) : Safe (execXdisarm g q s) := by
  unfold execXdisarm
  repeat' first
    | with_reducible exact hs | with_reducible assumption | with_reducible refine Inv.fst (by assumption) ?_
    | with_reducible apply State.slot_safe | with_reducible apply State.stallSlot_safe
    | with_reducible apply State.later_inv | with_reducible apply State.postX_inv | with_reducible apply Safe.next
    | with_reducible apply Safe.ite | (intro _) | fail_if_no_progress (with_reducible apply Inv.frame) | split
    | (dsimp only) | fail_if_no_progress (refine Inv.pkg ?_ (by rfl))

theorem State.disarm_inv {s : State} {q num : Nat} (hs : s.Inv) : (State.disarm s q num).Inv := by
  unfold State.disarm
  repeat' first
    | with_reducible exact hs | with_reducible assumption | with_reducible refine Inv.fst (by assumption) ?_
    | with_reducible apply State.complete_inv | with_reducible apply State.mapX_inv
    | with_reducible apply State.abortMatch_inv | (with_reducible apply foldl_inv; intro _ _ _)
    | with_reducible apply Inv.ite | (intro _) | fail_if_no_progress (with_reducible apply Inv.frame) | split | (dsimp only)
    | fail_if_no_progress (refine Inv.pkg ?_ (by rfl))

theorem execXbar_safe {g e : BitVec 4} {q : BitVec 2} {s : State} (hs : s.Inv) : Safe (execXbar g e q s) := by
  unfold execXbar
  repeat' first
    | with_reducible exact hs | with_reducible assumption | with_reducible refine Inv.fst (by assumption) ?_
    | with_reducible apply State.slot_safe | with_reducible apply State.stallSlot_safe
    | with_reducible apply State.postX_inv | with_reducible apply Safe.next | with_reducible apply Safe.ite | (intro _)
    | fail_if_no_progress (with_reducible apply Inv.frame) | split | (dsimp only)
    | fail_if_no_progress (refine Inv.pkg ?_ (by rfl))

theorem State.beginX_inv {s : State} {q : Nat} {c : XCmd} (hs : s.Inv) : (State.beginX s q c).Inv := by
  unfold State.beginX
  repeat' first
    | with_reducible exact hs | with_reducible assumption | with_reducible refine Inv.fst (by assumption) ?_
    | with_reducible apply State.charge_inv | with_reducible apply State.mapX_inv | with_reducible apply State.beginHalf_inv
    | (with_reducible apply foldl_inv; intro _ _ _) | with_reducible apply Inv.ite | (intro _)
    | fail_if_no_progress (with_reducible apply Inv.frame) | split | (dsimp only)
    | fail_if_no_progress (refine Inv.pkg ?_ (by rfl))

theorem State.startX_inv {s : State} {q : Nat} (hs : s.Inv) : (State.startX s q).Inv := by
  unfold State.startX
  repeat' first
    | with_reducible exact hs | with_reducible assumption | with_reducible refine Inv.fst (by assumption) ?_
    | with_reducible apply State.beginX_inv | with_reducible apply Inv.ite | (intro _)
    | fail_if_no_progress (with_reducible apply Inv.frame) | split | (dsimp only)
    | fail_if_no_progress (refine Inv.pkg ?_ (by rfl))

theorem execXarmFire_safe {s : State} (hs : s.Inv) : Safe (execXarmFire s) := by
  unfold execXarmFire
  repeat' first
    | with_reducible exact hs | with_reducible assumption | with_reducible refine Inv.fst (by assumption) ?_
    | with_reducible apply State.beginX_inv | with_reducible apply Safe.next | with_reducible apply Safe.ite | (intro _)
    | fail_if_no_progress (with_reducible apply Inv.frame) | split | (dsimp only)
    | fail_if_no_progress (refine Inv.pkg ?_ (by rfl))

theorem State.performReady_inv {k : Packet} {s : State} (hs : s.Inv) : (State.performReady k s).Inv := by
  unfold State.performReady
  repeat' first
    | with_reducible exact hs | with_reducible assumption | with_reducible refine Inv.fst (by assumption) ?_
    | with_reducible apply State.setXq_inv | with_reducible apply State.abortMatch_inv
    | with_reducible apply State.takeReady_inv | with_reducible apply Inv.ite | (intro _)
    | fail_if_no_progress (with_reducible apply Inv.frame) | split | (dsimp only)
    | fail_if_no_progress (refine Inv.pkg ?_ (by rfl))

theorem execReady_safe {s : State} (hs : s.Inv) : Safe (execReady s) := by
  unfold execReady
  repeat' first
    | with_reducible exact hs | with_reducible assumption | with_reducible refine Inv.fst (by assumption) ?_
    | with_reducible apply State.packetEvent_safe | with_reducible apply State.performReady_inv
    | with_reducible apply Safe.next | with_reducible apply Safe.ite | (intro _)
    | fail_if_no_progress (with_reducible apply Inv.frame) | split | (dsimp only)
    | fail_if_no_progress (refine Inv.pkg ?_ (by rfl))

theorem State.performAbort_inv {k : Packet} {s : State} (hs : s.Inv) : (State.performAbort k s).Inv := by
  unfold State.performAbort
  repeat' first
    | with_reducible exact hs | with_reducible assumption | with_reducible refine Inv.fst (by assumption) ?_
    | with_reducible apply State.setXq_inv | with_reducible apply Inv.ite | (intro _)
    | fail_if_no_progress (with_reducible apply Inv.frame) | split | (dsimp only)
    | fail_if_no_progress (refine Inv.pkg ?_ (by rfl))

theorem execAbort_safe {s : State} (hs : s.Inv) : Safe (execAbort s) := by
  unfold execAbort
  repeat' first
    | with_reducible exact hs | with_reducible assumption | with_reducible refine Inv.fst (by assumption) ?_
    | with_reducible apply State.packetEvent_safe | with_reducible apply State.performAbort_inv
    | with_reducible apply Safe.next | with_reducible apply Safe.ite | (intro _)
    | fail_if_no_progress (with_reducible apply Inv.frame) | split | (dsimp only)
    | fail_if_no_progress (refine Inv.pkg ?_ (by rfl))

theorem State.dropData_inv {s : State} {q j : Nat} {m : W32} (hs : s.Inv) : (State.dropData s q j m).Inv := by
  unfold State.dropData
  repeat' first
    | with_reducible exact hs | with_reducible assumption | with_reducible refine Inv.fst (by assumption) ?_
    | with_reducible apply State.setXq_inv | with_reducible apply State.abortMatch_inv | with_reducible apply Inv.ite
    | (intro _) | fail_if_no_progress (with_reducible apply Inv.frame) | split | (dsimp only)
    | fail_if_no_progress (refine Inv.pkg ?_ (by rfl))

theorem State.performExchange_inv {k : Packet} {s : State} (hs : s.Inv) : (State.performExchange k s).Inv := by
  unfold State.performExchange
  repeat' first
    | with_reducible exact hs | with_reducible assumption | with_reducible refine Inv.fst (by assumption) ?_
    | with_reducible apply State.storeWatched_inv | with_reducible apply State.answer_inv
    | with_reducible apply State.mapX_inv | with_reducible apply State.nextBarrier_inv
    | with_reducible apply State.dropData_inv | with_reducible apply Inv.ite | (intro _)
    | fail_if_no_progress (with_reducible apply Inv.frame) | split | (dsimp only)
    | fail_if_no_progress (refine Inv.pkg ?_ (by rfl))

theorem State.ackExchange_inv {s : State} {k : Packet} {q : Nat} {m : W32} (hs : s.Inv) : (State.ackExchange s k q m).Inv :=
    by
  unfold State.ackExchange
  repeat' first
    | with_reducible exact hs | with_reducible assumption | with_reducible refine Inv.fst (by assumption) ?_
    | with_reducible apply State.mapX_inv | with_reducible apply State.nextBarrier_inv | with_reducible apply Inv.ite
    | (intro _) | fail_if_no_progress (with_reducible apply Inv.frame) | split | (dsimp only)
    | fail_if_no_progress (refine Inv.pkg ?_ (by rfl))

theorem State.combineX_inv {s : State} {q : Nat} {x : XCmd} {c : Combine} (hs : s.Inv) : (State.combineX s q x c).Inv := by
  unfold State.combineX
  repeat' first
    | with_reducible exact hs | with_reducible assumption | with_reducible refine Inv.fst (by assumption) ?_
    | with_reducible apply State.orFlags_inv | with_reducible apply State.storeWatched_inv
    | (with_reducible apply foldl_inv; intro _ _ _) | with_reducible apply Inv.ite | (intro _)
    | fail_if_no_progress (with_reducible apply Inv.frame) | split | (dsimp only)
    | fail_if_no_progress (refine Inv.pkg ?_ (by rfl))

theorem State.buryHalves_inv {s : State} {q : Nat} {c : XCmd} {st : Byte} (hs : s.Inv) : (State.buryHalves s q c st).Inv :=
    by
  unfold State.buryHalves
  repeat' first
    | with_reducible exact hs | with_reducible assumption | with_reducible refine Inv.fst (by assumption) ?_
    | with_reducible apply State.setXq_inv | with_reducible apply State.abortMatch_inv
    | (with_reducible apply foldl_inv; intro _ _ _) | with_reducible apply Inv.ite | (intro _)
    | fail_if_no_progress (with_reducible apply Inv.frame) | split | (dsimp only)
    | fail_if_no_progress (refine Inv.pkg ?_ (by rfl))

theorem State.finishX_inv {s : State} {q : Nat} {c : XCmd} (hs : s.Inv) : (State.finishX s q c).Inv := by
  unfold State.finishX
  repeat' first
    | with_reducible exact hs | with_reducible assumption | with_reducible refine Inv.fst (by assumption) ?_
    | with_reducible apply State.complete_inv | with_reducible apply State.setXq_inv | with_reducible apply State.mapX_inv
    | with_reducible apply State.combineX_inv | with_reducible apply State.buryHalves_inv | with_reducible apply Inv.ite
    | (intro _) | fail_if_no_progress (with_reducible apply Inv.frame) | split | (dsimp only)
    | fail_if_no_progress (refine Inv.pkg ?_ (by rfl))

theorem State.timeoutX_inv {s : State} {q : Nat} {which : XCmd → Bool} (hs : s.Inv) : (State.timeoutX s q which).Inv := by
  unfold State.timeoutX
  repeat' first
    | with_reducible exact hs | with_reducible assumption | with_reducible refine Inv.fst (by assumption) ?_
    | with_reducible apply State.setXq_inv | with_reducible apply Inv.ite | (intro _)
    | fail_if_no_progress (with_reducible apply Inv.frame) | split | (dsimp only)
    | fail_if_no_progress (refine Inv.pkg ?_ (by rfl))

theorem State.setRowQ_inv {s : State} {i : Nat} {q : RowQueue} (hs : s.Inv) : (State.setRowQ s i q).Inv := by
  unfold State.setRowQ
  repeat' first
    | with_reducible exact hs | with_reducible assumption | with_reducible refine Inv.fst (by assumption) ?_
    | with_reducible apply Inv.ite | (intro _) | fail_if_no_progress (with_reducible apply Inv.frame) | split | (dsimp only)
    | fail_if_no_progress (refine Inv.pkg ?_ (by rfl))

theorem State.rowIn_inv {s : State} {i : Nat} {row : List Byte} {src : W64} (hs : s.Inv) : (State.rowIn s i row src).1.Inv
    := by
  unfold State.rowIn
  repeat' first
    | with_reducible exact hs | with_reducible assumption | with_reducible refine Inv.fst (by assumption) ?_
    | with_reducible apply State.storeWatched_inv | with_reducible apply State.setRowQ_inv | with_reducible apply Inv.ite
    | (intro _) | dsimp only | fail_if_no_progress (with_reducible apply Inv.frame) | split | (dsimp only)
    | fail_if_no_progress (refine Inv.pkg ?_ (by rfl))

theorem State.postW_inv {s : State} {op : WalkOp} (hs : s.Inv) : (State.postW s op).Inv := by
  unfold State.postW
  repeat' first
    | with_reducible exact hs | with_reducible assumption | with_reducible refine Inv.fst (by assumption) ?_
    | with_reducible apply State.takeNumber_inv | with_reducible apply Inv.ite | (intro _)
    | fail_if_no_progress (with_reducible apply Inv.frame) | split | (dsimp only)
    | fail_if_no_progress (refine Inv.pkg ?_ (by rfl))

theorem execColl_safe {g e : BitVec 4} {s : State} (hs : s.Inv) : Safe (execColl g e s) := by
  unfold execColl
  repeat' first
    | with_reducible exact hs | with_reducible assumption | with_reducible refine Inv.fst (by assumption) ?_
    | with_reducible apply State.slot_safe | with_reducible apply State.stallSlot_safe
    | with_reducible apply State.postW_inv | with_reducible apply Safe.next | with_reducible apply Safe.ite | (intro _)
    | fail_if_no_progress (with_reducible apply Inv.frame) | split | (dsimp only)
    | fail_if_no_progress (refine Inv.pkg ?_ (by rfl))

theorem execRoute_safe {g u e : BitVec 4} {s : State} (hs : s.Inv) : Safe (execRoute g u e s) := by
  unfold execRoute
  repeat' first
    | with_reducible exact hs | with_reducible assumption | with_reducible refine Inv.fst (by assumption) ?_
    | with_reducible apply State.slot_safe | with_reducible apply State.stallSlot_safe
    | with_reducible apply State.route_inv | with_reducible apply State.postW_inv | with_reducible apply Safe.next
    | with_reducible apply Safe.ite | (intro _) | fail_if_no_progress (with_reducible apply Inv.frame) | split
    | (dsimp only) | fail_if_no_progress (refine Inv.pkg ?_ (by rfl))

theorem execRqcfg_safe {g e : BitVec 4} {s : State} (hs : s.Inv) : Safe (execRqcfg g e s) := by
  unfold execRqcfg
  repeat' first
    | with_reducible exact hs | with_reducible assumption | with_reducible refine Inv.fst (by assumption) ?_
    | with_reducible apply State.takeNumber_inv | with_reducible apply State.slot_safe
    | with_reducible apply State.later_inv | with_reducible apply Safe.next | with_reducible apply Safe.ite | (intro _)
    | fail_if_no_progress (with_reducible apply Inv.frame) | split | (dsimp only)
    | fail_if_no_progress (refine Inv.pkg ?_ (by rfl))

theorem execRqreset_safe {g e : BitVec 4} {s : State} (hs : s.Inv) : Safe (execRqreset g e s) := by
  unfold execRqreset
  repeat' first
    | with_reducible exact hs | with_reducible assumption | with_reducible refine Inv.fst (by assumption) ?_
    | with_reducible apply State.takeNumber_inv | with_reducible apply State.slot_safe
    | with_reducible apply State.later_inv | with_reducible apply Safe.next | with_reducible apply Safe.ite | (intro _)
    | fail_if_no_progress (with_reducible apply Inv.frame) | split | (dsimp only)
    | fail_if_no_progress (refine Inv.pkg ?_ (by rfl))

theorem execRcsnap_safe {g e : BitVec 4} {s : State} (hs : s.Inv) : Safe (execRcsnap g e s) := by
  unfold execRcsnap
  repeat' first
    | with_reducible exact hs | with_reducible assumption | with_reducible refine Inv.fst (by assumption) ?_
    | with_reducible apply State.takeNumber_inv | with_reducible apply State.slot_safe
    | with_reducible apply State.later_inv | with_reducible apply Safe.next | with_reducible apply Safe.ite | (intro _)
    | fail_if_no_progress (with_reducible apply Inv.frame) | split | (dsimp only)
    | fail_if_no_progress (refine Inv.pkg ?_ (by rfl))

theorem State.rqConfigure_inv {s : State} {num : Nat} {vals : List W64} (hs : s.Inv) : (State.rqConfigure s num vals).Inv :=
    by
  unfold State.rqConfigure
  repeat' first
    | with_reducible exact hs | with_reducible assumption | with_reducible refine Inv.fst (by assumption) ?_
    | with_reducible apply State.complete_inv | with_reducible apply State.setRowQ_inv | with_reducible apply Inv.ite
    | (intro _) | fail_if_no_progress (with_reducible apply Inv.frame) | split | (dsimp only)
    | fail_if_no_progress (refine Inv.pkg ?_ (by rfl))

theorem State.rqReset_inv {s : State} {num : Nat} {vals : List W64} (hs : s.Inv) : (State.rqReset s num vals).Inv := by
  unfold State.rqReset
  repeat' first
    | with_reducible exact hs | with_reducible assumption | with_reducible refine Inv.fst (by assumption) ?_
    | with_reducible apply State.complete_inv | with_reducible apply State.setRowQ_inv | with_reducible apply Inv.ite
    | (intro _) | fail_if_no_progress (with_reducible apply Inv.frame) | split | (dsimp only)
    | fail_if_no_progress (refine Inv.pkg ?_ (by rfl))

theorem State.rcCapture_inv {s : State} {num : Nat} {vals : List W64} (hs : s.Inv) : (State.rcCapture s num vals).Inv := by
  unfold State.rcCapture
  repeat' first
    | with_reducible exact hs | with_reducible assumption | with_reducible refine Inv.fst (by assumption) ?_
    | with_reducible apply State.complete_inv | with_reducible apply Inv.ite | (intro _)
    | fail_if_no_progress (with_reducible apply Inv.frame) | split | (dsimp only)
    | fail_if_no_progress (refine Inv.pkg ?_ (by rfl))

theorem State.walkFault_inv {s : State} {num a n : Nat} {write : Bool} (hs : s.Inv) : (State.walkFault s num a n write).Inv
    := by
  unfold State.walkFault
  repeat' first
    | with_reducible exact hs | with_reducible assumption | with_reducible refine Inv.fst (by assumption) ?_
    | with_reducible apply State.windowFault_inv | with_reducible apply State.mapWalk_inv | with_reducible apply Inv.ite
    | (intro _) | fail_if_no_progress (with_reducible apply Inv.frame) | split | (dsimp only)
    | fail_if_no_progress (refine Inv.pkg ?_ (by rfl))

theorem State.beginW_inv {s : State} {c : WCmd} {r : List W64} (hs : s.Inv) : (State.beginW s c r).Inv := by
  unfold State.beginW
  repeat' first
    | with_reducible exact hs | with_reducible assumption | with_reducible refine Inv.fst (by assumption) ?_
    | with_reducible apply State.mapWalk_inv | with_reducible apply State.charge_inv
    | with_reducible apply State.walkFault_inv | with_reducible apply Inv.ite | (intro _)
    | fail_if_no_progress (with_reducible apply Inv.frame) | split | (dsimp only)
    | fail_if_no_progress (refine Inv.pkg ?_ (by rfl))

theorem State.startW_inv {s : State} (hs : s.Inv) : (State.startW s).Inv := by
  unfold State.startW
  repeat' first
    | with_reducible exact hs | with_reducible assumption | with_reducible refine Inv.fst (by assumption) ?_
    | with_reducible apply State.mapWalk_inv | with_reducible apply State.beginW_inv | with_reducible apply Inv.ite
    | (intro _) | fail_if_no_progress (with_reducible apply Inv.frame) | split | (dsimp only)
    | fail_if_no_progress (refine Inv.pkg ?_ (by rfl))

theorem State.walkPut_inv {s : State} {c : WCmd} {peer : BitVec 13} {src dst n idx base : Nat} {final : Bool} (hs : s.Inv) :
    (State.walkPut s c peer src dst n idx base final).Inv := by
  unfold State.walkPut
  repeat' first
    | with_reducible exact hs | with_reducible assumption | with_reducible refine Inv.fst (by assumption) ?_
    | with_reducible apply State.storeWatched_inv | with_reducible apply State.mapWalk_inv
    | with_reducible apply State.route_inv | (with_reducible apply foldl_inv; intro _ _ _)
    | (with_reducible apply foldl_fst; intro _ _ _) | with_reducible apply Inv.ite | (intro _)
    | fail_if_no_progress (with_reducible apply Inv.frame) | split | (dsimp only)
    | fail_if_no_progress (refine Inv.pkg ?_ (by rfl))

theorem State.walkTransfer_inv {s : State} {c : WCmd} (hs : s.Inv) : (State.walkTransfer s c).Inv := by
  unfold State.walkTransfer
  repeat' first
    | with_reducible exact hs | with_reducible assumption | with_reducible refine Inv.fst (by assumption) ?_
    | with_reducible apply State.walkPut_inv | with_reducible apply Inv.ite | (intro _)
    | fail_if_no_progress (with_reducible apply Inv.frame) | split | (dsimp only)
    | fail_if_no_progress (refine Inv.pkg ?_ (by rfl))

theorem State.walkBlock_inv {s : State} {c : WCmd} (hs : s.Inv) : (State.walkBlock s c).Inv := by
  unfold State.walkBlock
  repeat' first
    | with_reducible exact hs | with_reducible assumption | with_reducible refine Inv.fst (by assumption) ?_
    | with_reducible apply State.walkPut_inv | (with_reducible apply foldl_inv; intro _ _ _) | with_reducible apply Inv.ite
    | (intro _) | fail_if_no_progress (with_reducible apply Inv.frame) | split | (dsimp only)
    | fail_if_no_progress (refine Inv.pkg ?_ (by rfl))

theorem State.walkRow_inv {s : State} {c : WCmd} {tile : BitVec 4} {shape : BitVec 24} (hs : s.Inv) : (State.walkRow s c
    tile shape).Inv := by
  unfold State.walkRow
  repeat' first
    | with_reducible exact hs | with_reducible assumption | with_reducible refine Inv.fst (by assumption) ?_
    | with_reducible apply State.mapWalk_inv | with_reducible apply State.route_inv | with_reducible apply State.rowIn_inv
    | (with_reducible apply foldl_inv; intro _ _ _) | (with_reducible apply foldl_fst; intro _ _ _)
    | with_reducible apply Inv.ite | (intro _) | fail_if_no_progress (with_reducible apply Inv.frame) | split | (dsimp only)
    | fail_if_no_progress (refine Inv.pkg ?_ (by rfl))

theorem execWalkerRound_safe {s : State} (hs : s.Inv) : Safe (execWalkerRound s) := by
  unfold execWalkerRound
  repeat' first
    | with_reducible exact hs | with_reducible assumption | with_reducible refine Inv.fst (by assumption) ?_
    | with_reducible apply State.mapWalk_inv | with_reducible apply State.route_inv
    | with_reducible apply State.walkTransfer_inv | with_reducible apply State.walkBlock_inv
    | with_reducible apply State.walkRow_inv | with_reducible apply Safe.next | with_reducible apply Safe.ite | (intro _)
    | fail_if_no_progress (with_reducible apply Inv.frame) | split | (dsimp only)
    | fail_if_no_progress (refine Inv.pkg ?_ (by rfl))

theorem State.countEarly_inv {s : State} {num : Nat} {src : BitVec 13} {idx : Nat} (hs : s.Inv) : (State.countEarly s num
    src idx).Inv := by
  unfold State.countEarly
  repeat' first
    | with_reducible exact hs | with_reducible assumption | with_reducible refine Inv.fst (by assumption) ?_
    | with_reducible apply Inv.ite | (intro _) | fail_if_no_progress (with_reducible apply Inv.frame) | split | (dsimp only)
    | fail_if_no_progress (refine Inv.pkg ?_ (by rfl))

theorem State.countPart_inv {s : State} {num : Nat} {src : BitVec 13} {idx off n : Nat} {last : Bool} (hs : s.Inv) :
    (State.countPart s num src idx off n last).Inv := by
  unfold State.countPart
  repeat' first
    | with_reducible exact hs | with_reducible assumption | with_reducible refine Inv.fst (by assumption) ?_
    | with_reducible apply State.countEarly_inv | with_reducible apply Inv.ite | (intro _)
    | fail_if_no_progress (with_reducible apply Inv.frame) | split | (dsimp only)
    | fail_if_no_progress (refine Inv.pkg ?_ (by rfl))

theorem State.performWalker_inv {k : Packet} {s : State} (hs : s.Inv) : (State.performWalker k s).Inv := by
  unfold State.performWalker
  repeat' first
    | with_reducible exact hs | with_reducible assumption | with_reducible refine Inv.fst (by assumption) ?_
    | with_reducible apply State.storeWatched_inv | with_reducible apply State.answer_inv
    | with_reducible apply State.countPart_inv | with_reducible apply Inv.ite | (intro _)
    | fail_if_no_progress (with_reducible apply Inv.frame) | split | (dsimp only)
    | fail_if_no_progress (refine Inv.pkg ?_ (by rfl))

theorem execRouteRowReceive_safe {s : State} (hs : s.Inv) : Safe (execRouteRowReceive s) := by
  unfold execRouteRowReceive
  repeat' first
    | with_reducible exact hs | with_reducible assumption | with_reducible refine Inv.fst (by assumption) ?_
    | with_reducible apply State.answer_inv | with_reducible apply State.packetEvent_safe
    | with_reducible apply State.rowIn_inv | with_reducible apply Safe.next | with_reducible apply Safe.ite | (intro _)
    | fail_if_no_progress (with_reducible apply Inv.frame) | split | (dsimp only)
    | fail_if_no_progress (refine Inv.pkg ?_ (by rfl))

theorem State.ackWalker_inv {s : State} {k : Packet} (hs : s.Inv) : (State.ackWalker s k).Inv := by
  unfold State.ackWalker
  repeat' first
    | with_reducible exact hs | with_reducible assumption | with_reducible refine Inv.fst (by assumption) ?_
    | with_reducible apply State.mapWalk_inv | with_reducible apply Inv.ite | (intro _)
    | fail_if_no_progress (with_reducible apply Inv.frame) | split | (dsimp only)
    | fail_if_no_progress (refine Inv.pkg ?_ (by rfl))

theorem State.finishW_inv {s : State} {c : WCmd} (hs : s.Inv) : (State.finishW s c).Inv := by
  unfold State.finishW
  repeat' first
    | with_reducible exact hs | with_reducible assumption | with_reducible refine Inv.fst (by assumption) ?_
    | with_reducible apply State.complete_inv | with_reducible apply State.mapWalk_inv | with_reducible apply Inv.ite
    | (intro _) | fail_if_no_progress (with_reducible apply Inv.frame) | split | (dsimp only)
    | fail_if_no_progress (refine Inv.pkg ?_ (by rfl))

theorem State.finishSnap_inv {s : State} {c : WCmd} (hs : s.Inv) : (State.finishSnap s c).Inv := by
  unfold State.finishSnap
  repeat' first
    | with_reducible exact hs | with_reducible assumption | with_reducible refine Inv.fst (by assumption) ?_
    | with_reducible apply State.complete_inv | with_reducible apply State.storeWatched_inv | with_reducible apply Inv.ite
    | (intro _) | fail_if_no_progress (with_reducible apply Inv.frame) | split | (dsimp only)
    | fail_if_no_progress (refine Inv.pkg ?_ (by rfl))

theorem State.timeoutW_inv {s : State} {which : WCmd → Bool} (hs : s.Inv) : (State.timeoutW s which).Inv := by
  unfold State.timeoutW
  repeat' first
    | with_reducible exact hs | with_reducible assumption | with_reducible refine Inv.fst (by assumption) ?_
    | with_reducible apply Inv.ite | (intro _) | fail_if_no_progress (with_reducible apply Inv.frame) | split | (dsimp only)
    | fail_if_no_progress (refine Inv.pkg ?_ (by rfl))

theorem execExchangeData_safe {s : State} (hs : s.Inv) : Safe (execExchangeData s) := by
  unfold execExchangeData
  repeat' first
    | with_reducible exact hs | with_reducible assumption | with_reducible refine Inv.fst (by assumption) ?_
    | with_reducible apply State.packetEvent_safe | with_reducible apply State.performExchange_inv
    | with_reducible apply State.performWalker_inv | with_reducible apply Safe.next | with_reducible apply Safe.ite
    | (intro _) | fail_if_no_progress (with_reducible apply Inv.frame) | split | (dsimp only)
    | fail_if_no_progress (refine Inv.pkg ?_ (by rfl))

theorem execExchangeTimeout_safe {s : State} (hs : s.Inv) : Safe (execExchangeTimeout s) := by
  unfold execExchangeTimeout
  repeat' first
    | with_reducible exact hs | with_reducible assumption | with_reducible refine Inv.fst (by assumption) ?_
    | with_reducible apply State.timeoutX_inv | with_reducible apply State.timeoutW_inv | with_reducible apply Safe.next
    | with_reducible apply Safe.ite | (intro _) | fail_if_no_progress (with_reducible apply Inv.frame) | split
    | (dsimp only) | fail_if_no_progress (refine Inv.pkg ?_ (by rfl))

theorem State.homeWrite_inv {s : State} {k : Packet} {bs : List Byte} (hs : s.Inv) : (s.homeWrite k bs).Inv := by
  unfold State.homeWrite
  split
  · exact Inv.dram hs (cellsWf_putBytes (Inv.dramWf hs))
  · exact State.storeWatched_inv hs

theorem execWritePacket_safe {s : State} (hs : s.Inv) : Safe (execWritePacket s) := by
  unfold execWritePacket
  repeat' first
    | with_reducible exact hs | with_reducible assumption | with_reducible refine Inv.fst (by assumption) ?_
    | with_reducible apply State.answer_inv | with_reducible apply State.packetEvent_safe
    | with_reducible apply State.homeWrite_inv | with_reducible apply Safe.next | with_reducible apply Safe.ite | (intro _)
    | fail_if_no_progress (with_reducible apply Inv.frame) | split | (dsimp only)
    | fail_if_no_progress (refine Inv.pkg ?_ (by rfl))

theorem execReadRequest_safe {s : State} (hs : s.Inv) : Safe (execReadRequest s) := by
  unfold execReadRequest
  repeat' first
    | with_reducible exact hs | with_reducible assumption | with_reducible refine Inv.fst (by assumption) ?_
    | with_reducible apply State.answer_inv | with_reducible apply State.packetEvent_safe | with_reducible apply Safe.next
    | with_reducible apply Safe.ite | (intro _) | fail_if_no_progress (with_reducible apply Inv.frame) | split
    | (dsimp only) | fail_if_no_progress (refine Inv.pkg ?_ (by rfl))

theorem execFlagPacket_safe {s : State} (hs : s.Inv) : Safe (execFlagPacket s) := by
  unfold execFlagPacket
  repeat' first
    | with_reducible exact hs | with_reducible assumption | with_reducible refine Inv.fst (by assumption) ?_
    | with_reducible apply State.answer_inv | with_reducible apply State.packetEvent_safe
    | with_reducible apply State.homeWrite_inv | with_reducible apply Safe.next | with_reducible apply Safe.ite | (intro _)
    | fail_if_no_progress (with_reducible apply Inv.frame) | split | (dsimp only)
    | fail_if_no_progress (refine Inv.pkg ?_ (by rfl))

theorem execAtomicPacket_safe {s : State} (hs : s.Inv) : Safe (execAtomicPacket s) := by
  unfold execAtomicPacket
  repeat' first
    | with_reducible exact hs | with_reducible assumption | with_reducible refine Inv.fst (by assumption) ?_
    | with_reducible apply State.answer_inv | with_reducible apply State.packetEvent_safe
    | with_reducible apply State.homeWrite_inv | with_reducible apply Safe.next | with_reducible apply Safe.ite | (intro _)
    | fail_if_no_progress (with_reducible apply Inv.frame) | split | (dsimp only)
    | fail_if_no_progress (refine Inv.pkg ?_ (by rfl))

theorem State.reduce_inv {k : Packet} {s : State} (hs : s.Inv) : (s.reduce k).Inv := by
  have hw : ∀ {bs}, (s.homeWrite k bs).Inv := State.homeWrite_inv hs
  unfold State.reduce
  repeat' first
    | with_reducible exact hs | with_reducible assumption | with_reducible apply State.route_inv
    | with_reducible apply State.answer_inv | with_reducible apply Inv.ite
    | exact Inv.dram hw (cellsWf_putBytes (Inv.dramWf hw))
    | fail_if_no_progress (with_reducible apply Inv.frame) | split | dsimp only

theorem execReduceStore_safe {s : State} (hs : s.Inv) : Safe (execReduceStore s) := by
  unfold execReduceStore
  repeat' first
    | with_reducible exact hs | with_reducible assumption | with_reducible refine Inv.fst (by assumption) ?_
    | with_reducible apply State.giveUp_inv | with_reducible apply State.answer_inv
    | with_reducible apply State.packetEvent_safe | with_reducible apply State.reduce_inv | with_reducible apply Safe.next
    | with_reducible apply Safe.ite | (intro _) | fail_if_no_progress (with_reducible apply Inv.frame) | split
    | (dsimp only) | fail_if_no_progress (refine Inv.pkg ?_ (by rfl))

theorem execReadResponse_safe {s : State} (hs : s.Inv) : Safe (execReadResponse s) := by
  unfold execReadResponse
  repeat' first
    | with_reducible exact hs | with_reducible assumption | with_reducible refine Inv.fst (by assumption) ?_
    | with_reducible apply State.packetEvent_safe | with_reducible apply State.takeData_inv | with_reducible apply Safe.next
    | with_reducible apply Safe.ite | (intro _) | fail_if_no_progress (with_reducible apply Inv.frame) | split
    | (dsimp only) | fail_if_no_progress (refine Inv.pkg ?_ (by rfl))

theorem execAtomicResponse_safe {s : State} (hs : s.Inv) : Safe (execAtomicResponse s) := by
  unfold execAtomicResponse
  repeat' first
    | with_reducible exact hs | with_reducible assumption | with_reducible refine Inv.fst (by assumption) ?_
    | with_reducible apply State.packetEvent_safe | with_reducible apply State.takeData_inv | with_reducible apply Safe.next
    | with_reducible apply Safe.ite | (intro _) | fail_if_no_progress (with_reducible apply Inv.frame) | split
    | (dsimp only) | fail_if_no_progress (refine Inv.pkg ?_ (by rfl))

theorem execTransferAcknowledgement_safe {s : State} (hs : s.Inv) : Safe (execTransferAcknowledgement s) := by
  unfold execTransferAcknowledgement
  repeat' first
    | with_reducible exact hs | with_reducible assumption | with_reducible refine Inv.fst (by assumption) ?_
    | with_reducible apply State.packetEvent_safe | with_reducible apply State.ackExchange_inv
    | with_reducible apply State.ackWalker_inv | with_reducible apply State.lessAcks_inv | with_reducible apply Safe.next
    | with_reducible apply Safe.ite | (intro _) | fail_if_no_progress (with_reducible apply Inv.frame) | split
    | (dsimp only) | fail_if_no_progress (refine Inv.pkg ?_ (by rfl))

theorem execUnreachableNotice_safe {s : State} (hs : s.Inv) : Safe (execUnreachableNotice s) := by
  unfold execUnreachableNotice
  repeat' first
    | with_reducible exact hs | with_reducible assumption | with_reducible refine Inv.fst (by assumption) ?_
    | with_reducible apply State.linkDown_inv | with_reducible apply State.packetEvent_safe | with_reducible apply Safe.next
    | with_reducible apply Safe.ite | (intro _) | fail_if_no_progress (with_reducible apply Inv.frame) | split
    | (dsimp only) | fail_if_no_progress (refine Inv.pkg ?_ (by rfl))

end Sys2Proof.Machine
end

