-- ==== Sys2Proof/Laws/KeepsTasks.lean ====
section
/-! SUPPORT. The contraction engine, tasks, engine events and the slots of a bundle keep the invariant. -/

namespace Sys2Proof.Machine

set_option linter.all false

theorem State.postChain_inv {s : State} {op : ChainOp} (hs : s.Inv) : (State.postChain s op).Inv := by
  unfold State.postChain
  repeat' first
    | with_reducible exact hs | with_reducible assumption | with_reducible refine Inv.fst (by assumption) ?_
    | with_reducible apply State.takeNumber_inv | with_reducible apply Inv.ite | (intro _)
    | fail_if_no_progress (with_reducible apply Inv.frame) | split | (dsimp only)
    | fail_if_no_progress (refine Inv.pkg ?_ (by rfl))

theorem execChain_safe {g e : BitVec 4} {s : State} (hs : s.Inv) : Safe (execChain g e s) := by
  unfold execChain
  repeat' first
    | with_reducible exact hs | with_reducible assumption | with_reducible refine Inv.fst (by assumption) ?_
    | with_reducible apply State.slot_safe | with_reducible apply State.stallSlot_safe
    | with_reducible apply State.postChain_inv | with_reducible apply Safe.next | with_reducible apply Safe.ite | (intro _)
    | fail_if_no_progress (with_reducible apply Inv.frame) | split | (dsimp only)
    | fail_if_no_progress (refine Inv.pkg ?_ (by rfl))

theorem execChstep_safe {g e : BitVec 4} {s : State} (hs : s.Inv) : Safe (execChstep g e s) := by
  unfold execChstep
  repeat' first
    | with_reducible exact hs | with_reducible assumption | with_reducible refine Inv.fst (by assumption) ?_
    | with_reducible apply State.slot_safe | with_reducible apply State.stallSlot_safe
    | with_reducible apply State.postChain_inv | with_reducible apply Safe.next | with_reducible apply Safe.ite | (intro _)
    | fail_if_no_progress (with_reducible apply Inv.frame) | split | (dsimp only)
    | fail_if_no_progress (refine Inv.pkg ?_ (by rfl))

theorem execChsize_safe {g e : BitVec 4} {s : State} (hs : s.Inv) : Safe (execChsize g e s) := by
  unfold execChsize
  repeat' first
    | with_reducible exact hs | with_reducible assumption | with_reducible refine Inv.fst (by assumption) ?_
    | with_reducible apply State.slot_safe | with_reducible apply State.stallSlot_safe
    | with_reducible apply State.postChain_inv | with_reducible apply Safe.next | with_reducible apply Safe.ite | (intro _)
    | fail_if_no_progress (with_reducible apply Inv.frame) | split | (dsimp only)
    | fail_if_no_progress (refine Inv.pkg ?_ (by rfl))

theorem execChabort_safe {g : BitVec 4} {s : State} (hs : s.Inv) : Safe (execChabort g s) := by
  unfold execChabort
  repeat' first
    | with_reducible exact hs | with_reducible assumption | with_reducible refine Inv.fst (by assumption) ?_
    | with_reducible apply State.takeNumber_inv | with_reducible apply State.slot_safe
    | with_reducible apply State.later_inv | with_reducible apply Safe.next | with_reducible apply Safe.ite | (intro _)
    | fail_if_no_progress (with_reducible apply Inv.frame) | split | (dsimp only)
    | fail_if_no_progress (refine Inv.pkg ?_ (by rfl))

theorem State.chainAbort_inv {s : State} {num : Nat} {vals : List W64} (hs : s.Inv) : (State.chainAbort s num vals).Inv :=
    by
  unfold State.chainAbort
  repeat' first
    | with_reducible exact hs | with_reducible assumption | with_reducible refine Inv.fst (by assumption) ?_
    | with_reducible apply State.complete_inv | with_reducible apply Inv.ite | (intro _)
    | fail_if_no_progress (with_reducible apply Inv.frame) | split | (dsimp only)
    | fail_if_no_progress (refine Inv.pkg ?_ (by rfl))

theorem State.mapCh_inv {s : State} {num : Nat} {f : ChCmd → ChCmd} (hs : s.Inv) : (State.mapCh s num f).Inv := by
  unfold State.mapCh
  repeat' first
    | with_reducible exact hs | with_reducible assumption | with_reducible refine Inv.fst (by assumption) ?_
    | with_reducible apply Inv.ite | (intro _) | fail_if_no_progress (with_reducible apply Inv.frame) | split | (dsimp only)
    | fail_if_no_progress (refine Inv.pkg ?_ (by rfl))

theorem State.startChain_inv {s : State} (hs : s.Inv) : (State.startChain s).Inv := by
  unfold State.startChain
  repeat' first
    | with_reducible exact hs | with_reducible assumption | with_reducible refine Inv.fst (by assumption) ?_
    | with_reducible apply State.mapCh_inv | with_reducible apply Inv.ite | (intro _)
    | fail_if_no_progress (with_reducible apply Inv.frame) | split | (dsimp only)
    | fail_if_no_progress (refine Inv.pkg ?_ (by rfl))

theorem State.applyStep_inv {s : State} {e : StepEnd} (hs : s.Inv) : (State.applyStep s e).Inv := by
  unfold State.applyStep
  repeat' first
    | with_reducible exact hs | with_reducible assumption | with_reducible refine Inv.fst (by assumption) ?_
    | with_reducible apply State.storeEng_inv | with_reducible apply Inv.ite | (intro _)
    | fail_if_no_progress (with_reducible apply Inv.frame) | split | (dsimp only)
    | fail_if_no_progress (refine Inv.pkg ?_ (by rfl))

theorem State.endStep_inv {s : State} {c : ChCmd} (hs : s.Inv) : (State.endStep s c).Inv := by
  unfold State.endStep
  repeat' first
    | with_reducible exact hs | with_reducible assumption | with_reducible refine Inv.fst (by assumption) ?_
    | with_reducible apply State.mapCh_inv | with_reducible apply State.applyStep_inv | with_reducible apply Inv.ite
    | (intro _) | fail_if_no_progress (with_reducible apply Inv.frame) | split | (dsimp only)
    | fail_if_no_progress (refine Inv.pkg ?_ (by rfl))

theorem State.haltChain_inv {s : State} {c : ChCmd} {p : StepPlan} (hs : s.Inv) : (State.haltChain s c p).Inv := by
  unfold State.haltChain
  repeat' first
    | with_reducible exact hs | with_reducible assumption | with_reducible refine Inv.fst (by assumption) ?_
    | with_reducible apply State.raisePending_inv | with_reducible apply State.mapCh_inv | with_reducible apply Inv.ite
    | (intro _) | fail_if_no_progress (with_reducible apply Inv.frame) | split | (dsimp only)
    | fail_if_no_progress (refine Inv.pkg ?_ (by rfl))

theorem State.sizeStep_inv {s : State} {c : ChCmd} {res : Nat} (hs : s.Inv) : (State.sizeStep s c res).Inv := by
  unfold State.sizeStep
  repeat' first
    | with_reducible exact hs | with_reducible assumption | with_reducible refine Inv.fst (by assumption) ?_
    | with_reducible apply State.storeEng_inv | with_reducible apply State.mapCh_inv | with_reducible apply Inv.ite
    | (intro _) | fail_if_no_progress (with_reducible apply Inv.frame) | split | (dsimp only)
    | fail_if_no_progress (refine Inv.pkg ?_ (by rfl))

theorem State.startStep_inv {s : State} {c : ChCmd} (hs : s.Inv) : (State.startStep s c).Inv := by
  unfold State.startStep
  repeat' first
    | with_reducible exact hs | with_reducible assumption | with_reducible refine Inv.fst (by assumption) ?_
    | with_reducible apply State.mapCh_inv | with_reducible apply State.endStep_inv
    | with_reducible apply State.haltChain_inv | with_reducible apply State.sizeStep_inv | with_reducible apply Inv.ite
    | (intro _) | fail_if_no_progress (with_reducible apply Inv.frame) | split | (dsimp only)
    | fail_if_no_progress (refine Inv.pkg ?_ (by rfl))

theorem execChainStepStart_safe {s : State} (hs : s.Inv) : Safe (execChainStepStart s) := by
  unfold execChainStepStart
  repeat' first
    | with_reducible exact hs | with_reducible assumption | with_reducible refine Inv.fst (by assumption) ?_
    | with_reducible apply State.startStep_inv | with_reducible apply Safe.next | with_reducible apply Safe.ite | (intro _)
    | fail_if_no_progress (with_reducible apply Inv.frame) | split | (dsimp only)
    | fail_if_no_progress (refine Inv.pkg ?_ (by rfl))

theorem State.chainTaskDone_inv {s : State} {num : Nat} {st : Byte} (hs : s.Inv) : (State.chainTaskDone s num st).Inv := by
  unfold State.chainTaskDone
  repeat' first
    | with_reducible exact hs | with_reducible assumption | with_reducible refine Inv.fst (by assumption) ?_
    | with_reducible apply State.mapCh_inv | with_reducible apply State.endStep_inv | with_reducible apply Inv.ite
    | (intro _) | fail_if_no_progress (with_reducible apply Inv.frame) | split | (dsimp only)
    | fail_if_no_progress (refine Inv.pkg ?_ (by rfl))

theorem execChainTaskPost_safe {s : State} (hs : s.Inv) : Safe (execChainTaskPost s) := by
  unfold execChainTaskPost
  repeat' first
    | with_reducible exact hs | with_reducible assumption | with_reducible refine Inv.fst (by assumption) ?_
    | with_reducible apply State.takeNumber_inv | with_reducible apply State.enterTask_inv
    | with_reducible apply State.mapCh_inv | with_reducible apply State.chainTaskDone_inv | with_reducible apply Safe.next
    | with_reducible apply Safe.ite | (intro _) | fail_if_no_progress (with_reducible apply Inv.frame) | split
    | (dsimp only) | fail_if_no_progress (refine Inv.pkg ?_ (by rfl))

theorem State.chainPost_inv {s : State} (hs : s.Inv) : (State.chainPost s).Inv := by
  unfold State.chainPost
  repeat' first
    | with_reducible exact hs | with_reducible assumption | with_reducible refine Inv.fst (by assumption) ?_
    | with_reducible apply State.takeNumber_inv | with_reducible apply State.enterTask_inv
    | with_reducible apply State.mapCh_inv | with_reducible apply State.chainTaskDone_inv | with_reducible apply Inv.ite
    | (intro _) | fail_if_no_progress (with_reducible apply Inv.frame) | split | (dsimp only)
    | fail_if_no_progress (refine Inv.pkg ?_ (by rfl))

theorem State.releaseChain_inv {s : State} (hs : s.Inv) : (State.releaseChain s).Inv := by
  unfold State.releaseChain
  repeat' first
    | with_reducible exact hs | with_reducible assumption | with_reducible refine Inv.fst (by assumption) ?_
    | with_reducible apply Inv.ite | (intro _) | fail_if_no_progress (with_reducible apply Inv.frame) | split | (dsimp only)
    | fail_if_no_progress (refine Inv.pkg ?_ (by rfl))

theorem State.endHalted_inv {s : State} (hs : s.Inv) : (State.endHalted s).Inv := by
  unfold State.endHalted
  repeat' first
    | with_reducible exact hs | with_reducible assumption | with_reducible refine Inv.fst (by assumption) ?_
    | with_reducible apply Inv.ite | (intro _) | fail_if_no_progress (with_reducible apply Inv.frame) | split | (dsimp only)
    | fail_if_no_progress (refine Inv.pkg ?_ (by rfl))

theorem State.failHalted_inv {s : State} (hs : s.Inv) : (State.failHalted s).Inv := by
  unfold State.failHalted
  repeat' first
    | with_reducible exact hs | with_reducible assumption | with_reducible refine Inv.fst (by assumption) ?_
    | with_reducible apply Inv.ite | (intro _) | fail_if_no_progress (with_reducible apply Inv.frame) | split | (dsimp only)
    | fail_if_no_progress (refine Inv.pkg ?_ (by rfl))

theorem State.finishCh_inv {s : State} {c : ChCmd} (hs : s.Inv) : (State.finishCh s c).Inv := by
  unfold State.finishCh
  repeat' first
    | with_reducible exact hs | with_reducible assumption | with_reducible refine Inv.fst (by assumption) ?_
    | with_reducible apply State.complete_inv | with_reducible apply State.mapCh_inv | with_reducible apply Inv.ite
    | (intro _) | fail_if_no_progress (with_reducible apply Inv.frame) | split | (dsimp only)
    | fail_if_no_progress (refine Inv.pkg ?_ (by rfl))

theorem execTrap_safe {g : BitVec 4} {n : BitVec 10} {s : State} (hs : s.Inv) : Safe (execTrap g n s) := by
  unfold execTrap
  repeat' first
    | with_reducible exact hs | with_reducible assumption | with_reducible refine Inv.fst (by assumption) ?_
    | with_reducible apply State.slot_safe | with_reducible apply Safe.next | with_reducible apply Safe.ite | (intro _)
    | fail_if_no_progress (with_reducible apply Inv.frame) | split | (dsimp only)
    | fail_if_no_progress (refine Inv.pkg ?_ (by rfl))

theorem execRte_safe {g : BitVec 4} {s : State} (hs : s.Inv) : Safe (execRte g s) := by
  unfold execRte
  repeat' first
    | with_reducible exact hs | with_reducible assumption | with_reducible refine Inv.fst (by assumption) ?_
    | with_reducible apply State.slot_safe | with_reducible apply State.encSlot_safe | with_reducible apply Safe.next
    | with_reducible apply Safe.ite | (intro _) | fail_if_no_progress (with_reducible apply Inv.frame) | split
    | (dsimp only) | fail_if_no_progress (refine Inv.pkg ?_ (by rfl))

theorem execRteSw_safe {g : BitVec 4} {s : State} (hs : s.Inv) : Safe (execRteSw g s) := by
  unfold execRteSw
  repeat' first
    | with_reducible exact hs | with_reducible assumption | with_reducible refine Inv.fst (by assumption) ?_
    | with_reducible apply State.slot_safe | with_reducible apply State.encSlot_safe | with_reducible apply Safe.next
    | with_reducible apply Safe.ite | (intro _) | fail_if_no_progress (with_reducible apply Inv.frame) | split
    | (dsimp only) | fail_if_no_progress (refine Inv.pkg ?_ (by rfl))

theorem execEndProg_safe {g : BitVec 4} {s : State} (hs : s.Inv) : Safe (execEndProg g s) := by
  unfold execEndProg
  repeat' first
    | with_reducible exact hs | with_reducible assumption | with_reducible refine Inv.fst (by assumption) ?_
    | with_reducible apply State.slot_safe | with_reducible apply Safe.next | with_reducible apply Safe.ite | (intro _)
    | fail_if_no_progress (with_reducible apply Inv.frame) | split | (dsimp only)
    | fail_if_no_progress (refine Inv.pkg ?_ (by rfl))

theorem execReraise_safe {g : BitVec 4} {s : State} (hs : s.Inv) : Safe (execReraise g s) := by
  unfold execReraise
  repeat' first
    | with_reducible exact hs | with_reducible assumption | with_reducible refine Inv.fst (by assumption) ?_
    | with_reducible apply State.slot_safe | with_reducible apply State.encSlot_safe | with_reducible apply Safe.next
    | with_reducible apply Safe.ite | (intro _) | fail_if_no_progress (with_reducible apply Inv.frame) | split
    | (dsimp only) | fail_if_no_progress (refine Inv.pkg ?_ (by rfl))

theorem execLmark_safe {g : BitVec 4} {d a : BitVec 5} {s : State} (hs : s.Inv) : Safe (execLmark g d a s) := by
  unfold execLmark
  repeat' first
    | with_reducible exact hs | with_reducible assumption | with_reducible refine Inv.fst (by assumption) ?_
    | with_reducible apply State.lanternC_inv | with_reducible apply State.slot_safe | with_reducible apply Safe.next
    | with_reducible apply Safe.ite | (intro _) | fail_if_no_progress (with_reducible apply Inv.frame) | split
    | (dsimp only) | fail_if_no_progress (refine Inv.pkg ?_ (by rfl))

theorem execBpoint_safe {g : BitVec 4} {s : State} (hs : s.Inv) : Safe (execBpoint g s) := by
  unfold execBpoint
  repeat' first
    | with_reducible exact hs | with_reducible assumption | with_reducible refine Inv.fst (by assumption) ?_
    | with_reducible apply State.slot_safe | with_reducible apply Safe.next | with_reducible apply Safe.ite | (intro _)
    | fail_if_no_progress (with_reducible apply Inv.frame) | split | (dsimp only)
    | fail_if_no_progress (refine Inv.pkg ?_ (by rfl))

theorem execDpoint_safe {g : BitVec 4} {s : State} (hs : s.Inv) : Safe (execDpoint g s) := by
  unfold execDpoint
  repeat' first
    | with_reducible exact hs | with_reducible assumption | with_reducible refine Inv.fst (by assumption) ?_
    | with_reducible apply State.slot_safe | with_reducible apply Safe.next | with_reducible apply Safe.ite | (intro _)
    | fail_if_no_progress (with_reducible apply Inv.frame) | split | (dsimp only)
    | fail_if_no_progress (refine Inv.pkg ?_ (by rfl))

theorem execRdcyc_safe {g : BitVec 4} {d : BitVec 5} {s : State} (hs : s.Inv) : Safe (execRdcyc g d s) := by
  unfold execRdcyc
  repeat' first
    | with_reducible exact hs | with_reducible assumption | with_reducible refine Inv.fst (by assumption) ?_
    | with_reducible apply State.put_inv | with_reducible apply State.slot_safe | with_reducible apply Safe.next
    | with_reducible apply Safe.ite | (intro _) | fail_if_no_progress (with_reducible apply Inv.frame) | split
    | (dsimp only) | fail_if_no_progress (refine Inv.pkg ?_ (by rfl))

theorem execSdump_safe {g : BitVec 4} {s : State} (hs : s.Inv) : Safe (execSdump g s) := by
  unfold execSdump
  repeat' first
    | with_reducible exact hs | with_reducible assumption | with_reducible refine Inv.fst (by assumption) ?_
    | with_reducible apply State.slot_safe | with_reducible apply Safe.next | with_reducible apply Safe.ite | (intro _)
    | fail_if_no_progress (with_reducible apply Inv.frame) | split | (dsimp only)
    | fail_if_no_progress (refine Inv.pkg ?_ (by rfl))

theorem execEnrd_safe {g : BitVec 4} {d : BitVec 5} {s : State} (hs : s.Inv) : Safe (execEnrd g d s) := by
  unfold execEnrd
  repeat' first
    | with_reducible exact hs | with_reducible assumption | with_reducible refine Inv.fst (by assumption) ?_
    | with_reducible apply State.put_inv | with_reducible apply State.slot_safe | with_reducible apply Safe.next
    | with_reducible apply Safe.ite | (intro _) | fail_if_no_progress (with_reducible apply Inv.frame) | split
    | (dsimp only) | fail_if_no_progress (refine Inv.pkg ?_ (by rfl))

theorem execEnrdRsv_safe {g : BitVec 4} {d : BitVec 5} {s : State} (hs : s.Inv) : Safe (execEnrdRsv g d s) := by
  unfold execEnrdRsv
  repeat' first
    | with_reducible exact hs | with_reducible assumption | with_reducible refine Inv.fst (by assumption) ?_
    | with_reducible apply State.put_inv | with_reducible apply State.slot_safe | with_reducible apply Safe.next
    | with_reducible apply Safe.ite | (intro _) | fail_if_no_progress (with_reducible apply Inv.frame) | split
    | (dsimp only) | fail_if_no_progress (refine Inv.pkg ?_ (by rfl))

theorem execEnres_safe {g : BitVec 4} {d a : BitVec 5} {s : State} (hs : s.Inv) : Safe (execEnres g d a s) := by
  unfold execEnres
  repeat' first
    | with_reducible exact hs | with_reducible assumption | with_reducible refine Inv.fst (by assumption) ?_
    | with_reducible apply State.slot_safe | with_reducible apply Safe.next | with_reducible apply Safe.ite | (intro _)
    | fail_if_no_progress (with_reducible apply Inv.frame) | split | (dsimp only)
    | fail_if_no_progress (refine Inv.pkg ?_ (by rfl))

theorem execEnresRel_safe {g : BitVec 4} {d a : BitVec 5} {s : State} (hs : s.Inv) : Safe (execEnresRel g d a s) := by
  unfold execEnresRel
  repeat' first
    | with_reducible exact hs | with_reducible assumption | with_reducible refine Inv.fst (by assumption) ?_
    | with_reducible apply State.slot_safe | with_reducible apply Safe.next | with_reducible apply Safe.ite | (intro _)
    | fail_if_no_progress (with_reducible apply Inv.frame) | split | (dsimp only)
    | fail_if_no_progress (refine Inv.pkg ?_ (by rfl))

theorem State.doEnres_inv {s : State} {d : BitVec 5} {x : W64} {rel : Bool} (hs : s.Inv) : (State.doEnres s d x rel).Inv :=
    by
  unfold State.doEnres
  repeat' first
    | with_reducible exact hs | with_reducible assumption | with_reducible refine Inv.fst (by assumption) ?_
    | with_reducible apply Inv.ite | (intro _) | fail_if_no_progress (with_reducible apply Inv.frame) | split | (dsimp only)
    | fail_if_no_progress (refine Inv.pkg ?_ (by rfl))

theorem State.refill_inv {s : State} {rate : Nat} (hs : s.Inv) : (State.refill s rate).Inv := by
  unfold State.refill
  repeat' first
    | with_reducible exact hs | with_reducible assumption | with_reducible refine Inv.fst (by assumption) ?_
    | with_reducible apply Inv.ite | (intro _) | fail_if_no_progress (with_reducible apply Inv.frame) | split | (dsimp only)
    | fail_if_no_progress (refine Inv.pkg ?_ (by rfl))

theorem State.doReraise_inv {s : State} (hs : s.Inv) : (State.doReraise s).Inv := by
  unfold State.doReraise
  repeat' first
    | with_reducible exact hs | with_reducible assumption | with_reducible refine Inv.fst (by assumption) ?_
    | with_reducible apply State.levelTwo_inv | with_reducible apply State.beginReturn_inv
    | with_reducible apply State.failHalted_inv | with_reducible apply Inv.ite | (intro _)
    | fail_if_no_progress (with_reducible apply Inv.frame) | split | (dsimp only)
    | fail_if_no_progress (refine Inv.pkg ?_ (by rfl))

theorem State.mapMatrix_inv {s : State} {num : Nat} {f : MCmd → MCmd} (hs : s.Inv) : (State.mapMatrix s num f).Inv := by
  unfold State.mapMatrix
  repeat' first
    | with_reducible exact hs | with_reducible assumption | with_reducible refine Inv.fst (by assumption) ?_
    | with_reducible apply Inv.ite | (intro _) | fail_if_no_progress (with_reducible apply Inv.frame) | split | (dsimp only)
    | fail_if_no_progress (refine Inv.pkg ?_ (by rfl))

theorem State.dropMatrix_inv {s : State} {num : Nat} (hs : s.Inv) : (State.dropMatrix s num).Inv := by
  unfold State.dropMatrix
  repeat' first
    | with_reducible exact hs | with_reducible assumption | with_reducible refine Inv.fst (by assumption) ?_
    | with_reducible apply Inv.ite | (intro _) | fail_if_no_progress (with_reducible apply Inv.frame) | split | (dsimp only)
    | fail_if_no_progress (refine Inv.pkg ?_ (by rfl))

theorem State.startM_inv {s : State} {e : Nat} (hs : s.Inv) : (State.startM s e).Inv := by
  unfold State.startM
  repeat' first
    | with_reducible exact hs | with_reducible assumption | with_reducible refine Inv.fst (by assumption) ?_
    | with_reducible apply State.complete_inv | with_reducible apply State.charge_inv
    | with_reducible apply State.mapMatrix_inv | with_reducible apply State.dropMatrix_inv | with_reducible apply Inv.ite
    | (intro _) | fail_if_no_progress (with_reducible apply Inv.frame) | split | (dsimp only)
    | fail_if_no_progress (refine Inv.pkg ?_ (by rfl))

theorem State.finishM_inv {s : State} {c : MCmd} (hs : s.Inv) : (State.finishM s c).Inv := by
  unfold State.finishM
  repeat' first
    | with_reducible exact hs | with_reducible assumption | with_reducible refine Inv.fst (by assumption) ?_
    | with_reducible apply State.complete_inv | with_reducible apply State.doMatrix_inv
    | with_reducible apply State.mapMatrix_inv | with_reducible apply State.dropMatrix_inv | with_reducible apply Inv.ite
    | (intro _) | fail_if_no_progress (with_reducible apply Inv.frame) | split | (dsimp only)
    | fail_if_no_progress (refine Inv.pkg ?_ (by rfl))

theorem State.mapTask_inv {s : State} {num : Nat} {f : Task → Task} (hs : s.Inv) : (State.mapTask s num f).Inv := by
  unfold State.mapTask
  repeat' first
    | with_reducible exact hs | with_reducible assumption | with_reducible refine Inv.fst (by assumption) ?_
    | with_reducible apply Inv.ite | (intro _) | fail_if_no_progress (with_reducible apply Inv.frame) | split | (dsimp only)
    | fail_if_no_progress (refine Inv.pkg ?_ (by rfl))

theorem State.takeRows_inv {s : State} {num q : Nat} (hs : s.Inv) : (State.takeRows s num q).Inv := by
  unfold State.takeRows
  repeat' first
    | with_reducible exact hs | with_reducible assumption | with_reducible refine Inv.fst (by assumption) ?_
    | with_reducible apply State.setRowQ_inv | with_reducible apply State.mapTask_inv | with_reducible apply Inv.ite
    | (intro _) | fail_if_no_progress (with_reducible apply Inv.frame) | split | (dsimp only)
    | fail_if_no_progress (refine Inv.pkg ?_ (by rfl))

theorem State.dispatch_inv {s : State} {t : Task} {e : Nat} (hs : s.Inv) : (State.dispatch s t e).Inv := by
  unfold State.dispatch
  repeat' first
    | with_reducible exact hs | with_reducible assumption | with_reducible refine Inv.fst (by assumption) ?_
    | with_reducible apply State.charge_inv | with_reducible apply State.mapTask_inv
    | with_reducible apply State.takeRows_inv | (with_reducible apply foldl_inv; intro _ _ _)
    | (with_reducible apply foldl_fst; intro _ _ _) | with_reducible apply Inv.ite | (intro _)
    | fail_if_no_progress (with_reducible apply Inv.frame) | split | (dsimp only)
    | fail_if_no_progress (refine Inv.pkg ?_ (by rfl))

theorem State.holdEngines_inv {s : State} {t : Task} (hs : s.Inv) : (State.holdEngines s t).Inv := by
  unfold State.holdEngines
  repeat' first
    | with_reducible exact hs | with_reducible assumption | with_reducible refine Inv.fst (by assumption) ?_
    | with_reducible apply State.mapTask_inv | with_reducible apply Inv.ite | (intro _)
    | fail_if_no_progress (with_reducible apply Inv.frame) | split | (dsimp only)
    | fail_if_no_progress (refine Inv.pkg ?_ (by rfl))

theorem State.offer_inv {a : State × List Nat × Bool} {num : Nat} (hs : a.1.Inv) : (State.offer a num).1.Inv := by
  unfold State.offer
  repeat' first
    | with_reducible exact hs | with_reducible assumption | with_reducible refine Inv.fst (by assumption) ?_
    | with_reducible apply State.dispatch_inv | with_reducible apply State.holdEngines_inv | with_reducible apply Inv.ite
    | (intro _) | dsimp only | fail_if_no_progress (with_reducible apply Inv.frame) | split | (dsimp only)
    | fail_if_no_progress (refine Inv.pkg ?_ (by rfl))

theorem State.dispatchRound_inv {s : State} (hs : s.Inv) : (State.dispatchRound s).1.Inv := by
  unfold State.dispatchRound
  repeat' first
    | with_reducible exact hs | with_reducible assumption | with_reducible refine Inv.fst (by assumption) ?_
    | with_reducible apply State.offer_inv | (with_reducible apply foldl_inv; intro _ _ _)
    | (with_reducible apply foldl_fst; intro _ _ _) | with_reducible apply Inv.ite | (intro _) | dsimp only
    | fail_if_no_progress (with_reducible apply Inv.frame) | split | (dsimp only)
    | fail_if_no_progress (refine Inv.pkg ?_ (by rfl))

theorem execTaskDispatch_safe {s : State} (hs : s.Inv) : Safe (execTaskDispatch s) := by
  unfold execTaskDispatch
  repeat' first
    | with_reducible exact hs | with_reducible assumption | with_reducible refine Inv.fst (by assumption) ?_
    | with_reducible apply State.dispatchRound_inv | with_reducible apply Safe.next | with_reducible apply Safe.ite
    | (intro _) | fail_if_no_progress (with_reducible apply Inv.frame) | split | (dsimp only)
    | fail_if_no_progress (refine Inv.pkg ?_ (by rfl))

theorem State.freeRows_inv {s : State} {t : Task} (hs : s.Inv) : (State.freeRows s t).Inv := by
  unfold State.freeRows
  repeat' first
    | with_reducible exact hs | with_reducible assumption | with_reducible refine Inv.fst (by assumption) ?_
    | with_reducible apply State.setRowQ_inv | (with_reducible apply foldl_inv; intro _ _ _)
    | (with_reducible apply foldl_fst; intro _ _ _) | with_reducible apply Inv.ite | (intro _)
    | fail_if_no_progress (with_reducible apply Inv.frame) | split | (dsimp only)
    | fail_if_no_progress (refine Inv.pkg ?_ (by rfl))

theorem State.endTask_inv {s : State} {t : Task} {st : Byte} (hs : s.Inv) : (State.endTask s t st).Inv := by
  unfold State.endTask
  repeat' first
    | with_reducible exact hs | with_reducible assumption | with_reducible refine Inv.fst (by assumption) ?_
    | with_reducible apply State.complete_inv | with_reducible apply State.chainTaskDone_inv
    | with_reducible apply State.freeRows_inv | with_reducible apply Inv.ite | (intro _)
    | fail_if_no_progress (with_reducible apply Inv.frame) | split | (dsimp only)
    | fail_if_no_progress (refine Inv.pkg ?_ (by rfl))

theorem State.finishTask_inv {s : State} {t : Task} (hs : s.Inv) : (State.finishTask s t).Inv := by
  unfold State.finishTask
  repeat' first
    | with_reducible exact hs | with_reducible assumption | with_reducible refine Inv.fst (by assumption) ?_
    | with_reducible apply State.runTask_inv | with_reducible apply State.mapTask_inv
    | with_reducible apply State.endTask_inv | with_reducible apply Inv.ite | (intro _)
    | fail_if_no_progress (with_reducible apply Inv.frame) | split | (dsimp only)
    | fail_if_no_progress (refine Inv.pkg ?_ (by rfl))

theorem State.begin_inv {s : State} {u : EngUnit} (hs : s.Inv) : (State.begin s u).Inv := by
  unfold State.begin
  repeat' first
    | with_reducible exact hs | with_reducible assumption | with_reducible refine Inv.fst (by assumption) ?_
    | with_reducible apply State.startCopy_inv | with_reducible apply State.startX_inv
    | with_reducible apply State.startW_inv | with_reducible apply State.startChain_inv
    | with_reducible apply State.startM_inv | with_reducible apply Inv.ite | (intro _)
    | fail_if_no_progress (with_reducible apply Inv.frame) | split | (dsimp only)
    | fail_if_no_progress (refine Inv.pkg ?_ (by rfl))

theorem execCommandStart_safe {s : State} (hs : s.Inv) : Safe (execCommandStart s) := by
  unfold execCommandStart
  repeat' first
    | with_reducible exact hs | with_reducible assumption | with_reducible refine Inv.fst (by assumption) ?_
    | with_reducible apply State.begin_inv | with_reducible apply Safe.next | with_reducible apply Safe.ite | (intro _)
    | fail_if_no_progress (with_reducible apply Inv.frame) | split | (dsimp only)
    | fail_if_no_progress (refine Inv.pkg ?_ (by rfl))

theorem State.finish_inv {s : State} {ctx num : Nat} (hs : s.Inv) : (State.finish s ctx num).Inv := by
  unfold State.finish
  repeat' first
    | with_reducible exact hs | with_reducible assumption | with_reducible refine Inv.fst (by assumption) ?_
    | with_reducible apply State.finishCopy_inv | with_reducible apply State.finishX_inv
    | with_reducible apply State.finishW_inv | with_reducible apply State.finishSnap_inv
    | with_reducible apply State.finishCh_inv | with_reducible apply State.finishM_inv
    | with_reducible apply State.finishTask_inv | with_reducible apply Inv.ite | (intro _)
    | fail_if_no_progress (with_reducible apply Inv.frame) | split | (dsimp only)
    | fail_if_no_progress (refine Inv.pkg ?_ (by rfl))

theorem execCommandComplete_safe {s : State} (hs : s.Inv) : Safe (execCommandComplete s) := by
  unfold execCommandComplete
  repeat' first
    | with_reducible exact hs | with_reducible assumption | with_reducible refine Inv.fst (by assumption) ?_
    | with_reducible apply State.finish_inv | with_reducible apply Safe.next | with_reducible apply Safe.ite | (intro _)
    | fail_if_no_progress (with_reducible apply Inv.frame) | split | (dsimp only)
    | fail_if_no_progress (refine Inv.pkg ?_ (by rfl))

theorem execTileOpComplete_safe {s : State} (hs : s.Inv) : Safe (execTileOpComplete s) := by
  unfold execTileOpComplete
  repeat' first
    | with_reducible exact hs | with_reducible assumption | with_reducible refine Inv.fst (by assumption) ?_
    | with_reducible apply State.doTileOp_inv | with_reducible apply Safe.next | with_reducible apply Safe.ite | (intro _)
    | fail_if_no_progress (with_reducible apply Inv.frame) | split | (dsimp only)
    | fail_if_no_progress (refine Inv.pkg ?_ (by rfl))

theorem slotMeaning_safe {s : State} (hs : s.Inv) : ∀ i : Instr, Safe (slotMeaning i s)
  | .extHdr z y x => execExtHdr_safe (_z := z) (_y := y) (_x := x) hs
  | .repeatPfx .. => execRepeatPfx_safe hs
  | .lbmark .. => execLbmark_safe hs
  | .nop g => execNop_safe (_g := g) hs
  | .add .. => execAdd_safe hs
  | .sub .. => execSub_safe hs
  | .and .. => execAnd_safe hs
  | .or .. => execOr_safe hs
  | .xor .. => execXor_safe hs
  | .andn .. => execAndn_safe hs
  | .shl .. => execShl_safe hs
  | .shr .. => execShr_safe hs
  | .sar .. => execSar_safe hs
  | .ror .. => execRor_safe hs
  | .min .. => execMin_safe hs
  | .minN .. => execMinN_safe hs
  | .max .. => execMax_safe hs
  | .maxN .. => execMaxN_safe hs
  | .mul .. => execMul_safe hs
  | .mulh .. => execMulh_safe hs
  | .mulhN .. => execMulhN_safe hs
  | .madd .. => execMadd_safe hs
  | .div .. => execDiv_safe hs
  | .divN .. => execDivN_safe hs
  | .rem .. => execRem_safe hs
  | .remN .. => execRemN_safe hs
  | .sextB .. => execSextB_safe hs
  | .sextH .. => execSextH_safe hs
  | .sextW .. => execSextW_safe hs
  | .zextB .. => execZextB_safe hs
  | .zextH .. => execZextH_safe hs
  | .zextW .. => execZextW_safe hs
  | .popc .. => execPopc_safe hs
  | .clz .. => execClz_safe hs
  | .ctz .. => execCtz_safe hs
  | .addi .. => execAddi_safe hs
  | .andi .. => execAndi_safe hs
  | .ori .. => execOri_safe hs
  | .xori .. => execXori_safe hs
  | .shli .. => execShli_safe hs
  | .shri .. => execShri_safe hs
  | .sari .. => execSari_safe hs
  | .shori .. => execShori_safe hs
  | .adda .. => execAdda_safe hs
  | .movAS .. => execMovAS_safe hs
  | .movSA .. => execMovSA_safe hs
  | .movNS .. => execMovNS_safe hs
  | .movSN .. => execMovSN_safe hs
  | .movES .. => execMovES_safe hs
  | .movSE .. => execMovSE_safe hs
  | .movToControl .. => execMovToControl_safe hs
  | .movFromControl .. => execMovFromControl_safe hs
  | .movGS .. => execMovGS_safe hs
  | .movSG .. => execMovSG_safe hs
  | .gget .. => execGget_safe hs
  | .gset .. => execGset_safe hs
  | .cmpEq .. => execCmpEq_safe hs
  | .cmpEqImm .. => execCmpEqImm_safe hs
  | .cmpLt .. => execCmpLt_safe hs
  | .cmpLtImm .. => execCmpLtImm_safe hs
  | .cmpLe .. => execCmpLe_safe hs
  | .cmpLeImm .. => execCmpLeImm_safe hs
  | .cmpLtn .. => execCmpLtn_safe hs
  | .cmpLtnImm .. => execCmpLtnImm_safe hs
  | .cmpLen .. => execCmpLen_safe hs
  | .cmpLenImm .. => execCmpLenImm_safe hs
  | .cmpTst .. => execCmpTst_safe hs
  | .cmpTstImm .. => execCmpTstImm_safe hs
  | .brT .. => execBrT_safe hs
  | .brNt .. => execBrNt_safe hs
  | .call .. => execCall_safe hs
  | .bri .. => execBri_safe hs
  | .ret .. => execRet_safe hs
  | .loop .. => execLoop_safe hs
  | .wait g .. => execWait_safe (_g := g) hs
  | .waitt g .. => execWaitt_safe (_g := g) hs
  | .fence g => execFence_safe (_g := g) hs
  | .lpoff .. => execLpoff_safe hs
  | .ldB .. => execLdB_safe hs
  | .ldH .. => execLdH_safe hs
  | .ldW .. => execLdW_safe hs
  | .ldD .. => execLdD_safe hs
  | .stB .. => execStB_safe hs
  | .stH .. => execStH_safe hs
  | .stW .. => execStW_safe hs
  | .stD .. => execStD_safe hs
  | .atmW .. => execAtmW_safe hs
  | .atmD .. => execAtmD_safe hs
  | .vand .. => execVand_safe hs
  | .vor .. => execVor_safe hs
  | .vxor .. => execVxor_safe hs
  | .vandn .. => execVandn_safe hs
  | .vaddI32 .. => execVaddI32_safe hs
  | .vsubI32 .. => execVsubI32_safe hs
  | .vmulI32 .. => execVmulI32_safe hs
  | .vaddI16 .. => execVaddI16_safe hs
  | .vsubI16 .. => execVsubI16_safe hs
  | .vaddsI16 .. => execVaddsI16_safe hs
  | .vsubsI16 .. => execVsubsI16_safe hs
  | .vaddI8 .. => execVaddI8_safe hs
  | .vsubI8 .. => execVsubI8_safe hs
  | .vaddsI8 .. => execVaddsI8_safe hs
  | .vsubsI8 .. => execVsubsI8_safe hs
  | .vminI32 .. => execVminI32_safe hs
  | .vmaxI32 .. => execVmaxI32_safe hs
  | .vminN32 .. => execVminN32_safe hs
  | .vmaxN32 .. => execVmaxN32_safe hs
  | .vshlI32 .. => execVshlI32_safe hs
  | .vshrN32 .. => execVshrN32_safe hs
  | .vsarI32 .. => execVsarI32_safe hs
  | .vdot4I8 .. => execVdot4I8_safe hs
  | .vdot4N8 .. => execVdot4N8_safe hs
  | .vdot2I16 .. => execVdot2I16_safe hs
  | .vdot2N16 .. => execVdot2N16_safe hs
  | .vaddF32 .. => execVaddF32_safe hs
  | .vsubF32 .. => execVsubF32_safe hs
  | .vmulF32 .. => execVmulF32_safe hs
  | .vfmaF32 .. => execVfmaF32_safe hs
  | .vfmsF32 .. => execVfmsF32_safe hs
  | .vminF32 .. => execVminF32_safe hs
  | .vmaxF32 .. => execVmaxF32_safe hs
  | .vsubBf16 .. => execVsubBf16_safe hs
  | .vaddBf16 .. => execVaddBf16_safe hs
  | .vmulBf16 .. => execVmulBf16_safe hs
  | .vfmaBf16 .. => execVfmaBf16_safe hs
  | .vaddF16 .. => execVaddF16_safe hs
  | .vmulF16 .. => execVmulF16_safe hs
  | .vfmaF16 .. => execVfmaF16_safe hs
  | .vrcpaF32 .. => execVrcpaF32_safe hs
  | .vrsqaF32 .. => execVrsqaF32_safe hs
  | .vcvtF32I32 .. => execVcvtF32I32_safe hs
  | .vcvtF32N32 .. => execVcvtF32N32_safe hs
  | .vcvtI32F32 .. => execVcvtI32F32_safe hs
  | .vcvtN32F32 .. => execVcvtN32F32_safe hs
  | .vcvtBf16F32 .. => execVcvtBf16F32_safe hs
  | .vcvtF16F32 .. => execVcvtF16F32_safe hs
  | .vcvtE4m3F32 .. => execVcvtE4m3F32_safe hs
  | .vcvtE5m2F32 .. => execVcvtE5m2F32_safe hs
  | .vcvtF32Widen .. => execVcvtF32Widen_safe hs
  | .vcvtQ4F32 .. => execVcvtQ4F32_safe hs
  | .vcvtF32Q4 .. => execVcvtF32Q4_safe hs
  | .vcmpF32 .. => execVcmpF32_safe hs
  | .vcmpI32 .. => execVcmpI32_safe hs
  | .vcmpN32 .. => execVcmpN32_safe hs
  | .klogic .. => execKlogic_safe hs
  | .vbcast .. => execVbcast_safe hs
  | .viota .. => execViota_safe hs
  | .vperm .. => execVperm_safe hs
  | .vred .. => execVred_safe hs
  | .vld .. => execVld_safe hs
  | .vst .. => execVst_safe hs
  | .vldW .. => execVldW_safe hs
  | .vstW .. => execVstW_safe hs
  | .vldK .. => execVldK_safe hs
  | .vstK .. => execVstK_safe hs
  | .trdr .. => execTrdr_safe hs
  | .trdc .. => execTrdc_safe hs
  | .twrr32 .. => execTwrr32_safe hs
  | .twrc32 .. => execTwrc32_safe hs
  | .twrr16 .. => execTwrr16_safe hs
  | .twrc16 .. => execTwrc16_safe hs
  | .twrr8 .. => execTwrr8_safe hs
  | .twrc8 .. => execTwrc8_safe hs
  | .twrr8Nan .. => execTwrr8Nan_safe hs
  | .twrc8Nan .. => execTwrc8Nan_safe hs
  | .tld .. => execTld_safe hs
  | .tst .. => execTst_safe hs
  | .mwl .. => execMwl_safe hs
  | .mwlm .. => execMwlm_safe hs
  | .mwlp .. => execMwlp_safe hs
  | .mwlpm .. => execMwlpm_safe hs
  | .mwa .. => execMwa_safe hs
  | .mwap .. => execMwap_safe hs
  | .mms .. => execMms_safe hs
  | .mmsm .. => execMmsm_safe hs
  | .mmsp .. => execMmsp_safe hs
  | .mmspm .. => execMmspm_safe hs
  | .mdr .. => execMdr_safe hs
  | .mdrm .. => execMdrm_safe hs
  | .mdrp .. => execMdrp_safe hs
  | .mdrpm .. => execMdrpm_safe hs
  | .mpost .. => execMpost_safe hs
  | .mzero .. => execMzero_safe hs
  | .mzerop .. => execMzerop_safe hs
  | .tcpy .. => execTcpy_safe hs
  | .tzero .. => execTzero_safe hs
  | .mdrt .. => execMdrt_safe hs
  | .tldt .. => execTldt_safe hs
  | .tstt .. => execTstt_safe hs
  | .tshape .. => execTshape_safe hs
  | .cpy .. => execCpy_safe hs
  | .cpy2 .. => execCpy2_safe hs
  | .cpyz .. => execCpyz_safe hs
  | .cpyx .. => execCpyx_safe hs
  | .cfill .. => execCfill_safe hs
  | .rld .. => execRld_safe hs
  | .rst .. => execRst_safe hs
  | .ratmW .. => execRatmW_safe hs
  | .ratmD .. => execRatmD_safe hs
  | .rred .. => execRred_safe hs
  | .fput .. => execFput_safe hs
  | .cfence .. => execCfence_safe hs
  | .xchg .. => execXchg_safe hs
  | .xcmb .. => execXcmb_safe hs
  | .sendif .. => execSendif_safe hs
  | .shiftg .. => execShiftg_safe hs
  | .xchgm .. => execXchgm_safe hs
  | .xcmbm .. => execXcmbm_safe hs
  | .xarm .. => execXarm_safe hs
  | .xdisarm .. => execXdisarm_safe hs
  | .xbar .. => execXbar_safe hs
  | .coll .. => execColl_safe hs
  | .route .. => execRoute_safe hs
  | .rqcfg .. => execRqcfg_safe hs
  | .rqreset .. => execRqreset_safe hs
  | .rcsnap .. => execRcsnap_safe hs
  | .chain .. => execChain_safe hs
  | .chstep .. => execChstep_safe hs
  | .chsize .. => execChsize_safe hs
  | .chabort .. => execChabort_safe hs
  | .trap .. => execTrap_safe hs
  | .rte .. => execRte_safe hs
  | .rteSw .. => execRteSw_safe hs
  | .endProg .. => execEndProg_safe hs
  | .reraise .. => execReraise_safe hs
  | .lmark .. => execLmark_safe hs
  | .bpoint .. => execBpoint_safe hs
  | .dpoint .. => execDpoint_safe hs
  | .rdcyc .. => execRdcyc_safe hs
  | .sdump .. => execSdump_safe hs
  | .enrd .. => execEnrd_safe hs
  | .enrdRsv .. => execEnrdRsv_safe hs
  | .enres .. => execEnres_safe hs
  | .enresRel .. => execEnresRel_safe hs
  | .issueBundle | .stallEnd | .longWait | .resultLands | .sramAccessPerformed | .sramLoadLands | .tileOpComplete
  | .correctableError | .freezeEnd | .patrolScrub | .uncorrectableError | .windowTableWrite | .wtlockSet
  | .codeStoreLoad | .controlPathRegisterWrite | .commandStart | .issueBufferEnter | .blockTransfer | .commandComplete
  | .supply | .refuse | .discard | .reclaim | .pgresRead | .writePacket | .readRequest | .readResponse | .atomicPacket
  | .atomicResponse | .reduceStore | .flagPacket | .transferAcknowledgement | .exchangeData | .unreachableNotice
  | .linkAcknowledgement | .negativeAcknowledgement | .replayTimeout | .detourForward | .lossOfSignal
  | .guylineSwitchBack | .managementEnable | .managementDisable | .failedRetrain | .trainingComplete | .trainTimeout
  | .rekeyStart | .rekeyComplete | .nonceLimit | .park | .parkack | .ready | .abort | .exchangeTimeout | .xarmFire
  | .walkerRound | .routeRowReceive | .taskDispatch | .chainStepStart | .chainTaskPost | .energyRefill | .thermalLimit
  | .qtailWrite | .submitJob | .submitChain | .cancel | .registerPager | .withdrawPager | .readDump | .resetTenant
  | .placementPass | .aging | .quantumExpiry | .jobEnd | .drainRequest | .imageCapture | .drainEscalation | .scanStop
  | .resume | .budtgtSet | .buddyPointAbandon | .fatalTrap | .dieReset | .trapDelivery | .trapCyclesEnd
  | .returnCyclesEnd | .evrdWrite | .evovfClear | .tenantConfigWrite | .readyBitSet | .packageReset
  | .firmwareImageWrite | .spdmMeasurement | .imageSecretInstall | .cxlMemAccess | .routerForward | .captureComplete
  | .dumpComplete | .dieReturnTimeout => hs

end Sys2Proof.Machine
end

