-- ==== Sys2Proof/Laws/KeepsCycle.lean ====
section
/-! SUPPORT. A cycle of the die clock keeps the invariant. -/

namespace Sys2Proof.Machine

set_option linter.all false

theorem State.endWait_inv {s : State} (hs : s.Inv) : s.endWait.Inv := by
  unfold State.endWait
  dsimp only
  split
  · exact State.emit_inv (Inv.frame hs)
  · exact Inv.frame hs

theorem State.moreWait_inv {s : State} (hs : s.Inv) : (State.moreWait s).Inv := by
  unfold State.moreWait
  repeat' first
    | with_reducible exact hs | with_reducible assumption | with_reducible refine Inv.fst (by assumption) ?_
    | with_reducible apply State.emit_inv | with_reducible apply Inv.ite | (intro _)
    | fail_if_no_progress (with_reducible apply Inv.frame) | split | (dsimp only)
    | fail_if_no_progress (refine Inv.pkg ?_ (by rfl)) | with_reducible apply Inv.cells
    | with_reducible exact Inv.bytesWf hs | with_reducible exact Inv.activeWf hs | with_reducible exact Inv.shadowWf hs
    | with_reducible exact Inv.accWf hs | with_reducible apply cellsWf_putCells | with_reducible apply cellsWf_clear

theorem State.land_inv {s : State} {seq : Nat} {l : Landing} (hs : s.Inv) : (State.land s seq l).Inv := by
  unfold State.land
  repeat' first
    | with_reducible exact hs | with_reducible assumption | with_reducible refine Inv.fst (by assumption) ?_
    | with_reducible apply State.store_inv | with_reducible apply State.ctlWrite_inv | with_reducible apply State.atomic_inv
    | with_reducible apply Inv.ite | (intro _) | fail_if_no_progress (with_reducible apply Inv.frame) | split | (dsimp only)
    | fail_if_no_progress (refine Inv.pkg ?_ (by rfl)) | with_reducible apply Inv.cells
    | with_reducible exact Inv.bytesWf hs | with_reducible exact Inv.activeWf hs | with_reducible exact Inv.shadowWf hs
    | with_reducible exact Inv.accWf hs | with_reducible apply cellsWf_putCells | with_reducible apply cellsWf_clear

theorem State.landAll_inv {s : State} {rs : List Result} (hs : s.Inv) : (s.landAll rs).Inv := by
  unfold State.landAll
  exact foldl_inv (fun _ _ h => State.orFlags_inv h) (foldl_inv (fun _ _ h => State.land_inv h) hs)

theorem State.landDue_inv {s : State} {counted : Bool} {loaded : List Result} (hs : s.Inv) : (State.landDue s counted
    loaded).Inv := by
  unfold State.landDue
  repeat' first
    | with_reducible exact hs | with_reducible assumption | with_reducible refine Inv.fst (by assumption) ?_
    | with_reducible apply State.landAll_inv | with_reducible apply Inv.ite | (intro _)
    | fail_if_no_progress (with_reducible apply Inv.frame) | split | (dsimp only)
    | fail_if_no_progress (refine Inv.pkg ?_ (by rfl)) | with_reducible apply Inv.cells
    | with_reducible exact Inv.bytesWf hs | with_reducible exact Inv.activeWf hs | with_reducible exact Inv.shadowWf hs
    | with_reducible exact Inv.accWf hs | with_reducible apply cellsWf_putCells | with_reducible apply cellsWf_clear

theorem State.performSram_inv {s : State} {o : SramOp} (hs : s.Inv) : (State.performSram s o).1.Inv := by
  unfold State.performSram
  repeat' first
    | with_reducible exact hs | with_reducible assumption | with_reducible refine Inv.fst (by assumption) ?_
    | with_reducible apply State.store_inv | with_reducible apply State.atomic_inv | with_reducible apply Inv.ite
    | (intro _) | dsimp only | fail_if_no_progress (with_reducible apply Inv.frame) | split | (dsimp only)
    | fail_if_no_progress (refine Inv.pkg ?_ (by rfl)) | with_reducible apply Inv.cells
    | with_reducible exact Inv.bytesWf hs | with_reducible exact Inv.activeWf hs | with_reducible exact Inv.shadowWf hs
    | with_reducible exact Inv.accWf hs | with_reducible apply cellsWf_putCells | with_reducible apply cellsWf_clear

theorem State.performAll_inv : ∀ {l : List SramOp} {s : State}, s.Inv → (s.performAll l).1.Inv
  | [], _, hs => hs
  | o :: r, s, hs => by
    unfold State.performAll
    exact State.performAll_inv (l := r) (State.performSram_inv hs)

theorem State.sramCycle_inv {s : State} (hs : s.Inv) : s.sramCycle.1.Inv := by
  unfold State.sramCycle
  exact Inv.frame (State.performAll_inv hs)

theorem State.startUnit_inv {lim : List Nat} {u : EngUnit} : ∀ {f : Nat} {s : State}, s.Inv → (s.startUnit lim u f).1.Inv
  | 0, _, hs => hs
  | f + 1, s, hs => by
    unfold State.startUnit
    split
    · exact hs
    · split
      · exact hs
      · split
        · exact State.startUnit_inv (State.begin_inv hs)
        · exact hs

theorem State.fireArms_inv {lim : List Nat} {q : Nat} : ∀ {f : Nat} {s : State}, s.Inv → (s.fireArms lim q f).1.Inv
  | 0, _, hs => hs
  | f + 1, s, hs => by
    unfold State.fireArms
    split
    · exact hs
    · split
      · exact State.fireArms_inv (State.beginX_inv hs)
      · exact hs

theorem State.deferred_inv {s : State} {d : Bool} (hs : s.Inv) : (State.deferred s d).Inv := by
  unfold State.deferred
  repeat' first
    | with_reducible exact hs | with_reducible assumption | with_reducible refine Inv.fst (by assumption) ?_
    | with_reducible apply Inv.ite | (intro _) | fail_if_no_progress (with_reducible apply Inv.frame) | split | (dsimp only)
    | fail_if_no_progress (refine Inv.pkg ?_ (by rfl)) | with_reducible apply Inv.cells
    | with_reducible exact Inv.bytesWf hs | with_reducible exact Inv.activeWf hs | with_reducible exact Inv.shadowWf hs
    | with_reducible exact Inv.accWf hs | with_reducible apply cellsWf_putCells | with_reducible apply cellsWf_clear

theorem State.engineStarts_inv {s : State} {lim : List Nat} (hs : s.Inv) : (s.engineStarts lim).Inv := by
  have run : ∀ {t : State} {u d}, t.Inv → ((t.startUnit lim u 32).1.deferred d).Inv :=
    fun h => State.deferred_inv (State.startUnit_inv h)
  unfold State.engineStarts
  refine State.deferred_inv (State.dispatchRound_inv ?_)
  refine foldl_inv (fun _ _ h => run h) (run (run ?_))
  refine foldl_inv (fun _ _ h => State.deferred_inv (State.startUnit_inv (State.fireArms_inv h))) ?_
  exact foldl_inv (fun _ _ h => run h) hs

theorem State.lateAct_inv {s : State} {x : Instr × Nat × List W64} (hs : s.Inv) : (State.lateAct s x).Inv := by
  unfold State.lateAct
  repeat' first
    | with_reducible exact hs | with_reducible assumption | with_reducible refine Inv.fst (by assumption) ?_
    | with_reducible apply State.readTask_inv | with_reducible apply State.disarm_inv
    | with_reducible apply State.rqConfigure_inv | with_reducible apply State.rqReset_inv
    | with_reducible apply State.rcCapture_inv | with_reducible apply State.chainAbort_inv | with_reducible apply Inv.ite
    | (intro _) | fail_if_no_progress (with_reducible apply Inv.frame) | split | (dsimp only)
    | fail_if_no_progress (refine Inv.pkg ?_ (by rfl)) | with_reducible apply Inv.cells
    | with_reducible exact Inv.bytesWf hs | with_reducible exact Inv.activeWf hs | with_reducible exact Inv.shadowWf hs
    | with_reducible exact Inv.accWf hs | with_reducible apply cellsWf_putCells | with_reducible apply cellsWf_clear

theorem State.lateActs_inv {s : State} (hs : s.Inv) : (State.lateActs s).Inv := by
  unfold State.lateActs
  repeat' first
    | with_reducible exact hs | with_reducible assumption | with_reducible refine Inv.fst (by assumption) ?_
    | with_reducible apply State.doEnres_inv | with_reducible apply State.lateAct_inv
    | (with_reducible apply foldl_inv; intro _ _ _) | (with_reducible apply foldl_fst; intro _ _ _)
    | with_reducible apply Inv.ite | (intro _) | fail_if_no_progress (with_reducible apply Inv.frame) | split | (dsimp only)
    | fail_if_no_progress (refine Inv.pkg ?_ (by rfl)) | with_reducible apply Inv.cells
    | with_reducible exact Inv.bytesWf hs | with_reducible exact Inv.activeWf hs | with_reducible exact Inv.shadowWf hs
    | with_reducible exact Inv.accWf hs | with_reducible apply cellsWf_putCells | with_reducible apply cellsWf_clear

theorem State.tickTimeouts_inv {s : State} (hs : s.Inv) : s.tickTimeouts.Inv := by
  unfold State.tickTimeouts
  exact State.timeoutW_inv (foldl_inv (fun _ _ h => State.timeoutX_inv h) (Inv.frame hs))

theorem State.background_inv {s : State} {lim : List Nat} (hs : s.Inv) : (State.background s lim).Inv := by
  unfold State.background
  repeat' first
    | with_reducible exact hs | with_reducible assumption | with_reducible refine Inv.fst (by assumption) ?_
    | with_reducible apply State.chainPost_inv | with_reducible apply State.landDue_inv
    | with_reducible apply State.sramCycle_inv | with_reducible apply State.engineStarts_inv
    | with_reducible apply State.lateActs_inv | with_reducible apply State.tickTimeouts_inv | with_reducible apply Inv.ite
    | (intro _) | fail_if_no_progress (with_reducible apply Inv.frame) | split | (dsimp only)
    | fail_if_no_progress (refine Inv.pkg ?_ (by rfl)) | with_reducible apply Inv.cells
    | with_reducible exact Inv.bytesWf hs | with_reducible exact Inv.activeWf hs | with_reducible exact Inv.shadowWf hs
    | with_reducible exact Inv.accWf hs | with_reducible apply cellsWf_putCells | with_reducible apply cellsWf_clear

theorem State.powerClock_inv {s : State} (hs : s.Inv) : s.powerClock.Inv := by
  unfold State.powerClock
  split
  · exact State.refill_inv ⟨hs.1, hs.2.1, hs.2.2.1, by dsimp only; omega⟩
  · exact ⟨hs.1, hs.2.1, hs.2.2.1, by dsimp only; omega⟩

theorem State.passTime_inv {s : State} {power counts : Bool} (hs : s.Inv) : (State.passTime s power counts).Inv := by
  unfold State.passTime
  repeat' first
    | with_reducible exact hs | with_reducible assumption | with_reducible refine Inv.fst (by assumption) ?_
    | with_reducible apply State.powerClock_inv | with_reducible apply Inv.ite | (intro _)
    | fail_if_no_progress (with_reducible apply Inv.frame) | split | (dsimp only)
    | fail_if_no_progress (refine Inv.pkg ?_ (by rfl)) | with_reducible apply Inv.cells
    | with_reducible exact Inv.bytesWf hs | with_reducible exact Inv.activeWf hs | with_reducible exact Inv.shadowWf hs
    | with_reducible exact Inv.accWf hs | with_reducible apply cellsWf_putCells | with_reducible apply cellsWf_clear

theorem State.repeatRegs_inv {s : State} (hs : s.Inv) : (State.repeatRegs s).Inv := by
  unfold State.repeatRegs
  repeat' first
    | with_reducible exact hs | with_reducible assumption | with_reducible refine Inv.fst (by assumption) ?_
    | with_reducible apply Inv.ite | (intro _) | fail_if_no_progress (with_reducible apply Inv.frame) | split | (dsimp only)
    | fail_if_no_progress (refine Inv.pkg ?_ (by rfl)) | with_reducible apply Inv.cells
    | with_reducible exact Inv.bytesWf hs | with_reducible exact Inv.activeWf hs | with_reducible exact Inv.shadowWf hs
    | with_reducible exact Inv.accWf hs | with_reducible apply cellsWf_putCells | with_reducible apply cellsWf_clear

theorem State.atSlot_inv {s : State} {pos : Nat} (hs : s.Inv) : (State.atSlot s pos).Inv := by
  unfold State.atSlot
  repeat' first
    | with_reducible exact hs | with_reducible assumption | with_reducible refine Inv.fst (by assumption) ?_
    | with_reducible apply State.slot_safe | with_reducible apply Inv.ite | (intro _)
    | fail_if_no_progress (with_reducible apply Inv.frame) | split | (dsimp only)
    | fail_if_no_progress (refine Inv.pkg ?_ (by rfl)) | with_reducible apply Inv.cells
    | with_reducible exact Inv.bytesWf hs | with_reducible exact Inv.activeWf hs | with_reducible exact Inv.shadowWf hs
    | with_reducible exact Inv.accWf hs | with_reducible apply cellsWf_putCells | with_reducible apply cellsWf_clear

theorem State.slotTrap_inv {s : State} {x : Nat × Instr} (hs : s.Inv) : ∀ t, s.slotTrap x = some t → t.Inv := by
  intro t
  have hm : Safe (slotMeaning x.2 (s.atSlot x.1)) := slotMeaning_safe (State.atSlot_inv hs) _
  unfold State.slotTrap
  split
  · rename_i u e
    split
    · intro h
      cases h
      exact Safe.of_next hm e
    · intro h; cases h
  · intro h; cases h

theorem runSlots_safe : ∀ {l : List (Nat × Instr)} {s : State}, s.Inv → Safe (runSlots l s)
  | [], _, hs => hs
  | (pos, i) :: r, s, hs => by
    have hm : Safe (slotMeaning i (s.atSlot pos)) := slotMeaning_safe (State.atSlot_inv hs) _
    unfold runSlots
    split
    · exact runSlots_safe (l := r) (Safe.of_next hm ‹_›)
    · rename_i e; rw [e] at hm; exact hm
    · rename_i e; rw [e] at hm; exact hm

theorem State.capture1_inv {s : State} {q : W64} (hs : s.Inv) : (State.capture1 s q).Inv := by
  unfold State.capture1
  repeat' first
    | with_reducible exact hs | with_reducible assumption | with_reducible refine Inv.fst (by assumption) ?_
    | with_reducible apply Inv.ite | (intro _) | fail_if_no_progress (with_reducible apply Inv.frame) | split | (dsimp only)
    | fail_if_no_progress (refine Inv.pkg ?_ (by rfl)) | with_reducible apply Inv.cells
    | with_reducible exact Inv.bytesWf hs | with_reducible exact Inv.activeWf hs | with_reducible exact Inv.shadowWf hs
    | with_reducible exact Inv.accWf hs | with_reducible apply cellsWf_putCells | with_reducible apply cellsWf_clear

theorem State.askStop_inv {s : State} (hs : s.Inv) : (State.askStop s).Inv := by
  unfold State.askStop
  repeat' first
    | with_reducible exact hs | with_reducible assumption | with_reducible refine Inv.fst (by assumption) ?_
    | with_reducible apply Inv.ite | (intro _) | fail_if_no_progress (with_reducible apply Inv.frame) | split | (dsimp only)
    | fail_if_no_progress (refine Inv.pkg ?_ (by rfl)) | with_reducible apply Inv.cells
    | with_reducible exact Inv.bytesWf hs | with_reducible exact Inv.activeWf hs | with_reducible exact Inv.shadowWf hs
    | with_reducible exact Inv.accWf hs | with_reducible apply cellsWf_putCells | with_reducible apply cellsWf_clear

theorem State.fallThrough_inv {s : State} {l : BitVec 2} (hs : s.Inv) : (State.fallThrough s l).Inv := by
  unfold State.fallThrough
  repeat' first
    | with_reducible exact hs | with_reducible assumption | with_reducible refine Inv.fst (by assumption) ?_
    | with_reducible apply State.askStop_inv | with_reducible apply Inv.ite | (intro _)
    | fail_if_no_progress (with_reducible apply Inv.frame) | split | (dsimp only)
    | fail_if_no_progress (refine Inv.pkg ?_ (by rfl)) | with_reducible apply Inv.cells
    | with_reducible exact Inv.bytesWf hs | with_reducible exact Inv.activeWf hs | with_reducible exact Inv.shadowWf hs
    | with_reducible exact Inv.accWf hs | with_reducible apply cellsWf_putCells | with_reducible apply cellsWf_clear

theorem State.drainLoop_inv {s : State} {l : BitVec 2} {n : W64} (hs : s.Inv) : (State.drainLoop s l n).Inv := by
  unfold State.drainLoop
  repeat' first
    | with_reducible exact hs | with_reducible assumption | with_reducible refine Inv.fst (by assumption) ?_
    | with_reducible apply State.put_inv | with_reducible apply Inv.ite | (intro _)
    | fail_if_no_progress (with_reducible apply Inv.frame) | split | (dsimp only)
    | fail_if_no_progress (refine Inv.pkg ?_ (by rfl)) | with_reducible apply Inv.cells
    | with_reducible exact Inv.bytesWf hs | with_reducible exact Inv.activeWf hs | with_reducible exact Inv.shadowWf hs
    | with_reducible exact Inv.accWf hs | with_reducible apply cellsWf_putCells | with_reducible apply cellsWf_clear

theorem State.loopTest_inv {q : W64} : ∀ {l : List (BitVec 2)} {s : State}, s.Inv → (s.loopTest q l).1.Inv
  | [], _, hs => hs
  | l :: r, s, hs => by
    unfold State.loopTest
    repeat' first
      | with_reducible exact hs | with_reducible apply State.loopTest_inv | with_reducible apply State.fallThrough_inv
      | with_reducible apply State.drainLoop_inv | fail_if_no_progress (with_reducible apply Inv.frame)
      | split | dsimp only

theorem State.flow_inv {s : State} {q : W64} (hs : s.Inv) : (s.flow q).Inv := by
  unfold State.flow
  dsimp only
  split
  · exact State.capture1_inv hs
  · exact Inv.frame (State.loopTest_inv (State.capture1_inv hs))

theorem State.advanceRepeat_inv {s : State} {r : Option Repeat} (hs : s.Inv) : (State.advanceRepeat s r).Inv := by
  unfold State.advanceRepeat
  repeat' first
    | with_reducible exact hs | with_reducible assumption | with_reducible refine Inv.fst (by assumption) ?_
    | with_reducible apply State.repeatRegs_inv | with_reducible apply Inv.ite | (intro _)
    | fail_if_no_progress (with_reducible apply Inv.frame) | split | (dsimp only)
    | fail_if_no_progress (refine Inv.pkg ?_ (by rfl)) | with_reducible apply Inv.cells
    | with_reducible exact Inv.bytesWf hs | with_reducible exact Inv.activeWf hs | with_reducible exact Inv.shadowWf hs
    | with_reducible exact Inv.accWf hs | with_reducible apply cellsWf_putCells | with_reducible apply cellsWf_clear

theorem State.issueSlots_safe {s : State} {ws : List Nat} (hs : s.Inv) : Safe (s.issueSlots ws) := by
  unfold State.issueSlots
  dsimp only
  split
  · rename_i t e
    exact Inv.frame (State.flow_inv (Safe.of_next (runSlots_safe hs) e))
  · rename_i f e
    exact (Safe.of_fault (runSlots_safe hs) e).elim
  · rename_i f e
    exact (Safe.of_refused (runSlots_safe hs) e).elim

theorem State.fetchFault_inv {s : State} (hs : s.Inv) : (State.fetchFault s).Inv := by
  unfold State.fetchFault
  repeat' first
    | with_reducible exact hs | with_reducible assumption | with_reducible refine Inv.fst (by assumption) ?_
    | with_reducible apply State.lanternC_inv | with_reducible apply State.takeTrap_inv | with_reducible apply Inv.ite
    | (intro _) | fail_if_no_progress (with_reducible apply Inv.frame) | split | (dsimp only)
    | fail_if_no_progress (refine Inv.pkg ?_ (by rfl)) | with_reducible apply Inv.cells
    | with_reducible exact Inv.bytesWf hs | with_reducible exact Inv.activeWf hs | with_reducible exact Inv.shadowWf hs
    | with_reducible exact Inv.accWf hs | with_reducible apply cellsWf_putCells | with_reducible apply cellsWf_clear

theorem State.takePending_inv {s : State} {p : Pending} (hs : s.Inv) : (State.takePending s p).Inv := by
  unfold State.takePending
  repeat' first
    | with_reducible exact hs | with_reducible assumption | with_reducible refine Inv.fst (by assumption) ?_
    | with_reducible apply State.deliver_inv | with_reducible apply State.levelTwo_inv | with_reducible apply Inv.ite
    | (intro _) | fail_if_no_progress (with_reducible apply Inv.frame) | split | (dsimp only)
    | fail_if_no_progress (refine Inv.pkg ?_ (by rfl)) | with_reducible apply Inv.cells
    | with_reducible exact Inv.bytesWf hs | with_reducible exact Inv.activeWf hs | with_reducible exact Inv.shadowWf hs
    | with_reducible exact Inv.accWf hs | with_reducible apply cellsWf_putCells | with_reducible apply cellsWf_clear

theorem State.issueChecked_safe {s : State} {ws : List Nat} (hs : s.Inv) : Safe (s.issueChecked ws) := by
  have ht : (({ s with stream.held := false } : State).repeatRegs).Inv := State.repeatRegs_inv (Inv.frame hs)
  unfold State.issueChecked
  dsimp only
  split
  · split
    · exact State.moreWait_inv (Inv.frame hs)
    · exact Inv.frame hs
  · split
    · rename_i u e
      obtain ⟨x, _, h⟩ := List.exists_of_findSome?_eq_some e
      exact State.slotTrap_inv (State.endWait_inv ht) _ h
    · split
      · exact State.takeTrap_inv (State.endWait_inv ht)
      · exact State.issueSlots_safe (State.endWait_inv ht)

theorem State.issue_safe {s : State} (hs : s.Inv) : Safe s.issue := by
  have hw := State.endWait_inv hs
  unfold State.issue
  split
  · exact State.takePending_inv hw
  · split
    · exact Inv.frame hs
    · split
      · exact State.fetchFault_inv hw
      · dsimp only
        split
        · exact State.takeIllegal_inv hw
        · split
          · exact State.takeIllegal_inv hw
          · exact State.issueChecked_safe hs

theorem State.stopImage_inv {s : State} {kind : Nat} {next : W64} (hs : s.Inv) : (State.stopImage s kind next).Inv := by
  unfold State.stopImage
  repeat' first
    | with_reducible exact hs | with_reducible assumption | with_reducible refine Inv.fst (by assumption) ?_
    | with_reducible apply State.lanternC_inv | with_reducible apply Inv.ite | (intro _)
    | fail_if_no_progress (with_reducible apply Inv.frame) | split | (dsimp only)
    | fail_if_no_progress (refine Inv.pkg ?_ (by rfl)) | with_reducible apply Inv.cells
    | with_reducible exact Inv.bytesWf hs | with_reducible exact Inv.activeWf hs | with_reducible exact Inv.shadowWf hs
    | with_reducible exact Inv.accWf hs | with_reducible apply cellsWf_putCells | with_reducible apply cellsWf_clear

theorem State.dueStop_inv {s : State} (hs : s.Inv) : (State.dueStop s).Inv := by
  unfold State.dueStop
  repeat' first
    | with_reducible exact hs | with_reducible assumption | with_reducible refine Inv.fst (by assumption) ?_
    | with_reducible apply State.stopImage_inv | with_reducible apply Inv.ite | (intro _)
    | fail_if_no_progress (with_reducible apply Inv.frame) | split | (dsimp only)
    | fail_if_no_progress (refine Inv.pkg ?_ (by rfl)) | with_reducible apply Inv.cells
    | with_reducible exact Inv.bytesWf hs | with_reducible exact Inv.activeWf hs | with_reducible exact Inv.shadowWf hs
    | with_reducible exact Inv.accWf hs | with_reducible apply cellsWf_putCells | with_reducible apply cellsWf_clear

theorem State.startSdump_inv {s : State} (hs : s.Inv) : (State.startSdump s).Inv := by
  unfold State.startSdump
  repeat' first
    | with_reducible exact hs | with_reducible assumption | with_reducible refine Inv.fst (by assumption) ?_
    | with_reducible apply State.dump_inv | with_reducible apply State.parkAll_inv | with_reducible apply Inv.ite
    | (intro _) | fail_if_no_progress (with_reducible apply Inv.frame) | split | (dsimp only)
    | fail_if_no_progress (refine Inv.pkg ?_ (by rfl)) | with_reducible apply Inv.cells
    | with_reducible exact Inv.bytesWf hs | with_reducible exact Inv.activeWf hs | with_reducible exact Inv.shadowWf hs
    | with_reducible exact Inv.accWf hs | with_reducible apply cellsWf_putCells | with_reducible apply cellsWf_clear

theorem State.turnover_inv {s : State} (hs : s.Inv) : (State.turnover s).Inv := by
  unfold State.turnover
  repeat' first
    | with_reducible exact hs | with_reducible assumption | with_reducible refine Inv.fst (by assumption) ?_
    | with_reducible apply State.endProgram_inv | with_reducible apply State.takeTrap_inv
    | with_reducible apply State.beginReturn_inv | with_reducible apply State.doReraise_inv
    | with_reducible apply State.stopImage_inv | with_reducible apply State.dueStop_inv
    | with_reducible apply State.startSdump_inv | with_reducible apply Inv.ite | (intro _)
    | fail_if_no_progress (with_reducible apply Inv.frame) | split | (dsimp only)
    | fail_if_no_progress (refine Inv.pkg ?_ (by rfl)) | with_reducible apply Inv.cells
    | with_reducible exact Inv.bytesWf hs | with_reducible exact Inv.activeWf hs | with_reducible exact Inv.shadowWf hs
    | with_reducible exact Inv.accWf hs | with_reducible apply cellsWf_putCells | with_reducible apply cellsWf_clear

theorem State.cycle_safe {s : State} (hs : s.Inv) : Safe s.cycle := by
  have hi := State.issue_safe hs
  unfold State.cycle
  split
  · exact State.passTime_inv (Inv.frame hs)
  · split
    · exact State.passTime_inv hs
    · split
      · rename_i t e
        have ht := Safe.of_next hi e
        refine State.stopsHere_inv (State.passTime_inv (State.turnover_inv ?_))
        have hb : (if (t.stream.mode.lives || decide (t.stream.mode = .fatal)) = true then t.background s.issueLimits else t).Inv :=
          Inv.ite (State.background_inv ht) ht
        exact Inv.ite (State.advanceRepeat_inv hb) hb
      · rename_i e; exact (Safe.of_fault hi e).elim
      · rename_i e; exact (Safe.of_refused hi e).elim
    · exact Inv.frame (State.passTime_inv hs)
    · exact Inv.ite (State.dueStop_inv (State.releaseChain_inv (State.endReturn_inv (State.passTime_inv (State.landDue_inv hs)))))
        (Inv.frame (State.passTime_inv (State.landDue_inv hs)))
    · exact State.passTime_inv (State.background_inv (Inv.frame hs))
    · exact State.passTime_inv (State.background_inv hs)
    · exact State.passTime_inv hs
    · exact State.passTime_inv hs
    · exact State.passTime_inv hs

theorem execIssueBundle_safe {s : State} (hs : s.Inv) : Safe (execIssueBundle s) := by
  unfold execIssueBundle
  repeat' first
    | with_reducible exact hs | with_reducible assumption | with_reducible refine Inv.fst (by assumption) ?_
    | with_reducible apply State.cycle_safe | with_reducible apply Safe.next | with_reducible apply Safe.ite | (intro _)
    | fail_if_no_progress (with_reducible apply Inv.frame) | split | (dsimp only)
    | fail_if_no_progress (refine Inv.pkg ?_ (by rfl)) | with_reducible apply Inv.cells
    | with_reducible exact Inv.bytesWf hs | with_reducible exact Inv.activeWf hs | with_reducible exact Inv.shadowWf hs
    | with_reducible exact Inv.accWf hs | with_reducible apply cellsWf_putCells | with_reducible apply cellsWf_clear

theorem State.cycleIf_safe {s : State} {due : Bool} (hs : s.Inv) : Safe (State.cycleIf s due) := by
  unfold State.cycleIf
  repeat' first
    | with_reducible exact hs | with_reducible assumption | with_reducible refine Inv.fst (by assumption) ?_
    | with_reducible apply State.cycle_safe | with_reducible apply Safe.next | with_reducible apply Safe.ite | (intro _)
    | fail_if_no_progress (with_reducible apply Inv.frame) | split | (dsimp only)
    | fail_if_no_progress (refine Inv.pkg ?_ (by rfl)) | with_reducible apply Inv.cells
    | with_reducible exact Inv.bytesWf hs | with_reducible exact Inv.activeWf hs | with_reducible exact Inv.shadowWf hs
    | with_reducible exact Inv.accWf hs | with_reducible apply cellsWf_putCells | with_reducible apply cellsWf_clear

theorem execStallEnd_safe {s : State} (hs : s.Inv) : Safe (execStallEnd s) := by
  unfold execStallEnd
  repeat' first
    | with_reducible exact hs | with_reducible assumption | with_reducible refine Inv.fst (by assumption) ?_
    | with_reducible apply State.cycleIf_safe | with_reducible apply Safe.next | with_reducible apply Safe.ite | (intro _)
    | fail_if_no_progress (with_reducible apply Inv.frame) | split | (dsimp only)
    | fail_if_no_progress (refine Inv.pkg ?_ (by rfl)) | with_reducible apply Inv.cells
    | with_reducible exact Inv.bytesWf hs | with_reducible exact Inv.activeWf hs | with_reducible exact Inv.shadowWf hs
    | with_reducible exact Inv.accWf hs | with_reducible apply cellsWf_putCells | with_reducible apply cellsWf_clear

theorem execLongWait_safe {s : State} (hs : s.Inv) : Safe (execLongWait s) := by
  unfold execLongWait
  repeat' first
    | with_reducible exact hs | with_reducible assumption | with_reducible refine Inv.fst (by assumption) ?_
    | with_reducible apply State.cycleIf_safe | with_reducible apply Safe.next | with_reducible apply Safe.ite | (intro _)
    | fail_if_no_progress (with_reducible apply Inv.frame) | split | (dsimp only)
    | fail_if_no_progress (refine Inv.pkg ?_ (by rfl)) | with_reducible apply Inv.cells
    | with_reducible exact Inv.bytesWf hs | with_reducible exact Inv.activeWf hs | with_reducible exact Inv.shadowWf hs
    | with_reducible exact Inv.accWf hs | with_reducible apply cellsWf_putCells | with_reducible apply cellsWf_clear

theorem execResultLands_safe {s : State} (hs : s.Inv) : Safe (execResultLands s) := by
  unfold execResultLands
  repeat' first
    | with_reducible exact hs | with_reducible assumption | with_reducible refine Inv.fst (by assumption) ?_
    | with_reducible apply State.cycleIf_safe | with_reducible apply Safe.next | with_reducible apply Safe.ite | (intro _)
    | fail_if_no_progress (with_reducible apply Inv.frame) | split | (dsimp only)
    | fail_if_no_progress (refine Inv.pkg ?_ (by rfl)) | with_reducible apply Inv.cells
    | with_reducible exact Inv.bytesWf hs | with_reducible exact Inv.activeWf hs | with_reducible exact Inv.shadowWf hs
    | with_reducible exact Inv.accWf hs | with_reducible apply cellsWf_putCells | with_reducible apply cellsWf_clear

theorem execSramAccessPerformed_safe {s : State} (hs : s.Inv) : Safe (execSramAccessPerformed s) := by
  unfold execSramAccessPerformed
  repeat' first
    | with_reducible exact hs | with_reducible assumption | with_reducible refine Inv.fst (by assumption) ?_
    | with_reducible apply State.cycleIf_safe | with_reducible apply Safe.next | with_reducible apply Safe.ite | (intro _)
    | fail_if_no_progress (with_reducible apply Inv.frame) | split | (dsimp only)
    | fail_if_no_progress (refine Inv.pkg ?_ (by rfl)) | with_reducible apply Inv.cells
    | with_reducible exact Inv.bytesWf hs | with_reducible exact Inv.activeWf hs | with_reducible exact Inv.shadowWf hs
    | with_reducible exact Inv.accWf hs | with_reducible apply cellsWf_putCells | with_reducible apply cellsWf_clear

theorem execSramLoadLands_safe {s : State} (hs : s.Inv) : Safe (execSramLoadLands s) := by
  unfold execSramLoadLands
  repeat' first
    | with_reducible exact hs | with_reducible assumption | with_reducible refine Inv.fst (by assumption) ?_
    | with_reducible apply State.cycleIf_safe | with_reducible apply Safe.next | with_reducible apply Safe.ite | (intro _)
    | fail_if_no_progress (with_reducible apply Inv.frame) | split | (dsimp only)
    | fail_if_no_progress (refine Inv.pkg ?_ (by rfl)) | with_reducible apply Inv.cells
    | with_reducible exact Inv.bytesWf hs | with_reducible exact Inv.activeWf hs | with_reducible exact Inv.shadowWf hs
    | with_reducible exact Inv.accWf hs | with_reducible apply cellsWf_putCells | with_reducible apply cellsWf_clear

theorem execFreezeEnd_safe {s : State} (hs : s.Inv) : Safe (execFreezeEnd s) := by
  unfold execFreezeEnd
  repeat' first
    | with_reducible exact hs | with_reducible assumption | with_reducible refine Inv.fst (by assumption) ?_
    | with_reducible apply State.cycleIf_safe | with_reducible apply Safe.next | with_reducible apply Safe.ite | (intro _)
    | fail_if_no_progress (with_reducible apply Inv.frame) | split | (dsimp only)
    | fail_if_no_progress (refine Inv.pkg ?_ (by rfl)) | with_reducible apply Inv.cells
    | with_reducible exact Inv.bytesWf hs | with_reducible exact Inv.activeWf hs | with_reducible exact Inv.shadowWf hs
    | with_reducible exact Inv.accWf hs | with_reducible apply cellsWf_putCells | with_reducible apply cellsWf_clear

theorem execTrapDelivery_safe {s : State} (hs : s.Inv) : Safe (execTrapDelivery s) := by
  unfold execTrapDelivery
  repeat' first
    | with_reducible exact hs | with_reducible assumption | with_reducible refine Inv.fst (by assumption) ?_
    | with_reducible apply State.cycleIf_safe | with_reducible apply Safe.next | with_reducible apply Safe.ite | (intro _)
    | fail_if_no_progress (with_reducible apply Inv.frame) | split | (dsimp only)
    | fail_if_no_progress (refine Inv.pkg ?_ (by rfl)) | with_reducible apply Inv.cells
    | with_reducible exact Inv.bytesWf hs | with_reducible exact Inv.activeWf hs | with_reducible exact Inv.shadowWf hs
    | with_reducible exact Inv.accWf hs | with_reducible apply cellsWf_putCells | with_reducible apply cellsWf_clear

theorem execTrapCyclesEnd_safe {s : State} (hs : s.Inv) : Safe (execTrapCyclesEnd s) := by
  unfold execTrapCyclesEnd
  repeat' first
    | with_reducible exact hs | with_reducible assumption | with_reducible refine Inv.fst (by assumption) ?_
    | with_reducible apply State.cycleIf_safe | with_reducible apply Safe.next | with_reducible apply Safe.ite | (intro _)
    | fail_if_no_progress (with_reducible apply Inv.frame) | split | (dsimp only)
    | fail_if_no_progress (refine Inv.pkg ?_ (by rfl)) | with_reducible apply Inv.cells
    | with_reducible exact Inv.bytesWf hs | with_reducible exact Inv.activeWf hs | with_reducible exact Inv.shadowWf hs
    | with_reducible exact Inv.accWf hs | with_reducible apply cellsWf_putCells | with_reducible apply cellsWf_clear

theorem execReturnCyclesEnd_safe {s : State} (hs : s.Inv) : Safe (execReturnCyclesEnd s) := by
  unfold execReturnCyclesEnd
  repeat' first
    | with_reducible exact hs | with_reducible assumption | with_reducible refine Inv.fst (by assumption) ?_
    | with_reducible apply State.cycleIf_safe | with_reducible apply Safe.next | with_reducible apply Safe.ite | (intro _)
    | fail_if_no_progress (with_reducible apply Inv.frame) | split | (dsimp only)
    | fail_if_no_progress (refine Inv.pkg ?_ (by rfl)) | with_reducible apply Inv.cells
    | with_reducible exact Inv.bytesWf hs | with_reducible exact Inv.activeWf hs | with_reducible exact Inv.shadowWf hs
    | with_reducible exact Inv.accWf hs | with_reducible apply cellsWf_putCells | with_reducible apply cellsWf_clear

theorem execEnergyRefill_safe {s : State} (hs : s.Inv) : Safe (execEnergyRefill s) := by
  unfold execEnergyRefill
  repeat' first
    | with_reducible exact hs | with_reducible assumption | with_reducible refine Inv.fst (by assumption) ?_
    | with_reducible apply State.cycleIf_safe | with_reducible apply Safe.next | with_reducible apply Safe.ite | (intro _)
    | fail_if_no_progress (with_reducible apply Inv.frame) | split | (dsimp only)
    | fail_if_no_progress (refine Inv.pkg ?_ (by rfl)) | with_reducible apply Inv.cells
    | with_reducible exact Inv.bytesWf hs | with_reducible exact Inv.activeWf hs | with_reducible exact Inv.shadowWf hs
    | with_reducible exact Inv.accWf hs | with_reducible apply cellsWf_putCells | with_reducible apply cellsWf_clear

end Sys2Proof.Machine
end

