-- ==== Sys2Proof/Laws/KeepsPackage.lean ====
section
/-! SUPPORT. The invariant through the package: die events, jobs, queues and the scheduler. -/

namespace Sys2Proof.Machine

set_option linter.all false

theorem State.recordError_inv {s : State} {arr : BitVec 4} {unit : BitVec 6} {addr : W64} {bad scrub : Bool} (hs : s.Inv) :
    (State.recordError s arr unit addr bad scrub).Inv := by
  unfold State.recordError
  repeat' first
    | with_reducible exact hs | with_reducible assumption | with_reducible refine Inv.fst (by assumption) ?_
    | with_reducible apply State.lanternM_inv | with_reducible apply Inv.ite | (intro _)
    | fail_if_no_progress (with_reducible apply Inv.frame) | split | (dsimp only)
    | fail_if_no_progress (refine Inv.pkg ?_ (by rfl))

theorem State.countErrors_inv {s : State} {words : Nat} (hs : s.Inv) : (State.countErrors s words).Inv := by
  unfold State.countErrors
  repeat' first
    | with_reducible exact hs | with_reducible assumption | with_reducible refine Inv.fst (by assumption) ?_
    | with_reducible apply Inv.ite | (intro _) | fail_if_no_progress (with_reducible apply Inv.frame) | split | (dsimp only)
    | fail_if_no_progress (refine Inv.pkg ?_ (by rfl))

theorem execCorrectableError_safe {s : State} (hs : s.Inv) : Safe (execCorrectableError s) := by
  unfold execCorrectableError
  repeat' first
    | with_reducible exact hs | with_reducible assumption | with_reducible refine Inv.fst (by assumption) ?_
    | with_reducible apply State.recordError_inv | with_reducible apply State.countErrors_inv
    | with_reducible apply Safe.next | with_reducible apply Safe.ite | (intro _)
    | fail_if_no_progress (with_reducible apply Inv.frame) | split | (dsimp only)
    | fail_if_no_progress (refine Inv.pkg ?_ (by rfl))

theorem execPatrolScrub_safe {s : State} (hs : s.Inv) : Safe (execPatrolScrub s) := by
  unfold execPatrolScrub
  repeat' first
    | with_reducible exact hs | with_reducible assumption | with_reducible refine Inv.fst (by assumption) ?_
    | with_reducible apply State.recordError_inv | with_reducible apply State.countErrors_inv
    | with_reducible apply Safe.next | with_reducible apply Safe.ite | (intro _)
    | fail_if_no_progress (with_reducible apply Inv.frame) | split | (dsimp only)
    | fail_if_no_progress (refine Inv.pkg ?_ (by rfl))

theorem execUncorrectableError_safe {s : State} (hs : s.Inv) : Safe (execUncorrectableError s) := by
  unfold execUncorrectableError
  repeat' first
    | with_reducible exact hs | with_reducible assumption | with_reducible refine Inv.fst (by assumption) ?_
    | with_reducible apply State.fatalTrap_inv | with_reducible apply State.recordError_inv | with_reducible apply Safe.next
    | with_reducible apply Safe.ite | (intro _) | fail_if_no_progress (with_reducible apply Inv.frame) | split
    | (dsimp only) | fail_if_no_progress (refine Inv.pkg ?_ (by rfl))

theorem execFatalTrap_safe {s : State} (hs : s.Inv) : Safe (execFatalTrap s) := by
  unfold execFatalTrap
  repeat' first
    | with_reducible exact hs | with_reducible assumption | with_reducible refine Inv.fst (by assumption) ?_
    | with_reducible apply State.fatalTrap_inv | with_reducible apply Safe.next | with_reducible apply Safe.ite | (intro _)
    | fail_if_no_progress (with_reducible apply Inv.frame) | split | (dsimp only)
    | fail_if_no_progress (refine Inv.pkg ?_ (by rfl))

theorem execWindowTableWrite_safe {s : State} (hs : s.Inv) : Safe (execWindowTableWrite s) := by
  unfold execWindowTableWrite
  repeat' first
    | with_reducible exact hs | with_reducible assumption | with_reducible refine Inv.fst (by assumption) ?_
    | with_reducible apply Safe.next | with_reducible apply Safe.ite | (intro _)
    | fail_if_no_progress (with_reducible apply Inv.frame) | split | (dsimp only)
    | fail_if_no_progress (refine Inv.pkg ?_ (by rfl))

theorem execWtlockSet_safe {s : State} (hs : s.Inv) : Safe (execWtlockSet s) := by
  unfold execWtlockSet
  repeat' first
    | with_reducible exact hs | with_reducible assumption | with_reducible refine Inv.fst (by assumption) ?_
    | with_reducible apply Safe.next | with_reducible apply Safe.ite | (intro _)
    | fail_if_no_progress (with_reducible apply Inv.frame) | split | (dsimp only)
    | fail_if_no_progress (refine Inv.pkg ?_ (by rfl))

theorem execCodeStoreLoad_safe {s : State} (hs : s.Inv) : Safe (execCodeStoreLoad s) := by
  unfold execCodeStoreLoad
  repeat' first
    | with_reducible exact hs | with_reducible assumption | with_reducible refine Inv.fst (by assumption) ?_
    | with_reducible apply State.store_inv | with_reducible apply Safe.next | with_reducible apply Safe.ite | (intro _)
    | fail_if_no_progress (with_reducible apply Inv.frame) | split | (dsimp only)
    | fail_if_no_progress (refine Inv.pkg ?_ (by rfl))

theorem State.atLaunch_inv {s : State} {f : Ctl → Ctl} (hs : s.Inv) : (State.atLaunch s f).Inv := by
  unfold State.atLaunch
  repeat' first
    | with_reducible exact hs | with_reducible assumption | with_reducible refine Inv.fst (by assumption) ?_
    | with_reducible apply Inv.ite | (intro _) | fail_if_no_progress (with_reducible apply Inv.frame) | split | (dsimp only)
    | fail_if_no_progress (refine Inv.pkg ?_ (by rfl))

theorem State.stopForPeer_inv {s : State} (hs : s.Inv) : s.stopForPeer.Inv := by
  unfold State.stopForPeer
  dsimp only
  split
  · exact Inv.dropImages hs
  · exact hs

theorem State.editTenant_inv {s : State} {t : Nat} {f : Tenant → Tenant} (hs : s.Inv) : (State.editTenant s t f).Inv := by
  unfold State.editTenant
  repeat' first
    | with_reducible exact hs | with_reducible assumption | with_reducible refine Inv.fst (by assumption) ?_
    | with_reducible apply State.setTenant_inv | with_reducible apply Inv.ite | (intro _)
    | fail_if_no_progress (with_reducible apply Inv.frame) | split | (dsimp only)
    | fail_if_no_progress (refine Inv.pkg ?_ (by rfl))

theorem State.setQueue_inv {s : State} {q : Nat} {x : HQueue} (hs : s.Inv) : (State.setQueue s q x).Inv := by
  unfold State.setQueue
  repeat' first
    | with_reducible exact hs | with_reducible assumption | with_reducible refine Inv.fst (by assumption) ?_
    | with_reducible apply Inv.ite | (intro _) | fail_if_no_progress (with_reducible apply Inv.frame) | split | (dsimp only)
    | fail_if_no_progress (refine Inv.pkg ?_ (by rfl))

theorem State.answerWord_inv {s : State} {x : W64} (hs : s.Inv) : (State.answerWord s x).Inv := by
  unfold State.answerWord
  repeat' first
    | with_reducible exact hs | with_reducible assumption | with_reducible refine Inv.fst (by assumption) ?_
    | with_reducible apply Inv.ite | (intro _) | fail_if_no_progress (with_reducible apply Inv.frame) | split | (dsimp only)
    | fail_if_no_progress (refine Inv.pkg ?_ (by rfl))

theorem State.hostRead_inv {s : State} {t off : Nat} (hs : s.Inv) : (State.hostRead s t off).Inv := by
  unfold State.hostRead
  repeat' first
    | with_reducible exact hs | with_reducible assumption | with_reducible refine Inv.fst (by assumption) ?_
    | with_reducible apply State.setTenant_inv | with_reducible apply State.answerWord_inv | with_reducible apply Inv.ite
    | (intro _) | fail_if_no_progress (with_reducible apply Inv.frame) | split | (dsimp only)
    | fail_if_no_progress (refine Inv.pkg ?_ (by rfl))

theorem State.hostImage_inv {s : State} {point : W64} {bytes : List Byte} (hs : s.Inv) : (State.hostImage s point bytes).Inv
    := by
  unfold State.hostImage
  repeat' first
    | with_reducible exact hs | with_reducible assumption | with_reducible refine Inv.fst (by assumption) ?_
    | with_reducible apply State.storeDram_inv | with_reducible apply Inv.ite | (intro _)
    | fail_if_no_progress (with_reducible apply Inv.frame) | split | (dsimp only)
    | fail_if_no_progress (refine Inv.pkg ?_ (by rfl))

theorem State.hostedAt_inv {s : State} {point : W64} (hs : s.Inv) : (s.hostedAt point).Inv := by
  refine Inv.images hs fun i hi => ?_
  obtain ⟨x, hx, rfl⟩ := List.mem_map.mp hi
  split <;> exact hs.2.2.1 x hx

theorem execThermalLimit_safe {s : State} (hs : s.Inv) : Safe (execThermalLimit s) := by
  unfold execThermalLimit
  repeat' first
    | with_reducible exact hs | with_reducible assumption | with_reducible refine Inv.fst (by assumption) ?_
    | with_reducible apply Safe.next | with_reducible apply Safe.ite | (intro _)
    | fail_if_no_progress (with_reducible apply Inv.frame) | split | (dsimp only)
    | fail_if_no_progress (refine Inv.pkg ?_ (by rfl))

theorem execEvovfClear_safe {s : State} (hs : s.Inv) : Safe (execEvovfClear s) := by
  unfold execEvovfClear
  repeat' first
    | with_reducible exact hs | with_reducible assumption | with_reducible refine Inv.fst (by assumption) ?_
    | with_reducible apply State.editTenant_inv | with_reducible apply Safe.next | with_reducible apply Safe.ite | (intro _)
    | fail_if_no_progress (with_reducible apply Inv.frame) | split | (dsimp only)
    | fail_if_no_progress (refine Inv.pkg ?_ (by rfl))

theorem execCxlMemAccess_safe {s : State} (hs : s.Inv) : Safe (execCxlMemAccess s) := by
  unfold execCxlMemAccess
  repeat' first
    | with_reducible exact hs | with_reducible apply Safe.next | with_reducible apply Safe.ite
    | exact Inv.dram hs (cellsWf_putBytes (Inv.dramWf hs))
    | fail_if_no_progress (with_reducible apply Inv.frame) | split | dsimp only

theorem execFirmwareImageWrite_safe {s : State} (hs : s.Inv) : Safe (execFirmwareImageWrite s) := by
  unfold execFirmwareImageWrite
  repeat' first
    | with_reducible exact hs | with_reducible assumption | with_reducible refine Inv.fst (by assumption) ?_
    | with_reducible apply Safe.next | with_reducible apply Safe.ite | (intro _)
    | fail_if_no_progress (with_reducible apply Inv.frame) | split | (dsimp only)
    | fail_if_no_progress (refine Inv.pkg ?_ (by rfl))

theorem execPackageReset_safe {s : State} (hs : s.Inv) : Safe (execPackageReset s) :=
  have hm : cellsWf State.reset.mem.loc = true ∧ Tiles.wf State.reset.tiles := by decide
  ⟨⟨hm.1, hs.1.2.1, hs.1.2.2⟩, hm.2, fun _ hi => (List.not_mem_nil hi).elim, (by decide : (0 : Nat) < 1024)⟩

theorem execSpdmMeasurement_safe {s : State} (hs : s.Inv) : Safe (execSpdmMeasurement s) := by
  unfold execSpdmMeasurement
  repeat' first
    | with_reducible exact hs | with_reducible assumption | with_reducible refine Inv.fst (by assumption) ?_
    | with_reducible apply Safe.next | with_reducible apply Safe.ite | (intro _)
    | fail_if_no_progress (with_reducible apply Inv.frame) | split | (dsimp only)
    | fail_if_no_progress (refine Inv.pkg ?_ (by rfl))

theorem execImageSecretInstall_safe {s : State} (hs : s.Inv) : Safe (execImageSecretInstall s) := by
  unfold execImageSecretInstall
  repeat' first
    | with_reducible exact hs | with_reducible assumption | with_reducible refine Inv.fst (by assumption) ?_
    | with_reducible apply Safe.next | with_reducible apply Safe.ite | (intro _)
    | fail_if_no_progress (with_reducible apply Inv.frame) | split | (dsimp only)
    | fail_if_no_progress (refine Inv.pkg ?_ (by rfl))

theorem execReadyBitSet_safe {s : State} (hs : s.Inv) : Safe (execReadyBitSet s) := by
  unfold execReadyBitSet
  repeat' first
    | with_reducible exact hs | with_reducible assumption | with_reducible refine Inv.fst (by assumption) ?_
    | with_reducible apply Safe.next | with_reducible apply Safe.ite | (intro _)
    | fail_if_no_progress (with_reducible apply Inv.frame) | split | (dsimp only)
    | fail_if_no_progress (refine Inv.pkg ?_ (by rfl))

theorem State.tenantClear_inv {s : State} (hs : s.Inv) : s.tenantClear.Inv :=
  ⟨⟨cellsWf_clear hs.1.1, cellsWf_clear hs.1.2.1, hs.1.2.2⟩, hs.2⟩

theorem State.launchClear_inv {s : State} (hs : s.Inv) : s.launchClear.Inv :=
  Inv.tiles hs reset_tiles_wf

theorem State.launchPort_inv {s : State} {d : Nat} (hs : s.Inv) : (State.launchPort s d).Inv := by
  unfold State.launchPort
  exact State.setPort_inv (Inv.ite (State.freshPort_inv hs) hs)

theorem State.freshPorts_inv {s : State} (hs : s.Inv) : (State.freshPorts s).Inv :=
  foldl_inv (fun _ _ h => State.launchPort_inv h) hs

theorem State.writeWindows_inv {s : State} {ws : List WindowLine} {aper : List Aperture} (hs : s.Inv) : (State.writeWindows
    s ws aper).Inv := by
  unfold State.writeWindows
  repeat' first
    | with_reducible exact hs | with_reducible assumption | with_reducible refine Inv.fst (by assumption) ?_
    | (with_reducible apply foldl_inv; intro _ _ _) | (with_reducible apply foldl_fst; intro _ _ _)
    | with_reducible apply Inv.ite | (intro _) | fail_if_no_progress (with_reducible apply Inv.frame) | split | (dsimp only)
    | fail_if_no_progress (refine Inv.pkg ?_ (by rfl))

theorem State.writeImages_inv {s : State} {bs : List Byte} {xs : List Section} (hs : s.Inv) : (State.writeImages s bs
    xs).Inv := by
  unfold State.writeImages
  repeat' first
    | with_reducible exact hs | with_reducible assumption | with_reducible refine Inv.fst (by assumption) ?_
    | with_reducible apply State.store_inv | (with_reducible apply foldl_inv; intro _ _ _)
    | (with_reducible apply foldl_fst; intro _ _ _) | with_reducible apply Inv.ite | (intro _)
    | fail_if_no_progress (with_reducible apply Inv.frame) | split | (dsimp only)
    | fail_if_no_progress (refine Inv.pkg ?_ (by rfl))

theorem State.launchEnergy_inv {s : State} {j : Job} (hs : s.Inv) : (State.launchEnergy s j).Inv := by
  unfold State.launchEnergy
  repeat' first
    | with_reducible exact hs | with_reducible assumption | with_reducible refine Inv.fst (by assumption) ?_
    | with_reducible apply Inv.ite | (intro _) | fail_if_no_progress (with_reducible apply Inv.frame) | split | (dsimp only)
    | fail_if_no_progress (refine Inv.pkg ?_ (by rfl))

theorem State.unlocked_inv {s : State} {j : Job} {lsd : BitVec 13} {ws : List WindowLine} (hs : s.Inv) : (State.unlocked s j
    lsd ws).Inv := by
  unfold State.unlocked
  repeat' first
    | with_reducible exact hs | with_reducible assumption | with_reducible refine Inv.fst (by assumption) ?_
    | with_reducible apply State.writeWindows_inv | with_reducible apply Inv.ite | (intro _)
    | fail_if_no_progress (with_reducible apply Inv.frame) | split | (dsimp only)
    | fail_if_no_progress (refine Inv.pkg ?_ (by rfl))

theorem State.launchDie_inv {s : State} {j : Job} {l : LaunchRec} {lsd : BitVec 13} {bs : List Byte} {ss : List Section}
    {code : List Byte} (hs : s.Inv) : (s.launchDie j l lsd bs ss code).Inv := by
  unfold State.launchDie
  extract_lets s0 s1 c p s2 s3 m s4 s5 m2 s6 s7 s8 s9
  have h0 : s0.Inv := Inv.ite hs (State.tenantClear_inv hs)
  clear_value s0
  have h1 : s1.Inv := State.launchClear_inv (State.freshPorts_inv h0)
  clear_value s1
  have h2 : s2.Inv := Inv.frame h1
  clear_value s2
  have h3 : s3.Inv := State.writeWindows_inv h2
  clear_value s3
  have h4 : s4.Inv := Inv.local h3 (cellsWf_putBytes (cellsWf_clear (Inv.localWf h3)))
  clear_value s4
  have h5 : s5.Inv := State.writeImages_inv h4
  clear_value s5
  have h6 : s6.Inv := Inv.dram h5 (cellsWf_clear (Inv.dramWf h5))
  clear_value s6
  have h7 : s7.Inv := foldl_inv (fun _ _ h => State.land_inv h) h6
  clear_value s7
  have h8 : s8.Inv := by
    unfold s8
    split
    · exact State.ctlWrite_inv h7
    · exact h7
  clear_value s8
  have h9 : s9.Inv := State.launchEnergy_inv h8
  clear_value s9
  exact ⟨h9.1, h9.2.1, h9.2.2.1, Nat.mod_lt _ (by decide)⟩

theorem State.launch_inv {s : State} {j : Job} {lsd : BitVec 13} (hs : s.Inv) : (s.launch j lsd).1.Inv := by
  have hj : ∀ {j : Job}, State.Inv { s with pkg := s.pkg.setJob j } := Inv.pkg hs rfl
  unfold State.launch
  dsimp only
  split
  · split
    · exact hs
    · split
      · exact hs
      · split
        · exact hs
        · split
          · exact Inv.ite (Inv.frame hs) hs
          · exact Inv.ite (State.launchDie_inv hj) hj
  · exact hs

theorem State.endEntry_inv {s : State} {q : Nat} {seq : W32} (hs : s.Inv) : (State.endEntry s q seq).Inv := by
  unfold State.endEntry
  repeat' first
    | with_reducible exact hs | with_reducible assumption | with_reducible refine Inv.fst (by assumption) ?_
    | with_reducible apply State.setQueue_inv | with_reducible apply Inv.ite | (intro _)
    | fail_if_no_progress (with_reducible apply Inv.frame) | split | (dsimp only)
    | fail_if_no_progress (refine Inv.pkg ?_ (by rfl))

theorem State.mapQueues_inv {s : State} {t : Nat} {f : HQueue → HQueue} (hs : s.Inv) : (State.mapQueues s t f).Inv := by
  unfold State.mapQueues
  repeat' first
    | with_reducible exact hs | with_reducible assumption | with_reducible refine Inv.fst (by assumption) ?_
    | with_reducible apply State.setQueue_inv | (with_reducible apply foldl_inv; intro _ _ _)
    | (with_reducible apply foldl_fst; intro _ _ _) | with_reducible apply Inv.ite | (intro _)
    | fail_if_no_progress (with_reducible apply Inv.frame) | split | (dsimp only)
    | fail_if_no_progress (refine Inv.pkg ?_ (by rfl))

theorem State.finishReset_inv {s : State} {t : Nat} (hs : s.Inv) : (s.finishReset t).Inv := by
  have hq : ∀ {f}, (s.mapQueues t f).Inv := State.mapQueues_inv hs
  unfold State.finishReset
  dsimp only
  split
  · exact State.setTenant_inv (Inv.images hq fun i hi => (Inv.imagesWf hq) i (List.mem_of_mem_filter hi))
  · exact hs

theorem State.addJob_inv {s : State} {tenant queue : Nat} {seq : W32} {r : JobRec} {arrival : Arrival} {chain : Option (Nat
    × Nat)} (hs : s.Inv) : (State.addJob s tenant queue seq r arrival chain).Inv := by
  unfold State.addJob
  repeat' first
    | with_reducible exact hs | with_reducible assumption | with_reducible refine Inv.fst (by assumption) ?_
    | with_reducible apply Inv.ite | (intro _) | fail_if_no_progress (with_reducible apply Inv.frame) | split | (dsimp only)
    | fail_if_no_progress (refine Inv.pkg ?_ (by rfl))

theorem State.closeChain_inv {s : State} {c : Chain} {status : Byte} (hs : s.Inv) : (State.closeChain s c status).Inv := by
  unfold State.closeChain
  repeat' first
    | with_reducible exact hs | with_reducible assumption | with_reducible refine Inv.fst (by assumption) ?_
    | with_reducible apply State.emit_inv | with_reducible apply State.endEntry_inv | with_reducible apply Inv.ite
    | (intro _) | fail_if_no_progress (with_reducible apply Inv.frame) | split | (dsimp only)
    | fail_if_no_progress (refine Inv.pkg ?_ (by rfl))

theorem State.afterElement_inv {s : State} {id i : Nat} {status : Byte} {optional : Bool} (hs : s.Inv) : (State.afterElement
    s id i status optional).Inv := by
  unfold State.afterElement
  repeat' first
    | with_reducible exact hs | with_reducible assumption | with_reducible refine Inv.fst (by assumption) ?_
    | with_reducible apply State.addJob_inv | with_reducible apply State.closeChain_inv | with_reducible apply Inv.ite
    | (intro _) | fail_if_no_progress (with_reducible apply Inv.frame) | split | (dsimp only)
    | fail_if_no_progress (refine Inv.pkg ?_ (by rfl))

theorem State.chainsGoOn_inv {s : State} (hs : s.Inv) : (State.chainsGoOn s).Inv := by
  unfold State.chainsGoOn
  repeat' first
    | with_reducible exact hs | with_reducible assumption | with_reducible refine Inv.fst (by assumption) ?_
    | with_reducible apply State.afterElement_inv | (with_reducible apply foldl_inv; intro _ _ _)
    | (with_reducible apply foldl_fst; intro _ _ _) | with_reducible apply Inv.ite | (intro _)
    | fail_if_no_progress (with_reducible apply Inv.frame) | split | (dsimp only)
    | fail_if_no_progress (refine Inv.pkg ?_ (by rfl))

theorem State.closeJob_inv {s : State} {j : Job} {status : Byte} (hs : s.Inv) : (s.closeJob j status).Inv := by
  unfold State.closeJob
  extract_lets here t lone ports p u v
  have ht : t.Inv := Inv.ite (State.endProgram_inv hs) hs
  clear_value t
  have hu : u.Inv := Inv.dropImages ht
  clear_value u
  have hv : v.Inv := by
    unfold v
    split
    · exact State.endEntry_inv (State.emit_inv hu)
    · exact State.chainsGoOn_inv (State.emit_inv hu)
  exact State.finishReset_inv hv

theorem State.cancelJob_inv {s : State} {j : Job} (hs : s.Inv) : (State.cancelJob s j).Inv := by
  unfold State.cancelJob
  repeat' first
    | with_reducible exact hs | with_reducible assumption | with_reducible refine Inv.fst (by assumption) ?_
    | with_reducible apply State.endProgram_inv | with_reducible apply State.closeJob_inv | with_reducible apply Inv.ite
    | (intro _) | fail_if_no_progress (with_reducible apply Inv.frame) | split | (dsimp only)
    | fail_if_no_progress (refine Inv.pkg ?_ (by rfl))

theorem State.markChain_inv {s : State} {c : Chain} (hs : s.Inv) : (State.markChain s c).Inv := by
  unfold State.markChain
  repeat' first
    | with_reducible exact hs | with_reducible assumption | with_reducible refine Inv.fst (by assumption) ?_
    | with_reducible apply Inv.ite | (intro _) | fail_if_no_progress (with_reducible apply Inv.frame) | split | (dsimp only)
    | fail_if_no_progress (refine Inv.pkg ?_ (by rfl))

theorem State.cancelTenant_inv {s : State} {t : Nat} {but : Option Nat} (hs : s.Inv) : (State.cancelTenant s t but).Inv :=
    by
  unfold State.cancelTenant
  repeat' first
    | with_reducible exact hs | with_reducible assumption | with_reducible refine Inv.fst (by assumption) ?_
    | with_reducible apply State.cancelJob_inv | with_reducible apply State.markChain_inv
    | (with_reducible apply foldl_inv; intro _ _ _) | (with_reducible apply foldl_fst; intro _ _ _)
    | with_reducible apply Inv.ite | (intro _) | fail_if_no_progress (with_reducible apply Inv.frame) | split | (dsimp only)
    | fail_if_no_progress (refine Inv.pkg ?_ (by rfl))

theorem State.rejectEntry_inv {s : State} {t q : Nat} {seq : W32} (hs : s.Inv) : (State.rejectEntry s t q seq).Inv := by
  unfold State.rejectEntry
  repeat' first
    | with_reducible exact hs | with_reducible assumption | with_reducible refine Inv.fst (by assumption) ?_
    | with_reducible apply State.emit_inv | with_reducible apply Inv.ite | (intro _)
    | fail_if_no_progress (with_reducible apply Inv.frame) | split | (dsimp only)
    | fail_if_no_progress (refine Inv.pkg ?_ (by rfl))

theorem State.queueEvent_safe {s : State} {mine : Nat → Bool} {act : Nat → Nat → W32 → List Byte → State → Option State}
    (hs : s.Inv) (ha : ∀ t q n e u v, State.Inv u → act t q n e u = some v → v.Inv) : Safe (s.queueEvent mine act) := by
  have hq : ∀ {q x}, (s.setQueue q x).Inv := State.setQueue_inv hs
  unfold State.queueEvent
  repeat' first
    | with_reducible exact hs | with_reducible apply Safe.next | (with_reducible apply State.rejectEntry_inv)
    | with_reducible exact hq | with_reducible exact State.setQueue_inv hq | split | (dsimp only)
  rename_i h
  split at h
  · exact ha _ _ _ _ _ _ (State.setQueue_inv hq) h
  · cases h

theorem State.openEntry_inv {s : State} {q : Nat} {seq : W32} (hs : s.Inv) : (State.openEntry s q seq).Inv := by
  unfold State.openEntry
  repeat' first
    | with_reducible exact hs | with_reducible assumption | with_reducible refine Inv.fst (by assumption) ?_
    | with_reducible apply State.setQueue_inv | with_reducible apply Inv.ite | (intro _)
    | fail_if_no_progress (with_reducible apply Inv.frame) | split | (dsimp only)
    | fail_if_no_progress (refine Inv.pkg ?_ (by rfl))

theorem State.arrive_inv {s : State} (hs : s.Inv) : (State.arrive s).Inv := by
  unfold State.arrive
  repeat' first
    | with_reducible exact hs | with_reducible assumption | with_reducible refine Inv.fst (by assumption) ?_
    | with_reducible apply Inv.ite | (intro _) | fail_if_no_progress (with_reducible apply Inv.frame) | split | (dsimp only)
    | fail_if_no_progress (refine Inv.pkg ?_ (by rfl))

theorem execSubmitJob_safe {s : State} (hs : s.Inv) : Safe (execSubmitJob s) := by
  unfold execSubmitJob
  refine State.queueEvent_safe hs fun t q n e u v hu hv => ?_
  try dsimp only at hv
  split at hv
  · cases hv
  · obtain ⟨r, -, rfl⟩ := Option.map_eq_some_iff.mp hv
    exact State.addJob_inv (State.arrive_inv (State.openEntry_inv hu))

theorem execSubmitChain_safe {s : State} (hs : s.Inv) : Safe (execSubmitChain s) := by
  unfold execSubmitChain
  refine State.queueEvent_safe hs fun t q n e u v hu hv => ?_
  dsimp only at hv
  split at hv
  · injection hv with hv
    subst hv
    exact State.addJob_inv (State.arrive_inv (State.openEntry_inv (Inv.frame hu)))
  · cases hv

theorem execCancel_safe {s : State} (hs : s.Inv) : Safe (execCancel s) := by
  unfold execCancel
  refine State.queueEvent_safe hs fun t q n e u v hu hv => ?_
  injection hv with hv
  subst hv
  exact foldl_inv (fun _ _ h => State.cancelJob_inv h) (foldl_inv (fun _ _ h => State.markChain_inv h) hu)

theorem execRegisterPager_safe {s : State} (hs : s.Inv) : Safe (execRegisterPager s) := by
  unfold execRegisterPager
  refine State.queueEvent_safe hs fun t q n e u v hu hv => ?_
  try dsimp only at hv
  obtain ⟨r, -, rfl⟩ := Option.map_eq_some_iff.mp hv
  exact State.editTenant_inv hu

theorem State.refuseStalls_inv {s : State} {t : Nat} {pick : Vector WEntry 2048 → List Nat} (hs : s.Inv) :
    (State.refuseStalls s t pick).Inv := by
  unfold State.refuseStalls
  repeat' first
    | with_reducible exact hs | with_reducible assumption | with_reducible refine Inv.fst (by assumption) ?_
    | with_reducible apply State.releaseStalls_inv | (with_reducible apply foldl_inv; intro _ _ _)
    | (with_reducible apply foldl_fst; intro _ _ _) | with_reducible apply Inv.ite | (intro _)
    | fail_if_no_progress (with_reducible apply Inv.frame) | split | (dsimp only)
    | fail_if_no_progress (refine Inv.pkg ?_ (by rfl))

theorem execWithdrawPager_safe {s : State} (hs : s.Inv) : Safe (execWithdrawPager s) := by
  unfold execWithdrawPager
  refine State.queueEvent_safe hs fun t q n e u v hu hv => ?_
  try dsimp only at hv
  obtain ⟨r, -, rfl⟩ := Option.map_eq_some_iff.mp hv
  exact State.refuseStalls_inv (State.editTenant_inv hu)

theorem execReadDump_safe {s : State} (hs : s.Inv) : Safe (execReadDump s) := by
  unfold execReadDump
  refine State.queueEvent_safe hs fun t q n e u v hu hv => ?_
  try dsimp only at hv
  split at hv
  · cases hv
  · split at hv
    · injection hv with hv; subst hv
      exact Inv.host hu (cellsWf_putBytes (Inv.hostWf hu))
    · cases hv

theorem State.flushEvents_inv {t : Nat} : ∀ {es : List Event} {s : State}, s.Inv → (s.flushEvents t es).Inv
  | [], _, hs => hs
  | e :: r, s, hs => by
    unfold State.flushEvents
    dsimp only
    split
    · exact State.flushEvents_inv (es := r) (State.writeEvent_inv (State.setTenant_inv hs))
    · exact hs

theorem State.flushRing_inv {s : State} {t : Nat} (hs : s.Inv) : (State.flushRing s t).Inv := by
  unfold State.flushRing
  repeat' first
    | with_reducible exact hs | with_reducible assumption | with_reducible refine Inv.fst (by assumption) ?_
    | with_reducible apply State.finishReset_inv | with_reducible apply State.chainsGoOn_inv
    | with_reducible apply State.flushEvents_inv | with_reducible apply Inv.ite | (intro _)
    | fail_if_no_progress (with_reducible apply Inv.frame) | split | (dsimp only)
    | fail_if_no_progress (refine Inv.pkg ?_ (by rfl))

theorem execEvrdWrite_safe {s : State} (hs : s.Inv) : Safe (execEvrdWrite s) := by
  unfold execEvrdWrite
  repeat' first
    | with_reducible exact hs | with_reducible assumption | with_reducible refine Inv.fst (by assumption) ?_
    | with_reducible apply State.setTenant_inv | with_reducible apply State.flushRing_inv | with_reducible apply Safe.next
    | with_reducible apply Safe.ite | (intro _) | fail_if_no_progress (with_reducible apply Inv.frame) | split
    | (dsimp only) | fail_if_no_progress (refine Inv.pkg ?_ (by rfl))

theorem State.managed_inv {s : State} {f : State → State} (hs : s.Inv) (hf : ∀ s, s.Inv → (f s).Inv) : (s.managed f).Inv :=
  Inv.ite (hf s hs) hs

theorem State.farReport_inv {s : State} {d : Nat} {up : Bool} (hs : s.Inv) : (s.farReport d up).Inv :=
  State.sweepPorts_inv (Inv.ite (State.dropAll_inv (State.setPort_inv hs)) (State.setPort_inv hs))

theorem State.controlWrite_inv {s : State} {w : CtlWrite} (hs : s.Inv) : (State.controlWrite s w).Inv := by
  unfold State.controlWrite
  repeat' first
    | with_reducible exact hs | with_reducible exact hs' | with_reducible assumption | with_reducible refine Inv.fst (by assumption) ?_
    | with_reducible apply State.setPort_inv | with_reducible apply State.sweepPorts_inv
    | with_reducible apply State.farReport_inv | with_reducible apply State.atLaunch_inv | with_reducible apply State.stopForPeer_inv
    | with_reducible apply State.editTenant_inv | with_reducible apply State.setQueue_inv
    | with_reducible apply State.answerWord_inv | with_reducible apply State.hostRead_inv
    | with_reducible apply State.hostImage_inv | with_reducible apply State.hostedAt_inv
    | with_reducible apply State.flushRing_inv | (with_reducible apply State.managed_inv; exact hs; intro _ hs') | with_reducible apply Inv.ite
    | (intro _) | fail_if_no_progress (with_reducible apply Inv.frame) | split | (dsimp only)
    | fail_if_no_progress (refine Inv.pkg ?_ (by rfl))

theorem execControlPathRegisterWrite_safe {s : State} (hs : s.Inv) : Safe (execControlPathRegisterWrite s) := by
  unfold execControlPathRegisterWrite
  repeat' first
    | with_reducible exact hs | with_reducible assumption | with_reducible refine Inv.fst (by assumption) ?_
    | with_reducible apply State.controlWrite_inv | with_reducible apply Safe.next | with_reducible apply Safe.ite
    | (intro _) | fail_if_no_progress (with_reducible apply Inv.frame) | split | (dsimp only)
    | fail_if_no_progress (refine Inv.pkg ?_ (by rfl))

theorem execQtailWrite_safe {s : State} (hs : s.Inv) : Safe (execQtailWrite s) := by
  unfold execQtailWrite
  repeat' first
    | with_reducible exact hs | with_reducible assumption | with_reducible refine Inv.fst (by assumption) ?_
    | with_reducible apply State.setQueue_inv | with_reducible apply State.rejectEntry_inv | with_reducible apply Safe.next
    | with_reducible apply Safe.ite | (intro _) | fail_if_no_progress (with_reducible apply Inv.frame) | split
    | (dsimp only) | fail_if_no_progress (refine Inv.pkg ?_ (by rfl))

theorem execTenantConfigWrite_safe {s : State} (hs : s.Inv) : Safe (execTenantConfigWrite s) := by
  unfold execTenantConfigWrite
  repeat' first
    | with_reducible exact hs | with_reducible assumption | with_reducible refine Inv.fst (by assumption) ?_
    | with_reducible apply State.setTenant_inv | with_reducible apply State.mapQueues_inv | with_reducible apply Safe.next
    | with_reducible apply Safe.ite | (intro _) | fail_if_no_progress (with_reducible apply Inv.frame) | split
    | (dsimp only) | fail_if_no_progress (refine Inv.pkg ?_ (by rfl))

theorem State.endTenant_inv {s : State} {t : Nat} (hs : s.Inv) : (State.endTenant s t).Inv := by
  unfold State.endTenant
  repeat' first
    | with_reducible exact hs | with_reducible assumption | with_reducible refine Inv.fst (by assumption) ?_
    | with_reducible apply State.editTenant_inv | with_reducible apply State.finishReset_inv
    | with_reducible apply State.cancelTenant_inv | with_reducible apply State.refuseStalls_inv
    | with_reducible apply Inv.ite | (intro _) | fail_if_no_progress (with_reducible apply Inv.frame) | split | (dsimp only)
    | fail_if_no_progress (refine Inv.pkg ?_ (by rfl))

theorem State.resetTenant_inv {s : State} {t : Nat} (hs : s.Inv) : (State.resetTenant s t).Inv := by
  unfold State.resetTenant
  repeat' first
    | with_reducible exact hs | with_reducible assumption | with_reducible refine Inv.fst (by assumption) ?_
    | with_reducible apply State.editTenant_inv | with_reducible apply State.mapQueues_inv
    | with_reducible apply State.refuseStalls_inv | with_reducible apply State.endTenant_inv | with_reducible apply Inv.ite
    | (intro _) | fail_if_no_progress (with_reducible apply Inv.frame) | split | (dsimp only)
    | fail_if_no_progress (refine Inv.pkg ?_ (by rfl))

theorem execResetTenant_safe {s : State} (hs : s.Inv) : Safe (execResetTenant s) := by
  unfold execResetTenant
  split
  · exact Safe.next (Inv.ite (State.endTenant_inv hs) (Inv.ite (State.resetTenant_inv hs) hs))
  · rename_i t q _
    split
    · exact Safe.next hs
    · have h := State.queueEvent_safe (s := { s with arg := .nat q }) (mine := (· == 7))
        (act := fun t q seq e s =>
          if entryAddr e ≠ 0 ∨ entryArg e ≠ 0 then none else some ((s.openEntry q seq).resetTenant t)) (Inv.frame hs)
        fun t q n e u v hu hv => by
          split at hv
          · cases hv
          · injection hv with hv; subst hv; exact State.resetTenant_inv (State.openEntry_inv hu)
      split
      · rename_i u hu
        exact Safe.next (Inv.frame (Safe.of_next h hu))
      · exact h
  · exact Safe.next hs

theorem State.passOthers_inv {s : State} {j : Job} (hs : s.Inv) : (State.passOthers s j).Inv := by
  unfold State.passOthers
  repeat' first
    | with_reducible exact hs | with_reducible assumption | with_reducible refine Inv.fst (by assumption) ?_
    | with_reducible apply Inv.ite | (intro _) | fail_if_no_progress (with_reducible apply Inv.frame) | split | (dsimp only)
    | fail_if_no_progress (refine Inv.pkg ?_ (by rfl))

theorem State.takeCube_inv {s : State} {j : Job} {mask base : BitVec 13} (hs : s.Inv) : (s.takeCube j mask base).Inv := by
  unfold State.takeCube
  dsimp only
  split
  · exact State.passOthers_inv (Inv.pkg hs rfl)
  · split
    · rename_i h; exact State.passOthers_inv (Inv.fst h (State.launch_inv hs))
    · rename_i h; exact State.closeJob_inv (Inv.frame (Inv.fst h (State.launch_inv hs)))

theorem State.tryPlace_inv {s : State} {j : Job} (hs : s.Inv) : (s.tryPlace j).Inv := by
  have hj : ∀ {j : Job}, State.Inv { s with pkg := s.pkg.setJob j } := Inv.pkg hs rfl
  have hd : ∀ {c : Prop} [Decidable c] {t : State}, t.Inv → State.Inv (if c then { t with draws := t.draws + 1 } else t) :=
    fun h => Inv.ite (Inv.frame h) h
  unfold State.tryPlace
  dsimp only
  repeat' first
    | with_reducible exact hs | with_reducible exact hj | with_reducible apply State.closeJob_inv
    | with_reducible apply State.takeCube_inv | with_reducible exact hd hj
    | split

theorem State.passOver_inv : ∀ {l : List Nat} {s : State}, s.Inv → (s.passOver l).Inv
  | [], _, h => h
  | id :: r, s, h => by
    unfold State.passOver
    split
    · exact State.passOver_inv (State.tryPlace_inv h)
    · exact State.passOver_inv h

theorem execPlacementPass_safe {s : State} (hs : s.Inv) : Safe (execPlacementPass s) :=
  Safe.ite (Safe.next (State.passOver_inv (Inv.frame hs))) (Safe.next hs)

theorem execAging_safe {s : State} (hs : s.Inv) : Safe (execAging s) := by
  unfold execAging
  repeat' first
    | with_reducible exact hs | with_reducible assumption | with_reducible refine Inv.fst (by assumption) ?_
    | with_reducible apply Safe.next | with_reducible apply Safe.ite | (intro _)
    | fail_if_no_progress (with_reducible apply Inv.frame) | split | (dsimp only)
    | fail_if_no_progress (refine Inv.pkg ?_ (by rfl))

theorem execQuantumExpiry_safe {s : State} (hs : s.Inv) : Safe (execQuantumExpiry s) := by
  unfold execQuantumExpiry
  repeat' first
    | with_reducible exact hs | with_reducible assumption | with_reducible refine Inv.fst (by assumption) ?_
    | with_reducible apply Safe.next | with_reducible apply Safe.ite | (intro _)
    | fail_if_no_progress (with_reducible apply Inv.frame) | split | (dsimp only)
    | fail_if_no_progress (refine Inv.pkg ?_ (by rfl))

theorem State.stopJob_inv {s : State} {j : Job} (hs : s.Inv) : (State.stopJob s j).Inv := by
  unfold State.stopJob
  repeat' first
    | with_reducible exact hs | with_reducible assumption | with_reducible refine Inv.fst (by assumption) ?_
    | with_reducible apply State.endProgram_inv | with_reducible apply Inv.ite | (intro _)
    | fail_if_no_progress (with_reducible apply Inv.frame) | split | (dsimp only)
    | fail_if_no_progress (refine Inv.pkg ?_ (by rfl))

theorem State.levelFour_inv {s : State} {j : Job} (hs : s.Inv) : (s.levelFour j).Inv := by
  unfold State.levelFour
  dsimp only
  split
  · exact Inv.dropImages (State.stopJob_inv hs)
  · exact Inv.ite (State.editTenant_inv (State.cancelTenant_inv (State.closeJob_inv hs))) (State.closeJob_inv hs)

theorem State.levelThree_inv {s : State} {j : Job} (hs : s.Inv) : ∀ t, s.levelThree j = some t → t.Inv := by
  intro t h
  unfold State.levelThree at h
  repeat' split at h
  all_goals
    first
    | (cases h; done)
    | (injection h with h; subst h; first
        | exact State.closeJob_inv hs
        | exact State.levelFour_inv hs)

theorem State.endJob_inv {s : State} {j : Job} (hs : s.Inv) : ∀ t, s.endJob j = some t → t.Inv := by
  intro t h
  unfold State.endJob at h
  split at h
  · injection h with h; subst h; exact State.closeJob_inv hs
  · split at h
    · injection h with h; subst h; exact State.closeJob_inv hs
    · cases h
  · split at h
    · cases h
    · split at h
      · rename_i u hu
        injection h with h; subst h
        split at hu
        · exact State.levelThree_inv hs _ hu
        · cases hu
      · split at h
        · injection h with h; subst h; exact State.closeJob_inv hs
        · cases h

theorem execJobEnd_safe {s : State} (hs : s.Inv) : Safe (execJobEnd s) := by
  unfold execJobEnd
  split
  · split
    · apply Safe.next
      cases h : s.endJob _ with
      | none => exact hs
      | some t => exact State.endJob_inv hs _ h
    · exact Safe.next hs
  · exact Safe.next hs

end Sys2Proof.Machine
end

