-- ==== Sys2Proof/Laws/KeepsImages.lean ====
section
/-! SUPPORT. The invariant through stops, images and recovery, and through a turn. -/

namespace Sys2Proof.Machine

set_option linter.all false

theorem State.takeImage_inv {s : State} {kind : Nat} (hs : s.Inv) : (s.takeImage kind).Inv := by
  have hc := State.capture_wf (kind := kind) (cause := 0) (level := 0) hs
  unfold State.takeImage
  extract_lets img t
  change Image.wf img at hc
  clear_value img
  have hp : t.Inv := State.parkAll_inv hs
  clear_value t
  refine Inv.images hp fun i h => ?_
  rcases List.mem_append.mp h with h | h
  · exact Inv.imagesWf hp i h
  · rw [List.mem_singleton.mp h]; exact hc

theorem execDrainRequest_safe {s : State} (hs : s.Inv) : Safe (execDrainRequest s) := by
  unfold execDrainRequest
  repeat' first
    | with_reducible exact hs | with_reducible assumption | with_reducible refine Inv.fst (by assumption) ?_
    | with_reducible apply Safe.next | with_reducible apply Safe.ite | (intro _)
    | fail_if_no_progress (with_reducible apply Inv.frame) | split | (dsimp only)
    | fail_if_no_progress (refine Inv.pkg ?_ (by rfl))

theorem execImageCapture_safe {s : State} (hs : s.Inv) : Safe (execImageCapture s) := by
  unfold execImageCapture
  split
  · extract_lets there t
    have ht : t.Inv := State.takeImage_inv hs
    clear_value t
    exact Safe.ite (Safe.next (Inv.ite ht (Inv.pkg ht rfl))) (Safe.next hs)
  · exact Safe.next hs

theorem State.scanNow_inv {s : State} {j : Job} (hs : s.Inv) : (s.scanNow j).Inv := by
  unfold State.scanNow
  extract_lets t u
  have hu : u.Inv := State.takeImage_inv (State.lanternC_inv hs)
  clear_value u
  exact Inv.pkg hu rfl

theorem execScanStop_safe {s : State} (hs : s.Inv) : Safe (execScanStop s) := by
  unfold execScanStop
  repeat' first
    | with_reducible exact hs | with_reducible assumption | with_reducible refine Inv.fst (by assumption) ?_
    | with_reducible apply State.scanNow_inv | with_reducible apply Safe.next | with_reducible apply Safe.ite | (intro _)
    | fail_if_no_progress (with_reducible apply Inv.frame) | split | (dsimp only)
    | fail_if_no_progress (refine Inv.pkg ?_ (by rfl))

theorem execDrainEscalation_safe {s : State} (hs : s.Inv) : Safe (execDrainEscalation s) := by
  unfold execDrainEscalation
  repeat' first
    | with_reducible exact hs | with_reducible assumption | with_reducible refine Inv.fst (by assumption) ?_
    | with_reducible apply State.scanNow_inv | with_reducible apply Safe.next | with_reducible apply Safe.ite | (intro _)
    | fail_if_no_progress (with_reducible apply Inv.frame) | split | (dsimp only)
    | fail_if_no_progress (refine Inv.pkg ?_ (by rfl))

theorem State.imageEvent_inv {s : State} {j : Job} {kind : Nat} {what : Byte} {serial : Nat} (hs : s.Inv) :
    (State.imageEvent s j kind what serial).Inv := by
  unfold State.imageEvent
  repeat' first
    | with_reducible exact hs | with_reducible assumption | with_reducible refine Inv.fst (by assumption) ?_
    | with_reducible apply State.emit_inv | with_reducible apply Inv.ite | (intro _)
    | fail_if_no_progress (with_reducible apply Inv.frame) | split | (dsimp only)
    | fail_if_no_progress (refine Inv.pkg ?_ (by rfl))

theorem Pkg.fillSlot_wf {p : Pkg} {i : Image} (hp : ∀ x ∈ p.images, Image.wf x) (hi : Image.wf i) :
    ∀ x ∈ p.fillSlot i, Image.wf x := by
  intro x hx
  obtain ⟨y, hy, h⟩ := List.mem_filterMap.mp hx
  split at h
  · injection h with h; subst h; exact hi
  · split at h
    · split at h
      · injection h with h; subst h; exact hp y hy
      · cases h
    · injection h with h; subst h; exact hp y hy

theorem State.writeImage_inv {s : State} {i : Image} (hs : s.Inv) (hi : Image.wf i) : (s.writeImage i).Inv :=
  State.storeDram_inv (Inv.images hs (Pkg.fillSlot_wf hs.2.2.1 hi))

theorem State.vacate_inv {s : State} (hs : s.Inv) : (State.vacate s).Inv := by
  unfold State.vacate
  repeat' first
    | with_reducible exact hs | with_reducible assumption | with_reducible refine Inv.fst (by assumption) ?_
    | with_reducible apply Inv.ite | (intro _) | fail_if_no_progress (with_reducible apply Inv.frame) | split | (dsimp only)
    | fail_if_no_progress (refine Inv.pkg ?_ (by rfl))

theorem State.swapOut_inv {s : State} {j : Job} {kind serial : Nat} (hs : s.Inv) : (State.swapOut s j kind serial).Inv := by
  unfold State.swapOut
  repeat' first
    | with_reducible exact hs | with_reducible assumption | with_reducible refine Inv.fst (by assumption) ?_
    | with_reducible apply State.vacate_inv | with_reducible apply Inv.ite | (intro _)
    | fail_if_no_progress (with_reducible apply Inv.frame) | split | (dsimp only)
    | fail_if_no_progress (refine Inv.pkg ?_ (by rfl))

theorem execCaptureComplete_safe {s : State} (hs : s.Inv) : Safe (execCaptureComplete s) := by
  unfold execCaptureComplete
  split
  · split
    · rename_i i j hi _
      have hw : Image.wf i := Inv.imagesWf hs i (List.mem_of_find?_eq_some hi)
      have ht : s.parkRest.Inv := State.parkRest_inv hs
      dsimp only
      generalize s.parkRest = t at ht ⊢
      split
      · exact Safe.next ht
      · have hu : (t.writeImage i).Inv := State.writeImage_inv ht hw
        generalize t.writeImage i = u at hu ⊢
        have hv {a : Job} {b : Nat} {c : Byte} {n : Nat} :
            (({ u with pkg.images := keepImages u.pkg.images i.jobid } : State).imageEvent a b c n).Inv :=
          State.imageEvent_inv (Inv.dropImages hu)
        exact Safe.ite (Safe.next (State.unparkAll_inv (Inv.frame hv))) (Safe.next (State.swapOut_inv hv))
    · exact Safe.next hs
  · split
    · exact Safe.ite (Safe.next (Inv.pkg hs rfl)) (Safe.next hs)
    · exact Safe.next hs
  · exact Safe.next hs

theorem State.resumePort_inv {s : State} {i : Image} {d : Nat} (hs : s.Inv) : (State.resumePort s i d).Inv := by
  unfold State.resumePort
  repeat' first
    | with_reducible exact hs | with_reducible assumption | with_reducible refine Inv.fst (by assumption) ?_
    | with_reducible apply State.setPort_inv | with_reducible apply State.portState_inv
    | with_reducible apply State.replay_inv | with_reducible apply State.retrain_inv | with_reducible apply State.resync_inv
    | with_reducible apply Inv.ite | (intro _) | fail_if_no_progress (with_reducible apply Inv.frame) | split | (dsimp only)
    | fail_if_no_progress (refine Inv.pkg ?_ (by rfl))

theorem State.resumeStalls_inv {s : State} {refused : List Nat} (hs : s.Inv) : (State.resumeStalls s refused).Inv := by
  unfold State.resumeStalls
  repeat' first
    | with_reducible exact hs | with_reducible assumption | with_reducible refine Inv.fst (by assumption) ?_
    | with_reducible apply State.finishCopy_inv | with_reducible apply State.releaseStalls_inv
    | (with_reducible apply foldl_inv; intro _ _ _) | (with_reducible apply foldl_fst; intro _ _ _)
    | with_reducible apply Inv.ite | (intro _) | fail_if_no_progress (with_reducible apply Inv.frame) | split | (dsimp only)
    | fail_if_no_progress (refine Inv.pkg ?_ (by rfl))

theorem State.fetchImage_inv {s : State} {i : Image} (hs : s.Inv) (hi : Image.wf i) : (s.fetchImage i).Inv :=
  Inv.ite (State.storeDram_inv (Inv.images hs (Pkg.fillSlot_wf hs.2.2.1 hi))) hs

theorem State.applyImage_inv {s : State} {j : Job} {i : Image} (hs : s.Inv) (hi : Image.wf i) : (s.applyImage j i).Inv := by
  unfold State.applyImage
  extract_lets tab n s0 s1 again j2 p s2 s3 c m st s4 c2 m2 s5 s6
  have h0 : s0.Inv := Inv.ite hs (State.tenantClear_inv hs)
  clear_value s0
  have h1 : s1.Inv := State.fetchImage_inv h0 hi
  clear_value s1
  have h2 : s2.Inv := Inv.pkg h1 rfl
  clear_value s2
  have h3 : s3.Inv := State.restore_inv h2 hi
  clear_value s3
  have h4 : s4.Inv := Inv.local h3 hi.1
  clear_value s4
  split
  · exact State.closeJob_inv (State.answerWord_inv (Inv.frame hs))
  · have h5 : s5.Inv := foldl_inv (fun _ _ h => State.resumePort_inv h) h4
    clear_value s5
    have h6 : s6.Inv := State.lanternC_inv h5
    clear_value s6
    exact State.imageEvent_inv (State.resumeStalls_inv h6)

theorem State.refuseImage_inv {s : State} {j : Job} {kind serial : Nat} (hs : s.Inv) : (s.refuseImage j kind serial).Inv := by
  unfold State.refuseImage
  extract_lets t back
  have ht : t.Inv := State.imageEvent_inv hs
  clear_value t back
  cases back
  · exact State.closeJob_inv ht
  · exact Inv.dropImages ht

theorem State.imageOf_wf {s : State} {j : Job} {i : Image} (hs : s.Inv) (h : s.imageOf j = some i) : Image.wf i := by
  obtain ⟨⟨k, n⟩, -, h⟩ := Option.bind_eq_some_iff.mp h
  exact Inv.imagesWf hs i (List.mem_of_find?_eq_some h)

theorem State.buddyImage_wf {s : State} {j : Job} {i : Image} (hs : s.Inv) (h : s.buddyImage j = some i) : Image.wf i := by
  obtain ⟨p, -, h⟩ := Option.bind_eq_some_iff.mp h
  exact Inv.imagesWf hs i (List.mem_of_find?_eq_some h)

theorem tidyCells_wf {w : Nat} {l : List (Nat × BitVec w)} : cellsWf (tidyCells l) = true := cellsWf_putCells rfl

theorem Image.forJob_wf {i : Image} {j : Job} {k : Nat} : Image.wf (i.forJob j k) :=
  ⟨tidyCells_wf, tidyCells_wf, tidyCells_wf, tidyCells_wf, tidyCells_wf⟩

theorem State.resumeImage_wf {s : State} {j : Job} {i : Image} (hs : s.Inv) (h : s.resumeImage j = some i) : Image.wf i := by
  unfold State.resumeImage at h
  split at h
  · obtain ⟨⟨k, n⟩, -, h⟩ := Option.bind_eq_some_iff.mp h
    obtain ⟨x, -, rfl⟩ := Option.map_eq_some_iff.mp h
    exact Image.forJob_wf
  · exact State.imageOf_wf hs h

theorem State.resumeFrom_inv {s : State} {j : Job} {img : Option Image} (hs : s.Inv) (hi : ∀ i, img = some i → Image.wf i) :
    (s.resumeFrom j img).Inv := by
  unfold State.resumeFrom
  split
  · rename_i i
    exact Inv.ite (State.applyImage_inv hs (hi i rfl)) (State.refuseImage_inv hs)
  · split
    · exact State.refuseImage_inv hs
    · exact hs

theorem execResume_safe {s : State} (hs : s.Inv) : Safe (execResume s) := by
  unfold execResume
  split
  · split
    · exact Safe.next hs
    · split
      · exact Safe.next (Inv.ite (Inv.frame (State.resumeFrom_inv hs fun _ h => State.resumeImage_wf hs h)) hs)
      · exact Safe.next (Inv.ite (State.resumeFrom_inv hs fun _ h => State.buddyImage_wf hs h) hs)
      · exact Safe.next hs
  · exact Safe.next hs

theorem execBudtgtSet_safe {s : State} (hs : s.Inv) : Safe (execBudtgtSet s) := by
  unfold execBudtgtSet
  repeat' first
    | with_reducible exact hs | with_reducible assumption | with_reducible refine Inv.fst (by assumption) ?_
    | with_reducible apply Safe.next | (with_reducible apply foldl_inv; intro _ _ _)
    | (with_reducible apply foldl_fst; intro _ _ _) | with_reducible apply Safe.ite | (intro _)
    | fail_if_no_progress (with_reducible apply Inv.frame) | split | (dsimp only)
    | fail_if_no_progress (refine Inv.pkg ?_ (by rfl))

theorem execBuddyPointAbandon_safe {s : State} (hs : s.Inv) : Safe (execBuddyPointAbandon s) := by
  unfold execBuddyPointAbandon
  repeat' first
    | with_reducible exact hs | with_reducible assumption | with_reducible refine Inv.fst (by assumption) ?_
    | with_reducible apply Safe.next | with_reducible apply Safe.ite | (intro _)
    | fail_if_no_progress (with_reducible apply Inv.frame) | split | (dsimp only)
    | fail_if_no_progress (refine Inv.pkg ?_ (by rfl))

theorem execDumpComplete_safe {s : State} (hs : s.Inv) : Safe (execDumpComplete s) := by
  unfold execDumpComplete
  split
  · split
    · exact Safe.next hs
    · extract_lets t ports src d bytes m p u v
      have ht : t.Inv := Inv.ite (State.parkRest_inv hs) hs
      split
      · exact Safe.next ht
      · have hu : u.Inv := Inv.host ht (cellsWf_putBytes (Inv.hostWf ht))
        exact Safe.ite (Safe.next (Inv.ite (State.dueStop_inv (State.resyncAll_inv (Inv.frame hu))) hu))
          (Safe.next (Inv.ite (State.fatalEvent_inv hu) hu))
  · exact Safe.next hs

theorem execDieReset_safe {s : State} (hs : s.Inv) : Safe (execDieReset s) := by
  unfold execDieReset
  split
  · exact Safe.next hs
  · extract_lets p w bits st images jobs resident t
    have hi : ∀ i ∈ images, Image.wf i := by
      intro i hi
      obtain ⟨x, hx, h⟩ := List.mem_filterMap.mp hi
      have hw := Inv.imagesWf hs x hx
      split at h
      · injection h with h; subst h; exact hw
      · split at h
        · injection h with h; subst h; exact hw
        · cases h
    have ht : t.Inv := State.launchClear_inv hs
    clear_value t
    exact Safe.next ⟨⟨rfl, ht.1.2⟩, ht.2.1, hi, ht.2.2.2⟩

theorem execDieReturnTimeout_safe {s : State} (hs : s.Inv) : Safe (execDieReturnTimeout s) := by
  unfold execDieReturnTimeout
  repeat' first
    | with_reducible exact hs | with_reducible assumption | with_reducible refine Inv.fst (by assumption) ?_
    | with_reducible apply State.closeJob_inv | with_reducible apply State.passOthers_inv
    | with_reducible apply State.vacate_inv | with_reducible apply Safe.next | with_reducible apply Safe.ite | (intro _)
    | fail_if_no_progress (with_reducible apply Inv.frame) | split | (dsimp only)
    | fail_if_no_progress (refine Inv.pkg ?_ (by rfl))

theorem State.noted_inv {s t : State} (ht : t.Inv) : (s.noted t).Inv := by
  unfold State.noted
  split
  · exact Inv.frame ht
  · exact ht

theorem State.onTurn_inv {s : State} {t : Turn} (hs : s.Inv) : (State.onTurn s t).Inv := by
  unfold State.onTurn
  repeat' first
    | with_reducible exact hs | with_reducible assumption | with_reducible refine Inv.fst (by assumption) ?_
    | with_reducible apply Inv.ite | (intro _) | fail_if_no_progress (with_reducible apply Inv.frame) | split | (dsimp only)
    | fail_if_no_progress (refine Inv.pkg ?_ (by rfl))

theorem State.drew_inv {s : State} (hs : s.Inv) : (State.drew s).Inv := by
  unfold State.drew
  repeat' first
    | with_reducible exact hs | with_reducible assumption | with_reducible refine Inv.fst (by assumption) ?_
    | with_reducible apply Inv.ite | (intro _) | fail_if_no_progress (with_reducible apply Inv.frame) | split | (dsimp only)
    | fail_if_no_progress (refine Inv.pkg ?_ (by rfl))

end Sys2Proof.Machine
end

