-- ==== Sys2Proof/Laws/KeepsExec.lean ====
section
/-! SUPPORT. Every instruction and event answers a next state that keeps the invariant. -/

namespace Sys2Proof.Machine

theorem exec_safe {i : Instr} {s : State} (hs : s.Inv) : Safe (exec i s) :=
  match i with
  | .extHdr z y x => execExtHdr_safe (_z := z) (_y := y) (_x := x) hs
  | .repeatPfx _ _ _ _ _ => execRepeatPfx_safe hs
  | .lbmark _ _ => execLbmark_safe hs
  | .nop g => execNop_safe (_g := g) hs
  | .add _ _ _ _ => execAdd_safe hs
  | .sub _ _ _ _ => execSub_safe hs
  | .and _ _ _ _ => execAnd_safe hs
  | .or _ _ _ _ => execOr_safe hs
  | .xor _ _ _ _ => execXor_safe hs
  | .andn _ _ _ _ => execAndn_safe hs
  | .shl _ _ _ _ => execShl_safe hs
  | .shr _ _ _ _ => execShr_safe hs
  | .sar _ _ _ _ => execSar_safe hs
  | .ror _ _ _ _ => execRor_safe hs
  | .min _ _ _ _ => execMin_safe hs
  | .minN _ _ _ _ => execMinN_safe hs
  | .max _ _ _ _ => execMax_safe hs
  | .maxN _ _ _ _ => execMaxN_safe hs
  | .mul _ _ _ _ => execMul_safe hs
  | .mulh _ _ _ _ => execMulh_safe hs
  | .mulhN _ _ _ _ => execMulhN_safe hs
  | .madd _ _ _ _ _ => execMadd_safe hs
  | .div _ _ _ _ => execDiv_safe hs
  | .divN _ _ _ _ => execDivN_safe hs
  | .rem _ _ _ _ => execRem_safe hs
  | .remN _ _ _ _ => execRemN_safe hs
  | .sextB _ _ _ => execSextB_safe hs
  | .sextH _ _ _ => execSextH_safe hs
  | .sextW _ _ _ => execSextW_safe hs
  | .zextB _ _ _ => execZextB_safe hs
  | .zextH _ _ _ => execZextH_safe hs
  | .zextW _ _ _ => execZextW_safe hs
  | .popc _ _ _ => execPopc_safe hs
  | .clz _ _ _ => execClz_safe hs
  | .ctz _ _ _ => execCtz_safe hs
  | .addi _ _ _ _ => execAddi_safe hs
  | .andi _ _ _ _ => execAndi_safe hs
  | .ori _ _ _ _ => execOri_safe hs
  | .xori _ _ _ _ => execXori_safe hs
  | .shli _ _ _ _ => execShli_safe hs
  | .shri _ _ _ _ => execShri_safe hs
  | .sari _ _ _ _ => execSari_safe hs
  | .shori _ _ _ _ => execShori_safe hs
  | .adda _ _ _ _ _ => execAdda_safe hs
  | .movAS _ _ _ => execMovAS_safe hs
  | .movSA _ _ _ => execMovSA_safe hs
  | .movNS _ _ _ => execMovNS_safe hs
  | .movSN _ _ _ => execMovSN_safe hs
  | .movES _ _ _ => execMovES_safe hs
  | .movSE _ _ _ => execMovSE_safe hs
  | .movToControl _ _ _ _ => execMovToControl_safe hs
  | .movFromControl _ _ _ _ => execMovFromControl_safe hs
  | .movGS _ _ _ => execMovGS_safe hs
  | .movSG _ _ _ => execMovSG_safe hs
  | .gget _ _ => execGget_safe hs
  | .gset _ _ => execGset_safe hs
  | .cmpEq _ _ _ _ => execCmpEq_safe hs
  | .cmpEqImm _ _ _ _ => execCmpEqImm_safe hs
  | .cmpLt _ _ _ _ => execCmpLt_safe hs
  | .cmpLtImm _ _ _ _ => execCmpLtImm_safe hs
  | .cmpLe _ _ _ _ => execCmpLe_safe hs
  | .cmpLeImm _ _ _ _ => execCmpLeImm_safe hs
  | .cmpLtn _ _ _ _ => execCmpLtn_safe hs
  | .cmpLtnImm _ _ _ _ => execCmpLtnImm_safe hs
  | .cmpLen _ _ _ _ => execCmpLen_safe hs
  | .cmpLenImm _ _ _ _ => execCmpLenImm_safe hs
  | .cmpTst _ _ _ _ => execCmpTst_safe hs
  | .cmpTstImm _ _ _ _ => execCmpTstImm_safe hs
  | .brT _ _ => execBrT_safe hs
  | .brNt _ _ => execBrNt_safe hs
  | .call _ _ => execCall_safe hs
  | .bri _ _ => execBri_safe hs
  | .ret _ _ => execRet_safe hs
  | .loop _ _ _ _ => execLoop_safe hs
  | .wait g _ _ _ _ => execWait_safe (_g := g) hs
  | .waitt g _ _ => execWaitt_safe (_g := g) hs
  | .fence g => execFence_safe (_g := g) hs
  | .lpoff _ _ => execLpoff_safe hs
  | .ldB _ _ _ _ _ => execLdB_safe hs
  | .ldH _ _ _ _ _ => execLdH_safe hs
  | .ldW _ _ _ _ _ => execLdW_safe hs
  | .ldD _ _ _ _ _ => execLdD_safe hs
  | .stB _ _ _ _ _ => execStB_safe hs
  | .stH _ _ _ _ _ => execStH_safe hs
  | .stW _ _ _ _ _ => execStW_safe hs
  | .stD _ _ _ _ _ => execStD_safe hs
  | .atmW _ _ _ _ _ _ => execAtmW_safe hs
  | .atmD _ _ _ _ _ _ => execAtmD_safe hs
  | .vand _ _ _ _ _ => execVand_safe hs
  | .vor _ _ _ _ _ => execVor_safe hs
  | .vxor _ _ _ _ _ => execVxor_safe hs
  | .vandn _ _ _ _ _ => execVandn_safe hs
  | .vaddI32 _ _ _ _ _ => execVaddI32_safe hs
  | .vsubI32 _ _ _ _ _ => execVsubI32_safe hs
  | .vmulI32 _ _ _ _ _ => execVmulI32_safe hs
  | .vaddI16 _ _ _ _ _ => execVaddI16_safe hs
  | .vsubI16 _ _ _ _ _ => execVsubI16_safe hs
  | .vaddsI16 _ _ _ _ _ => execVaddsI16_safe hs
  | .vsubsI16 _ _ _ _ _ => execVsubsI16_safe hs
  | .vaddI8 _ _ _ _ _ => execVaddI8_safe hs
  | .vsubI8 _ _ _ _ _ => execVsubI8_safe hs
  | .vaddsI8 _ _ _ _ _ => execVaddsI8_safe hs
  | .vsubsI8 _ _ _ _ _ => execVsubsI8_safe hs
  | .vminI32 _ _ _ _ _ => execVminI32_safe hs
  | .vmaxI32 _ _ _ _ _ => execVmaxI32_safe hs
  | .vminN32 _ _ _ _ _ => execVminN32_safe hs
  | .vmaxN32 _ _ _ _ _ => execVmaxN32_safe hs
  | .vshlI32 _ _ _ _ _ => execVshlI32_safe hs
  | .vshrN32 _ _ _ _ _ => execVshrN32_safe hs
  | .vsarI32 _ _ _ _ _ => execVsarI32_safe hs
  | .vdot4I8 _ _ _ _ _ _ => execVdot4I8_safe hs
  | .vdot4N8 _ _ _ _ _ _ => execVdot4N8_safe hs
  | .vdot2I16 _ _ _ _ _ _ => execVdot2I16_safe hs
  | .vdot2N16 _ _ _ _ _ _ => execVdot2N16_safe hs
  | .vaddF32 _ _ _ _ _ => execVaddF32_safe hs
  | .vsubF32 _ _ _ _ _ => execVsubF32_safe hs
  | .vmulF32 _ _ _ _ _ => execVmulF32_safe hs
  | .vfmaF32 _ _ _ _ _ _ => execVfmaF32_safe hs
  | .vfmsF32 _ _ _ _ _ _ => execVfmsF32_safe hs
  | .vminF32 _ _ _ _ _ => execVminF32_safe hs
  | .vmaxF32 _ _ _ _ _ => execVmaxF32_safe hs
  | .vsubBf16 _ _ _ _ _ => execVsubBf16_safe hs
  | .vaddBf16 _ _ _ _ _ => execVaddBf16_safe hs
  | .vmulBf16 _ _ _ _ _ => execVmulBf16_safe hs
  | .vfmaBf16 _ _ _ _ _ _ => execVfmaBf16_safe hs
  | .vaddF16 _ _ _ _ _ => execVaddF16_safe hs
  | .vmulF16 _ _ _ _ _ => execVmulF16_safe hs
  | .vfmaF16 _ _ _ _ _ _ => execVfmaF16_safe hs
  | .vrcpaF32 _ _ _ _ => execVrcpaF32_safe hs
  | .vrsqaF32 _ _ _ _ => execVrsqaF32_safe hs
  | .vcvtF32I32 _ _ _ _ _ => execVcvtF32I32_safe hs
  | .vcvtF32N32 _ _ _ _ _ => execVcvtF32N32_safe hs
  | .vcvtI32F32 _ _ _ _ _ => execVcvtI32F32_safe hs
  | .vcvtN32F32 _ _ _ _ _ => execVcvtN32F32_safe hs
  | .vcvtBf16F32 _ _ _ _ _ => execVcvtBf16F32_safe hs
  | .vcvtF16F32 _ _ _ _ _ => execVcvtF16F32_safe hs
  | .vcvtE4m3F32 _ _ _ _ _ _ => execVcvtE4m3F32_safe hs
  | .vcvtE5m2F32 _ _ _ _ _ _ => execVcvtE5m2F32_safe hs
  | .vcvtF32Widen _ _ _ _ _ => execVcvtF32Widen_safe hs
  | .vcvtQ4F32 _ _ _ _ _ => execVcvtQ4F32_safe hs
  | .vcvtF32Q4 _ _ _ _ => execVcvtF32Q4_safe hs
  | .vcmpF32 _ _ _ _ _ _ => execVcmpF32_safe hs
  | .vcmpI32 _ _ _ _ _ _ => execVcmpI32_safe hs
  | .vcmpN32 _ _ _ _ _ _ => execVcmpN32_safe hs
  | .klogic _ _ _ _ _ => execKlogic_safe hs
  | .vbcast _ _ _ _ => execVbcast_safe hs
  | .viota _ _ _ _ => execViota_safe hs
  | .vperm _ _ _ _ _ => execVperm_safe hs
  | .vred _ _ _ _ _ _ => execVred_safe hs
  | .vld _ _ _ _ _ => execVld_safe hs
  | .vst _ _ _ _ _ => execVst_safe hs
  | .vldW _ _ _ _ _ => execVldW_safe hs
  | .vstW _ _ _ _ _ => execVstW_safe hs
  | .vldK _ _ _ _ _ => execVldK_safe hs
  | .vstK _ _ _ _ _ => execVstK_safe hs
  | .trdr _ _ _ _ _ _ => execTrdr_safe hs
  | .trdc _ _ _ _ _ _ => execTrdc_safe hs
  | .twrr32 _ _ _ _ _ => execTwrr32_safe hs
  | .twrc32 _ _ _ _ _ => execTwrc32_safe hs
  | .twrr16 _ _ _ _ _ _ => execTwrr16_safe hs
  | .twrc16 _ _ _ _ _ _ => execTwrc16_safe hs
  | .twrr8 _ _ _ _ _ _ => execTwrr8_safe hs
  | .twrc8 _ _ _ _ _ _ => execTwrc8_safe hs
  | .twrr8Nan _ _ _ _ _ _ => execTwrr8Nan_safe hs
  | .twrc8Nan _ _ _ _ _ _ => execTwrc8Nan_safe hs
  | .tld _ _ _ => execTld_safe hs
  | .tst _ _ _ => execTst_safe hs
  | .mwl _ _ _ _ => execMwl_safe hs
  | .mwlm _ _ _ _ _ => execMwlm_safe hs
  | .mwlp _ _ _ _ => execMwlp_safe hs
  | .mwlpm _ _ _ _ _ => execMwlpm_safe hs
  | .mwa _ _ => execMwa_safe hs
  | .mwap _ _ => execMwap_safe hs
  | .mms _ _ _ _ _ => execMms_safe hs
  | .mmsm _ _ _ _ _ _ => execMmsm_safe hs
  | .mmsp _ _ _ _ _ => execMmsp_safe hs
  | .mmspm _ _ _ _ _ _ => execMmspm_safe hs
  | .mdr _ _ _ _ => execMdr_safe hs
  | .mdrm _ _ _ _ => execMdrm_safe hs
  | .mdrp _ _ _ _ => execMdrp_safe hs
  | .mdrpm _ _ _ _ => execMdrpm_safe hs
  | .mpost _ _ => execMpost_safe hs
  | .mzero _ _ => execMzero_safe hs
  | .mzerop _ _ => execMzerop_safe hs
  | .tcpy _ _ _ => execTcpy_safe hs
  | .tzero _ _ => execTzero_safe hs
  | .mdrt _ _ _ _ => execMdrt_safe hs
  | .tldt _ _ _ => execTldt_safe hs
  | .tstt _ _ _ => execTstt_safe hs
  | .tshape _ _ _ => execTshape_safe hs
  | .cpy _ _ _ _ => execCpy_safe hs
  | .cpy2 _ _ _ _ => execCpy2_safe hs
  | .cpyz _ _ _ _ => execCpyz_safe hs
  | .cpyx _ _ _ _ => execCpyx_safe hs
  | .cfill _ _ _ _ => execCfill_safe hs
  | .rld _ _ _ => execRld_safe hs
  | .rst _ _ _ _ => execRst_safe hs
  | .ratmW _ _ _ _ => execRatmW_safe hs
  | .ratmD _ _ _ _ => execRatmD_safe hs
  | .rred _ _ _ _ _ => execRred_safe hs
  | .fput _ _ _ => execFput_safe hs
  | .cfence _ _ => execCfence_safe hs
  | .xchg _ _ _ _ => execXchg_safe hs
  | .xcmb _ _ _ _ _ _ _ => execXcmb_safe hs
  | .sendif _ _ _ _ _ _ => execSendif_safe hs
  | .shiftg _ _ _ _ => execShiftg_safe hs
  | .xchgm _ _ => execXchgm_safe hs
  | .xcmbm _ _ _ _ => execXcmbm_safe hs
  | .xarm _ _ _ _ _ => execXarm_safe hs
  | .xdisarm _ _ => execXdisarm_safe hs
  | .xbar _ _ _ => execXbar_safe hs
  | .coll _ _ => execColl_safe hs
  | .route _ _ _ => execRoute_safe hs
  | .rqcfg _ _ => execRqcfg_safe hs
  | .rqreset _ _ => execRqreset_safe hs
  | .rcsnap _ _ => execRcsnap_safe hs
  | .chain _ _ => execChain_safe hs
  | .chstep _ _ => execChstep_safe hs
  | .chsize _ _ => execChsize_safe hs
  | .chabort _ => execChabort_safe hs
  | .trap _ _ => execTrap_safe hs
  | .rte _ => execRte_safe hs
  | .rteSw _ => execRteSw_safe hs
  | .endProg _ => execEndProg_safe hs
  | .reraise _ => execReraise_safe hs
  | .lmark _ _ _ => execLmark_safe hs
  | .bpoint _ => execBpoint_safe hs
  | .dpoint _ => execDpoint_safe hs
  | .rdcyc _ _ => execRdcyc_safe hs
  | .sdump _ => execSdump_safe hs
  | .enrd _ _ => execEnrd_safe hs
  | .enrdRsv _ _ => execEnrdRsv_safe hs
  | .enres _ _ _ => execEnres_safe hs
  | .enresRel _ _ _ => execEnresRel_safe hs
  | .issueBundle => execIssueBundle_safe hs
  | .stallEnd => execStallEnd_safe hs
  | .longWait => execLongWait_safe hs
  | .resultLands => execResultLands_safe hs
  | .sramAccessPerformed => execSramAccessPerformed_safe hs
  | .sramLoadLands => execSramLoadLands_safe hs
  | .tileOpComplete => execTileOpComplete_safe hs
  | .correctableError => execCorrectableError_safe hs
  | .freezeEnd => execFreezeEnd_safe hs
  | .patrolScrub => execPatrolScrub_safe hs
  | .uncorrectableError => execUncorrectableError_safe hs
  | .windowTableWrite => execWindowTableWrite_safe hs
  | .wtlockSet => execWtlockSet_safe hs
  | .codeStoreLoad => execCodeStoreLoad_safe hs
  | .controlPathRegisterWrite => execControlPathRegisterWrite_safe hs
  | .commandStart => execCommandStart_safe hs
  | .issueBufferEnter => execIssueBufferEnter_safe hs
  | .blockTransfer => execBlockTransfer_safe hs
  | .commandComplete => execCommandComplete_safe hs
  | .supply => execSupply_safe hs
  | .refuse => execRefuse_safe hs
  | .discard => execDiscard_safe hs
  | .reclaim => execReclaim_safe hs
  | .pgresRead => execPgresRead_safe hs
  | .writePacket => execWritePacket_safe hs
  | .readRequest => execReadRequest_safe hs
  | .readResponse => execReadResponse_safe hs
  | .atomicPacket => execAtomicPacket_safe hs
  | .atomicResponse => execAtomicResponse_safe hs
  | .reduceStore => execReduceStore_safe hs
  | .flagPacket => execFlagPacket_safe hs
  | .transferAcknowledgement => execTransferAcknowledgement_safe hs
  | .exchangeData => execExchangeData_safe hs
  | .unreachableNotice => execUnreachableNotice_safe hs
  | .linkAcknowledgement => execLinkAcknowledgement_safe hs
  | .negativeAcknowledgement => execNegativeAcknowledgement_safe hs
  | .replayTimeout => execReplayTimeout_safe hs
  | .detourForward => execDetourForward_safe hs
  | .lossOfSignal => execLossOfSignal_safe hs
  | .guylineSwitchBack => execGuylineSwitchBack_safe hs
  | .managementEnable => execManagementEnable_safe hs
  | .managementDisable => execManagementDisable_safe hs
  | .failedRetrain => execFailedRetrain_safe hs
  | .trainingComplete => execTrainingComplete_safe hs
  | .trainTimeout => execTrainTimeout_safe hs
  | .rekeyStart => execRekeyStart_safe hs
  | .rekeyComplete => execRekeyComplete_safe hs
  | .nonceLimit => execNonceLimit_safe hs
  | .park => execPark_safe hs
  | .parkack => execParkack_safe hs
  | .ready => execReady_safe hs
  | .abort => execAbort_safe hs
  | .exchangeTimeout => execExchangeTimeout_safe hs
  | .xarmFire => execXarmFire_safe hs
  | .walkerRound => execWalkerRound_safe hs
  | .routeRowReceive => execRouteRowReceive_safe hs
  | .taskDispatch => execTaskDispatch_safe hs
  | .chainStepStart => execChainStepStart_safe hs
  | .chainTaskPost => execChainTaskPost_safe hs
  | .energyRefill => execEnergyRefill_safe hs
  | .thermalLimit => execThermalLimit_safe hs
  | .qtailWrite => execQtailWrite_safe hs
  | .submitJob => execSubmitJob_safe hs
  | .submitChain => execSubmitChain_safe hs
  | .cancel => execCancel_safe hs
  | .registerPager => execRegisterPager_safe hs
  | .withdrawPager => execWithdrawPager_safe hs
  | .readDump => execReadDump_safe hs
  | .resetTenant => execResetTenant_safe hs
  | .placementPass => execPlacementPass_safe hs
  | .aging => execAging_safe hs
  | .quantumExpiry => execQuantumExpiry_safe hs
  | .jobEnd => execJobEnd_safe hs
  | .drainRequest => execDrainRequest_safe hs
  | .imageCapture => execImageCapture_safe hs
  | .drainEscalation => execDrainEscalation_safe hs
  | .scanStop => execScanStop_safe hs
  | .resume => execResume_safe hs
  | .budtgtSet => execBudtgtSet_safe hs
  | .buddyPointAbandon => execBuddyPointAbandon_safe hs
  | .fatalTrap => execFatalTrap_safe hs
  | .dieReset => execDieReset_safe hs
  | .trapDelivery => execTrapDelivery_safe hs
  | .trapCyclesEnd => execTrapCyclesEnd_safe hs
  | .returnCyclesEnd => execReturnCyclesEnd_safe hs
  | .evrdWrite => execEvrdWrite_safe hs
  | .evovfClear => execEvovfClear_safe hs
  | .tenantConfigWrite => execTenantConfigWrite_safe hs
  | .readyBitSet => execReadyBitSet_safe hs
  | .packageReset => execPackageReset_safe hs
  | .firmwareImageWrite => execFirmwareImageWrite_safe hs
  | .spdmMeasurement => execSpdmMeasurement_safe hs
  | .imageSecretInstall => execImageSecretInstall_safe hs
  | .cxlMemAccess => execCxlMemAccess_safe hs
  | .routerForward => execRouterForward_safe hs
  | .captureComplete => execCaptureComplete_safe hs
  | .dumpComplete => execDumpComplete_safe hs
  | .dieReturnTimeout => execDieReturnTimeout_safe hs

end Sys2Proof.Machine
end

