-- ==== Sys2Proof/Laws/State.lean ====
section
/-! SUPPORT. What each state update leaves and writes, field by field; reads after writes of the register files and of the
vectors of parts. -/

namespace Sys2Proof.Machine

theorem vget_vset_same {α : Type} {n : Nat} {v : Vector α n} {i : Nat} {x d : α} (h : i < n) :
    vget (vset v i x) i d = x := by
  simp [vget, vset, h]

theorem vget_vset_other {α : Type} {n : Nat} {v : Vector α n} {i j : Nat} {x d : α} (h : i ≠ j) :
    vget (vset v i x) j d = vget v j d := by
  simp [vget, vset, h]

/-- A write beyond the end changes nothing. -/
theorem vset_beyond {α : Type} {n : Nat} {v : Vector α n} {i : Nat} {x : α} (h : n ≤ i) : vset v i x = v := by
  unfold vset
  ext j hj
  rw [Vector.getElem_setIfInBounds]
  split
  · omega
  · rfl

/-! ## Register files (R201, R223) -/

@[simp] theorem Regs.rs_zero (r : Regs) : r.rs 0 = 0 := rfl
@[simp] theorem Regs.rg_zero (r : Regs) : r.rg 0 = true := rfl
@[simp] theorem Regs.rg_one (r : Regs) : r.rg 1 = false := rfl
@[simp] theorem Regs.rk_zero (r : Regs) : r.rk 0 = BitVec.allOnes 1024 := rfl
@[simp] theorem Regs.ws_zero (r : Regs) (x : W64) : r.ws 0 x = r := rfl
@[simp] theorem Regs.wg_zero (r : Regs) (x : Bool) : r.wg 0 x = r := rfl
@[simp] theorem Regs.wg_one (r : Regs) (x : Bool) : r.wg 1 x = r := rfl
@[simp] theorem Regs.wk_zero (r : Regs) (m x : BitVec 1024) : r.wk 0 m x = r := rfl

theorem Regs.rs_ws_same {r : Regs} {i : BitVec 5} {x : W64} (h : i ≠ 0) : (r.ws i x).rs i = x := by
  have hi : i.toNat < 32 := i.isLt
  rw [Regs.ws, if_neg h, Regs.rs, if_neg h]; exact vget_vset_same hi

theorem Regs.rs_ws_other {r : Regs} {i j : BitVec 5} {x : W64} (h : i ≠ j) : (r.ws i x).rs j = r.rs j := by
  have hn : i.toNat ≠ j.toNat := fun e => h (BitVec.eq_of_toNat_eq e)
  by_cases hi : i = 0
  · rw [hi, Regs.ws_zero]
  · by_cases hj : j = 0
    · rw [hj, Regs.rs_zero, Regs.rs_zero]
    · rw [Regs.ws, if_neg hi, Regs.rs, if_neg hj, Regs.rs, if_neg hj]; exact vget_vset_other hn

theorem Regs.ra_wa_same {r : Regs} {i : BitVec 4} {x : W64} : (r.wa i x).ra i = x := vget_vset_same i.isLt
theorem Regs.ra_wa_other {r : Regs} {i j : BitVec 4} {x : W64} (h : i ≠ j) : (r.wa i x).ra j = r.ra j :=
  vget_vset_other fun e => h (BitVec.eq_of_toNat_eq e)
theorem Regs.rn_wn_same {r : Regs} {i : BitVec 4} {x : W64} : (r.wn i x).rn i = x := vget_vset_same i.isLt
theorem Regs.rn_wn_other {r : Regs} {i j : BitVec 4} {x : W64} (h : i ≠ j) : (r.wn i x).rn j = r.rn j :=
  vget_vset_other fun e => h (BitVec.eq_of_toNat_eq e)

theorem Regs.rg_wg_same {r : Regs} {i : BitVec 4} {x : Bool} (h : 2 ≤ i.toNat) : (r.wg i x).rg i = x := by
  have h0 : i ≠ 0 := fun e => by subst e; exact absurd h (by decide)
  have h1 : i ≠ 1 := fun e => by subst e; exact absurd h (by decide)
  have hi : i.toNat < 16 := i.isLt
  rw [Regs.wg, if_neg (Nat.not_lt.mpr h), Regs.rg, if_neg h0, if_neg h1]; exact vget_vset_same hi

/-! ## The guard of a slot (R175) -/

theorem State.guarded_true {s t : State} {g : BitVec 4} (h : s.regs.rg g = true) : s.guarded g t = t := if_pos h
theorem State.guarded_false {s t : State} {g : BitVec 4} (h : s.regs.rg g = false) : s.guarded g t = s := by
  unfold State.guarded; rw [h]; rfl

/-! ## Updates -/


@[simp] theorem State.push_regs (s : State) (n : Nat) (l : Landing) (f : BitVec 6) (m : W16) :
    (s.push n l f m).regs = s.regs := rfl
@[simp] theorem State.push_tiles (s : State) (n : Nat) (l : Landing) (f : BitVec 6) (m : W16) :
    (s.push n l f m).tiles = s.tiles := rfl
@[simp] theorem State.push_ctl (s : State) (n : Nat) (l : Landing) (f : BitVec 6) (m : W16) :
    (s.push n l f m).ctl = s.ctl := rfl
@[simp] theorem State.push_lines (s : State) (n : Nat) (l : Landing) (f : BitVec 6) (m : W16) :
    (s.push n l f m).lines = s.lines := rfl
@[simp] theorem State.push_eng (s : State) (n : Nat) (l : Landing) (f : BitVec 6) (m : W16) :
    (s.push n l f m).eng = s.eng := rfl
@[simp] theorem State.push_mem (s : State) (n : Nat) (l : Landing) (f : BitVec 6) (m : W16) :
    (s.push n l f m).mem = s.mem := rfl
@[simp] theorem State.push_ports (s : State) (n : Nat) (l : Landing) (f : BitVec 6) (m : W16) :
    (s.push n l f m).ports = s.ports := rfl
@[simp] theorem State.push_pkg (s : State) (n : Nat) (l : Landing) (f : BitVec 6) (m : W16) :
    (s.push n l f m).pkg = s.pkg := rfl
@[simp] theorem State.push_late (s : State) (n : Nat) (l : Landing) (f : BitVec 6) (m : W16) :
    (s.push n l f m).late = s.late := rfl
@[simp] theorem State.push_arrived (s : State) (n : Nat) (l : Landing) (f : BitVec 6) (m : W16) :
    (s.push n l f m).arrived = s.arrived := rfl
@[simp] theorem State.push_begun (s : State) (n : Nat) (l : Landing) (f : BitVec 6) (m : W16) :
    (s.push n l f m).begun = s.begun := rfl
@[simp] theorem State.push_inputs (s : State) (n : Nat) (l : Landing) (f : BitVec 6) (m : W16) :
    (s.push n l f m).inputs = s.inputs := rfl
@[simp] theorem State.push_arg (s : State) (n : Nat) (l : Landing) (f : BitVec 6) (m : W16) :
    (s.push n l f m).arg = s.arg := rfl
@[simp] theorem State.push_now (s : State) (n : Nat) (l : Landing) (f : BitVec 6) (m : W16) :
    (s.push n l f m).now = s.now := rfl
@[simp] theorem State.push_refillClk (s : State) (n : Nat) (l : Landing) (f : BitVec 6) (m : W16) :
    (s.push n l f m).refillClk = s.refillClk := rfl
@[simp] theorem State.push_draws (s : State) (n : Nat) (l : Landing) (f : BitVec 6) (m : W16) :
    (s.push n l f m).draws = s.draws := rfl
@[simp] theorem State.push_stream_results (s : State) (n : Nat) (l : Landing) (f : BitVec 6) (m : W16) :
    (s.push n l f m).stream.results = s.stream.results ++ [{ seq := s.stream.seq, rem := n, land := l, flags := f, sat := m }] := rfl
@[simp] theorem State.push_stream_pc (s : State) (n : Nat) (l : Landing) (f : BitVec 6) (m : W16) :
    (s.push n l f m).stream.pc = s.stream.pc := rfl
@[simp] theorem State.push_stream_mode (s : State) (n : Nat) (l : Landing) (f : BitVec 6) (m : W16) :
    (s.push n l f m).stream.mode = s.stream.mode := rfl
@[simp] theorem State.push_stream_ask (s : State) (n : Nat) (l : Landing) (f : BitVec 6) (m : W16) :
    (s.push n l f m).stream.ask = s.stream.ask := rfl

@[simp] theorem State.put_regs (s : State) (n : Nat) (l : Landing) : (s.put n l).regs = s.regs := rfl
@[simp] theorem State.put_tiles (s : State) (n : Nat) (l : Landing) : (s.put n l).tiles = s.tiles := rfl
@[simp] theorem State.put_ctl (s : State) (n : Nat) (l : Landing) : (s.put n l).ctl = s.ctl := rfl
@[simp] theorem State.put_lines (s : State) (n : Nat) (l : Landing) : (s.put n l).lines = s.lines := rfl
@[simp] theorem State.put_eng (s : State) (n : Nat) (l : Landing) : (s.put n l).eng = s.eng := rfl
@[simp] theorem State.put_mem (s : State) (n : Nat) (l : Landing) : (s.put n l).mem = s.mem := rfl
@[simp] theorem State.put_ports (s : State) (n : Nat) (l : Landing) : (s.put n l).ports = s.ports := rfl
@[simp] theorem State.put_pkg (s : State) (n : Nat) (l : Landing) : (s.put n l).pkg = s.pkg := rfl
@[simp] theorem State.put_late (s : State) (n : Nat) (l : Landing) : (s.put n l).late = s.late := rfl
@[simp] theorem State.put_arrived (s : State) (n : Nat) (l : Landing) : (s.put n l).arrived = s.arrived := rfl
@[simp] theorem State.put_begun (s : State) (n : Nat) (l : Landing) : (s.put n l).begun = s.begun := rfl
@[simp] theorem State.put_inputs (s : State) (n : Nat) (l : Landing) : (s.put n l).inputs = s.inputs := rfl
@[simp] theorem State.put_arg (s : State) (n : Nat) (l : Landing) : (s.put n l).arg = s.arg := rfl
@[simp] theorem State.put_now (s : State) (n : Nat) (l : Landing) : (s.put n l).now = s.now := rfl
@[simp] theorem State.put_refillClk (s : State) (n : Nat) (l : Landing) : (s.put n l).refillClk = s.refillClk := rfl
@[simp] theorem State.put_draws (s : State) (n : Nat) (l : Landing) : (s.put n l).draws = s.draws := rfl
@[simp] theorem State.put_stream_results (s : State) (n : Nat) (l : Landing) :
    (s.put n l).stream.results = s.stream.results ++ [{ seq := s.stream.seq, rem := n, land := l, flags := 0, sat := 0 }] := rfl
@[simp] theorem State.put_stream_pc (s : State) (n : Nat) (l : Landing) : (s.put n l).stream.pc = s.stream.pc := rfl
@[simp] theorem State.put_stream_mode (s : State) (n : Nat) (l : Landing) : (s.put n l).stream.mode = s.stream.mode := rfl
@[simp] theorem State.put_stream_ask (s : State) (n : Nat) (l : Landing) : (s.put n l).stream.ask = s.stream.ask := rfl

@[simp] theorem State.inFlight_regs (s : State) (n : Nat) (l : Landing) (f : BitVec 6) :
    (s.inFlight n l f).regs = s.regs := rfl
@[simp] theorem State.inFlight_tiles (s : State) (n : Nat) (l : Landing) (f : BitVec 6) :
    (s.inFlight n l f).tiles = s.tiles := rfl
@[simp] theorem State.inFlight_ctl (s : State) (n : Nat) (l : Landing) (f : BitVec 6) :
    (s.inFlight n l f).ctl = s.ctl := rfl
@[simp] theorem State.inFlight_lines (s : State) (n : Nat) (l : Landing) (f : BitVec 6) :
    (s.inFlight n l f).lines = s.lines := rfl
@[simp] theorem State.inFlight_eng (s : State) (n : Nat) (l : Landing) (f : BitVec 6) :
    (s.inFlight n l f).eng = s.eng := rfl
@[simp] theorem State.inFlight_mem (s : State) (n : Nat) (l : Landing) (f : BitVec 6) :
    (s.inFlight n l f).mem = s.mem := rfl
@[simp] theorem State.inFlight_ports (s : State) (n : Nat) (l : Landing) (f : BitVec 6) :
    (s.inFlight n l f).ports = s.ports := rfl
@[simp] theorem State.inFlight_pkg (s : State) (n : Nat) (l : Landing) (f : BitVec 6) :
    (s.inFlight n l f).pkg = s.pkg := rfl
@[simp] theorem State.inFlight_late (s : State) (n : Nat) (l : Landing) (f : BitVec 6) :
    (s.inFlight n l f).late = s.late := rfl
@[simp] theorem State.inFlight_arrived (s : State) (n : Nat) (l : Landing) (f : BitVec 6) :
    (s.inFlight n l f).arrived = s.arrived := rfl
@[simp] theorem State.inFlight_begun (s : State) (n : Nat) (l : Landing) (f : BitVec 6) :
    (s.inFlight n l f).begun = s.begun := rfl
@[simp] theorem State.inFlight_inputs (s : State) (n : Nat) (l : Landing) (f : BitVec 6) :
    (s.inFlight n l f).inputs = s.inputs := rfl
@[simp] theorem State.inFlight_arg (s : State) (n : Nat) (l : Landing) (f : BitVec 6) :
    (s.inFlight n l f).arg = s.arg := rfl
@[simp] theorem State.inFlight_now (s : State) (n : Nat) (l : Landing) (f : BitVec 6) :
    (s.inFlight n l f).now = s.now := rfl
@[simp] theorem State.inFlight_refillClk (s : State) (n : Nat) (l : Landing) (f : BitVec 6) :
    (s.inFlight n l f).refillClk = s.refillClk := rfl
@[simp] theorem State.inFlight_draws (s : State) (n : Nat) (l : Landing) (f : BitVec 6) :
    (s.inFlight n l f).draws = s.draws := rfl
@[simp] theorem State.inFlight_stream_results (s : State) (n : Nat) (l : Landing) (f : BitVec 6) :
    (s.inFlight n l f).stream.results = s.stream.results ++ [{ seq := s.stream.seq, rem := n, land := l, flags := f, sat := 0 }] := rfl
@[simp] theorem State.inFlight_stream_pc (s : State) (n : Nat) (l : Landing) (f : BitVec 6) :
    (s.inFlight n l f).stream.pc = s.stream.pc := rfl
@[simp] theorem State.inFlight_stream_mode (s : State) (n : Nat) (l : Landing) (f : BitVec 6) :
    (s.inFlight n l f).stream.mode = s.stream.mode := rfl
@[simp] theorem State.inFlight_stream_ask (s : State) (n : Nat) (l : Landing) (f : BitVec 6) :
    (s.inFlight n l f).stream.ask = s.stream.ask := rfl

@[simp] theorem State.orFlags_regs (s : State) (f : BitVec 6) (m : W16) : (s.orFlags f m).regs = s.regs := rfl
@[simp] theorem State.orFlags_tiles (s : State) (f : BitVec 6) (m : W16) : (s.orFlags f m).tiles = s.tiles := rfl
@[simp] theorem State.orFlags_stream (s : State) (f : BitVec 6) (m : W16) : (s.orFlags f m).stream = s.stream := rfl
@[simp] theorem State.orFlags_lines (s : State) (f : BitVec 6) (m : W16) : (s.orFlags f m).lines = s.lines := rfl
@[simp] theorem State.orFlags_eng (s : State) (f : BitVec 6) (m : W16) : (s.orFlags f m).eng = s.eng := rfl
@[simp] theorem State.orFlags_mem (s : State) (f : BitVec 6) (m : W16) : (s.orFlags f m).mem = s.mem := rfl
@[simp] theorem State.orFlags_ports (s : State) (f : BitVec 6) (m : W16) : (s.orFlags f m).ports = s.ports := rfl
@[simp] theorem State.orFlags_pkg (s : State) (f : BitVec 6) (m : W16) : (s.orFlags f m).pkg = s.pkg := rfl
@[simp] theorem State.orFlags_late (s : State) (f : BitVec 6) (m : W16) : (s.orFlags f m).late = s.late := rfl
@[simp] theorem State.orFlags_arrived (s : State) (f : BitVec 6) (m : W16) : (s.orFlags f m).arrived = s.arrived := rfl
@[simp] theorem State.orFlags_begun (s : State) (f : BitVec 6) (m : W16) : (s.orFlags f m).begun = s.begun := rfl
@[simp] theorem State.orFlags_inputs (s : State) (f : BitVec 6) (m : W16) : (s.orFlags f m).inputs = s.inputs := rfl
@[simp] theorem State.orFlags_arg (s : State) (f : BitVec 6) (m : W16) : (s.orFlags f m).arg = s.arg := rfl
@[simp] theorem State.orFlags_now (s : State) (f : BitVec 6) (m : W16) : (s.orFlags f m).now = s.now := rfl
@[simp] theorem State.orFlags_refillClk (s : State) (f : BitVec 6) (m : W16) :
    (s.orFlags f m).refillClk = s.refillClk := rfl
@[simp] theorem State.orFlags_draws (s : State) (f : BitVec 6) (m : W16) : (s.orFlags f m).draws = s.draws := rfl
@[simp] theorem State.orFlags_vflags (s : State) (f : BitVec 6) (m : W16) :
    (s.orFlags f m).ctl.vflags = s.ctl.vflags ||| f := rfl
@[simp] theorem State.orFlags_msat (s : State) (f : BitVec 6) (m : W16) : (s.orFlags f m).ctl.msat = s.ctl.msat ||| m := rfl
@[simp] theorem State.orFlags_srstate (s : State) (f : BitVec 6) (m : W16) :
    (s.orFlags f m).ctl.srstate = s.ctl.srstate := rfl

@[simp] theorem State.store_regs (s : State) (a : Nat) (bs : List Byte) : (s.store a bs).regs = s.regs := rfl
@[simp] theorem State.store_tiles (s : State) (a : Nat) (bs : List Byte) : (s.store a bs).tiles = s.tiles := rfl
@[simp] theorem State.store_ctl (s : State) (a : Nat) (bs : List Byte) : (s.store a bs).ctl = s.ctl := rfl
@[simp] theorem State.store_stream (s : State) (a : Nat) (bs : List Byte) : (s.store a bs).stream = s.stream := rfl
@[simp] theorem State.store_lines (s : State) (a : Nat) (bs : List Byte) : (s.store a bs).lines = s.lines := rfl
@[simp] theorem State.store_eng (s : State) (a : Nat) (bs : List Byte) : (s.store a bs).eng = s.eng := rfl
@[simp] theorem State.store_ports (s : State) (a : Nat) (bs : List Byte) : (s.store a bs).ports = s.ports := rfl
@[simp] theorem State.store_pkg (s : State) (a : Nat) (bs : List Byte) : (s.store a bs).pkg = s.pkg := rfl
@[simp] theorem State.store_late (s : State) (a : Nat) (bs : List Byte) : (s.store a bs).late = s.late := rfl
@[simp] theorem State.store_arrived (s : State) (a : Nat) (bs : List Byte) : (s.store a bs).arrived = s.arrived := rfl
@[simp] theorem State.store_begun (s : State) (a : Nat) (bs : List Byte) : (s.store a bs).begun = s.begun := rfl
@[simp] theorem State.store_inputs (s : State) (a : Nat) (bs : List Byte) : (s.store a bs).inputs = s.inputs := rfl
@[simp] theorem State.store_arg (s : State) (a : Nat) (bs : List Byte) : (s.store a bs).arg = s.arg := rfl
@[simp] theorem State.store_now (s : State) (a : Nat) (bs : List Byte) : (s.store a bs).now = s.now := rfl
@[simp] theorem State.store_refillClk (s : State) (a : Nat) (bs : List Byte) : (s.store a bs).refillClk = s.refillClk := rfl
@[simp] theorem State.store_draws (s : State) (a : Nat) (bs : List Byte) : (s.store a bs).draws = s.draws := rfl
@[simp] theorem State.store_loc (s : State) (a : Nat) (bs : List Byte) :
    (s.store a bs).mem.loc = putBytes s.mem.loc a bs := rfl
@[simp] theorem State.store_dram (s : State) (a : Nat) (bs : List Byte) : (s.store a bs).mem.dram = s.mem.dram := rfl
@[simp] theorem State.store_host (s : State) (a : Nat) (bs : List Byte) : (s.store a bs).mem.host = s.mem.host := rfl
@[simp] theorem State.store_wtab (s : State) (a : Nat) (bs : List Byte) : (s.store a bs).mem.wtab = s.mem.wtab := rfl

@[simp] theorem State.storeEng_regs (s : State) (a : Nat) (bs : List Byte) : (s.storeEng a bs).regs = s.regs := rfl
@[simp] theorem State.storeEng_tiles (s : State) (a : Nat) (bs : List Byte) : (s.storeEng a bs).tiles = s.tiles := rfl
@[simp] theorem State.storeEng_ctl (s : State) (a : Nat) (bs : List Byte) : (s.storeEng a bs).ctl = s.ctl := rfl
@[simp] theorem State.storeEng_stream (s : State) (a : Nat) (bs : List Byte) : (s.storeEng a bs).stream = s.stream := rfl
@[simp] theorem State.storeEng_lines (s : State) (a : Nat) (bs : List Byte) : (s.storeEng a bs).lines = s.lines := rfl
@[simp] theorem State.storeEng_eng (s : State) (a : Nat) (bs : List Byte) : (s.storeEng a bs).eng = s.eng := rfl
@[simp] theorem State.storeEng_ports (s : State) (a : Nat) (bs : List Byte) : (s.storeEng a bs).ports = s.ports := rfl
@[simp] theorem State.storeEng_pkg (s : State) (a : Nat) (bs : List Byte) : (s.storeEng a bs).pkg = s.pkg := rfl
@[simp] theorem State.storeEng_late (s : State) (a : Nat) (bs : List Byte) : (s.storeEng a bs).late = s.late := rfl
@[simp] theorem State.storeEng_arrived (s : State) (a : Nat) (bs : List Byte) : (s.storeEng a bs).arrived = s.arrived := rfl
@[simp] theorem State.storeEng_begun (s : State) (a : Nat) (bs : List Byte) : (s.storeEng a bs).begun = s.begun := rfl
@[simp] theorem State.storeEng_inputs (s : State) (a : Nat) (bs : List Byte) : (s.storeEng a bs).inputs = s.inputs := rfl
@[simp] theorem State.storeEng_arg (s : State) (a : Nat) (bs : List Byte) : (s.storeEng a bs).arg = s.arg := rfl
@[simp] theorem State.storeEng_now (s : State) (a : Nat) (bs : List Byte) : (s.storeEng a bs).now = s.now := rfl
@[simp] theorem State.storeEng_refillClk (s : State) (a : Nat) (bs : List Byte) :
    (s.storeEng a bs).refillClk = s.refillClk := rfl
@[simp] theorem State.storeEng_draws (s : State) (a : Nat) (bs : List Byte) : (s.storeEng a bs).draws = s.draws := rfl
@[simp] theorem State.storeEng_loc (s : State) (a : Nat) (bs : List Byte) :
    (s.storeEng a bs).mem.loc = putBytes s.mem.loc a bs := rfl
@[simp] theorem State.storeEng_dram (s : State) (a : Nat) (bs : List Byte) : (s.storeEng a bs).mem.dram = s.mem.dram := rfl
@[simp] theorem State.storeEng_host (s : State) (a : Nat) (bs : List Byte) : (s.storeEng a bs).mem.host = s.mem.host := rfl
@[simp] theorem State.storeEng_wtab (s : State) (a : Nat) (bs : List Byte) : (s.storeEng a bs).mem.wtab = s.mem.wtab := rfl

@[simp] theorem State.storeDram_regs (s : State) (o : Nat) (bs : List Byte) : (s.storeDram o bs).regs = s.regs := rfl
@[simp] theorem State.storeDram_tiles (s : State) (o : Nat) (bs : List Byte) : (s.storeDram o bs).tiles = s.tiles := rfl
@[simp] theorem State.storeDram_ctl (s : State) (o : Nat) (bs : List Byte) : (s.storeDram o bs).ctl = s.ctl := rfl
@[simp] theorem State.storeDram_stream (s : State) (o : Nat) (bs : List Byte) : (s.storeDram o bs).stream = s.stream := rfl
@[simp] theorem State.storeDram_lines (s : State) (o : Nat) (bs : List Byte) : (s.storeDram o bs).lines = s.lines := rfl
@[simp] theorem State.storeDram_eng (s : State) (o : Nat) (bs : List Byte) : (s.storeDram o bs).eng = s.eng := rfl
@[simp] theorem State.storeDram_ports (s : State) (o : Nat) (bs : List Byte) : (s.storeDram o bs).ports = s.ports := rfl
@[simp] theorem State.storeDram_pkg (s : State) (o : Nat) (bs : List Byte) : (s.storeDram o bs).pkg = s.pkg := rfl
@[simp] theorem State.storeDram_late (s : State) (o : Nat) (bs : List Byte) : (s.storeDram o bs).late = s.late := rfl
@[simp] theorem State.storeDram_arrived (s : State) (o : Nat) (bs : List Byte) :
    (s.storeDram o bs).arrived = s.arrived := rfl
@[simp] theorem State.storeDram_begun (s : State) (o : Nat) (bs : List Byte) : (s.storeDram o bs).begun = s.begun := rfl
@[simp] theorem State.storeDram_inputs (s : State) (o : Nat) (bs : List Byte) : (s.storeDram o bs).inputs = s.inputs := rfl
@[simp] theorem State.storeDram_arg (s : State) (o : Nat) (bs : List Byte) : (s.storeDram o bs).arg = s.arg := rfl
@[simp] theorem State.storeDram_now (s : State) (o : Nat) (bs : List Byte) : (s.storeDram o bs).now = s.now := rfl
@[simp] theorem State.storeDram_refillClk (s : State) (o : Nat) (bs : List Byte) :
    (s.storeDram o bs).refillClk = s.refillClk := rfl
@[simp] theorem State.storeDram_draws (s : State) (o : Nat) (bs : List Byte) : (s.storeDram o bs).draws = s.draws := rfl
@[simp] theorem State.storeDram_loc (s : State) (o : Nat) (bs : List Byte) : (s.storeDram o bs).mem.loc = s.mem.loc := rfl
@[simp] theorem State.storeDram_dram (s : State) (o : Nat) (bs : List Byte) :
    (s.storeDram o bs).mem.dram = putBytes s.mem.dram o bs := rfl
@[simp] theorem State.storeDram_host (s : State) (o : Nat) (bs : List Byte) :
    (s.storeDram o bs).mem.host = s.mem.host := rfl
@[simp] theorem State.storeDram_wtab (s : State) (o : Nat) (bs : List Byte) :
    (s.storeDram o bs).mem.wtab = s.mem.wtab := rfl

@[simp] theorem State.lanternC_regs (s : State) (k i : Nat) (w : W64) : (s.lanternC k i w).regs = s.regs := rfl
@[simp] theorem State.lanternC_tiles (s : State) (k i : Nat) (w : W64) : (s.lanternC k i w).tiles = s.tiles := rfl
@[simp] theorem State.lanternC_stream (s : State) (k i : Nat) (w : W64) : (s.lanternC k i w).stream = s.stream := rfl
@[simp] theorem State.lanternC_lines (s : State) (k i : Nat) (w : W64) : (s.lanternC k i w).lines = s.lines := rfl
@[simp] theorem State.lanternC_eng (s : State) (k i : Nat) (w : W64) : (s.lanternC k i w).eng = s.eng := rfl
@[simp] theorem State.lanternC_ports (s : State) (k i : Nat) (w : W64) : (s.lanternC k i w).ports = s.ports := rfl
@[simp] theorem State.lanternC_pkg (s : State) (k i : Nat) (w : W64) : (s.lanternC k i w).pkg = s.pkg := rfl
@[simp] theorem State.lanternC_late (s : State) (k i : Nat) (w : W64) : (s.lanternC k i w).late = s.late := rfl
@[simp] theorem State.lanternC_arrived (s : State) (k i : Nat) (w : W64) : (s.lanternC k i w).arrived = s.arrived := rfl
@[simp] theorem State.lanternC_begun (s : State) (k i : Nat) (w : W64) : (s.lanternC k i w).begun = s.begun := rfl
@[simp] theorem State.lanternC_inputs (s : State) (k i : Nat) (w : W64) : (s.lanternC k i w).inputs = s.inputs := rfl
@[simp] theorem State.lanternC_arg (s : State) (k i : Nat) (w : W64) : (s.lanternC k i w).arg = s.arg := rfl
@[simp] theorem State.lanternC_now (s : State) (k i : Nat) (w : W64) : (s.lanternC k i w).now = s.now := rfl
@[simp] theorem State.lanternC_refillClk (s : State) (k i : Nat) (w : W64) :
    (s.lanternC k i w).refillClk = s.refillClk := rfl
@[simp] theorem State.lanternC_draws (s : State) (k i : Nat) (w : W64) : (s.lanternC k i w).draws = s.draws := rfl
@[simp] theorem State.lanternC_loc (s : State) (k i : Nat) (w : W64) : (s.lanternC k i w).mem.loc = s.mem.loc := rfl
@[simp] theorem State.lanternC_dram (s : State) (k i : Nat) (w : W64) : (s.lanternC k i w).mem.dram = s.mem.dram := rfl
@[simp] theorem State.lanternC_host (s : State) (k i : Nat) (w : W64) : (s.lanternC k i w).mem.host = s.mem.host := rfl
@[simp] theorem State.lanternC_wtab (s : State) (k i : Nat) (w : W64) : (s.lanternC k i w).mem.wtab = s.mem.wtab := rfl

@[simp] theorem State.lanternM_regs (s : State) (k i : Nat) (w : W64) : (s.lanternM k i w).regs = s.regs := rfl
@[simp] theorem State.lanternM_tiles (s : State) (k i : Nat) (w : W64) : (s.lanternM k i w).tiles = s.tiles := rfl
@[simp] theorem State.lanternM_stream (s : State) (k i : Nat) (w : W64) : (s.lanternM k i w).stream = s.stream := rfl
@[simp] theorem State.lanternM_lines (s : State) (k i : Nat) (w : W64) : (s.lanternM k i w).lines = s.lines := rfl
@[simp] theorem State.lanternM_eng (s : State) (k i : Nat) (w : W64) : (s.lanternM k i w).eng = s.eng := rfl
@[simp] theorem State.lanternM_ports (s : State) (k i : Nat) (w : W64) : (s.lanternM k i w).ports = s.ports := rfl
@[simp] theorem State.lanternM_pkg (s : State) (k i : Nat) (w : W64) : (s.lanternM k i w).pkg = s.pkg := rfl
@[simp] theorem State.lanternM_late (s : State) (k i : Nat) (w : W64) : (s.lanternM k i w).late = s.late := rfl
@[simp] theorem State.lanternM_arrived (s : State) (k i : Nat) (w : W64) : (s.lanternM k i w).arrived = s.arrived := rfl
@[simp] theorem State.lanternM_begun (s : State) (k i : Nat) (w : W64) : (s.lanternM k i w).begun = s.begun := rfl
@[simp] theorem State.lanternM_inputs (s : State) (k i : Nat) (w : W64) : (s.lanternM k i w).inputs = s.inputs := rfl
@[simp] theorem State.lanternM_arg (s : State) (k i : Nat) (w : W64) : (s.lanternM k i w).arg = s.arg := rfl
@[simp] theorem State.lanternM_now (s : State) (k i : Nat) (w : W64) : (s.lanternM k i w).now = s.now := rfl
@[simp] theorem State.lanternM_refillClk (s : State) (k i : Nat) (w : W64) :
    (s.lanternM k i w).refillClk = s.refillClk := rfl
@[simp] theorem State.lanternM_draws (s : State) (k i : Nat) (w : W64) : (s.lanternM k i w).draws = s.draws := rfl
@[simp] theorem State.lanternM_loc (s : State) (k i : Nat) (w : W64) : (s.lanternM k i w).mem.loc = s.mem.loc := rfl
@[simp] theorem State.lanternM_dram (s : State) (k i : Nat) (w : W64) : (s.lanternM k i w).mem.dram = s.mem.dram := rfl
@[simp] theorem State.lanternM_host (s : State) (k i : Nat) (w : W64) : (s.lanternM k i w).mem.host = s.mem.host := rfl
@[simp] theorem State.lanternM_wtab (s : State) (k i : Nat) (w : W64) : (s.lanternM k i w).mem.wtab = s.mem.wtab := rfl

@[simp] theorem State.setLine_regs (s : State) (c : Nat) (t : Timeline) : (s.setLine c t).regs = s.regs := rfl
@[simp] theorem State.setLine_tiles (s : State) (c : Nat) (t : Timeline) : (s.setLine c t).tiles = s.tiles := rfl
@[simp] theorem State.setLine_ctl (s : State) (c : Nat) (t : Timeline) : (s.setLine c t).ctl = s.ctl := rfl
@[simp] theorem State.setLine_stream (s : State) (c : Nat) (t : Timeline) : (s.setLine c t).stream = s.stream := rfl
@[simp] theorem State.setLine_eng (s : State) (c : Nat) (t : Timeline) : (s.setLine c t).eng = s.eng := rfl
@[simp] theorem State.setLine_mem (s : State) (c : Nat) (t : Timeline) : (s.setLine c t).mem = s.mem := rfl
@[simp] theorem State.setLine_ports (s : State) (c : Nat) (t : Timeline) : (s.setLine c t).ports = s.ports := rfl
@[simp] theorem State.setLine_pkg (s : State) (c : Nat) (t : Timeline) : (s.setLine c t).pkg = s.pkg := rfl
@[simp] theorem State.setLine_late (s : State) (c : Nat) (t : Timeline) : (s.setLine c t).late = s.late := rfl
@[simp] theorem State.setLine_arrived (s : State) (c : Nat) (t : Timeline) : (s.setLine c t).arrived = s.arrived := rfl
@[simp] theorem State.setLine_begun (s : State) (c : Nat) (t : Timeline) : (s.setLine c t).begun = s.begun := rfl
@[simp] theorem State.setLine_inputs (s : State) (c : Nat) (t : Timeline) : (s.setLine c t).inputs = s.inputs := rfl
@[simp] theorem State.setLine_arg (s : State) (c : Nat) (t : Timeline) : (s.setLine c t).arg = s.arg := rfl
@[simp] theorem State.setLine_now (s : State) (c : Nat) (t : Timeline) : (s.setLine c t).now = s.now := rfl
@[simp] theorem State.setLine_refillClk (s : State) (c : Nat) (t : Timeline) :
    (s.setLine c t).refillClk = s.refillClk := rfl
@[simp] theorem State.setLine_draws (s : State) (c : Nat) (t : Timeline) : (s.setLine c t).draws = s.draws := rfl
@[simp] theorem State.setLine_lines (s : State) (c : Nat) (t : Timeline) : (s.setLine c t).lines = vset s.lines c t := rfl

@[simp] theorem State.setPort_regs (s : State) (d : Nat) (p : Port) : (s.setPort d p).regs = s.regs := rfl
@[simp] theorem State.setPort_tiles (s : State) (d : Nat) (p : Port) : (s.setPort d p).tiles = s.tiles := rfl
@[simp] theorem State.setPort_ctl (s : State) (d : Nat) (p : Port) : (s.setPort d p).ctl = s.ctl := rfl
@[simp] theorem State.setPort_stream (s : State) (d : Nat) (p : Port) : (s.setPort d p).stream = s.stream := rfl
@[simp] theorem State.setPort_lines (s : State) (d : Nat) (p : Port) : (s.setPort d p).lines = s.lines := rfl
@[simp] theorem State.setPort_eng (s : State) (d : Nat) (p : Port) : (s.setPort d p).eng = s.eng := rfl
@[simp] theorem State.setPort_mem (s : State) (d : Nat) (p : Port) : (s.setPort d p).mem = s.mem := rfl
@[simp] theorem State.setPort_pkg (s : State) (d : Nat) (p : Port) : (s.setPort d p).pkg = s.pkg := rfl
@[simp] theorem State.setPort_late (s : State) (d : Nat) (p : Port) : (s.setPort d p).late = s.late := rfl
@[simp] theorem State.setPort_arrived (s : State) (d : Nat) (p : Port) : (s.setPort d p).arrived = s.arrived := rfl
@[simp] theorem State.setPort_begun (s : State) (d : Nat) (p : Port) : (s.setPort d p).begun = s.begun := rfl
@[simp] theorem State.setPort_inputs (s : State) (d : Nat) (p : Port) : (s.setPort d p).inputs = s.inputs := rfl
@[simp] theorem State.setPort_arg (s : State) (d : Nat) (p : Port) : (s.setPort d p).arg = s.arg := rfl
@[simp] theorem State.setPort_now (s : State) (d : Nat) (p : Port) : (s.setPort d p).now = s.now := rfl
@[simp] theorem State.setPort_refillClk (s : State) (d : Nat) (p : Port) : (s.setPort d p).refillClk = s.refillClk := rfl
@[simp] theorem State.setPort_draws (s : State) (d : Nat) (p : Port) : (s.setPort d p).draws = s.draws := rfl
@[simp] theorem State.setPort_ports (s : State) (d : Nat) (p : Port) : (s.setPort d p).ports = vset s.ports d p := rfl

@[simp] theorem State.setTenant_regs (s : State) (t : Nat) (x : Tenant) : (s.setTenant t x).regs = s.regs := rfl
@[simp] theorem State.setTenant_tiles (s : State) (t : Nat) (x : Tenant) : (s.setTenant t x).tiles = s.tiles := rfl
@[simp] theorem State.setTenant_ctl (s : State) (t : Nat) (x : Tenant) : (s.setTenant t x).ctl = s.ctl := rfl
@[simp] theorem State.setTenant_stream (s : State) (t : Nat) (x : Tenant) : (s.setTenant t x).stream = s.stream := rfl
@[simp] theorem State.setTenant_lines (s : State) (t : Nat) (x : Tenant) : (s.setTenant t x).lines = s.lines := rfl
@[simp] theorem State.setTenant_eng (s : State) (t : Nat) (x : Tenant) : (s.setTenant t x).eng = s.eng := rfl
@[simp] theorem State.setTenant_mem (s : State) (t : Nat) (x : Tenant) : (s.setTenant t x).mem = s.mem := rfl
@[simp] theorem State.setTenant_ports (s : State) (t : Nat) (x : Tenant) : (s.setTenant t x).ports = s.ports := rfl
@[simp] theorem State.setTenant_late (s : State) (t : Nat) (x : Tenant) : (s.setTenant t x).late = s.late := rfl
@[simp] theorem State.setTenant_arrived (s : State) (t : Nat) (x : Tenant) : (s.setTenant t x).arrived = s.arrived := rfl
@[simp] theorem State.setTenant_begun (s : State) (t : Nat) (x : Tenant) : (s.setTenant t x).begun = s.begun := rfl
@[simp] theorem State.setTenant_inputs (s : State) (t : Nat) (x : Tenant) : (s.setTenant t x).inputs = s.inputs := rfl
@[simp] theorem State.setTenant_arg (s : State) (t : Nat) (x : Tenant) : (s.setTenant t x).arg = s.arg := rfl
@[simp] theorem State.setTenant_now (s : State) (t : Nat) (x : Tenant) : (s.setTenant t x).now = s.now := rfl
@[simp] theorem State.setTenant_refillClk (s : State) (t : Nat) (x : Tenant) :
    (s.setTenant t x).refillClk = s.refillClk := rfl
@[simp] theorem State.setTenant_draws (s : State) (t : Nat) (x : Tenant) : (s.setTenant t x).draws = s.draws := rfl
@[simp] theorem State.setTenant_tenants (s : State) (t : Nat) (x : Tenant) :
    (s.setTenant t x).pkg.tenants = vset s.pkg.tenants t x := rfl
@[simp] theorem State.setTenant_images (s : State) (t : Nat) (x : Tenant) :
    (s.setTenant t x).pkg.images = s.pkg.images := rfl
@[simp] theorem State.setTenant_queues (s : State) (t : Nat) (x : Tenant) :
    (s.setTenant t x).pkg.queues = s.pkg.queues := rfl
@[simp] theorem State.setTenant_jobs (s : State) (t : Nat) (x : Tenant) : (s.setTenant t x).pkg.jobs = s.pkg.jobs := rfl

@[simp] theorem State.answerWord_regs (s : State) (x : W64) : (s.answerWord x).regs = s.regs := rfl
@[simp] theorem State.answerWord_tiles (s : State) (x : W64) : (s.answerWord x).tiles = s.tiles := rfl
@[simp] theorem State.answerWord_ctl (s : State) (x : W64) : (s.answerWord x).ctl = s.ctl := rfl
@[simp] theorem State.answerWord_stream (s : State) (x : W64) : (s.answerWord x).stream = s.stream := rfl
@[simp] theorem State.answerWord_lines (s : State) (x : W64) : (s.answerWord x).lines = s.lines := rfl
@[simp] theorem State.answerWord_eng (s : State) (x : W64) : (s.answerWord x).eng = s.eng := rfl
@[simp] theorem State.answerWord_mem (s : State) (x : W64) : (s.answerWord x).mem = s.mem := rfl
@[simp] theorem State.answerWord_ports (s : State) (x : W64) : (s.answerWord x).ports = s.ports := rfl
@[simp] theorem State.answerWord_late (s : State) (x : W64) : (s.answerWord x).late = s.late := rfl
@[simp] theorem State.answerWord_arrived (s : State) (x : W64) : (s.answerWord x).arrived = s.arrived := rfl
@[simp] theorem State.answerWord_begun (s : State) (x : W64) : (s.answerWord x).begun = s.begun := rfl
@[simp] theorem State.answerWord_inputs (s : State) (x : W64) : (s.answerWord x).inputs = s.inputs := rfl
@[simp] theorem State.answerWord_arg (s : State) (x : W64) : (s.answerWord x).arg = s.arg := rfl
@[simp] theorem State.answerWord_now (s : State) (x : W64) : (s.answerWord x).now = s.now := rfl
@[simp] theorem State.answerWord_refillClk (s : State) (x : W64) : (s.answerWord x).refillClk = s.refillClk := rfl
@[simp] theorem State.answerWord_draws (s : State) (x : W64) : (s.answerWord x).draws = s.draws := rfl

@[simp] theorem State.setQueue_regs (s : State) (q : Nat) (x : HQueue) : (s.setQueue q x).regs = s.regs := rfl
@[simp] theorem State.setQueue_tiles (s : State) (q : Nat) (x : HQueue) : (s.setQueue q x).tiles = s.tiles := rfl
@[simp] theorem State.setQueue_ctl (s : State) (q : Nat) (x : HQueue) : (s.setQueue q x).ctl = s.ctl := rfl
@[simp] theorem State.setQueue_stream (s : State) (q : Nat) (x : HQueue) : (s.setQueue q x).stream = s.stream := rfl
@[simp] theorem State.setQueue_lines (s : State) (q : Nat) (x : HQueue) : (s.setQueue q x).lines = s.lines := rfl
@[simp] theorem State.setQueue_eng (s : State) (q : Nat) (x : HQueue) : (s.setQueue q x).eng = s.eng := rfl
@[simp] theorem State.setQueue_mem (s : State) (q : Nat) (x : HQueue) : (s.setQueue q x).mem = s.mem := rfl
@[simp] theorem State.setQueue_ports (s : State) (q : Nat) (x : HQueue) : (s.setQueue q x).ports = s.ports := rfl
@[simp] theorem State.setQueue_late (s : State) (q : Nat) (x : HQueue) : (s.setQueue q x).late = s.late := rfl
@[simp] theorem State.setQueue_arrived (s : State) (q : Nat) (x : HQueue) : (s.setQueue q x).arrived = s.arrived := rfl
@[simp] theorem State.setQueue_begun (s : State) (q : Nat) (x : HQueue) : (s.setQueue q x).begun = s.begun := rfl
@[simp] theorem State.setQueue_inputs (s : State) (q : Nat) (x : HQueue) : (s.setQueue q x).inputs = s.inputs := rfl
@[simp] theorem State.setQueue_arg (s : State) (q : Nat) (x : HQueue) : (s.setQueue q x).arg = s.arg := rfl
@[simp] theorem State.setQueue_now (s : State) (q : Nat) (x : HQueue) : (s.setQueue q x).now = s.now := rfl
@[simp] theorem State.setQueue_refillClk (s : State) (q : Nat) (x : HQueue) :
    (s.setQueue q x).refillClk = s.refillClk := rfl
@[simp] theorem State.setQueue_draws (s : State) (q : Nat) (x : HQueue) : (s.setQueue q x).draws = s.draws := rfl
@[simp] theorem State.setQueue_queues (s : State) (q : Nat) (x : HQueue) :
    (s.setQueue q x).pkg.queues = vset s.pkg.queues q x := rfl
@[simp] theorem State.setQueue_images (s : State) (q : Nat) (x : HQueue) : (s.setQueue q x).pkg.images = s.pkg.images := rfl
@[simp] theorem State.setQueue_tenants (s : State) (q : Nat) (x : HQueue) :
    (s.setQueue q x).pkg.tenants = s.pkg.tenants := rfl
@[simp] theorem State.setQueue_jobs (s : State) (q : Nat) (x : HQueue) : (s.setQueue q x).pkg.jobs = s.pkg.jobs := rfl

@[simp] theorem State.setXq_regs (s : State) (q : Nat) (x : XQueue) : (s.setXq q x).regs = s.regs := rfl
@[simp] theorem State.setXq_tiles (s : State) (q : Nat) (x : XQueue) : (s.setXq q x).tiles = s.tiles := rfl
@[simp] theorem State.setXq_ctl (s : State) (q : Nat) (x : XQueue) : (s.setXq q x).ctl = s.ctl := rfl
@[simp] theorem State.setXq_stream (s : State) (q : Nat) (x : XQueue) : (s.setXq q x).stream = s.stream := rfl
@[simp] theorem State.setXq_lines (s : State) (q : Nat) (x : XQueue) : (s.setXq q x).lines = s.lines := rfl
@[simp] theorem State.setXq_mem (s : State) (q : Nat) (x : XQueue) : (s.setXq q x).mem = s.mem := rfl
@[simp] theorem State.setXq_ports (s : State) (q : Nat) (x : XQueue) : (s.setXq q x).ports = s.ports := rfl
@[simp] theorem State.setXq_pkg (s : State) (q : Nat) (x : XQueue) : (s.setXq q x).pkg = s.pkg := rfl
@[simp] theorem State.setXq_late (s : State) (q : Nat) (x : XQueue) : (s.setXq q x).late = s.late := rfl
@[simp] theorem State.setXq_arrived (s : State) (q : Nat) (x : XQueue) : (s.setXq q x).arrived = s.arrived := rfl
@[simp] theorem State.setXq_begun (s : State) (q : Nat) (x : XQueue) : (s.setXq q x).begun = s.begun := rfl
@[simp] theorem State.setXq_inputs (s : State) (q : Nat) (x : XQueue) : (s.setXq q x).inputs = s.inputs := rfl
@[simp] theorem State.setXq_arg (s : State) (q : Nat) (x : XQueue) : (s.setXq q x).arg = s.arg := rfl
@[simp] theorem State.setXq_now (s : State) (q : Nat) (x : XQueue) : (s.setXq q x).now = s.now := rfl
@[simp] theorem State.setXq_refillClk (s : State) (q : Nat) (x : XQueue) : (s.setXq q x).refillClk = s.refillClk := rfl
@[simp] theorem State.setXq_draws (s : State) (q : Nat) (x : XQueue) : (s.setXq q x).draws = s.draws := rfl

@[simp] theorem State.postMatrix_regs (s : State) (op : MatOp) (h : BitVec 24) (q : W64) :
    (s.postMatrix op h q).regs = s.regs := rfl
@[simp] theorem State.postMatrix_tiles (s : State) (op : MatOp) (h : BitVec 24) (q : W64) :
    (s.postMatrix op h q).tiles = s.tiles := rfl
@[simp] theorem State.postMatrix_ctl (s : State) (op : MatOp) (h : BitVec 24) (q : W64) :
    (s.postMatrix op h q).ctl = s.ctl := rfl
@[simp] theorem State.postMatrix_stream (s : State) (op : MatOp) (h : BitVec 24) (q : W64) :
    (s.postMatrix op h q).stream = s.stream := rfl
@[simp] theorem State.postMatrix_mem (s : State) (op : MatOp) (h : BitVec 24) (q : W64) :
    (s.postMatrix op h q).mem = s.mem := rfl
@[simp] theorem State.postMatrix_ports (s : State) (op : MatOp) (h : BitVec 24) (q : W64) :
    (s.postMatrix op h q).ports = s.ports := rfl
@[simp] theorem State.postMatrix_pkg (s : State) (op : MatOp) (h : BitVec 24) (q : W64) :
    (s.postMatrix op h q).pkg = s.pkg := rfl
@[simp] theorem State.postMatrix_late (s : State) (op : MatOp) (h : BitVec 24) (q : W64) :
    (s.postMatrix op h q).late = s.late := rfl
@[simp] theorem State.postMatrix_arrived (s : State) (op : MatOp) (h : BitVec 24) (q : W64) :
    (s.postMatrix op h q).arrived = s.arrived := rfl
@[simp] theorem State.postMatrix_begun (s : State) (op : MatOp) (h : BitVec 24) (q : W64) :
    (s.postMatrix op h q).begun = s.begun := rfl
@[simp] theorem State.postMatrix_inputs (s : State) (op : MatOp) (h : BitVec 24) (q : W64) :
    (s.postMatrix op h q).inputs = s.inputs := rfl
@[simp] theorem State.postMatrix_arg (s : State) (op : MatOp) (h : BitVec 24) (q : W64) :
    (s.postMatrix op h q).arg = s.arg := rfl
@[simp] theorem State.postMatrix_now (s : State) (op : MatOp) (h : BitVec 24) (q : W64) :
    (s.postMatrix op h q).now = s.now := rfl
@[simp] theorem State.postMatrix_refillClk (s : State) (op : MatOp) (h : BitVec 24) (q : W64) :
    (s.postMatrix op h q).refillClk = s.refillClk := rfl
@[simp] theorem State.postMatrix_draws (s : State) (op : MatOp) (h : BitVec 24) (q : W64) :
    (s.postMatrix op h q).draws = s.draws := rfl

@[simp] theorem State.postW_regs (s : State) (op : WalkOp) : (s.postW op).regs = s.regs := rfl
@[simp] theorem State.postW_tiles (s : State) (op : WalkOp) : (s.postW op).tiles = s.tiles := rfl
@[simp] theorem State.postW_ctl (s : State) (op : WalkOp) : (s.postW op).ctl = s.ctl := rfl
@[simp] theorem State.postW_stream (s : State) (op : WalkOp) : (s.postW op).stream = s.stream := rfl
@[simp] theorem State.postW_mem (s : State) (op : WalkOp) : (s.postW op).mem = s.mem := rfl
@[simp] theorem State.postW_ports (s : State) (op : WalkOp) : (s.postW op).ports = s.ports := rfl
@[simp] theorem State.postW_pkg (s : State) (op : WalkOp) : (s.postW op).pkg = s.pkg := rfl
@[simp] theorem State.postW_late (s : State) (op : WalkOp) : (s.postW op).late = s.late := rfl
@[simp] theorem State.postW_arrived (s : State) (op : WalkOp) : (s.postW op).arrived = s.arrived := rfl
@[simp] theorem State.postW_begun (s : State) (op : WalkOp) : (s.postW op).begun = s.begun := rfl
@[simp] theorem State.postW_inputs (s : State) (op : WalkOp) : (s.postW op).inputs = s.inputs := rfl
@[simp] theorem State.postW_arg (s : State) (op : WalkOp) : (s.postW op).arg = s.arg := rfl
@[simp] theorem State.postW_now (s : State) (op : WalkOp) : (s.postW op).now = s.now := rfl
@[simp] theorem State.postW_refillClk (s : State) (op : WalkOp) : (s.postW op).refillClk = s.refillClk := rfl
@[simp] theorem State.postW_draws (s : State) (op : WalkOp) : (s.postW op).draws = s.draws := rfl

@[simp] theorem State.postChain_regs (s : State) (op : ChainOp) : (s.postChain op).regs = s.regs := rfl
@[simp] theorem State.postChain_tiles (s : State) (op : ChainOp) : (s.postChain op).tiles = s.tiles := rfl
@[simp] theorem State.postChain_ctl (s : State) (op : ChainOp) : (s.postChain op).ctl = s.ctl := rfl
@[simp] theorem State.postChain_stream (s : State) (op : ChainOp) : (s.postChain op).stream = s.stream := rfl
@[simp] theorem State.postChain_mem (s : State) (op : ChainOp) : (s.postChain op).mem = s.mem := rfl
@[simp] theorem State.postChain_ports (s : State) (op : ChainOp) : (s.postChain op).ports = s.ports := rfl
@[simp] theorem State.postChain_pkg (s : State) (op : ChainOp) : (s.postChain op).pkg = s.pkg := rfl
@[simp] theorem State.postChain_late (s : State) (op : ChainOp) : (s.postChain op).late = s.late := rfl
@[simp] theorem State.postChain_arrived (s : State) (op : ChainOp) : (s.postChain op).arrived = s.arrived := rfl
@[simp] theorem State.postChain_begun (s : State) (op : ChainOp) : (s.postChain op).begun = s.begun := rfl
@[simp] theorem State.postChain_inputs (s : State) (op : ChainOp) : (s.postChain op).inputs = s.inputs := rfl
@[simp] theorem State.postChain_arg (s : State) (op : ChainOp) : (s.postChain op).arg = s.arg := rfl
@[simp] theorem State.postChain_now (s : State) (op : ChainOp) : (s.postChain op).now = s.now := rfl
@[simp] theorem State.postChain_refillClk (s : State) (op : ChainOp) : (s.postChain op).refillClk = s.refillClk := rfl
@[simp] theorem State.postChain_draws (s : State) (op : ChainOp) : (s.postChain op).draws = s.draws := rfl

@[simp] theorem State.postX_regs (s : State) (q : Nat) (hs : List HalfSpec) (c : Option Combine) (d : Nat) (t : Option (Nat × Nat)) (b : Bool) :
    ((s.postX q hs c d t b).1).regs = s.regs := rfl
@[simp] theorem State.postX_tiles (s : State) (q : Nat) (hs : List HalfSpec) (c : Option Combine) (d : Nat) (t : Option (Nat × Nat)) (b : Bool) :
    ((s.postX q hs c d t b).1).tiles = s.tiles := rfl
@[simp] theorem State.postX_ctl (s : State) (q : Nat) (hs : List HalfSpec) (c : Option Combine) (d : Nat) (t : Option (Nat × Nat)) (b : Bool) :
    ((s.postX q hs c d t b).1).ctl = s.ctl := rfl
@[simp] theorem State.postX_stream (s : State) (q : Nat) (hs : List HalfSpec) (c : Option Combine) (d : Nat) (t : Option (Nat × Nat)) (b : Bool) :
    ((s.postX q hs c d t b).1).stream = s.stream := rfl
@[simp] theorem State.postX_mem (s : State) (q : Nat) (hs : List HalfSpec) (c : Option Combine) (d : Nat) (t : Option (Nat × Nat)) (b : Bool) :
    ((s.postX q hs c d t b).1).mem = s.mem := rfl
@[simp] theorem State.postX_ports (s : State) (q : Nat) (hs : List HalfSpec) (c : Option Combine) (d : Nat) (t : Option (Nat × Nat)) (b : Bool) :
    ((s.postX q hs c d t b).1).ports = s.ports := rfl
@[simp] theorem State.postX_pkg (s : State) (q : Nat) (hs : List HalfSpec) (c : Option Combine) (d : Nat) (t : Option (Nat × Nat)) (b : Bool) :
    ((s.postX q hs c d t b).1).pkg = s.pkg := rfl
@[simp] theorem State.postX_late (s : State) (q : Nat) (hs : List HalfSpec) (c : Option Combine) (d : Nat) (t : Option (Nat × Nat)) (b : Bool) :
    ((s.postX q hs c d t b).1).late = s.late := rfl
@[simp] theorem State.postX_arrived (s : State) (q : Nat) (hs : List HalfSpec) (c : Option Combine) (d : Nat) (t : Option (Nat × Nat)) (b : Bool) :
    ((s.postX q hs c d t b).1).arrived = s.arrived := rfl
@[simp] theorem State.postX_begun (s : State) (q : Nat) (hs : List HalfSpec) (c : Option Combine) (d : Nat) (t : Option (Nat × Nat)) (b : Bool) :
    ((s.postX q hs c d t b).1).begun = s.begun := rfl
@[simp] theorem State.postX_inputs (s : State) (q : Nat) (hs : List HalfSpec) (c : Option Combine) (d : Nat) (t : Option (Nat × Nat)) (b : Bool) :
    ((s.postX q hs c d t b).1).inputs = s.inputs := rfl
@[simp] theorem State.postX_arg (s : State) (q : Nat) (hs : List HalfSpec) (c : Option Combine) (d : Nat) (t : Option (Nat × Nat)) (b : Bool) :
    ((s.postX q hs c d t b).1).arg = s.arg := rfl
@[simp] theorem State.postX_now (s : State) (q : Nat) (hs : List HalfSpec) (c : Option Combine) (d : Nat) (t : Option (Nat × Nat)) (b : Bool) :
    ((s.postX q hs c d t b).1).now = s.now := rfl
@[simp] theorem State.postX_refillClk (s : State) (q : Nat) (hs : List HalfSpec) (c : Option Combine) (d : Nat) (t : Option (Nat × Nat)) (b : Bool) :
    ((s.postX q hs c d t b).1).refillClk = s.refillClk := rfl
@[simp] theorem State.postX_draws (s : State) (q : Nat) (hs : List HalfSpec) (c : Option Combine) (d : Nat) (t : Option (Nat × Nat)) (b : Bool) :
    ((s.postX q hs c d t b).1).draws = s.draws := rfl

@[simp] theorem State.setRowQ_regs (s : State) (i : Nat) (q : RowQueue) : (s.setRowQ i q).regs = s.regs := rfl
@[simp] theorem State.setRowQ_tiles (s : State) (i : Nat) (q : RowQueue) : (s.setRowQ i q).tiles = s.tiles := rfl
@[simp] theorem State.setRowQ_ctl (s : State) (i : Nat) (q : RowQueue) : (s.setRowQ i q).ctl = s.ctl := rfl
@[simp] theorem State.setRowQ_stream (s : State) (i : Nat) (q : RowQueue) : (s.setRowQ i q).stream = s.stream := rfl
@[simp] theorem State.setRowQ_lines (s : State) (i : Nat) (q : RowQueue) : (s.setRowQ i q).lines = s.lines := rfl
@[simp] theorem State.setRowQ_mem (s : State) (i : Nat) (q : RowQueue) : (s.setRowQ i q).mem = s.mem := rfl
@[simp] theorem State.setRowQ_ports (s : State) (i : Nat) (q : RowQueue) : (s.setRowQ i q).ports = s.ports := rfl
@[simp] theorem State.setRowQ_pkg (s : State) (i : Nat) (q : RowQueue) : (s.setRowQ i q).pkg = s.pkg := rfl
@[simp] theorem State.setRowQ_late (s : State) (i : Nat) (q : RowQueue) : (s.setRowQ i q).late = s.late := rfl
@[simp] theorem State.setRowQ_arrived (s : State) (i : Nat) (q : RowQueue) : (s.setRowQ i q).arrived = s.arrived := rfl
@[simp] theorem State.setRowQ_begun (s : State) (i : Nat) (q : RowQueue) : (s.setRowQ i q).begun = s.begun := rfl
@[simp] theorem State.setRowQ_inputs (s : State) (i : Nat) (q : RowQueue) : (s.setRowQ i q).inputs = s.inputs := rfl
@[simp] theorem State.setRowQ_arg (s : State) (i : Nat) (q : RowQueue) : (s.setRowQ i q).arg = s.arg := rfl
@[simp] theorem State.setRowQ_now (s : State) (i : Nat) (q : RowQueue) : (s.setRowQ i q).now = s.now := rfl
@[simp] theorem State.setRowQ_refillClk (s : State) (i : Nat) (q : RowQueue) :
    (s.setRowQ i q).refillClk = s.refillClk := rfl
@[simp] theorem State.setRowQ_draws (s : State) (i : Nat) (q : RowQueue) : (s.setRowQ i q).draws = s.draws := rfl
@[simp] theorem State.setRowQ_rows (s : State) (i : Nat) (q : RowQueue) :
    (s.setRowQ i q).eng.rows = vset s.eng.rows i q := rfl
@[simp] theorem State.setRowQ_newRows (s : State) (i : Nat) (q : RowQueue) :
    (s.setRowQ i q).eng.newRows = s.eng.newRows := rfl
@[simp] theorem State.setRowQ_partly (s : State) (i : Nat) (q : RowQueue) : (s.setRowQ i q).eng.partly = s.eng.partly := rfl
@[simp] theorem State.setRowQ_rowParts (s : State) (i : Nat) (q : RowQueue) :
    (s.setRowQ i q).eng.rowParts = s.eng.rowParts := rfl

@[simp] theorem State.mapCopy_regs (s : State) (i n : Nat) (f : CopyCmd → CopyCmd) : (s.mapCopy i n f).regs = s.regs := rfl
@[simp] theorem State.mapCopy_tiles (s : State) (i n : Nat) (f : CopyCmd → CopyCmd) :
    (s.mapCopy i n f).tiles = s.tiles := rfl
@[simp] theorem State.mapCopy_ctl (s : State) (i n : Nat) (f : CopyCmd → CopyCmd) : (s.mapCopy i n f).ctl = s.ctl := rfl
@[simp] theorem State.mapCopy_stream (s : State) (i n : Nat) (f : CopyCmd → CopyCmd) :
    (s.mapCopy i n f).stream = s.stream := rfl
@[simp] theorem State.mapCopy_lines (s : State) (i n : Nat) (f : CopyCmd → CopyCmd) :
    (s.mapCopy i n f).lines = s.lines := rfl
@[simp] theorem State.mapCopy_mem (s : State) (i n : Nat) (f : CopyCmd → CopyCmd) : (s.mapCopy i n f).mem = s.mem := rfl
@[simp] theorem State.mapCopy_ports (s : State) (i n : Nat) (f : CopyCmd → CopyCmd) :
    (s.mapCopy i n f).ports = s.ports := rfl
@[simp] theorem State.mapCopy_pkg (s : State) (i n : Nat) (f : CopyCmd → CopyCmd) : (s.mapCopy i n f).pkg = s.pkg := rfl
@[simp] theorem State.mapCopy_late (s : State) (i n : Nat) (f : CopyCmd → CopyCmd) : (s.mapCopy i n f).late = s.late := rfl
@[simp] theorem State.mapCopy_arrived (s : State) (i n : Nat) (f : CopyCmd → CopyCmd) :
    (s.mapCopy i n f).arrived = s.arrived := rfl
@[simp] theorem State.mapCopy_begun (s : State) (i n : Nat) (f : CopyCmd → CopyCmd) :
    (s.mapCopy i n f).begun = s.begun := rfl
@[simp] theorem State.mapCopy_inputs (s : State) (i n : Nat) (f : CopyCmd → CopyCmd) :
    (s.mapCopy i n f).inputs = s.inputs := rfl
@[simp] theorem State.mapCopy_arg (s : State) (i n : Nat) (f : CopyCmd → CopyCmd) : (s.mapCopy i n f).arg = s.arg := rfl
@[simp] theorem State.mapCopy_now (s : State) (i n : Nat) (f : CopyCmd → CopyCmd) : (s.mapCopy i n f).now = s.now := rfl
@[simp] theorem State.mapCopy_refillClk (s : State) (i n : Nat) (f : CopyCmd → CopyCmd) :
    (s.mapCopy i n f).refillClk = s.refillClk := rfl
@[simp] theorem State.mapCopy_draws (s : State) (i n : Nat) (f : CopyCmd → CopyCmd) :
    (s.mapCopy i n f).draws = s.draws := rfl

@[simp] theorem State.lessAcks_regs (s : State) (i n : Nat) : (s.lessAcks i n).regs = s.regs := rfl
@[simp] theorem State.lessAcks_tiles (s : State) (i n : Nat) : (s.lessAcks i n).tiles = s.tiles := rfl
@[simp] theorem State.lessAcks_ctl (s : State) (i n : Nat) : (s.lessAcks i n).ctl = s.ctl := rfl
@[simp] theorem State.lessAcks_stream (s : State) (i n : Nat) : (s.lessAcks i n).stream = s.stream := rfl
@[simp] theorem State.lessAcks_lines (s : State) (i n : Nat) : (s.lessAcks i n).lines = s.lines := rfl
@[simp] theorem State.lessAcks_mem (s : State) (i n : Nat) : (s.lessAcks i n).mem = s.mem := rfl
@[simp] theorem State.lessAcks_ports (s : State) (i n : Nat) : (s.lessAcks i n).ports = s.ports := rfl
@[simp] theorem State.lessAcks_pkg (s : State) (i n : Nat) : (s.lessAcks i n).pkg = s.pkg := rfl
@[simp] theorem State.lessAcks_late (s : State) (i n : Nat) : (s.lessAcks i n).late = s.late := rfl
@[simp] theorem State.lessAcks_arrived (s : State) (i n : Nat) : (s.lessAcks i n).arrived = s.arrived := rfl
@[simp] theorem State.lessAcks_begun (s : State) (i n : Nat) : (s.lessAcks i n).begun = s.begun := rfl
@[simp] theorem State.lessAcks_inputs (s : State) (i n : Nat) : (s.lessAcks i n).inputs = s.inputs := rfl
@[simp] theorem State.lessAcks_arg (s : State) (i n : Nat) : (s.lessAcks i n).arg = s.arg := rfl
@[simp] theorem State.lessAcks_now (s : State) (i n : Nat) : (s.lessAcks i n).now = s.now := rfl
@[simp] theorem State.lessAcks_refillClk (s : State) (i n : Nat) : (s.lessAcks i n).refillClk = s.refillClk := rfl
@[simp] theorem State.lessAcks_draws (s : State) (i n : Nat) : (s.lessAcks i n).draws = s.draws := rfl

@[simp] theorem State.startTileOp_regs (s : State) (k : TileKind) (h : BitVec 24) : (s.startTileOp k h).regs = s.regs := rfl
@[simp] theorem State.startTileOp_tiles (s : State) (k : TileKind) (h : BitVec 24) :
    (s.startTileOp k h).tiles = s.tiles := rfl
@[simp] theorem State.startTileOp_ctl (s : State) (k : TileKind) (h : BitVec 24) : (s.startTileOp k h).ctl = s.ctl := rfl
@[simp] theorem State.startTileOp_lines (s : State) (k : TileKind) (h : BitVec 24) :
    (s.startTileOp k h).lines = s.lines := rfl
@[simp] theorem State.startTileOp_eng (s : State) (k : TileKind) (h : BitVec 24) : (s.startTileOp k h).eng = s.eng := rfl
@[simp] theorem State.startTileOp_mem (s : State) (k : TileKind) (h : BitVec 24) : (s.startTileOp k h).mem = s.mem := rfl
@[simp] theorem State.startTileOp_ports (s : State) (k : TileKind) (h : BitVec 24) :
    (s.startTileOp k h).ports = s.ports := rfl
@[simp] theorem State.startTileOp_pkg (s : State) (k : TileKind) (h : BitVec 24) : (s.startTileOp k h).pkg = s.pkg := rfl
@[simp] theorem State.startTileOp_late (s : State) (k : TileKind) (h : BitVec 24) : (s.startTileOp k h).late = s.late := rfl
@[simp] theorem State.startTileOp_arrived (s : State) (k : TileKind) (h : BitVec 24) :
    (s.startTileOp k h).arrived = s.arrived := rfl
@[simp] theorem State.startTileOp_begun (s : State) (k : TileKind) (h : BitVec 24) :
    (s.startTileOp k h).begun = s.begun := rfl
@[simp] theorem State.startTileOp_inputs (s : State) (k : TileKind) (h : BitVec 24) :
    (s.startTileOp k h).inputs = s.inputs := rfl
@[simp] theorem State.startTileOp_arg (s : State) (k : TileKind) (h : BitVec 24) : (s.startTileOp k h).arg = s.arg := rfl
@[simp] theorem State.startTileOp_now (s : State) (k : TileKind) (h : BitVec 24) : (s.startTileOp k h).now = s.now := rfl
@[simp] theorem State.startTileOp_refillClk (s : State) (k : TileKind) (h : BitVec 24) :
    (s.startTileOp k h).refillClk = s.refillClk := rfl
@[simp] theorem State.startTileOp_draws (s : State) (k : TileKind) (h : BitVec 24) :
    (s.startTileOp k h).draws = s.draws := rfl
@[simp] theorem State.startTileOp_stream_tileOps (s : State) (k : TileKind) (h : BitVec 24) :
    (s.startTileOp k h).stream.tileOps = s.stream.tileOps ++ [{ kind := k, shape := h, seq := s.stream.seq }] := rfl
@[simp] theorem State.startTileOp_stream_pc (s : State) (k : TileKind) (h : BitVec 24) :
    (s.startTileOp k h).stream.pc = s.stream.pc := rfl
@[simp] theorem State.startTileOp_stream_mode (s : State) (k : TileKind) (h : BitVec 24) :
    (s.startTileOp k h).stream.mode = s.stream.mode := rfl
@[simp] theorem State.startTileOp_stream_results (s : State) (k : TileKind) (h : BitVec 24) :
    (s.startTileOp k h).stream.results = s.stream.results := rfl

@[simp] theorem State.mapWalk_regs (s : State) (n : Nat) (f : WCmd → WCmd) : (s.mapWalk n f).regs = s.regs := rfl
@[simp] theorem State.mapWalk_tiles (s : State) (n : Nat) (f : WCmd → WCmd) : (s.mapWalk n f).tiles = s.tiles := rfl
@[simp] theorem State.mapWalk_ctl (s : State) (n : Nat) (f : WCmd → WCmd) : (s.mapWalk n f).ctl = s.ctl := rfl
@[simp] theorem State.mapWalk_stream (s : State) (n : Nat) (f : WCmd → WCmd) : (s.mapWalk n f).stream = s.stream := rfl
@[simp] theorem State.mapWalk_lines (s : State) (n : Nat) (f : WCmd → WCmd) : (s.mapWalk n f).lines = s.lines := rfl
@[simp] theorem State.mapWalk_mem (s : State) (n : Nat) (f : WCmd → WCmd) : (s.mapWalk n f).mem = s.mem := rfl
@[simp] theorem State.mapWalk_ports (s : State) (n : Nat) (f : WCmd → WCmd) : (s.mapWalk n f).ports = s.ports := rfl
@[simp] theorem State.mapWalk_pkg (s : State) (n : Nat) (f : WCmd → WCmd) : (s.mapWalk n f).pkg = s.pkg := rfl
@[simp] theorem State.mapWalk_late (s : State) (n : Nat) (f : WCmd → WCmd) : (s.mapWalk n f).late = s.late := rfl
@[simp] theorem State.mapWalk_arrived (s : State) (n : Nat) (f : WCmd → WCmd) : (s.mapWalk n f).arrived = s.arrived := rfl
@[simp] theorem State.mapWalk_begun (s : State) (n : Nat) (f : WCmd → WCmd) : (s.mapWalk n f).begun = s.begun := rfl
@[simp] theorem State.mapWalk_inputs (s : State) (n : Nat) (f : WCmd → WCmd) : (s.mapWalk n f).inputs = s.inputs := rfl
@[simp] theorem State.mapWalk_arg (s : State) (n : Nat) (f : WCmd → WCmd) : (s.mapWalk n f).arg = s.arg := rfl
@[simp] theorem State.mapWalk_now (s : State) (n : Nat) (f : WCmd → WCmd) : (s.mapWalk n f).now = s.now := rfl
@[simp] theorem State.mapWalk_refillClk (s : State) (n : Nat) (f : WCmd → WCmd) :
    (s.mapWalk n f).refillClk = s.refillClk := rfl
@[simp] theorem State.mapWalk_draws (s : State) (n : Nat) (f : WCmd → WCmd) : (s.mapWalk n f).draws = s.draws := rfl

@[simp] theorem State.mapCh_regs (s : State) (n : Nat) (f : ChCmd → ChCmd) : (s.mapCh n f).regs = s.regs := rfl
@[simp] theorem State.mapCh_tiles (s : State) (n : Nat) (f : ChCmd → ChCmd) : (s.mapCh n f).tiles = s.tiles := rfl
@[simp] theorem State.mapCh_ctl (s : State) (n : Nat) (f : ChCmd → ChCmd) : (s.mapCh n f).ctl = s.ctl := rfl
@[simp] theorem State.mapCh_stream (s : State) (n : Nat) (f : ChCmd → ChCmd) : (s.mapCh n f).stream = s.stream := rfl
@[simp] theorem State.mapCh_lines (s : State) (n : Nat) (f : ChCmd → ChCmd) : (s.mapCh n f).lines = s.lines := rfl
@[simp] theorem State.mapCh_mem (s : State) (n : Nat) (f : ChCmd → ChCmd) : (s.mapCh n f).mem = s.mem := rfl
@[simp] theorem State.mapCh_ports (s : State) (n : Nat) (f : ChCmd → ChCmd) : (s.mapCh n f).ports = s.ports := rfl
@[simp] theorem State.mapCh_pkg (s : State) (n : Nat) (f : ChCmd → ChCmd) : (s.mapCh n f).pkg = s.pkg := rfl
@[simp] theorem State.mapCh_late (s : State) (n : Nat) (f : ChCmd → ChCmd) : (s.mapCh n f).late = s.late := rfl
@[simp] theorem State.mapCh_arrived (s : State) (n : Nat) (f : ChCmd → ChCmd) : (s.mapCh n f).arrived = s.arrived := rfl
@[simp] theorem State.mapCh_begun (s : State) (n : Nat) (f : ChCmd → ChCmd) : (s.mapCh n f).begun = s.begun := rfl
@[simp] theorem State.mapCh_inputs (s : State) (n : Nat) (f : ChCmd → ChCmd) : (s.mapCh n f).inputs = s.inputs := rfl
@[simp] theorem State.mapCh_arg (s : State) (n : Nat) (f : ChCmd → ChCmd) : (s.mapCh n f).arg = s.arg := rfl
@[simp] theorem State.mapCh_now (s : State) (n : Nat) (f : ChCmd → ChCmd) : (s.mapCh n f).now = s.now := rfl
@[simp] theorem State.mapCh_refillClk (s : State) (n : Nat) (f : ChCmd → ChCmd) :
    (s.mapCh n f).refillClk = s.refillClk := rfl
@[simp] theorem State.mapCh_draws (s : State) (n : Nat) (f : ChCmd → ChCmd) : (s.mapCh n f).draws = s.draws := rfl

@[simp] theorem State.mapTask_regs (s : State) (n : Nat) (f : Task → Task) : (s.mapTask n f).regs = s.regs := rfl
@[simp] theorem State.mapTask_tiles (s : State) (n : Nat) (f : Task → Task) : (s.mapTask n f).tiles = s.tiles := rfl
@[simp] theorem State.mapTask_ctl (s : State) (n : Nat) (f : Task → Task) : (s.mapTask n f).ctl = s.ctl := rfl
@[simp] theorem State.mapTask_stream (s : State) (n : Nat) (f : Task → Task) : (s.mapTask n f).stream = s.stream := rfl
@[simp] theorem State.mapTask_lines (s : State) (n : Nat) (f : Task → Task) : (s.mapTask n f).lines = s.lines := rfl
@[simp] theorem State.mapTask_mem (s : State) (n : Nat) (f : Task → Task) : (s.mapTask n f).mem = s.mem := rfl
@[simp] theorem State.mapTask_ports (s : State) (n : Nat) (f : Task → Task) : (s.mapTask n f).ports = s.ports := rfl
@[simp] theorem State.mapTask_pkg (s : State) (n : Nat) (f : Task → Task) : (s.mapTask n f).pkg = s.pkg := rfl
@[simp] theorem State.mapTask_late (s : State) (n : Nat) (f : Task → Task) : (s.mapTask n f).late = s.late := rfl
@[simp] theorem State.mapTask_arrived (s : State) (n : Nat) (f : Task → Task) : (s.mapTask n f).arrived = s.arrived := rfl
@[simp] theorem State.mapTask_begun (s : State) (n : Nat) (f : Task → Task) : (s.mapTask n f).begun = s.begun := rfl
@[simp] theorem State.mapTask_inputs (s : State) (n : Nat) (f : Task → Task) : (s.mapTask n f).inputs = s.inputs := rfl
@[simp] theorem State.mapTask_arg (s : State) (n : Nat) (f : Task → Task) : (s.mapTask n f).arg = s.arg := rfl
@[simp] theorem State.mapTask_now (s : State) (n : Nat) (f : Task → Task) : (s.mapTask n f).now = s.now := rfl
@[simp] theorem State.mapTask_refillClk (s : State) (n : Nat) (f : Task → Task) :
    (s.mapTask n f).refillClk = s.refillClk := rfl
@[simp] theorem State.mapTask_draws (s : State) (n : Nat) (f : Task → Task) : (s.mapTask n f).draws = s.draws := rfl

@[simp] theorem State.addOverflow_regs (s : State) (i n : Nat) : (s.addOverflow i n).regs = s.regs := rfl
@[simp] theorem State.addOverflow_tiles (s : State) (i n : Nat) : (s.addOverflow i n).tiles = s.tiles := rfl
@[simp] theorem State.addOverflow_ctl (s : State) (i n : Nat) : (s.addOverflow i n).ctl = s.ctl := rfl
@[simp] theorem State.addOverflow_stream (s : State) (i n : Nat) : (s.addOverflow i n).stream = s.stream := rfl
@[simp] theorem State.addOverflow_lines (s : State) (i n : Nat) : (s.addOverflow i n).lines = s.lines := rfl
@[simp] theorem State.addOverflow_eng (s : State) (i n : Nat) : (s.addOverflow i n).eng = s.eng := rfl
@[simp] theorem State.addOverflow_mem (s : State) (i n : Nat) : (s.addOverflow i n).mem = s.mem := rfl
@[simp] theorem State.addOverflow_ports (s : State) (i n : Nat) : (s.addOverflow i n).ports = s.ports := rfl
@[simp] theorem State.addOverflow_pkg (s : State) (i n : Nat) : (s.addOverflow i n).pkg = s.pkg := rfl
@[simp] theorem State.addOverflow_arrived (s : State) (i n : Nat) : (s.addOverflow i n).arrived = s.arrived := rfl
@[simp] theorem State.addOverflow_begun (s : State) (i n : Nat) : (s.addOverflow i n).begun = s.begun := rfl
@[simp] theorem State.addOverflow_inputs (s : State) (i n : Nat) : (s.addOverflow i n).inputs = s.inputs := rfl
@[simp] theorem State.addOverflow_arg (s : State) (i n : Nat) : (s.addOverflow i n).arg = s.arg := rfl
@[simp] theorem State.addOverflow_now (s : State) (i n : Nat) : (s.addOverflow i n).now = s.now := rfl
@[simp] theorem State.addOverflow_refillClk (s : State) (i n : Nat) : (s.addOverflow i n).refillClk = s.refillClk := rfl
@[simp] theorem State.addOverflow_draws (s : State) (i n : Nat) : (s.addOverflow i n).draws = s.draws := rfl
@[simp] theorem State.addOverflow_late_flags (s : State) (i n : Nat) : (s.addOverflow i n).late.flags = s.late.flags := rfl
@[simp] theorem State.addOverflow_late_sat (s : State) (i n : Nat) : (s.addOverflow i n).late.sat = s.late.sat := rfl
@[simp] theorem State.addOverflow_late_zovf (s : State) (i n : Nat) :
    (s.addOverflow i n).late.zovf = vset s.late.zovf i (satAdd32 (vget s.late.zovf i 0) n) := rfl

@[simp] theorem State.orLate_regs (s : State) (f : BitVec 6) (m : W16) : (s.orLate f m).regs = s.regs := rfl
@[simp] theorem State.orLate_tiles (s : State) (f : BitVec 6) (m : W16) : (s.orLate f m).tiles = s.tiles := rfl
@[simp] theorem State.orLate_ctl (s : State) (f : BitVec 6) (m : W16) : (s.orLate f m).ctl = s.ctl := rfl
@[simp] theorem State.orLate_stream (s : State) (f : BitVec 6) (m : W16) : (s.orLate f m).stream = s.stream := rfl
@[simp] theorem State.orLate_lines (s : State) (f : BitVec 6) (m : W16) : (s.orLate f m).lines = s.lines := rfl
@[simp] theorem State.orLate_eng (s : State) (f : BitVec 6) (m : W16) : (s.orLate f m).eng = s.eng := rfl
@[simp] theorem State.orLate_mem (s : State) (f : BitVec 6) (m : W16) : (s.orLate f m).mem = s.mem := rfl
@[simp] theorem State.orLate_ports (s : State) (f : BitVec 6) (m : W16) : (s.orLate f m).ports = s.ports := rfl
@[simp] theorem State.orLate_pkg (s : State) (f : BitVec 6) (m : W16) : (s.orLate f m).pkg = s.pkg := rfl
@[simp] theorem State.orLate_arrived (s : State) (f : BitVec 6) (m : W16) : (s.orLate f m).arrived = s.arrived := rfl
@[simp] theorem State.orLate_begun (s : State) (f : BitVec 6) (m : W16) : (s.orLate f m).begun = s.begun := rfl
@[simp] theorem State.orLate_inputs (s : State) (f : BitVec 6) (m : W16) : (s.orLate f m).inputs = s.inputs := rfl
@[simp] theorem State.orLate_arg (s : State) (f : BitVec 6) (m : W16) : (s.orLate f m).arg = s.arg := rfl
@[simp] theorem State.orLate_now (s : State) (f : BitVec 6) (m : W16) : (s.orLate f m).now = s.now := rfl
@[simp] theorem State.orLate_refillClk (s : State) (f : BitVec 6) (m : W16) : (s.orLate f m).refillClk = s.refillClk := rfl
@[simp] theorem State.orLate_draws (s : State) (f : BitVec 6) (m : W16) : (s.orLate f m).draws = s.draws := rfl
@[simp] theorem State.orLate_late_flags (s : State) (f : BitVec 6) (m : W16) :
    (s.orLate f m).late.flags = s.late.flags ||| f := rfl
@[simp] theorem State.orLate_late_sat (s : State) (f : BitVec 6) (m : W16) :
    (s.orLate f m).late.sat = s.late.sat ||| m := rfl
@[simp] theorem State.orLate_late_zovf (s : State) (f : BitVec 6) (m : W16) : (s.orLate f m).late.zovf = s.late.zovf := rfl

@[simp] theorem State.drew_regs (s : State) : (s.drew).regs = s.regs := rfl
@[simp] theorem State.drew_tiles (s : State) : (s.drew).tiles = s.tiles := rfl
@[simp] theorem State.drew_ctl (s : State) : (s.drew).ctl = s.ctl := rfl
@[simp] theorem State.drew_stream (s : State) : (s.drew).stream = s.stream := rfl
@[simp] theorem State.drew_lines (s : State) : (s.drew).lines = s.lines := rfl
@[simp] theorem State.drew_eng (s : State) : (s.drew).eng = s.eng := rfl
@[simp] theorem State.drew_mem (s : State) : (s.drew).mem = s.mem := rfl
@[simp] theorem State.drew_ports (s : State) : (s.drew).ports = s.ports := rfl
@[simp] theorem State.drew_pkg (s : State) : (s.drew).pkg = s.pkg := rfl
@[simp] theorem State.drew_late (s : State) : (s.drew).late = s.late := rfl
@[simp] theorem State.drew_arrived (s : State) : (s.drew).arrived = s.arrived := rfl
@[simp] theorem State.drew_begun (s : State) : (s.drew).begun = s.begun := rfl
@[simp] theorem State.drew_inputs (s : State) : (s.drew).inputs = s.inputs := rfl
@[simp] theorem State.drew_arg (s : State) : (s.drew).arg = s.arg := rfl
@[simp] theorem State.drew_now (s : State) : (s.drew).now = s.now := rfl
@[simp] theorem State.drew_refillClk (s : State) : (s.drew).refillClk = s.refillClk := rfl

@[simp] theorem State.onTurn_regs (s : State) (t : Turn) : (s.onTurn t).regs = s.regs := rfl
@[simp] theorem State.onTurn_tiles (s : State) (t : Turn) : (s.onTurn t).tiles = s.tiles := rfl
@[simp] theorem State.onTurn_ctl (s : State) (t : Turn) : (s.onTurn t).ctl = s.ctl := rfl
@[simp] theorem State.onTurn_stream (s : State) (t : Turn) : (s.onTurn t).stream = s.stream := rfl
@[simp] theorem State.onTurn_lines (s : State) (t : Turn) : (s.onTurn t).lines = s.lines := rfl
@[simp] theorem State.onTurn_eng (s : State) (t : Turn) : (s.onTurn t).eng = s.eng := rfl
@[simp] theorem State.onTurn_mem (s : State) (t : Turn) : (s.onTurn t).mem = s.mem := rfl
@[simp] theorem State.onTurn_ports (s : State) (t : Turn) : (s.onTurn t).ports = s.ports := rfl
@[simp] theorem State.onTurn_pkg (s : State) (t : Turn) : (s.onTurn t).pkg = s.pkg := rfl
@[simp] theorem State.onTurn_late (s : State) (t : Turn) : (s.onTurn t).late = s.late := rfl
@[simp] theorem State.onTurn_arrived (s : State) (t : Turn) : (s.onTurn t).arrived = s.arrived := rfl
@[simp] theorem State.onTurn_begun (s : State) (t : Turn) : (s.onTurn t).begun = s.begun := rfl
@[simp] theorem State.onTurn_now (s : State) (t : Turn) : (s.onTurn t).now = s.now := rfl
@[simp] theorem State.onTurn_refillClk (s : State) (t : Turn) : (s.onTurn t).refillClk = s.refillClk := rfl
@[simp] theorem State.onTurn_draws (s : State) (t : Turn) : (s.onTurn t).draws = s.draws := rfl

/-- A turn of a cycle in which registers keep their values for the reads of the cycle changes nothing but those values (R206). -/
theorem State.noted_frame (s t : State) : s.noted t = { t with begun := (s.noted t).begun } := by
  unfold State.noted; split <;> rfl

/-- A read of a register that no turn of the cycle has changed is its value (R206). -/
theorem State.ctlRead_of_unchanged {s : State} {n : Nat} (h : s.begun.lookup n = none) : s.ctlRead n = s.ctlNow n := by
  rw [State.ctlRead, h]; rfl

/-! ## Data that comes for a copy command (R100, R109) -/

theorem State.takeData_kept {s : State} {i pos : Nat} {c : CopyCmd} {bs : List Byte} (h : s.copyHeld i c = true ∨ c.kept ≠ []) :
    s.takeData i c pos bs = s.mapCopy i c.num fun c => { c with kept := c.kept ++ [(pos, bs)] } := by
  rw [State.takeData, if_pos]
  rcases h with h | h
  · rw [h]; rfl
  · rw [Bool.or_eq_true, Bool.not_eq_true', List.isEmpty_eq_false_iff]; exact .inr h

theorem State.takeData_lands {s : State} {i pos : Nat} {c : CopyCmd} {bs : List Byte} (h : s.copyHeld i c = false)
    (hk : c.kept = []) : s.takeData i c pos bs = s.landData i c pos bs := by
  rw [State.takeData, h, hk]; rfl

theorem State.landKept_cons {s : State} {i pos : Nat} {c : CopyCmd} {bs : List Byte} {r : List (Nat × List Byte)}
    (h : c.kept = (pos, bs) :: r) :
    s.landKept i c = (s.mapCopy i c.num fun c => { c with kept := r }).landData i c pos bs := by
  rw [State.landKept, h]


end Sys2Proof.Machine
end

