-- ==== Sys2Proof/Laws/Net.lean ====
section
/-! SUPPORT. What sending does: a packet that is sent on its way, and a reply of a link, change ports and commands alone, and leave
every port in its state; a change of port states adds lantern entries. -/

namespace Sys2Proof.Machine

/-- Sending changes the ports alone (R124, R131). -/
theorem State.enter_ports (s : State) (d : Nat) (k : Packet) : ∃ p, s.enter d k = { s with ports := p } := ⟨_, rfl⟩

theorem State.overGuyline_ports (s : State) (d : Nat) (k : Packet) (l : W32) :
    ∃ p, s.overGuyline d k l = { s with ports := p } := ⟨_, rfl⟩

theorem State.trySend_ports {s t : State} {d : Nat} {k : Packet} (h : s.trySend d k = some t) :
    ∃ p, t = { s with ports := p } := by
  unfold State.trySend at h
  dsimp only at h
  split at h
  · exact ⟨_, (Option.some.inj h).symm⟩
  · split at h
    · exact ⟨_, (Option.some.inj h).symm⟩
    · cases h

theorem State.transmit_ports (s : State) (d : Nat) (k : Packet) : ∃ p, (s.transmit d k).1 = { s with ports := p } := by
  unfold State.transmit
  dsimp only
  split
  · exact ⟨s.ports, rfl⟩
  · split
    · exact ⟨_, rfl⟩
    · cases h : s.trySend d k with
      | none => exact ⟨_, rfl⟩
      | some t => exact State.trySend_ports h

theorem State.flushFrom_ports (n : Nat) : ∀ (s : State) (d : Nat), ∃ p, s.flushFrom d n = { s with ports := p } := by
  induction n with
  | zero => exact fun s _ => ⟨s.ports, rfl⟩
  | succ n ih =>
    intro s d
    unfold State.flushFrom
    dsimp only
    split
    · exact ⟨s.ports, rfl⟩
    · split
      · rename_i t h
        obtain ⟨p, rfl⟩ := State.trySend_ports h
        exact ih _ d
      · exact ⟨s.ports, rfl⟩

/-- A control frame leaves by a port, and changes nothing else (R124, R131). -/
theorem State.sendWord_ports (s : State) (d : Nat) (w : LinkWord) : ∃ p, s.sendWord d w = { s with ports := p } := by
  unfold State.sendWord
  dsimp only
  split
  · exact ⟨_, rfl⟩
  · split
    · exact ⟨_, rfl⟩
    · exact ⟨s.ports, rfl⟩

theorem State.linkReply_ports (s : State) (d : Nat) (ok : Bool) (l : W32) : ∃ p, s.linkReply d ok l = { s with ports := p } := by
  unfold State.linkReply
  split
  · exact ⟨s.ports, rfl⟩
  · exact State.sendWord_ports s d _

/-- A packet of this die that is lost changes its command alone (R130). -/
theorem State.linkDown_eng (s : State) (k : Packet) :
    ∃ e : Engines, e.freeze = s.eng.freeze ∧ s.linkDown k = { s with eng := e } := by
  unfold State.linkDown
  dsimp only
  split
  · exact ⟨s.eng, rfl, rfl⟩
  · split
    · exact ⟨_, by rfl, rfl⟩
    · exact ⟨_, by rfl, rfl⟩
    · exact ⟨s.eng, rfl, rfl⟩
    · exact ⟨_, by rfl, rfl⟩
    · exact ⟨_, by rfl, rfl⟩
    · split
      · exact ⟨_, by rfl, rfl⟩
      · exact ⟨s.eng, rfl, rfl⟩

/-- A packet that is given up changes ports and commands alone. -/
theorem State.giveUp_frame (s : State) (k : Packet) :
    ∃ (p : Vector Port 13) (e : Engines), e.freeze = s.eng.freeze ∧ s.giveUp k = { s with ports := p, eng := e } := by
  unfold State.giveUp
  split
  · exact ⟨s.ports, s.eng, rfl, rfl⟩
  · split
    · exact ⟨s.ports, State.linkDown_eng s k⟩
    · split
      · exact ⟨s.ports, s.eng, rfl, rfl⟩
      · exact (State.transmit_ports s _ _).imp fun p h => ⟨s.eng, rfl, h⟩

/-- So do several. -/
theorem State.giveUps_frame (ks : List Packet) : ∀ s : State,
    ∃ (p : Vector Port 13) (e : Engines), e.freeze = s.eng.freeze ∧ ks.foldl State.giveUp s = { s with ports := p, eng := e } := by
  induction ks with
  | nil => exact fun s => ⟨s.ports, s.eng, rfl, rfl⟩
  | cons k ks ih =>
    intro s
    obtain ⟨p, e, hf, h⟩ := State.giveUp_frame s k
    obtain ⟨p', e', hf', h'⟩ := ih (s.giveUp k)
    exact ⟨p', e', by rw [hf', h]; exact hf, by rw [List.foldl_cons, h', h]⟩

/-- What a port gives up changes ports and commands alone (R130). -/
theorem State.dropAll_frame (s : State) (d : Nat) :
    ∃ (p : Vector Port 13) (e : Engines), e.freeze = s.eng.freeze ∧ s.dropAll d = { s with ports := p, eng := e } := by
  unfold State.dropAll State.dropHeld
  dsimp only
  obtain ⟨p, e, hf, h⟩ := State.giveUps_frame (((s.setPort d { s.port d with waiting := [] }).port d).replay.filter fun _ => true)
    ((s.setPort d { s.port d with waiting := [] }).setPort d { (s.setPort d { s.port d with waiting := [] }).port d with
      replay := ((s.setPort d { s.port d with waiting := [] }).port d).replay.map fun k => if true then k.void else k })
  rw [h]
  obtain ⟨p', e', hf', h'⟩ := State.giveUps_frame (s.port d).waiting _
  exact ⟨p', e', hf'.trans hf, h'⟩

/-- So does a port that gives up what it can not forward. -/
theorem State.dropStuck_frame (s : State) (d : Nat) :
    ∃ (p : Vector Port 13) (e : Engines), e.freeze = s.eng.freeze ∧ s.dropStuck d = { s with ports := p, eng := e } := by
  unfold State.dropStuck
  split
  · exact State.dropAll_frame s d
  · exact ⟨s.ports, s.eng, rfl, rfl⟩

/-- A sweep changes ports and commands alone. -/
theorem State.sweepPorts_frame (s : State) :
    ∃ (p : Vector Port 13) (e : Engines), e.freeze = s.eng.freeze ∧ s.sweepPorts = { s with ports := p, eng := e } := by
  unfold State.sweepPorts
  generalize List.range 13 = l
  induction l generalizing s with
  | nil => exact ⟨s.ports, s.eng, rfl, rfl⟩
  | cons d l ih =>
    obtain ⟨p, e, hf, h⟩ := State.dropStuck_frame s d
    obtain ⟨p', e', hf', h'⟩ := ih (s.dropStuck d)
    exact ⟨p', e', by rw [hf', h]; exact hf, by rw [List.foldl_cons, h', h]⟩

/-- A packet that is sent on its way changes ports and commands alone (R111, R112, R130). -/
theorem State.route_frame (s : State) (k : Packet) : ∃ p e, s.route k = { s with ports := p, eng := e } := by
  unfold State.route
  split
  · exact ⟨s.ports, s.eng, rfl⟩
  · rename_i d _
    obtain ⟨p, hp⟩ := State.transmit_ports s d k
    split
    · rename_i t h
      exact ⟨p, s.eng, by rw [h] at hp; exact hp⟩
    · rename_i t h
      rw [h] at hp
      obtain ⟨p', e, _, h'⟩ := State.giveUp_frame t k
      exact ⟨p', e, by rw [h', show t = _ from hp]⟩

/-- What a new job leaves of the ports of a die (R340): ports, commands and lantern entries change, and a freeze goes on. -/
theorem State.freshPort_frame (s : State) (d : Nat) :
    ∃ (p : Vector Port 13) (e : Engines) (n : BitVec 9) (l : Vector (W64 × W64) 512) (c : Nat × Nat), e.freeze = s.eng.freeze ∧
      s.freshPort d = { s with
        ports := p, eng := e, ctl.lnwrm := n, mem := { s.mem with lanternM := l, lanternNow := c } } := by
  unfold State.freshPort
  dsimp only
  obtain ⟨p, e, hf, h⟩ := State.giveUps_frame (if (s.port d).swapped = true then [] else (s.port d).replay ++ (s.port d).waiting) _
  rw [h]
  unfold State.portState at hf ⊢
  dsimp only at hf ⊢
  split
  · rename_i hc; rw [if_pos hc] at hf; exact ⟨p, e, _, _, _, hf, rfl⟩
  · rename_i hc; rw [if_neg hc] at hf; exact ⟨p, e, _, _, _, hf, rfl⟩

theorem State.launchPort_frame (s : State) (d : Nat) :
    ∃ (p : Vector Port 13) (e : Engines) (n : BitVec 9) (l : Vector (W64 × W64) 512) (c : Nat × Nat), e.freeze = s.eng.freeze ∧
      s.launchPort d = { s with
        ports := p, eng := e, ctl.lnwrm := n, mem := { s.mem with lanternM := l, lanternNow := c } } := by
  unfold State.launchPort
  dsimp only
  split
  · obtain ⟨p, e, n, l, c, hf, h⟩ := State.freshPort_frame s d
    exact ⟨_, e, n, l, c, hf, by rw [h]; rfl⟩
  · exact ⟨_, _, _, _, _, rfl, rfl⟩

theorem State.freshPorts_frame (s : State) :
    ∃ (p : Vector Port 13) (e : Engines) (n : BitVec 9) (l : Vector (W64 × W64) 512) (c : Nat × Nat), e.freeze = s.eng.freeze ∧
      s.freshPorts = { s with
        ports := p, eng := e, ctl.lnwrm := n, mem := { s.mem with lanternM := l, lanternNow := c } } := by
  unfold State.freshPorts
  generalize List.range 13 = ds
  induction ds generalizing s with
  | nil => exact ⟨_, _, _, _, _, rfl, rfl⟩
  | cons d ds ih =>
    obtain ⟨p, e, n, l, c, hf, h⟩ := State.launchPort_frame s d
    obtain ⟨p', e', n', l', c', hf', h'⟩ := ih (s.launchPort d)
    exact ⟨p', e', n', l', c', by rw [hf', h]; exact hf, by rw [List.foldl_cons, h', h]⟩

@[simp] theorem State.route_regs (s : State) (k : Packet) : (s.route k).regs = s.regs := by
  obtain ⟨p, e, h⟩ := s.route_frame k; rw [h]
@[simp] theorem State.route_tiles (s : State) (k : Packet) : (s.route k).tiles = s.tiles := by
  obtain ⟨p, e, h⟩ := s.route_frame k; rw [h]
@[simp] theorem State.route_ctl (s : State) (k : Packet) : (s.route k).ctl = s.ctl := by
  obtain ⟨p, e, h⟩ := s.route_frame k; rw [h]
@[simp] theorem State.route_stream (s : State) (k : Packet) : (s.route k).stream = s.stream := by
  obtain ⟨p, e, h⟩ := s.route_frame k; rw [h]
@[simp] theorem State.route_lines (s : State) (k : Packet) : (s.route k).lines = s.lines := by
  obtain ⟨p, e, h⟩ := s.route_frame k; rw [h]
@[simp] theorem State.route_mem (s : State) (k : Packet) : (s.route k).mem = s.mem := by
  obtain ⟨p, e, h⟩ := s.route_frame k; rw [h]
@[simp] theorem State.route_pkg (s : State) (k : Packet) : (s.route k).pkg = s.pkg := by
  obtain ⟨p, e, h⟩ := s.route_frame k; rw [h]
@[simp] theorem State.route_late (s : State) (k : Packet) : (s.route k).late = s.late := by
  obtain ⟨p, e, h⟩ := s.route_frame k; rw [h]

/-- So does an answer (R115, R117). -/
theorem State.answer_frame (s : State) (k : Packet) (t : PType) (f : Packet → Packet) :
    ∃ p e, s.answer k t f = { s with ports := p, eng := e } := s.route_frame _

/-! ## What sending leaves of the ports -/

/-- Every port is in the state it was in, since the same time: what sending, replaying and giving up leave (R125). -/
structure State.PortsStay (s t : State) : Prop where
  port : ∀ e, (t.port e).state = (s.port e).state ∧ (t.port e).since = (s.port e).since

theorem State.PortsStay.refl (s : State) : s.PortsStay s := ⟨fun _ => ⟨rfl, rfl⟩⟩

theorem State.PortsStay.trans {s t u : State} (h : s.PortsStay t) (k : t.PortsStay u) : s.PortsStay u :=
  ⟨fun e => ⟨(k.port e).1.trans (h.port e).1, (k.port e).2.trans (h.port e).2⟩⟩

theorem State.PortsStay.foldl {α : Type} {f : State → α → State} (h : ∀ (s : State) (a : α), s.PortsStay (f s a))
    (l : List α) : ∀ s : State, s.PortsStay (l.foldl f s) := by
  induction l with
  | nil => exact State.PortsStay.refl
  | cons a l ih => exact fun s => (h s a).trans (ih _)

/-- Reading a port after one was replaced. -/
theorem State.port_setPort (s : State) (d e : Nat) (p : Port) :
    (s.setPort d p).port e = if e = d ∧ d < 13 then p else s.port e := by
  unfold State.setPort State.port
  split
  · rename_i h; rw [h.1]; exact vget_vset_same h.2
  · rename_i h
    by_cases hd : d < 13
    · exact vget_vset_other fun c => h ⟨c.symm, hd⟩
    · rw [vset_beyond (Nat.le_of_not_lt hd)]

theorem State.setPort_stays {s : State} {d : Nat} {p : Port} (h : p.state = (s.port d).state) (k : p.since = (s.port d).since) :
    s.PortsStay (s.setPort d p) := by
  refine ⟨fun e => ?_⟩
  rw [State.port_setPort]
  split
  · rename_i c; rw [c.1]; exact ⟨h, k⟩
  · exact ⟨rfl, rfl⟩

theorem State.enter_stays (s : State) (d : Nat) (k : Packet) : s.PortsStay (s.enter d k) := by
  unfold State.enter
  dsimp only
  apply State.setPort_stays <;> split <;> rfl

theorem State.overGuyline_stays (s : State) (d : Nat) (k : Packet) (l : W32) : s.PortsStay (s.overGuyline d k l) := by
  unfold State.overGuyline
  refine .trans (State.setPort_stays ?_ ?_) (State.enter_stays _ _ _) <;> rfl

theorem State.trySend_stays {s t : State} {d : Nat} {k : Packet} (h : s.trySend d k = some t) : s.PortsStay t := by
  unfold State.trySend at h
  dsimp only at h
  split at h
  · cases h
    exact State.setPort_stays rfl rfl
  · split at h
    · cases h
      refine .trans (State.setPort_stays ?_ ?_) (State.overGuyline_stays _ _ _ _) <;> rfl
    · cases h

theorem State.transmit_stays (s : State) (d : Nat) (k : Packet) : s.PortsStay (s.transmit d k).1 := by
  unfold State.transmit
  dsimp only
  split
  · exact .refl s
  · split
    · exact State.setPort_stays rfl rfl
    · cases h : s.trySend d k with
      | none => exact State.setPort_stays rfl rfl
      | some t => exact State.trySend_stays h

theorem State.flushFrom_stays (n : Nat) : ∀ (s : State) (d : Nat), s.PortsStay (s.flushFrom d n) := by
  induction n with
  | zero => exact fun s _ => .refl s
  | succ n ih =>
    intro s d
    unfold State.flushFrom
    dsimp only
    split
    · exact .refl s
    · split
      · rename_i t h
        refine .trans (.trans (State.setPort_stays ?_ ?_) (State.trySend_stays h)) (ih _ d) <;> rfl
      · exact .refl s

theorem State.giveUp_stays (s : State) (k : Packet) : s.PortsStay (s.giveUp k) := by
  unfold State.giveUp
  split
  · exact .refl s
  · split
    · obtain ⟨e, -, h⟩ := State.linkDown_eng s k
      rw [h]; exact ⟨fun _ => ⟨rfl, rfl⟩⟩
    · split
      · exact .refl s
      · exact State.transmit_stays s _ _

theorem State.dropHeld_stays (s : State) (d : Nat) (which : Packet → Bool) : s.PortsStay (s.dropHeld d which) := by
  unfold State.dropHeld
  refine .trans (State.setPort_stays ?_ ?_) (.foldl State.giveUp_stays _ _) <;> rfl

theorem State.dropStuck_stays (s : State) (d : Nat) : s.PortsStay (s.dropStuck d) := by
  unfold State.dropStuck State.dropAll
  split
  · refine .trans (.trans (State.setPort_stays ?_ ?_) (State.dropHeld_stays _ d _)) (.foldl State.giveUp_stays _ _) <;> rfl
  · exact .refl s

theorem State.sweepPorts_stays (s : State) : s.PortsStay s.sweepPorts := by
  unfold State.sweepPorts
  exact .foldl State.dropStuck_stays _ s

theorem State.dropWaiting_stays (s : State) (d : Nat) : s.PortsStay (s.dropWaiting d) := by
  unfold State.dropWaiting
  dsimp only
  split
  · exact .refl s
  · refine .trans (State.setPort_stays ?_ ?_) (.foldl State.giveUp_stays _ _) <;> rfl

theorem State.resend_stays (s : State) (d : Nat) : s.PortsStay (s.resend d) := by
  unfold State.resend
  dsimp only
  split
  · exact .foldl (fun s k => by exact State.setPort_stays rfl rfl) _ s
  · split
    · refine .trans (t := if s.holdsPorts then s else s.dropHeld d fun k => !k.fresh) ?_
        (.foldl (fun s k => State.overGuyline_stays s d k k.lseq) _ _)
      split
      · exact .refl s
      · exact State.dropHeld_stays s d _
    · exact .refl s

/-- What follows a change of state leaves the port in its new state, since now, and every other port as it was (R125, R131). -/
theorem State.switchOver_state (s : State) (d : Nat) (x : PortState) (e : Nat) (h : (s.port d).state ≠ x) (hd : d < 13) :
    ((s.switchOver d x).port e).state = (if e = d then x else (s.port e).state) ∧
    ((s.switchOver d x).port e).since = if e = d then s.now else (s.port e).since := by
  have k : State.PortsStay (s.portState d x) (s.switchOver d x) :=
    (((State.dropWaiting_stays _ d).trans (State.resend_stays _ d)).trans (State.flushFrom_stays _ _ _)).trans
      (State.sweepPorts_stays _)
  rw [(k.port e).1, (k.port e).2]
  unfold State.portState
  simp only [if_neg h, State.port_setPort, hd, and_true]
  split <;> exact ⟨rfl, rfl⟩

/-- Only ports and commands differ, and a freeze goes on: what sending and giving up change (R130, R131). -/
structure State.SendsOnly (s t : State) : Prop where
  frame : ∃ (p : Vector Port 13) (e : Engines), e.freeze = s.eng.freeze ∧ t = { s with ports := p, eng := e }

theorem State.SendsOnly.refl (s : State) : s.SendsOnly s := ⟨s.ports, s.eng, rfl, rfl⟩

theorem State.SendsOnly.trans {s t u : State} (h : s.SendsOnly t) (k : t.SendsOnly u) : s.SendsOnly u := by
  obtain ⟨p, e, hf, rfl⟩ := h
  obtain ⟨p', e', hf', rfl⟩ := k
  exact ⟨p', e', hf'.trans hf, rfl⟩

theorem State.SendsOnly.foldl {α : Type} {f : State → α → State} (h : ∀ (s : State) (a : α), s.SendsOnly (f s a))
    (l : List α) : ∀ s : State, s.SendsOnly (l.foldl f s) := by
  induction l with
  | nil => exact .refl
  | cons a l ih => exact fun s => (h s a).trans (ih _)

theorem State.setPort_sends (s : State) (d : Nat) (p : Port) : s.SendsOnly (s.setPort d p) := ⟨_, s.eng, rfl, rfl⟩

theorem State.dropHeld_sends (s : State) (d : Nat) (which : Packet → Bool) : s.SendsOnly (s.dropHeld d which) := by
  unfold State.dropHeld
  exact .trans (State.setPort_sends _ _ _) ⟨State.giveUps_frame _ _⟩

theorem State.dropWaiting_sends (s : State) (d : Nat) : s.SendsOnly (s.dropWaiting d) := by
  unfold State.dropWaiting
  dsimp only
  split
  · exact .refl s
  · exact .trans (State.setPort_sends _ _ _) ⟨State.giveUps_frame _ _⟩

theorem State.resend_sends (s : State) (d : Nat) : s.SendsOnly (s.resend d) := by
  unfold State.resend
  dsimp only
  split
  · exact .foldl (fun s k => by exact State.setPort_sends s d _) _ s
  · split
    · refine .trans (t := if s.holdsPorts then s else s.dropHeld d fun k => !k.fresh) ?_
        (.foldl (fun s k => by obtain ⟨p, h⟩ := State.overGuyline_ports s d k k.lseq; exact ⟨p, s.eng, rfl, h⟩) _ _)
      split
      · exact .refl s
      · exact State.dropHeld_sends s d _
    · exact .refl s

/-- A port that leaves UP changes ports, commands and, by its change of state, one entry of the lantern ring alone. -/
theorem State.switchOver_sends (s : State) (d : Nat) (x : PortState) : (s.portState d x).SendsOnly (s.switchOver d x) := by
  unfold State.switchOver
  refine .trans (.trans (.trans (State.dropWaiting_sends _ d) (State.resend_sends _ d)) ?_) ⟨State.sweepPorts_frame _⟩
  obtain ⟨p, h⟩ := State.flushFrom_ports (((s.portState d x).dropWaiting d).resend d |>.port d).waiting.length _ d
  exact ⟨p, _, rfl, h⟩

/-- Ports, commands and entries of the lantern ring's memory half alone differ, and a freeze goes on: what a change of port states
does (R125, R340, R347). -/
structure State.RelinksOnly (s t : State) : Prop where
  frame : ∃ (p : Vector Port 13) (e : Engines) (n : BitVec 9) (l : Vector (W64 × W64) 512) (c : Nat × Nat),
    e.freeze = s.eng.freeze ∧
      t = { s with ports := p, eng := e, ctl.lnwrm := n, mem := { s.mem with lanternM := l, lanternNow := c } }

theorem State.SendsOnly.relinks {s t : State} (h : s.SendsOnly t) : s.RelinksOnly t := by
  obtain ⟨p, e, hf, rfl⟩ := h
  exact ⟨p, e, _, _, _, hf, rfl⟩

theorem State.RelinksOnly.refl (s : State) : s.RelinksOnly s := (State.SendsOnly.refl s).relinks

theorem State.RelinksOnly.trans {s t u : State} (h : s.RelinksOnly t) (k : t.RelinksOnly u) : s.RelinksOnly u := by
  obtain ⟨p, e, n, l, c, hf, rfl⟩ := h
  obtain ⟨p', e', n', l', c', hf', rfl⟩ := k
  exact ⟨p', e', n', l', c', hf'.trans hf, rfl⟩

theorem State.portState_relinks (s : State) (d : Nat) (x : PortState) : s.RelinksOnly (s.portState d x) := by
  unfold State.portState
  dsimp only
  split
  · exact .refl s
  · exact ⟨_, s.eng, _, _, _, rfl, rfl⟩

theorem State.sendResync_sends (s : State) (d : Nat) : s.SendsOnly (s.sendResync d) := by
  unfold State.sendResync
  dsimp only
  split
  · obtain ⟨p, h⟩ := State.sendWord_ports (s.setPort d { s.port d with owes := false }) d (.resync (s.port d).lsent (s.port d).lacc)
    exact (State.setPort_sends _ _ _).trans ⟨p, _, rfl, h⟩
  · exact State.setPort_sends _ _ _

theorem State.dropStuck_sends (s : State) (d : Nat) : s.SendsOnly (s.dropStuck d) := ⟨State.dropStuck_frame s d⟩

/-- Ports that resync change nothing else of the die (R340). -/
theorem State.resyncAll_relinks (s : State) (o : Bool) : s.RelinksOnly (s.resyncAll o) := by
  unfold State.resyncAll
  generalize List.range 13 = l
  induction l generalizing s with
  | nil => exact .refl s
  | cons d l ih =>
    refine .trans ?_ (ih (s.resync d o))
    unfold State.resync State.retrain
    dsimp only
    split
    · split
      · exact (State.SendsOnly.trans (State.setPort_sends _ _ _) (State.sendResync_sends _ d)).relinks
      · exact .refl s
    · split
      · exact .trans (State.setPort_sends _ _ _).relinks (State.portState_relinks _ d _)
      · split
        · refine .trans (.trans (t := if (s.port d).before = .up then s.setPort d { s.port d with resync := true, guyLast := none }
              else (s.setPort d { s.port d with resync := true, guyLast := none }).portState d (s.port d).before)
            ?_ (State.sendResync_sends _ d).relinks) (State.dropStuck_sends _ d).relinks
          split
          · exact (State.setPort_sends _ _ _).relinks
          · exact .trans (State.setPort_sends _ _ _).relinks (State.portState_relinks _ d _)
        · exact .trans (State.portState_relinks _ d _) (State.dropStuck_sends _ d).relinks

end Sys2Proof.Machine
end

