-- ==== Sys2Proof/Laws/PerInstr.lean ====
section
/-! SUPPORT. Per instruction: what its encoding fits in. -/

namespace Sys2Proof.Laws

/-- The encoding of an instruction fits in an extension byte and a 32-bit word. -/
def Encodes.Statement (i : Instr) : Prop := ∀ e w, encode i = some (e, w) → e < 256 ∧ w < 2 ^ 32

theorem fits_of_none {i : Instr} (h : encode i = none) : Encodes.Statement i := fun _ _ he => by rw [h] at he; cases he

theorem fits_of_some {i : Instr} {p : Nat × Nat} (h : encode i = some p) (hp : p.1 < 256 ∧ p.2 < 2 ^ 32) :
    Encodes.Statement i := fun _ _ he => by rw [h] at he; cases he; exact hp

theorem pack0_fits {base : Nat} {f0 : BitVec 8} {f1 : BitVec 8} {f2 : BitVec 8} (h : base ≤ 0xf0000000) :
    (pack0 base f0 f1 f2).1 < 256 ∧ (pack0 base f0 f1 f2).2 < 2 ^ 32 := by
  have := f0.isLt; have := f1.isLt; have := f2.isLt
  simp only [pack0]
  omega

theorem pack1_fits {base : Nat} {f0 : BitVec 12} {f1 : BitVec 4} {f2 : BitVec 4} {f3 : BitVec 1} {f4 : BitVec 1}
    (h : base ≤ 0xf1000000) :
    (pack1 base f0 f1 f2 f3 f4).1 < 256 ∧ (pack1 base f0 f1 f2 f3 f4).2 < 2 ^ 32 := by
  have := f0.isLt; have := f1.isLt; have := f2.isLt; have := f3.isLt; have := f4.isLt
  simp only [pack1]
  omega

theorem pack2_fits {base : Nat} {f0 : BitVec 6} {f1 : BitVec 1} (h : base ≤ 0xf2000000) :
    (pack2 base f0 f1).1 < 256 ∧ (pack2 base f0 f1).2 < 2 ^ 32 := by
  have := f0.isLt; have := f1.isLt
  simp only [pack2]
  omega

theorem pack3_fits {base : Nat} {f0 : BitVec 4} (h : base ≤ 0xe0200000) :
    (pack3 base f0).1 < 256 ∧ (pack3 base f0).2 < 2 ^ 32 := by
  have := f0.isLt
  simp only [pack3]
  omega

theorem pack4_fits {base : Nat} {f0 : BitVec 4} {f1 : BitVec 5} {f2 : BitVec 5} {f3 : BitVec 5} (h : base ≤ 0x20200000) :
    (pack4 base f0 f1 f2 f3).1 < 256 ∧ (pack4 base f0 f1 f2 f3).2 < 2 ^ 32 := by
  have := f0.isLt; have := f1.isLt; have := f2.isLt; have := f3.isLt
  simp only [pack4]
  omega

theorem pack5_fits {base : Nat} {f0 : BitVec 4} {f1 : BitVec 5} {f2 : BitVec 5} {f3 : BitVec 5} {f4 : BitVec 5}
    (h : base ≤ 0x3c0000) :
    (pack5 base f0 f1 f2 f3 f4).1 < 256 ∧ (pack5 base f0 f1 f2 f3 f4).2 < 2 ^ 32 := by
  have := f0.isLt; have := f1.isLt; have := f2.isLt; have := f3.isLt; have := f4.isLt
  simp only [pack5]
  omega

theorem pack6_fits {base : Nat} {f0 : BitVec 4} {f1 : BitVec 5} {f2 : BitVec 5} (h : base ≤ 0xe0380001) :
    (pack6 base f0 f1 f2).1 < 256 ∧ (pack6 base f0 f1 f2).2 < 2 ^ 32 := by
  have := f0.isLt; have := f1.isLt; have := f2.isLt
  simp only [pack6]
  omega

theorem pack7_fits {base : Nat} {f0 : BitVec 4} {f1 : BitVec 5} {f2 : BitVec 5} {f3 : BitVec 18} (h : base ≤ 0x10700000) :
    (pack7 base f0 f1 f2 f3).1 < 256 ∧ (pack7 base f0 f1 f2 f3).2 < 2 ^ 32 := by
  have := f0.isLt; have := f1.isLt; have := f2.isLt; have := f3.isLt
  simp only [pack7]
  omega

theorem pack8_fits {base : Nat} {f0 : BitVec 4} {f1 : BitVec 5} {f2 : BitVec 5} {f3 : BitVec 5} {f4 : BitVec 3}
    (h : base ≤ 0x80380000) :
    (pack8 base f0 f1 f2 f3 f4).1 < 256 ∧ (pack8 base f0 f1 f2 f3 f4).2 < 2 ^ 32 := by
  have := f0.isLt; have := f1.isLt; have := f2.isLt; have := f3.isLt; have := f4.isLt
  simp only [pack8]
  omega

theorem pack9_fits {base : Nat} {f0 : BitVec 4} {f1 : BitVec 5} (h : base ≤ 0xe0340001) :
    (pack9 base f0 f1).1 < 256 ∧ (pack9 base f0 f1).2 < 2 ^ 32 := by
  have := f0.isLt; have := f1.isLt
  simp only [pack9]
  omega

theorem pack10_fits {base : Nat} {f0 : BitVec 4} {f1 : BitVec 5} (h : base ≤ 0x20240003) :
    (pack10 base f0 f1).1 < 256 ∧ (pack10 base f0 f1).2 < 2 ^ 32 := by
  have := f0.isLt; have := f1.isLt
  simp only [pack10]
  omega

theorem pack11_fits {base : Nat} {f0 : BitVec 4} {f1 : BitVec 4} {f2 : BitVec 5} {f3 : BitVec 5} (h : base ≤ 0x30500000) :
    (pack11 base f0 f1 f2 f3).1 < 256 ∧ (pack11 base f0 f1 f2 f3).2 < 2 ^ 32 := by
  have := f0.isLt; have := f1.isLt; have := f2.isLt; have := f3.isLt
  simp only [pack11]
  omega

theorem pack12_fits {base : Nat} {f0 : BitVec 4} {f1 : BitVec 4} {f2 : BitVec 5} {f3 : BitVec 18} (h : base ≤ 0x30500400) :
    (pack12 base f0 f1 f2 f3).1 < 256 ∧ (pack12 base f0 f1 f2 f3).2 < 2 ^ 32 := by
  have := f0.isLt; have := f1.isLt; have := f2.isLt; have := f3.isLt
  simp only [pack12]
  omega

theorem pack13_fits {base : Nat} {f0 : BitVec 4} {f1 : BitVec 19} (h : base ≤ 0x40100000) :
    (pack13 base f0 f1).1 < 256 ∧ (pack13 base f0 f1).2 < 2 ^ 32 := by
  have := f0.isLt; have := f1.isLt
  simp only [pack13]
  omega

theorem pack14_fits {base : Nat} {f0 : BitVec 4} {f1 : BitVec 5} (h : base ≤ 0x40300000) :
    (pack14 base f0 f1).1 < 256 ∧ (pack14 base f0 f1).2 < 2 ^ 32 := by
  have := f0.isLt; have := f1.isLt
  simp only [pack14]
  omega

theorem pack15_fits {base : Nat} {f0 : BitVec 4} {f1 : BitVec 2} {f2 : BitVec 10} {f3 : BitVec 5} (h : base ≤ 0x40400000) :
    (pack15 base f0 f1 f2 f3).1 < 256 ∧ (pack15 base f0 f1 f2 f3).2 < 2 ^ 32 := by
  have := f0.isLt; have := f1.isLt; have := f2.isLt; have := f3.isLt
  simp only [pack15]
  omega

theorem pack16_fits {base : Nat} {f0 : BitVec 4} {f1 : BitVec 4} {f2 : BitVec 4} {f3 : BitVec 4} {f4 : BitVec 4}
    (h : base ≤ 0x40500000) :
    (pack16 base f0 f1 f2 f3 f4).1 < 256 ∧ (pack16 base f0 f1 f2 f3 f4).2 < 2 ^ 32 := by
  have := f0.isLt; have := f1.isLt; have := f2.isLt; have := f3.isLt; have := f4.isLt
  simp only [pack16]
  omega

theorem pack17_fits {base : Nat} {f0 : BitVec 4} {f1 : BitVec 4} {f2 : BitVec 5} (h : base ≤ 0x40600000) :
    (pack17 base f0 f1 f2).1 < 256 ∧ (pack17 base f0 f1 f2).2 < 2 ^ 32 := by
  have := f0.isLt; have := f1.isLt; have := f2.isLt
  simp only [pack17]
  omega

theorem pack18_fits {base : Nat} {f0 : BitVec 4} {f1 : BitVec 2} (h : base ≤ 0x40800000) :
    (pack18 base f0 f1).1 < 256 ∧ (pack18 base f0 f1).2 < 2 ^ 32 := by
  have := f0.isLt; have := f1.isLt
  simp only [pack18]
  omega

theorem pack19_fits {base : Nat} {f0 : BitVec 4} {f1 : BitVec 5} {f2 : BitVec 4} {f3 : BitVec 1} {f4 : BitVec 18}
    (h : base ≤ 0x90300000) :
    (pack19 base f0 f1 f2 f3 f4).1 < 256 ∧ (pack19 base f0 f1 f2 f3 f4).2 < 2 ^ 32 := by
  have := f0.isLt; have := f1.isLt; have := f2.isLt; have := f3.isLt; have := f4.isLt
  simp only [pack19]
  omega

theorem pack20_fits {base : Nat} {f0 : BitVec 4} {f1 : BitVec 5} {f2 : BitVec 4} {f3 : BitVec 1} {f4 : BitVec 4} {f5 : BitVec 6}
    (h : base ≤ 0x50900000) :
    (pack20 base f0 f1 f2 f3 f4 f5).1 < 256 ∧ (pack20 base f0 f1 f2 f3 f4 f5).2 < 2 ^ 32 := by
  have := f0.isLt; have := f1.isLt; have := f2.isLt; have := f3.isLt; have := f4.isLt; have := f5.isLt
  simp only [pack20]
  omega

theorem pack21_fits {base : Nat} {f0 : BitVec 4} {f1 : BitVec 5} {f2 : BitVec 5} {f3 : BitVec 5} {f4 : BitVec 3} {f5 : BitVec 5}
    (h : base ≤ 0x70340000) :
    (pack21 base f0 f1 f2 f3 f4 f5).1 < 256 ∧ (pack21 base f0 f1 f2 f3 f4 f5).2 < 2 ^ 32 := by
  have := f0.isLt; have := f1.isLt; have := f2.isLt; have := f3.isLt; have := f4.isLt; have := f5.isLt
  simp only [pack21]
  omega

theorem pack22_fits {base : Nat} {f0 : BitVec 4} {f1 : BitVec 5} {f2 : BitVec 5} {f3 : BitVec 3} (h : base ≤ 0x80340008) :
    (pack22 base f0 f1 f2 f3).1 < 256 ∧ (pack22 base f0 f1 f2 f3).2 < 2 ^ 32 := by
  have := f0.isLt; have := f1.isLt; have := f2.isLt; have := f3.isLt
  simp only [pack22]
  omega

theorem pack23_fits {base : Nat} {f0 : BitVec 4} {f1 : BitVec 5} {f2 : BitVec 5} {f3 : BitVec 2} {f4 : BitVec 3}
    (h : base ≤ 0x80180000) :
    (pack23 base f0 f1 f2 f3 f4).1 < 256 ∧ (pack23 base f0 f1 f2 f3 f4).2 < 2 ^ 32 := by
  have := f0.isLt; have := f1.isLt; have := f2.isLt; have := f3.isLt; have := f4.isLt
  simp only [pack23]
  omega

theorem pack24_fits {base : Nat} {f0 : BitVec 4} {f1 : BitVec 5} {f2 : BitVec 5} {f3 : BitVec 2} {f4 : BitVec 1} {f5 : BitVec 3}
    (h : base ≤ 0x80140000) :
    (pack24 base f0 f1 f2 f3 f4 f5).1 < 256 ∧ (pack24 base f0 f1 f2 f3 f4 f5).2 < 2 ^ 32 := by
  have := f0.isLt; have := f1.isLt; have := f2.isLt; have := f3.isLt; have := f4.isLt; have := f5.isLt
  simp only [pack24]
  omega

theorem pack25_fits {base : Nat} {f0 : BitVec 4} {f1 : BitVec 5} {f2 : BitVec 5} {f3 : BitVec 2} {f4 : BitVec 2}
    (h : base ≤ 0x801c0000) :
    (pack25 base f0 f1 f2 f3 f4).1 < 256 ∧ (pack25 base f0 f1 f2 f3 f4).2 < 2 ^ 32 := by
  have := f0.isLt; have := f1.isLt; have := f2.isLt; have := f3.isLt; have := f4.isLt
  simp only [pack25]
  omega

theorem pack26_fits {base : Nat} {f0 : BitVec 4} {f1 : BitVec 2} {f2 : BitVec 3} {f3 : BitVec 5} {f4 : BitVec 5} {f5 : BitVec 3}
    (h : base ≤ 0x802c0000) :
    (pack26 base f0 f1 f2 f3 f4 f5).1 < 256 ∧ (pack26 base f0 f1 f2 f3 f4 f5).2 < 2 ^ 32 := by
  have := f0.isLt; have := f1.isLt; have := f2.isLt; have := f3.isLt; have := f4.isLt; have := f5.isLt
  simp only [pack26]
  omega

theorem pack27_fits {base : Nat} {f0 : BitVec 4} {f1 : BitVec 2} {f2 : BitVec 3} {f3 : BitVec 3} {f4 : BitVec 3}
    (h : base ≤ 0x80300000) :
    (pack27 base f0 f1 f2 f3 f4).1 < 256 ∧ (pack27 base f0 f1 f2 f3 f4).2 < 2 ^ 32 := by
  have := f0.isLt; have := f1.isLt; have := f2.isLt; have := f3.isLt; have := f4.isLt
  simp only [pack27]
  omega

theorem pack28_fits {base : Nat} {f0 : BitVec 4} {f1 : BitVec 5} {f2 : BitVec 5} {f3 : BitVec 3} {f4 : BitVec 2} {f5 : BitVec 3}
    (h : base ≤ 0x803c0000) :
    (pack28 base f0 f1 f2 f3 f4 f5).1 < 256 ∧ (pack28 base f0 f1 f2 f3 f4 f5).2 < 2 ^ 32 := by
  have := f0.isLt; have := f1.isLt; have := f2.isLt; have := f3.isLt; have := f4.isLt; have := f5.isLt
  simp only [pack28]
  omega

theorem pack29_fits {base : Nat} {f0 : BitVec 4} {f1 : BitVec 3} {f2 : BitVec 4} {f3 : BitVec 1} {f4 : BitVec 18}
    (h : base ≤ 0x90500000) :
    (pack29 base f0 f1 f2 f3 f4).1 < 256 ∧ (pack29 base f0 f1 f2 f3 f4).2 < 2 ^ 32 := by
  have := f0.isLt; have := f1.isLt; have := f2.isLt; have := f3.isLt; have := f4.isLt
  simp only [pack29]
  omega

theorem pack30_fits {base : Nat} {f0 : BitVec 4} {f1 : BitVec 4} {f2 : BitVec 4} {f3 : BitVec 5} {f4 : BitVec 3} {f5 : BitVec 2}
    (h : base ≤ 0xa0240000) :
    (pack30 base f0 f1 f2 f3 f4 f5).1 < 256 ∧ (pack30 base f0 f1 f2 f3 f4 f5).2 < 2 ^ 32 := by
  have := f0.isLt; have := f1.isLt; have := f2.isLt; have := f3.isLt; have := f4.isLt; have := f5.isLt
  simp only [pack30]
  omega

theorem pack31_fits {base : Nat} {f0 : BitVec 4} {f1 : BitVec 4} {f2 : BitVec 4} {f3 : BitVec 5} {f4 : BitVec 3}
    (h : base ≤ 0xa03c0000) :
    (pack31 base f0 f1 f2 f3 f4).1 < 256 ∧ (pack31 base f0 f1 f2 f3 f4).2 < 2 ^ 32 := by
  have := f0.isLt; have := f1.isLt; have := f2.isLt; have := f3.isLt; have := f4.isLt
  simp only [pack31]
  omega

theorem pack32_fits {base : Nat} {f0 : BitVec 4} {f1 : BitVec 4} {f2 : BitVec 5} (h : base ≤ 0xa0880000) :
    (pack32 base f0 f1 f2).1 < 256 ∧ (pack32 base f0 f1 f2).2 < 2 ^ 32 := by
  have := f0.isLt; have := f1.isLt; have := f2.isLt
  simp only [pack32]
  omega

theorem pack33_fits {base : Nat} {f0 : BitVec 4} {f1 : BitVec 4} {f2 : BitVec 4} {f3 : BitVec 3} (h : base ≤ 0xa0380000) :
    (pack33 base f0 f1 f2 f3).1 < 256 ∧ (pack33 base f0 f1 f2 f3).2 < 2 ^ 32 := by
  have := f0.isLt; have := f1.isLt; have := f2.isLt; have := f3.isLt
  simp only [pack33]
  omega

theorem pack34_fits {base : Nat} {f0 : BitVec 4} {f1 : BitVec 4} (h : base ≤ 0xd0080000) :
    (pack34 base f0 f1).1 < 256 ∧ (pack34 base f0 f1).2 < 2 ^ 32 := by
  have := f0.isLt; have := f1.isLt
  simp only [pack34]
  omega

theorem pack35_fits {base : Nat} {f0 : BitVec 4} {f1 : BitVec 4} {f2 : BitVec 4} {f3 : BitVec 3} {f4 : BitVec 1}
    (h : base ≤ 0xa0500000) :
    (pack35 base f0 f1 f2 f3 f4).1 < 256 ∧ (pack35 base f0 f1 f2 f3 f4).2 < 2 ^ 32 := by
  have := f0.isLt; have := f1.isLt; have := f2.isLt; have := f3.isLt; have := f4.isLt
  simp only [pack35]
  omega

theorem pack36_fits {base : Nat} {f0 : BitVec 4} {f1 : BitVec 4} {f2 : BitVec 4} {f3 : BitVec 5} {f4 : BitVec 3} {f5 : BitVec 1}
    (h : base ≤ 0xa0540000) :
    (pack36 base f0 f1 f2 f3 f4 f5).1 < 256 ∧ (pack36 base f0 f1 f2 f3 f4 f5).2 < 2 ^ 32 := by
  have := f0.isLt; have := f1.isLt; have := f2.isLt; have := f3.isLt; have := f4.isLt; have := f5.isLt
  simp only [pack36]
  omega

theorem pack37_fits {base : Nat} {f0 : BitVec 4} {f1 : BitVec 4} {f2 : BitVec 4} {f3 : BitVec 5} (h : base ≤ 0xa07c0000) :
    (pack37 base f0 f1 f2 f3).1 < 256 ∧ (pack37 base f0 f1 f2 f3).2 < 2 ^ 32 := by
  have := f0.isLt; have := f1.isLt; have := f2.isLt; have := f3.isLt
  simp only [pack37]
  omega

theorem pack38_fits {base : Nat} {f0 : BitVec 4} {f1 : BitVec 5} (h : base ≤ 0xa0680000) :
    (pack38 base f0 f1).1 < 256 ∧ (pack38 base f0 f1).2 < 2 ^ 32 := by
  have := f0.isLt; have := f1.isLt
  simp only [pack38]
  omega

theorem pack39_fits {base : Nat} {f0 : BitVec 4} {f1 : BitVec 4} {f2 : BitVec 4} (h : base ≤ 0xc0280000) :
    (pack39 base f0 f1 f2).1 < 256 ∧ (pack39 base f0 f1 f2).2 < 2 ^ 32 := by
  have := f0.isLt; have := f1.isLt; have := f2.isLt
  simp only [pack39]
  omega

theorem pack40_fits {base : Nat} {f0 : BitVec 4} {f1 : BitVec 4} (h : base ≤ 0xb0280000) :
    (pack40 base f0 f1).1 < 256 ∧ (pack40 base f0 f1).2 < 2 ^ 32 := by
  have := f0.isLt; have := f1.isLt
  simp only [pack40]
  omega

theorem pack41_fits {base : Nat} {f0 : BitVec 4} {f1 : BitVec 4} {f2 : BitVec 4} {f3 : BitVec 1} (h : base ≤ 0xb0180000) :
    (pack41 base f0 f1 f2 f3).1 < 256 ∧ (pack41 base f0 f1 f2 f3).2 < 2 ^ 32 := by
  have := f0.isLt; have := f1.isLt; have := f2.isLt; have := f3.isLt
  simp only [pack41]
  omega

theorem pack42_fits {base : Nat} {f0 : BitVec 4} {f1 : BitVec 4} {f2 : BitVec 4} {f3 : BitVec 4} (h : base ≤ 0xb01c0010) :
    (pack42 base f0 f1 f2 f3).1 < 256 ∧ (pack42 base f0 f1 f2 f3).2 < 2 ^ 32 := by
  have := f0.isLt; have := f1.isLt; have := f2.isLt; have := f3.isLt
  simp only [pack42]
  omega

theorem pack43_fits {base : Nat} {f0 : BitVec 4} {f1 : BitVec 4} {f2 : BitVec 4} {f3 : BitVec 1} {f4 : BitVec 4}
    (h : base ≤ 0xb0200000) :
    (pack43 base f0 f1 f2 f3 f4).1 < 256 ∧ (pack43 base f0 f1 f2 f3 f4).2 < 2 ^ 32 := by
  have := f0.isLt; have := f1.isLt; have := f2.isLt; have := f3.isLt; have := f4.isLt
  simp only [pack43]
  omega

theorem pack44_fits {base : Nat} {f0 : BitVec 4} {f1 : BitVec 4} {f2 : BitVec 4} {f3 : BitVec 2} (h : base ≤ 0xc0000000) :
    (pack44 base f0 f1 f2 f3).1 < 256 ∧ (pack44 base f0 f1 f2 f3).2 < 2 ^ 32 := by
  have := f0.isLt; have := f1.isLt; have := f2.isLt; have := f3.isLt
  simp only [pack44]
  omega

theorem pack45_fits {base : Nat} {f0 : BitVec 4} {f1 : BitVec 4} {f2 : BitVec 4} {f3 : BitVec 2} {f4 : BitVec 3} {f5 : BitVec 2} {f6 : BitVec 2}
    (h : base ≤ 0xc0040000) :
    (pack45 base f0 f1 f2 f3 f4 f5 f6).1 < 256 ∧ (pack45 base f0 f1 f2 f3 f4 f5 f6).2 < 2 ^ 32 := by
  have := f0.isLt; have := f1.isLt; have := f2.isLt; have := f3.isLt; have := f4.isLt; have := f5.isLt; have := f6.isLt
  simp only [pack45]
  omega

theorem pack46_fits {base : Nat} {f0 : BitVec 4} {f1 : BitVec 4} {f2 : BitVec 4} {f3 : BitVec 2} {f4 : BitVec 1} {f5 : BitVec 4}
    (h : base ≤ 0xc0080000) :
    (pack46 base f0 f1 f2 f3 f4 f5).1 < 256 ∧ (pack46 base f0 f1 f2 f3 f4 f5).2 < 2 ^ 32 := by
  have := f0.isLt; have := f1.isLt; have := f2.isLt; have := f3.isLt; have := f4.isLt; have := f5.isLt
  simp only [pack46]
  omega

theorem pack47_fits {base : Nat} {f0 : BitVec 4} {f1 : BitVec 4} {f2 : BitVec 2} {f3 : BitVec 1} (h : base ≤ 0xc00c0000) :
    (pack47 base f0 f1 f2 f3).1 < 256 ∧ (pack47 base f0 f1 f2 f3).2 < 2 ^ 32 := by
  have := f0.isLt; have := f1.isLt; have := f2.isLt; have := f3.isLt
  simp only [pack47]
  omega

theorem pack48_fits {base : Nat} {f0 : BitVec 4} {f1 : BitVec 4} {f2 : BitVec 3} {f3 : BitVec 2} (h : base ≤ 0xc0140000) :
    (pack48 base f0 f1 f2 f3).1 < 256 ∧ (pack48 base f0 f1 f2 f3).2 < 2 ^ 32 := by
  have := f0.isLt; have := f1.isLt; have := f2.isLt; have := f3.isLt
  simp only [pack48]
  omega

theorem pack49_fits {base : Nat} {f0 : BitVec 4} {f1 : BitVec 4} {f2 : BitVec 4} {f3 : BitVec 2} {f4 : BitVec 4}
    (h : base ≤ 0xc0180000) :
    (pack49 base f0 f1 f2 f3 f4).1 < 256 ∧ (pack49 base f0 f1 f2 f3 f4).2 < 2 ^ 32 := by
  have := f0.isLt; have := f1.isLt; have := f2.isLt; have := f3.isLt; have := f4.isLt
  simp only [pack49]
  omega

theorem pack50_fits {base : Nat} {f0 : BitVec 4} {f1 : BitVec 2} (h : base ≤ 0xc01c0000) :
    (pack50 base f0 f1).1 < 256 ∧ (pack50 base f0 f1).2 < 2 ^ 32 := by
  have := f0.isLt; have := f1.isLt
  simp only [pack50]
  omega

theorem pack51_fits {base : Nat} {f0 : BitVec 4} {f1 : BitVec 4} {f2 : BitVec 2} (h : base ≤ 0xc0200000) :
    (pack51 base f0 f1 f2).1 < 256 ∧ (pack51 base f0 f1 f2).2 < 2 ^ 32 := by
  have := f0.isLt; have := f1.isLt; have := f2.isLt
  simp only [pack51]
  omega

theorem pack52_fits {base : Nat} {f0 : BitVec 4} {f1 : BitVec 10} (h : base ≤ 0xe0000000) :
    (pack52 base f0 f1).1 < 256 ∧ (pack52 base f0 f1).2 < 2 ^ 32 := by
  have := f0.isLt; have := f1.isLt
  simp only [pack52]
  omega

theorem Encodes.extHdr (z y x : BitVec 8) : Statement (.extHdr z y x) := fits_of_some rfl (pack0_fits (by decide))
theorem Encodes.repeatPfx (c : BitVec 12) (x y : BitVec 4) (v w : BitVec 1) :
    Statement (.repeatPfx c x y v w) := fits_of_some rfl (pack1_fits (by decide))
theorem Encodes.lbmark (l : BitVec 6) (p : BitVec 1) : Statement (.lbmark l p) := fits_of_some rfl (pack2_fits (by decide))
theorem Encodes.nop (g : BitVec 4) : Statement (.nop g) := fits_of_some rfl (pack3_fits (by decide))
theorem Encodes.add (g : BitVec 4) (d a b : BitVec 5) :
    Statement (.add g d a b) := fits_of_some rfl (pack4_fits (by decide))
theorem Encodes.sub (g : BitVec 4) (d a b : BitVec 5) :
    Statement (.sub g d a b) := fits_of_some rfl (pack4_fits (by decide))
theorem Encodes.and (g : BitVec 4) (d a b : BitVec 5) :
    Statement (.and g d a b) := fits_of_some rfl (pack4_fits (by decide))
theorem Encodes.or (g : BitVec 4) (d a b : BitVec 5) : Statement (.or g d a b) := fits_of_some rfl (pack4_fits (by decide))
theorem Encodes.xor (g : BitVec 4) (d a b : BitVec 5) :
    Statement (.xor g d a b) := fits_of_some rfl (pack4_fits (by decide))
theorem Encodes.andn (g : BitVec 4) (d a b : BitVec 5) :
    Statement (.andn g d a b) := fits_of_some rfl (pack4_fits (by decide))
theorem Encodes.shl (g : BitVec 4) (d a b : BitVec 5) :
    Statement (.shl g d a b) := fits_of_some rfl (pack4_fits (by decide))
theorem Encodes.shr (g : BitVec 4) (d a b : BitVec 5) :
    Statement (.shr g d a b) := fits_of_some rfl (pack4_fits (by decide))
theorem Encodes.sar (g : BitVec 4) (d a b : BitVec 5) :
    Statement (.sar g d a b) := fits_of_some rfl (pack4_fits (by decide))
theorem Encodes.ror (g : BitVec 4) (d a b : BitVec 5) :
    Statement (.ror g d a b) := fits_of_some rfl (pack4_fits (by decide))
theorem Encodes.min (g : BitVec 4) (d a b : BitVec 5) :
    Statement (.min g d a b) := fits_of_some rfl (pack4_fits (by decide))
theorem Encodes.minN (g : BitVec 4) (d a b : BitVec 5) :
    Statement (.minN g d a b) := fits_of_some rfl (pack4_fits (by decide))
theorem Encodes.max (g : BitVec 4) (d a b : BitVec 5) :
    Statement (.max g d a b) := fits_of_some rfl (pack4_fits (by decide))
theorem Encodes.maxN (g : BitVec 4) (d a b : BitVec 5) :
    Statement (.maxN g d a b) := fits_of_some rfl (pack4_fits (by decide))
theorem Encodes.mul (g : BitVec 4) (d a b : BitVec 5) :
    Statement (.mul g d a b) := fits_of_some rfl (pack4_fits (by decide))
theorem Encodes.mulh (g : BitVec 4) (d a b : BitVec 5) :
    Statement (.mulh g d a b) := fits_of_some rfl (pack4_fits (by decide))
theorem Encodes.mulhN (g : BitVec 4) (d a b : BitVec 5) :
    Statement (.mulhN g d a b) := fits_of_some rfl (pack4_fits (by decide))
theorem Encodes.madd (g : BitVec 4) (d a b c : BitVec 5) :
    Statement (.madd g d a b c) := fits_of_some rfl (pack5_fits (by decide))
theorem Encodes.div (g : BitVec 4) (d a b : BitVec 5) :
    Statement (.div g d a b) := fits_of_some rfl (pack4_fits (by decide))
theorem Encodes.divN (g : BitVec 4) (d a b : BitVec 5) :
    Statement (.divN g d a b) := fits_of_some rfl (pack4_fits (by decide))
theorem Encodes.rem (g : BitVec 4) (d a b : BitVec 5) :
    Statement (.rem g d a b) := fits_of_some rfl (pack4_fits (by decide))
theorem Encodes.remN (g : BitVec 4) (d a b : BitVec 5) :
    Statement (.remN g d a b) := fits_of_some rfl (pack4_fits (by decide))
theorem Encodes.sextB (g : BitVec 4) (d a : BitVec 5) :
    Statement (.sextB g d a) := fits_of_some rfl (pack6_fits (by decide))
theorem Encodes.sextH (g : BitVec 4) (d a : BitVec 5) :
    Statement (.sextH g d a) := fits_of_some rfl (pack6_fits (by decide))
theorem Encodes.sextW (g : BitVec 4) (d a : BitVec 5) :
    Statement (.sextW g d a) := fits_of_some rfl (pack6_fits (by decide))
theorem Encodes.zextB (g : BitVec 4) (d a : BitVec 5) :
    Statement (.zextB g d a) := fits_of_some rfl (pack6_fits (by decide))
theorem Encodes.zextH (g : BitVec 4) (d a : BitVec 5) :
    Statement (.zextH g d a) := fits_of_some rfl (pack6_fits (by decide))
theorem Encodes.zextW (g : BitVec 4) (d a : BitVec 5) :
    Statement (.zextW g d a) := fits_of_some rfl (pack6_fits (by decide))
theorem Encodes.popc (g : BitVec 4) (d a : BitVec 5) : Statement (.popc g d a) := fits_of_some rfl (pack6_fits (by decide))
theorem Encodes.clz (g : BitVec 4) (d a : BitVec 5) : Statement (.clz g d a) := fits_of_some rfl (pack6_fits (by decide))
theorem Encodes.ctz (g : BitVec 4) (d a : BitVec 5) : Statement (.ctz g d a) := fits_of_some rfl (pack6_fits (by decide))
theorem Encodes.addi (g : BitVec 4) (d a : BitVec 5) (imm : BitVec 18) :
    Statement (.addi g d a imm) := fits_of_some rfl (pack7_fits (by decide))
theorem Encodes.andi (g : BitVec 4) (d a : BitVec 5) (imm : BitVec 18) :
    Statement (.andi g d a imm) := fits_of_some rfl (pack7_fits (by decide))
theorem Encodes.ori (g : BitVec 4) (d a : BitVec 5) (imm : BitVec 18) :
    Statement (.ori g d a imm) := fits_of_some rfl (pack7_fits (by decide))
theorem Encodes.xori (g : BitVec 4) (d a : BitVec 5) (imm : BitVec 18) :
    Statement (.xori g d a imm) := fits_of_some rfl (pack7_fits (by decide))
theorem Encodes.shli (g : BitVec 4) (d a : BitVec 5) (imm : BitVec 18) :
    Statement (.shli g d a imm) := fits_of_some rfl (pack7_fits (by decide))
theorem Encodes.shri (g : BitVec 4) (d a : BitVec 5) (imm : BitVec 18) :
    Statement (.shri g d a imm) := fits_of_some rfl (pack7_fits (by decide))
theorem Encodes.sari (g : BitVec 4) (d a : BitVec 5) (imm : BitVec 18) :
    Statement (.sari g d a imm) := fits_of_some rfl (pack7_fits (by decide))
theorem Encodes.shori (g : BitVec 4) (d a : BitVec 5) (imm : BitVec 18) :
    Statement (.shori g d a imm) := fits_of_some rfl (pack7_fits (by decide))
theorem Encodes.adda (g : BitVec 4) (d a b : BitVec 5) (m : BitVec 3) :
    Statement (.adda g d a b m) := fits_of_some rfl (pack8_fits (by decide))
theorem Encodes.movAS (g : BitVec 4) (d a : BitVec 5) :
    Statement (.movAS g d a) := fits_of_some rfl (pack6_fits (by decide))
theorem Encodes.movSA (g : BitVec 4) (d a : BitVec 5) :
    Statement (.movSA g d a) := fits_of_some rfl (pack6_fits (by decide))
theorem Encodes.movNS (g : BitVec 4) (d a : BitVec 5) :
    Statement (.movNS g d a) := fits_of_some rfl (pack6_fits (by decide))
theorem Encodes.movSN (g : BitVec 4) (d a : BitVec 5) :
    Statement (.movSN g d a) := fits_of_some rfl (pack6_fits (by decide))
theorem Encodes.movES (g : BitVec 4) (d a : BitVec 5) :
    Statement (.movES g d a) := fits_of_some rfl (pack6_fits (by decide))
theorem Encodes.movSE (g : BitVec 4) (d a : BitVec 5) :
    Statement (.movSE g d a) := fits_of_some rfl (pack6_fits (by decide))
theorem Encodes.movToControl (g : BitVec 4) (x a y : BitVec 5) :
    Statement (.movToControl g x a y) := fits_of_some rfl (pack4_fits (by decide))
theorem Encodes.movFromControl (g : BitVec 4) (d x y : BitVec 5) :
    Statement (.movFromControl g d x y) := fits_of_some rfl (pack4_fits (by decide))
theorem Encodes.movGS (g : BitVec 4) (d a : BitVec 5) :
    Statement (.movGS g d a) := fits_of_some rfl (pack6_fits (by decide))
theorem Encodes.movSG (g : BitVec 4) (d a : BitVec 5) :
    Statement (.movSG g d a) := fits_of_some rfl (pack6_fits (by decide))
theorem Encodes.gget (g : BitVec 4) (d : BitVec 5) : Statement (.gget g d) := fits_of_some rfl (pack9_fits (by decide))
theorem Encodes.gset (g : BitVec 4) (a : BitVec 5) : Statement (.gset g a) := fits_of_some rfl (pack10_fits (by decide))
theorem Encodes.cmpEq (g h : BitVec 4) (a b : BitVec 5) :
    Statement (.cmpEq g h a b) := fits_of_some rfl (pack11_fits (by decide))
theorem Encodes.cmpEqImm (g h : BitVec 4) (a : BitVec 5) (imm : BitVec 18) :
    Statement (.cmpEqImm g h a imm) := fits_of_some rfl (pack12_fits (by decide))
theorem Encodes.cmpLt (g h : BitVec 4) (a b : BitVec 5) :
    Statement (.cmpLt g h a b) := fits_of_some rfl (pack11_fits (by decide))
theorem Encodes.cmpLtImm (g h : BitVec 4) (a : BitVec 5) (imm : BitVec 18) :
    Statement (.cmpLtImm g h a imm) := fits_of_some rfl (pack12_fits (by decide))
theorem Encodes.cmpLe (g h : BitVec 4) (a b : BitVec 5) :
    Statement (.cmpLe g h a b) := fits_of_some rfl (pack11_fits (by decide))
theorem Encodes.cmpLeImm (g h : BitVec 4) (a : BitVec 5) (imm : BitVec 18) :
    Statement (.cmpLeImm g h a imm) := fits_of_some rfl (pack12_fits (by decide))
theorem Encodes.cmpLtn (g h : BitVec 4) (a b : BitVec 5) :
    Statement (.cmpLtn g h a b) := fits_of_some rfl (pack11_fits (by decide))
theorem Encodes.cmpLtnImm (g h : BitVec 4) (a : BitVec 5) (imm : BitVec 18) :
    Statement (.cmpLtnImm g h a imm) := fits_of_some rfl (pack12_fits (by decide))
theorem Encodes.cmpLen (g h : BitVec 4) (a b : BitVec 5) :
    Statement (.cmpLen g h a b) := fits_of_some rfl (pack11_fits (by decide))
theorem Encodes.cmpLenImm (g h : BitVec 4) (a : BitVec 5) (imm : BitVec 18) :
    Statement (.cmpLenImm g h a imm) := fits_of_some rfl (pack12_fits (by decide))
theorem Encodes.cmpTst (g h : BitVec 4) (a b : BitVec 5) :
    Statement (.cmpTst g h a b) := fits_of_some rfl (pack11_fits (by decide))
theorem Encodes.cmpTstImm (g h : BitVec 4) (a : BitVec 5) (imm : BitVec 18) :
    Statement (.cmpTstImm g h a imm) := fits_of_some rfl (pack12_fits (by decide))
theorem Encodes.brT (g : BitVec 4) (o : BitVec 19) : Statement (.brT g o) := fits_of_some rfl (pack13_fits (by decide))
theorem Encodes.brNt (g : BitVec 4) (o : BitVec 19) : Statement (.brNt g o) := fits_of_some rfl (pack13_fits (by decide))
theorem Encodes.call (g : BitVec 4) (o : BitVec 19) : Statement (.call g o) := fits_of_some rfl (pack13_fits (by decide))
theorem Encodes.bri (g : BitVec 4) (a : BitVec 5) : Statement (.bri g a) := fits_of_some rfl (pack14_fits (by decide))
theorem Encodes.ret (g : BitVec 4) (a : BitVec 5) : Statement (.ret g a) := fits_of_some rfl (pack14_fits (by decide))
theorem Encodes.loop (g : BitVec 4) (l : BitVec 2) (e : BitVec 10) (a : BitVec 5) :
    Statement (.loop g l e a) := fits_of_some rfl (pack15_fits (by decide))
theorem Encodes.wait (g l s c t : BitVec 4) : Statement (.wait g l s c t) := fits_of_some rfl (pack16_fits (by decide))
theorem Encodes.waitt (g c : BitVec 4) (a : BitVec 5) :
    Statement (.waitt g c a) := fits_of_some rfl (pack17_fits (by decide))
theorem Encodes.fence (g : BitVec 4) : Statement (.fence g) := fits_of_some rfl (pack3_fits (by decide))
theorem Encodes.lpoff (g : BitVec 4) (l : BitVec 2) : Statement (.lpoff g l) := fits_of_some rfl (pack18_fits (by decide))
theorem Encodes.ldB (g : BitVec 4) (d : BitVec 5) (a : BitVec 4) (u : BitVec 1) (off : BitVec 18) :
    Statement (.ldB g d a u off) := fits_of_some rfl (pack19_fits (by decide))
theorem Encodes.ldH (g : BitVec 4) (d : BitVec 5) (a : BitVec 4) (u : BitVec 1) (off : BitVec 18) :
    Statement (.ldH g d a u off) := fits_of_some rfl (pack19_fits (by decide))
theorem Encodes.ldW (g : BitVec 4) (d : BitVec 5) (a : BitVec 4) (u : BitVec 1) (off : BitVec 18) :
    Statement (.ldW g d a u off) := fits_of_some rfl (pack19_fits (by decide))
theorem Encodes.ldD (g : BitVec 4) (d : BitVec 5) (a : BitVec 4) (u : BitVec 1) (off : BitVec 18) :
    Statement (.ldD g d a u off) := fits_of_some rfl (pack19_fits (by decide))
theorem Encodes.stB (g : BitVec 4) (d : BitVec 5) (a : BitVec 4) (u : BitVec 1) (off : BitVec 18) :
    Statement (.stB g d a u off) := fits_of_some rfl (pack19_fits (by decide))
theorem Encodes.stH (g : BitVec 4) (d : BitVec 5) (a : BitVec 4) (u : BitVec 1) (off : BitVec 18) :
    Statement (.stH g d a u off) := fits_of_some rfl (pack19_fits (by decide))
theorem Encodes.stW (g : BitVec 4) (d : BitVec 5) (a : BitVec 4) (u : BitVec 1) (off : BitVec 18) :
    Statement (.stW g d a u off) := fits_of_some rfl (pack19_fits (by decide))
theorem Encodes.stD (g : BitVec 4) (d : BitVec 5) (a : BitVec 4) (u : BitVec 1) (off : BitVec 18) :
    Statement (.stD g d a u off) := fits_of_some rfl (pack19_fits (by decide))
theorem Encodes.atmW (g : BitVec 4) (d : BitVec 5) (a : BitVec 4) (u : BitVec 1) (p : BitVec 4) (o : BitVec 6) :
    Statement (.atmW g d a u p o) := fits_of_some rfl (pack20_fits (by decide))
theorem Encodes.atmD (g : BitVec 4) (d : BitVec 5) (a : BitVec 4) (u : BitVec 1) (p : BitVec 4) (o : BitVec 6) :
    Statement (.atmD g d a u p o) := fits_of_some rfl (pack20_fits (by decide))
theorem Encodes.vand (g : BitVec 4) (d a b : BitVec 5) (k : BitVec 3) :
    Statement (.vand g d a b k) := fits_of_some rfl (pack8_fits (by decide))
theorem Encodes.vor (g : BitVec 4) (d a b : BitVec 5) (k : BitVec 3) :
    Statement (.vor g d a b k) := fits_of_some rfl (pack8_fits (by decide))
theorem Encodes.vxor (g : BitVec 4) (d a b : BitVec 5) (k : BitVec 3) :
    Statement (.vxor g d a b k) := fits_of_some rfl (pack8_fits (by decide))
theorem Encodes.vandn (g : BitVec 4) (d a b : BitVec 5) (k : BitVec 3) :
    Statement (.vandn g d a b k) := fits_of_some rfl (pack8_fits (by decide))
theorem Encodes.vaddI32 (g : BitVec 4) (d a b : BitVec 5) (k : BitVec 3) :
    Statement (.vaddI32 g d a b k) := fits_of_some rfl (pack8_fits (by decide))
theorem Encodes.vsubI32 (g : BitVec 4) (d a b : BitVec 5) (k : BitVec 3) :
    Statement (.vsubI32 g d a b k) := fits_of_some rfl (pack8_fits (by decide))
theorem Encodes.vmulI32 (g : BitVec 4) (d a b : BitVec 5) (k : BitVec 3) :
    Statement (.vmulI32 g d a b k) := fits_of_some rfl (pack8_fits (by decide))
theorem Encodes.vaddI16 (g : BitVec 4) (d a b : BitVec 5) (k : BitVec 3) :
    Statement (.vaddI16 g d a b k) := fits_of_some rfl (pack8_fits (by decide))
theorem Encodes.vsubI16 (g : BitVec 4) (d a b : BitVec 5) (k : BitVec 3) :
    Statement (.vsubI16 g d a b k) := fits_of_some rfl (pack8_fits (by decide))
theorem Encodes.vaddsI16 (g : BitVec 4) (d a b : BitVec 5) (k : BitVec 3) :
    Statement (.vaddsI16 g d a b k) := fits_of_some rfl (pack8_fits (by decide))
theorem Encodes.vsubsI16 (g : BitVec 4) (d a b : BitVec 5) (k : BitVec 3) :
    Statement (.vsubsI16 g d a b k) := fits_of_some rfl (pack8_fits (by decide))
theorem Encodes.vaddI8 (g : BitVec 4) (d a b : BitVec 5) (k : BitVec 3) :
    Statement (.vaddI8 g d a b k) := fits_of_some rfl (pack8_fits (by decide))
theorem Encodes.vsubI8 (g : BitVec 4) (d a b : BitVec 5) (k : BitVec 3) :
    Statement (.vsubI8 g d a b k) := fits_of_some rfl (pack8_fits (by decide))
theorem Encodes.vaddsI8 (g : BitVec 4) (d a b : BitVec 5) (k : BitVec 3) :
    Statement (.vaddsI8 g d a b k) := fits_of_some rfl (pack8_fits (by decide))
theorem Encodes.vsubsI8 (g : BitVec 4) (d a b : BitVec 5) (k : BitVec 3) :
    Statement (.vsubsI8 g d a b k) := fits_of_some rfl (pack8_fits (by decide))
theorem Encodes.vminI32 (g : BitVec 4) (d a b : BitVec 5) (k : BitVec 3) :
    Statement (.vminI32 g d a b k) := fits_of_some rfl (pack8_fits (by decide))
theorem Encodes.vmaxI32 (g : BitVec 4) (d a b : BitVec 5) (k : BitVec 3) :
    Statement (.vmaxI32 g d a b k) := fits_of_some rfl (pack8_fits (by decide))
theorem Encodes.vminN32 (g : BitVec 4) (d a b : BitVec 5) (k : BitVec 3) :
    Statement (.vminN32 g d a b k) := fits_of_some rfl (pack8_fits (by decide))
theorem Encodes.vmaxN32 (g : BitVec 4) (d a b : BitVec 5) (k : BitVec 3) :
    Statement (.vmaxN32 g d a b k) := fits_of_some rfl (pack8_fits (by decide))
theorem Encodes.vshlI32 (g : BitVec 4) (d a b : BitVec 5) (k : BitVec 3) :
    Statement (.vshlI32 g d a b k) := fits_of_some rfl (pack8_fits (by decide))
theorem Encodes.vshrN32 (g : BitVec 4) (d a b : BitVec 5) (k : BitVec 3) :
    Statement (.vshrN32 g d a b k) := fits_of_some rfl (pack8_fits (by decide))
theorem Encodes.vsarI32 (g : BitVec 4) (d a b : BitVec 5) (k : BitVec 3) :
    Statement (.vsarI32 g d a b k) := fits_of_some rfl (pack8_fits (by decide))
theorem Encodes.vdot4I8 (g : BitVec 4) (d a b : BitVec 5) (k : BitVec 3) (c : BitVec 5) :
    Statement (.vdot4I8 g d a b k c) := fits_of_some rfl (pack21_fits (by decide))
theorem Encodes.vdot4N8 (g : BitVec 4) (d a b : BitVec 5) (k : BitVec 3) (c : BitVec 5) :
    Statement (.vdot4N8 g d a b k c) := fits_of_some rfl (pack21_fits (by decide))
theorem Encodes.vdot2I16 (g : BitVec 4) (d a b : BitVec 5) (k : BitVec 3) (c : BitVec 5) :
    Statement (.vdot2I16 g d a b k c) := fits_of_some rfl (pack21_fits (by decide))
theorem Encodes.vdot2N16 (g : BitVec 4) (d a b : BitVec 5) (k : BitVec 3) (c : BitVec 5) :
    Statement (.vdot2N16 g d a b k c) := fits_of_some rfl (pack21_fits (by decide))
theorem Encodes.vaddF32 (g : BitVec 4) (d a b : BitVec 5) (k : BitVec 3) :
    Statement (.vaddF32 g d a b k) := fits_of_some rfl (pack8_fits (by decide))
theorem Encodes.vsubF32 (g : BitVec 4) (d a b : BitVec 5) (k : BitVec 3) :
    Statement (.vsubF32 g d a b k) := fits_of_some rfl (pack8_fits (by decide))
theorem Encodes.vmulF32 (g : BitVec 4) (d a b : BitVec 5) (k : BitVec 3) :
    Statement (.vmulF32 g d a b k) := fits_of_some rfl (pack8_fits (by decide))
theorem Encodes.vfmaF32 (g : BitVec 4) (d a b : BitVec 5) (k : BitVec 3) (c : BitVec 5) :
    Statement (.vfmaF32 g d a b k c) := fits_of_some rfl (pack21_fits (by decide))
theorem Encodes.vfmsF32 (g : BitVec 4) (d a b : BitVec 5) (k : BitVec 3) (c : BitVec 5) :
    Statement (.vfmsF32 g d a b k c) := fits_of_some rfl (pack21_fits (by decide))
theorem Encodes.vminF32 (g : BitVec 4) (d a b : BitVec 5) (k : BitVec 3) :
    Statement (.vminF32 g d a b k) := fits_of_some rfl (pack8_fits (by decide))
theorem Encodes.vmaxF32 (g : BitVec 4) (d a b : BitVec 5) (k : BitVec 3) :
    Statement (.vmaxF32 g d a b k) := fits_of_some rfl (pack8_fits (by decide))
theorem Encodes.vsubBf16 (g : BitVec 4) (d a b : BitVec 5) (k : BitVec 3) :
    Statement (.vsubBf16 g d a b k) := fits_of_some rfl (pack8_fits (by decide))
theorem Encodes.vaddBf16 (g : BitVec 4) (d a b : BitVec 5) (k : BitVec 3) :
    Statement (.vaddBf16 g d a b k) := fits_of_some rfl (pack8_fits (by decide))
theorem Encodes.vmulBf16 (g : BitVec 4) (d a b : BitVec 5) (k : BitVec 3) :
    Statement (.vmulBf16 g d a b k) := fits_of_some rfl (pack8_fits (by decide))
theorem Encodes.vfmaBf16 (g : BitVec 4) (d a b : BitVec 5) (k : BitVec 3) (c : BitVec 5) :
    Statement (.vfmaBf16 g d a b k c) := fits_of_some rfl (pack21_fits (by decide))
theorem Encodes.vaddF16 (g : BitVec 4) (d a b : BitVec 5) (k : BitVec 3) :
    Statement (.vaddF16 g d a b k) := fits_of_some rfl (pack8_fits (by decide))
theorem Encodes.vmulF16 (g : BitVec 4) (d a b : BitVec 5) (k : BitVec 3) :
    Statement (.vmulF16 g d a b k) := fits_of_some rfl (pack8_fits (by decide))
theorem Encodes.vfmaF16 (g : BitVec 4) (d a b : BitVec 5) (k : BitVec 3) (c : BitVec 5) :
    Statement (.vfmaF16 g d a b k c) := fits_of_some rfl (pack21_fits (by decide))
theorem Encodes.vrcpaF32 (g : BitVec 4) (d a : BitVec 5) (k : BitVec 3) :
    Statement (.vrcpaF32 g d a k) := fits_of_some rfl (pack22_fits (by decide))
theorem Encodes.vrsqaF32 (g : BitVec 4) (d a : BitVec 5) (k : BitVec 3) :
    Statement (.vrsqaF32 g d a k) := fits_of_some rfl (pack22_fits (by decide))
theorem Encodes.vcvtF32I32 (g : BitVec 4) (d a : BitVec 5) (m : BitVec 2) (k : BitVec 3) :
    Statement (.vcvtF32I32 g d a m k) := fits_of_some rfl (pack23_fits (by decide))
theorem Encodes.vcvtF32N32 (g : BitVec 4) (d a : BitVec 5) (m : BitVec 2) (k : BitVec 3) :
    Statement (.vcvtF32N32 g d a m k) := fits_of_some rfl (pack23_fits (by decide))
theorem Encodes.vcvtI32F32 (g : BitVec 4) (d a : BitVec 5) (m : BitVec 2) (k : BitVec 3) :
    Statement (.vcvtI32F32 g d a m k) := fits_of_some rfl (pack23_fits (by decide))
theorem Encodes.vcvtN32F32 (g : BitVec 4) (d a : BitVec 5) (m : BitVec 2) (k : BitVec 3) :
    Statement (.vcvtN32F32 g d a m k) := fits_of_some rfl (pack23_fits (by decide))
theorem Encodes.vcvtBf16F32 (g : BitVec 4) (d a : BitVec 5) (m : BitVec 2) (k : BitVec 3) :
    Statement (.vcvtBf16F32 g d a m k) := fits_of_some rfl (pack23_fits (by decide))
theorem Encodes.vcvtF16F32 (g : BitVec 4) (d a : BitVec 5) (m : BitVec 2) (k : BitVec 3) :
    Statement (.vcvtF16F32 g d a m k) := fits_of_some rfl (pack23_fits (by decide))
theorem Encodes.vcvtE4m3F32 (g : BitVec 4) (d a : BitVec 5) (m : BitVec 2) (n : BitVec 1) (k : BitVec 3) :
    Statement (.vcvtE4m3F32 g d a m n k) := fits_of_some rfl (pack24_fits (by decide))
theorem Encodes.vcvtE5m2F32 (g : BitVec 4) (d a : BitVec 5) (m : BitVec 2) (n : BitVec 1) (k : BitVec 3) :
    Statement (.vcvtE5m2F32 g d a m n k) := fits_of_some rfl (pack24_fits (by decide))
theorem Encodes.vcvtF32Widen (g : BitVec 4) (d a : BitVec 5) (f : BitVec 2) (k : BitVec 3) :
    Statement (.vcvtF32Widen g d a f k) := fits_of_some rfl (pack23_fits (by decide))
theorem Encodes.vcvtQ4F32 (g : BitVec 4) (d a : BitVec 5) (m t : BitVec 2) :
    Statement (.vcvtQ4F32 g d a m t) := fits_of_some rfl (pack25_fits (by decide))
theorem Encodes.vcvtF32Q4 (g : BitVec 4) (d a : BitVec 5) (k : BitVec 3) :
    Statement (.vcvtF32Q4 g d a k) := fits_of_some rfl (pack22_fits (by decide))
theorem Encodes.vcmpF32 (g : BitVec 4) (c : BitVec 2) (h : BitVec 3) (a b : BitVec 5) (k : BitVec 3) :
    Statement (.vcmpF32 g c h a b k) := fits_of_some rfl (pack26_fits (by decide))
theorem Encodes.vcmpI32 (g : BitVec 4) (c : BitVec 2) (h : BitVec 3) (a b : BitVec 5) (k : BitVec 3) :
    Statement (.vcmpI32 g c h a b k) := fits_of_some rfl (pack26_fits (by decide))
theorem Encodes.vcmpN32 (g : BitVec 4) (c : BitVec 2) (h : BitVec 3) (a b : BitVec 5) (k : BitVec 3) :
    Statement (.vcmpN32 g c h a b k) := fits_of_some rfl (pack26_fits (by decide))
theorem Encodes.klogic (g : BitVec 4) (l : BitVec 2) (h a b : BitVec 3) :
    Statement (.klogic g l h a b) := fits_of_some rfl (pack27_fits (by decide))
theorem Encodes.vbcast (g : BitVec 4) (d a : BitVec 5) (k : BitVec 3) :
    Statement (.vbcast g d a k) := fits_of_some rfl (pack22_fits (by decide))
theorem Encodes.viota (g : BitVec 4) (d a : BitVec 5) (k : BitVec 3) :
    Statement (.viota g d a k) := fits_of_some rfl (pack22_fits (by decide))
theorem Encodes.vperm (g : BitVec 4) (d a b : BitVec 5) (k : BitVec 3) :
    Statement (.vperm g d a b k) := fits_of_some rfl (pack8_fits (by decide))
theorem Encodes.vred (g : BitVec 4) (d a : BitVec 5) (r : BitVec 3) (n : BitVec 2) (k : BitVec 3) :
    Statement (.vred g d a r n k) := fits_of_some rfl (pack28_fits (by decide))
theorem Encodes.vld (g : BitVec 4) (d : BitVec 5) (a : BitVec 4) (u : BitVec 1) (off : BitVec 18) :
    Statement (.vld g d a u off) := fits_of_some rfl (pack19_fits (by decide))
theorem Encodes.vst (g : BitVec 4) (d : BitVec 5) (a : BitVec 4) (u : BitVec 1) (off : BitVec 18) :
    Statement (.vst g d a u off) := fits_of_some rfl (pack19_fits (by decide))
theorem Encodes.vldW (g : BitVec 4) (d : BitVec 5) (a : BitVec 4) (u : BitVec 1) (off : BitVec 18) :
    Statement (.vldW g d a u off) := fits_of_some rfl (pack19_fits (by decide))
theorem Encodes.vstW (g : BitVec 4) (d : BitVec 5) (a : BitVec 4) (u : BitVec 1) (off : BitVec 18) :
    Statement (.vstW g d a u off) := fits_of_some rfl (pack19_fits (by decide))
theorem Encodes.vldK (g : BitVec 4) (d : BitVec 3) (a : BitVec 4) (u : BitVec 1) (off : BitVec 18) :
    Statement (.vldK g d a u off) := fits_of_some rfl (pack29_fits (by decide))
theorem Encodes.vstK (g : BitVec 4) (d : BitVec 3) (a : BitVec 4) (u : BitVec 1) (off : BitVec 18) :
    Statement (.vstK g d a u off) := fits_of_some rfl (pack29_fits (by decide))
theorem Encodes.trdr (g x y : BitVec 4) (v : BitVec 5) (k : BitVec 3) (m : BitVec 2) :
    Statement (.trdr g x y v k m) := fits_of_some rfl (pack30_fits (by decide))
theorem Encodes.trdc (g x y : BitVec 4) (v : BitVec 5) (k : BitVec 3) (m : BitVec 2) :
    Statement (.trdc g x y v k m) := fits_of_some rfl (pack30_fits (by decide))
theorem Encodes.twrr32 (g x y : BitVec 4) (v : BitVec 5) (k : BitVec 3) :
    Statement (.twrr32 g x y v k) := fits_of_some rfl (pack31_fits (by decide))
theorem Encodes.twrc32 (g x y : BitVec 4) (v : BitVec 5) (k : BitVec 3) :
    Statement (.twrc32 g x y v k) := fits_of_some rfl (pack31_fits (by decide))
theorem Encodes.twrr16 (g x y : BitVec 4) (v : BitVec 5) (k : BitVec 3) (m : BitVec 2) :
    Statement (.twrr16 g x y v k m) := fits_of_some rfl (pack30_fits (by decide))
theorem Encodes.twrc16 (g x y : BitVec 4) (v : BitVec 5) (k : BitVec 3) (m : BitVec 2) :
    Statement (.twrc16 g x y v k m) := fits_of_some rfl (pack30_fits (by decide))
theorem Encodes.twrr8 (g x y : BitVec 4) (v : BitVec 5) (k : BitVec 3) (m : BitVec 2) :
    Statement (.twrr8 g x y v k m) := fits_of_some rfl (pack30_fits (by decide))
theorem Encodes.twrc8 (g x y : BitVec 4) (v : BitVec 5) (k : BitVec 3) (m : BitVec 2) :
    Statement (.twrc8 g x y v k m) := fits_of_some rfl (pack30_fits (by decide))
theorem Encodes.twrr8Nan (g x y : BitVec 4) (v : BitVec 5) (k : BitVec 3) (m : BitVec 2) :
    Statement (.twrr8Nan g x y v k m) := fits_of_some rfl (pack30_fits (by decide))
theorem Encodes.twrc8Nan (g x y : BitVec 4) (v : BitVec 5) (k : BitVec 3) (m : BitVec 2) :
    Statement (.twrc8Nan g x y v k m) := fits_of_some rfl (pack30_fits (by decide))
theorem Encodes.tld (g x : BitVec 4) (v : BitVec 5) : Statement (.tld g x v) := fits_of_some rfl (pack32_fits (by decide))
theorem Encodes.tst (g x : BitVec 4) (v : BitVec 5) : Statement (.tst g x v) := fits_of_some rfl (pack32_fits (by decide))
theorem Encodes.mwl (g x y : BitVec 4) (f : BitVec 3) :
    Statement (.mwl g x y f) := fits_of_some rfl (pack33_fits (by decide))
theorem Encodes.mwlm (g x y : BitVec 4) (v : BitVec 5) (f : BitVec 3) :
    Statement (.mwlm g x y v f) := fits_of_some rfl (pack31_fits (by decide))
theorem Encodes.mwlp (g x y : BitVec 4) (f : BitVec 3) :
    Statement (.mwlp g x y f) := fits_of_some rfl (pack33_fits (by decide))
theorem Encodes.mwlpm (g x y : BitVec 4) (v : BitVec 5) (f : BitVec 3) :
    Statement (.mwlpm g x y v f) := fits_of_some rfl (pack31_fits (by decide))
theorem Encodes.mwa (g y : BitVec 4) : Statement (.mwa g y) := fits_of_some rfl (pack34_fits (by decide))
theorem Encodes.mwap (g y : BitVec 4) : Statement (.mwap g y) := fits_of_some rfl (pack34_fits (by decide))
theorem Encodes.mms (g x y : BitVec 4) (f : BitVec 3) (z : BitVec 1) :
    Statement (.mms g x y f z) := fits_of_some rfl (pack35_fits (by decide))
theorem Encodes.mmsm (g x y : BitVec 4) (v : BitVec 5) (f : BitVec 3) (z : BitVec 1) :
    Statement (.mmsm g x y v f z) := fits_of_some rfl (pack36_fits (by decide))
theorem Encodes.mmsp (g x y : BitVec 4) (f : BitVec 3) (z : BitVec 1) :
    Statement (.mmsp g x y f z) := fits_of_some rfl (pack35_fits (by decide))
theorem Encodes.mmspm (g x y : BitVec 4) (v : BitVec 5) (f : BitVec 3) (z : BitVec 1) :
    Statement (.mmspm g x y v f z) := fits_of_some rfl (pack36_fits (by decide))
theorem Encodes.mdr (g x y : BitVec 4) (v : BitVec 5) :
    Statement (.mdr g x y v) := fits_of_some rfl (pack37_fits (by decide))
theorem Encodes.mdrm (g x y : BitVec 4) (v : BitVec 5) :
    Statement (.mdrm g x y v) := fits_of_some rfl (pack37_fits (by decide))
theorem Encodes.mdrp (g x y : BitVec 4) (v : BitVec 5) :
    Statement (.mdrp g x y v) := fits_of_some rfl (pack37_fits (by decide))
theorem Encodes.mdrpm (g x y : BitVec 4) (v : BitVec 5) :
    Statement (.mdrpm g x y v) := fits_of_some rfl (pack37_fits (by decide))
theorem Encodes.mpost (g : BitVec 4) (v : BitVec 5) : Statement (.mpost g v) := fits_of_some rfl (pack38_fits (by decide))
theorem Encodes.mzero (g y : BitVec 4) : Statement (.mzero g y) := fits_of_some rfl (pack34_fits (by decide))
theorem Encodes.mzerop (g y : BitVec 4) : Statement (.mzerop g y) := fits_of_some rfl (pack34_fits (by decide))
theorem Encodes.tcpy (g x y : BitVec 4) : Statement (.tcpy g x y) := fits_of_some rfl (pack39_fits (by decide))
theorem Encodes.tzero (g x : BitVec 4) : Statement (.tzero g x) := fits_of_some rfl (pack40_fits (by decide))
theorem Encodes.mdrt (g x y : BitVec 4) (v : BitVec 5) :
    Statement (.mdrt g x y v) := fits_of_some rfl (pack37_fits (by decide))
theorem Encodes.tldt (g x : BitVec 4) (v : BitVec 5) : Statement (.tldt g x v) := fits_of_some rfl (pack32_fits (by decide))
theorem Encodes.tstt (g x : BitVec 4) (v : BitVec 5) : Statement (.tstt g x v) := fits_of_some rfl (pack32_fits (by decide))
theorem Encodes.tshape (g x : BitVec 4) (v : BitVec 5) :
    Statement (.tshape g x v) := fits_of_some rfl (pack32_fits (by decide))
theorem Encodes.cpy (g u e : BitVec 4) (f : BitVec 1) :
    Statement (.cpy g u e f) := fits_of_some rfl (pack41_fits (by decide))
theorem Encodes.cpy2 (g u e : BitVec 4) (f : BitVec 1) :
    Statement (.cpy2 g u e f) := fits_of_some rfl (pack41_fits (by decide))
theorem Encodes.cpyz (g u e p : BitVec 4) : Statement (.cpyz g u e p) := fits_of_some rfl (pack42_fits (by decide))
theorem Encodes.cpyx (g u e p : BitVec 4) : Statement (.cpyx g u e p) := fits_of_some rfl (pack42_fits (by decide))
theorem Encodes.cfill (g u e : BitVec 4) (f : BitVec 1) :
    Statement (.cfill g u e f) := fits_of_some rfl (pack41_fits (by decide))
theorem Encodes.rld (g u e : BitVec 4) : Statement (.rld g u e) := fits_of_some rfl (pack39_fits (by decide))
theorem Encodes.rst (g u e : BitVec 4) (f : BitVec 1) :
    Statement (.rst g u e f) := fits_of_some rfl (pack41_fits (by decide))
theorem Encodes.ratmW (g u e p : BitVec 4) : Statement (.ratmW g u e p) := fits_of_some rfl (pack42_fits (by decide))
theorem Encodes.ratmD (g u e p : BitVec 4) : Statement (.ratmD g u e p) := fits_of_some rfl (pack42_fits (by decide))
theorem Encodes.rred (g u e : BitVec 4) (f : BitVec 1) (p : BitVec 4) :
    Statement (.rred g u e f p) := fits_of_some rfl (pack43_fits (by decide))
theorem Encodes.fput (g u e : BitVec 4) : Statement (.fput g u e) := fits_of_some rfl (pack39_fits (by decide))
theorem Encodes.cfence (g u : BitVec 4) : Statement (.cfence g u) := fits_of_some rfl (pack40_fits (by decide))
theorem Encodes.xchg (g u e : BitVec 4) (q : BitVec 2) :
    Statement (.xchg g u e q) := fits_of_some rfl (pack44_fits (by decide))
theorem Encodes.xcmb (g u e : BitVec 4) (q : BitVec 2) (f : BitVec 3) (o n : BitVec 2) :
    Statement (.xcmb g u e q f o n) := fits_of_some rfl (pack45_fits (by decide))
theorem Encodes.sendif (g u e : BitVec 4) (q : BitVec 2) (s : BitVec 1) (n : BitVec 4) :
    Statement (.sendif g u e q s n) := fits_of_some rfl (pack46_fits (by decide))
theorem Encodes.shiftg (g e : BitVec 4) (q : BitVec 2) (d : BitVec 1) :
    Statement (.shiftg g e q d) := fits_of_some rfl (pack47_fits (by decide))
theorem Encodes.xchgm (g e : BitVec 4) : Statement (.xchgm g e) := fits_of_some rfl (pack34_fits (by decide))
theorem Encodes.xcmbm (g e : BitVec 4) (f : BitVec 3) (o : BitVec 2) :
    Statement (.xcmbm g e f o) := fits_of_some rfl (pack48_fits (by decide))
theorem Encodes.xarm (g u e : BitVec 4) (q : BitVec 2) (c : BitVec 4) :
    Statement (.xarm g u e q c) := fits_of_some rfl (pack49_fits (by decide))
theorem Encodes.xdisarm (g : BitVec 4) (q : BitVec 2) :
    Statement (.xdisarm g q) := fits_of_some rfl (pack50_fits (by decide))
theorem Encodes.xbar (g e : BitVec 4) (q : BitVec 2) : Statement (.xbar g e q) := fits_of_some rfl (pack51_fits (by decide))
theorem Encodes.coll (g e : BitVec 4) : Statement (.coll g e) := fits_of_some rfl (pack34_fits (by decide))
theorem Encodes.route (g u e : BitVec 4) : Statement (.route g u e) := fits_of_some rfl (pack39_fits (by decide))
theorem Encodes.rqcfg (g e : BitVec 4) : Statement (.rqcfg g e) := fits_of_some rfl (pack34_fits (by decide))
theorem Encodes.rqreset (g e : BitVec 4) : Statement (.rqreset g e) := fits_of_some rfl (pack34_fits (by decide))
theorem Encodes.rcsnap (g e : BitVec 4) : Statement (.rcsnap g e) := fits_of_some rfl (pack34_fits (by decide))
theorem Encodes.chain (g e : BitVec 4) : Statement (.chain g e) := fits_of_some rfl (pack34_fits (by decide))
theorem Encodes.chstep (g e : BitVec 4) : Statement (.chstep g e) := fits_of_some rfl (pack34_fits (by decide))
theorem Encodes.chsize (g e : BitVec 4) : Statement (.chsize g e) := fits_of_some rfl (pack34_fits (by decide))
theorem Encodes.chabort (g : BitVec 4) : Statement (.chabort g) := fits_of_some rfl (pack3_fits (by decide))
theorem Encodes.trap (g : BitVec 4) (n : BitVec 10) : Statement (.trap g n) := fits_of_some rfl (pack52_fits (by decide))
theorem Encodes.rte (g : BitVec 4) : Statement (.rte g) := fits_of_some rfl (pack3_fits (by decide))
theorem Encodes.rteSw (g : BitVec 4) : Statement (.rteSw g) := fits_of_some rfl (pack3_fits (by decide))
theorem Encodes.endProg (g : BitVec 4) : Statement (.endProg g) := fits_of_some rfl (pack3_fits (by decide))
theorem Encodes.reraise (g : BitVec 4) : Statement (.reraise g) := fits_of_some rfl (pack3_fits (by decide))
theorem Encodes.lmark (g : BitVec 4) (d a : BitVec 5) :
    Statement (.lmark g d a) := fits_of_some rfl (pack6_fits (by decide))
theorem Encodes.bpoint (g : BitVec 4) : Statement (.bpoint g) := fits_of_some rfl (pack3_fits (by decide))
theorem Encodes.dpoint (g : BitVec 4) : Statement (.dpoint g) := fits_of_some rfl (pack3_fits (by decide))
theorem Encodes.rdcyc (g : BitVec 4) (d : BitVec 5) : Statement (.rdcyc g d) := fits_of_some rfl (pack9_fits (by decide))
theorem Encodes.sdump (g : BitVec 4) : Statement (.sdump g) := fits_of_some rfl (pack3_fits (by decide))
theorem Encodes.enrd (g : BitVec 4) (d : BitVec 5) : Statement (.enrd g d) := fits_of_some rfl (pack9_fits (by decide))
theorem Encodes.enrdRsv (g : BitVec 4) (d : BitVec 5) :
    Statement (.enrdRsv g d) := fits_of_some rfl (pack9_fits (by decide))
theorem Encodes.enres (g : BitVec 4) (d a : BitVec 5) :
    Statement (.enres g d a) := fits_of_some rfl (pack6_fits (by decide))
theorem Encodes.enresRel (g : BitVec 4) (d a : BitVec 5) :
    Statement (.enresRel g d a) := fits_of_some rfl (pack6_fits (by decide))
theorem Encodes.issueBundle : Statement .issueBundle := fits_of_none rfl
theorem Encodes.stallEnd : Statement .stallEnd := fits_of_none rfl
theorem Encodes.longWait : Statement .longWait := fits_of_none rfl
theorem Encodes.resultLands : Statement .resultLands := fits_of_none rfl
theorem Encodes.sramAccessPerformed : Statement .sramAccessPerformed := fits_of_none rfl
theorem Encodes.sramLoadLands : Statement .sramLoadLands := fits_of_none rfl
theorem Encodes.tileOpComplete : Statement .tileOpComplete := fits_of_none rfl
theorem Encodes.correctableError : Statement .correctableError := fits_of_none rfl
theorem Encodes.freezeEnd : Statement .freezeEnd := fits_of_none rfl
theorem Encodes.patrolScrub : Statement .patrolScrub := fits_of_none rfl
theorem Encodes.uncorrectableError : Statement .uncorrectableError := fits_of_none rfl
theorem Encodes.windowTableWrite : Statement .windowTableWrite := fits_of_none rfl
theorem Encodes.wtlockSet : Statement .wtlockSet := fits_of_none rfl
theorem Encodes.codeStoreLoad : Statement .codeStoreLoad := fits_of_none rfl
theorem Encodes.controlPathRegisterWrite : Statement .controlPathRegisterWrite := fits_of_none rfl
theorem Encodes.commandStart : Statement .commandStart := fits_of_none rfl
theorem Encodes.issueBufferEnter : Statement .issueBufferEnter := fits_of_none rfl
theorem Encodes.blockTransfer : Statement .blockTransfer := fits_of_none rfl
theorem Encodes.commandComplete : Statement .commandComplete := fits_of_none rfl
theorem Encodes.supply : Statement .supply := fits_of_none rfl
theorem Encodes.refuse : Statement .refuse := fits_of_none rfl
theorem Encodes.discard : Statement .discard := fits_of_none rfl
theorem Encodes.reclaim : Statement .reclaim := fits_of_none rfl
theorem Encodes.pgresRead : Statement .pgresRead := fits_of_none rfl
theorem Encodes.writePacket : Statement .writePacket := fits_of_none rfl
theorem Encodes.readRequest : Statement .readRequest := fits_of_none rfl
theorem Encodes.readResponse : Statement .readResponse := fits_of_none rfl
theorem Encodes.atomicPacket : Statement .atomicPacket := fits_of_none rfl
theorem Encodes.atomicResponse : Statement .atomicResponse := fits_of_none rfl
theorem Encodes.reduceStore : Statement .reduceStore := fits_of_none rfl
theorem Encodes.flagPacket : Statement .flagPacket := fits_of_none rfl
theorem Encodes.transferAcknowledgement : Statement .transferAcknowledgement := fits_of_none rfl
theorem Encodes.exchangeData : Statement .exchangeData := fits_of_none rfl
theorem Encodes.unreachableNotice : Statement .unreachableNotice := fits_of_none rfl
theorem Encodes.linkAcknowledgement : Statement .linkAcknowledgement := fits_of_none rfl
theorem Encodes.negativeAcknowledgement : Statement .negativeAcknowledgement := fits_of_none rfl
theorem Encodes.replayTimeout : Statement .replayTimeout := fits_of_none rfl
theorem Encodes.detourForward : Statement .detourForward := fits_of_none rfl
theorem Encodes.lossOfSignal : Statement .lossOfSignal := fits_of_none rfl
theorem Encodes.guylineSwitchBack : Statement .guylineSwitchBack := fits_of_none rfl
theorem Encodes.managementEnable : Statement .managementEnable := fits_of_none rfl
theorem Encodes.managementDisable : Statement .managementDisable := fits_of_none rfl
theorem Encodes.failedRetrain : Statement .failedRetrain := fits_of_none rfl
theorem Encodes.trainingComplete : Statement .trainingComplete := fits_of_none rfl
theorem Encodes.trainTimeout : Statement .trainTimeout := fits_of_none rfl
theorem Encodes.rekeyStart : Statement .rekeyStart := fits_of_none rfl
theorem Encodes.rekeyComplete : Statement .rekeyComplete := fits_of_none rfl
theorem Encodes.nonceLimit : Statement .nonceLimit := fits_of_none rfl
theorem Encodes.park : Statement .park := fits_of_none rfl
theorem Encodes.parkack : Statement .parkack := fits_of_none rfl
theorem Encodes.ready : Statement .ready := fits_of_none rfl
theorem Encodes.abort : Statement .abort := fits_of_none rfl
theorem Encodes.exchangeTimeout : Statement .exchangeTimeout := fits_of_none rfl
theorem Encodes.xarmFire : Statement .xarmFire := fits_of_none rfl
theorem Encodes.walkerRound : Statement .walkerRound := fits_of_none rfl
theorem Encodes.routeRowReceive : Statement .routeRowReceive := fits_of_none rfl
theorem Encodes.taskDispatch : Statement .taskDispatch := fits_of_none rfl
theorem Encodes.chainStepStart : Statement .chainStepStart := fits_of_none rfl
theorem Encodes.chainTaskPost : Statement .chainTaskPost := fits_of_none rfl
theorem Encodes.energyRefill : Statement .energyRefill := fits_of_none rfl
theorem Encodes.thermalLimit : Statement .thermalLimit := fits_of_none rfl
theorem Encodes.qtailWrite : Statement .qtailWrite := fits_of_none rfl
theorem Encodes.submitJob : Statement .submitJob := fits_of_none rfl
theorem Encodes.submitChain : Statement .submitChain := fits_of_none rfl
theorem Encodes.cancel : Statement .cancel := fits_of_none rfl
theorem Encodes.registerPager : Statement .registerPager := fits_of_none rfl
theorem Encodes.withdrawPager : Statement .withdrawPager := fits_of_none rfl
theorem Encodes.readDump : Statement .readDump := fits_of_none rfl
theorem Encodes.resetTenant : Statement .resetTenant := fits_of_none rfl
theorem Encodes.placementPass : Statement .placementPass := fits_of_none rfl
theorem Encodes.aging : Statement .aging := fits_of_none rfl
theorem Encodes.quantumExpiry : Statement .quantumExpiry := fits_of_none rfl
theorem Encodes.jobEnd : Statement .jobEnd := fits_of_none rfl
theorem Encodes.drainRequest : Statement .drainRequest := fits_of_none rfl
theorem Encodes.imageCapture : Statement .imageCapture := fits_of_none rfl
theorem Encodes.drainEscalation : Statement .drainEscalation := fits_of_none rfl
theorem Encodes.scanStop : Statement .scanStop := fits_of_none rfl
theorem Encodes.resume : Statement .resume := fits_of_none rfl
theorem Encodes.budtgtSet : Statement .budtgtSet := fits_of_none rfl
theorem Encodes.buddyPointAbandon : Statement .buddyPointAbandon := fits_of_none rfl
theorem Encodes.fatalTrap : Statement .fatalTrap := fits_of_none rfl
theorem Encodes.dieReset : Statement .dieReset := fits_of_none rfl
theorem Encodes.trapDelivery : Statement .trapDelivery := fits_of_none rfl
theorem Encodes.trapCyclesEnd : Statement .trapCyclesEnd := fits_of_none rfl
theorem Encodes.returnCyclesEnd : Statement .returnCyclesEnd := fits_of_none rfl
theorem Encodes.evrdWrite : Statement .evrdWrite := fits_of_none rfl
theorem Encodes.evovfClear : Statement .evovfClear := fits_of_none rfl
theorem Encodes.tenantConfigWrite : Statement .tenantConfigWrite := fits_of_none rfl
theorem Encodes.readyBitSet : Statement .readyBitSet := fits_of_none rfl
theorem Encodes.packageReset : Statement .packageReset := fits_of_none rfl
theorem Encodes.firmwareImageWrite : Statement .firmwareImageWrite := fits_of_none rfl
theorem Encodes.spdmMeasurement : Statement .spdmMeasurement := fits_of_none rfl
theorem Encodes.imageSecretInstall : Statement .imageSecretInstall := fits_of_none rfl
theorem Encodes.cxlMemAccess : Statement .cxlMemAccess := fits_of_none rfl
theorem Encodes.routerForward : Statement .routerForward := fits_of_none rfl
theorem Encodes.captureComplete : Statement .captureComplete := fits_of_none rfl
theorem Encodes.dumpComplete : Statement .dumpComplete := fits_of_none rfl
theorem Encodes.dieReturnTimeout : Statement .dieReturnTimeout := fits_of_none rfl

end Sys2Proof.Laws
end

