-- ==== Sys2Proof/Laws/Slots.lean ====
section
/-! SUPPORT. What the shared operations of slots do: guards, faults, stalls, loads and stores. -/

namespace Sys2Proof.Machine

/-! ## Slots (R175, R185) -/

/-- A slot without a fault: its effect under its guard. -/
theorem State.slot_none {s : State} {g : BitVec 4} {f : State → State} :
    s.slot g none f = .next (s.guarded g (f s)) := by
  unfold State.slot State.guarded
  split <;> rfl

theorem State.slot_off {s : State} {g : BitVec 4} {x : Option SFault} {f : State → State} (h : s.regs.rg g = false) :
    s.slot g x f = .next s := by
  simp [State.slot, h]

theorem State.slot_fault {s : State} {g : BitVec 4} {x : SFault} {f : State → State} (h : s.regs.rg g = true) :
    s.slot g (some x) f = .next (s.takeSlotFault x s.stream.ask.slot) := by
  simp [State.slot, h]

theorem State.encSlot_some {s : State} {c : Nat} {r : Out} :
    s.encSlot (some c) r = .next (s.takeIllegal c s.stream.ask.slot false) := rfl

theorem State.encSlot_none {s : State} {r : Out} : s.encSlot none r = r := rfl

/-- The form of every command slot: it stalls on a full queue, does nothing under a guard of 0, faults, or posts. -/
theorem State.stallSlot_commandSlot {s : State} {g : BitVec 4} {full : Bool} {x : Option SFault} {f : State → State} :
    CommandSlot s g full x (f s) (s.stallSlot full (s.slot g x f)) := by
  refine ⟨fun h => ?_, fun h hg => ?_, fun h hg hx => ?_, fun h hg y hx => ?_⟩ <;>
    simp [State.stallSlot, State.slot, *]

/-- A put is a result in flight without flags. -/
theorem State.put_eq_inFlight {s : State} {n : Nat} {l : Landing} : s.put n l = s.inFlight n l 0 := rfl

/-- A repeated guard reads the same registers: what is put in flight changes none. -/
theorem State.guarded_regs {s t : State} {g : BitVec 4} (h : t.regs = s.regs) : (s.guarded g t).regs = s.regs := by
  unfold State.guarded; split
  · exact h
  · rfl

/-! ## Accesses of the working store and the code store (R220, R221) -/

theorem State.startLoad_local {s : State} {a n : Nat} {d : LoadDest} (h : region a ≠ .sram) :
    s.startLoad a n d = s.inFlight 6 (d.landing (s.load a n)) 0 := by
  simp [State.startLoad, h, State.put_eq_inFlight]

theorem State.startStore_local {s : State} {a : Nat} {bs : List Byte} (h : region a ≠ .sram) :
    s.startStore a bs = s.inFlight 1 (.wstore a bs) 0 := by
  simp [State.startStore, h, State.put_eq_inFlight]

theorem State.startAtomic_local {s : State} {op : BitVec 4} {d : BitVec 5} {a n : Nat} {x c : W64} (h : region a ≠ .sram) :
    s.startAtomic op d a n x c = s.inFlight 1 (.watomic op d a n x c) 0 := by
  simp [State.startAtomic, h, State.put_eq_inFlight]

theorem region_ws {a : Nat} (h : 0x10000000 ≤ a) (h2 : a < 0x18000000) : region a = .ws := by
  unfold region; repeat' first | rfl | omega | split

theorem State.postInc_on {s : State} {a : BitVec 4} {u : BitVec 1} (h : u = 1) :
    s.postInc a u = s.inFlight 1 (.a a (s.regs.ra a + s.regs.rn a)) 0 := if_pos h

theorem State.postInc_off {s : State} {a : BitVec 4} {u : BitVec 1} (h : u ≠ 1) : s.postInc a u = s := if_neg h

/-- A store leaves every byte outside it. -/
theorem State.store_outside {s : State} {a b : Nat} {bs : List Byte} (h : cellsWf s.mem.loc = true)
    (hb : b < a ∨ a + bs.length ≤ b) : cellGet (s.store a bs).mem.loc b = cellGet s.mem.loc b :=
  cellGet_putBytes_outside h hb

/-! ## Illegal slots (R185, R187) -/

theorem State.takeSlotFault_illegal {s : State} {c n : Nat} :
    s.takeSlotFault (.illegal c) n = s.takeIllegal c n false := rfl

theorem State.takeIllegal_faulted {s : State} {c n : Nat} {b : Bool} :
    (s.takeIllegal c n b).stream.ask.faulted = true := rfl

end Sys2Proof.Machine
end

