-- ==== Sys2Proof/Tests/Slice0.lean ====
section
/-! SUPPORT. The author's tests: ill-formed instructions, the decoding of every constructor's word, small steps, and
witnesses of the statements' hypotheses. -/

namespace Sys2Proof.Tests

open Sys2Proof.Machine

/-! ## Ill-formed instructions: each check refuses -/

/-- The check refuses every one. -/
def refused (l : List Instr) : Bool := l.all fun i => !i.wf

/-- R204: a shift amount of 64. R205, R201: a register of a 16-entry file with bit [4] set. -/
theorem test_illformed_scalar :
    refused [.shli 0 1 2 64, .shri 0 1 2 64, .sari 0 1 2 64, .adda 0 16 0 0 0, .adda 0 0 16 0 0, .movAS 0 16 0, .movSA 0 0 16,
      .movNS 0 16 0, .movSN 0 0 16, .movES 0 16 0, .movSE 0 0 16, .movGS 0 16 0, .movSG 0 0 16] = true := by decide

/-- R205, R207: a control-register number that no chapter assigns: 0x01A, 0x06D. -/
theorem test_illformed_control : refused [.movToControl 0 0x1A 0 0, .movFromControl 0 1 0x0D 3] = true := by decide

/-- R208: a guard pair that is odd, or names g0. -/
theorem test_illformed_compares :
    refused [.cmpEq 0 3 0 0, .cmpEq 0 0 0 0, .cmpEqImm 0 3 0 0, .cmpLt 0 3 0 0, .cmpLtImm 0 3 0 0, .cmpLe 0 3 0 0, .cmpLeImm 0 0 0 0,
      .cmpLtn 0 3 0 0, .cmpLtnImm 0 3 0 0, .cmpLen 0 3 0 0, .cmpLenImm 0 3 0 0, .cmpTst 0 0 0 0, .cmpTstImm 0 3 0 0] = true := by
  decide

/-- R216: a context code above 0xA. R222: an atomic operation that the width does not have, and cswap with an odd D. -/
theorem test_illformed_waits_atomics :
    refused [.waitt 0 11 0, .atmW 0 2 0 0 12 0, .atmW 0 3 0 0 9 0, .atmD 0 2 0 0 10 0, .atmD 0 3 0 0 9 0] = true := by decide

/-- R229 to R237: MODE 3, register groups not aligned, k0 as a destination, a reduction that its format does not have. -/
theorem test_illformed_vector :
    refused [.vcvtF32I32 0 0 0 3 0, .vcvtF32N32 0 0 0 3 0, .vcvtI32F32 0 0 0 3 0, .vcvtN32F32 0 0 0 3 0, .vcvtBf16F32 0 0 0 3 0,
      .vcvtBf16F32 0 0 1 0 0, .vcvtF16F32 0 0 0 3 0, .vcvtF16F32 0 0 1 0 0, .vcvtE4m3F32 0 0 0 3 0 0, .vcvtE4m3F32 0 0 2 0 0 0,
      .vcvtE5m2F32 0 0 0 3 0 0, .vcvtE5m2F32 0 0 2 0 0 0, .vcvtF32Widen 0 1 0 0 0, .vcvtF32Widen 0 2 0 2 0, .vcvtQ4F32 0 0 0 3 0,
      .vcmpF32 0 0 0 0 0 0, .vcmpI32 0 0 0 0 0 0, .vcmpN32 0 0 0 0 0 0, .klogic 0 0 0 0 0, .vred 0 0 0 0 3 0, .vred 0 0 0 3 1 0,
      .vldK 0 0 0 0 0] = true := by decide

/-- R241, R242, R247, R248 to R256: MODE 3, MF 7, an odd engine of a pair, an address register or staging group out of range. -/
theorem test_illformed_matrix :
    refused [.trdr 0 0 0 0 0 3, .trdc 0 0 0 0 0 3, .twrr16 0 0 0 0 0 3, .twrc16 0 0 0 0 0 3, .twrr8 0 0 0 0 0 3, .twrc8 0 0 0 0 0 3,
      .twrr8Nan 0 0 0 0 0 3, .twrc8Nan 0 0 0 0 0 3, .tld 0 0 16, .tst 0 0 16, .tldt 0 0 16, .tstt 0 0 16, .mwl 0 0 0 7,
      .mwlm 0 0 0 0 7, .mwlm 0 0 0 16 0, .mwlp 0 0 0 7, .mwlp 0 0 1 0, .mwlpm 0 0 0 0 7, .mwlpm 0 0 1 0 0, .mwlpm 0 0 0 16 0,
      .mwap 0 1, .mms 0 0 0 7 0, .mmsm 0 0 0 0 7 0, .mmsm 0 0 0 16 0 0, .mmsp 0 0 0 7 0, .mmsp 0 0 1 0 0, .mmspm 0 0 0 0 7 0,
      .mmspm 0 0 1 0 0 0, .mmspm 0 0 0 16 0 0, .mdr 0 0 0 15, .mdrm 0 0 0 14, .mdrp 0 0 1 0, .mdrp 0 0 0 15, .mdrpm 0 0 1 0,
      .mdrpm 0 0 0 14, .mdrt 0 0 0 15, .mpost 0 16, .mzerop 0 1] = true := by decide

/-- R260 to R265, R272 to R280, R287: an engine above ce3, a staging group past e15, codes and limits of the forms. -/
theorem test_illformed_commands :
    refused [.cpy 0 4 0 0, .cpy 0 0 14 0, .cpy 0 0 12 1, .cpy2 0 4 0 0, .cpy2 0 0 13 0, .cpy2 0 0 11 1, .cpyz 0 4 0 1, .cpyz 0 0 14 1,
      .cpyz 0 0 0 0, .cpyz 0 0 0 10, .cpyx 0 4 0 1, .cpyx 0 0 14 1, .cpyx 0 0 0 0, .cpyx 0 0 0 10, .cfill 0 4 0 0, .cfill 0 0 14 0,
      .cfill 0 0 12 1, .rld 0 4 0, .rld 0 0 14, .rst 0 4 0 0, .rst 0 0 14 0, .rst 0 0 12 1, .ratmW 0 4 0 0, .ratmW 0 0 13 0,
      .ratmW 0 0 0 12, .ratmD 0 4 0 0, .ratmD 0 0 13 0, .ratmD 0 0 0 10, .rred 0 4 0 0 0, .rred 0 0 14 0 0, .rred 0 0 12 1 0,
      .rred 0 0 0 0 8, .fput 0 4 0, .fput 0 0 15, .cfence 0 4, .xchg 0 0 14 0, .xcmb 0 0 0 0 5 0 0, .xcmb 0 0 0 0 0 3 0,
      .xcmb 0 0 0 0 0 0 3, .xcmb 0 0 0 0 3 0 1, .xcmb 0 0 14 0 0 0 0, .xcmb 0 0 12 0 0 0 1, .sendif 0 0 14 0 0 0, .shiftg 0 13 0 0,
      .xcmbm 0 0 5 0, .xcmbm 0 0 0 3, .xarm 0 0 0 0 11, .xarm 0 0 14 0 0, .route 0 0 15, .rqcfg 0 15, .chain 0 15, .chstep 0 14,
      .chsize 0 14] = true := by decide

/-- What a word does not decode to: 0x8 unassigned, 0x9 a reserved bit, 0xA a limit of its own bits (R179, R185). -/
theorem test_decode_refusals :
    (decodeSlot none 0xE0FC0000, decodeSlot none 0x00040001, decodeSlot none 0xA0000003, decodeSlot (some 1) 0x00040000) =
    (.error 0x8, .error 0x9, .error 0xA, .error 0x9) := by rfl

/-- R181: the extension byte stands above the ten bits of the slot; without a header they are sign-extended. -/
theorem test_decode_immediates :
    (decodeSlot (some 0x61) 0x100192A0, decodeSlot none 0x100103FF, decodeSlot (some 0) 0x100103FF) =
    (.ok (.addi 0 3 4 100000#18), .ok (.addi 0 2 0 0x3FFFF#18), .ok (.addi 0 2 0 0x3FF#18)) := by rfl

/-! ## Decoding: one word of every constructor, from its encoding table -/

theorem test_decode_class_0_1 :
    [
      0x04000000, 0x0F07D228, 0x020A17F8, 0x030C7EC0, 0x04137FD8, 0x0B16F660, 0x011AD620, 0x0E1D9DC0, 0x05219530,
      0x032449A8, 0x0328B6B8, 0x0A2F8798, 0x092F3B19, 0x0231B148, 0x09336629, 0x0936BFA8, 0x0C3B8590, 0x023AE8D1,
      0x073D3518, 0x0B4207B0].map (decodeTableWord 32) = ([
      .nop 4, .add 15 30 18 5, .sub 2 16 23 31, .and 3 3 30 24, .or 4 27 31 27, .xor 11 23 22 12, .andn 1 22 22 4,
      .shl 14 12 29 24, .shr 5 12 21 6, .sar 3 2 9 21, .ror 3 5 22 23, .min 10 28 7 19, .minN 9 25 27 3, .max 2 13 17 9,
      .maxN 9 27 6 5, .mul 9 21 31 21, .mulh 12 28 5 18, .mulhN 2 23 8 26, .madd 7 9 21 3 0, .div 11 16 7 22] : List Instr).map some := by
  rfl

theorem test_decode_class_0_2 :
    [
      0x07422329, 0x0D457DB8, 0x0F468659, 0x014BE100, 0x0D4A5C01, 0x054B3902, 0x0D498F04, 0x014ACA05, 0x074A2D06,
      0x084C8D00, 0x0D4E0A01, 0x0F4DA302].map (decodeTableWord 32) = ([
      .divN 7 17 3 5, .rem 13 11 29 23, .remN 15 20 6 11, .sextB 1 31 1, .sextH 13 18 28, .sextW 5 25 25,
      .zextB 13 12 15, .zextH 1 22 10, .zextW 7 17 13, .popc 8 4 13, .clz 13 16 10, .ctz 15 13 3] : List Instr).map some := by
  rfl

theorem test_decode_class_1 :
    [
      0x1E009C5B, 0x131EF966, 0x12280D24, 0x1F3ED801, 0x14431428, 0x1159F824, 0x126B1420, 0x117195DF].map (decodeTableWord 32) = ([
      .addi 14 1 7 91, .andi 3 29 30 358, .ori 2 16 3 292, .xori 15 29 22 1, .shli 4 6 5 40, .shri 1 19 30 36,
      .sari 2 22 5 32, .shori 1 3 5 479] : List Instr).map some := by
  rfl

theorem test_decode_class_2 :
    [
      0x24016446, 0x2C054C00, 0x240B4500, 0x260C3700, 0x27108500, 0x2214BB00, 0x2319AE00, 0x2D1CB410, 0x2B2256B0,
      0x2125AB00, 0x2627CA01, 0x24244002, 0x2A241003].map (decodeTableWord 32) = ([
      .adda 4 11 4 8 6, .movAS 12 10 12, .movSA 4 26 5, .movNS 6 1 23, .movSN 7 4 5, .movES 2 5 27, .movSE 3 13 14,
      .movToControl 13 5 20 2, .movFromControl 11 18 22 22, .movGS 1 13 11, .movSG 6 30 10, .gget 4 2, .gset 10 16] : List Instr).map some := by
  rfl

theorem test_decode_class_3 :
    [
      0x3C04FA60, 0x3A0C7470, 0x371C5040, 0x341A2D00, 0x3E2CB040, 0x3C2CBDBC, 0x343CFBE0, 0x323244A4, 0x3A4C49E0,
      0x3B44ACB4, 0x3754AB80, 0x3F5245B9].map (decodeTableWord 32) = ([
      .cmpEq 12 4 31 19, .cmpEqImm 10 12 14 112, .cmpLt 7 12 10 2, .cmpLtImm 4 10 5 256, .cmpLe 14 12 22 2,
      .cmpLeImm 12 12 23 444, .cmpLtn 4 12 31 31, .cmpLtnImm 2 2 8 164, .cmpLen 10 12 9 15, .cmpLenImm 11 4 21 180,
      .cmpTst 7 4 21 28, .cmpTstImm 15 2 8 441] : List Instr).map some := by
  rfl

theorem test_decode_class_4 :
    [
      0x4A0AD36D, 0x4A01E043, 0x4A12C221, 0x47201400, 0x49302000, 0x4E4BE1F0, 0x4E52BF30, 0x486AF000, 0x4C700000,
      0x488C0000].map (decodeTableWord 32) = ([
      .brT 10 185197, .brNt 10 122947, .call 10 180769, .bri 7 5, .ret 9 8, .loop 14 2 993 30, .wait 14 2 11 15 3,
      .waitt 8 10 30, .fence 12, .lpoff 8 3] : List Instr).map some := by
  rfl

theorem test_decode_class_5 :
    [
      0x5D045C6A, 0x5B156C65, 0x5B2DD84E, 0x5D34E91D, 0x574AD4DE, 0x585FF06D, 0x536298AF, 0x54711597, 0x57822D0C,
      0x5990E1CC].map (decodeTableWord 32) = ([
      .ldB 13 8 11 1 106, .ldH 11 10 13 1 101, .ldW 11 27 11 0 78, .ldD 13 9 13 0 285, .stB 7 21 10 1 222,
      .stH 8 31 14 0 109, .stW 3 5 3 0 175, .stD 4 2 2 1 407, .atmW 7 4 5 1 4 12, .atmD 9 1 12 0 7 12] : List Instr).map some := by
  rfl

theorem test_decode_class_6_1 :
    [
      0x6E02156B, 0x65055543, 0x690AB0D5, 0x650C3E7F, 0x6613E5F7, 0x6117350A, 0x6F1ACE81, 0x661D38CC, 0x632056F9,
      0x6F253AC7, 0x6C283373, 0x612FE52B, 0x6E308FCA, 0x6635E7C6, 0x6F3A2BFF, 0x673FC3CF, 0x6D435ECF, 0x694728D4,
      0x6C482DCF, 0x664CDE1E].map (decodeTableWord 32) = ([
      .vand 14 16 21 13 3, .vor 5 10 21 8 3, .vxor 9 21 16 26 5, .vandn 5 1 30 15 7, .vaddI32 6 31 5 30 7,
      .vsubI32 1 25 21 1 2, .vmulI32 15 22 14 16 1, .vaddI16 6 9 24 25 4, .vsubI16 3 2 22 31 1, .vaddsI16 15 9 26 24 7,
      .vsubsI16 12 1 19 14 3, .vaddI8 1 31 5 5 3, .vsubI8 14 4 15 25 2, .vaddsI8 6 15 7 24 6, .vsubsI8 15 17 11 31 7,
      .vminI32 7 30 3 25 7, .vmaxI32 13 26 30 25 7, .vminN32 9 25 8 26 4, .vmaxN32 12 1 13 25 7, .vshlI32 6 6 30 3 6] : List Instr).map some := by
  rfl

theorem test_decode_class_6_2 :
    [
      0x6752546E, 0x6356E225, 0x69F3C8E4, 0x6EF44D6E, 0x63FAD574, 0x65FF6495].map (decodeTableWord 32) = ([
      .vshrN32 7 18 20 13 6, .vsarI32 3 23 2 4 5, .vdot4I8 9 30 8 28 4 0, .vdot4N8 14 2 13 13 6 0,
      .vdot2I16 3 22 21 14 4 0, .vdot2N16 5 27 4 18 5 0] : List Instr).map some := by
  rfl

theorem test_decode_class_7 :
    [
      0x7903A89C, 0x7707387E, 0x78093A69, 0x770EF46F, 0x7910BA82, 0x7617ADA4, 0x7A1B175E, 0x7E1FBB0A, 0x7621ECD2,
      0x7327995B, 0x7A2A67EB, 0x792EF639, 0x7D328BE1, 0x7C350CDE, 0x7C392403, 0x7F3FFC07].map (decodeTableWord 32) = ([
      .vaddF32 9 29 8 19 4, .vsubF32 7 25 24 15 6, .vmulF32 8 9 26 13 1, .vfmaF32 7 23 20 13 7 0,
      .vfmsF32 9 5 26 16 2 0, .vminF32 6 29 13 20 4, .vmaxF32 10 24 23 11 6, .vsubBf16 14 29 27 1 2,
      .vaddBf16 6 15 12 26 2, .vmulBf16 3 28 25 11 3, .vfmaBf16 10 19 7 29 3 0, .vaddF16 9 23 22 7 1,
      .vmulF16 13 20 11 28 1, .vfmaF16 12 8 12 27 6 0, .vrcpaF32 12 9 4 3, .vrsqaF32 15 31 28 7] : List Instr).map some := by
  rfl

theorem test_decode_class_8 :
    [
      0x81034D86, 0x8301564F, 0x8C064E46, 0x8305368C, 0x820B9046, 0x850D3C43, 0x8E114481, 0x8B144864, 0x871A9AC7,
      0x821E7948, 0x8320AB05, 0x8C262B6C, 0x832AC7B6, 0x882D9012, 0x8C314210, 0x8B355D06, 0x8F34D10F, 0x8B387EF7,
      0x8C3FBC2A].map (decodeTableWord 32) = ([
      .vcvtF32I32 1 26 13 2 6, .vcvtF32N32 3 10 22 1 7, .vcvtI32F32 12 18 14 1 6, .vcvtN32F32 3 9 22 2 4,
      .vcvtBf16F32 2 28 16 1 6, .vcvtF16F32 5 9 28 1 3, .vcvtE4m3F32 14 10 4 2 0 1, .vcvtE5m2F32 11 2 8 1 1 4,
      .vcvtF32Widen 7 20 26 3 7, .vcvtQ4F32 2 19 25 1 1, .vcvtF32Q4 3 5 11 5, .vcmpF32 12 2 1 11 13 4,
      .vcmpI32 3 2 6 7 22 6, .vcmpN32 8 1 4 16 2 2, .klogic 12 1 2 2 2, .vbcast 11 10 29 6, .viota 15 6 17 7,
      .vperm 11 3 30 30 7, .vred 12 29 28 1 1 2] : List Instr).map some := by
  rfl

theorem test_decode_class_9 :
    [
      0x94038CCA, 0x921858E2, 0x982EC8FF, 0x9E3F9108, 0x9543CD3C, 0x9F52A01A].map (decodeTableWord 32) = ([
      .vld 4 7 1 1 202, .vst 2 16 11 0 226, .vldW 8 29 9 0 255, .vstW 14 31 2 0 264, .vldK 5 7 9 1 316,
      .vstK 15 5 4 0 26] : List Instr).map some := by
  rfl

theorem test_decode_class_A_1 :
    [
      0xA3009B65, 0xA60657F9, 0xA50A7998, 0xAC0CB544, 0xA5126F55, 0xA317F795, 0xAB1867C5, 0xAE1DC909, 0xAD22706E,
      0xA424FBCE, 0xA5290040, 0xA22EC100, 0xAD30E818, 0xAB3571C8, 0xAC3B1814, 0xA13F38B8, 0xAF400400, 0xA9442800,
      0xA54B9404, 0xA84DA834].map (decodeTableWord 32) = ([
      .trdr 3 2 6 27 1 1, .trdc 6 9 5 31 6 1, .twrr32 5 9 14 12 6, .twrc32 12 2 13 10 1, .twrr16 5 9 11 26 5 1,
      .twrc16 3 15 13 28 5 1, .twrr8 11 1 9 30 1 1, .twrc8 14 7 2 8 2 1, .twrr8Nan 13 9 12 3 3 2,
      .twrc8Nan 4 3 14 30 3 2, .tld 5 4 2, .tst 2 11 8, .mwl 13 3 10 6, .mwlm 11 5 12 14 2, .mwlp 12 12 6 5,
      .mwlpm 1 12 14 5 6, .mwa 15 1, .mwap 9 10, .mms 5 14 5 1 0, .mmsm 8 6 10 1 5 0] : List Instr).map some := by
  rfl

theorem test_decode_class_A_2 :
    [
      0xAC51D804, 0xA957688D, 0xAA587920, 0xAA5DA940, 0xA7631940, 0xAA67A940, 0xAE680060, 0xA56C2C00, 0xA6701000,
      0xAB779800, 0xAA788000, 0xA67C7DC0, 0xAD8281E0, 0xAE86C1E0, 0xA78B8120].map (decodeTableWord 32) = ([
      .mmsp 12 7 6 1 0, .mmspm 9 13 10 4 3 1, .mdr 10 1 14 9, .mdrm 10 6 10 10, .mdrp 7 12 6 10, .mdrpm 10 14 10 10,
      .mpost 14 3, .mzero 5 11, .mzerop 6 4, .tcpy 11 14 6, .tzero 10 2, .mdrt 6 1 15 14, .tldt 13 10 15,
      .tstt 14 11 15, .tshape 7 14 9] : List Instr).map some := by
  rfl

theorem test_decode_class_B :
    [
      0xB400C800, 0xBF044E00, 0xB20858E0, 0xBD0CD900, 0xB610D000, 0xBB148400, 0xBD18D000, 0xB91C4440, 0xBA1C8490,
      0xBF20D480, 0xBB247400, 0xB4288000].map (decodeTableWord 32) = ([
      .cpy 4 3 2 0, .cpy2 15 1 3 1, .cpyz 2 1 6 7, .cpyx 13 3 6 8, .cfill 6 3 4 0, .rld 11 2 1, .rst 13 3 4 0,
      .ratmW 9 1 1 2, .ratmD 10 2 1 4, .rred 15 3 5 0 4, .fput 11 1 13, .cfence 4 2] : List Instr).map some := by
  rfl

theorem test_decode_class_C :
    [
      0xCC00C500, 0xC9059D34, 0xC2085206, 0xC20C2900, 0xCB100C00, 0xCB142C90, 0xC8199E01, 0xC31C0100, 0xCC202700,
      0xC3242C00, 0xCF2B8400, 0xC72C3000, 0xCA303400, 0xC9343C00].map (decodeTableWord 32) = ([
      .xchg 12 3 1 1, .xcmb 9 6 7 1 1 2 2, .sendif 2 1 4 2 0 6, .shiftg 2 10 1 0, .xchgm 11 3, .xcmbm 11 11 4 2,
      .xarm 8 6 7 2 1, .xdisarm 3 1, .xbar 12 9 3, .coll 3 11, .route 15 14 1, .rqcfg 7 12, .rqreset 10 13, .rcsnap 9 15] : List Instr).map some := by
  rfl

theorem test_decode_class_D :
    [
      0xD6000400, 0xD1043400, 0xDB083400, 0xDA0C0000].map (decodeTableWord 32) = ([
      .chain 6 1, .chstep 1 13, .chsize 11 13, .chabort 10] : List Instr).map some := by
  rfl

theorem test_decode_class_E :
    [
      0xE90015B0, 0xE3040000, 0xED040001, 0xE8080000, 0xE40C0000, 0xEC12F600, 0xE4140000, 0xE1180000, 0xE11D6000,
      0xE3200000, 0xE6370000, 0xE535C001, 0xE738BE00, 0xE639E101].map (decodeTableWord 32) = ([
      .trap 9 694, .rte 3, .rteSw 13, .endProg 8, .reraise 4, .lmark 12 23 22, .bpoint 4, .dpoint 1, .rdcyc 1 11,
      .sdump 3, .enrd 6 24, .enrdRsv 5 14, .enres 7 5 30, .enresRel 6 15 1] : List Instr).map some := by
  rfl

theorem test_decode_class_F :
    [
      0xF053F327, 0xF1BFF6CC, 0xF2FA0000].map (decodeTableWord 32) = ([
      .extHdr 83 243 39, .repeatPfx 3071 6 12 1 1, .lbmark 62 1] : List Instr).map some := by
  rfl/-! ## Witnesses: states and operands that meet the hypotheses of the statements -/

/-- The state after reset with `x` in a scalar register. -/
def sReg (i : BitVec 5) (x : W64) : State := { State.reset with regs := Regs.clear.ws i x }
/-- The state after reset with `x` in an address register. -/
def aReg (i : BitVec 4) (x : W64) : State := { State.reset with regs := Regs.clear.wa i x }
/-- The state after reset with one TSHAPE. -/
def shaped (x : BitVec 24) : State := { State.reset with ctl.tshape := vset Ctl.clear.tshape 0 x }
/-- The state after reset in a mode. -/
def inMode (m : Mode) : State := { State.reset with stream.mode := m }
/-- A running die with a handler. -/
def handled : State := { inMode .running with ctl.trapvec := 0x18000100#64 }
/-- A die in its handler. -/
def handling : State := { handled with ctl.inHandler := true }
/-- A die of a job of three dimensions. -/
def cubed : State := { State.reset with ctl.scmask := 7#13 }

theorem witness_ScalarDivisionAndCounts : (sReg 1 0).regs.rs 1 = 0 ∧ (sReg 1 0xFFFFFFFFFFFFFFFF#64).regs.rs 1 ≠ 0 := by decide

theorem witness_RegisterMovesAndCompares : (15#5).toNat < 16 ∧ (0#5).toNat < 16 := by decide

theorem witness_ControlRegisterMoves :
    (0x00A = (0 : BitVec 5).toNat * 32 + (10 : BitVec 5).toNat ∧ ctlWritable 0x00A = false) ∧
    (ctlWritable 0x000 = true ∧ (sReg 1 63).ctlValueOk 0x000 ((sReg 1 63).regs.rs 1) = true) ∧
    (0x150 = (10 : BitVec 5).toNat * 32 + (16 : BitVec 5).toNat ∧ ctlWritable 0x150 = true ∧ handling.ctl.inHandler = true ∧
      handling.ctlValueOk 0x150 (handling.regs.rs 0) = true) ∧
    ((sReg 1 64).ctlValueOk 0x000 ((sReg 1 64).regs.rs 1) = false ∧ (sReg 1 64).regs.rg 0 = true ∧
      (sReg 1 64).stream.ask.slot < 4) := by decide

theorem witness_ControlRegisterMoves_noted :
    (let s := inMode .running
     let t : State := { s with ctl.vflags := 63 }
     0x000 < 0x300 ∧ s.stream.mode = .running ∧ t.stream.mode = .running ∧ t.stream.retries = s.stream.retries ∧
       t.begun = s.begun ∧ t.ctlNow 0x000 ≠ s.ctlNow 0x000) := by decide

theorem witness_Branches : State.reset.regs.rg 0 = true ∧ State.reset.regs.rg 1 = false := by decide

/-- A loop that ends at the bundle at 0x1800_0020, with `n` iterations left. -/
def looped (n : W64) : State :=
  { State.reset with ctl := { Ctl.clear with lc := vset Ctl.clear.lc 1 n, lend := vset Ctl.clear.lend 1 0x18000020#64 } }

theorem witness_HardwareLoops :
    ((sReg 1 1).regs.rs 1 ≠ 0) ∧ ((sReg 1 0).regs.rs 1 = 0 ∧ (sReg 1 0).regs.rg 0 = true) ∧
    ((looped 2).ctl.drainReq = false ∧ (looped 2).stream.draining = none) ∧
    (vget (looped 2).ctl.lend 1 0 ≠ 0x18000030#64) ∧
    (vget (looped 2).ctl.lend 1 0 = 0x18000020#64 ∧ 1 < (vget (looped 2).ctl.lc 1 0).toNat) ∧
    (vget (looped 1).ctl.lend 1 0 = 0x18000020#64 ∧ (vget (looped 1).ctl.lc 1 0).toNat ≤ 1) := by decide

theorem witness_HardwareLoops_guarded : (sReg 1 0).regs.rg 2 = false ∧ (sReg 1 1).regs.rg 2 = false := by decide

/-- A shared-SRAM access outstanding. -/
def sramOp (k : SramKind) (p l : Nat) (done : Bool) : SramOp :=
  { seq := 0, kind := k, addr := 0x100, size := 8, part := 0, performIn := p, landIn := l, dest := .s 3,
    bytes := List.replicate 8 7, performed := done }
/-- The state after reset with one access outstanding, in a mode. -/
def accessing (m : Mode) (o : SramOp) : State := { inMode m with stream := { Stream.clear with mode := m, sram := [o] } }

theorem witness_WaitsHeadersAndNop :
    ((State.reset.ctlRead 0x020).toNat ≤ 0 ∧ (State.reset.ctlRead 0x021).toNat ≤ 0 ∧ (State.reset.ctlRead 0x022).toNat ≤ 0 ∧
      (State.reset.ctlRead 0x023).toNat ≤ 0) ∧
    (¬ ((accessing .running (sramOp .load 8 13 false)).ctlRead 0x020).toNat ≤ 0) ∧
    (¬ ((accessing .running (sramOp .store 8 0 false)).ctlRead 0x021).toNat ≤ 0) ∧
    (State.reset.begun.lookup 0x2FF = none) ∧
    ((sReg 1 0).regs.rs 1).toNat ≤ ((sReg 1 0).line 10).seen.toNat ∧
    ¬ ((sReg 1 1).regs.rs 1).toNat ≤ ((sReg 1 1).line 10).seen.toNat := by
  decide

theorem witness_ScalarMemoryWorkingStore :
    (let ea (o : Int) (size : Nat) : Nat := (((aReg 2 0x10000000).regs.ra 2).toNat + (o * size % 2 ^ 64).toNat) % 2 ^ 64 / size * size
     0x10000000 ≤ ea 0 1 ∧ ea 0 1 < 0x18000000 ∧ 0x10000000 ≤ ea 131071 8 ∧ ea 131071 8 < 0x18000000 ∧
     0x10000000 ≤ ea 1 2 ∧ ea 1 2 < 0x18000000 ∧ 0x10000000 ≤ ea 31 4 ∧ ea 31 4 < 0x18000000) ∧
    (let ea : Nat := (((aReg 2 0x1807FFFF).regs.ra 2).toNat + ((0 : Int) * 8 % 2 ^ 64).toNat) % 2 ^ 64 / 8 * 8
     0x10000000 ≤ ea ∧ ea < 0x18080000) ∧
    (let ea : Nat := (((aReg 2 0xFFFFFFF).regs.ra 2).toNat + ((0 : Int) * 8 % 2 ^ 64).toNat) % 2 ^ 64 / 8 * 8
     ea < 0x10000000) := by decide

theorem witness_SramAccessRuns :
    (let o := sramOp .load 0 6 false
     (accessing .running o).stream.sram = [o] ∧ o.performed = false ∧ o.performIn = 0 ∧ o.kind = .load ∧ 0 < o.landIn) ∧
    (let o := sramOp .store 0 0 false
     o.performed = false ∧ o.performIn = 0 ∧ o.kind = .store ∧ 0 < (sramOp .store 1 0 false).performIn) ∧
    (let o := sramOp (.atomic 0 0) 0 6 false
     o.performed = false ∧ o.performIn = 0 ∧ o.kind = .atomic 0 0 ∧ 0 < o.landIn) ∧
    (let o := sramOp .load 0 0 false
     (accessing .running { o with performed := true }).stream.sram = [{ o with performed := true }] ∧ o.kind ≠ .store ∧
       o.landIn = 0) := by decide

theorem witness_LandingWritesItsRegister :
    cellsWf State.reset.tiles.bytes = true ∧ (([(0, 1), (262143, 2)] : List Host.Cell).map (·.1)).Nodup ∧
    ctlWritable 0x002 = true ∧ State.reset.ctlValueOk 0x002 0 = true ∧ 0x001 ≠ 0x002 := by decide

theorem witness_LaterBundleWins : (31 : BitVec 5) ≠ 0 ∧ 0 < 1 ∧
    (let r : Result := { seq := 0, rem := 2, land := .s 1 5, flags := 0, sat := 0 }
     let s : State := { State.reset with stream.results := [r] }
     1 < r.rem ∧ s.stream.results = [r] ∧ ({ r with rem := 1 } : Result).rem ≤ 1) := by decide

theorem witness_StoredBytesReadBack : cellsWf ([(0x10000000, 7), (0x10000002, 1)] : List Host.Cell) = true := by decide

theorem witness_WorkingStoreFrame : cellsWf State.reset.mem.loc = true ∧
    (0xFFFFFFFF < 2 ^ (8 * 4) ∧ 0xFFFFFFFFFFFFFFFF < 2 ^ (8 * 8) ∧ 0x80000000 < 2 ^ (8 * 4) ∧ 0 < 2 ^ (8 * 4)) := by decide

theorem witness_RegisterSlotFrame :
    ((Instr.add 0 1 2 3).scalarOnly = true ∧ ∃ t, exec (.add 0 1 2 3) State.reset = .next t) ∧
    ((Instr.vcvtF32I32 0 1 2 2 0).vectorOnly = true ∧ ∃ t, exec (.vcvtF32I32 0 1 2 2 0) State.reset = .next t) :=
  ⟨⟨rfl, _, rfl⟩, rfl, _, rfl⟩

theorem witness_RevisionTwoDotProducts : State.reset.stream.ask.slot < 4 ∧
    (let s : State := { State.reset with ctl.rev := 2 }
     s.ctl.encrev.toNat % 16 = 2 ∧ s.ctl.rev = 2) ∧ (handled.ctl.trapvec ≠ 0 ∧ handled.ctl.inHandler = false) ∧
    ¬ (State.reset.ctl.encrev.toNat % 16 = 2 ∧ State.reset.ctl.rev = 2) := by decide

theorem witness_VectorFloat :
    f32.decode 0x7FC00000 = .nan ∧ f32.decode 0x80000000 = .zero true ∧ f32.decode 0 = .zero false ∧
    f32.decode 0x7F800000 = .inf false ∧ f32.decode 0xFF800000 = .inf true ∧
    f32.decode 0x3F800000 = .fin false 0x800000 (-23) ∧ f32.decode 0xBF800000 = .fin true 0x800000 (-23) ∧
    ((FVal.inf false).mul (.zero false)).2 = true ∧ ((FVal.zero false).mul (.zero false)).2 = false ∧
    (⊥ : WithBot (WithTop ℚ)) < ((0 : ℚ) : WithTop ℚ) ∧ (f32 ∈ [f32, f16, bf16, e4m3, e5m2]) :=
  ⟨by decide, by decide, by decide, by decide, by decide, by decide, by decide, by decide,
    by decide, WithBot.bot_lt_coe _, List.mem_cons_self⟩

theorem witness_VectorConversions_blocks :
    (0 < 4 ∧ 32 < 63 ∧ (q4Mag 0 7 : ℚ) / 16 < 8 ∧ (q4Mag 0 3 : ℚ) / 16 = 3 * 2 ^ (0 : ℤ) / 2 ^ ((32 : ℤ) - 32) ∧
      (q4Mag 0 2 : ℚ) / 16 < 5 / 2 ∧ (5 / 2 : ℚ) < (q4Mag 0 3 : ℚ) / 16) ∧
    ((List.replicate 32 FVal.nan).length = 32 ∧ (List.replicate 32 (FVal.zero false)).length = 32 ∧
      FVal.nan ∈ List.replicate 32 FVal.nan ∧ FVal.nan ∉ List.replicate 32 (FVal.zero false)) := by
  have h2 : q4Mag 0 2 = 32 := by decide
  have h3 : q4Mag 0 3 = 48 := by decide
  have h7 : q4Mag 0 7 = 112 := by decide
  refine ⟨?_, by decide⟩
  rw [h2, h3, h7]
  norm_num

/-- The state after reset with every lane of v1 the same. -/
def lanes (x : W32) : State := { State.reset with regs := { Regs.clear with v := vset Regs.clear.v 1 (.replicate 1024 x) } }

theorem witness_VectorComparesAndLanes :
    ((lanes 0x7FC00000).regs.rk 0).getLsbD 0 = true ∧
    f32.decode ((((lanes 0x7FC00000).regs.rv 1).toList.getD 0 0).toNat) = .nan ∧
    f32.decode ((((lanes 0).regs.rv 1).toList.getD 0 0).toNat) = .zero false ∧ ((lanes 0).regs.rk 1).getLsbD 0 = false ∧
    (∀ l : Nat, l ∈ (∅ : Finset Nat) ↔ l < 1024 ∧ ((lanes 0).regs.rk 1).getLsbD l = true) := by
  refine ⟨by decide +kernel, by decide +kernel, by decide +kernel, by decide +kernel, fun l => ?_⟩
  have h : (lanes 0).regs.rk 1 = 0#1024 := by decide +kernel
  rw [h]; simp

theorem witness_VectorConversions :
    (let w (f : BitVec 2) := if f = 0 ∨ f = 1 then 16 else 8
     w 0 = 16 ∧ w 1 = 16 ∧ w 2 = 8 ∧ w 3 = 8) := by decide

theorem witness_VectorMemoryWorkingStore :
    (let ea (size : Nat) : Nat :=
       (((aReg 2 0x10000FFF).regs.ra 2).toNat + ((0 : BitVec 18).toInt * size % 2 ^ 64).toNat) % 2 ^ 64 / size * size
     (((aReg 2 0xFFFFFFF).regs.ra 2).toNat + ((0 : BitVec 18).toInt * 128 % 2 ^ 64).toNat) % 2 ^ 64 / 128 * 128 < 0x10000000 ∧
     0x10000000 ≤ ea 4096 ∧ ea 4096 < 0x18000000 ∧ 0x10000000 ≤ ea 4 ∧ ea 4 < 0x18000000 ∧ 0x10000000 ≤ ea 128 ∧
     ea 128 < 0x18000000) := by decide

theorem witness_TileReadsAndWrites :
    (∀ p ∈ ([(0, 4), (2, 4), (3, 2), (6, 2), (7, 1), (8, 1), (10, 1)] : List (Nat × Nat)),
      let sh := (shaped (BitVec.ofNat 24 (p.1 + 0xFFFF00))).tshapeOf 0
      shFmt sh ≠ 0xB ∧ fmtWidth (shFmt sh) = p.2) ∧
    ((shaped 0xFFFF0B).regs.rg 0 = true ∧ shFmt ((shaped 0xFFFF0B).tshapeOf 0) = 0xB) ∧
    (∃ f < 12, fmtFloat f = true ∧ fmtWidth f = 2 ∧ f ≠ 0xB) ∧ (∃ f < 12, fmtFloat f = true ∧ fmtWidth f = 1 ∧ f ≠ 0xB) := by
  decide

/-- A tile operation. -/
def zeroing : TileOp := { kind := .zero 0, shape := 0, seq := 0 }

theorem witness_TileOperations :
    decide (64 ≤ (State.reset.stream.tileOps).length) = false ∧
    (let s : State := { State.reset with stream.tileOps := List.replicate 64 zeroing }
     decide (64 ≤ s.stream.tileOps.length) = true) ∧
    inLocal 0x10000000 (imageBytes (State.reset.tshapeOf 0) false) = true ∧
    inLocal 0x17FFFFE0 (imageBytes ((shaped 0xFFFF00).tshapeOf 0) false) = false ∧
    tshapeOk (((sReg 1 0xFFFF00).regs.rs 1).toNat % 2 ^ 24) = true ∧
    tshapeOk (((sReg 1 0xF).regs.rs 1).toNat % 2 ^ 24) = false := by decide

theorem witness_TileOperations_performed :
    (∀ k ∈ [TileKind.load 15 0x10000000 false, .load 15 0x10000000 true, .store 15 0x10000000 true, .copy 15 0],
      let o : TileOp := { kind := k, shape := mkShape 3 2 256, seq := 1 }
      let s : State := { State.reset with stream.tileOps := [zeroing, o] }
      s.halted = false ∧ s.stream.tileOps[1]? = some o ∧ cellsWf s.tiles.bytes = true) ∧
    (∃ r < shRows (mkShape 0xB 256 256), ∃ j < 272, 69631 = r * 272 + j ∧ (256 ≤ j → 261391 = 1024 * r + 256 + (j - 256))) ∧
    (∃ r < shRows (mkShape 3 2 256), ∃ c < shCols (mkShape 3 2 256), ∃ j < 2,
      1023 = c * (2 * 2) + (r * 2 + j) ∧ 1535 = 1024 * r + 2 * c + j) :=
  ⟨by decide, ⟨255, by decide, 271, by decide, by decide, by decide⟩, ⟨1, by decide, 255, by decide, 1, by decide, by decide, by decide⟩⟩

/-- A direct matrix command. -/
def mzero0 : MCmd := { num := 1, pol := 0, op := .zero false 0, shape := 0, seed := 0, started := false, tries := 0 }

theorem witness_MatrixCommands :
    (State.reset.mqueue 0).length < 16 ∧
    (let s : State := { State.reset with eng.matrix := vset Engines.clear.matrix 1 (List.replicate 16 mzero0) }
     decide (16 ≤ (s.mqueue 0).length) = false ∧ decide (16 ≤ (s.mqueue (0 + 1)).length) = true) ∧
    imageFault 0xB 0x10000000 (imageBytes (State.reset.tshapeOf 0) false) false = none ∧
    (∃ f, imageFault 0xB 0x17FFFFE0 (imageBytes ((shaped 0xFFFF00).tshapeOf 0) false) false = some f) ∧
    drainFault ((shaped 0xFFFF00).tshapeOf 0) 0 0 none = none ∧
    (∃ f, drainFault ((shaped 0xFFFF00).tshapeOf 0) 0x1FF 0 none = some f) ∧
    rangeFault 0x0 0x10000000 64 false = none ∧ (∃ f, rangeFault 0x0 0x18000000 64 false = some f) :=
  ⟨by decide, by decide, by decide, ⟨_, rfl⟩, by decide, ⟨_, rfl⟩, by decide, ⟨_, rfl⟩⟩

/-- A begun matrix command of me0 on the shape of tile t0. -/
def matrixCmd (op : MatOp) (sh : BitVec 24) : MCmd :=
  { num := 1, pol := 0, op := op, shape := sh, seed := 1, started := true, tries := 0 }
/-- The state after reset with such a command in the queue of me0, and i8 weights active there. -/
def computing (c : MCmd) : State :=
  { State.reset with eng.matrix := vset Engines.clear.matrix 0 [c], tiles.activeFmt := vset Tiles.clear.activeFmt 0 (some 4) }

theorem witness_MatrixCommandsPerformed : State.reset.regs.rg 0 = true ∧ State.reset.matrixFull false 15 = false ∧
    State.reset.matrixFull true 14 = false ∧ mzero0.op = .zero false 0 ∧ cellsWf State.reset.tiles.acc = true ∧
    (14 : BitVec 4).toNat < 15 ∧
    (∀ op ∈ [MatOp.load false 0 0 none 4, .load false 0 0 (some 0x10000000) 4, .activate false 0, .stream false 0 0 none 4 true,
        .stream false 0 0 none 4 false, .drain false false 0 0 none 0 0, .drain false true 0 0 none 0 0,
        .drain false false 0 0 (some 0x10000000) 0x7A 0x10001000],
      let c := matrixCmd op (mkShape 9 2 16)
      let s := computing c
      s.halted = false ∧ s.eng.matrix.toList.flatten.find? (fun d => decide (d.num = c.num)) = some c ∧ c.started = true ∧
        s.matrixOk c.op c.shape = true) ∧
    (let c := matrixCmd (.stream false 0 0 none 0 true) (mkShape 3 2 16)
     (computing c).matrixOk c.op c.shape = false ∧ c.pol ≠ 1) ∧
    (State.reset.matrixOk (.load true 0 0 none 6) (mkShape 0xB 200 32) = true ∧ shRows (mkShape 0xB 200 32) = 200 ∧
      shCols (mkShape 0xB 200 32) % 16 = 0 ∧ State.reset.matrixOk (.drain true false 0 0 none 0 0) (mkShape 0xB 200 128) = true) ∧
    cellsWf State.reset.tiles.shadow = true ∧ cellsWf State.reset.tiles.active = true ∧ cellsWf State.reset.tiles.bytes = true := by
  decide

theorem witness_MatrixCommandsPerformed_groups :
    (.nan : FVal) ∈ [f32.decode (0x7FC00000#32).toNat] ∧ FVal.inf false ∈ [f32.decode (0x7F800000#32).toNat] ∧
    FVal.inf true ∈ [f32.decode (0xFF800000#32).toNat] ∧ FVal.inf false ∉ [f32.decode (0#32).toNat] ∧ ([] : List ℚ).sum = 0 := by
  refine ⟨by decide, by decide, by decide, by decide, rfl⟩

/-! ### Commands -/

/-- A copy command. -/
def copyCmd (op : CopyOp) (started : Bool) (pos : Nat) : CopyCmd :=
  { num := 1, pol := 0, op := op, flag := none, started := started, tries := 0, pos := pos, acks := 0, flagSent := false,
    stalled := false, stallAt := 0, stallCause := 0, status := none, bad := 0, kept := [] }
/-- The state after reset with copy commands in the queue of ce0. -/
def copying (cs : List CopyCmd) : State := { State.reset with eng.copy := vset Engines.clear.copy 0 cs }
/-- Staging registers from e0. -/
def staged (xs : List W64) : State :=
  { State.reset with regs := (xs.zipIdx).foldl (fun r x => r.we (BitVec.ofNat 4 x.2) x.1) Regs.clear }

theorem witness_CopyCommands :
    State.reset.copyFull = false ∧
    (let c := copyCmd .cfence false 0
     ({ copying [] with eng.issueBuf := List.replicate 8 (1, c) } : State).copyFull = true ∧
       ({ copying [] with eng.issueBuf := List.replicate 7 (1, c) } : State).copyFull = false) ∧
    (let s := staged [0x10000000, 0x10000100, 8]
     s.copyFault 1 0x10000000 8 true false = none ∧ s.copyFault 1 0x10000100 8 false true = none) ∧
    (∃ f, State.reset.copyFault 1 0x18000000 8 false true = some f) :=
  ⟨by decide, by decide, by decide, ⟨_, rfl⟩⟩

/-- A die with one peer-DRAM window of 2 MiB, writable and readable, of the die of coordinate 1 (R17, R18). -/
def peered : State :=
  { cubed with
    ctl := { cubed.ctl with lsdmask := 1 },
    mem := { cubed.mem with wtab := vset Mem.clear.wtab 0 (0x100010380#64, 0x0001000000000000#64) } }

theorem witness_RemoteOperations :
    sramFault 1 0 8 true = none ∧ (∃ f, sramFault 1 0x10000000 8 true = some f) ∧
    peered.peerFault 1 0x100000000 256 true true true = none ∧
    (∃ f, State.reset.peerFault 1 0x10000000 8 true false true = some f) ∧ peered.copyFull = false :=
  ⟨by decide, ⟨_, rfl⟩, by decide +kernel, ⟨_, rfl⟩, by decide⟩

/-- An exchange command. -/
def xcmd (hs : List Half) (started : Bool) (trig : Option (Nat × Nat)) : XCmd :=
  { num := 1, pol := 0, halves := hs, combine := none, dim := 0, started := started, tries := 0, elapsed := 0,
    status := none, trigger := trig, disarmed := none, barrier := false, cancelled := false }
/-- A half on dimension 0. -/
def half (send : Bool) : Half := { send := send, dim := 0, m := 0, addr := 0x10000000, len := 64, ready := none, open_ := 0, done := false, failed := false }
/-- A die of a job of three dimensions with an exchange queue 0. -/
def queued (q arms : List XCmd) : State :=
  { cubed with eng.xq := vset Engines.clear.xq 0 { XQueue.clear with queue := q, arms := arms } }

theorem witness_ExchangeCommands :
    ((2 : BitVec 4).toNat < cubed.ctl.dims) ∧ ¬ ((3 : BitVec 4).toNat < cubed.ctl.dims) ∧
    cubed.xFull 0 = false ∧ (queued (List.replicate 16 (xcmd [] false none)) []).xFull 0 = true ∧
    firstFault (halfFaults 0 64 [⟨true, 0, 0x10000000, 64⟩, ⟨false, 0, 0x10000100, 64⟩]) = none ∧
    (∃ f, firstFault (halfFaults 0 0 [⟨true, 0, 0, 0⟩]) = some f) ∧
    decide (16 ≤ ((queued [] (List.replicate 16 (xcmd [] false none))).xqueue 0).arms.length) = true :=
  ⟨by decide, by decide, by decide, by decide, by decide, ⟨_, rfl⟩, by decide⟩

/-- A finished XCMB of two elements or blocks. -/
def combining (f : BitVec 3) (o ns : BitVec 2) (len : Nat) : XCmd :=
  { xcmd [{ half true with done := true }, { half false with done := true }] true none with
    combine := some { fmt := f, op := o, ns := ns, a := 0x10000000, r := 0x10001000, len := len, c := 0x10002000, cr := 0x10003000 } }
/-- The memory of its operands: element 0 of A is a NaN of f32, both counts of element 1 are 1, and so is that of CR at 0. -/
def operands : Mem := { Mem.clear with
  loc := putBytes (putBytes (putBytes [] 0x10000000 (leBytes 4 0x7FC00000)) 0x10002000 [1, 1]) 0x10003000 [1, 1] }

theorem witness_ExchangeCommands_combine :
    (∀ p ∈ [((0 : BitVec 3), (0 : BitVec 2), (0 : BitVec 2)), (3, 1, 0), (0, 0, 1), (0, 2, 2)],
      let c := combining p.1 p.2.1 p.2.2 128
      let s := { queued [c] [] with mem := operands }
      s.halted = false ∧ (s.xqueue 0).queue = [c] ∧ (s.xqueue 0).arms = [] ∧ c.finished = true ∧ c.status = none ∧
        s.combineSettled c = true ∧ p.1.toNat ≤ 4 ∧ p.2.1 ≠ 3 ∧ (p.2.2 = 0 ∨ p.1.toNat ≤ 2 ∧ p.2.2 ≠ 3) ∧ 128 % (32 * 4) = 0) ∧
    (let s := { queued [] [] with mem := operands }
     let el (a i : Nat) : Nat := leNat (s.load (a + 4 * i) 4)
     let count (a j : Nat) : Nat := leNat (s.load (a + j) 1)
     (f32.decode (el 0x10000000 0)).isNan = true ∧ (f32.decode (el 0x10001000 0)).isNan = false ∧
       (f32.decode (el 0x10000000 1)).isNan = false ∧ count 0x10002000 0 = 1 ∧ count 0x10003000 0 = 1 ∧
       count 0x10002000 2 = 0 ∧ count 0x10003000 2 = 0) := by decide +kernel

theorem witness_DimensionOutsideTheJob :
    (cubed.ctl.dims ≤ (3 : BitVec 4).toNat) ∧ (cubed.ctl.dims ≤ 3 ∧ cubed.regs.rg 0 = true ∧ 3 < 13) ∧
    (∀ p, cubed.xFull p = false) ∧
    (let s : State := { cubed with regs := Regs.clear.we 3 8 }
     (s.regs.re ((0 : BitVec 4).toNat + 3)).getLsbD 3 = true) ∧
    (let s : State := { cubed with regs := Regs.clear.we 0 8 }
     (s.regs.re ((0 : BitVec 4).toNat + 0)).getLsbD 3 = true) ∧
    (handled.ctl.trapvec ≠ 0 ∧ handled.ctl.inHandler = false) ∧ 2 < cubed.ctl.dims := by
  refine ⟨by decide, by decide, fun p => ?_, by decide⟩
  by_cases h : p < 4
  · have : p = 0 ∨ p = 1 ∨ p = 2 ∨ p = 3 := by omega
    rcases this with rfl | rfl | rfl | rfl <;> decide
  · have : cubed.xqueue p = XQueue.clear := by
      show vget Engines.clear.xq p XQueue.clear = XQueue.clear
      simp [vget, Nat.le_of_not_lt h]
    unfold State.xFull; rw [this]; rfl

theorem witness_MaskedExchangeCommands :
    ((7#13 != 0#13) && decide ((7#13).toNat < 2 ^ cubed.ctl.dims)) = true ∧
    ((8#13 != 0#13) && decide ((8#13).toNat < 2 ^ cubed.ctl.dims)) = false ∧ cubed.xFull 0 = false := by decide

/-- A state in whose cycle one command acts late. -/
def acting (s : State) (i : Instr) (vals : List W64) : State :=
  { s with stream.ask := { Ask.none with late := [(i, 2, vals)] } }

theorem witness_MaskedExchangeCommands_late :
    (let c := xcmd [half true] false (some (0, 5))
     let s := acting (queued [] [c, { c with num := 3 }]) (.xdisarm 0 0) []
     s.stream.ask.late = [(.xdisarm 0 0, 2, [])] ∧ s.stream.ask.enres = none ∧ (s.xqueue 0).arms = [c, { c with num := 3 }] ∧
       ¬ (2 ≤ c.num ∨ c.started = true ∨ c.status ≠ none) ∧ c.halves = [half true]) := by decide

/-- TLW and TLN killed by number 0. -/
def killedLines : State :=
  let l : Timeline := { count := 0, done := [], issued := 0, seen := 0, err := 0, errAt := none, killed := true, killedAt := 0 }
  { State.reset with lines := vset (vset State.reset.lines 10 l) 9 l }

theorem witness_CollectiveAndChainCommands_late :
    (∀ i ∈ [Instr.rqcfg 0 0, .rqreset 0 0, .rcsnap 0 0, .chabort 0],
      let s := acting State.reset i [0, 0, 0, 0]
      s.stream.ask.enres = none ∧ s.stream.ask.late = [(i, 2, [0, 0, 0, 0])] ∧ (s.line 10).killed = false ∧
        (s.line 9).killed = false ∧ s.eng.chain = [] ∧ (s.rowQ 0).heldBy = []) ∧
    ((acting killedLines (.chabort 0) [0]).line 9).killed = true ∧ ((acting killedLines (.chabort 0) [0]).line 9).killedAt < 2 ∧
    ((acting killedLines (.chabort 0) [0]).line 10).killed = true ∧
    (let c : ChCmd := { Ctl.clear.chcmd 0 (.chain 0x10000100 1 1) with started := true }
     let d : ChCmd := Ctl.clear.chcmd 1 (.chain 0x10000100 1 1)
     let s : State := { State.reset with eng.chain := [c, d] }
     s.eng.chain = [c, d] ∧ c.num < 2 ∧ d.num < 2 ∧ c.op ≠ .abort ∧ d.op ≠ .abort ∧ c.started = true ∧ c.status = none ∧
       d.started = false) ∧
    (let c := { Ctl.clear.wcmd 1 (.rcsnap 0x10000000 (.replicate 256 0)) with started := true }
     let s : State := { State.reset with eng.snaps := [c] }
     s.halted = false ∧ s.eng.walker = [] ∧ s.eng.snaps = [c] ∧ c.status = none) := by decide +kernel

theorem witness_CollectiveAndChainCommands :
    decide (16 ≤ State.reset.eng.walker.length) = false ∧ rangeFault 0x9 0 32 false = none ∧
    (∃ f, rangeFault 0x9 0x18000000 32 false = some f) ∧ State.reset.chainFull = false ∧ progOk 0x10000000 1 = true ∧
    State.reset.ctl.chainMfOk = true ∧ ({ Ctl.clear with chcfg := 6 } : Ctl).chainMfOk = false :=
  ⟨by decide, by decide, ⟨_, rfl⟩, by decide, by decide, by decide, by decide⟩

theorem witness_PostedCommands : State.reset.copyBuffers 3 = false ∧
    (copying (List.replicate 32 (copyCmd .cfence false 0))).copyBuffers 0 = true ∧
    (MatOp.zero false 15).engine.2 + (if (MatOp.zero false 15).engine.1 then 1 else 0) < 16 ∧
    (MatOp.zero true 14).engine.2 + (if (MatOp.zero true 14).engine.1 then 1 else 0) < 16 ∧
    ([⟨true, 0, 0, 32⟩, ⟨false, 12, 0, 32⟩] : List HalfSpec)[1]? = some ⟨false, 12, 0, 32⟩ := by decide

/-! ### Traps and steps -/

theorem witness_SystemInstructions : handling.ctl.inHandler = true ∧ handled.ctl.inHandler = false := by decide

/-- Something saved. -/
def saved : SaveArea :=
  { results := [], rpt := none, loops := [1], lc := Ctl.clear.lc, lstart := Ctl.clear.lstart, lend := Ctl.clear.lend, held := false,
    draining := none }
/-- A die in the last cycle of a return. -/
def returning : State := { handling with stream := { Stream.clear with mode := .returning 1, save := some saved } }

theorem witness_TrapEntryAndReturn :
    (handled.ctl.trapvec ≠ 0 ∧ handled.ctl.inHandler = false) ∧ returning.stream.save = some saved := by decide

theorem witness_PreciseFaultTraps :
    (handled.ctl.trapvec ≠ 0 ∧ handled.ctl.inHandler = false ∧ handled.regs.rg 0 = true) ∧
    (let cause (ea : Nat) (load : Bool) : Nat :=
       if 2 ^ 48 ≤ ea then 3
       else if 0x1C000000 ≤ ea ∧ ea < 0x20000000 ∨ 2 ^ 32 ≤ ea ∨ (load = false ∧ 0x18000000 ≤ ea ∧ ea < 0x18080000) then 6
       else if (0x18080000 ≤ ea ∧ ea < 0x1C000000) ∨ 0x20000000 ≤ ea then 2 else 0
     let at_ (x : W64) (n : Nat) (load : Bool) : Prop :=
       cause (({ handled with regs := Regs.clear.wa 1 x } : State).ea 1 (immS 0) 8) load = n
     at_ 0x1000000000000 3 true ∧ at_ 0x1C000000 6 true ∧ at_ 0x100000000 6 true ∧ at_ 0x18000000 6 false ∧ at_ 0x18000000 0 true ∧
       at_ 0x18080000 2 true ∧ at_ 0x1BFFFFF8 2 false ∧ at_ 0x20000000 2 true ∧ at_ 0x17FFFFF8 0 false) := by decide

theorem witness_PreciseFaultTraps_sizes :
    (let out (n : Nat) (x : W64) : Bool :=
       let ea : Nat := ((({ handled with regs := Regs.clear.wa 1 x } : State).regs.ra 1).toNat +
         ((0 : Int) * n % 18446744073709551616).toNat) % 18446744073709551616 / n * n
       decide (281474976710656 ≤ ea) || decide (0x1C000000 ≤ ea ∧ ea < 0x20000000) || decide (4294967296 ≤ ea) ||
         decide (0x18080000 ≤ ea ∧ ea < 0x1C000000) || decide (0x20000000 ≤ ea)
     let at_ (n : Nat) : Bool := [0x1000000000000#64, 0x1C000000#64, 0x20000000#64, 0x100000000#64, 0x18081000#64].all (out n)
     at_ 1 && at_ 2 && at_ 4 && at_ 8 && at_ 128 && at_ 4096) = true := by
  decide

theorem witness_TrapWithoutHandler :
    (let s : State := { inMode .running with ctl.contpol := 0xF }
     s.ctl.trapvec = 0 ∧ s.stream.mode = .running ∧ s.ctl.contpol.toNat / 4 = 3) ∧
    (let s : State := { handling with ctl.contpol := 0x8 }
     s.ctl.inHandler = true ∧ s.ctl.contpol.toNat / 4 = 2) ∧
    (let i : Image := { State.reset.capture 1 0 0 with complete := true }
     let s : State := { inMode .running with ctl.contpol := 0x4, pkg.images := [i] }
     s.ctl.contpol.toNat / 4 = 1 ∧ s.pkg.retryImage s.ctl.jobid = some i ∧ s.stream.retries < 3 ∧ s.ctl.trapvec = 0) ∧
    State.reset.ctl.contpol.toNat / 4 = 0 := ⟨by decide, by decide, ⟨by decide, rfl, by decide, by decide⟩, by decide⟩

theorem witness_RankIsTheExtractedCoordinate : cubed.ctl.scmask.getLsbD (2 : Fin 13).val = true ∧
    (List.range 13).countP (fun j => cubed.ctl.scmask.getLsbD j) ≤ 3 := by decide

/-- A running die that fetches ADD s1, s2, s3 under g0, with a word of its own encoding (R177, R203). -/
def adding : State := State.reset.withFetchWord 32 0x00042218

theorem test_fetched_word : adding.bundleWords = [0x00042218, 0, 0, 0] ∧ decodeTableWord 32 0x00042218 = some (.add 0 1 2 3) := by
  decide

theorem witness_StepRunsTheBundle :
    adding.eng.freeze = 0 ∧ adding.stream.mode = .running ∧ adding.duePending = none ∧ adding.stream.bubbles = 0 ∧
    adding.inBounds = true ∧ bundleFault adding.rev2.isNone adding.bundleWords adding.stream.rpt = none ∧
    adding.slotFault (bundleSlots adding.bundleWords) = none ∧ adding.stalled = false ∧ adding.stream.rpt = none ∧
    (let t := (({ adding with stream.held := false } : State).repeatRegs).endWait
     let ss := bundleSlots adding.bundleWords
     (t.work ss).findSome? t.slotTrap = none ∧ t.watchMatch (t.work ss) = none) ∧
    adding.pkg.passDue = none ∧ adding.turns = [] ∧ slotClass 0x00042218 ≠ 15 := by decide

/-- A die on which a WAITT of its own bundle stalls: timeline tlc0 has not reached 1 (R216). -/
def stalling : State :=
  { State.reset.withFetchWord 32 0x40600800 with
    regs := Regs.clear.ws 1 1,
    ctl := { (State.reset.withFetchWord 32 0x40600800).ctl with lwthr := 1 },
    stream := { (State.reset.withFetchWord 32 0x40600800).stream with held := true } }

theorem witness_ClockEvents :
    (({ State.reset with eng.freeze := 1 } : State).eng.freeze = 1 ∧ State.reset.stream.mode.clockStops = false) ∧
    (let p : Pending := { cause := 0x03, info := 1, addr := 2 }
     let s : State := { handled with ctl := { handled.ctl with pend := [p] } }
     s.eng.freeze = 0 ∧ s.stream.mode = .running ∧ s.stream.ask = Ask.none ∧ s.ctl.trapvec ≠ 0 ∧ s.ctl.inHandler = false ∧
       s.ctl.nextPending = some p) ∧
    (inMode (.trapping 1)).stream.mode = .trapping 1 ∧
    (returning.eng.freeze = 0 ∧ returning.stream.mode = .returning 1 ∧ returning.stream.save = some saved ∧
      returning.stream.results = [] ∧ returning.stream.stopDue = false ∧ returning.ctl.drrem = 0) ∧
    (let s : State := { inMode (.trapping 5) with refillClk := 1023 }
     s.eng.freeze = 0 ∧ s.stream.mode = .trapping 5 ∧ s.refillClk = 1023 ∧ s.pkg.withheld = false ∧ s.pkg.celsius < 100 ∧
       0 ≤ s.ctl.enrsv.toInt) ∧
    (let s : State := { returning with stream := { returning.stream with
       mode := .returning 2, results := [{ seq := 0, rem := 1, land := .s 1 5, flags := 0, sat := 0 }] } }
     s.eng.freeze = 0 ∧ s.stream.mode = .returning (0 + 2) ∧ (s.stream.results.any fun r => decide (r.rem ≤ 1)) = true) := by
  decide

/-- A drain stop that a trap held up is made when the return ends. -/
theorem witness_ClockEvents_stopDue :
    (let s : State := { returning with stream := { returning.stream with stopDue := true } }
     s.eng.freeze = 0 ∧ s.stream.mode = .returning 1 ∧ s.stream.save = some saved ∧ s.stream.results = [] ∧
       s.stream.stopDue = true ∧ s.ctl.drrem = 0) := by decide

theorem witness_ClockEvents_sram :
    (∀ o ∈ [sramOp .store 0 0 false, sramOp .load 0 6 false, sramOp .load 0 0 true],
      (accessing (.imageStop 1 0) o).AtRest ∧ (accessing (.imageStop 1 0) o).stream.mode = .imageStop 1 0 ∧
      (accessing (.imageStop 1 0) o).stream.sram = [o]) ∧
    ((sramOp .store 0 0 false).performed = false ∧ (sramOp .store 0 0 false).performIn = 0 ∧
      (sramOp .store 0 0 false).kind = .store) ∧
    ((sramOp .load 0 6 false).performed = false ∧ (sramOp .load 0 6 false).performIn = 0 ∧ 0 < (sramOp .load 0 6 false).landIn) ∧
    ((sramOp .load 0 0 true).performed = true ∧ (sramOp .load 0 0 true).landIn = 0 ∧ (sramOp .load 0 0 true).dest = .s 3) :=
  ⟨fun o _ => ⟨⟨rfl, rfl, rfl, rfl, rfl⟩, rfl, rfl⟩, by decide⟩

/-- A refill comes in the cycle in which a bundle issues. -/
theorem witness_ClockEvents_refill :
    (let s : State := { adding with refillClk := 1023 }
     s.eng.freeze = 0 ∧ s.stream.mode = .running ∧ s.refillClk = 1023 ∧ s.pkg.withheld = false ∧ s.pkg.celsius < 100 ∧
       0 ≤ s.ctl.enrsv.toInt ∧ (match s.issue with
         | .next _ => true
         | _ => false) = true) := by decide

theorem witness_ClockEvents_longWait :
    stalling.eng.freeze = 0 ∧ stalling.stream.mode = .running ∧ stalling.duePending = none ∧ stalling.stream.bubbles = 0 ∧
    stalling.inBounds = true ∧ bundleFault stalling.rev2.isNone stalling.bundleWords stalling.stream.rpt = none ∧
    stalling.slotFault (bundleSlots stalling.bundleWords) = none ∧ stalling.stream.held = true ∧ stalling.stalledWait = true ∧
    stalling.ctl.lwstat = false ∧ stalling.ctl.lwthr.toNat ≤ stalling.stream.waited + 1 := by decide

/-! ### Events -/

theorem witness_StorageErrors : (6 : BitVec 4).toNat ≤ 6 ∧ State.reset.eng.freeze = 0 ∧ State.reset.stream.mode ≠ .scanStop ∧
    State.reset.stream.mode ≠ .sdump ∧ State.reset.stream.mode ≠ .fatal ∧
    (let s := inMode .fatal
     s.stream.mode = .fatal ∧ s.pkg.dumps = []) := by decide

/-- A paged-pool entry in use, of 2 MiB (R17). -/
def pool : WEntry := (0x100010980#64, 0x0000000000200000#64)
/-- A die with it at index 0, and WTLOCK set. -/
def pooled : State :=
  { State.reset with ctl.wtlock := true, mem.wtab := vset Mem.clear.wtab 0 pool }
/-- Two entries that overlap. -/
def overlapping : State :=
  { State.reset with mem.wtab := vset (vset Mem.clear.wtab 0 pool) 1 (0x100010180#64, 0) }

theorem witness_ControlPath :
    State.reset.ctl.wtlock = false ∧
    pooled.ctl.wtlock = true ∧
    (State.reset.stream.mode = .idle ∧ 0x7FFF0 + (List.replicate 16 (0 : Byte)).length ≤ 0x80000 ∧
      (0x80000 : BitVec 20).toNat % 16 = 0 ∧ (0x80000 : BitVec 20).toNat ≤ 0x80000) ∧
    (let ten := State.reset.pkg.tenant 0
     ten.heldEvents = [] ∧ ten.resetting = false ∧ State.reset.pkg.written = [] ∧ ((0 : W32) - ten.evrd).toNat ≤ (ten.evwr - ten.evrd).toNat ∧
       (ten.evwr - ten.evrd).toNat < ((1 : W32) - ten.evrd).toNat) ∧ (0xFFFFFFFE : W32).getLsbD 0 = false := by decide

theorem witness_ControlPath_table : State.reset.tableFault = none ∧ (∃ n, overlapping.tableFault = some n) :=
  ⟨by decide +kernel, 0, by decide +kernel⟩

theorem witness_EnergyAndTimelines :
    (let s : State := { State.reset with ctl.enrsv := 5 }
     5 ≤ s.ctl.enrsv.toNat ∧ s.ctl.enrsv.toNat < 6) ∧ Timeline.clear.done = [] ∧
    (Timeline.clear.count.toNat + 1 < 2 ∧ Timeline.clear.done.contains (Timeline.clear.count + 1).toNat = false) ∧
    ({ Timeline.clear with done := [2] } : Timeline).done = [(Timeline.clear.count + 2).toNat] := by decide

theorem reset_unwatched (s : State) (h : s.ctl.wctl = Ctl.clear.wctl) : s.Unwatched := by
  intro a n
  unfold Ctl.engineWatch
  rw [h]
  rfl

theorem witness_CopyEngineEvents :
    (let c := copyCmd (.fill 0x10000000 8 0) false 0
     (copying [c]).copyNext 0 = some c ∧ ((copying [c]).line 0).killed = false ∧ (copying [c]).halted = false ∧
       ({ copying [c] with ctl.enacct := 1 } : State).ctl.mayCharge 5 = true) ∧
    (let c := copyCmd .cfence false 0
     let s : State := { State.reset with eng.issueBuf := [(0, c)] }
     s.eng.issueBuf = (0, c) :: [] ∧ (s.copyQueue 0).length < 32) ∧
    (let c := copyCmd (.fill 0x10000000 8 0) true 0
     (copying [c]).findCopy 0 c.num = some c ∧ (copying [c]).copyCanMove 0 c = true ∧ c.pos < 8 ∧ inLocal 0x10000000 8 = true) ∧
    (let c := copyCmd (.copy 0x10000000 0xFFFFFF8 1 8 0 0) true 0
     (copying [c]).findCopy 0 c.num = some c ∧ (copying [c]).copyCanMove 0 c = true ∧ c.pos < 8 ∧ inLocal 0x10000000 8 = true ∧
       inLocal 0xFFFFFF8 8 = true) ∧
    (let c := copyCmd (.fill 0x10000000 8 0) true 8
     (copying [c]).copyQueue 0 = [c] ∧ c.finished = true ∧ c.endStatus = 0) := by decide

/-- A packed slot of 32 bytes that holds a block of zeros (R84). -/
def zeroSlot : List Byte := [0, 0, 0, 0, 1, 0, 1, 0] ++ List.replicate 24 0

theorem witness_CopyEngineEvents_packing :
    (let c := copyCmd (.pack 0x10000000 0x100 1 32) true 0
     let s := copying [c]
     s.findCopy 0 c.num = some c ∧ s.copyCanMove 0 c = true ∧ c.pos < 1 ∧ (s.load 0x10000000 256).any (· != 0) = false) ∧
    (let c := copyCmd (.pack 0x10000000 0x100 1 32) true 0
     let s : State := { copying [c] with mem.loc := [(0x100000FF, 128)] }
     s.copyCanMove 0 c = true ∧ (s.load (0x10000000 + 256 * c.pos) 256).getD (8 * 31 + 7) 0 ≠ 0 ∧ ¬ 32 + 8 * 1 ≤ 32) ∧
    (let c := copyCmd (.unpack 0x100 0x10000000 1 32) true 0
     let s : State := { copying [c] with mem.loc := putBytes [] 0x100 zeroSlot }
     s.findCopy 0 c.num = some c ∧ s.copyCanMove 0 c = true ∧ c.pos < 1 ∧ s.load (0x100 + 32 * c.pos) 32 = zeroSlot ∧
       (copying [c]).copyCanMove 0 c = true ∧ ((copying [c]).load 0x100 32).getD 4 0 ≠ 1) ∧
    (let c := { copyCmd (.pack 0x10000000 0x100 1 32) true 1 with bad := 1 }
     (copying [c]).copyQueue 0 = [c] ∧ c.finished = true ∧ c.endStatus = 1) := by decide +kernel

theorem witness_CopyEngineEvents_unwatched : (copying [copyCmd (.fill 0x10000000 8 0) true 0]).Unwatched := reset_unwatched _ rfl

/-- A task without conditions. -/
def task : Task :=
  { num := 1, pol := 0, chain := false, ecls := 2, eng := 15, mf := 0, z := true, wk := false, wm := false, am := false,
    dr := false, dm := false, dtr := false, wt := 0, at_ := 0, dt := 0, np := 0, waddr := 0, aaddr := 0, daddr := 0, wstep := 0,
    astep := 0, epb := 0, epc := 0, wshape := 0, ashape := 0, dshape := 0, conds := [.time 0 0], seed := 0, passes := 15,
    hold := none, runsOn := none, taken := [], tries := 0 }
/-- A die with energy. -/
def powered : State := { State.reset with ctl.enacct := 1000000000000 }
/-- A walker record of one transfer of 64 bytes within this die. -/
def walk : WCmd :=
  { num := 1, pol := 0, op := .coll 0, started := true, tries := 0, pos := 0, acks := 0, bad := false,
    record := [0x0000004000000001#64, 0x1000100010000000#64], elapsed := 0, status := none }

theorem witness_OtherEngineEvents :
    State.reset.halted = false ∧
    (let s : State := { powered with eng.matrix := vset Engines.clear.matrix 0 [mzero0] }
     s.matrixNext 0 = some mzero0 ∧ s.cancelled mzero0.num = false ∧ s.ctl.mayCharge mzero0.cost = true) ∧
    (let s : State := { powered with eng.tasks := [task] }
     s.eng.tasks = [task] ∧ s.taskReady task = true ∧ task.passes < 16 ∧ s.engineFor task = some 15 ∧
       s.ctl.mayCharge task.cost = true) ∧
    (let s : State := { State.reset with stream.tileOps := [zeroing] }
     s.stream.tileOps = [{ kind := .zero 0, shape := 0, seq := 0 }] ∧ cellsWf s.tiles.bytes = true) ∧
    (let c := xcmd [half true] false (some (0, 0))
     let s : State := { queued [] [c] with ctl.enacct := 1000000000000 }
     (s.xqueue 0).arms = [c] ∧ (s.xqueue 0).queue = [] ∧ (s.xqueue 0).aborts = [] ∧ (s.xqueue 0).readies = [] ∧
       c.halves = [half true] ∧ (half true).send = true ∧ c.barrier = false ∧ s.armDue 0 c = true ∧
       (s.line (0 + 4)).killed = false ∧ s.ctl.mayCharge c.cost = true) ∧
    (let c := { xcmd [half false] true none with elapsed := 0x001AB3F0 }
     let s := queued [c] []
     (s.xqueue 0).queue = [c] ∧ (s.xqueue 0).arms = [] ∧ c.started = true ∧ c.finished = false ∧ s.ctl.exto ≠ 0 ∧
       s.ctl.exto.toNat ≤ c.elapsed) ∧
    (let s : State := { State.reset with eng.walker := [walk] }
     s.eng.walker = [walk] ∧ walk.started = true ∧ walk.status = none ∧ walk.op = .coll 0 ∧ recKind walk.record = 1 ∧
       walk.pos < recTotal walk.record ∧
       recTransfer s.ctl.rank walk.record walk.pos = (s.ctl.rank, 0x10000000, 0x10001000) ∧
       inLocal 0x10000000 (recLen walk.record) = true ∧ inLocal 0x10001000 (recLen walk.record) = true) := by decide

/-- The head of one engine's queue begins after a lower number on another engine has begun, and not before (R140). -/
theorem witness_OtherEngineEvents_turn :
    (let at_ (y : BitVec 4) (n : Nat) (b : Bool) : MCmd := { mzero0 with op := .zero false y, num := n, started := b }
     let s (b : Bool) : State :=
       { State.reset with eng.matrix := vset (vset Engines.clear.matrix 0 [at_ 0 2 false]) 15 [at_ 15 1 b] }
     (s true).mqueue 0 = at_ 0 2 false :: [] ∧ (s true).matrixNext 0 = some (at_ 0 2 false) ∧ (s false).matrixNext 0 = none ∧
       (s false).matrixNext 15 = some (at_ 15 1 false) ∧ (s true).mqueue 1 = []) := by decide

theorem witness_OtherEngineEvents_conds : ∀ c ∈ task.conds, ∃ x n, c = .time x n := by
  intro c h
  exact ⟨0, 0, List.mem_singleton.mp h⟩

/-- A chain command between two steps. -/
def chainCmd (inStep : Bool) (toPost : List Task) : ChCmd :=
  { num := 1, pol := 0, op := .chain 0x10000100 1 1, started := true, tries := 0, step := 0, inStep := inStep, toPost := toPost,
    posting := false, posted := [], failed := [], after := none, carryN := 0, carryF := .replicate 2 0, halted := false, haltOut := false,
    aborted := false, status := none }
/-- A chain of one step on one element: FADDR 0x1000_0000, L and RT 1, IN 0, OUT 1 (R287). -/
def chained : State :=
  { State.reset with
    regs := { Regs.clear with b := vset (vset Regs.clear.b 0 1) 1 1 },
    ctl := { Ctl.clear with
      chelem := 1, bndfmt := vset Ctl.clear.bndfmt 0 3,
      bndbuf := vset (vset Ctl.clear.bndbuf 0 0x0000000110001000#64) 1 0x0000000110002000#64 },
    mem := { Mem.clear with loc := putBytes [] 0x10000100 (leBytes 8 0x0002001010000000) },
    eng := { Engines.clear with chain := [chainCmd false []] } }

theorem witness_OtherEngineEvents_chain :
    chained.eng.chain = [chainCmd false []] ∧ chained.stepDue = some (chainCmd false []) ∧
    (∃ p, chained.checkStep (chained.stepRecord (.chain 0x10000100 1 1) 0).1 (chained.stepRecord (.chain 0x10000100 1 1) 0).2
      chained.ctl.chelem.toNat chained.ctl.bndfmt = .ok p ∧ p.need ≤ p.ocap ∧ p.r ≠ 0) ∧
    (let c := chainCmd true [task]
     c.toPost = task :: [] ∧ c.inStep = true ∧ c.status = none ∧ (State.reset.eng.tasks.filter (·.chain)).length < 4 ∧
       (State.reset.line 8).killed = false) :=
  ⟨by decide, by decide, ⟨_, rfl, by decide, by decide⟩, by decide⟩

/-- A walker command that has begun, with its record. -/
def walking (op : WalkOp) (record : List W64) (pos : Nat) : WCmd := { walk with op := op, record := record, pos := pos }
/-- A record of one level: the die that differs in RANK bit 0 is the peer of its second transfer (R277). -/
def levelRecord : List W64 := [0x0000004000000011#64, 0x1000100010000000#64, 0, 0, 0x0000000100010001#64, 0, 0, 0]
/-- A row-block exchange on RANK bit 0 (R95). -/
def blockRecord : List W64 := [0x0000004000000102#64, 0x1000100010000000#64, 0, 0]

theorem witness_OtherEngineEvents_walker :
    (let c := walking (.coll 0) levelRecord 1
     c.started = true ∧ c.status = none ∧ recKind c.record = 1 ∧ c.pos < recTotal c.record ∧
       recTransfer cubed.ctl.rank c.record c.pos = (1, 0x10000000, 0x10001000) ∧ (1 : BitVec 13) ≠ cubed.ctl.rank ∧
       0 < recLen c.record) ∧
    (∀ p ∈ [(0, true), (1, false)],
      let c := walking (.coll 0) blockRecord p.1
      let m := recMask c.record
      recKind c.record = 2 ∧ c.pos < recGroup c.record ∧ 0 < recLen c.record ∧
        (decide ((cubed.ctl.rank &&& ~~~m) ||| deposit m (extract m cubed.ctl.rank ^^^ c.pos) = cubed.ctl.rank)) = p.2) ∧
    (let c := walking (.route 0 0 4 (mkShape 9 4 16)) [0x200000#64, 0x80000000#64, 1, 0] 0
     let row := (rowKeys 0 (mkShape 9 4 16) c.pos).map fun k => cellGet cubed.tiles.bytes k
     let q : RowQueue := { RowQueue.clear with cfgd := true, rowsz := 16, cap := 128 }
     c.pos < 4 ∧ (c.record.getD 0 0).toNat / 2 ^ 21 % 2 ^ 10 ≠ 0 ∧ ((c.record.getD 1 0).getLsbD 31 = true) ∧
       (c.record.getD 2 0).getLsbD 31 = false ∧ BitVec.ofNat 13 (c.record.getD 2 0).toNat ≠ cubed.ctl.rank ∧
       BitVec.ofNat 13 (c.record.getD 3 0).toNat = cubed.ctl.rank ∧ row ≠ [] ∧ q.rowsz = row.length ∧ q.free = true ∧
       ({ q with depth := 128 } : RowQueue).free = false) := by decide

/-- The last task of a chain step, running on me15. -/
def lastTask (sh : BitVec 24) : Task := { task with chain := true, runsOn := some 15, wshape := sh, ashape := sh }
/-- A chain command whose step waits for that task. -/
def lastStep : ChCmd := { chainCmd true [] with
  posted := [1], after := some { elems := 1, out := true, df := 3, tr := false, tile := 0, rows := 1, rowBytes := 2, base := 0 } }
/-- A state with both. -/
def stepping (sh : BitVec 24) : State :=
  { State.reset with arg := .two 8 1, eng := { Engines.clear with chain := [lastStep], tasks := [lastTask sh] } }

theorem witness_OtherEngineEvents_stepEnd :
    (∃ u, (stepping (mkShape 3 1 16)).runTask (lastTask (mkShape 3 1 16)) 15 0 = (u, 0x00) ∧
      u.eng.tasks = [lastTask (mkShape 3 1 16)] ∧ u.eng.chain = [lastStep]) ∧
    (∃ u, (stepping 0).runTask (lastTask 0) 15 0 = (u, 0x16) ∧ u.eng.tasks = [lastTask 0] ∧ u.eng.chain = [lastStep]) ∧
    (stepping 0).eng.matrix.toList.flatten = [] ∧
    (let s : State := { chained with ctl.bndbuf := vset chained.ctl.bndbuf 1 0x0000000010002000#64, stream.mode := .running }
     s.stepDue = some (chainCmd false []) ∧ s.stream.mode.isEnded = false ∧ s.ctl.trapvec = 0 ∧ s.ctl.inHandler = false ∧
       s.ctl.pend = [] ∧ ({ s with ctl.trapvec := 0x18000100#64 } : State).stepDue = some (chainCmd false []) ∧ ∃ p, s.checkStep (s.stepRecord (.chain 0x10000100 1 1) 0).1
         (s.stepRecord (.chain 0x10000100 1 1) 0).2 s.ctl.chelem.toNat s.ctl.bndfmt = .ok p ∧ p.ocap < p.need) := by
  refine ⟨⟨_, Prod.ext rfl (by decide), by decide, by decide⟩,
    ⟨_, Prod.ext rfl (by decide), by decide, by decide⟩, by decide,
    by decide, by decide, by decide, by decide, by decide, by decide, _, rfl, by decide⟩

/-! ### Packets and ports -/

/-- A job record (R304). -/
def jobRec : JobRec :=
  { k := 0, cls := 1, pol3 := 0, kernel := 0, quant := 100, cont := 0, csize := 64, buddy := 1, enest := 0, flagAddr := 0, flagVal := 0,
    optional := false }
/-- A job of tenant 0. -/
def job : Job := { newJob 1 0 0 1 jobRec { cycle := 0, queue := 0, ahead := 0, count := 1 } 0 none with state := .running }
/-- A die on which a job is resident. -/
def resident (j : Job) : State :=
  { inMode .running with
    pkg := { Pkg.clear with
      jobs := [j], resident := some 1, tenants := vset Pkg.clear.tenants 0 { Tenant.clear with pagers := [0] } } }

theorem witness_TrapWithoutHandler_rest :
    (0x08#8 ∈ [0x02#8, 0x07#8, 0x08#8, 0x09#8]) ∧ (0x05#8 ∈ [0x05#8, 0x06#8]) ∧
    ((inMode .running).ctl.trapvec = 0 ∧ (inMode .running).ctl.inHandler = false ∧
      ((inMode .running).pkg.tenant (inMode .running).pkg.residentTenant).cfg.dumpa.size = 0) ∧
    (let area : Aperture := { base := 0x100000, size := 0x1000 }
     let s : State := { inMode .running with pkg := { Pkg.clear with
       jobs := [job],
       resident := some 1,
       tenants := .replicate 16 { Tenant.clear with cfg := { Tenant.clear.cfg with dumpa := area } } } }
     s.stream.mode = .running ∧ (s.pkg.tenant s.pkg.residentTenant).cfg.dumpa.size ≠ 0) ∧
    (let s : State := { inMode .running with ctl.contpol := 0x4, stream.retries := 3 }
     s.ctl.contpol.toNat / 4 = 1 ∧ s.pkg.retryImage s.ctl.jobid = none ∧ 3 ≤ s.stream.retries) := by decide

theorem witness_PagerAnswers :
    (let s : State := { resident job with mem.wtab := vset Mem.clear.wtab 0 pool }
     let e := vget s.mem.wtab 0 (0, 0)
     let x := s.pkg.tenant 0
     s.pkg.residentJob = some job ∧ job.tenant = 0 ∧ s.ctl.diecoord &&& ~~~job.scmask = job.scbase ∧
       (0xFFFFFFFF01000000 : W64).toNat % 2 ^ 32 = s.ctl.diecoord.toNat + 0 * 2 ^ 13 + 1 * 2 ^ 24 ∧
       x.resetting = false ∧ wV e = true ∧ wKind e = 4 ∧ x.pagers.contains (wRegion e) = true ∧
       ((0x200000 : W64).toNat = 0x200000 ∧ 0x200000 % wSize e = 0 ∧ 0x200000 < 2 ^ 36 ∧ 0x200000 % 2 ^ 21 = 0 ∧
         dramRangeOk 0x200000 (wSize e) = true)) ∧
    (wV (vget (resident job).mem.wtab 2047 (0, 0)) = false) ∧
    (0x4FFE000 : W64).toNat % 2 ^ 32 = (resident job).ctl.diecoord.toNat + 2047 * 2 ^ 13 + 4 * 2 ^ 24 := by decide +kernel

theorem witness_PagerAnswers_rejected :
    (∀ y ∈ (resident job).pkg.jobs, y.tenant = 0 → BitVec.ofNat 13 (0x1001FFF#64).toNat &&& ~~~y.scmask ≠ y.scbase) ∧
    (∀ v ∈ [0x0000000#64, 0x5000000#64], BitVec.ofNat 13 v.toNat = (resident job).ctl.diecoord ∧
      (v.toNat / 2 ^ 24 % 256 = 0 ∨ 4 < v.toNat / 2 ^ 24 % 256)) := by
  refine ⟨fun y hy _ => ?_, fun v hv => ?_⟩
  · have h : y.scmask = 0 ∧ y.scbase = 0 := by cases List.mem_singleton.mp (show y ∈ [job] from hy); exact ⟨rfl, rfl⟩
    rw [h.1, h.2]; decide
  · rw [show (resident job).ctl.diecoord = 0 from rfl]
    simp only [List.mem_cons, List.not_mem_nil, or_false] at hv
    rcases hv with rfl | rfl <;> simp

theorem witness_PagerAnswers_frame :
    (let s : State := { resident job with mem.wtab := vset Mem.clear.wtab 0 pool }
     let size := wSize (vget s.mem.wtab 0 (0, 0))
     (0x200001 : W64).toNat ≠ 0x200000 ∧ dramRangeOk 0xFFFE00000 size = false) := by decide +kernel

/-- A packet from the die of coordinate 1 to the die of coordinate 0. -/
def packet (t : PType) (i : PMeta) : Packet :=
  { lseq := 1, ptype := t, dst := 0, src := 1, job := 0, rseq := 1, eng := 1, op := 0, dram := false, addr := 0x10000000, len := 8,
    xid := 1, imm := 0, payload := List.replicate 8 1, info := i, nctr := 1, outer := none, guy := false,
    held := none, tagOk := true }
/-- A state with the ports of dimensions 0 and 1 UP. -/
def linked (s : State) : State :=
  { s with ports := vset (vset s.ports 0 { Port.clear with state := .up }) 1 { Port.clear with state := .up } }

theorem witness_PacketsPerformed :
    ((linked cubed).Arrives 0 (packet .write .none) ∧ (packet .write .none).dst = (linked cubed).ctl.diecoord ∧
      (packet .write .none).info = .none) ∧
    (atomicNew ((packet .atomic .none).op.truncate 4) 8 0 0 0 = some 0) ∧
    (let k := packet .reduceStore .none
     let s := linked cubed
     let mark := s.ctl.rshwb.toNat + 4 * (4 * extract s.ctl.scmask k.src + (k.eng.toNat - 1))
     let ahead := (k.rseq - BitVec.ofNat 32 (leNat (getBytes s.mem.dram mark 4))).toNat
     k.src ≠ s.ctl.diecoord ∧ k.job = s.ctl.jobid ∧ 1 ≤ ahead ∧ ahead < 2 ^ 31 ∧ ({ k with job := 1 } : Packet).job ≠ s.ctl.jobid ∧
       (({ k with rseq := 0 } : Packet).rseq - BitVec.ofNat 32 (leNat (getBytes s.mem.dram mark 4))).toNat = 0) ∧
    (∀ p : PType, (p = .transferAck → p.answer = true)) :=
  ⟨⟨⟨by decide, by decide, rfl, rfl, by decide, rfl, by decide, by decide, by decide⟩, by decide, rfl⟩, by decide, by decide,
    fun p h => by rw [h]; rfl⟩

theorem witness_PacketsWait :
    (let s : State := { linked cubed with stream.mode := .scanStop }
     (s.port 0).state = .up ∧ s.mustWait (packet .write .none) = true) ∧
    (let k := packet .write .none
     let s : State := { cubed with ports := vset cubed.ports 12 { Port.clear with rx := [k] } }
     (s.port 12).rxHead 0 = some k ∧ s.mustWait k = false ∧ s.halted = false ∧
       ((linked s).mustWait k = true ∨ ((s.port 12).rxHead k.vc).isSome = true)) := by decide

theorem witness_PacketsPerformed_unwatched : (linked cubed).Unwatched := reset_unwatched _ rfl

/-- A compare that fails. -/
theorem witness_PacketsPerformed_compare :
    (let k := { packet .atomic .none with op := 0xF9 }
     (linked cubed).Arrives 0 k ∧ k.ptype = .atomic ∧ k.op.truncate 4 = 0x9#4 ∧
       leNat ((linked cubed).load k.addr.toNat k.len) ≠ leNat k.payload % 2 ^ (8 * k.len)) :=
  ⟨⟨by decide, by decide, rfl, rfl, by decide, rfl, by decide, by decide, by decide⟩, by decide, by decide, by decide⟩

/-- The last packet of a match, and a READY that finds its half, of the same length and of another one. -/
theorem witness_ExchangePacketsPerformed_last :
    (∀ k ∈ [packet .exchangeData (.exch 0 0 56 true), packet .exchangeData (.ready 0 0 64 0x10000400),
        packet .exchangeData (.ready 0 0 63 0x10000400)],
      ∀ arm ∈ [true, false],
        let c := xcmd [half false, half true] true none
        let s := linked (if arm then queued [] [c] else queued [c] [])
        let x := s.xqueue 0
        s.halted = false ∧ s.mustWait k = false ∧ s.ctl.partnerDim k.src = 0 ∧ x.deadSend = [] ∧
        ((x.queue = [c] ∧ x.arms = []) ∨ (x.queue = [] ∧ x.arms = [c])) ∧ x.holder false 0 0 = some (c, half false) ∧
        x.holder true 0 0 = some (c, half true) ∧ c.begun (half false) = true ∧ c.begun (half true) = true ∧
        (half true).failed = false ∧ (half true).done = false ∧ c.status = none ∧ c.barrier = false ∧ 64 = (half true).len) := by
  decide

theorem witness_ExchangePacketsPerformed :
    (let s := linked (queued [xcmd [half false] true none] [])
     let k := packet .exchangeData (.exch 0 0 56 false)
     s.Arrives 0 k ∧ k.dst = s.ctl.diecoord ∧ s.ctl.partnerDim k.src = 0 ∧
       (s.xqueue 0).holder false 0 0 = some (xcmd [half false] true none, half false) ∧
       (xcmd [half false] true none).begun (half false) = true ∧ (half false).failed = false ∧ (half false).done = false) ∧
    (let x := (linked cubed).xqueue 3
     x.deadSend = [] ∧ x.holder true 0 0xFFFFFFFF = none ∧ (vget x.sendCount 0 0 - 0x80000000#32).toNat ≥ 2 ^ 31) ∧
    (let s := linked (queued [xcmd [half true] true none] [])
     (s.xqueue 0).arms = [] ∧ (s.xqueue 0).queue = [xcmd [half true] true none] ∧
       (s.xqueue 0).holder true 0 0 = some (xcmd [half true] true none, half true) ∧
       (xcmd [half true] true none).begun (half true) = true ∧ (half true).finished = false ∧
       (xcmd [half true] true none).started = true ∧ (xcmd [half true] true none).barrier = false) ∧
    (let rq : RowQueue := { cfgd := true, base := 0x10000000, rowsz := 8, cap := 128, depth := 127, head := 0, heldBy := [] }
     let s : State := { linked cubed with eng.rows := vset Engines.clear.rows 255 rq }
     (s.rowQ 254).cfgd = false ∧ (s.rowQ 255).cfgd = true ∧ (s.rowQ 255).rowsz = (packet .exchangeData (.row 255 0 8)).payload.length ∧ (s.rowQ 255).free = true ∧
       (packet .exchangeData (.row 255 0 9)).payload.length < 9) :=
  ⟨⟨⟨by decide, by decide, rfl, rfl, by decide, rfl, by decide, by decide, by decide⟩, by decide⟩, by decide, by decide,
    by decide +kernel⟩

/-- A read that waits behind a stalled copy, with an answer kept for it. -/
def waitingRead : CopyCmd :=
  { copyCmd (.copy 0x100000000 0x10000000 1 8 0 0) true 8 with num := 2, kept := [(0, List.replicate 8 1)] }

theorem witness_AnswersAndForwarding_kept :
    (let b := { copyCmd (.copy 0x100000000 0x10000000 1 8 0 0) true 0 with stalled := true }
     let s := linked (copying [b, waitingRead])
     let k := { packet .readResponse .none with dst := 0, xid := waitingRead.xid }
     s.Arrives 0 k ∧ (s.copyQueue 0).find? (fun c => c.started && decide (c.xid = k.xid)) = some waitingRead ∧
       waitingRead.status = none ∧ s.copyHeld 0 waitingRead = true ∧ waitingRead.kept ≠ []) ∧
    (let s := copying [waitingRead]
     s.halted = false ∧ s.findCopy 0 2 = some waitingRead ∧ waitingRead.started = true ∧ s.copyHeld 0 waitingRead = false ∧
       waitingRead.kept = (0, List.replicate 8 1) :: [] ∧ 0 < 8) :=
  ⟨⟨⟨by decide, by decide, rfl, rfl, by decide, rfl, by decide, by decide, by decide⟩, by decide⟩, by decide⟩

theorem witness_AnswersAndForwarding :
    (let c := copyCmd (.copy 0x100000000 0x10000000 1 8 0 0) true 8
     let s := linked (copying [c])
     let k := { packet .readResponse .none with dst := 0 }
     s.Arrives 0 k ∧ k.dst = s.ctl.diecoord ∧ k.eng.toNat = 0 + 1 ∧ k.xid = c.xid ∧
       (s.copyQueue 0).find? (fun c => c.started && decide (c.xid = k.xid)) = some c ∧ c.status = none ∧
       ({ k with ptype := .unreachable } : Packet).ofAnswer = false ∧ k.imm.toNat < 8 ∧ inLocal 0x10000000 8 = true ∧
       s.copyHeld 0 c = false ∧ c.kept = [] ∧ s.copyQueue 0 = [c]) ∧
    (let s := linked cubed
     let k := { packet .write .none with dst := 2 }
     (s.port 0).state = .up ∧ k.outer = none ∧ k.tagOk = true ∧ (s.port 0).nctrIn < k.nctr ∧ k.lseq = (s.port 0).lacc + 1 ∧
       k.dst ≠ s.ctl.diecoord ∧ nextDim s.ctl.diecoord k.dst = some 1 ∧ (s.port 1).state = .up ∧
       (s.port 1).held + k.flits ≤ 1024 ∧ (s.port 1).guyLast = none ∧ (s.port 1).resync = false ∧ (s.port 1).waiting = [] ∧ (s.port 0).rxHead k.vc = none) ∧
    (let o : Detour := { d := 2, e := 1, hop := 1, lseq := 5, nctr := 1, body := [], tagOk := true }
     o.hop < 2 ∧ (1 = if o.hop = 0 then o.d else o.e) ∧ (0 = if ({ o with d := 0, hop := 0 } : Detour).hop = 0 then 0 else o.e)) :=
  ⟨⟨⟨by decide, by decide, rfl, rfl, by decide, rfl, by decide, by decide, by decide⟩, by decide⟩, by decide, by decide⟩

/-- A die with one port as given. -/
def portly (p : Port) : State := { State.reset with ports := vset State.reset.ports 12 p, now := 200000000 }

theorem witness_LinkReplay :
    (let k := packet .write .none
     let s := portly { Port.clear with state := .up, lsent := 1, replay := [k] }
     (s.port 12).state = .up ∧ (s.port 12).waiting = [] ∧ ackedBy 1 (s.port 12).lsent = true ∧ (s.port 12).replays < 7 ∧
       (s.port 12).replay ≠ [] ∧ (s.port 12).lastAck + 3500 ≤ s.now ∧ (s.port 12).nctrIn < 1 ∧ 0 ≤ (s.port 12).nctrIn) ∧
    (let s := portly { Port.clear with state := .up, guyLast := some 3 }
     (s.port 12).guyLast = some 3 ∧ (s.port 12).replay = []) := by decide

/-- The eighth replay in a row, and one that an acknowledgement before it has made the first. -/
theorem witness_LinkReplay_eighth :
    (let k := packet .write .none
     let s := portly { Port.clear with state := .up, lsent := 1, replay := [k], replays := 7 }
     let p := s.port 12
     p.state = .up ∧ p.waiting = [] ∧ 7 ≤ p.replays ∧ p.replay ≠ [] ∧ p.lastAck + 3500 ≤ s.now ∧ p.nctrIn < 1 ∧
       ackedBy 0 p.lsent = true ∧ p.replay.filter (fun k => !ackedBy k.lseq 0) = p.replay ∧ ackedBy 1 p.lsent = true ∧
       (p.replay.filter fun k => !ackedBy k.lseq 1).length < p.replay.length) := by decide

theorem witness_PortSends :
    (let s := portly { Port.clear with state := .up }
     (s.port 12).waiting = [] ∧ (s.port 12).state = .up ∧ (s.port 12).held + (packet .write .none).flits ≤ 1024 ∧
       (packet .write .none).outer = none ∧ (packet .write .none).guy = false) ∧
    ((portly { Port.clear with state := .up, resync := true }).port 12).resync = true ∧
    (let s := linked (portly { Port.clear with state := .failed, guydim := 0x11, farUp := true })
     let p := s.port 12
     p.state.detours = true ∧ p.resync = false ∧ s.guyReady 12 = true ∧ p.guydim.toNat % 16 = 1 ∧ (s.port 1).guyLast = none ∧
       (s.port 1).resync = false ∧ (s.port 1).waiting = [] ∧ (s.port 1).held + (packet .write .none).flits + 1 ≤ 1024) ∧
    (let s := portly { Port.clear with state := .failed }
     (s.port 12).state.detours = true ∧ s.guyReady 12 = false) := by decide

/-- No port that is out of use holds a packet. -/
abbrev State.noneHeld (s : State) : Prop :=
  ∀ e < 13, (s.port e).state.detours = true → (s.port e).replay = [] ∧ (s.port e).waiting = []

theorem witness_PortStates_held : State.noneHeld State.reset ∧ State.noneHeld (portly { Port.clear with state := .up }) ∧
    (State.reset.pkg.verified = false ∧ ({ State.reset with pkg.status := vset Pkg.clear.status 0 1 } : State).pkg.verified = true) ∧
    (State.reset.port 12).state ≠ .up ∧ (State.reset.port 12).state ≠ .stopped ∧ (State.reset.port 12).state ≠ .parked ∧
    State.reset.guyReady 12 = false ∧
    (let s := linked (portly { Port.clear with state := .failed, guydim := 0x11, farUp := true, asked := true })
     State.noneHeld s ∧ (s.port 12).state = .failed ∧ (s.port 12).asked = true ∧ s.guyReady 12 = true ∧
       (s.port 12).guydim.toNat % 16 = 1 ∧ (s.port 1).nctrIn < 1) := by decide

theorem witness_PortStates :
    (State.reset.port 12).state = .down ∧ (State.reset.port 12).replay = [] ∧ (State.reset.port 12).waiting = [] ∧
    (let p := (portly { Port.clear with state := .train, since := 25000000 }).port 12
     p.state = .train ∧ p.resync = false ∧ ({ p with resync := true } : Port).resync = true ∧ p.since + 175000000 ≤ 200000000) ∧
    (let p := (portly { Port.clear with state := .failed, since := 198250000 }).port 12
     p.state = .failed ∧ p.since + 1750000 ≤ 200000000) ∧
    (let p := (portly { Port.clear with state := .up, nctrOut := 2 ^ 48 }).port 12
     p.state = .up ∧ 2 ^ 48 ≤ p.nctrOut ∧ p.rekey = false ∧ p.state ≠ .down ∧ p.state ≠ .parked ∧ p.nctrIn < 1) ∧
    (let p := (portly { Port.clear with state := .up, nctrOut := 2 ^ 48 + 2 ^ 40, rekey := true }).port 12
     2 ^ 48 + 2 ^ 40 ≤ p.nctrOut ∧ p.rekey = true) ∧
    (let p := (portly { Port.clear with state := .stopped }).port 12
     p.state = .stopped) ∧
    (let p := (portly { Port.clear with state := .up, asked := true }).port 12
     p.state ≠ .parked ∧ p.asked = true ∧ p.nctrIn < 1) := by decide

/-! ### Queues, jobs and images -/

/-- A host-queue entry (R303). -/
def entry (op addr arg : Nat) : List Byte := leBytes 4 1 ++ leBytes 4 op ++ leBytes 8 addr ++ leBytes 4 arg
/-- A tenant with queue 63, an aperture and a dump area (R359). -/
def owning : Tenant :=
  { Tenant.clear with
    used := true,
    cfg := { Tenant.clear.cfg with
      qmask := 0x8000000000000000#64, grant := 1, aper := [{ base := 0, size := 0x100000 }], dumpa := { base := 0x100000, size := 0x1000 } } }
/-- A package whose queue 63 holds one entry at host address 0x1000, with bytes at 0x2000. -/
def submitted (e bs : List Byte) (js : List Job) : State :=
  { inMode .running with
    mem := { Mem.clear with host := putBytes (putBytes [] 0x1000 e) 0x2000 bs },
    pkg := { Pkg.clear with
      tenants := vset Pkg.clear.tenants 15 owning, jobs := js, resident := some 1, status := vset Pkg.clear.status 0 1,
      queues := vset Pkg.clear.queues 63 { HQueue.clear with qbase := 0x1000, qtail := 1 } } }
/-- The bytes of a job record: k 0, class 1, quantum 100, container size 64 (R304). -/
def recordBytes (kind : Nat) : List Byte := leBytes 8 (kind + 0x100 + 100 * 2 ^ 32) ++ leBytes 8 0 ++ leBytes 8 64

theorem witness_HostQueueEvents_submit :
    (let s := submitted (entry 1 0x2000 0) (recordBytes 1) []
     let e := s.entryAt 63
     s.EntryReady 15 63 1 ∧ (parseRecord 1 (getBytes s.mem.host (entryAddr e) 64)).isSome = true) ∧
    (let s := submitted (entry 1 0x2000 0) (recordBytes 3) []
     let e := s.entryAt 63
     s.EntryReady 15 63 1 ∧ parseRecord 1 (getBytes s.mem.host (entryAddr e) 64) = none) :=
  ⟨⟨⟨by decide, by decide⟩, by decide⟩, ⟨by decide, by decide⟩, by decide⟩

theorem witness_HostQueueEvents_chain :
    (let bs := leBytes 8 (2 + 2 ^ 16 + 100 * 2 ^ 32) ++ List.replicate 56 0 ++ leBytes 8 3 ++ leBytes 8 0 ++ leBytes 8 64
     let s := submitted (entry 2 0x2000 0) bs []
     let e := s.entryAt 63
     s.EntryReady 15 63 2 ∧ ∃ r rs, parseChain s.mem.host (entryAddr e) = some (r :: rs)) :=
  ⟨⟨by decide, by decide⟩, _, [], by rfl⟩

theorem witness_HostQueueEvents_cancel :
    (let j := { job with queue := 63 }
     let s := submitted (entry 3 0 1) [] [j]
     let e := s.entryAt 63
     s.EntryReady 15 63 3 ∧ s.pkg.chains = [] ∧ s.pkg.jobs = [j] ∧ j.queue = 63 ∧ j.seq.toNat = entryArg e ∧
       j.runs = true ∧ s.pkg.resident = some j.id ∧ s.stream.mode = .running) := ⟨⟨by decide, by decide⟩, by decide⟩

theorem witness_HostQueueEvents_pagers :
    (let s := submitted (entry 4 0 127) [] []
     s.EntryReady 15 63 4 ∧ entryAddr (s.entryAt 63) = 0 ∧ entryArg (s.entryAt 63) < 128) ∧
    (let s := submitted (entry 5 0 127) [] []
     s.EntryReady 15 63 5 ∧ entryAddr (s.entryAt 63) = 0 ∧ entryArg (s.entryAt 63) < 128) :=
  ⟨⟨⟨by decide, by decide⟩, by decide⟩, ⟨by decide, by decide⟩, by decide⟩

/-- An image of a state, complete or not. -/
def image (kind level serial : Nat) (done : Bool) : Image :=
  { (State.reset).capture kind 0 level with serial := serial, complete := done }
/-- A dump of tenant 15. -/
def dump (i : Image) : Dump := { tenant := 15, epoch := 0, serial := 1, addr := 0x100000, img := i }

theorem witness_HostQueueEvents_rest :
    (let s := submitted (entry 6 0 1) [] []
     s.owner 63 = some 15 ∧ ((1 : W32) - (s.pkg.queue 63).qhead).toNat ≤ 2 ^ (s.pkg.queue 63).qlog.toNat ∧
       ((64 : W32) - (s.pkg.queue 63).qhead).toNat ≤ 2 ^ (s.pkg.queue 63).qlog.toNat ∧
       (s.pkg.tenant 15).used = true ∧ s.pkg.verified = true ∧ s.dumping 15 = false ∧ (s.pkg.tenant 15).resetting = false ∧ s.pkg.jobs = [] ∧
       s.pkg.chains = []) := by decide

/-- A package with a dump, the bytes of its area, and an aperture of tenant 15 for `n` bytes. -/
def withDump (s : State) (d : Dump) (bs : List Byte) (n : Nat) : State :=
  { s with
    mem := { s.mem with host := putBytes s.mem.host 0x100000 bs },
    pkg := { s.pkg with
      dumps := [d],
      tenants := vset s.pkg.tenants 15 { owning with cfg := { owning.cfg with aper := [{ base := 0, size := 1 + n }] } } } }

theorem putBytes_read : ∀ (bs : List Byte) (l : List Host.Cell) (a i : Nat), cellsWf l = true → (h : i < bs.length) →
    cellGet (putBytes l a bs) (a + i) = bs[i]
  | [], _, _, _, _, h => absurd h (Nat.not_lt_zero _)
  | x :: r, l, a, 0, hl, _ => by
    rw [putBytes, cellGet_putBytes_outside (cellsWf_put hl) (by omega), cellGet_put hl, if_pos (by omega)]; rfl
  | x :: r, l, a, i + 1, hl, h => by
    rw [putBytes, show a + (i + 1) = a + 1 + i by omega]
    exact putBytes_read r _ (a + 1) i (cellsWf_put hl) (by simpa using h)

theorem read_back (bs : List Byte) (l : List Host.Cell) (a : Nat) (hl : cellsWf l = true) :
    getBytes (putBytes l a bs) a bs.length = bs := by
  apply List.ext_getElem (by simp [getBytes])
  intro i _ h
  simp only [getBytes, List.getElem_map, List.getElem_range]
  exact putBytes_read _ _ _ _ hl h

theorem submitted_host (e bs js) : cellsWf (submitted e bs js).mem.host = true :=
  cellsWf_putBytes (cellsWf_putBytes (l := []) rfl)

theorem withDump_entry (e : List Byte) (d : Dump) (bs : List Byte) (n : Nat) :
    (withDump (submitted e [] []) d bs n).entryAt 63 = (submitted e [] []).entryAt 63 := by
  have h (a : Nat) (ha : a + 64 ≤ 0x100000) : getBytes (putBytes (submitted e [] []).mem.host 0x100000 bs) a 64 =
      getBytes (submitted e [] []).mem.host a 64 := by
    unfold getBytes
    apply List.map_congr_left
    intro i hi
    have := List.mem_range.mp hi
    exact cellGet_putBytes_outside (submitted_host _ _ _) (.inl (by omega))
  exact h _ (Nat.le_of_ble_eq_true rfl)

theorem withDump_aper (s : State) (d : Dump) (bs : List Byte) (n : Nat) :
    ((withDump s d bs n).pkg.tenant 15).cfg.aper = [{ base := 0, size := 1 + n }] := by
  simp [Pkg.tenant, withDump, vget, vset]

theorem witness_HostQueueEvents_dump :
    (let d := dump (image 4 2 1 true)
     let p := (submitted (entry 6 0 1) [] []).pkg
     let s := withDump (submitted (entry 6 0 1) [] []) d (p.sealDump d) (p.openDump d).length
     s.EntryReady 15 63 6 ∧ s.namedDump 15 1 = some d ∧ s.pkg.secret = p.secret ∧
     getBytes s.mem.host d.addr (p.sealDump d).length = p.sealDump d ∧
     ((s.pkg.tenant 15).cfg.aper.any fun x => decide (x.size ≠ 0) && decide (x.base ≤ entryAddr (s.entryAt 63)) &&
        decide (entryAddr (s.entryAt 63) + (p.openDump d).length ≤ x.base + x.size)) = true) := by
  intro d p
  generalize p.sealDump d = bs
  generalize (p.openDump d).length = n
  intro s
  have he : s.entryAt 63 = (submitted (entry 6 0 1) [] []).entryAt 63 := withDump_entry _ _ _ _
  have ha : (s.pkg.tenant 15).cfg.aper = [{ base := 0, size := 1 + n }] := withDump_aper _ _ _ _
  have hq (t : Nat) : s.pkg.tenant t = if t = 15 then s.pkg.tenant 15 else Tenant.clear := by
    by_cases h : t = 15
    · rw [if_pos h, h]
    · rw [if_neg h]
      show vget (vset (vset Pkg.clear.tenants 15 owning) 15 _) t Tenant.clear = _
      rw [vget_vset_other (Ne.symm h), vget_vset_other (Ne.symm h)]
      show (Vector.replicate 16 Tenant.clear)[t]?.getD Tenant.clear = _
      rw [Vector.getElem?_replicate]
      split <;> rfl
  have h15 : (s.pkg.tenant 15).queues = [63] ∧ (s.pkg.tenant 15).stopped = false ∧ (s.pkg.tenant 15).resetting = false := by
    rw [show s.pkg.tenant 15 = _ from vget_vset_same (by decide)]
    exact ⟨(by decide : owning.queues = [63]), rfl, rfl⟩
  have ho : s.owner 63 = some 15 := by
    unfold State.owner
    have : (fun t => (s.pkg.tenant t).queues.contains 63) = fun t => decide (t = 15) := by
      funext t
      rw [hq]
      by_cases h : t = 15
      · simp [h, h15]
      · simp only [h, if_false, decide_false]; decide
    rw [this]; decide
  have ht : s.hasEntry 63 = true := by
    unfold State.hasEntry
    rw [ho]
    simp only [h15]
    rfl
  refine ⟨⟨by decide, ho, ht, ?_⟩, rfl, rfl, read_back bs _ 0x100000 (submitted_host _ _ _), ?_⟩
  · rw [he]; exact ⟨by decide, by decide, rfl⟩
  · rw [he, ha, show entryAddr ((submitted (entry 6 0 1) [] []).entryAt 63) = 0 by decide]
    simp

/-- A job that resumes, waiting, with its launch record. -/
def waiting : Job :=
  { job with
    state := .waiting, tenant := 15, image := some (1, 1),
    launch := some { dims := 0, domain := none, entry := none, regs := [], srseed := none, energy := 0, rev := 1, windows := [] } }
/-- A package with one job, every ready bit of die 0 and of the package set, and one image. -/
def scheduled (j : Job) (i : Image) : State :=
  { State.reset with
    pkg := { Pkg.clear with
      tenants := vset Pkg.clear.tenants 15 owning, jobs := [j], passDue := some 0, images := [i], lastTenant := some 15,
      status := vset Pkg.clear.status 0 0x00010105#32, ageq := 0 } }

theorem witness_SchedulerEvents :
    (let s := scheduled waiting { image 1 0 1 true with jobid := 1 }
     s.frozen = false ∧ ({ s with eng.freeze := 1 } : State).frozen = true ∧
       s.pkg.passDue.isSome = true ∧ s.pkg.jobs = [waiting] ∧ waiting.state = .waiting ∧ 0 = waiting.record.k ∧
       s.pkg.rate waiting ≤ maxRate ∧ domainFits waiting.record.k none = true ∧ s.granted waiting = true ∧
       (vget s.pkg.status 0 0).getLsbD 0 = true ∧ (vget s.pkg.status 0 0).getLsbD 2 = true ∧ waiting.image.isSome = true ∧
       ({ s with pkg := { s.pkg with passDue := none, clearing := s.pkg.clearing && !s.cleared } } : State).place? none waiting =
         some (0, 0)) := by decide

/-- The body of a container of one kernel: a code section of rev 1 with one bundle of 16 zero bytes (R198). -/
def codeBody : List Byte := leBytes 4 1 ++ leBytes 4 1 ++ leBytes 8 96 ++ leBytes 8 16 ++ List.replicate 8 0 ++ List.replicate 16 0
/-- The first 16 bytes of its header. -/
def codeHead : List Byte := leBytes 4 0x4F4C4C42 ++ leBytes 2 1 ++ leBytes 2 1 ++ leBytes 8 1
/-- The container. -/
def codeContainer : List Byte := codeHead ++ (Config.sha384 codeBody).toList ++ codeBody
/-- A waiting job that has not run, with a launch record of some window lines. -/
def fresh (ws : List WindowLine) : Job :=
  { job with
    state := .waiting, tenant := 15, record := { jobRec with cont := 0x2000, csize := 112 },
    launch := some { dims := 0, domain := none, entry := none, regs := [.s 31 7, .g 15 true], srseed := some 0, energy := 0, rev := 1, windows := ws } }
/-- Its package, with the container at its host address. -/
def launching (ws : List WindowLine) (bs : List Byte) : State :=
  { scheduled (fresh ws) (image 1 0 1 true) with mem.host := putBytes [] 0x2000 bs }
/-- Two lines of one window (R19). -/
def twice : List WindowLine :=
  [0, 1].map fun i => { index := i, kind := 4, vbase := 0x100000000, size := 0, rd := true, wr := true, scope := 0, state := 0,
                        rank := 0, region := 0, off := 0 }

theorem codeContainer_length : codeContainer.length = 112 := by
  simp only [codeContainer, List.length_append, Vector.length_toList]; rfl

theorem codeContainer_sections : containerSections codeContainer = some [sectionAt codeContainer 0] ∧
    (sectionAt codeContainer 0).kind = 1 ∧ (sectionAt codeContainer 0).rev = 1 ∧
    jobCode codeContainer [sectionAt codeContainer 0] 0 1 = some (List.replicate 16 0) := by
  have key (v : Vector Byte 48) :
      let bs := codeHead ++ v.toList ++ codeBody
      bs.drop 64 = codeBody ∧ (bs.drop 16).take 48 = v.toList ∧ (∀ a n, a + n ≤ 16 → (bs.drop a).take n = (codeHead.drop a).take n) := by
    intro bs
    have hl : (codeHead ++ v.toList).length = 64 := by simp only [List.length_append, Vector.length_toList]; rfl
    refine ⟨?_, ?_, fun a n h => ?_⟩
    · rw [← hl]; exact List.drop_left
    · show ((codeHead ++ v.toList ++ codeBody).drop 16).take 48 = _
      rw [List.append_assoc, show (16 : Nat) = codeHead.length from rfl, List.drop_left]
      exact List.take_left' (Vector.length_toList)
    · have h16 : codeHead.length = 16 := rfl
      show ((codeHead ++ v.toList ++ codeBody).drop a).take n = _
      rw [List.append_assoc, List.drop_append_of_le_length (by omega), List.take_append_of_le_length (by simp; omega)]
  obtain ⟨h64, h48, hh⟩ := key (Config.sha384 codeBody)
  change codeContainer.drop 64 = codeBody at h64
  have hs : sectionAt codeContainer 0 =
      { kind := 1, kernel := 0, rev := 1, off := 96, size := 16, addr := 0, rank := 0, everywhere := false } := by
    unfold sectionAt
    rw [show 64 + 32 * 0 = 64 from rfl, h64]; rfl
  refine ⟨?_, by rw [hs], by rw [hs], ?_⟩
  · unfold containerSections
    have f (a n : Nat) (h : a + n ≤ 16) : fieldAt codeContainer a n = fieldAt codeHead a n := congrArg leNat (hh a n h)
    rw [f 8 2 (by omega), f 0 4 (by omega), f 4 2 (by omega), f 6 2 (by omega), h64]
    have e1 : fieldAt codeHead 8 2 = 1 := rfl
    rw [e1, codeContainer_length, show (codeContainer.drop 16).take 48 = _ from h48]
    simp only [List.range_one, List.map_cons, List.map_nil, beq_self_eq_true]
    rw [hs]; rfl
  · rw [hs]
    have : codeContainer.drop 96 = codeBody.drop 32 := by rw [← h64, List.drop_drop]
    show some ((codeContainer.drop 96).take 16) = _
    rw [this]; rfl

theorem launching_container (ws : List WindowLine) : (launching ws codeContainer).container (fresh ws) = codeContainer := by
  have h := read_back codeContainer [] 0x2000 (by decide)
  rw [codeContainer_length] at h
  unfold State.container
  rw [show (launching ws codeContainer).mem.host = putBytes [] 0x2000 codeContainer by rw [launching],
    show (fresh ws).record.cont = 0x2000 by rw [fresh], show (fresh ws).record.csize = 112 by rw [fresh], h]

theorem witness_SchedulerEvents_launch : ∀ ws ∈ [[], twice], ∀ last ∈ [some 15, none],
    (let j := fresh ws
     let s : State := { launching ws codeContainer with pkg.lastTenant := last }
     s.pkg.passDue.isSome = true ∧ s.pkg.jobs = [j] ∧ j.state = .waiting ∧ 0 = j.record.k ∧ s.pkg.rate j ≤ maxRate ∧
       domainFits j.record.k none = true ∧ s.granted j = true ∧ (vget s.pkg.status 0 0).getLsbD 0 = true ∧
       (vget s.pkg.status 0 0).getLsbD 2 = true ∧ j.image = none ∧ j.chain = none ∧ s.ctl.diecoord &&& ~~~0#13 = 0#13 ∧
       ({ s with pkg := { s.pkg with passDue := none, clearing := s.pkg.clearing && !s.cleared } } : State).place? none j =
         some (0, 0) ∧ s.pkg.lastTenant = last ∧ cellsWf s.mem.loc = true ∧ s.pkg.resident = none ∧
       codeOk (List.replicate 16 0) = true) := by
  intro ws h last h'
  simp only [List.mem_cons, List.not_mem_nil, or_false] at h h'
  rcases h with rfl | rfl <;> rcases h' with rfl | rfl <;> decide

/-- The window lines of the container: no section of kind 4, no data image. -/
theorem witness_SchedulerEvents_lines (ws : List WindowLine) :
    let l : LaunchRec := { dims := 0, domain := none, entry := none, regs := [], srseed := none, energy := 0, rev := 1, windows := ws }
    l.lines codeContainer [sectionAt codeContainer 0] 0 = ws ∧ kernelSections [sectionAt codeContainer 0] 6 0 = [] := by
  intro l
  have h := codeContainer_sections.2.1
  constructor
  · simp [LaunchRec.lines, kernelSections, h, l]
  · simp [kernelSections, h]

theorem witness_SchedulerEvents_table :
    (launching [] codeContainer).tableRefused { fresh [] with scmask := 0, scbase := 0 } 0 [] = none ∧
    ∃ i, (launching twice codeContainer).tableRefused { fresh twice with scmask := 0, scbase := 0 } 0 twice = some i :=
  ⟨by decide +kernel, 0, by decide +kernel⟩

theorem witness_SchedulerEvents_age :
    (let s := scheduled waiting (image 1 0 1 true)
     s.pkg.waiting.find? (fun x => decide (x.id = waiting.id)) = some waiting ∧ 0 < waiting.cls ∧
       waiting.agedAt + s.pkg.ageq ≤ s.now) ∧
    (let s : State := { resident job with now := 175000 }
     s.pkg.jobs.find? (fun x => decide (x.id = job.id)) = some job ∧ job.state = .running ∧ s.quantumOver job = true) ∧
    (let j := { job with state := .ended 0x03 }
     (resident j).pkg.jobs.find? (fun x => decide (x.id = j.id)) = some j ∧ j.chain = none) := by decide

theorem witness_ImageEvents :
    ((resident job).pkg.residentJob = some job ∧ job.state = .running ∧ (resident job).canScan = true ∧
      ({ job with state := .swapping } : Job).state = .swapping) ∧
    (let s : State := { resident job with stream.mode := .imageStop 3 0 }
     s.stream.mode = .imageStop 3 0 ∧ s.quiet = true ∧ s.eng.freeze = 0 ∧ s.capturing = false ∧ s.othersReport job (fun _ => false) = true) ∧
    (let s : State := { resident job with stream.mode := .imageStop 3 0, eng.freeze := 16 }
     s.stream.mode = .imageStop 3 0 ∧ s.eng.freeze ≠ 0) ∧
    (let j := { job with state := .draining 0 }
     let s : State := { resident j with now := 350000 }
     s.pkg.residentJob = some j ∧ j.state = .draining 0 ∧ 0 + 350000 ≤ s.now ∧ s.canScan = true ∧ s.stream.mode = .running) ∧
    (let s : State := { resident job with now := 1750000 }
     job.record.buddy ≠ 0 ∧ job.buddyAt + job.record.buddy * 1750000 ≤ s.now ∧ job.peers = []) ∧
    (let r : PeerReport :=
       { coord := 1, ended := false, endedByEnd := false, frozen := false, stopped := true, longWait := false, bpcnt := 0, points := [],
         hosted := [] }
     let j := { job with peers := [r], peerStop := some 0 }
     let s : State := { resident j with ctl.budtgt := 1, now := 350000 }
     s.ctl.budtgt ≠ 0 ∧ s.capturing = false ∧ j.peerStop = some 0 ∧ 0 + 350000 ≤ s.now ∧
       (let w := { job with record := { jobRec with k := 1 }, scmask := 1 }
        s.othersReport w PeerReport.still = false)) := by decide

theorem witness_ImageEvents_complete :
    (let s : State := { resident job with
       pkg.images := [image 3 0 1 false], ports := .replicate 13 { Port.clear with state := .parked } }
     s.portsParked = true ∧ s.stream.mode ≠ .fatal ∧ s.othersReport job PeerReport.still = true ∧
       s.pkg.residentJob = some job ∧ s.pkg.images = [image 3 0 1 false] ∧ (image 3 0 1 false).serial = 1 ∧
       (image 3 0 1 false).complete = false ∧ (image 3 0 1 false).jobid = s.ctl.jobid ∧ (image 3 0 1 false).kind = 3) ∧
    (image 1 0 1 false).kind = 1 ∧ (image 2 0 1 false).kind = 2 :=
  ⟨⟨by decide, by decide, by decide, rfl, rfl, rfl, rfl, rfl, rfl⟩, rfl, rfl⟩

/-- An image as the package with no secret seals it. -/
def sealed (i : Image) : Image := { i with bytes := Pkg.clear.sealImage i }

theorem imageOk_sealed (s : State) (j : Job) (i : Image) (hs : s.pkg.secret = none) (hc : i.complete = true ∧ i.slot = 5)
    (ht : i.tenant = j.tenant ∧ i.kind = 1) : s.imageOk j (sealed i) = true := by
  have hk : s.pkg.imageKey (sealed i) = Pkg.clear.imageKey i := by unfold Pkg.imageKey; rw [hs]; rfl
  have h : s.pkg.sealImage (sealed i) = (sealed i).bytes := by
    show ((sealed i).seal (s.pkg.imageKey (sealed i))).take _ = _
    rw [hk]; rfl
  have h5 : (sealed i).slot = 5 := hc.2
  have hi : (sealed i).complete = true ∧ (sealed i).tenant = j.tenant ∧ (sealed i).kind = 1 := ⟨hc.1, ht⟩
  unfold State.imageOk
  rw [h, h5]
  simp [hi]

theorem empty_table (t : State) (h : t.mem.wtab = Mem.clear.wtab) : t.tableFault = none := by
  have e : (Mem.clear.wtab.toList.zipIdx.filter fun x => wV x.1) = [] := by decide +kernel
  unfold State.tableFault
  rw [h, e]
  rfl

theorem witness_RecoveryEvents_table (t : State)
    (h : t.mem.wtab = (scheduled { waiting with state := .placed } (image 1 0 1 true)).resumeTable { waiting with state := .placed }) :
    t.tableFault = none := empty_table t h

theorem witness_RecoveryEvents :
    (let d := dump (image 4 2 1 false)
     let other := { dump (image 4 3 1 false) with serial := 2 }
     let s : State := { State.reset with pkg.dumps := [other, d] }
     (s.pkg.dumps.find? fun x => decide (x.serial = 1) && !x.img.complete) = some d ∧
       (s.pkg.dumps.find? fun x => decide (x.serial = 2) && !x.img.complete) = some other ∧ d.img.kind = 4 ∧ d.img.level = 2 ∧
       other.img.level = 3 ∧ State.reset.stream.mode ≠ .sdump) ∧
    (let j := { waiting with state := .placed }
     let i := sealed { image 1 0 1 true with jobid := 1, tenant := 15 }
     let s := scheduled j i
     s.pkg.jobs.find? (fun x => decide (x.id = j.id)) = some j ∧ s.inCube j = true ∧ s.returned = true ∧ s.frozen = false ∧
       s.pkg.resident = none ∧ s.foreign j = false ∧ s.imageOf j = some i ∧ s.imageOk j i = true) ∧
    ((inMode .fatal).stream.mode = .fatal ∧ ((inMode .fatal).pkg.dumps.any fun d => !d.img.complete) = false) ∧
    (let j := { job with state := .awaitDie 0 }
     let s : State := { resident j with now := 7000000000 }
     s.pkg.jobs.find? (fun x => decide (x.id = j.id)) = some j ∧ 0 + 7000000000 ≤ s.now ∧ s.isHere j = true ∧
       s.returned = false ∧ s.buddyPoint j = none ∧ j.chain = none) :=
  ⟨⟨rfl, rfl, rfl, rfl, rfl, by decide⟩, ⟨rfl, by decide, by decide, by decide, rfl, rfl, rfl, imageOk_sealed _ _ _ rfl ⟨rfl, rfl⟩ ⟨rfl, rfl⟩⟩, by decide, by decide⟩

/-- The dump of an SDUMP, with its ports parked and with one still UP. -/
theorem witness_RecoveryEvents_sdump :
    (let d := dump (image 5 0 1 false)
     let parked : State := { inMode .sdump with ports := .replicate 13 { Port.clear with state := .parked } }
     d.img.kind = 5 ∧ (∀ p < 13, (parked.port p).state = .parked) ∧ parked.stream.stopDue = false ∧ parked.stream.mode = .sdump ∧
       (let s : State := { parked with ports := vset parked.ports 12 { Port.clear with state := .up } }
        (∀ p < 13, (s.port p).state = .parked ∨ (s.port p).state = .up ∨ (s.port p).state = .stopped) ∧
          (s.port 12).state ≠ .parked)) ∧
    (let d := dump (image 5 0 1 false)
     let s : State := { inMode .sdump with pkg.dumps := [d] }
     (s.pkg.dumps.find? fun x => decide (x.serial = 1) && !x.img.complete) = some d) :=
  ⟨by decide, rfl⟩

/-- A window table whose entry 0 has reserved bits. -/
def badTable : Vector WEntry 2048 := vset (.replicate 2048 (0, 0)) 0 (0xFFFFFFFFFFFFFFFF#64, 0)

theorem bad_table (t : State) (h : t.mem.wtab = badTable) : t.tableFault = some 0 := by
  have e : (badTable.toList.zipIdx.filter fun x => wV x.1) = [((0xFFFFFFFFFFFFFFFF#64, 0), 0)] := by decide +kernel
  unfold State.tableFault
  rw [h, e]
  rfl

theorem witness_RecoveryEvents_refused :
    (let j := { waiting with state := .placed }
     let i := sealed { image 1 0 1 true with jobid := 1, tenant := 15 }
     let s : State := { scheduled j i with mem.wtab := badTable }
     s.pkg.jobs = [j] ∧ j.chain = none ∧ s.resumeTable j = badTable) ∧
    (let c := { copyCmd (.copy 0x100000000 0x10000000 1 8 0 0) true 0 with stalled := true, stallAt := 2047 }
     (copying [c]).copyQueue 0 = [c] ∧ c.stalled = true ∧ c.status = none) ∧
    (let j := { job with
       state := .awaitDie 0, arrival := { cycle := 1, queue := 0, ahead := 0, count := 2 }, record := { jobRec with buddy := 1 } }
     let b := { waiting with id := 2, passes := 8, cls := 0 }
     let s : State := { resident j with
       now := 7000000000, pkg := { (resident j).pkg with jobs := [j, b], images := [{ image 3 0 1 true with jobid := 1, hosted := true }] } }
     s.pkg.jobs.find? (fun x => decide (x.id = j.id)) = some j ∧ 0 + 7000000000 ≤ s.now ∧ s.isHere j = true ∧ s.returned = false ∧
       (s.buddyPoint j).isSome = true ∧ s.barred j = true) :=
  ⟨⟨rfl, rfl, rfl⟩, by decide, by decide⟩

theorem witness_ImageEvents_drained :
    (let s : State := { resident job with stream.mode := .imageStop 1 0 }
     s.stream.mode = .imageStop 1 0 ∧ s.quiet = true ∧ s.capturing = false ∧ job.state ≠ .swapping ∧
       s.othersReport job (fun r => r.ended || r.stopped) = true ∧ s.pkg.residentJob = some job) := by decide

theorem witness_ManagementEvents :
    (State.reset.cfgOk 15 owning.cfg = true ∧ (State.reset.pkg.jobs.any fun j => decide (j.tenant = 15)) = false ∧
      (State.reset.pkg.tenant 15).used = false ∧ ((submitted [] [] []).pkg.tenant 15).used = true) ∧
    dramRangeOk 0xB7FFFFFF0 16 = true ∧ (submitted [] [] []).pkg.verified = true ∧ State.reset.pkg.verified = false ∧
    (let r : HdmRange := { base := 0x1000, size := 0x1000, die := 0, off := 0 }
     let s : State := { State.reset with pkg.hdm := [r] }
     r.die = s.ctl.diecoord.toNat % 8 ∧ s.pkg.decoder 0x1FF8 8 = some r ∧ dramRangeOk (r.off + (0x1FF8 - r.base)) 8 = true) := by
  decide

theorem witness_VectorConversions_rounding :
    0 < 1 ∧ (let r := f32.round 1 300 .rne 0; f32.maxMag < r.1) ∧ (let r := e4m3.round 1 0 .rne 0; r.1 ≤ e4m3.maxMag) ∧
    (8 ∈ [8, 16, 32]) := by decide

/-! ### Formats, encodings and runs -/

theorem witness_Q4ReservedCodes : 0x3F % 64 = 63 ∧ (0x8 % 16 = 8 ∧ 0x7E % 64 ≠ 63 ∧ 0x7E / 64 % 4 ≠ 0) := by decide

theorem witness_EncodeDecodeRoundTrip : (Instr.madd 15 31 31 31 31).wf = true ∧
    encode (.madd 15 31 31 31 31) = some (31, 0x0F3FFFF8) ∧ decodeSlot (some 31) 0x0F3FFFF8 = .ok (.madd 15 31 31 31 31) ∧
    decodeTableWord 32 0x0204A638 = some (.add 2 5 6 7) := ⟨rfl, rfl, rfl, rfl⟩

theorem reset_memory : Memory.wf State.reset.mem := by decide

theorem reset_tiles : Tiles.wf State.reset.tiles := by decide

theorem witness_StepKeepsInvariant : State.reset.Inv ∧ ∃ t, step State.reset = .next t :=
  ⟨⟨reset_memory, reset_tiles, fun i h => (List.not_mem_nil (show i ∈ ([] : List Image) from h)).elim, by decide⟩, _, rfl⟩

/-! ## Small steps -/

/-- ADDI s1, s0, 5 issues and lands at the end of its cycle; the pc goes on by one bundle (R159, R160, R204). -/
theorem test_step_addi :
    (match step (State.reset.withFetchWord 32 0x10008005) with
      | .next t => decide (t.regs.rs 1 = 5) && decide (t.stream.pc = 0x18000010#64)
      | _ => false) = true := by decide +kernel

/-- Without a bundle in bounds the fetch is the illegal-bundle fault, and with no handler the die program ends (R186, R170). -/
theorem test_step_out_of_bounds :
    (match step (inMode .running) with
      | .next t => decide (t.stream.mode = .ended false)
      | _ => false) = true := by decide +kernel

/-- The worked divisions of R203: the remainder has the dividend's sign, and a zero divisor gives all ones. -/
theorem test_division :
    (exec (.rem 0 1 2 0) (sReg 2 7), exec (.div 0 1 2 0) (sReg 2 7)) =
    (.next ((sReg 2 7).inFlight 20 (.s 1 7) 0), .next ((sReg 2 7).inFlight 20 (.s 1 (BitVec.allOnes 64)) 0)) := by rfl

/-- R10 and R8: s0, g0, g1 and k0 discard what lands on them. -/
theorem test_hardwired :
    (Regs.clear.ws 0 9).rs 0 = 0 ∧ (Regs.clear.wg 0 false).rg 0 = true ∧ (Regs.clear.wg 1 true).rg 1 = false ∧
    (Regs.clear.wk 0 (BitVec.allOnes 1024) 0) = Regs.clear := ⟨rfl, rfl, rfl, rfl⟩

/-- R42: a store of a halfword at the top of the working store writes its two bytes only. -/
theorem test_store_frame :
    let t := State.reset.land 0 (.wstore 0x17FFFFFE [0x34, 0x12])
    cellGet t.mem.loc 0x17FFFFFE = 0x34 ∧ cellGet t.mem.loc 0x17FFFFFF = 0x12 ∧ cellGet t.mem.loc 0x17FFFFFD = 0 ∧
    cellGet t.mem.loc 0x18000000 = 0 := by decide

/-- R47: a store of zeros lists nothing. -/
theorem test_canonical_zero : (State.reset.land 0 (.wstore 0x10000000 [0, 0])).mem.loc = [] := by decide

end Sys2Proof.Tests
end

section
/-! Reserved codes of q4 blocks (R65). The decoder's two clauses are equations per case. The encoder's clause rests on one
fact: what it answers for types 1 to 3 is a sign bit over a magnitude index of at most 7, and a zero index has no sign bit.
-/

namespace Sys2Proof.Machine

/-! ## Decoding -/

theorem decodeQ4_of_exp_63 {code scale : Nat} (h : scale % 64 = 63) : decodeQ4 code scale = .nan := by
  simp [decodeQ4, h]

/-- Every table of R64 begins at zero. -/
@[simp] theorem q4Mag_zero (type : Nat) : q4Mag type 0 = 0 := by
  unfold q4Mag
  split <;> rfl

theorem decodeQ4_code_8 {code scale : Nat} (hcode : code % 16 = 8) (hexp : scale % 64 ≠ 63) (htype : scale / 64 % 4 ≠ 0) :
    decodeQ4 code scale = .zero true := by
  have hmag : code % 8 = 0 := by omega
  simp [decodeQ4, hcode, hexp, htype, hmag]

/-! ## Encoding -/

/-- The code of types 1 to 3 for a magnitude index: the index below a sign bit, and 0 for zero of either sign (R71). -/
def q4SignedCode (neg : Bool) (i : Nat) : Nat := if i = 0 then 0 else if neg then 8 + i else i

theorem q4SignedCode_lt_16 {neg : Bool} {i : Nat} (hi : i ≤ 7) : q4SignedCode neg i < 16 := by
  unfold q4SignedCode
  split_ifs <;> omega

/-- A sign bit alone, −0, is never given. -/
theorem q4SignedCode_ne_8 {neg : Bool} {i : Nat} (hi : i ≤ 7) : q4SignedCode neg i ≠ 8 := by
  unfold q4SignedCode
  split_ifs <;> omega

/-- The index of the lower neighbour of `num / den` as the encoder finds it: how many of the magnitudes 1 to `top` are at
most the quotient. -/
def q4Lower (type top num den : Nat) : Nat :=
  ((List.range top).filter fun j => decide (q4Mag type (j + 1) * den ≤ num)).length

theorem q4Lower_le (type top num den : Nat) : q4Lower type top num den ≤ top := by
  simpa [q4Lower] using (List.range top).length_filter_le fun j => decide (q4Mag type (j + 1) * den ≤ num)

/-- The lower neighbour is the largest magnitude only of a quotient that is not below it. -/
theorem le_of_q4Lower_eq {type n num den : Nat} (h : q4Lower type (n + 1) num den = n + 1) :
    q4Mag type (n + 1) * den ≤ num := by
  have hall := List.length_filter_eq_length_iff.mp (h.trans List.length_range.symm)
  simpa using hall n (List.mem_range.mpr n.lt_succ_self)

/-- A quotient that is not clamped and lies between two neighbours has a next index within the table, so that rounding up
stays within it. -/
theorem q4Lower_lt_7 {type num den : Nat} (hclamp : ¬ q4Mag type 7 * den < num)
    (hexact : q4Mag type (q4Lower type 7 num den) * den ≠ num) : q4Lower type 7 num den < 7 := by
  refine (q4Lower_le type 7 num den).lt_of_ne fun htop => hexact ?_
  rw [htop]
  exact (le_of_q4Lower_eq htop).antisymm (not_lt.mp hclamp)

/-- Rounding to either neighbour stays within a bound that the lower one has not reached. -/
theorem rounded_le {up : Bool} {i n : Nat} (h : i < n) : (if up then i + 1 else i) ≤ n := by
  cases up
  · exact h.le
  · exact h

/-- The three outcomes for a finite value: clamped to index 7, exact, or rounded to a neighbour (R71). -/
theorem encodeQ4_fin_code {type : Nat} (htype : type ≠ 0) (neg : Bool) (m : Nat) (ex : Int) (e : Nat) (mode : Rnd) (u : Nat) :
    ∃ i ≤ 7, (encodeQ4 (.fin neg m ex) type e mode u).1 = q4SignedCode neg i := by
  have htop : q4Top type neg = 7 := by simp [q4Top, htype]
  simp only [encodeQ4, htop, htype, if_false, ← q4SignedCode.eq_def]
  split
  · exact ⟨7, le_rfl, rfl⟩
  next hclamp =>
    split
    · exact ⟨_, q4Lower_le type 7 _ _, rfl⟩
    next hexact => exact ⟨_, rounded_le (q4Lower_lt_7 hclamp hexact), rfl⟩

theorem encodeQ4_code {type : Nat} (htype : type ≠ 0) (v : FVal) (e : Nat) (mode : Rnd) (u : Nat) :
    ∃ neg, ∃ i ≤ 7, (encodeQ4 v type e mode u).1 = q4SignedCode neg i := by
  cases v with
  | nan => exact ⟨false, 0, by decide, rfl⟩
  | zero neg => exact ⟨neg, 0, by decide, rfl⟩
  | inf neg => exact ⟨neg, 7, le_rfl, by simp [encodeQ4, q4Top, q4SignedCode, htype]⟩
  | fin neg m ex => exact ⟨neg, encodeQ4_fin_code htype neg m ex e mode u⟩

/-- Settles O54: R65's NaN blocks and its zero code by the decoder's cases, and the encoder's codes by `encodeQ4_code`. -/
theorem q4ReservedCodes : Obligations.Q4ReservedCodes := by
  unfold Obligations.Q4ReservedCodes
  refine ⟨fun _ _ => decodeQ4_of_exp_63, fun _ _ hcode hexp htype => ⟨true, decodeQ4_code_8 hcode hexp htype⟩, ?_⟩
  intro v type e mode u hlow _
  obtain ⟨neg, i, hi, hcode⟩ := encodeQ4_code (Nat.one_le_iff_ne_zero.mp hlow) v e mode u
  rw [hcode]
  exact ⟨q4SignedCode_lt_16 hi, q4SignedCode_ne_8 hi⟩

end Sys2Proof.Machine
end

section
/-! Exchange commands and the dimensions of the job (R156, R157). What `extract` packs is read bit by bit: bit i of RANK is
the bit of DIECOORD at the i-th set bit of SCMASK, so a flip at that place flips bit i alone. A mask with a bit at or above k
is at least 2^k, which the limit check refuses before anything else. -/

namespace Sys2Proof.Machine

/-! ## The sub-cube (R156) -/

/-- The sum that `extract` forms over the positions of its mask. -/
def packAt {w : Nat} (x : BitVec w) (ps : List Nat) : Nat :=
  (ps.zipIdx.map fun (p, i) => if x.getLsbD p then 2 ^ i else 0).sum

theorem extract_eq_packAt {w : Nat} (m x : BitVec w) : extract m x = packAt x (setBits m) := rfl

theorem packAt_cons {w : Nat} (x : BitVec w) (p : Nat) (ps : List Nat) :
    packAt x (p :: ps) = Nat.bit (x.getLsbD p) (packAt x ps) := by
  have hshift : ∀ y ∈ ps.zipIdx, (if x.getLsbD y.1 then 2 ^ (y.2 + 1) else 0) = 2 * if x.getLsbD y.1 then 2 ^ y.2 else 0 := by
    intro y _
    split <;> omega
  simp only [packAt, List.zipIdx_cons, List.zipIdx_succ, List.map_cons, List.map_map, List.sum_cons, Function.comp_def,
    List.map_congr_left hshift, List.sum_map_mul_left, Nat.bit_val]
  cases x.getLsbD p <;> simp [Nat.add_comm]

theorem testBit_packAt {w : Nat} (x : BitVec w) (ps : List Nat) (i : Nat) :
    (packAt x ps).testBit i = ps[i]?.any x.getLsbD := by
  induction ps generalizing i with
  | nil => simp [packAt]
  | cons p ps ih =>
    rw [packAt_cons]
    cases i with
    | zero => simp
    | succ i => simp [Nat.testBit_bit_succ, ih]

theorem testBit_extract {w : Nat} (m x : BitVec w) (i : Nat) :
    (extract m x).testBit i = (setBits m)[i]?.any x.getLsbD := by
  rw [extract_eq_packAt, testBit_packAt]

theorem setBits_nodup {w : Nat} (m : BitVec w) : (setBits m).Nodup := List.nodup_range.filter _

theorem mem_setBits {w p : Nat} {m : BitVec w} : p ∈ setBits m ↔ p < w ∧ m.getLsbD p = true := by
  simp [setBits]

theorem setBits_length_le {w : Nat} (m : BitVec w) : (setBits m).length ≤ w := by
  simpa [setBits] using (List.range w).length_filter_le fun i => m.getLsbD i

theorem extract_lt {w : Nat} (m x : BitVec w) : extract m x < 2 ^ w := by
  refine Nat.lt_pow_two_of_testBit _ fun i hi => ?_
  simp [testBit_extract, List.getElem?_eq_none ((setBits_length_le m).trans hi)]

/-- A flip at the j-th set bit of the mask flips bit j of what is packed. -/
theorem extract_xor_setBit {w j p : Nat} {m : BitVec w} (x : BitVec w) (hp : (setBits m)[j]? = some p) :
    extract m (x ^^^ BitVec.ofNat w (2 ^ p)) = extract m x ^^^ 2 ^ j := by
  refine Nat.eq_of_testBit_eq fun i => ?_
  obtain ⟨hj, rfl⟩ := List.getElem?_eq_some_iff.mp hp
  rw [Nat.testBit_xor, testBit_extract, testBit_extract, Nat.testBit_two_pow]
  by_cases hi : i < (setBits m).length
  · have hlt : (setBits m)[i] < w := (mem_setBits.mp (List.getElem_mem hi)).1
    have hij : (setBits m)[j] = (setBits m)[i] ↔ j = i := (setBits_nodup m).getElem_inj_iff
    have hflip : (BitVec.ofNat w (2 ^ (setBits m)[j])).getLsbD (setBits m)[i] = decide (j = i) := by
      rw [BitVec.getLsbD_ofNat, Nat.testBit_two_pow, decide_eq_true hlt, Bool.true_and, decide_eq_decide.mpr hij]
    simp only [List.getElem?_eq_getElem hi, Option.any_some, BitVec.getLsbD_xor, hflip]
  · have hne : j ≠ i := by omega
    simp [hi, hne]

/-- The j-th of the numbers below w that have a property has j such numbers below it. -/
theorem countP_range_of_filter_getElem? {p : Nat → Bool} {w j a : Nat} (h : ((List.range w).filter p)[j]? = some a) :
    (List.range a).countP p = j := by
  induction w with
  | zero => simp at h
  | succ w ih =>
    rw [List.range_succ, List.filter_append, List.getElem?_append] at h
    split at h
    · exact ih h
    next hj =>
      obtain ⟨hlen, rfl⟩ : j - ((List.range w).filter p).length = 0 ∧ w = a := by
        cases hw : p w with
        | false => simp [hw] at h
        | true => simpa [hw, List.getElem?_singleton] using h
      rw [List.countP_eq_length_filter]
      omega

/-! ## Partners (R157) -/

theorem Ctl.setBits_phys {c : Ctl} {j : Nat} (h : j < c.dims) : (setBits c.scmask)[j]? = some (c.phys j) := by
  have hj : j < (setBits c.scmask).length := h
  simp [Ctl.phys, hj]

theorem Ctl.scmask_phys {c : Ctl} {j : Nat} (h : j < c.dims) : c.scmask.getLsbD (c.phys j) = true :=
  (mem_setBits.mp (List.mem_of_getElem? (Ctl.setBits_phys h))).2

theorem Ctl.countP_below_phys {c : Ctl} {j : Nat} (h : j < c.dims) :
    (List.range (c.phys j)).countP (fun i => c.scmask.getLsbD i) = j :=
  countP_range_of_filter_getElem? (Ctl.setBits_phys h)

theorem Ctl.rank_toNat (c : Ctl) : c.rank.toNat = extract c.scmask c.diecoord := by
  rw [Ctl.rank, BitVec.toNat_ofNat, Nat.mod_eq_of_lt (extract_lt _ _)]

theorem Ctl.extract_partner {c : Ctl} {j : Nat} (h : j < c.dims) :
    extract c.scmask (c.partner j) = c.rank.toNat ^^^ 2 ^ j := by
  rw [Ctl.partner, extract_xor_setBit _ (Ctl.setBits_phys h), Ctl.rank_toNat]

/-! ## What is refused (R157, R185) -/

theorem State.dimCause_of_dims_le {s : State} {j : Nat} (h : s.ctl.dims ≤ j) : s.dimCause j = some 0xA := if_pos h

/-- sendif names its dimension, and one more where it asks a bit of RANK (R271). -/
theorem execSendif_dim_outside {s : State} {g u e m : BitVec 4} {q : BitVec 2} {r : BitVec 1}
    (h : s.ctl.dims ≤ u.toNat ∨ s.ctl.dims ≤ m.toNat ∧ r = 0) :
    exec (.sendif g u e q r m) s = .next (s.takeIllegal 0xA s.stream.ask.slot false) := by
  show execSendif g u e q r m s = _
  by_cases hu : s.ctl.dims ≤ u.toNat
  · simp only [execSendif, State.dimCause_of_dims_le hu, State.encSlot_some]
  · obtain ⟨hm, rfl⟩ := h.resolve_left hu
    have hnone : s.dimCause u.toNat = none := if_neg hu
    simp only [execSendif, hnone, State.dimCause_of_dims_le hm, if_true, State.encSlot_some]

theorem State.maskOk_eq_false {s : State} {e : BitVec 4} {i j : Nat} (hj : j < 13) (hk : s.ctl.dims ≤ j)
    (hbit : (s.regs.re (e.toNat + i)).getLsbD j = true) : s.maskOk (BitVec.ofNat 13 (s.stage e i)) = false := by
  have hm : (BitVec.ofNat 13 (s.stage e i)).toNat.testBit j = true := by
    rw [State.stage, BitVec.toNat_ofNat, Nat.testBit_mod_two_pow, decide_eq_true hj, Bool.true_and]
    exact hbit
  have hpow : 2 ^ s.ctl.dims ≤ (BitVec.ofNat 13 (s.stage e i)).toNat :=
    (Nat.pow_le_pow_right two_pos hk).trans (Nat.ge_two_pow_of_testBit hm)
  simp only [State.maskOk, Nat.not_lt.mpr hpow, decide_false, Bool.and_false]

/-- The outcome of a command whose first limit fails, under a guard of 1 and with room in its queue. -/
theorem State.commandSlot_limit_fails {s : State} {g : BitVec 4} {full : Bool} {fs : List (Option SFault)} {f : State → State}
    (hg : s.regs.rg g = true) (hfull : full = false) :
    s.stallSlot full (s.slot g (firstFault (limitFault false :: fs)) f) =
      .next (s.takeIllegal 0xA s.stream.ask.slot false) := by
  subst hfull
  exact State.slot_fault (f := f) hg

theorem State.maskSlot_mask_outside {s : State} {g e : BitVec 4} {cmb : Nat → Nat → Nat → Option Combine}
    (hg : s.regs.rg g = true) (hroom : ∀ p, s.xFull p = false) (hm : s.maskOk (BitVec.ofNat 13 (s.stage e 0)) = false) :
    s.maskSlot g e cmb = .next (s.takeIllegal 0xA s.stream.ask.slot false) := by
  simp only [State.maskSlot, hm, Bool.false_and]
  exact State.commandSlot_limit_fails hg (by simp [hroom])

@[simp] theorem State.lanternC_trapvec (s : State) (k i : Nat) (w : W64) :
    (s.lanternC k i w).ctl.trapvec = s.ctl.trapvec := rfl
@[simp] theorem State.lanternC_inHandler (s : State) (k i : Nat) (w : W64) :
    (s.lanternC k i w).ctl.inHandler = s.ctl.inHandler := rfl

/-- An illegal slot or bundle goes to the handler, where there is one: no engine and no timeline changes (R185, R320). -/
theorem State.takeIllegal_delivered {s : State} {cause slot : Nat} {bundle : Bool} (hvec : s.ctl.trapvec ≠ 0)
    (hout : s.ctl.inHandler = false) :
    let t := s.takeIllegal cause slot bundle
    t.lines = s.lines ∧ t.eng = s.eng ∧ t.stream.pc = s.ctl.trapvec ∧ t.ctl.tpc = s.stream.pc ∧
      t.ctl.ilinfo = BitVec.ofNat 32 (cause + slot * 16 + (if bundle then 64 else 0)) := by
  simp only [State.takeIllegal, State.takeTrap, State.lanternC_trapvec, State.lanternC_inHandler, ne_eq, hvec, hout,
    not_false_eq_true, and_self, if_true]
  exact ⟨rfl, rfl, rfl, rfl, rfl⟩

/-- Settles O27: dimensions and masks outside the job by the refusals above, those within it by what `extract` packs. -/
theorem dimensionOutsideTheJob : Obligations.DimensionOutsideTheJob := by
  unfold Obligations.DimensionOutsideTheJob
  intro s g u e c m q o n d r f j hj
  refine ⟨fun hu => ?_, fun hm => ?_, fun hk hg hroom => ⟨fun h3 => ?_, fun h0 => ?_⟩, fun hvec hout => ?_, fun hjk => ?_⟩
  · have hcause := State.dimCause_of_dims_le hu
    refine ⟨?_, ?_, ?_, ?_⟩
    · show execXchg g u e q s = _
      rw [execXchg, hcause, State.encSlot_some]
    · show execXcmb g u e q f o n s = _
      rw [execXcmb, hcause, State.encSlot_some]
    · exact execSendif_dim_outside (.inl hu)
    · show execXarm g u e q c s = _
      rw [execXarm, hcause, State.encSlot_some]
  · exact execSendif_dim_outside (.inr ⟨hm, rfl⟩)
  · show execShiftg g e q d s = _
    rw [execShiftg, State.maskOk_eq_false hj hk h3]
    exact State.commandSlot_limit_fails hg (hroom _)
  · have hmask := State.maskOk_eq_false hj hk h0
    refine ⟨?_, ?_, ?_⟩
    · show execXbar g e q s = _
      rw [execXbar, hmask]
      exact State.commandSlot_limit_fails (fs := []) hg (hroom _)
    · show execXchgm g e s = _
      exact State.maskSlot_mask_outside hg hroom hmask
    · show execXcmbm g e f o s = _
      exact State.maskSlot_mask_outside hg hroom hmask
  · obtain ⟨hlines, heng, hpc, htpc, hinfo⟩ :=
      State.takeIllegal_delivered (cause := 0xA) (slot := s.stream.ask.slot) (bundle := false) hvec hout
    refine ⟨hlines, heng, hpc, htpc, ?_⟩
    rw [hinfo, BitVec.toNat_ofNat, if_neg Bool.false_ne_true]
    omega
  · exact ⟨Ctl.extract_partner hjk, rfl, Ctl.scmask_phys hjk, Ctl.countP_below_phys hjk⟩

end Sys2Proof.Machine
end

section
/-! The dot products of revision 2 (R226). Their encoding check decides between the illegal slot and a three-operand vector
slot, whose result is read once for every lane operation; the lane operation itself is `dot`. -/

namespace Sys2Proof.Machine

/-! ## Vector results (R223) -/

theorem lane_eq_getElem (v : Vector W32 1024) (j : Fin 1024) : lane v j = v[j] := by
  simp [lane, vget]

/-- A bit of flags gathered over a list is set by one of the chosen members, or from the start. -/
theorem getLsbD_foldl_or {n b : Nat} (p : Nat → Bool) (f : Nat → BitVec n) (l : List Nat) (init : BitVec n) :
    (l.foldl (fun fl j => if p j then fl ||| f j else fl) init).getLsbD b = true ↔
      init.getLsbD b = true ∨ ∃ j ∈ l, p j = true ∧ (f j).getLsbD b = true := by
  induction l generalizing init with
  | nil => simp
  | cons j l ih =>
    rw [List.foldl_cons, ih]
    cases hp : p j <;> simp [hp, or_assoc]

/-- A slot that only puts a vector result in flight, on the state before it. -/
theorem State.slot_vput_vectorResult (s : State) (g : BitVec 4) (lat : Nat) (d : BitVec 5) (k : BitVec 3)
    (f : State → Nat → W32 × BitVec 6) :
    VectorResult s s g lat d k (fun j => f s j) (s.slot g none fun t => t.vput lat d (t.regs.rk k) (f t)) := by
  refine ⟨_, State.slot_none, fun b _ => (getLsbD_foldl_or (s.regs.rk k).getLsbD _ _ _).trans ?_⟩
  simp only [BitVec.ofNat_eq_ofNat, BitVec.getLsbD_zero, Bool.false_eq_true, false_or, List.mem_range, Fin.exists_iff,
    exists_prop]

theorem State.slotV3_vectorResult (s : State) (g : BitVec 4) (lat : Nat) (d a b c : BitVec 5) (k : BitVec 3)
    (f : W32 → W32 → W32 → W32 × BitVec 6) :
    VectorResult s s g lat d k (fun j => f (s.regs.rv a)[j] (s.regs.rv b)[j] (s.regs.rv c)[j])
      (s.slotV3 g lat d a b c k f) := by
  simpa only [lane_eq_getElem, State.slotV3] using s.slot_vput_vectorResult g lat d k fun t j =>
    f (lane (t.regs.rv a) j) (lane (t.regs.rv b) j) (lane (t.regs.rv c) j)

/-! ## The lane operation (R56, R226) -/

theorem elemOf_lt (w : Nat) (x : W32) (i : Nat) : elemOf w x i < 2 ^ w := Nat.mod_lt _ (Nat.two_pow_pos w)

theorem toSigned_of_lt {w n : Nat} (h : n < 2 ^ w) :
    toSigned w n = if 2 ^ (w - 1) ≤ n then (n : Int) - 2 ^ w else n := by
  rw [toSigned, Nat.mod_eq_of_lt h]
  split_ifs <;> omega

/-- An element of a lane as an integer, in two's complement where it is signed. -/
def intElem (w : Nat) (signed : Bool) (x : W32) (i : Nat) : Int :=
  if signed = true ∧ 2 ^ (w - 1) ≤ elemOf w x i then (elemOf w x i : Int) - 2 ^ w else elemOf w x i

/-- The dot product sums the products of the elements over the third lane, and sets no flag. -/
theorem dot_eq (w : Nat) (signed : Bool) (x y z : W32) :
    dot w signed x y z = (BitVec.ofInt 32 ((z.toNat : Int) +
      ((List.range (32 / w)).map fun i => intElem w signed x i * intElem w signed y i).sum), 0) := by
  cases signed <;> simp [dot, intElem, toSigned_of_lt (elemOf_lt w _ _)]

theorem State.slotV3_dot_vectorResult (s : State) (g : BitVec 4) (d a b c : BitVec 5) (k : BitVec 3) (w : Nat)
    (signed : Bool) :
    VectorResult s s g 2 d k
      (fun j => (BitVec.ofInt 32 (((s.regs.rv c)[j].toNat : Int) + ((List.range (32 / w)).map fun i =>
        intElem w signed (s.regs.rv a)[j] i * intElem w signed (s.regs.rv b)[j] i).sum), 0))
      (s.slotV3 g 2 d a b c k (dot w signed)) := by
  simpa only [dot_eq] using s.slotV3_vectorResult g 2 d a b c k (dot w signed)

/-! ## Revision 2 (R226) -/

theorem State.rev2_eq_none {s : State} (h : s.ctl.encrev.toNat % 16 = 2 ∧ s.ctl.rev = 2) : s.rev2 = none := if_pos h.symm

theorem State.rev2_eq_some {s : State} (h : ¬ (s.ctl.encrev.toNat % 16 = 2 ∧ s.ctl.rev = 2)) : s.rev2 = some 0x8 :=
  if_neg fun h2 => h h2.symm

/-- ILINFO of a slot that the handler is told of is its cause under its position (R187). -/
theorem State.takeIllegal_slot_ilinfo_toNat {s : State} {cause slot : Nat} (hcause : cause < 16) (hslot : slot < 4)
    (hvec : s.ctl.trapvec ≠ 0) (hout : s.ctl.inHandler = false) :
    (s.takeIllegal cause slot false).ctl.ilinfo.toNat = cause + 16 * slot := by
  obtain ⟨_, _, _, _, hinfo⟩ := State.takeIllegal_delivered (cause := cause) (slot := slot) (bundle := false) hvec hout
  rw [hinfo, BitVec.toNat_ofNat, if_neg Bool.false_ne_true]
  omega

/-- Settles O15: the encoding check gives either the lanes of `dot_eq` or the illegal slot, for each of the four forms. -/
theorem revisionTwoDotProducts : Obligations.RevisionTwoDotProducts := by
  unfold Obligations.RevisionTwoDotProducts
  intro s g d a b c k hslot b0 el int form
  have hform (w : Nat) (signed : Bool) : form w signed (s.encSlot s.rev2 (s.slotV3 g 2 d a b c k (dot w signed))) := by
    refine ⟨fun h => ?_, fun h => ?_⟩
    · rw [State.rev2_eq_none h, State.encSlot_none]
      exact ⟨_, s.slotV3_dot_vectorResult g d a b c k w signed, fun j => rfl⟩
    · rw [State.rev2_eq_some h, State.encSlot_some]
      refine ⟨rfl, fun hvec hout => ?_⟩
      obtain ⟨_, _, hpc, _, _⟩ :=
        State.takeIllegal_delivered (cause := 0x8) (slot := s.stream.ask.slot) (bundle := false) hvec hout
      exact ⟨State.takeIllegal_faulted, hpc, State.takeIllegal_slot_ilinfo_toNat (by decide) hslot hvec hout⟩
  exact ⟨hform 8 true, hform 8 false, hform 16 true, hform 16 false⟩

end Sys2Proof.Machine
end

section
/-! Every step keeps the invariant and answers (R35, R36, R47, R314). `exec` keeps it by the laws of the instructions; a step is
one `exec`, on the state before it with a free value used up or an input taken. -/

namespace Sys2Proof.Machine

theorem State.take_safe {s : State} {u : Turn} (hs : s.Inv) : Safe (s.take u) := by
  have hexec : Safe (exec u.event (s.onTurn u)) := exec_safe (State.onTurn_inv hs)
  unfold State.take
  split
  next ht =>
    split
    · exact exec_safe hs
    · exact State.noted_inv (hexec.of_next ht)
  next hf => exact (hexec.of_fault hf).elim
  next hr => exact (hexec.of_refused hr).elim

theorem step_safe {s : State} (hs : s.Inv) : Safe (step s) := by
  unfold step
  split
  · exact exec_safe hs
  · split
    · exact exec_safe hs
    · split
      · exact State.take_safe (State.drew_inv hs)
      · exact exec_safe (State.drew_inv hs)

/-- Settles O58: whoever moves, the step is an `exec` that keeps the invariant. -/
theorem stepKeepsInvariant : Obligations.StepKeepsInvariant := by
  unfold Obligations.StepKeepsInvariant
  intro s t hs hstep
  exact (step_safe hs).of_next hstep

/-- Settles O59: after reset nothing is listed, and no image is held. -/
theorem resetInvariant : Obligations.ResetInvariant := by
  unfold Obligations.ResetInvariant
  refine ⟨⟨reset_memory_wf, reset_tiles_wf, ?_, ?_⟩, fun a => ⟨rfl, rfl⟩⟩
  · intro i hi
    cases hi
  · show (0 : Nat) < 1024
    decide

end Sys2Proof.Machine
end

section
/-! The scalar forms (R203 to R208). A form without a fault puts its results in flight under its guard; what is left is that
the values are those of the table. -/

namespace Sys2Proof.Machine

/-- A scalar form puts its value in flight for s D. -/
theorem State.slotS_eq {s : State} {g : BitVec 4} {lat : Nat} {d : BitVec 5} {x : W64} :
    s.slotS g lat d x = .next (s.guarded g (s.inFlight lat (.s d x) 0)) := State.slot_none

theorem State.slotCmp_eq {s : State} {g h : BitVec 4} {c : Bool} :
    s.slotCmp g h c = .next (s.guarded g ((s.inFlight 1 (.g h c) 0).inFlight 1 (.g (h + 1) !c) 0)) := State.slot_none

/-! ## Values (R203, R204) -/

theorem ite_slt_eq_min (x y : W64) : (if x.slt y then x else y) = BitVec.ofInt 64 (min x.toInt y.toInt) := by
  rw [min_def, BitVec.slt, apply_ite (BitVec.ofInt 64), BitVec.ofInt_toInt, BitVec.ofInt_toInt]
  split_ifs with h1 h2 h2
  · rfl
  · simp at h1; omega
  · simp at h1; exact BitVec.eq_of_toInt_eq (by omega)
  · rfl

end Sys2Proof.Machine
end

section
/-! The scalar forms (R203 to R208). A form without a fault puts its results in flight under its guard; what is left is that
the values are those of the table. -/

namespace Sys2Proof.Machine

/-- A scalar form puts its value in flight for s D. -/
theorem State.slotS_gives {s : State} {g : BitVec 4} {lat : Nat} {d : BitVec 5} {x y : W64} (h : x = y := by rfl) :
    s.slotS g lat d x = .next (s.guarded g (s.inFlight lat (.s d y) 0)) := h ▸ State.slot_none

/-! ## Values (R203, R204) -/

theorem ite_slt_eq_ofInt_min (x y : W64) : (if x.slt y then x else y) = BitVec.ofInt 64 (min x.toInt y.toInt) := by
  rw [min_def_lt, apply_ite (BitVec.ofInt 64), BitVec.ofInt_toInt, BitVec.ofInt_toInt]
  simp only [BitVec.slt, decide_eq_true_eq]

theorem ite_slt_eq_ofInt_max (x y : W64) : (if y.slt x then x else y) = BitVec.ofInt 64 (max x.toInt y.toInt) := by
  rw [max_comm, max_def_lt, apply_ite (BitVec.ofInt 64), BitVec.ofInt_toInt, BitVec.ofInt_toInt]
  simp only [BitVec.slt, decide_eq_true_eq]

theorem ite_ult_eq_ofNat_min (x y : W64) : (if x.ult y then x else y) = BitVec.ofNat 64 (min x.toNat y.toNat) := by
  rw [min_def_lt, apply_ite (BitVec.ofNat 64), BitVec.ofNat_toNat, BitVec.ofNat_toNat]
  simp only [BitVec.ult, decide_eq_true_eq, BitVec.setWidth_eq]

theorem ite_ult_eq_ofNat_max (x y : W64) : (if y.ult x then x else y) = BitVec.ofNat 64 (max x.toNat y.toNat) := by
  rw [max_comm, max_def_lt, apply_ite (BitVec.ofNat 64), BitVec.ofNat_toNat, BitVec.ofNat_toNat]
  simp only [BitVec.ult, decide_eq_true_eq, BitVec.setWidth_eq]

theorem zeroExtend_truncate_eq_ofNat (x : W64) (w : Nat) :
    (x.truncate w).zeroExtend 64 = BitVec.ofNat 64 (x.toNat % 2 ^ w) := by
  refine BitVec.eq_of_toNat_eq ?_
  simp

/-- Settles O1: each form is a scalar slot, and its value is the table's. -/
theorem scalarArithmetic : Obligations.ScalarArithmetic := by
  unfold Obligations.ScalarArithmetic
  refine ⟨fun s g d a b c => ?_, fun s g d a i => ?_⟩
  · exact ⟨State.slotS_gives, State.slotS_gives, State.slotS_gives, State.slotS_gives, State.slotS_gives, State.slotS_gives,
      State.slotS_gives, State.slotS_gives, State.slotS_gives, State.slotS_gives,
      State.slotS_gives (ite_slt_eq_ofInt_min _ _), State.slotS_gives (ite_slt_eq_ofInt_max _ _),
      State.slotS_gives (ite_ult_eq_ofNat_min _ _), State.slotS_gives (ite_ult_eq_ofNat_max _ _),
      State.slotS_gives, State.slotS_gives, State.slotS_gives, State.slotS_gives, State.slotS_gives, State.slotS_gives,
      State.slotS_gives, State.slotS_gives (zeroExtend_truncate_eq_ofNat _ _),
      State.slotS_gives (zeroExtend_truncate_eq_ofNat _ _),
      State.slotS_gives (zeroExtend_truncate_eq_ofNat _ _)⟩
  · exact ⟨State.slotS_gives, State.slotS_gives, State.slotS_gives, State.slotS_gives, State.slotS_gives, State.slotS_gives,
      State.slotS_gives, State.slotS_gives (congrArg _ (BitVec.ofNat_toNat ..).symm)⟩

/-! ## Division and counts (R203) -/

theorem divRem_zero (x : W64) (unsigned : Bool) : divRem x 0 unsigned = (BitVec.allOnes 64, x) := rfl

theorem divRem_signed {x y : W64} (h : y ≠ 0) :
    divRem x y false = (BitVec.ofInt 64 (x.toInt.tdiv y.toInt), BitVec.ofInt 64 (x.toInt.tmod y.toInt)) := by
  simp only [divRem, if_neg h, Bool.false_eq_true, if_false]

theorem divRem_unsigned {x y : W64} (h : y ≠ 0) :
    divRem x y true = (BitVec.ofNat 64 (x.toNat / y.toNat), BitVec.ofNat 64 (x.toNat % y.toNat)) := by
  simp only [divRem, if_neg h, if_true]

/-- The first place below `n` that has a property, or `n`: no place before it has it, and it has it where it is below `n`. -/
theorem find?_range_getD (p : Nat → Bool) (n : Nat) :
    ((List.range n).find? p).getD n ≤ n ∧ (∀ i < ((List.range n).find? p).getD n, p i = false) ∧
      (((List.range n).find? p).getD n < n → p (((List.range n).find? p).getD n) = true) := by
  cases h : (List.range n).find? p with
  | none => simpa using h
  | some k =>
    obtain ⟨hp, hlt, hbefore⟩ := List.find?_range_eq_some.mp h
    have hlt := List.mem_range.mp hlt
    exact ⟨hlt.le, fun i hi => by simpa using hbefore i hi, fun _ => hp⟩

/-- Settles O2: the cases of `divRem`, and the first set bit from either end. -/
theorem scalarDivisionAndCounts : Obligations.ScalarDivisionAndCounts := by
  unfold Obligations.ScalarDivisionAndCounts
  refine ⟨fun s g d a b => ⟨fun h => ?_, fun h => ?_⟩, fun s g d a => ⟨?_, ?_, ?_⟩⟩
  · have hs := divRem_signed (x := s.regs.rs a) h
    have hu := divRem_unsigned (x := s.regs.rs a) h
    exact ⟨State.slotS_gives (by rw [hs]), State.slotS_gives (by rw [hs]), State.slotS_gives (by rw [hu]),
      State.slotS_gives (by rw [hu])⟩
  · have hz := divRem_zero (s.regs.rs a)
    exact ⟨State.slotS_gives (by rw [h, hz]), State.slotS_gives (by rw [h, hz]), State.slotS_gives (by rw [h, hz]),
      State.slotS_gives (by rw [h, hz])⟩
  · exact State.slotS_gives (by rw [popCount, List.countP_eq_length_filter])
  · obtain ⟨hle, hbefore, hat⟩ := find?_range_getD (fun i => (s.regs.rs a).getLsbD (63 - i)) 64
    exact ⟨leadZeros (s.regs.rs a), hle, State.slotS_gives, hbefore, hat⟩
  · obtain ⟨hle, hbefore, hat⟩ := find?_range_getD (s.regs.rs a).getLsbD 64
    exact ⟨trailZeros (s.regs.rs a), hle, State.slotS_gives, hbefore, hat⟩

/-! ## Moves and compares (R205, R208) -/

/-- A form whose effect is one result puts it in flight. -/
theorem State.slot_put_gives {s : State} {g : BitVec 4} {lat : Nat} {f : State → Landing} {l : Landing} (h : f s = l) :
    s.slot g none (fun t => t.put lat (f t)) = .next (s.guarded g (s.inFlight lat l 0)) := h ▸ State.slot_none

/-- A compare puts its condition and the negation in flight. -/
theorem State.slotCmp_gives {s : State} {g h : BitVec 4} {c c' : Bool} (hc : c = c' := by rfl) :
    s.slotCmp g h c = .next (s.guarded g ((s.inFlight 1 (.g h c') 0).inFlight 1 (.g (h + 1) !c') 0)) := hc ▸ State.slot_none

/-- The bits of a number written as a sum of the powers of two that a predicate chooses. -/
theorem testBit_sum_powers (p : Nat → Bool) (n i : Nat) :
    (((List.range n).map fun i => if p i then 2 ^ i else 0).sum).testBit i = (decide (i < n) && p i) := by
  have hlt : ∀ n, ((List.range n).map fun i => if p i then 2 ^ i else 0).sum < 2 ^ n := by
    intro n
    induction n with
    | zero => simp
    | succ n ih =>
      rw [List.range_succ, List.map_append, List.sum_append, List.map_singleton, List.sum_singleton, Nat.pow_succ]
      split <;> omega
  induction n with
  | zero => simp
  | succ n ih =>
    rw [List.range_succ, List.map_append, List.sum_append, List.map_singleton, List.sum_singleton]
    rcases hp : p n with _ | _
    · rw [if_neg Bool.false_ne_true, Nat.add_zero, ih]
      rcases Nat.lt_trichotomy i n with h | rfl | h
      · simp [h, Nat.lt_succ_of_lt h]
      · simp [hp]
      · simp [Nat.not_lt_of_lt h, show ¬ i < n + 1 by omega]
    · have hor := Nat.two_pow_add_eq_or_of_lt (hlt n) 1
      rw [Nat.mul_one] at hor
      rw [if_pos rfl, Nat.add_comm, hor, Nat.testBit_or, Nat.testBit_two_pow, ih]
      rcases Nat.lt_trichotomy i n with h | rfl | h
      · simp [h, Nat.lt_succ_of_lt h, h.ne']
      · simp [hp]
      · simp [Nat.not_lt_of_lt h, show ¬ i < n + 1 by omega, h.ne]

theorem Regs.getLsbD_guards (r : Regs) {i : Nat} (h : i < 64) :
    r.guards.getLsbD i = (decide (i < 16) && r.rg (BitVec.ofNat 4 i)) := by
  rw [Regs.guards, BitVec.getLsbD_ofNat, testBit_sum_powers fun i => r.rg (BitVec.ofNat 4 i)]
  simp [h]

theorem bne_eq_decide_ne (x y : W64) : (x != y) = decide (x ≠ y) := by
  rw [bne, beq_eq_decide, decide_not]

/-- Settles O3: each move puts one result in flight and each compare two; GGET's bits are those of the sum of its guards. -/
theorem registerMovesAndCompares : Obligations.RegisterMovesAndCompares := by
  unfold Obligations.RegisterMovesAndCompares
  refine ⟨fun s g d a b m hd ha => ⟨?_, ?_, ?_, ?_, ?_, ?_, ?_, ?_, ?_, ?_, ?_⟩, fun s g h a b i => ⟨?_, ?_⟩⟩
  iterate 6 · apply State.slot_put_gives rfl
  · exact State.slotS_gives (congrArg _ (Nat.mod_eq_of_lt ha))
  iterate 3 · apply State.slot_put_gives rfl
  · exact ⟨_, State.slotS_gives, fun i hi => s.regs.getLsbD_guards hi⟩
  · exact ⟨State.slotCmp_gives, State.slotCmp_gives, State.slotCmp_gives, State.slotCmp_gives,
      State.slotCmp_gives, State.slotCmp_gives (bne_eq_decide_ne _ _)⟩
  · exact ⟨State.slotCmp_gives, State.slotCmp_gives, State.slotCmp_gives, State.slotCmp_gives,
      State.slotCmp_gives, State.slotCmp_gives (bne_eq_decide_ne _ _)⟩

end Sys2Proof.Machine
end

section
/-! Control flow (R175, R209 to R218): what a slot asks of the control stream, and the loop test after a bundle. -/

namespace Sys2Proof.Machine

/-! ## Targets (R209, R211) -/

theorem shiftLeft_four_signExtend {w : Nat} (o : BitVec w) : o.signExtend 64 <<< 4 = BitVec.ofInt 64 (16 * o.toInt) := by
  rw [BitVec.shiftLeft_eq_mul_twoPow, BitVec.signExtend, mul_comm, BitVec.ofInt_mul]
  rfl

theorem shiftLeft_four_zeroExtend (e : BitVec 10) : (e.zeroExtend 64 : W64) <<< 4 = BitVec.ofNat 64 (16 * e.toNat) := by
  refine BitVec.eq_of_toNat_eq ?_
  have he : e.toNat < 2 ^ 10 := e.isLt
  simp [BitVec.toNat_shiftLeft, Nat.shiftLeft_eq]
  omega

theorem alignBundle_eq (x : W64) : alignBundle x = BitVec.ofNat 64 (x.toNat / 16 * 16) := by
  have hshift : alignBundle x = (x >>> 4) <<< 4 := by
    unfold alignBundle
    ext i hi
    have h15 : (15#64)[i] = decide (i < 4) := Nat.testBit_two_pow_sub_one 4 i
    rw [BitVec.getElem_and, BitVec.getElem_not, h15, BitVec.getElem_shiftLeft]
    by_cases h : i < 4
    · simp [h]
    · simp [h, show 4 + (i - 4) = i by omega, BitVec.getLsbD_eq_getElem hi]
  rw [hshift]
  refine BitVec.eq_of_toNat_eq ?_
  simp [BitVec.toNat_shiftLeft, Nat.shiftLeft_eq, Nat.shiftRight_eq_div_pow]

/-! ## Branches (R209, R210) -/

/-- Settles O5: a branch that is taken leaves the bundle by its target, one that is guarded off asks for bubbles at most. -/
theorem branches : Obligations.Branches := by
  unfold Obligations.Branches
  intro s g o a p near far same asks skips
  have hnear : branchTo p o = near := congrArg (p + ·) (shiftLeft_four_signExtend o)
  have hfar : alignBundle (s.regs.rs a) = far := alignBundle_eq _
  have hsame (x : W64) (n kind : Nat) (ras : List W64) (t : State) (ht : t = s ∨ t = s.put 1 (.s 31 (p + 16))) :
      asks { t.leave x n kind with stream.ras := ras } x n := by
    rcases ht with rfl | rfl <;> exact ⟨⟨rfl, rfl, rfl, rfl, rfl, rfl, rfl, rfl⟩, rfl, rfl, rfl⟩
  refine ⟨fun hg => ⟨⟨_, ?_, hsame near 0 0x01 _ s (.inl rfl), rfl⟩, ⟨_, ?_, hsame near 4 0x01 _ s (.inl rfl), rfl⟩,
    ⟨_, ?_, hsame near 0 0x02 _ _ (.inr rfl), rfl, rfl⟩, ⟨_, ?_, hsame far 4 0x01 _ s (.inl rfl), rfl⟩,
    ⟨_, ?_, hsame far _ 0x03 _ s (.inl rfl), rfl⟩⟩,
    fun hg => ⟨⟨s.bubble 4, ?_, rfl⟩, ?_, ⟨s.bubble 4, ?_, rfl⟩, ?_, ?_⟩⟩
  · show execBrT g o s = _
    rw [execBrT, if_pos hg, hnear]
    rfl
  · show execBrNt g o s = _
    rw [execBrNt, if_pos hg, hnear]
    rfl
  · show execCall g o s = _
    rw [execCall, if_pos hg, hnear]
    rfl
  · show execBri g a s = _
    rw [execBri, State.slot_none, State.guarded_true hg, hfar]
    rfl
  · show execRet g a s = _
    rw [execRet, State.slot_none, State.guarded_true hg, hfar]
    rfl
  · show execBrT g o s = _
    rw [execBrT, hg, if_neg Bool.false_ne_true]
  · show execBrNt g o s = _
    rw [execBrNt, hg, if_neg Bool.false_ne_true]
  · show execCall g o s = _
    rw [execCall, hg, if_neg Bool.false_ne_true]
  · show execBri g a s = _
    exact State.slot_off hg
  · show execRet g a s = _
    exact State.slot_off hg

/-! ## Hardware loops (R211 to R214) -/

theorem State.loopTest_nil (s : State) (q : W64) : s.loopTest q [] = (s, q + 16, 0) := rfl

theorem State.loopTest_other {s : State} {q : W64} {l : BitVec 2} {r : List (BitVec 2)} (h : vget s.ctl.lend l.toNat 0 ≠ q) :
    s.loopTest q (l :: r) = s.loopTest q r := if_pos h

theorem State.loopTest_back {s : State} {q : W64} {l : BitVec 2} {r : List (BitVec 2)} (hdrain : s.ctl.drainReq = false)
    (hend : vget s.ctl.lend l.toNat 0 = q) (hn : 1 < (vget s.ctl.lc l.toNat 0).toNat) :
    s.loopTest q (l :: r) = ({ s with ctl.lc := vset s.ctl.lc l.toNat (vget s.ctl.lc l.toNat 0 - 1) },
      vget s.ctl.lstart l.toNat 0, if s.bodyHeld l then 0 else 2) := by
  rw [State.loopTest, if_neg (not_not_intro hend), if_pos hn, hdrain]
  rfl

theorem State.loopTest_last {s : State} {q : W64} {l : BitVec 2} {r : List (BitVec 2)} (hdrain : s.stream.draining = none)
    (hend : vget s.ctl.lend l.toNat 0 = q) (hn : (vget s.ctl.lc l.toNat 0).toNat ≤ 1) :
    s.loopTest q (l :: r) = ({ s with ctl := { s.ctl with
      lc := vset s.ctl.lc l.toNat 0, loops := s.ctl.loops.filter fun m => decide (m ≠ l) } } : State).loopTest q r := by
  rw [State.loopTest, if_neg (not_not_intro hend), if_neg hn.not_gt, State.fallThrough, hdrain,
    if_neg (Option.some_ne_none l).symm]

theorem execLoop_of_ne_zero {s : State} {g : BitVec 4} {l : BitVec 2} {e : BitVec 10} {a : BitVec 5} (h : s.regs.rs a ≠ 0) :
    execLoop g l e a s = .next (s.guarded g (s.inFlight 1 (.loop l (s.regs.rs a) (s.stream.pc + 16)
      (s.stream.pc + 16 + BitVec.ofNat 64 (16 * e.toNat))) 0)) := by
  rw [execLoop, State.slot_none, if_neg h, shiftLeft_four_zeroExtend]
  rfl

theorem execLoop_of_eq_zero {s : State} {g : BitVec 4} {l : BitVec 2} {e : BitVec 10} {a : BitVec 5} (h : s.regs.rs a = 0)
    (hg : s.regs.rg g = true) :
    execLoop g l e a s = .next { s with stream.ask := { s.stream.ask with
      target := some (s.stream.pc + 16 + BitVec.ofNat 64 (16 * e.toNat) + 16), taken := true, bubbles := 4 } } := by
  rw [execLoop, State.slot_none, State.guarded_true hg, if_pos h, shiftLeft_four_zeroExtend]

/-- Settles O6: LOOP and LPOFF by their trip count and guard, the test of one loop by its end and its counter. -/
theorem hardwareLoops : Obligations.HardwareLoops := by
  unfold Obligations.HardwareLoops
  refine ⟨fun s g l e a => ⟨execLoop_of_ne_zero, fun h hg => ⟨_, execLoop_of_eq_zero h hg, rfl⟩, fun hg => ?_, ?_⟩,
    fun s q l r hreq hdrain => ⟨s.loopTest_nil q, State.loopTest_other, State.loopTest_back hreq, State.loopTest_last hdrain⟩⟩
  · show execLoop g l e a s = _
    exact State.slot_off hg
  · apply State.slot_put_gives rfl

/-! ## Waits, headers (R176, R180, R215 to R218) -/

theorem withinLimit_iff {m : BitVec 4} {n : Nat} : withinLimit m n = true ↔ m = 15 ∨ n ≤ m.toNat := by
  simp [withinLimit]

/-- A wait holds its bundle until its condition. -/
theorem State.waitFor_holds {s : State} {done : Bool} {p : Prop} (h : done = true ↔ p) :
    (p → s.waitFor done = .next s) ∧ (¬ p → s.waitFor done = .next { s with stream.held := true }) := by
  rw [← h]
  cases done <;> simp [State.waitFor]

/-- Settles O7. -/
theorem waitsHeadersAndNop : Obligations.WaitsHeadersAndNop := by
  unfold Obligations.WaitsHeadersAndNop
  refine ⟨fun s g l st c t k a => ⟨?_, fun n => State.ctlRead_of_unchanged, rfl, rfl, rfl, rfl, ?_, ?_⟩,
    fun s g z y x c ax ay v w l p => ⟨rfl, rfl, ⟨_, rfl, rfl, rfl, rfl, ?_, ?_, rfl, rfl, rfl, rfl⟩, rfl⟩⟩
  · refine State.waitFor_holds ?_
    simp only [State.waitDone, Bool.and_eq_true, withinLimit_iff, and_assoc]
  · exact State.waitFor_holds decide_eq_true_iff
  · refine State.waitFor_holds ?_
    simp [State.fenceDone]
  · exact beq_iff_eq
  · exact beq_iff_eq

end Sys2Proof.Machine
end
section
/-! Closed facts: the words that the spec writes out (R202), and the registers after reset (R207). -/

namespace Sys2Proof.Machine

/-- Settles O55: the decoder run on each word. -/
theorem decodeWords : Obligations.DecodeWords := by
  unfold Obligations.DecodeWords
  exact ⟨rfl, rfl, rfl, rfl, rfl, rfl, rfl, rfl, rfl, rfl, rfl, rfl, rfl, rfl, rfl⟩

/-- Settles O60: each register read by its number. -/
theorem resetValues : Obligations.ResetValues := by
  unfold Obligations.ResetValues
  exact ⟨rfl, rfl, rfl, rfl, by decide +kernel, by decide +kernel, by decide +kernel, by decide +kernel, by decide +kernel,
    by decide +kernel, rfl, by decide +kernel, by decide +kernel⟩

end Sys2Proof.Machine
end

section
/-! The encoder and the decoder do not agree where no byte stands behind the word: the decoder extends the sign of the ten
immediate bits of the word, and an immediate of 512 to 1023 has that bit set while its extension byte is zero. -/

namespace Sys2Proof.Machine

/-- Refutes O56: ADDI with the immediate 512 has the word 0x10019200 and a zero byte, and that word alone is ADDI with the
immediate −512. -/
theorem not_encodeDecodeRoundTrip : ¬ Obligations.EncodeDecodeRoundTrip := by
  unfold Obligations.EncodeDecodeRoundTrip
  rintro ⟨holds, -⟩
  have alone := (holds (.addi 0 3 4 512#18) 0 0x10019200 rfl rfl).2.2.2 rfl
  exact absurd alone (by decide +kernel)

end Sys2Proof.Machine
end

section
/-! Landing results: what each writes, what the writes of a control register leave as they are, and the order in which the
results of one cycle land. -/

namespace Sys2Proof.Machine

/-! ## Bytes written and read back -/

/-- A byte of the range written reads as the byte stored there. -/
theorem cellGet_putBytes_inside : ∀ {bs : List Byte} {l : List Host.Cell} {a i : Nat}, cellsWf l = true →
    (h : i < bs.length) → cellGet (putBytes l a bs) (a + i) = bs[i]
  | [], _, _, _, _, h => absurd h (Nat.not_lt_zero _)
  | x :: r, l, a, 0, hl, _ => by
    rw [putBytes, cellGet_putBytes_outside (cellsWf_put hl) (by omega), cellGet_put hl]; simp
  | x :: r, l, a, i + 1, hl, h => by
    rw [putBytes, show a + (i + 1) = a + 1 + i by omega, cellGet_putBytes_inside (cellsWf_put hl) (by simpa using h)]
    rfl

/-- Settles O11: the bytes of the range by recursion over them, those outside by the frame of `putBytes`. -/
theorem storedBytesReadBack : Obligations.StoredBytesReadBack := by
  unfold Obligations.StoredBytesReadBack
  refine fun l a bs hl => ⟨cellsWf_putBytes hl, fun b => ?_⟩
  split
  next h =>
    obtain ⟨i, rfl⟩ := Nat.exists_eq_add_of_le h.1
    rw [cellGet_putBytes_inside hl (by omega)]
    simp
  next h => exact cellGet_putBytes_outside hl (by omega)

/-! ## Register files -/

theorem Regs.rs_ws (r : Regs) (i j : BitVec 5) (x : W64) :
    (r.ws i x).rs j = if j = 0 then 0 else if j = i then x else r.rs j := by
  by_cases hj : j = 0
  · subst hj; rfl
  · rw [if_neg hj]
    split
    next h => subst h; exact rs_ws_same hj
    next h => exact rs_ws_other (Ne.symm h)

theorem vget_vset {α : Type} {n : Nat} {v : Vector α n} {i j : Nat} {x d : α} (h : i < n) :
    vget (vset v i x) j d = if j = i then x else vget v j d := by
  split
  next e => subst e; exact vget_vset_same h
  next e => exact vget_vset_other (Ne.symm e)

theorem vget_vset_bv {α : Type} {w : Nat} {v : Vector α (2 ^ w)} {i j : BitVec w} {x d : α} :
    vget (vset v i.toNat x) j.toNat d = if j = i then x else vget v j.toNat d := by
  rw [vget_vset i.isLt]
  simp only [BitVec.toNat_inj]

theorem Regs.rg_wg (r : Regs) (i j : BitVec 4) (b : Bool) :
    (r.wg i b).rg j = if j = 0 then true else if j = 1 then false else if j = i then b else r.rg j := by
  unfold rg
  split
  · rfl
  next h0 =>
    split
    · rfl
    next h1 =>
      unfold wg
      split
      next hi => rw [if_neg (by rintro rfl; revert h0 h1 hi; bv_omega)]
      next => exact vget_vset_bv (w := 4)

theorem Regs.rk_wk (r : Regs) (i j : BitVec 3) (m y : BitVec 1024) :
    (r.wk i m y).rk j =
      if j = 0 then BitVec.allOnes 1024 else if j = i then (r.rk j &&& ~~~m) ||| (y &&& m) else r.rk j := by
  unfold rk
  split
  · rfl
  next h0 =>
    unfold wk
    split
    next hi => rw [if_neg (by rintro rfl; exact h0 hi)]
    next =>
      rw [vget_vset_bv (w := 3)]
      split
      next e => rw [e]
      next => rfl

theorem Regs.rv_wv (r : Regs) (i j : BitVec 5) (m : BitVec 1024) (v : Vector W32 1024) (e : Fin 1024) :
    ((r.wv i m v).rv j)[e] = if j = i ∧ m.getLsbD e = true then v[e] else (r.rv j)[e] := by
  have read : (r.wv i m v).rv j = if j = i then .ofFn fun l => if m.getLsbD l.val then v[l] else (r.rv i)[l] else r.rv j :=
    vget_vset_bv (w := 5)
  rw [read]
  by_cases hj : j = i
  · subst hj
    simp
  · rw [if_neg hj, if_neg fun h => hj h.1]

theorem Regs.rg_wgset (r : Regs) (j : BitVec 4) (w : W16) :
    (r.wgset w).rg j = if j = 0 then true else if j = 1 then false else w.getLsbD j.toNat := by
  unfold rg
  split
  · rfl
  next h0 =>
    split
    · rfl
    next h1 =>
      have large : ¬ j.toNat ≤ 1 := by revert h0 h1; bv_omega
      have inside : j.toNat < 16 := j.isLt
      simp [wgset, vget, inside, large]

/-- What `Regs.ws`, `Regs.wk` and `Regs.wg` leave as it is where they write nothing is the whole file. -/
theorem Regs.ws_frame (r : Regs) (i : BitVec 5) (x : W64) : r.ws i x = { r with s := (r.ws i x).s } := by
  unfold ws
  split <;> rfl

theorem Regs.wg_frame (r : Regs) (i : BitVec 4) (b : Bool) : r.wg i b = { r with g := (r.wg i b).g } := by
  unfold wg
  split <;> rfl

theorem Regs.wk_frame (r : Regs) (i : BitVec 3) (m y : BitVec 1024) : r.wk i m y = { r with k := (r.wk i m y).k } := by
  unfold wk
  split <;> rfl

/-! ## Tiles -/

/-- The cells of a landing tile result that a later bundle's tile operation has not written. -/
theorem tileCells_frame (s : State) (n : Nat) (cs : List Host.Cell) (hl : cellsWf s.tiles.bytes = true)
    (distinct : (cs.map (·.1)).Nodup) :
    let bytes := putCells s.tiles.bytes (cs.filter fun c => !s.tileOver n c.1)
    (∀ c ∈ cs, cellGet bytes c.1 = if s.tileOver n c.1 = true then cellGet s.tiles.bytes c.1 else c.2) ∧
      ∀ a, (∀ c ∈ cs, c.1 ≠ a) → cellGet bytes a = cellGet s.tiles.bytes a := by
  refine ⟨fun c hc => ?_, fun a ha => cellGet_putCells_other hl fun c hc => ha c (List.mem_filter.mp hc).1⟩
  have sub : ((cs.filter fun c => !s.tileOver n c.1).map (·.1)).Nodup :=
    distinct.sublist (List.filter_sublist.map _)
  split
  next taken =>
    refine cellGet_putCells_other hl fun d hd e => ?_
    have kept := (List.mem_filter.mp hd).2
    simp [e, taken] at kept
  next clear => exact cellGet_putCells hl sub (List.mem_filter.mpr ⟨hc, by simp [clear]⟩)

/-! ## Control registers -/

theorem zeroExtend_truncate_of_lt {w : Nat} {x : W64} (h : x.toNat < 2 ^ w) : (x.truncate w).zeroExtend 64 = x := by
  apply BitVec.eq_of_toNat_eq
  rw [BitVec.toNat_setWidth, BitVec.toNat_setWidth, Nat.mod_eq_of_lt h, Nat.mod_eq_of_lt x.isLt]

/-- The control registers that a move may write and that hold one value of their own (R207). -/
def Ctl.single (c : Ctl) (n : Nat) : W64 :=
  match n with
  | 0x000 => c.vflags.zeroExtend 64
  | 0x001 => c.msat.zeroExtend 64
  | 0x002 => c.srstate
  | 0x003 => c.contpol.zeroExtend 64
  | 0x004 => c.lwthr.zeroExtend 64
  | 0x01C => c.trapvec
  | 0x01D => c.exto.zeroExtend 64
  | 0x100 => c.mexcl.zeroExtend 64
  | 0x120 => c.chcfg.zeroExtend 64
  | 0x150 => c.tpc
  | 0x161 => c.drctl.zeroExtend 64
  | 0x162 => c.drentry
  | 0x163 => c.drrem
  | 0x164 => c.livemap.zeroExtend 64
  | _ => 0

/-- A state with those registers of `c`. -/
def State.withSingles (s : State) (c : Ctl) : State :=
  { s with ctl := { s.ctl with
      vflags := c.vflags, msat := c.msat, srstate := c.srstate, contpol := c.contpol, lwthr := c.lwthr, trapvec := c.trapvec,
      exto := c.exto, mexcl := c.mexcl, chcfg := c.chcfg, tpc := c.tpc, drctl := c.drctl, drentry := c.drentry,
      drrem := c.drrem, livemap := c.livemap } }

/-- A register reads the same where those registers read the same. -/
theorem ctlNow_withSingles {s : State} {c : Ctl} {k : Nat} (h : c.single k = s.ctl.single k) :
    (s.withSingles c).ctlNow k = s.ctlNow k := by
  unfold State.ctlNow
  split
  all_goals first | rfl | exact h

/-- The control registers that come in ranges of like ones (R207). -/
def State.ranged (s : State) (n : Nat) : W64 :=
  let c := s.ctl
  if 0x024 ≤ n ∧ n < 0x028 then (vget c.zovf (n - 0x024) 0).zeroExtend 64
  else if 0x028 ≤ n ∧ n < 0x02C then (vget c.rsseq (n - 0x028) 0).zeroExtend 64
  else if 0x030 ≤ n ∧ n < 0x03B then (s.line (n - 0x030)).seen
  else if 0x040 ≤ n ∧ n < 0x04B then (s.line (n - 0x040)).issued
  else if 0x050 ≤ n ∧ n < 0x05B then (s.line (n - 0x050)).err
  else if 0x060 ≤ n ∧ n < 0x064 then vget c.lc (n - 0x060) 0
  else if 0x064 ≤ n ∧ n < 0x068 then vget c.lstart (n - 0x064) 0
  else if 0x068 ≤ n ∧ n < 0x06C then vget c.lend (n - 0x068) 0
  else if n = 0x06C then c.lpstat
  else if 0x070 ≤ n ∧ n < 0x080 then (vget c.tshape (n - 0x070) 0).zeroExtend 64
  else if 0x080 ≤ n ∧ n < 0x082 then vget c.bndbuf (n - 0x080) 0
  else if 0x084 ≤ n ∧ n < 0x088 then vget c.watch (n - 0x084) 0
  else if 0x0A0 ≤ n ∧ n < 0x0AD then s.lkstat (n - 0x0A0)
  else if 0x0B0 ≤ n ∧ n < 0x0BD then (s.port (n - 0x0B0)).guydim.zeroExtend 64
  else if 0x0C0 ≤ n ∧ n < 0x0CD then (s.port (n - 0x0C0)).lkerr.zeroExtend 64
  else if 0x110 ≤ n ∧ n < 0x120 then (vget s.regs.b (n - 0x110) 0).zeroExtend 64
  else if 0x158 ≤ n ∧ n < 0x15C then vget c.tsave (n - 0x158) 0
  else if 0x15C ≤ n ∧ n < 0x160 then (vget c.wctl (n - 0x15C) 0).zeroExtend 64
  else if 0x200 ≤ n ∧ n < 0x300 then s.rqdepth (n - 0x200)
  else 0

/-- A state with the ranges of `c` and the bias registers `b` that a move may write. -/
def State.withRanges (s : State) (c : Ctl) (b : Vector (BitVec 9) 16) (l : Vector Timeline 11) : State :=
  { s with
    regs.b := b
    lines := l
    ctl := { s.ctl with
      zovf := c.zovf, lc := c.lc, tshape := c.tshape, bndbuf := c.bndbuf, watch := c.watch, tsave := c.tsave, wctl := c.wctl } }

/-- A register reads the same where the ranges read the same. -/
theorem ctlNow_withRanges {s : State} {c : Ctl} {b : Vector (BitVec 9) 16} {l : Vector Timeline 11} {k : Nat}
    (h : (s.withRanges c b l).ranged k = s.ranged k) : (s.withRanges c b l).ctlNow k = s.ctlNow k := by
  unfold State.ctlNow
  split
  case h_59 => exact h
  all_goals rfl

/-- The numbers of the ranges read as the ranges do. -/
theorem ctlNow_ranged {s : State} {n : Nat} (h : 0x024 ≤ n ∧ n < 0x100 ∨ 0x110 ≤ n ∧ n < 0x120 ∨ 0x158 ≤ n ∧ n < 0x160) :
    s.ctlNow n = s.ranged n := by
  unfold State.ctlNow
  split
  case h_59 => rfl
  all_goals omega

/-- What a write of register `m` may do to another: it changes single registers, or ranges, and those only at `m`. -/
def State.WritesOnly (s : State) (m : Nat) (t : State) : Prop :=
  (t = s.withSingles t.ctl ∧ ∀ k ≠ m, t.ctl.single k = s.ctl.single k) ∨
    (t = s.withRanges t.ctl t.regs.b t.lines ∧ ∀ k ≠ m, t.ranged k = s.ranged k)

theorem State.WritesOnly.single {s : State} {m : Nat} {c : Ctl} (h : ∀ k ≠ m, c.single k = s.ctl.single k) :
    s.WritesOnly m (s.withSingles c) := by
  refine .inl ⟨rfl, fun k hk => ?_⟩
  rw [← h k hk]
  unfold Ctl.single
  split <;> rfl

theorem State.line_setLine {s : State} {i j : Nat} {t : Timeline} (h : i < 11) :
    (s.setLine i t).line j = if j = i then t else s.line j := vget_vset h

/-- A timeline replaced by one with its counters changes no range but the one register of its error. -/
theorem State.ranged_setLine {s : State} {i k : Nat} {t : Timeline} (hi : i < 11) (hseen : t.seen = (s.line i).seen)
    (hissued : t.issued = (s.line i).issued) (hk : k ≠ 0x050 + i) : (s.setLine i t).ranged k = s.ranged k := by
  have seen (j : Nat) : ((s.setLine i t).line j).seen = (s.line j).seen := by
    rw [line_setLine hi]; split <;> simp_all
  have issued (j : Nat) : ((s.setLine i t).line j).issued = (s.line j).issued := by
    rw [line_setLine hi]; split <;> simp_all
  have err (h : 0x050 ≤ k) : ((s.setLine i t).line (k - 0x050)).err = (s.line (k - 0x050)).err := by
    rw [line_setLine hi, if_neg (by omega)]
  unfold ranged
  repeat
    refine ite_congr rfl (fun _ => by first | rfl | exact seen _ | exact issued _ | exact err (by omega)) fun _ => ?_
  rfl

theorem State.ctlWrite_writesOnly (s : State) (m : Nat) (x : W64) : s.WritesOnly m (s.ctlWrite m x) := by
  unfold ctlWrite
  iterate 7
    refine iteInduction (motive := s.WritesOnly m) (fun h => .inl ⟨rfl, fun k hk => ?_⟩) fun _ => ?_
    · unfold Ctl.single; split <;> first | rfl | omega
  refine iteInduction (motive := s.WritesOnly m) (fun h => .inr ⟨rfl, fun k hk => ?_⟩) fun _ => ?_
  · unfold ranged
    repeat refine ite_congr rfl (fun _ => by first | rw [vget_vset_other (by omega)] | rfl) fun _ => ?_
    rfl
  refine iteInduction (motive := s.WritesOnly m)
    (fun h => .inr ⟨rfl, fun k hk => ranged_setLine (by omega) rfl rfl (by omega)⟩) fun _ => ?_
  iterate 4
    refine iteInduction (motive := s.WritesOnly m) (fun h => .inr ⟨rfl, fun k hk => ?_⟩) fun _ => ?_
    · unfold ranged
      repeat refine ite_congr rfl (fun _ => by first | rw [vget_vset_other (by omega)] | rfl) fun _ => ?_
      rfl
  refine iteInduction (motive := s.WritesOnly m) (fun h => .inl ⟨rfl, fun k hk => ?_⟩) fun _ => ?_
  · unfold Ctl.single; split <;> first | rfl | omega
  refine iteInduction (motive := s.WritesOnly m) (fun h => .inr ⟨rfl, fun k hk => ?_⟩) fun _ => ?_
  · unfold ranged
    repeat refine ite_congr rfl (fun _ => by first | rw [vget_vset_other (by omega)] | rfl) fun _ => ?_
    rfl
  iterate 2
    refine iteInduction (motive := s.WritesOnly m) (fun h => .inl ⟨rfl, fun k hk => ?_⟩) fun _ => ?_
    · unfold Ctl.single; split <;> first | rfl | omega
  iterate 2
    refine iteInduction (motive := s.WritesOnly m) (fun h => .inr ⟨rfl, fun k hk => ?_⟩) fun _ => ?_
    · unfold ranged
      repeat refine ite_congr rfl (fun _ => by first | rw [vget_vset_other (by omega)] | rfl) fun _ => ?_
      rfl
  iterate 4
    refine iteInduction (motive := s.WritesOnly m) (fun h => .inl ⟨rfl, fun k hk => ?_⟩) fun _ => ?_
    · unfold Ctl.single; split <;> first | rfl | omega
  exact .inl ⟨rfl, fun _ _ => rfl⟩

theorem State.WritesOnly.ctlNow {s t : State} {m k : Nat} (h : s.WritesOnly m t) (hk : k ≠ m) : t.ctlNow k = s.ctlNow k := by
  rcases h with ⟨ht, same⟩ | ⟨ht, same⟩
  · rw [ht]
    exact ctlNow_withSingles (same k hk)
  · rw [ht]
    refine ctlNow_withRanges ?_
    rw [← ht]
    exact same k hk

theorem State.WritesOnly.frame {s t : State} {m : Nat} (h : s.WritesOnly m t) :
    t = { s with regs := { s.regs with b := t.regs.b }, ctl := t.ctl, lines := t.lines } := by
  rcases h with ⟨ht, -⟩ | ⟨ht, -⟩
  all_goals
    rw [ht]
    rfl

/-- The values that a move writes to the registers whose limit is a width. -/
theorem toNat_lt_of_ctlValueOk {s : State} {m : Nat} {x : W64} (h : s.ctlValueOk m x = true) :
    (m = 0x000 → x.toNat < 2 ^ 6) ∧ (m = 0x001 ∨ m = 0x100 ∨ m = 0x161 → x.toNat < 2 ^ 16) ∧ (m = 0x003 → x.toNat < 2 ^ 4) ∧
      (m = 0x004 ∨ m = 0x01D ∨ (0x024 ≤ m ∧ m < 0x028) ∨ m = 0x164 → x.toNat < 2 ^ 32) ∧
      (0x050 ≤ m ∧ m < 0x05B → x = 0) ∧ (0x070 ≤ m ∧ m < 0x080 → x.toNat < 2 ^ 24) ∧
      (0x110 ≤ m ∧ m < 0x120 → x.toNat < 2 ^ 9) ∧ (m = 0x120 ∨ (0x15C ≤ m ∧ m < 0x160) → x.toNat < 2 ^ 8) := by
  refine ⟨?_, ?_, ?_, ?_, ?_, ?_, ?_, ?_⟩
  · rintro rfl
    exact of_decide_eq_true h
  · rintro (rfl | rfl | rfl) <;> exact of_decide_eq_true h
  · rintro rfl
    exact of_decide_eq_true h
  · rintro (rfl | rfl | range | rfl)
    · exact of_decide_eq_true h
    · exact of_decide_eq_true h
    · unfold State.ctlValueOk at h
      iterate 3 rw [if_neg (by omega)] at h
      rw [if_pos (by omega)] at h
      exact of_decide_eq_true h
    · exact of_decide_eq_true (Bool.and_eq_true_iff.mp h).1
  · intro range
    unfold State.ctlValueOk at h
    iterate 5 rw [if_neg (by omega)] at h
    rw [if_pos range] at h
    exact BitVec.eq_of_toNat_eq (of_decide_eq_true h)
  · intro range
    unfold State.ctlValueOk at h
    iterate 6 rw [if_neg (by omega)] at h
    rw [if_pos range] at h
    exact of_decide_eq_true (Bool.and_eq_true_iff.mp h).1
  · intro range
    unfold State.ctlValueOk at h
    iterate 10 rw [if_neg (by omega)] at h
    rw [if_pos range] at h
    exact of_decide_eq_true h
  · rintro (rfl | range)
    · exact of_decide_eq_true (Bool.and_eq_true_iff.mp h).1
    · unfold State.ctlValueOk at h
      iterate 9 rw [if_neg (by omega)] at h
      rw [if_pos range] at h
      simp only [Bool.and_eq_true, decide_eq_true_eq] at h
      omega

/-- What a register reads after a write of `x` to it (R67 for SRSTATE). -/
def State.Holds (m : Nat) (x : W64) (t : State) : Prop :=
  t.ctlNow m = if m = 0x002 ∧ x = 0 then 0x9E3779B97F4A7C15#64 else x

theorem State.holds_single {t : State} {m : Nat} {x : W64} (hm : m ≠ 0x002) (h : t.ctlNow m = x) : t.Holds m x := by
  unfold Holds
  rw [if_neg fun e => hm e.1, h]

theorem State.holds_range {t : State} {m : Nat} {x : W64} (hm : 0x024 ≤ m ∧ m < 0x100 ∨ 0x110 ≤ m ∧ m < 0x120 ∨ 0x158 ≤ m ∧ m < 0x160)
    (h : t.ranged m = x) : t.Holds m x :=
  holds_single (by omega) ((ctlNow_ranged hm).trans h)

theorem State.ctlWrite_holds {s : State} {m : Nat} {x : W64} (hw : ctlWritable m = true) (hx : s.ctlValueOk m x = true) :
    (s.ctlWrite m x).Holds m x := by
  obtain ⟨w6, w16, w4, w32, zero, w24, w9, w8⟩ := toNat_lt_of_ctlValueOk hx
  simp only [ctlWritable, Bool.or_eq_true, Bool.and_eq_true, decide_eq_true_eq] at hw
  unfold ctlWrite
  refine iteInduction (motive := Holds m x) (fun h => ?_) fun h0 => ?_
  · subst h
    exact holds_single (by decide) (zeroExtend_truncate_of_lt (w6 rfl))
  refine iteInduction (motive := Holds m x) (fun h => ?_) fun h1 => ?_
  · subst h
    exact holds_single (by decide) (zeroExtend_truncate_of_lt (w16 (by omega)))
  refine iteInduction (motive := Holds m x) (fun h => ?_) fun h2 => ?_
  · subst h
    exact if_congr (by simp) rfl rfl
  refine iteInduction (motive := Holds m x) (fun h => ?_) fun h3 => ?_
  · subst h
    exact holds_single (by decide) (zeroExtend_truncate_of_lt (w4 rfl))
  refine iteInduction (motive := Holds m x) (fun h => ?_) fun h4 => ?_
  · subst h
    exact holds_single (by decide) (zeroExtend_truncate_of_lt (w32 (by omega)))
  refine iteInduction (motive := Holds m x) (fun h => ?_) fun h1C => ?_
  · subst h
    exact holds_single (by decide) rfl
  refine iteInduction (motive := Holds m x) (fun h => ?_) fun h1D => ?_
  · subst h
    exact holds_single (by decide) (zeroExtend_truncate_of_lt (w32 (by omega)))
  refine iteInduction (motive := Holds m x) (fun zovf => holds_range (by omega) ?_) fun h24 => ?_
  · unfold ranged
    rw [if_pos zovf, vget_vset_same (by omega), zeroExtend_truncate_of_lt (w32 (by omega))]
  refine iteInduction (motive := Holds m x) (fun error => holds_range (by omega) ?_) fun h50 => ?_
  · unfold ranged
    iterate 4 rw [if_neg (by omega)]
    rw [if_pos error, line_setLine (by omega), if_pos rfl, zero error]
  refine iteInduction (motive := Holds m x) (fun count => holds_range (by omega) ?_) fun h60 => ?_
  · unfold ranged
    iterate 5 rw [if_neg (by omega)]
    rw [if_pos count, vget_vset_same (by omega)]
  refine iteInduction (motive := Holds m x) (fun shape => holds_range (by omega) ?_) fun h70 => ?_
  · unfold ranged
    iterate 9 rw [if_neg (by omega)]
    rw [if_pos shape, vget_vset_same (by omega), zeroExtend_truncate_of_lt (w24 shape)]
  refine iteInduction (motive := Holds m x) (fun boundary => holds_range (by omega) ?_) fun h80 => ?_
  · unfold ranged
    iterate 10 rw [if_neg (by omega)]
    rw [if_pos boundary, vget_vset_same (by omega)]
  refine iteInduction (motive := Holds m x) (fun watch => holds_range (by omega) ?_) fun h84 => ?_
  · unfold ranged
    iterate 11 rw [if_neg (by omega)]
    rw [if_pos watch, vget_vset_same (by omega)]
  refine iteInduction (motive := Holds m x) (fun h => ?_) fun h100 => ?_
  · subst h
    exact holds_single (by decide) (zeroExtend_truncate_of_lt (w16 (by omega)))
  refine iteInduction (motive := Holds m x) (fun bias => holds_range (by omega) ?_) fun h110 => ?_
  · unfold ranged
    iterate 15 rw [if_neg (by omega)]
    rw [if_pos bias, vget_vset_same (by omega), zeroExtend_truncate_of_lt (w9 bias)]
  refine iteInduction (motive := Holds m x) (fun h => ?_) fun h120 => ?_
  · subst h
    exact holds_single (by decide) (zeroExtend_truncate_of_lt (w8 (by omega)))
  refine iteInduction (motive := Holds m x) (fun h => ?_) fun h150 => ?_
  · subst h
    exact holds_single (by decide) rfl
  refine iteInduction (motive := Holds m x) (fun save => holds_range (by omega) ?_) fun h158 => ?_
  · unfold ranged
    iterate 16 rw [if_neg (by omega)]
    rw [if_pos save, vget_vset_same (by omega)]
  refine iteInduction (motive := Holds m x) (fun control => holds_range (by omega) ?_) fun h15C => ?_
  · unfold ranged
    iterate 17 rw [if_neg (by omega)]
    rw [if_pos control, vget_vset_same (by omega), zeroExtend_truncate_of_lt (w8 (by omega))]
  refine iteInduction (motive := Holds m x) (fun h => ?_) fun h161 => ?_
  · subst h
    exact holds_single (by decide) (zeroExtend_truncate_of_lt (w16 (by omega)))
  refine iteInduction (motive := Holds m x) (fun h => ?_) fun h162 => ?_
  · subst h
    exact holds_single (by decide) rfl
  refine iteInduction (motive := Holds m x) (fun h => ?_) fun h163 => ?_
  · subst h
    exact holds_single (by decide) rfl
  refine iteInduction (motive := Holds m x) (fun h => ?_) fun h164 => ?_
  · subst h
    exact holds_single (by decide) (zeroExtend_truncate_of_lt (w32 (by omega)))
  omega

/-! ## What a landing result writes -/

/-- Settles O9: the register files by their read and write rules, the tiles by those of a sparse store, the control registers
by `ctlWrite_writesOnly` and `ctlWrite_holds`. -/
theorem landingWritesItsRegister : Obligations.LandingWritesItsRegister := by
  unfold Obligations.LandingWritesItsRegister
  refine ⟨fun s n i j p q h k x b m y v e => ?_, ⟨fun s n l p x first last i j sh => ?_, fun s n cs hl distinct => ?_,
    fun s n m k x hw hx hk => ?_⟩, fun s n i p h x b m y v => ?_⟩
  · exact ⟨Regs.rs_ws .., vget_vset_bv (w := 4), vget_vset_bv (w := 4), vget_vset_bv (w := 4), Regs.rg_wg .., Regs.rk_wk ..,
      Regs.rv_wv .., fun w => Regs.rg_wgset ..⟩
  · exact ⟨⟨rfl, vget_vset_bv (w := 2), vget_vset_bv (w := 2), vget_vset_bv (w := 2)⟩, rfl, rfl, vget_vset_bv (w := 4)⟩
  · obtain ⟨written, others⟩ := tileCells_frame s n cs hl distinct
    exact ⟨rfl, cellsWf_putCells hl, written, others⟩
  · exact ⟨State.ctlWrite_holds hw hx, (State.ctlWrite_writesOnly s m x).ctlNow hk, (State.ctlWrite_writesOnly s m x).frame⟩
  · exact ⟨by rw [State.land, Regs.ws_frame], rfl, rfl, rfl, by rw [State.land, Regs.wg_frame],
      by rw [State.land, Regs.wk_frame], rfl⟩

/-! ## The order of landing -/

theorem insertResult_pair {r x : Result} : insertResult r [x] = if r.seq < x.seq then [r, x] else [x, r] := rfl

/-- Of two results that are due, the one of the lower number lands first, in whatever order they stand. -/
theorem State.landAll_pair (s : State) {r x : Result} (h : r.seq < x.seq) :
    s.landAll [r, x] = (((s.land r.seq r.land).land x.seq x.land).orFlags r.flags r.sat).orFlags x.flags x.sat ∧
      s.landAll [x, r] = (((s.land r.seq r.land).land x.seq x.land).orFlags r.flags r.sat).orFlags x.flags x.sat := by
  have forward : [r, x].foldl (fun l r => insertResult r l) [] = [r, x] :=
    (insertResult_pair (r := x) (x := r)).trans (if_neg (by omega))
  have backward : [x, r].foldl (fun l r => insertResult r l) [] = [r, x] :=
    (insertResult_pair (r := r) (x := x)).trans (if_pos h)
  unfold landAll
  constructor
  · rw [forward]; rfl
  · rw [backward]; rfl

/-- Settles O10: two results that are due together land in issue order; one that is not due counts down; one that is due lands
with its flags. -/
theorem laterBundleWins : Obligations.LaterBundleWins := by
  unfold Obligations.LaterBundleWins
  refine ⟨fun s d x y m n hd hmn => ?_, fun s r hr hs => ?_, fun s r hr hs => ?_⟩
  · intro result
    have order : (result m x).seq < (result n y).seq := hmn
    let t : State := { s with stream.results := [] }
    exact ⟨(congrArg (·.regs.rs d) (t.landAll_pair order).1).trans (Regs.rs_ws_same hd),
      (congrArg (·.regs.rs d) (t.landAll_pair order).2).trans (Regs.rs_ws_same hd)⟩
  · have due : tickResults s.stream.results = ([], [{ r with rem := r.rem - 1 }]) := by
      simp [tickResults, hs, hr, Nat.not_le.mpr hr]
    unfold State.landDue
    rw [if_pos rfl, due]
    rfl
  · have due : tickResults s.stream.results = ([r], []) := by
      simp [tickResults, hs, hr, Nat.not_lt.mpr hr]
    unfold State.landDue
    rw [if_pos rfl, due]
    rfl

/-! ## Stores and atomics of the working store -/

theorem leBytes_length : ∀ (n x : Nat), (leBytes n x).length = n
  | 0, _ => rfl
  | n + 1, x => congrArg (· + 1) (leBytes_length n (x / 256))

/-- The number that the bytes of a number spell is its low bytes. -/
theorem leNat_leBytes : ∀ (n x : Nat), leNat (leBytes n x) = x % 2 ^ (8 * n)
  | 0, x => (Nat.mod_one x).symm
  | n + 1, x => by
    rw [leBytes, leNat, leNat_leBytes n, BitVec.toNat_ofNat, show 8 * (n + 1) = 8 + 8 * n by omega, Nat.pow_add,
      Nat.mod_mul]

theorem getBytes_putBytes {bs : List Byte} {l : List Host.Cell} {a : Nat} (hl : cellsWf l = true) :
    getBytes (putBytes l a bs) a bs.length = bs := by
  refine List.ext_getElem (by simp [getBytes]) fun i _ h => ?_
  simp only [getBytes, List.getElem_map, List.getElem_range]
  exact cellGet_putBytes_inside hl h

theorem oldBytes_nil (l : List Host.Cell) (a n : Nat) : oldBytes [] l a n = getBytes l a n := rfl

/-- What an atomic stores, and what it returns (R222). -/
theorem State.atomic_some {s : State} {op : BitVec 4} {a size x c y : Nat}
    (h : atomicNew op size (leNat (s.load a size)) (x % 2 ^ (8 * size)) (c % 2 ^ (8 * size)) = some y) :
    s.atomic op a size x c = (s.store a (leBytes size y), leNat (s.load a size)) := by
  simp only [atomic, h]

theorem State.atomic_none {s : State} {op : BitVec 4} {a size x c : Nat}
    (h : atomicNew op size (leNat (s.load a size)) (x % 2 ^ (8 * size)) (c % 2 ^ (8 * size)) = none) :
    s.atomic op a size x c = (s, leNat (s.load a size)) := by
  simp only [atomic, h]

/-- A landing atomic is the atomic, and its old value on its way back. -/
theorem State.land_watomic (s : State) (n a : Nat) (op : BitVec 4) (d : BitVec 5) (size : Nat) (x c : W64) :
    s.land n (.watomic op d a size x c) =
      let r := s.atomic op a size x.toNat c.toNat
      { r.1 with stream.results := r.1.stream.results ++
        [{ seq := n, rem := 5, land := .s d (BitVec.ofNat 64 r.2), flags := 0, sat := 0 }] } := rfl

/-- The greater of two numbers, or the lesser, as the atomics choose it. -/
theorem choice_le {α : Type} {f : α → Int} {x y : α} :
    ((if f x < f y then y else x) = x ∨ (if f x < f y then y else x) = y) ∧ f x ≤ f (if f x < f y then y else x) ∧
      f y ≤ f (if f x < f y then y else x) := by
  split
  · exact ⟨.inr rfl, by omega, le_rfl⟩
  · exact ⟨.inl rfl, le_rfl, by omega⟩

theorem choice_ge {α : Type} {f : α → Int} {x y : α} :
    ((if f y < f x then y else x) = x ∨ (if f y < f x then y else x) = y) ∧ f (if f y < f x then y else x) ≤ f x ∧
      f (if f y < f x then y else x) ≤ f y := by
  split
  · exact ⟨.inr rfl, by omega, le_rfl⟩
  · exact ⟨.inl rfl, le_rfl, by omega⟩

/-- The maximum of two codes without a NaN is one of them, and no lower than either (R59). -/
theorem Fmt.maxB_spec (f : Fmt) (x y : Nat) (h : ¬ ((f.decode x).isNan = true ∨ (f.decode y).isNan = true)) :
    (f.maxB x y = x ∨ f.maxB x y = y) ∧ f.key x ≤ f.key (f.maxB x y) ∧ f.key y ≤ f.key (f.maxB x y) := by
  unfold maxB
  rw [if_neg (by rwa [Bool.or_eq_true])]
  exact choice_le

theorem Fmt.minB_spec (f : Fmt) (x y : Nat) (h : ¬ ((f.decode x).isNan = true ∨ (f.decode y).isNan = true)) :
    (f.minB x y = x ∨ f.minB x y = y) ∧ f.key (f.minB x y) ≤ f.key x ∧ f.key (f.minB x y) ≤ f.key y := by
  unfold minB
  rw [if_neg (by rwa [Bool.or_eq_true])]
  exact choice_ge

theorem Fmt.maxB_nan (f : Fmt) (x y : Nat) (h : (f.decode x).isNan = true ∨ (f.decode y).isNan = true) :
    f.maxB x y = f.qnan := if_pos (by rwa [Bool.or_eq_true])

theorem Fmt.minB_nan (f : Fmt) (x y : Nat) (h : (f.decode x).isNan = true ∨ (f.decode y).isNan = true) :
    f.minB x y = f.qnan := if_pos (by rwa [Bool.or_eq_true])

/-- The operations of an atomic on values of its size (R222). -/
theorem atomicNew_spec (size old x c : Nat) (hold : old < 2 ^ (8 * size)) (hx : x < 2 ^ (8 * size)) :
    let w := 8 * size
    let signed (n : Nat) : Int := if n < 2 ^ (w - 1) then n else (n : Int) - 2 ^ w
    (∃ v, atomicNew 5 size old x c = some v ∧ (v = old ∨ v = x) ∧ signed old ≤ signed v ∧ signed x ≤ signed v) ∧
      (∃ v, atomicNew 6 size old x c = some v ∧ (v = old ∨ v = x) ∧ signed v ≤ signed old ∧ signed v ≤ signed x) ∧
      atomicNew 7 size old x c = some (max old x) ∧ atomicNew 8 size old x c = some (min old x) := by
  intro w signed
  have signed_old : toSigned w old = signed old := by unfold toSigned; rw [Nat.mod_eq_of_lt hold]
  have signed_x : toSigned w x = signed x := by unfold toSigned; rw [Nat.mod_eq_of_lt hx]
  have five : atomicNew 5 size old x c = some (if toSigned w old < toSigned w x then x else old) := rfl
  have six : atomicNew 6 size old x c = some (if toSigned w x < toSigned w old then x else old) := rfl
  have seven : atomicNew 7 size old x c = some (if old < x then x else old) := rfl
  have eight : atomicNew 8 size old x c = some (if x < old then x else old) := rfl
  rw [signed_old, signed_x] at five six
  refine ⟨⟨_, five, choice_le⟩, ⟨_, six, choice_ge⟩, seven.trans (congrArg some ?_), eight.trans (congrArg some ?_)⟩
  · split <;> omega
  · split <;> omega

/-- Settles O12: a landing store by the frame of `State.store`; an atomic by whether its compare holds; its operations one by
one. -/
theorem workingStoreFrame : Obligations.WorkingStoreFrame := by
  unfold Obligations.WorkingStoreFrame
  refine ⟨fun s n a bs op d size x c hl => ?_, fun size old x c _ hold hx _ => ?_⟩
  · intro keeps
    have stored (bs : List Byte) : keeps (s.store a bs) bs.length :=
      ⟨rfl, rfl, rfl, rfl, rfl, rfl, rfl, rfl, fun b hb => State.store_outside hl (by omega)⟩
    have inside (bs : List Byte) (b : Nat) (hb : a ≤ b ∧ b - a < bs.length) :
        cellGet (putBytes s.mem.loc a bs) b = bs[b - a]'hb.2 := by
      obtain ⟨i, rfl⟩ := Nat.exists_eq_add_of_le hb.1
      rw [cellGet_putBytes_inside hl (by omega)]
      simp
    have unread (hu : s.mem.undo = []) : s.load a size = getBytes s.mem.loc a size := by
      unfold State.load
      rw [hu, oldBytes_nil]
    rw [State.land_watomic]
    cases new : atomicNew op size (leNat (s.load a size)) (x.toNat % 2 ^ (8 * size)) (c.toNat % 2 ^ (8 * size)) with
    | some y =>
      rw [State.atomic_some new]
      have len : (leBytes size y).length = size := leBytes_length size y
      have written : getBytes (putBytes s.mem.loc a (leBytes size y)) a size = leBytes size y :=
        (congrArg (getBytes _ a) len).symm.trans (getBytes_putBytes hl)
      refine ⟨stored bs, ⟨rfl, rfl, rfl, rfl, rfl, rfl, rfl, rfl, fun b hb => State.store_outside hl (by omega)⟩, rfl, rfl, fun b hb => ?_, fun hu => ?_, ?_⟩
      · exact inside bs b hb
      · exact unread hu
      · exact (congrArg leNat written).trans (leNat_leBytes size y)
    | none =>
      rw [State.atomic_none new]
      exact ⟨stored bs, ⟨rfl, rfl, rfl, rfl, rfl, rfl, rfl, rfl, fun _ _ => rfl⟩, rfl, rfl, inside bs, unread, rfl⟩
  · obtain ⟨five, six, seven, eight⟩ := atomicNew_spec size old x c hold hx
    exact ⟨rfl, rfl, rfl, rfl, rfl, five, six, seven, eight, rfl, fun _ =>
      ⟨⟨_, rfl, f32.maxB_nan old x, f32.maxB_spec old x⟩, ⟨_, rfl, f32.minB_nan old x, f32.minB_spec old x⟩⟩⟩

end Sys2Proof.Machine
end

section
/-! The extracted coordinate, energy charges, and how timelines count. -/

namespace Sys2Proof.Machine

/-- Settles O35: the position of dimension p among the set bits of SCMASK is their count below p, and RANK holds there what
`extract` takes. -/
theorem rankIsTheExtractedCoordinate : Obligations.RankIsTheExtractedCoordinate := by
  unfold Obligations.RankIsTheExtractedCoordinate
  intro s p below
  have bits (i : Nat) : s.ctl.rank.getLsbD i = (setBits s.ctl.scmask)[i]?.any s.ctl.diecoord.getLsbD := by
    rw [BitVec.getLsbD, Ctl.rank_toNat, testBit_extract]
  refine ⟨fun set => ?_, fun i above => ?_⟩
  · obtain ⟨j, hj⟩ := List.getElem?_of_mem (mem_setBits.mpr ⟨p.isLt, set⟩)
    have place : below = j := countP_range_of_filter_getElem? hj
    rw [bits, place, hj]
    rfl
  · have short : (setBits s.ctl.scmask).length ≤ i := by
      rwa [setBits, ← List.countP_eq_length_filter]
    rw [bits, List.getElem?_eq_none short]
    rfl

/-! ## Energy and timelines -/

theorem Timeline.advance_seen : ∀ (n : Nat) (t : Timeline), (advance n t).seen = t.seen
  | 0, _ => rfl
  | n + 1, t => by
    unfold advance
    dsimp only
    split
    · exact advance_seen n _
    · rfl

theorem Timeline.advance_stays {n : Nat} {t : Timeline} (h : t.done.contains (t.count + 1).toNat = false) :
    advance (n + 1) t = t := by
  unfold advance
  simp only [h]
  rfl

theorem Timeline.advance_goes {n : Nat} {t : Timeline} (h : t.done.contains (t.count + 1).toNat = true) :
    advance (n + 1) t =
      advance n { t with count := t.count + 1, done := t.done.filter fun m => decide (m ≠ (t.count + 1).toNat) } := by
  rw [advance]
  simp only [h]
  rfl

theorem State.refill_lines (s : State) (rate : Nat) : (s.refill rate).lines = s.lines := by
  unfold refill
  dsimp only
  split <;> rfl

theorem State.powerClock_lines (s : State) : s.powerClock.lines = s.lines := by
  unfold powerClock
  split
  · exact refill_lines _ _
  · rfl

theorem State.passTime_line (s : State) (p c : Bool) {k : Nat} (hk : k < 11) :
    (s.passTime p c).line k = { s.line k with seen := (s.line k).count } := by
  have clock : (if p then s.powerClock else s).lines = s.lines := by
    split
    · exact s.powerClock_lines
    · rfl
  have mapped : (s.passTime p c).lines = s.lines.map fun t => { t with seen := t.count } :=
    congrArg (Vector.map _) clock
  unfold line
  rw [mapped]
  simp [vget, hk]

theorem State.charge_covered {s : State} {q : Nat} (h : q ≤ s.ctl.enrsv.toNat) :
    s.charge q = { s with ctl.enrsv := s.ctl.enrsv - BitVec.ofNat 64 q } := if_pos h

theorem State.charge_rest {s : State} {q : Nat} (h : ¬ q ≤ s.ctl.enrsv.toNat) :
    s.charge q =
      { s with ctl := { s.ctl with enacct := s.ctl.enacct - (BitVec.ofNat 64 q - s.ctl.enrsv), enrsv := 0 } } := if_neg h

/-- Settles O40: a charge by whether ENRSV covers it; a timeline by the walk of `advance`. -/
theorem energyAndTimelines : Obligations.EnergyAndTimelines := by
  unfold Obligations.EnergyAndTimelines
  refine ⟨fun s q hq => ?_, fun t n => ?_, fun s k p c hk => ⟨s.passTime_line p c hk, ?_, ?_⟩⟩
  · have may : s.ctl.mayCharge q = true ↔ q = 0 ∨ q ≤ s.ctl.enrsv.toNat ∨ 0 < s.ctl.enacct.toInt := by
      simp only [Ctl.mayCharge, Bool.or_eq_true, decide_eq_true_eq, or_assoc]
    by_cases covered : q ≤ s.ctl.enrsv.toNat
    · rw [State.charge_covered covered]
      exact ⟨rfl, fun _ => ⟨rfl, by dsimp only; bv_omega⟩, fun h => absurd h (by omega), may⟩
    · rw [State.charge_rest covered]
      exact ⟨rfl, fun h => absurd h covered, fun _ => ⟨rfl, by dsimp only; bv_omega⟩, may⟩
  · intro next
    refine ⟨fun none => ?_, fun later waits => ?_, fun two => ?_, Timeline.advance_seen _ _⟩
    · have goes := Timeline.advance_goes (n := 0) (t := { t with done := [next] }) (by simp [next])
      have done : t.complete next = { t with count := t.count + 1, done := [] } := by
        rw [Timeline.complete, none]
        exact goes.trans (by simp [Timeline.advance, next])
      rw [done]
      exact ⟨rfl, rfl⟩
    · have past : next ≠ n := by
        intro e
        have := (t.count + 1).isLt
        have : next ≤ t.count.toNat + 1 := by simp only [next]; bv_omega
        omega
      have stays := Timeline.advance_stays (n := t.done.length) (t := { t with done := n :: t.done }) (by simp_all [next])
      rw [Timeline.complete, stays]
      exact ⟨rfl, rfl⟩
    · have apart : (t.count + 2).toNat ≠ next := by simp only [next]; bv_omega
      have first := Timeline.advance_goes (n := 1) (t := { t with done := [next, (t.count + 2).toNat] }) (by simp [next])
      have second := Timeline.advance_goes (n := 0)
        (t := { t with count := t.count + 1, done := [(t.count + 2).toNat] }) (by simp [add_assoc])
      have left : [next, (t.count + 2).toNat].filter (fun m => decide (m ≠ next)) = [(t.count + 2).toNat] := by
        rw [List.filter_cons_of_neg (by simp), List.filter_cons_of_pos (by exact decide_eq_true apart), List.filter_nil]
      have count : t.count + 1 + 1 = t.count + 2 := by bv_omega
      have done : t.complete next = { t with count := t.count + 2, done := [] } := by
        rw [Timeline.complete, two]
        refine first.trans ?_
        simp only [next] at left
        dsimp only
        rw [left]
        refine second.trans ?_
        simp only [Timeline.advance, count]
        simp
      rw [done]
      exact ⟨rfl, rfl⟩
  · rw [ctlNow_ranged (by omega)]
    unfold State.ranged
    iterate 2 rw [if_neg (by omega)]
    rw [if_pos (by omega), Nat.add_sub_cancel_left]
  · rw [ctlNow_ranged (by omega)]
    unfold State.ranged
    iterate 3 rw [if_neg (by omega)]
    rw [if_pos (by omega), Nat.add_sub_cancel_left]

end Sys2Proof.Machine
end

section
/-! The frame of the register-only slots: at issue only results in flight change. -/

namespace Sys2Proof.Machine

/-- `t` is `s` with more results in flight, every one of which satisfies `ok`. -/
def State.Issues (ok : Result → Prop) (s t : State) : Prop :=
  t = { s with stream := { s.stream with results := t.stream.results, seq := t.stream.seq } } ∧
    ∃ rs, t.stream.results = s.stream.results ++ rs ∧ ∀ r ∈ rs, ok r

theorem State.Issues.refl {ok : Result → Prop} (s : State) : s.Issues ok s :=
  ⟨rfl, [], (List.append_nil _).symm, fun _ h => absurd h List.not_mem_nil⟩

theorem State.Issues.trans {ok : Result → Prop} {s t u : State} (h : s.Issues ok t) (k : t.Issues ok u) : s.Issues ok u := by
  obtain ⟨ht, rs, more, all⟩ := h
  obtain ⟨hu, rs', more', all'⟩ := k
  refine ⟨?_, rs ++ rs', by rw [more', more, List.append_assoc], fun r hr => (List.mem_append.mp hr).elim (all r) (all' r)⟩
  rw [hu, ht]

theorem State.push_issues {ok : Result → Prop} {s : State} {n : Nat} {l : Landing} {f : BitVec 6} {m : W16}
    (h : ok { seq := s.stream.seq, rem := n, land := l, flags := f, sat := m }) : s.Issues ok (s.push n l f m) :=
  ⟨rfl, _, rfl, fun _ hr => List.mem_singleton.mp hr ▸ h⟩

/-- A slot without a fault answers its state or its effect. -/
theorem State.slot_answers {s t : State} {g : BitVec 4} {f : State → State} {P : State → Prop} (h : s.slot g none f = .next t)
    (same : P s) (acts : P (f s)) : P t := by
  unfold slot at h
  split at h
  all_goals
    cases h
    assumption

/-- A result that a register takes and that sets no flag. -/
def Result.plain (r : Result) : Prop := r.flags = 0 ∧ r.sat = 0 ∧ r.land.isRegister = true

/-- A result that a register takes. -/
def Result.register (r : Result) : Prop := r.sat = 0 ∧ r.land.isRegister = true

theorem State.slot_put_issues {s t : State} {g : BitVec 4} {n : Nat} {l : State → Landing}
    (h : s.slot g none (fun s => s.put n (l s)) = .next t) (reg : (l s).isRegister = true) : s.Issues Result.plain t :=
  slot_answers h (.refl s) (push_issues ⟨rfl, rfl, reg⟩)

theorem State.slotS_issues {s t : State} {g : BitVec 4} {n : Nat} {d : BitVec 5} {x : W64}
    (h : s.slotS g n d x = .next t) : s.Issues Result.plain t := slot_put_issues h rfl

theorem State.slotCmp_issues {s t : State} {g h : BitVec 4} {c : Bool} (e : s.slotCmp g h c = .next t) :
    s.Issues Result.plain t :=
  slot_answers e (.refl s) ((push_issues ⟨rfl, rfl, rfl⟩).trans (push_issues ⟨rfl, rfl, rfl⟩))

theorem scalarOnly_issues {i : Instr} {s t : State} (hi : i.scalarOnly = true) (h : exec i s = .next t) :
    s.Issues Result.plain t := by
  unfold Instr.scalarOnly at hi
  split at hi
  all_goals unfold exec at h
  all_goals first | exact State.slotS_issues h | exact State.slotCmp_issues h | exact State.slot_put_issues h rfl | cases hi

/-! ## Vector slots -/

/-- `t` is `s` with a further state of the stochastic generator and more results in flight. -/
def State.Draws (s t : State) : Prop := ∃ x, State.Issues Result.register { s with ctl.srstate := x } t

theorem State.Issues.draws {s t : State} (h : s.Issues Result.register t) : s.Draws t := ⟨s.ctl.srstate, h⟩

theorem State.Draws.refl (s : State) : s.Draws s := (Issues.refl s).draws

theorem State.push_register {s : State} {n : Nat} {l : Landing} {f : BitVec 6} (reg : l.isRegister = true) :
    s.Draws (s.push n l f 0) := (push_issues ⟨rfl, reg⟩).draws

theorem State.takeDraws_state (s : State) (m : Rnd) (n : Nat) : ∃ x, (s.takeDraws m n).2 = { s with ctl.srstate := x } := by
  unfold takeDraws
  split
  · exact ⟨_, rfl⟩
  · exact ⟨s.ctl.srstate, rfl⟩

/-- A result put in flight after draws are taken. -/
theorem State.takeDraws_push {s : State} {m : Rnd} {k n : Nat} {l : Landing} {f : BitVec 6} (reg : l.isRegister = true) :
    s.Draws ((s.takeDraws m k).2.push n l f 0) := by
  obtain ⟨x, hx⟩ := s.takeDraws_state m k
  rw [hx]
  exact ⟨x, push_issues ⟨rfl, reg⟩⟩

theorem State.slot_push_draws {s t : State} {g : BitVec 4} {n : Nat} {l : State → Landing} {f : State → BitVec 6}
    (h : s.slot g none (fun s => s.push n (l s) (f s) 0) = .next t) (reg : (l s).isRegister = true) : s.Draws t :=
  slot_answers h (.refl s) (push_register reg)

theorem State.slot_vput_draws {s t : State} {g : BitVec 4} {n : Nat} {d : BitVec 5} {m : State → BitVec 1024}
    {f : State → Nat → W32 × BitVec 6} (h : s.slot g none (fun s => s.vput n d (m s) (f s)) = .next t) : s.Draws t :=
  slot_push_draws h rfl

theorem State.slotV2_draws {s t : State} {g : BitVec 4} {n : Nat} {d a b : BitVec 5} {k : BitVec 3}
    {f : W32 → W32 → W32 × BitVec 6} (h : s.slotV2 g n d a b k f = .next t) : s.Draws t := slot_vput_draws h

theorem State.slotV3_draws {s t : State} {g : BitVec 4} {n : Nat} {d a b c : BitVec 5} {k : BitVec 3}
    {f : W32 → W32 → W32 → W32 × BitVec 6} (h : s.slotV3 g n d a b c k f = .next t) : s.Draws t := slot_vput_draws h

theorem State.slotCvt_draws {s t : State} {g : BitVec 4} {d a : BitVec 5} {m : BitVec 2} {k : BitVec 3}
    {f : Nat → Nat → Nat × BitVec 6} (h : s.slotCvt g d a m k f = .next t) : s.Draws t :=
  slot_answers h (.refl s) (takeDraws_push rfl)

theorem State.slotNarrow_draws {s t : State} {g : BitVec 4} {d a : BitVec 5} {m : BitVec 2} {k : BitVec 3} {w : Nat}
    {f : Nat → Nat → Nat × BitVec 6} (h : s.slotNarrow g d a m k w f = .next t) : s.Draws t :=
  slot_answers h (.refl s) (takeDraws_push rfl)

theorem State.slotVcmp_draws {s t : State} {g : BitVec 4} {h : BitVec 3} {a b : BitVec 5} {k : BitVec 3}
    {f : W32 → W32 → Bool} (e : s.slotVcmp g h a b k f = .next t) : s.Draws t :=
  slot_answers e (.refl s) (push_register rfl)

/-- The results of a widening form, one for each register that it writes. -/
theorem State.foldl_issues {α : Type} {ok : Result → Prop} {f : State → α → State} (h : ∀ (s : State) (a : α), s.Issues ok (f s a)) :
    ∀ (l : List α) (s : State), s.Issues ok (l.foldl f s)
  | [], s => .refl s
  | a :: l, s => (h s a).trans (foldl_issues h l (f s a))

theorem vectorOnly_draws {i : Instr} {s t : State} (hi : i.vectorOnly = true) (h : exec i s = .next t) : s.Draws t := by
  unfold Instr.vectorOnly at hi
  split at hi
  all_goals unfold exec at h
  case h_39 | h_40 | h_41 | h_42 => exact State.slotCvt_draws h
  case h_43 | h_44 | h_45 | h_46 => exact State.slotNarrow_draws h
  case h_47 =>
    exact State.slot_answers h (.refl s)
      (State.foldl_issues (ok := Result.register) (fun _ _ => State.push_issues ⟨rfl, rfl⟩) _ _).draws
  case h_48 => exact State.slot_answers h (.refl s) (State.takeDraws_push rfl)
  case h_50 | h_51 | h_52 => exact State.slotVcmp_draws h
  case h_53 | h_57 => exact State.slot_push_draws h rfl
  case h_37 | h_38 | h_49 | h_54 | h_55 | h_56 => exact State.slot_vput_draws h
  case h_58 => cases hi
  case h_26 | h_27 | h_33 | h_36 => exact State.slotV3_draws h
  all_goals exact State.slotV2_draws h

/-- Settles O13: every scalar form is a slot of one or two results, every vector form a slot of its draws and results. -/
theorem registerSlotFrame : Obligations.RegisterSlotFrame := by
  unfold Obligations.RegisterSlotFrame
  refine ⟨fun i s t hi h => scalarOnly_issues hi h, fun i s t hi h => ?_⟩
  obtain ⟨x, ht, rs, more, all⟩ := vectorOnly_draws hi h
  have state : t.ctl.srstate = x := by rw [ht]
  exact ⟨state ▸ ht, rs, more, all⟩

end Sys2Proof.Machine
end

section
/-! Integer vector forms: elements of a lane, wrapping and clamping. -/

namespace Sys2Proof.Machine

/-! ## Lanes without flags -/

theorem foldl_flags_zero (l : List Nat) (p : Nat → Bool) (f : BitVec 6) :
    l.foldl (fun fl j => if p j then fl ||| (0 : BitVec 6) else fl) f = f := by
  simp

/-- A vector result without flags. -/
theorem State.vput_plain (s : State) (lat : Nat) (d : BitVec 5) (m : BitVec 1024) (f : Nat → W32) :
    s.vput lat d m (fun j => (f j, 0)) = s.inFlight lat (.v d m (Vector.ofFn fun j : Fin 1024 => f j)) 0 := by
  unfold vput
  rw [foldl_flags_zero]
  rfl

theorem State.slot_vput_plain (s : State) (g : BitVec 4) (lat : Nat) (d : BitVec 5) (k : BitVec 3) (f : State → Nat → W32) :
    (s.slot g none fun t => t.vput lat d (t.regs.rk k) fun j => (f t j, 0)) =
      .next (s.guarded g (s.inFlight lat (.v d (s.regs.rk k) (Vector.ofFn fun j : Fin 1024 => f s j)) 0)) := by
  rw [← vput_plain]
  exact State.slot_none

theorem State.slotV2_op32 (s : State) (g : BitVec 4) (d a b : BitVec 5) (k : BitVec 3) {f h : W32 → W32 → W32}
    (eq : ∀ x y, f x y = h x y := by intros; rfl) :
    s.slotV2 g 2 d a b k (op32 f) = .next (s.guarded g (s.inFlight 2 (.v d (s.regs.rk k)
      (Vector.ofFn fun j : Fin 1024 => h (s.regs.rv a)[j] (s.regs.rv b)[j])) 0)) := by
  have values : (fun j : Fin 1024 => h (s.regs.rv a)[j] (s.regs.rv b)[j]) =
      fun j : Fin 1024 => f (lane (s.regs.rv a) j) (lane (s.regs.rv b) j) := by
    funext j
    rw [lane_eq_getElem, lane_eq_getElem, eq]
  rw [values]
  exact s.slot_vput_plain g 2 d k fun t j => f (lane (t.regs.rv a) j) (lane (t.regs.rv b) j)

theorem State.slotV2_vectorResult (s : State) (g : BitVec 4) (lat : Nat) (d a b : BitVec 5) (k : BitVec 3)
    (f : W32 → W32 → W32 × BitVec 6) :
    VectorResult s s g lat d k (fun j => f (s.regs.rv a)[j] (s.regs.rv b)[j]) (s.slotV2 g lat d a b k f) := by
  simpa only [lane_eq_getElem, State.slotV2] using s.slot_vput_vectorResult g lat d k fun t j =>
    f (lane (t.regs.rv a) j) (lane (t.regs.rv b) j)

/-! ## Elements of a lane (R56) -/

theorem packLane_lt (w : Nat) : ∀ l : List Nat, packLane w l < 2 ^ (w * l.length)
  | [] => Nat.one_pos
  | e :: r => by
    have low := Nat.mod_lt e (Nat.two_pow_pos w)
    have high := packLane_lt w r
    rw [packLane, List.length_cons, Nat.mul_succ, Nat.add_comm (w * r.length), Nat.pow_add]
    calc e % 2 ^ w + 2 ^ w * packLane w r < 2 ^ w * (packLane w r + 1) := by rw [Nat.mul_succ]; omega
      _ ≤ 2 ^ w * 2 ^ (w * r.length) := Nat.mul_le_mul_left _ high

/-- Element `i` of a packed lane is the value given for it. -/
theorem packLane_elem (w : Nat) : ∀ (l : List Nat) (i : Nat) (h : i < l.length),
    packLane w l / 2 ^ (w * i) % 2 ^ w = l[i] % 2 ^ w
  | [], _, h => absurd h (Nat.not_lt_zero _)
  | e :: r, 0, _ => by simp [packLane, Nat.add_mul_mod_self_left]
  | e :: r, i + 1, h => by
    have low := Nat.mod_lt e (Nat.two_pow_pos w)
    have rest : packLane w (e :: r) / 2 ^ w = packLane w r := by
      rw [packLane, Nat.add_mul_div_left _ _ (Nat.two_pow_pos w), Nat.div_eq_of_lt low, Nat.zero_add]
    rw [Nat.mul_succ, Nat.add_comm, Nat.pow_add, ← Nat.div_div_eq_div_mul, rest]
    exact packLane_elem w r i (by simpa using h)

theorem elemOf_packLane {w : Nat} {l : List Nat} {i : Nat} (fits : w * l.length ≤ 32) (h : i < l.length) :
    elemOf w (BitVec.ofNat 32 (packLane w l)) i = l[i] % 2 ^ w := by
  have small : packLane w l < 2 ^ 32 := (packLane_lt w l).trans_le (Nat.pow_le_pow_right (by decide) fits)
  rw [elemOf, BitVec.toNat_ofNat, Nat.mod_eq_of_lt small, packLane_elem w l i h]

/-- Element `i` of a packed operation is that of the elements `i`. -/
theorem elemOf_packed {w : Nat} {f : Nat → Nat → Nat × BitVec 6} {x y : W32} {i : Nat} (hi : i < 32 / w) :
    elemOf w (packed w f x y).1 i = (f (elemOf w x i) (elemOf w y i)).1 % 2 ^ w := by
  unfold packed
  rw [elemOf_packLane (by simpa using Nat.mul_div_le 32 w) (by simpa using hi)]
  simp

/-- Flags of which each is one flag or none are that flag where one of them is. -/
theorem foldl_or_flag {α : Type} (p : α → Prop) [DecidablePred p] (F : BitVec 6) : ∀ (l : List α) (f : α → BitVec 6) (init : BitVec 6),
    (∀ a ∈ l, f a = if p a then F else 0) →
    l.foldl (fun fl a => fl ||| f a) init = init ||| if ∃ a ∈ l, p a then F else 0
  | [], _, _, _ => by simp
  | a :: l, f, init, h => by
    rw [List.foldl_cons, foldl_or_flag p F l f _ fun b hb => h b (List.mem_cons_of_mem _ hb), h a List.mem_cons_self]
    by_cases ha : p a
    · by_cases hl : ∃ b ∈ l, p b <;> simp [ha, hl, BitVec.or_assoc]
    · simp [ha]

theorem packed_flags {w : Nat} {f : Nat → Nat → Nat × BitVec 6} {x y : W32} (p : Nat → Prop) [DecidablePred p]
    {F : BitVec 6} (h : ∀ i < 32 / w, (f (elemOf w x i) (elemOf w y i)).2 = if p i then F else 0) :
    (packed w f x y).2 = if ∃ i < 32 / w, p i then F else 0 := by
  unfold packed
  dsimp only
  rw [List.foldl_map, foldl_or_flag p F _ _ _ fun i hi => h i (List.mem_range.mp hi)]
  simp only [List.mem_range, BitVec.zero_or, BitVec.ofNat_eq_ofNat]

theorem packed_flags_zero {w : Nat} {f : Nat → Nat → Nat × BitVec 6} {x y : W32}
    (h : ∀ i < 32 / w, (f (elemOf w x i) (elemOf w y i)).2 = 0) : (packed w f x y).2 = 0 := by
  rw [packed_flags (fun _ => False) (F := 0) fun i hi => (h i hi).trans (if_neg not_false).symm]
  simp

/-! ## Wrapping and clamping (R225) -/

/-- The signed value of a code of `w` bits. -/
def signedCode (w n : Nat) : Int := if n < 2 ^ (w - 1) then n else (n : Int) - 2 ^ w

/-- A clamped code has the clamped value, and the flag where that is another. -/
theorem clampInt_spec {w : Nat} (hw : w = 8 ∨ w = 16) (x : Int) :
    (clampInt w true x).1 < 2 ^ w ∧
      signedCode w (clampInt w true x).1 = max (-2 ^ (w - 1)) (min x (2 ^ (w - 1) - 1)) ∧
      (clampInt w true x).2 = if x < -2 ^ (w - 1) ∨ 2 ^ (w - 1) ≤ x then Flag.saturated else 0 := by
  rcases hw with rfl | rfl
  all_goals
    simp only [clampInt, intRange, wrap, signedCode, if_true]
    split_ifs <;> simp <;> omega

/-- A packed form that wraps: each element is an integer operation on the elements, modulo 2^w, without a flag. -/
theorem State.slotV2_wraps {s : State} {g : BitVec 4} {d a b : BitVec 5} {k : BitVec 3} {w : Nat}
    {f : Nat → Nat → Nat × BitVec 6} {h : Int → Int → Int}
    (value : ∀ x y, x < 2 ^ w → y < 2 ^ w → (((f x y).1 % 2 ^ w : Nat) : Int) = h x y % 2 ^ w) (plain : ∀ x y, (f x y).2 = 0) :
    ∃ z : Fin 1024 → W32, VectorResult s s g 2 d k (fun j => (z j, 0)) (s.slotV2 g 2 d a b k (packed w f)) ∧
      ∀ j : Fin 1024, ∀ i < 32 / w,
        (elemOf w (z j) i : Int) = h (elemOf w (s.regs.rv a)[j] i) (elemOf w (s.regs.rv b)[j] i) % 2 ^ w := by
  refine ⟨fun j => (packed w f (s.regs.rv a)[j] (s.regs.rv b)[j]).1, ?_, fun j i hi => ?_⟩
  · have lanes : (fun j : Fin 1024 => packed w f (s.regs.rv a)[j] (s.regs.rv b)[j]) =
        fun j => ((packed w f (s.regs.rv a)[j] (s.regs.rv b)[j]).1, 0) :=
      funext fun j => Prod.ext rfl (packed_flags_zero fun _ _ => plain _ _)
    exact lanes ▸ s.slotV2_vectorResult g 2 d a b k (packed w f)
  · rw [elemOf_packed hi]
    exact value _ _ (elemOf_lt ..) (elemOf_lt ..)

/-- A packed form that clamps an integer operation on the signed elements. -/
theorem State.slotV2_clamps {s : State} {g : BitVec 4} {d a b : BitVec 5} {k : BitVec 3} {w : Nat} (hw : w = 8 ∨ w = 16)
    {f : Nat → Nat → Nat × BitVec 6} {h : Int → Int → Int}
    (value : ∀ x y, x < 2 ^ w → y < 2 ^ w → f x y = clampInt w true (h (signedCode w x) (signedCode w y))) :
    ∃ z : Fin 1024 → W32 × BitVec 6, VectorResult s s g 2 d k z (s.slotV2 g 2 d a b k (packed w f)) ∧
      ∀ j : Fin 1024,
        let e (i : Nat) : Int := h (signedCode w (elemOf w (s.regs.rv a)[j] i)) (signedCode w (elemOf w (s.regs.rv b)[j] i))
        (∀ i < 32 / w, signedCode w (elemOf w (z j).1 i) = max (-2 ^ (w - 1)) (min (e i) (2 ^ (w - 1) - 1))) ∧
          (z j).2 = if ∃ i < 32 / w, e i < -2 ^ (w - 1) ∨ 2 ^ (w - 1) ≤ e i then Flag.saturated else 0 := by
  refine ⟨_, s.slotV2_vectorResult g 2 d a b k (packed w f), fun j => ?_⟩
  intro e
  have elem (i : Nat) : f (elemOf w (s.regs.rv a)[j] i) (elemOf w (s.regs.rv b)[j] i) = clampInt w true (e i) :=
    value _ _ (elemOf_lt ..) (elemOf_lt ..)
  have spec (i : Nat) := clampInt_spec hw (e i)
  refine ⟨fun i hi => ?_, packed_flags (fun i => e i < -2 ^ (w - 1) ∨ 2 ^ (w - 1) ≤ e i) fun i _ => ?_⟩
  · obtain ⟨fits, clamped, -⟩ := spec i
    rw [elemOf_packed hi, elem, Nat.mod_eq_of_lt fits, clamped]
  · obtain ⟨-, -, flag⟩ := spec i
    rw [elem, flag]

theorem addW_value (w x y : Nat) : (((addW w x y).1 % 2 ^ w : Nat) : Int) = ((x : Int) + y) % 2 ^ w := by
  simp [addW]

theorem subW_value {w x y : Nat} (hy : y < 2 ^ w) : (((subW w x y).1 % 2 ^ w : Nat) : Int) = ((x : Int) - y) % 2 ^ w := by
  unfold subW
  rw [Nat.mod_mod, Int.natCast_emod, Nat.cast_sub (by omega)]
  push_cast
  rw [show (x : Int) + 2 ^ w - y = x - y + 2 ^ w by ring, Int.add_emod_right]

theorem toSigned_eq_signedCode {w n : Nat} (h : n < 2 ^ w) : toSigned w n = signedCode w n := by
  rw [toSigned, Nat.mod_eq_of_lt h, signedCode]

theorem slt_min (x y : W32) : (if y.slt x then y else x) = BitVec.ofInt 32 (min x.toInt y.toInt) := by
  rw [min_comm, min_def_lt, apply_ite (BitVec.ofInt 32), BitVec.ofInt_toInt, BitVec.ofInt_toInt]
  simp only [BitVec.slt, decide_eq_true_eq]

theorem slt_max (x y : W32) : (if x.slt y then y else x) = BitVec.ofInt 32 (max x.toInt y.toInt) := by
  rw [max_def_lt, apply_ite (BitVec.ofInt 32), BitVec.ofInt_toInt, BitVec.ofInt_toInt]
  simp only [BitVec.slt, decide_eq_true_eq]

theorem ult_min (x y : W32) : (if y.ult x then y else x) = BitVec.ofNat 32 (min x.toNat y.toNat) := by
  rw [min_comm, min_def_lt, apply_ite (BitVec.ofNat 32), BitVec.ofNat_toNat, BitVec.ofNat_toNat]
  simp only [BitVec.ult, decide_eq_true_eq, BitVec.setWidth_eq]

theorem ult_max (x y : W32) : (if x.ult y then y else x) = BitVec.ofNat 32 (max x.toNat y.toNat) := by
  rw [max_def_lt, apply_ite (BitVec.ofNat 32), BitVec.ofNat_toNat, BitVec.ofNat_toNat]
  simp only [BitVec.ult, decide_eq_true_eq, BitVec.setWidth_eq]

/-- Settles O14: the 32-bit forms lane by lane; the packed forms element by element, by `packLane_elem`. -/
theorem vectorInteger : Obligations.VectorInteger := by
  unfold Obligations.VectorInteger
  refine ⟨fun s g d a b k => ?_, fun s g d a b k => ?_⟩
  · intro gives
    have plain (f h : W32 → W32 → W32) (r : Out) (hr : r = s.slotV2 g 2 d a b k (op32 f)) (eq : ∀ x y, f x y = h x y) :
        gives h r := hr.trans (s.slotV2_op32 g d a b k eq)
    refine ⟨?_, ?_, ?_, ?_, ?_, ?_, ?_, ?_, ?_, ?_, ?_, ?_, ?_, ?_⟩
    case refine_4 => exact plain (fun x y => x &&& ~~~y) (fun x y => x &&& ~~~y) (exec (.vandn g d a b k) s) rfl fun _ _ => rfl
    case refine_12 =>
      exact plain (fun x y => x <<< (y.toNat % 32)) (fun x y => x <<< (y.toNat % 32)) (exec (.vshlI32 g d a b k) s) rfl
        fun _ _ => rfl
    case refine_13 =>
      exact plain (fun x y => x >>> (y.toNat % 32)) (fun x y => x >>> (y.toNat % 32)) (exec (.vshrN32 g d a b k) s) rfl
        fun _ _ => rfl
    case refine_14 =>
      exact plain (fun x y => x.sshiftRight (y.toNat % 32)) (fun x y => x.sshiftRight (y.toNat % 32))
        (exec (.vsarI32 g d a b k) s) rfl fun _ _ => rfl
    case refine_8 =>
      exact plain (fun x y => if y.slt x then y else x) (fun x y => BitVec.ofInt 32 (min x.toInt y.toInt))
        (exec (.vminI32 g d a b k) s) rfl slt_min
    case refine_9 =>
      exact plain (fun x y => if x.slt y then y else x) (fun x y => BitVec.ofInt 32 (max x.toInt y.toInt))
        (exec (.vmaxI32 g d a b k) s) rfl slt_max
    case refine_10 =>
      exact plain (fun x y => if y.ult x then y else x) (fun x y => BitVec.ofNat 32 (min x.toNat y.toNat))
        (exec (.vminN32 g d a b k) s) rfl ult_min
    case refine_11 =>
      exact plain (fun x y => if x.ult y then y else x) (fun x y => BitVec.ofNat 32 (max x.toNat y.toNat))
        (exec (.vmaxN32 g d a b k) s) rfl ult_max
    all_goals exact plain _ _ _ rfl fun _ _ => rfl
  · intro el signed wraps clamps
    have add (w : Nat) : wraps w (fun x y => x + y) (s.slotV2 g 2 d a b k (packed w (addW w))) :=
      State.slotV2_wraps (fun x y _ _ => addW_value w x y) fun _ _ => rfl
    have sub (w : Nat) : wraps w (fun x y => x - y) (s.slotV2 g 2 d a b k (packed w (subW w))) :=
      State.slotV2_wraps (fun x y _ hy => subW_value hy) fun _ _ => rfl
    have adds {w : Nat} (hw : w = 8 ∨ w = 16) :
        clamps w (fun x y => x + y) (s.slotV2 g 2 d a b k (packed w (addsW w))) :=
      State.slotV2_clamps hw fun x y hx hy => by rw [addsW, toSigned_eq_signedCode hx, toSigned_eq_signedCode hy]
    have subs {w : Nat} (hw : w = 8 ∨ w = 16) :
        clamps w (fun x y => x - y) (s.slotV2 g 2 d a b k (packed w (subsW w))) :=
      State.slotV2_clamps hw fun x y hx hy => by rw [subsW, toSigned_eq_signedCode hx, toSigned_eq_signedCode hy]
    exact ⟨add 16, sub 16, add 8, sub 8, adds (.inr rfl), subs (.inr rfl), adds (.inl rfl), subs (.inl rfl)⟩

end Sys2Proof.Machine
end

section
/-! Loads, stores and atomics of the control stream: the effective address, the working store, and shared SRAM. -/

namespace Sys2Proof.Machine

/-! ## The effective address (R220) -/

theorem toNat_ofInt_mul (o : Int) (n : Nat) :
    (BitVec.ofInt 64 o * BitVec.ofNat 64 n).toNat = (o * n % 2 ^ 64).toNat := by
  rw [← BitVec.ofInt_natCast, ← BitVec.ofInt_mul, BitVec.toNat_ofInt]
  rfl

theorem immS_eq_ofInt (o : BitVec 18) : immS o = BitVec.ofInt 64 o.toInt := rfl

theorem State.ea_eq (s : State) (a : BitVec 4) (x : W64) (o : Int) (n : Nat) (hx : x = BitVec.ofInt 64 o) :
    s.ea a x n = ((s.regs.ra a).toNat + (o * n % 2 ^ 64).toNat) % 2 ^ 64 / n * n := by
  unfold ea
  rw [hx, BitVec.toNat_add, toNat_ofInt_mul, Nat.div_mul_self_eq_mod_sub_self]

/-! ## Regions (R11, R27) -/

theorem streamFault_ws {a : Nat} {ld wr : Bool} (lo : 0x10000000 ≤ a) (hi : a < 0x18000000) : streamFault a ld wr = none := by
  unfold streamFault streamCause
  rw [region_ws lo hi]
  rfl

theorem region_sram {a : Nat} (h : a < 0x10000000) : region a = .sram := if_pos h

theorem region_code {a : Nat} (lo : 0x18000000 ≤ a) (hi : a < 0x18080000) : region a = .code := by
  unfold region
  rw [if_neg (by omega), if_neg (by omega), if_pos hi]

theorem streamFault_sram {a : Nat} {ld wr : Bool} (h : a < 0x10000000) : streamFault a ld wr = none := by
  unfold streamFault streamCause
  rw [region_sram h]
  rfl

theorem streamFault_code {a : Nat} {wr : Bool} (lo : 0x18000000 ≤ a) (hi : a < 0x18080000) :
    streamFault a true wr = none := by
  unfold streamFault streamCause
  rw [region_code lo hi]
  rfl

/-- What a scalar load may read without a fault, and is not shared SRAM. -/
theorem scalarLoad_local {a : Nat} (lo : 0x10000000 ≤ a) (hi : a < 0x18080000) :
    region a ≠ .sram ∧ streamFault a true false = none := by
  rcases Nat.lt_or_ge a 0x18000000 with h | h
  · exact ⟨by rw [region_ws lo h]; decide, streamFault_ws lo h⟩
  · exact ⟨by rw [region_code h hi]; decide, streamFault_code h hi⟩

theorem ws_local {a : Nat} {wr : Bool} (lo : 0x10000000 ≤ a) (hi : a < 0x18000000) :
    region a ≠ .sram ∧ streamFault a false wr = none :=
  ⟨by rw [region_ws lo hi]; decide, streamFault_ws lo hi⟩

/-! ## Slots of accesses -/

/-- An access of shared SRAM, in flight (R35, R38, R221). -/
def State.toSram (s : State) (k : SramKind) (a n lands : Nat) (d : LoadDest) (bs : List Byte) : State :=
  { s with stream := { s.stream with
      sram := s.stream.sram ++ [{
        seq := s.stream.seq, kind := k, addr := a, size := n, part := 0, performIn := 8 + 2 * hops a, landIn := lands,
        dest := d, bytes := bs, performed := false }],
      seq := s.stream.seq + 1 } }

theorem State.toSram_counts (s : State) (k : SramKind) (a n lands : Nat) (d : LoadDest) (bs : List Byte) :
    (s.toSram k a n lands d bs).stream.ocld = s.stream.ocld + (if k = .store then 0 else 1) ∧
      (s.toSram k a n lands d bs).stream.ocst = s.stream.ocst + (if k = .store then 1 else 0) := by
  by_cases hk : k = .store <;> simp [toSram, Stream.ocld, Stream.ocst, hk]

theorem State.startLoad_sram {s : State} {a n : Nat} {d : LoadDest} (h : a < 0x10000000) :
    s.startLoad a n d = s.toSram .load a n (13 + 2 * hops a) d [] := if_pos (region_sram h)

theorem State.startStore_sram {s : State} {a : Nat} {bs : List Byte} (h : a < 0x10000000) :
    s.startStore a bs = s.toSram .store a bs.length 0 .none bs := if_pos (region_sram h)

theorem State.startAtomic_sram {s : State} {op : BitVec 4} {d : BitVec 5} {a n : Nat} {x c : W64} (h : a < 0x10000000) :
    s.startAtomic op d a n x c = s.toSram (.atomic op c) a n (15 + 2 * hops a) (.s d) (leBytes n x.toNat) :=
  if_pos (region_sram h)

/-- A slot without a fault whose access is followed by the post-increment. -/
theorem State.slot_access {s t : State} {g : BitVec 4} {x : Option SFault} {f : State → State} {a : BitVec 4} {u : BitVec 1}
    (fits : x = none) (acts : f s = t) : s.slot g x (fun s => (f s).postInc a u) = .next (s.guarded g (t.postInc a u)) := by
  rw [fits, ← acts]
  exact slot_none

theorem State.slotLoad_local {s : State} {g : BitVec 4} {n e : Nat} {d : BitVec 5} {a : BitVec 4} {u : BitVec 1} {off : BitVec 18}
    (he : s.ea a (immS off) n = e) (lo : 0x10000000 ≤ e) (hi : e < 0x18080000) :
    s.slotLoad g n d a u off =
      .next (s.guarded g ((s.inFlight 6 (.s d (BitVec.ofNat 64 (leNat (s.load e n)))) 0).postInc a u)) := by
  subst he
  obtain ⟨other, fits⟩ := scalarLoad_local lo hi
  unfold slotLoad
  exact slot_access (f := fun s => s.startLoad _ n (.s d)) fits (startLoad_local other)

theorem State.slotStore_local {s : State} {g : BitVec 4} {n e : Nat} {d : BitVec 5} {a : BitVec 4} {u : BitVec 1} {off : BitVec 18}
    (he : s.ea a (immS off) n = e) (lo : 0x10000000 ≤ e) (hi : e < 0x18000000) :
    s.slotStore g n d a u off =
      .next (s.guarded g ((s.inFlight 1 (.wstore e (leBytes n (s.regs.rs d).toNat)) 0).postInc a u)) := by
  subst he
  obtain ⟨other, fits⟩ := ws_local lo hi
  unfold slotStore
  exact slot_access (f := fun t => t.startStore _ (leBytes n (t.regs.rs d).toNat)) fits (startStore_local other)

theorem State.slotAtomic_local {s : State} {g : BitVec 4} {n e : Nat} {d : BitVec 5} {a : BitVec 4} {u : BitVec 1} {op : BitVec 4}
    {off : BitVec 6} (he : s.ea a (off.signExtend 64) n = e) (lo : 0x10000000 ≤ e) (hi : e < 0x18000000) :
    s.slotAtomic g n d a u op off =
      .next (s.guarded g ((s.inFlight 1 (.watomic op d e n (s.regs.rs d) (s.regs.rs (d + 1))) 0).postInc a u)) := by
  subst he
  obtain ⟨other, fits⟩ := ws_local lo hi
  unfold slotAtomic
  exact slot_access (f := fun t => t.startAtomic op d _ n (t.regs.rs d) (t.regs.rs (d + 1))) fits (startAtomic_local other)

theorem State.slotLoad_sram {s : State} {g : BitVec 4} {n e : Nat} {d : BitVec 5} {a : BitVec 4} {u : BitVec 1} {off : BitVec 18}
    (he : s.ea a (immS off) n = e) (h : e < 0x10000000) :
    s.slotLoad g n d a u off = .next (s.guarded g ((s.toSram .load e n (13 + 2 * hops e) (.s d) []).postInc a u)) := by
  subst he
  unfold slotLoad
  exact slot_access (f := fun t => t.startLoad _ n (.s d)) (streamFault_sram h) (startLoad_sram h)

theorem State.slotStore_sram {s : State} {g : BitVec 4} {n e : Nat} {d : BitVec 5} {a : BitVec 4} {u : BitVec 1} {off : BitVec 18}
    (he : s.ea a (immS off) n = e) (h : e < 0x10000000) :
    s.slotStore g n d a u off =
      .next (s.guarded g ((s.toSram .store e n 0 .none (leBytes n (s.regs.rs d).toNat)).postInc a u)) := by
  subst he
  unfold slotStore
  refine slot_access (f := fun t => t.startStore _ (leBytes n (t.regs.rs d).toNat)) (streamFault_sram h)
    ((startStore_sram h).trans ?_)
  rw [leBytes_length]

theorem State.slotAtomic_sram {s : State} {g : BitVec 4} {n e : Nat} {d : BitVec 5} {a : BitVec 4} {u : BitVec 1} {op : BitVec 4}
    {off : BitVec 6} (he : s.ea a (off.signExtend 64) n = e) (h : e < 0x10000000) :
    s.slotAtomic g n d a u op off =
      .next (s.guarded g ((s.toSram (.atomic op (s.regs.rs (d + 1))) e n (15 + 2 * hops e) (.s d)
        (leBytes n (s.regs.rs d).toNat)).postInc a u)) := by
  subst he
  unfold slotAtomic
  exact slot_access (f := fun t => t.startAtomic op d _ n (t.regs.rs d) (t.regs.rs (d + 1))) (streamFault_sram h)
    (startAtomic_sram h)

/-! ## One access of shared SRAM, cycle by cycle (R35 to R38) -/

theorem State.performSram_waits {s : State} {o : SramOp} (h : o.performed = true ∨ 0 < o.performIn) :
    s.performSram o = (s, some o) := if_pos h

theorem SramOp.landsNow_false {o : SramOp} (h : o.performed = false ∨ 0 < o.landIn) : o.landsNow = false := by
  rcases h with h | h <;> simp [landsNow, h]
  omega

theorem State.sramCycle_one {s : State} {o : SramOp} (hs : s.stream.sram = [o]) {t : State} {p : SramOp}
    (acts : s.performSram o = (t, some p)) :
    s.sramCycle = if p.landsNow then ({ t with stream.sram := [] }, [p.result])
      else ({ t with stream.sram := [{ p with performIn := p.performIn - 1, landIn := p.landIn - 1 }] }, []) := by
  unfold sramCycle
  rw [hs]
  simp only [performAll, acts]
  cases h : p.landsNow <;> simp [h]

/-- An access whose value does not land in this cycle counts down. -/
theorem State.sramCycle_stays {s : State} {o : SramOp} (hs : s.stream.sram = [o]) {t : State} {p : SramOp}
    (acts : s.performSram o = (t, some p)) (h : p.performed = false ∨ 0 < p.landIn) :
    s.sramCycle = ({ t with stream.sram := [{ p with performIn := p.performIn - 1, landIn := p.landIn - 1 }] }, []) := by
  rw [sramCycle_one hs acts, SramOp.landsNow_false h]
  rfl

theorem State.sramCycle_lands {s : State} {o : SramOp} (hs : s.stream.sram = [o]) {t : State} {p : SramOp}
    (acts : s.performSram o = (t, some p)) (h : p.landsNow = true) :
    s.sramCycle = ({ t with stream.sram := [] }, [p.result]) := by
  rw [sramCycle_one hs acts, h]
  rfl

theorem State.performSram_load {s : State} {o : SramOp} (fresh : o.performed = false) (due : o.performIn = 0)
    (kind : o.kind = .load) :
    s.performSram o = (s, some { o with performed := true, bytes := s.load o.addr o.size }) := by
  simp [performSram, fresh, due, kind]

theorem State.performSram_store {s : State} {o : SramOp} (fresh : o.performed = false) (due : o.performIn = 0)
    (kind : o.kind = .store) : s.performSram o = (s.store o.addr o.bytes, none) := by
  simp [performSram, fresh, due, kind]

theorem State.performSram_atomic {s : State} {o : SramOp} {op : BitVec 4} {c : W64} (fresh : o.performed = false)
    (due : o.performIn = 0) (kind : o.kind = .atomic op c) :
    s.performSram o =
      let x := s.atomic op o.addr o.size (leNat o.bytes) c.toNat
      (x.1, some { o with performed := true, bytes := leBytes o.size x.2 }) := by
  simp [performSram, fresh, due, kind]

theorem State.sramCycle_gone {s : State} {o : SramOp} (hs : s.stream.sram = [o]) {t : State}
    (acts : s.performSram o = (t, none)) : s.sramCycle = ({ t with stream.sram := [] }, []) := by
  unfold sramCycle
  rw [hs]
  simp only [performAll, acts]
  rfl

/-- Settles O8: the forms by `slotLoad`, `slotStore` and `slotAtomic` on either side of 0x1000_0000; the cycles of an access by
what `performSram` does with it. -/
theorem scalarMemoryWorkingStore : Obligations.ScalarMemoryWorkingStore := by
  unfold Obligations.ScalarMemoryWorkingStore
  refine ⟨fun s g d a u off op so size => ?_, fun s o hs fresh => ?_⟩
  · intro ea inc gives sram loads stores atomics
    have addr : s.ea a (immS off) size = ea off.toInt := s.ea_eq a _ _ size (immS_eq_ofInt off)
    have addrA : s.ea a (so.signExtend 64) size = ea so.toInt := s.ea_eq a _ _ size rfl
    have sramOp (k : SramKind) (lands : Nat → Nat) (dest : LoadDest) (bs : List Byte) (o : Int) (r : Out) (n : Nat)
        (hn : n = lands (hops (ea o)))
        (acts : ea o < 0x10000000 → r = .next (s.guarded g ((s.toSram k (ea o) size n dest bs).postInc a u))) :
        sram k lands dest bs o r := by
      subst hn
      exact fun h => ⟨acts h, s.toSram_counts k (ea o) size _ dest bs⟩
    have load (i : Instr) (hi : exec i s = s.slotLoad g size d a u off) : loads i :=
      ⟨fun lo hi' => hi.trans (State.slotLoad_local addr lo hi'),
        sramOp .load (fun h => 14 + 2 * h - 1) (.s d) [] off.toInt (exec i s) _ (by omega) fun h => hi.trans (State.slotLoad_sram addr h)⟩
    have store (i : Instr) (hi : exec i s = s.slotStore g size d a u off) : stores i :=
      ⟨fun lo hi' => hi.trans (State.slotStore_local addr lo hi'),
        sramOp .store (fun _ => 0) .none (leBytes size (s.regs.rs d).toNat) off.toInt (exec i s) _ rfl fun h => hi.trans (State.slotStore_sram addr h)⟩
    have atomic (i : Instr) (hi : exec i s = s.slotAtomic g size d a u op so) : atomics i :=
      ⟨fun lo hi' => hi.trans (State.slotAtomic_local addrA lo hi'),
        sramOp (.atomic op (s.regs.rs (d + 1))) (fun h => 16 + 2 * h - 1) (.s d) (leBytes size (s.regs.rs d).toNat) so.toInt (exec i s) _ (by omega) fun h => hi.trans (State.slotAtomic_sram addrA h)⟩
    refine ⟨?_, ?_, ?_, ?_⟩
    · rintro rfl
      exact ⟨load _ rfl, store _ rfl⟩
    · rintro rfl
      exact ⟨load _ rfl, store _ rfl⟩
    · rintro rfl
      exact ⟨load _ rfl, store _ rfl, atomic _ rfl⟩
    · rintro rfl
      exact ⟨load _ rfl, store _ rfl, atomic _ rfl⟩
  · intro r less
    refine ⟨fun waits => ?_, fun due load lands => ?_, fun due store => ?_, fun due op c atomic lands => ?_,
      fun t ht other lands => ?_⟩
    · exact State.sramCycle_stays hs (State.performSram_waits (.inr waits)) (.inl fresh)
    · exact State.sramCycle_stays hs (State.performSram_load fresh due load) (.inr lands)
    · exact State.sramCycle_gone hs (State.performSram_store fresh due store)
    · exact State.sramCycle_stays hs (State.performSram_atomic fresh due atomic) (.inr lands)
    · exact State.sramCycle_lands (p := { o with performed := true }) ht (State.performSram_waits (.inl rfl))
        (by simp [SramOp.landsNow, lands, other])

/-! ## Vector loads and stores (R236, R237) -/

theorem State.slotVload_local {s : State} {g : BitVec 4} {n e : Nat} {dest : LoadDest} {a : BitVec 4} {u : BitVec 1}
    {off : BitVec 18} (he : s.ea a (immS off) n = e) (lo : 0x10000000 ≤ e) (hi : e < 0x18000000) :
    s.slotVload g n dest a u off =
      .next (s.guarded g ((s.inFlight 6 (dest.landing (s.load e n)) 0).postInc a u)) := by
  subst he
  obtain ⟨other, fits⟩ := ws_local lo hi
  unfold slotVload
  exact slot_access (f := fun t => t.startLoad _ n dest) fits (startLoad_local other)

theorem State.slotVstore_local {s : State} {g : BitVec 4} {n e : Nat} {bs : List Byte} {a : BitVec 4} {u : BitVec 1}
    {off : BitVec 18} (he : s.ea a (immS off) n = e) (lo : 0x10000000 ≤ e) (hi : e < 0x18000000) :
    s.slotVstore g bs a u off n = .next (s.guarded g ((s.inFlight 1 (.wstore e bs) 0).postInc a u)) := by
  subst he
  obtain ⟨other, fits⟩ := ws_local lo hi
  unfold slotVstore
  exact slot_access (f := fun t => t.startStore _ bs) fits (startStore_local other)

theorem State.slotVload_sram {s : State} {g : BitVec 4} {n e : Nat} {dest : LoadDest} {a : BitVec 4} {u : BitVec 1}
    {off : BitVec 18} (he : s.ea a (immS off) n = e) (h : e < 0x10000000) :
    s.slotVload g n dest a u off =
      .next (s.guarded g ((s.toSram .load e n (13 + 2 * hops e) dest []).postInc a u)) := by
  subst he
  unfold slotVload
  exact slot_access (f := fun t => t.startLoad _ n dest) (streamFault_sram h) (startLoad_sram h)

theorem State.slotVstore_sram {s : State} {g : BitVec 4} {n e : Nat} {bs : List Byte} {a : BitVec 4} {u : BitVec 1}
    {off : BitVec 18} (he : s.ea a (immS off) n = e) (hn : bs.length = n) (h : e < 0x10000000) :
    s.slotVstore g bs a u off n = .next (s.guarded g ((s.toSram .store e n 0 .none bs).postInc a u)) := by
  subst he
  unfold slotVstore
  refine slot_access (f := fun t => t.startStore _ bs) (streamFault_sram h) ((startStore_sram h).trans ?_)
  rw [hn]

/-- A part of a list made of pieces of one length is a piece. -/
theorem take_drop_flatMap {α β : Type} {n : Nat} {f : α → List β} (hf : ∀ x, (f x).length = n) :
    ∀ (l : List α) (j : Nat) (h : j < l.length), ((l.flatMap f).drop (n * j)).take n = f l[j]
  | [], _, h => absurd h (Nat.not_lt_zero _)
  | x :: l, 0, _ => by simp [List.take_left' (hf x)]
  | x :: l, j + 1, h => by
    have next : (f x ++ l.flatMap f).drop (n * (j + 1)) = (l.flatMap f).drop (n * j) := by
      rw [Nat.mul_succ, Nat.add_comm, ← List.drop_drop, List.drop_left' (hf x)]
    rw [List.flatMap_cons, next]
    exact take_drop_flatMap hf l j (by simpa using h)

theorem bytesOf_length (v : Vector W32 1024) : (bytesOf v).length = 4096 := by
  have four (x : W32) : (leBytes 4 x.toNat).length = 4 := leBytes_length ..
  unfold bytesOf
  rw [List.length_flatMap, funext four, List.map_const', List.sum_replicate, Vector.length_toList, smul_eq_mul]

theorem bytesOf_lane (v : Vector W32 1024) (j : Fin 1024) : ((bytesOf v).drop (4 * j)).take 4 = leBytes 4 v[j].toNat := by
  unfold bytesOf
  rw [take_drop_flatMap (fun _ => leBytes_length ..) _ _ (by simp)]
  simp

/-- Settles O19: the forms by `slotVload` and `slotVstore`; the bytes of a register lane by lane. -/
theorem vectorMemoryWorkingStore : Obligations.VectorMemoryWorkingStore := by
  unfold Obligations.VectorMemoryWorkingStore
  intro s g d h' a u off size ea inc gives bytes h sram sramLoad sramStore lanes
  have addr : s.ea a (immS off) size = ea := s.ea_eq a _ _ size (immS_eq_ofInt off)
  have load (dest : LoadDest) (r : Out) (hr : r = s.slotVload g size dest a u off) (low : ea < 0x10000000) :
      sramLoad dest r := by
    have lands : 13 + 2 * hops ea = 14 + 2 * h - 1 := by
      show 13 + 2 * h = _
      omega
    have counts := s.toSram_counts .load ea size (14 + 2 * h - 1) dest []
    exact ⟨hr.trans (lands ▸ State.slotVload_sram addr low), counts⟩
  have store (bs : List Byte) (r : Out) (hr : r = s.slotVstore g bs a u off size) (hn : bs.length = size)
      (low : ea < 0x10000000) : sramStore bs r :=
    ⟨hr.trans (State.slotVstore_sram addr hn low), s.toSram_counts .store ea size 0 .none bs⟩
  have lane0 : lane (s.regs.rv d) 0 = (s.regs.rv d)[0] := lane_eq_getElem (s.regs.rv d) 0
  refine ⟨fun low => ⟨?_, ?_, ?_⟩, fun lo hi => ⟨?_, ?_, ?_⟩⟩
  · rintro rfl
    exact ⟨load _ _ rfl low, store _ _ rfl (bytesOf_length _) low⟩
  · rintro rfl
    exact ⟨load _ _ rfl low, store _ _ (by rw [← lane0]; rfl) (leBytes_length ..) low⟩
  · rintro rfl
    exact ⟨load _ _ rfl low, store _ _ rfl (leBytes_length ..) low⟩
  · rintro rfl
    exact ⟨⟨lanesOf bytes, State.slotVload_local addr lo hi, fun j => Vector.getElem_ofFn ..⟩,
      ⟨_, State.slotVstore_local addr lo hi, bytesOf_length _, fun j => bytesOf_lane _ j⟩⟩
  · rintro rfl
    exact ⟨State.slotVload_local addr lo hi, by rw [← lane0]; exact State.slotVstore_local addr lo hi⟩
  · rintro rfl
    exact ⟨State.slotVload_local addr lo hi, State.slotVstore_local addr lo hi⟩

end Sys2Proof.Machine
end

section
/-! Traps: what is saved and brought back, the precise faults of a slot, and the level 2 policy. -/

namespace Sys2Proof.Machine

/-! ## Delivery and return (R320, R321, R323) -/

/-- With a handler, and outside it, a precise fault is delivered. -/
theorem State.takeTrap_delivered {s : State} {cause : Byte} {info addr back : W64} {n : Nat} (hvec : s.ctl.trapvec ≠ 0)
    (hout : s.ctl.inHandler = false) : s.takeTrap cause info addr back n = s.deliver cause info addr back n :=
  if_pos ⟨hvec, hout⟩

/-- Without a handler, or in it, a precise fault goes to the level 2 policy. -/
theorem State.takeTrap_levelTwo {s : State} {cause : Byte} {info addr back : W64} {n : Nat}
    (h : s.ctl.trapvec = 0 ∨ s.ctl.inHandler = true) : s.takeTrap cause info addr back n = s.levelTwo cause addr false := by
  refine if_neg fun e => ?_
  rcases h with h | h
  · exact e.1 h
  · simp [h] at e

theorem State.deliver_save (s : State) (cause : Byte) (info addr back : W64) (n : Nat) :
    (s.deliver cause info addr back n).stream.save = some (s.stream.saveArea s.ctl) := rfl

theorem State.endReturn_some {s : State} {a : SaveArea} (h : s.stream.save = some a) :
    s.endReturn = { s with
      stream := { s.stream with
        mode := .running, pc := s.ctl.tpc, save := none, results := a.results, rpt := a.rpt, held := false,
        noWatch := s.ctl.swPending, buf := none, draining := a.draining },
      ctl := { s.ctl with
        inHandler := false, swPending := false, loops := a.loops, lc := a.lc, lstart := a.lstart, lend := a.lend } } := by
  unfold endReturn
  rw [h]

/-- Settles O32: the fields of `deliver` and of `endReturn`, one after the other. -/
theorem trapEntryAndReturn : Obligations.TrapEntryAndReturn := by
  unfold Obligations.TrapEntryAndReturn
  refine ⟨fun s cause info addr back n hvec hout => ?_, fun s a ha => ?_, fun s cause info addr n hvec hout => ?_⟩
  · rw [State.takeTrap_delivered hvec hout]
    exact ⟨rfl, rfl, rfl, rfl, rfl, rfl, rfl, rfl, rfl, ⟨_, rfl, rfl, rfl, rfl, rfl, rfl, rfl, rfl⟩, rfl, rfl, rfl, rfl, rfl,
      rfl, rfl, rfl, rfl, rfl⟩
  · rw [State.endReturn_some ha]
    exact ⟨rfl, rfl, rfl, rfl, rfl, rfl, rfl, rfl, rfl, rfl, rfl, rfl, rfl, rfl, rfl, rfl, rfl⟩
  · rw [State.takeTrap_delivered hvec hout, State.endReturn_some (s.deliver_save cause info addr s.stream.pc n)]
    exact ⟨rfl, rfl, rfl, rfl, rfl, rfl, rfl, rfl, rfl, rfl, rfl, rfl⟩

/-! ## Precise faults of a slot (R30, R187) -/

/-- An illegal slot or bundle delivered to the handler. -/
theorem State.takeIllegal_eq {s : State} {cause slot : Nat} {b : Bool} (hvec : s.ctl.trapvec ≠ 0)
    (hout : s.ctl.inHandler = false) :
    let info : W32 := BitVec.ofNat 32 (cause + slot * 16 + (if b then 64 else 0))
    s.takeIllegal cause slot b =
      let u := (({ s with ctl := { s.ctl with ilinfo := info, iladdr := s.stream.pc } } : State).lanternC 0x06 cause
        (pair32 (codeOff s.stream.pc) 0)).deliver 0x08 (info.zeroExtend 64) s.stream.pc s.stream.pc 23
      { u with stream.ask.faulted := true } := by
  intro info
  unfold takeIllegal
  dsimp only
  rw [takeTrap_delivered (by exact hvec) (by exact hout)]
  rfl

/-- A window fault of the control stream delivered to the handler. -/
theorem State.takeWindowFault_eq {s : State} {a c slot : Nat} {wr : Bool} (hvec : s.ctl.trapvec ≠ 0)
    (hout : s.ctl.inHandler = false) :
    s.takeSlotFault (.window a c 0x0 none wr) slot =
      let w := s.windowFault a c 0x0 none wr
      let u := w.deliver 0x07 (w.ctl.wfinfo.zeroExtend 64) w.ctl.wfaddr w.stream.pc 23
      { u with stream.ask.faulted := true } := by
  unfold takeSlotFault
  dsimp only
  rw [takeTrap_delivered (by exact hvec) (by exact hout)]

/-- The cause of a control-stream access outside what it may address, and 0 for one within (R12, R13, R27). -/
def accessCause (ea : Nat) (load : Bool) : Nat :=
  if 2 ^ 48 ≤ ea then 3
  else if 0x1C000000 ≤ ea ∧ ea < 0x20000000 ∨ 2 ^ 32 ≤ ea ∨ (load = false ∧ 0x18000000 ≤ ea ∧ ea < 0x18080000) then 6
  else if (0x18080000 ≤ ea ∧ ea < 0x1C000000) ∨ 0x20000000 ≤ ea then 2 else 0

theorem region_hole {a : Nat} (h : 0x18080000 ≤ a ∧ a < 0x1C000000 ∨ 0x20000000 ≤ a ∧ a < 2 ^ 32) : region a = .hole := by
  unfold region
  iterate 3 rw [if_neg (by omega)]
  rcases h with h | h
  · rw [if_pos h.2]
  · iterate 2 rw [if_neg (by omega)]
    rw [if_pos (by omega)]

theorem region_control {a : Nat} (lo : 0x1C000000 ≤ a) (hi : a < 0x20000000) : region a = .control := by
  unfold region
  iterate 4 rw [if_neg (by omega)]
  rw [if_pos hi]

theorem region_window {a : Nat} (lo : 2 ^ 32 ≤ a) (hi : a < 2 ^ 48) : region a = .window := by
  unfold region
  iterate 6 rw [if_neg (by omega)]
  rw [if_pos (by omega)]

theorem region_high {a : Nat} (h : 2 ^ 48 ≤ a) : region a = .high := by
  unfold region
  iterate 7 rw [if_neg (by omega)]

theorem streamCause_eq {a : Nat} {load : Bool} (h : accessCause a load ≠ 0) :
    streamCause a load = some (accessCause a load) := by
  unfold accessCause at h ⊢
  unfold streamCause
  by_cases high : 2 ^ 48 ≤ a
  · rw [if_pos high, region_high high]
  rw [if_neg high] at h ⊢
  by_cases six : 0x1C000000 ≤ a ∧ a < 0x20000000 ∨ 2 ^ 32 ≤ a ∨ (load = false ∧ 0x18000000 ≤ a ∧ a < 0x18080000)
  · rw [if_pos six]
    rcases six with six | six | six
    · rw [region_control six.1 six.2]
    · rw [region_window six (by omega)]
    · rw [region_code six.2.1 six.2.2, six.1]
      rfl
  rw [if_neg six] at h ⊢
  by_cases two : (0x18080000 ≤ a ∧ a < 0x1C000000) ∨ 0x20000000 ≤ a
  · rw [if_pos two, region_hole (by omega)]
  · exact absurd (if_neg two) h

theorem accessCause_lt (a : Nat) (load : Bool) : accessCause a load < 16 := by
  unfold accessCause
  split_ifs <;> omega

/-- What the window fault of an access of the control stream leaves. -/
def State.WindowFaulted (s : State) (a c : Nat) (wr : Bool) (r : Out) : Prop :=
  ∃ t, r = .next t ∧ t.ctl.wfaddr.toNat = a ∧ t.ctl.wfinfo.toNat % 16 = c ∧ t.ctl.tcause = 0x07#8 ∧
    (t.ctl.wfinfo.toNat / 2 ^ 19 % 2 = if wr then 1 else 0) ∧
    t.ctl.taddr.toNat = a ∧ t.ctl.tpc = s.stream.pc ∧ t.regs = s.regs ∧ t.tiles = s.tiles ∧ t.mem.loc = s.mem.loc

theorem State.slot_windowFaulted {s : State} {g : BitVec 4} {a : Nat} {load wr : Bool} {f : State → State} (hg : s.regs.rg g = true)
    (hvec : s.ctl.trapvec ≠ 0) (hout : s.ctl.inHandler = false) (ha : a < 2 ^ 64) (hc : accessCause a load ≠ 0) :
    s.WindowFaulted a (accessCause a load) wr (s.slot g (streamFault a load wr) f) := by
  have fault : streamFault a load wr = some (.window a (accessCause a load) 0x0 none wr) := by
    rw [streamFault, streamCause_eq hc]
    rfl
  have addr : (BitVec.ofNat 64 a).toNat = a := by rw [BitVec.toNat_ofNat, Nat.mod_eq_of_lt ha]
  have small := accessCause_lt a load
  have info : (BitVec.ofNat 32 (accessCause a load + 0x0 * 16 + 0 * 256 + (if wr then 2 ^ 19 else 0) + 2 ^ 20)).toNat =
      accessCause a load + (if wr then 2 ^ 19 else 0) + 2 ^ 20 := by
    rw [BitVec.toNat_ofNat]
    split <;> omega
  rw [fault, slot_fault hg, takeWindowFault_eq hvec hout]
  refine ⟨_, rfl, addr, (congrArg (· % 16) info).trans ?_, rfl, (congrArg (· / 2 ^ 19 % 2) info).trans ?_, addr, rfl, rfl, rfl, rfl⟩
  · split <;> omega
  · split <;> omega

/-- Settles O33: an illegal slot by `takeIllegal_eq`; the accesses, whatever their form, by the one slot that raises their
fault. -/
theorem preciseFaultTraps : Obligations.PreciseFaultTraps := by
  unfold Obligations.PreciseFaultTraps
  refine ⟨fun s cause slot b hcause hslot hvec hout => ?_, fun s g d h a u off op so hg hvec hout => ?_⟩
  · have info : (BitVec.ofNat 32 (cause + slot * 16 + (if b then 64 else 0))).toNat =
        cause + 16 * slot + (if b then 64 else 0) := by
      rw [BitVec.toNat_ofNat]
      split <;> omega
    have same : ((BitVec.ofNat 32 (cause + slot * 16 + (if b then 64 else 0))).zeroExtend 64).toNat =
        (BitVec.ofNat 32 (cause + slot * 16 + (if b then 64 else 0))).toNat := by
      rw [BitVec.toNat_setWidth]
      omega
    rw [State.takeIllegal_eq hvec hout]
    exact ⟨info, rfl, rfl, same, rfl, rfl, rfl, rfl, rfl, rfl⟩
  · intro ea faults cause form o
    have below (o : Int) (size : Nat) : ea o size < 2 ^ 64 := by
      have := Nat.div_mul_le_self (((s.regs.ra a).toNat + (o * size % 2 ^ 64).toNat) % 2 ^ 64) size
      show _ / size * size < _
      omega
    have form_of (load wr : Bool) (x : W64) (o : Int) (size : Nat) (i : Instr) (f : State → State) (hx : x = BitVec.ofInt 64 o)
        (hi : exec i s = s.slot g (streamFault (s.ea a x size) load wr) f) : form load wr o size i := by
      intro hc
      rw [hi, s.ea_eq a x o size hx]
      exact State.slot_windowFaulted hg hvec hout (below o size) hc
    have load (size : Nat) (i : Instr) (hi : exec i s = s.slotLoad g size d a u off) : form true false o size i :=
      form_of true false (immS off) o size i
        (fun t => (t.startLoad (s.ea a (immS off) size) size (.s d)).postInc a u) rfl hi
    have store (size : Nat) (i : Instr) (hi : exec i s = s.slotStore g size d a u off) : form false true o size i :=
      form_of false true (immS off) o size i
        (fun t => (t.startStore (s.ea a (immS off) size) (leBytes size (t.regs.rs d).toNat)).postInc a u) rfl hi
    have atomic (size : Nat) (i : Instr) (hi : exec i s = s.slotAtomic g size d a u op so) :
        form false true so.toInt size i :=
      form_of false true (so.signExtend 64) so.toInt size i
        (fun t => (t.startAtomic op d (s.ea a (so.signExtend 64) size) size (t.regs.rs d) (t.regs.rs (d + 1))).postInc a u)
        rfl hi
    have vload (size : Nat) (dest : LoadDest) (i : Instr) (hi : exec i s = s.slotVload g size dest a u off) :
        form false false o size i :=
      form_of false false (immS off) o size i (fun t => (t.startLoad (s.ea a (immS off) size) size dest).postInc a u) rfl hi
    have vstore (size : Nat) (bs : List Byte) (i : Instr) (hi : exec i s = s.slotVstore g bs a u off size) :
        form false true o size i :=
      form_of false true (immS off) o size i (fun t => (t.startStore (s.ea a (immS off) size) bs).postInc a u) rfl hi
    exact ⟨load 1 _ rfl, load 2 _ rfl, load 4 _ rfl, load 8 _ rfl, store 1 _ rfl, store 2 _ rfl, store 4 _ rfl, store 8 _ rfl,
      atomic 4 _ rfl, atomic 8 _ rfl, vload 4096 _ _ rfl, vstore 4096 _ _ rfl, vload 4 _ _ rfl, vstore 4 _ _ rfl,
      vload 128 _ _ rfl, vstore 128 _ _ rfl⟩

/-! ## The level 2 policy (R170) -/

/-- CONTPOL [3:2]. -/
theorem levelTwoField (p : BitVec 4) : (p.extractLsb' 2 2).toNat = p.toNat / 4 := by
  have := p.isLt
  rw [BitVec.extractLsb'_toNat, Nat.shiftRight_eq_div_pow]
  omega

theorem State.levelTwo_ignore {s : State} {cause : Byte} {addr : W64} {lower : Bool} (h : s.ctl.contpol.toNat / 4 = 0) :
    s.levelTwo cause addr lower = if lower then s else (s.endProgram false).dump 4 cause 2 := by
  unfold levelTwo
  rw [levelTwoField, h]
  rfl

theorem State.levelTwo_kill {s : State} {cause : Byte} {addr : W64} {lower : Bool} (h : s.ctl.contpol.toNat / 4 = 2) :
    s.levelTwo cause addr lower = (s.endProgram false).dump 4 cause 2 := by
  unfold levelTwo
  rw [levelTwoField, h]
  rfl

theorem State.levelTwo_parent {s : State} {cause : Byte} {addr : W64} {lower : Bool} (h : s.ctl.contpol.toNat / 4 = 3) :
    s.levelTwo cause addr lower = s.fatalTrap 0x21 (cause.zeroExtend 64) addr := by
  unfold levelTwo
  rw [levelTwoField, h]
  rfl

theorem State.levelTwo_giveUp {s : State} {cause : Byte} {addr : W64} {lower : Bool} (h : s.ctl.contpol.toNat / 4 = 1)
    (up : s.pkg.retryImage s.ctl.jobid = none ∨ 3 ≤ s.stream.retries) :
    s.levelTwo cause addr lower = s.fatalTrap 0x21 (cause.zeroExtend 64) addr := by
  unfold levelTwo
  rw [levelTwoField, h]
  cases img : s.pkg.retryImage s.ctl.jobid with
  | none => rfl
  | some i =>
    have used : ¬ s.stream.retries < 3 := by
      rcases up with up | up
      · simp [img] at up
      · omega
    exact if_neg used

theorem State.levelTwo_retry {s : State} {cause : Byte} {addr : W64} {lower : Bool} {i : Image}
    (h : s.ctl.contpol.toNat / 4 = 1) (img : s.pkg.retryImage s.ctl.jobid = some i) (left : s.stream.retries < 3) :
    s.levelTwo cause addr lower =
      let r : State := { s.restore i s.now with stream.retries := s.stream.retries + 1 }
      r.lanternC 0x07 0x4 (pair32 (codeOff r.stream.pc) 0) := by
  unfold levelTwo
  rw [levelTwoField, h, img]
  exact if_pos left

/-- A retry takes a drain or a buddy image. -/
theorem Pkg.retryImage_kind {p : Pkg} {job : W32} {i : Image} (h : p.retryImage job = some i) : i.kind ≠ 2 := by
  have mem := List.mem_of_getLast? h
  simp only [List.mem_filter, Bool.and_eq_true, decide_eq_true_eq] at mem
  omega

theorem State.endProgram_running {s : State} {e : Bool} (h : s.stream.mode = .running) :
    s.endProgram e =
      let t := s.lanternC 0x07 0x5 (pair32 (codeOff s.stream.pc) 0)
      { t with
        stream := { t.stream with mode := .ended e, rpt := none, held := false, waited := 0, bubbles := 0 },
        ctl.lwstat := false } := by
  unfold endProgram
  rw [h]

/-- What an event leaves as it is. -/
theorem State.emit_frame (s : State) (t : Nat) (e : Event) :
    (s.emit t e).stream = s.stream ∧ (s.emit t e).ctl = s.ctl ∧ (s.emit t e).regs = s.regs ∧ (s.emit t e).tiles = s.tiles ∧
      (s.emit t e).mem.loc = s.mem.loc := by
  unfold emit
  dsimp only
  split <;> exact ⟨rfl, rfl, rfl, rfl, rfl⟩

theorem State.dump_frame (s : State) (k : Nat) (c : Byte) (l : Nat) :
    (s.dump k c l).stream = s.stream ∧ (s.dump k c l).ctl = s.ctl ∧ (s.dump k c l).regs = s.regs ∧
      (s.dump k c l).tiles = s.tiles ∧ (s.dump k c l).mem.loc = s.mem.loc := by
  unfold dump
  dsimp only
  split <;> exact ⟨rfl, rfl, rfl, rfl, rfl⟩

/-- A die that a fatal trap has stopped: its state, and what it keeps of `s`. -/
def State.Fatal (s : State) (cause : Byte) (info addr : W64) (t : State) : Prop :=
  t.stream.mode = .fatal ∧ t.ctl.tcause = cause ∧ t.ctl.tinfo = info ∧ t.ctl.taddr = addr ∧ t.regs = s.regs ∧
    t.tiles = s.tiles ∧ t.mem.loc = s.mem.loc

theorem State.Fatal.emit {s t : State} {cause : Byte} {info addr : W64} (h : s.Fatal cause info addr t) (n : Nat) (e : Event) :
    s.Fatal cause info addr (t.emit n e) := by
  obtain ⟨stream, ctl, regs, tiles, loc⟩ := t.emit_frame n e
  unfold Fatal
  rwa [stream, ctl, regs, tiles, loc]

theorem State.Fatal.dump {s t : State} {cause : Byte} {info addr : W64} (h : s.Fatal cause info addr t) (k : Nat) (c : Byte)
    (l : Nat) : s.Fatal cause info addr (t.dump k c l) := by
  obtain ⟨stream, ctl, regs, tiles, loc⟩ := t.dump_frame k c l
  unfold Fatal
  rwa [stream, ctl, regs, tiles, loc]

/-- A fatal trap keeps the registers, the tiles and the bytes of the die. -/
theorem State.fatalTrap_fatal (s : State) (cause : Byte) (info addr : W64) :
    s.Fatal cause info addr (s.fatalTrap cause info addr) := by
  have stopped (p : Pkg) : s.Fatal cause info addr
      { s with stream.mode := .fatal, ctl := { s.ctl with tcause := cause, tinfo := info, taddr := addr }, pkg := p } :=
    ⟨rfl, rfl, rfl, rfl, rfl, rfl, rfl⟩
  unfold fatalTrap
  dsimp only
  split
  · exact (stopped _).emit _ _
  · exact (stopped _).dump _ _ _

/-- A die program that the level 2 policy has ended, with its dump in the tenant's dump area where there is one. -/
def State.Killed (s : State) (cause : Byte) (t : State) : Prop :=
  let area := (s.pkg.tenant s.pkg.residentTenant).cfg.dumpa
  t.stream.mode = .ended false ∧ t.regs = s.regs ∧ t.tiles = s.tiles ∧ t.mem.loc = s.mem.loc ∧ t.eng = s.eng ∧
    (area.size = 0 → t.pkg = s.pkg) ∧
    (area.size ≠ 0 → ∃ d, t.pkg.dumps = s.pkg.dumps ++ [d] ∧ t.pkg.serial = s.pkg.serial + 1 ∧
      d.tenant = s.pkg.residentTenant ∧ d.addr = area.base ∧ d.serial = s.pkg.serial + 1 ∧ d.img.kind = 4 ∧ d.img.level = 2 ∧
      d.img.cause = cause ∧ d.img.regs = s.regs ∧ d.img.tiles = s.tiles ∧ d.img.loc = s.mem.loc)

theorem State.kill_killed {s : State} (cause : Byte) (h : s.stream.mode = .running) :
    s.Killed cause ((s.endProgram false).dump 4 cause 2) := by
  rw [endProgram_running h]
  unfold dump
  dsimp only
  split
  next none => exact ⟨rfl, rfl, rfl, rfl, rfl, fun _ => rfl, fun some => absurd none some⟩
  next some =>
    exact ⟨rfl, rfl, rfl, rfl, rfl, fun none => absurd none some,
      fun _ => ⟨_, rfl, rfl, rfl, rfl, rfl, rfl, rfl, rfl, rfl, rfl, rfl⟩⟩

/-- Settles O34: the policy by the value of CONTPOL [3:2]. -/
theorem trapWithoutHandler : Obligations.TrapWithoutHandler := by
  unfold Obligations.TrapWithoutHandler
  intro s cause info addr back n running pol killed fatal acts
  have policy (lower : Bool) : acts (s.levelTwo cause addr lower) := by
    refine ⟨fun two => ?_, fun three => ?_, fun one up => ?_, fun one i img left => ?_⟩
    · rw [State.levelTwo_kill two]
      exact s.kill_killed cause running
    · rw [State.levelTwo_parent three]
      exact s.fatalTrap_fatal ..
    · rw [State.levelTwo_giveUp one up]
      exact s.fatalTrap_fatal ..
    · rw [State.levelTwo_retry one img left]
      have arch : decide (i.kind ≠ 2) = true := decide_eq_true (Pkg.retryImage_kind img)
      exact ⟨rfl, rfl, rfl, rfl, rfl, rfl, rfl, if_pos arch⟩
  refine ⟨fun _ none => ?_, fun _ hvec hout => ?_⟩
  · rw [State.takeTrap_levelTwo none]
    refine ⟨policy false, fun zero => ?_⟩
    rw [State.levelTwo_ignore zero]
    exact s.kill_killed cause running
  · have up : s.raisePending cause info addr = s.levelTwo cause addr true := if_pos (.inr ⟨hvec, hout⟩)
    rw [up]
    exact ⟨policy true, fun zero => State.levelTwo_ignore zero⟩

end Sys2Proof.Machine
end

section
/-! Moves to and from control registers (R205, R206): what they put in flight, their faults, and what the reads of a cycle
find. -/

namespace Sys2Proof.Machine

/-! ## The fault of a move -/

theorem State.moveEnc_none {s : State} {n : Nat} (hw : ctlWritable n = true) (ht : n = 0x150 → s.ctl.inHandler = true) :
    s.moveEnc n = none := by
  refine if_neg ?_
  rintro (h | ⟨h, out⟩)
  · simp [hw] at h
  · simp [ht h] at out

theorem State.moveEnc_some {s : State} {n : Nat} (h : ctlWritable n = false ∨ (n = 0x150 ∧ s.ctl.inHandler = false)) :
    s.moveEnc n = some 0xB := if_pos h

theorem State.moveFault_none {s : State} {n : Nat} {x : W64} (hx : s.ctlValueOk n x = true) : s.moveFault n x = none := by
  refine if_neg ?_
  unfold ctlWriteCause
  rw [if_neg (by simp [hx])]
  split <;> simp

theorem State.moveFault_some {s : State} {n : Nat} {x : W64} (hw : ctlWritable n = true) (hx : s.ctlValueOk n x = false) :
    s.moveFault n x = some (.illegal 0xA) := by
  refine if_pos ?_
  unfold ctlWriteCause
  rw [if_pos ⟨hw, hx⟩]

/-! ## Reads of a cycle (R206) -/

/-- The value that a table built from a list of numbers gives. -/
theorem lookup_map_filter {α : Type} (p : Nat → Bool) (f : Nat → α) (n : Nat) : ∀ l : List Nat,
    ((l.filter p).map fun i => (i, f i)).lookup n = if n ∈ l ∧ p n = true then some (f n) else none
  | [] => by simp
  | i :: l => by
    have ih := lookup_map_filter p f n l
    by_cases hn : n = i
    · subst hn
      cases hp : p n with
      | true => simp [hp]
      | false => rw [List.filter_cons_of_neg (by simp [hp]), ih]; simp [hp]
    · have other : (n == i) = false := beq_eq_false_iff_ne.mpr hn
      cases hp : p i with
      | true => rw [List.filter_cons_of_pos hp, List.map_cons, List.lookup_cons, other, ih]; simp [hn]
      | false => rw [List.filter_cons_of_neg (by simp [hp]), ih]; simp [hn]

/-- A turn within a running program changes no read of the coming cycle. -/
theorem State.noted_ctlRead {s t : State} {n : Nat} (hn : n < 0x300) (hs : s.stream.mode = .running)
    (ht : t.stream.mode = .running) (retries : t.stream.retries = s.stream.retries) (same : t.begun = s.begun) :
    (s.noted t).ctlRead n = s.ctlRead n := by
  have noted : s.noted t = { t with begun := t.begun ++ ((List.range ctlNumbers).filter fun n =>
      decide (t.ctlNow n ≠ s.ctlNow n) && (t.begun.lookup n).isNone).map fun n => (n, s.ctlNow n) } :=
    if_pos ⟨hs, ht, retries⟩
  have inside : n ∈ List.range ctlNumbers := List.mem_range.mpr hn
  have now (l : List (Nat × W64)) : ({ t with begun := l } : State).ctlRead n = (l.lookup n).getD (t.ctlNow n) := rfl
  rw [noted, now, List.lookup_append, lookup_map_filter]
  unfold ctlRead
  rw [same]
  cases kept : s.begun.lookup n with
  | some v => rfl
  | none =>
    by_cases changed : t.ctlNow n = s.ctlNow n
    · simp [changed]
    · simp [changed, inside]

/-- An illegal slot that is delivered: what it saves and where it goes. -/
theorem State.takeIllegal_saves {s : State} {cause slot : Nat} (hcause : cause < 16) (hslot : slot < 4) (hvec : s.ctl.trapvec ≠ 0)
    (hout : s.ctl.inHandler = false) :
    let t := s.takeIllegal cause slot false
    t.stream.ask.faulted = true ∧ t.stream.pc = s.ctl.trapvec ∧ t.ctl.ilinfo.toNat = cause + 16 * slot ∧
      t.ctl.iladdr = s.stream.pc ∧ t.stream.results = [] ∧ t.stream.save.map (·.results) = some s.stream.results := by
  have info := takeIllegal_slot_ilinfo_toNat hcause hslot hvec hout
  rw [takeIllegal_eq hvec hout] at info ⊢
  exact ⟨rfl, rfl, info, rfl, rfl, rfl⟩

/-- Settles O4: a move by its encoding check and the fault of its value; the reads by the table of values that a cycle began
with. -/
theorem controlRegisterMoves : Obligations.ControlRegisterMoves := by
  unfold Obligations.ControlRegisterMoves
  refine ⟨fun s g d a x y n hn => ?_, fun s t n hn running => ⟨?_, fun power counts => rfl⟩, fun s g a x y n hn hslot => ?_⟩
  · obtain rfl : n = ctlNumber y x := hn
    have write : exec (.movToControl g x a y) s = s.encSlot (s.moveEnc (ctlNumber y x))
      (s.slot g (s.moveFault (ctlNumber y x) (s.regs.rs a)) fun s => s.put 1 (.ctl (ctlNumber y x) (s.regs.rs a))) := rfl
    have read : exec (.movFromControl g d x y) s = .next (s.guarded g (s.inFlight 1 (.s d (s.ctlRead (ctlNumber y x))) 0)) :=
      State.slotS_gives
    refine ⟨fun hg hw ht hx => ?_, fun hg => ?_, fun hg hw ht => ?_, fun hg => ?_⟩
    · rw [write, State.moveEnc_none hw ht, State.encSlot_none, State.moveFault_none hx, State.slot_none,
        State.guarded_true hg]
      rfl
    · rw [read, State.guarded_true hg]
    · rw [write, State.moveEnc_none hw ht, State.encSlot_none, State.slot_off hg]
    · rw [read, State.guarded_false hg]
  · exact fun ht retries same => State.noted_ctlRead hn running ht retries same
  · obtain rfl : n = ctlNumber y x := hn
    have write : exec (.movToControl g x a y) s = s.encSlot (s.moveEnc (ctlNumber y x))
      (s.slot g (s.moveFault (ctlNumber y x) (s.regs.rs a)) fun s => s.put 1 (.ctl (ctlNumber y x) (s.regs.rs a))) := rfl
    intro faults
    refine ⟨fun locked => ⟨?_, State.takeIllegal_saves (by decide) hslot⟩, fun hw ht hx hg =>
      ⟨?_, State.takeIllegal_saves (by decide) hslot⟩⟩
    · rw [write, State.moveEnc_some locked, State.encSlot_some]
    · rw [write, State.moveEnc_none hw ht, State.encSlot_none, State.moveFault_some hw hx, State.slot_fault hg]
      rfl

end Sys2Proof.Machine
end

section
/-! Every slot, event and step answers a next state (R138, R140). -/

namespace Sys2Proof.Machine

/-- The outcome is a next state. -/
def Answers (r : Out) : Prop := ∃ t, r = .next t

theorem Answers.next (t : State) : Answers (.next t) := ⟨t, rfl⟩

theorem Answers.ite {c : Prop} [Decidable c] {a b : Out} (ha : Answers a) (hb : Answers b) :
    Answers (if c then a else b) := by
  split
  · exact ha
  · exact hb

variable {s : State}

theorem State.slot_next {g : BitVec 4} {fault : Option SFault} {f : State → State} : Answers (s.slot g fault f) := by
  unfold State.slot
  split
  · cases fault <;> exact .next _
  · exact .next _

theorem State.encSlot_next {enc : Option Nat} {r : Out} (h : Answers r) : Answers (s.encSlot enc r) := by
  cases enc with
  | none => exact h
  | some c => exact .next _

theorem State.stallSlot_next {b : Bool} {r : Out} (h : Answers r) : Answers (s.stallSlot b r) := .ite (.next _) h

theorem State.matrixSlot_next {g y : BitVec 4} {pair : Bool} {fault : Option SFault} {op : MatOp} {sh : BitVec 24} :
    Answers (s.matrixSlot g pair y fault op sh) := State.stallSlot_next State.slot_next

theorem State.imageSlot_next {g x y : BitVec 4} {pair : Bool} {v : Option (BitVec 5)} {op : Option Nat → MatOp} :
    Answers (s.imageSlot g x pair y v op) := by
  cases v <;> exact State.matrixSlot_next

theorem State.copySlot_next {g u : BitVec 4} {fs : List (Option SFault)} {op : CopyOp} {flag : Option (Nat × W64)} :
    Answers (s.copySlot g u fs op flag) := State.stallSlot_next State.slot_next

theorem State.xSlot_next {g : BitVec 4} {q n d : Nat} {specs : List HalfSpec} {c : Option Combine} :
    Answers (s.xSlot g q n specs c d) := State.stallSlot_next State.slot_next

/-! Each of the helpers below is one slot. -/

section
variable {g x y e : BitVec 4} {a b c d : BitVec 5} {h k : BitVec 3} {m : BitVec 2} {u : BitVec 1} {off : BitVec 18}
  {n w : Nat} {z : W64} {col nv tr : Bool} {dest : LoadDest}

theorem State.slotS_next : Answers (s.slotS g n d z) := State.slot_next

theorem State.slotCmp_next : Answers (s.slotCmp g x col) := State.slot_next

theorem State.slotV2_next {f : W32 → W32 → W32 × BitVec 6} : Answers (s.slotV2 g n d a b k f) := State.slot_next

theorem State.slotV3_next {f : W32 → W32 → W32 → W32 × BitVec 6} : Answers (s.slotV3 g n d a b c k f) := State.slot_next

theorem State.slotCvt_next {f : Nat → Nat → Nat × BitVec 6} : Answers (s.slotCvt g d a m k f) := State.slot_next

theorem State.slotNarrow_next {f : Nat → Nat → Nat × BitVec 6} : Answers (s.slotNarrow g d a m k w f) := State.slot_next

theorem State.slotVcmp_next {f : W32 → W32 → Bool} : Answers (s.slotVcmp g h a b k f) := State.slot_next

theorem State.slotVload_next : Answers (s.slotVload g n dest e u off) := by
  unfold State.slotVload
  exact State.slot_next

theorem State.slotVstore_next {bs : List Byte} : Answers (s.slotVstore g bs e u off n) := by
  unfold State.slotVstore
  exact State.slot_next

theorem State.slotLoad_next : Answers (s.slotLoad g n d e u off) := by
  unfold State.slotLoad
  exact State.slot_next

theorem State.slotStore_next : Answers (s.slotStore g n d e u off) := by
  unfold State.slotStore
  exact State.slot_next

theorem State.slotAtomic_next {o : BitVec 6} : Answers (s.slotAtomic g n d e u x o) := by
  unfold State.slotAtomic
  exact State.slot_next

theorem State.tileRead_next : Answers (s.tileRead col g x y d k m) := by
  unfold State.tileRead
  exact State.slot_next

theorem State.tileWrite_next : Answers (s.tileWrite col n nv g x y d k m) := by
  unfold State.tileWrite
  exact State.slot_next

theorem State.tileMem_next {kind : Nat → TileKind} : Answers (s.tileMem g x d tr nv kind) := by
  unfold State.tileMem
  exact State.stallSlot_next State.slot_next

theorem State.drainSlot_next : Answers (s.drainSlot g x y d col tr nv) := by
  unfold State.drainSlot
  exact State.stallSlot_next State.slot_next

theorem State.ratmSlot_next : Answers (s.ratmSlot g x y e nv) := by
  unfold State.ratmSlot
  exact State.copySlot_next

theorem State.maskSlot_next {f : Nat → Nat → Nat → Option Combine} : Answers (s.maskSlot g e f) := by
  unfold State.maskSlot
  exact State.stallSlot_next State.slot_next

end

theorem slotMeaning_next (i : Instr) : Answers (slotMeaning i s) := by
  cases i
  all_goals unfold slotMeaning
  case bri | ret | loop | lpoff | vrcpaF32 | vrsqaF32 | vcvtF32Widen | vcvtQ4F32 | vcvtF32Q4 | klogic | vbcast | viota
      | vperm | vred | rqreset | chabort | trap | endProg | lmark | bpoint | dpoint | rdcyc | sdump | enrd | enrdRsv |
      enres | enresRel | adda | movAS | movSA | movNS | movSN | movES | movSE | movGS | movSG | gset =>
    exact State.slot_next
  case add | sub | and | or | xor | andn | shl | shr | sar | ror | min | minN | max | maxN | mul | mulh | mulhN | madd
      | div | divN | rem | remN | sextB | sextH | sextW | zextB | zextH | zextW | popc | clz | ctz | addi | andi | ori
      | xori | shli | shri | sari | shori | movFromControl | gget =>
    exact State.slotS_next
  case cmpEq | cmpEqImm | cmpLt | cmpLtImm | cmpLe | cmpLeImm | cmpLtn | cmpLtnImm | cmpLen | cmpLenImm | cmpTst |
      cmpTstImm =>
    exact State.slotCmp_next
  case vand | vor | vxor | vandn | vaddI32 | vsubI32 | vmulI32 | vaddI16 | vsubI16 | vaddsI16 | vsubsI16 | vaddI8 |
      vsubI8 | vaddsI8 | vsubsI8 | vminI32 | vmaxI32 | vminN32 | vmaxN32 | vshlI32 | vshrN32 | vsarI32 | vaddF32 |
      vsubF32 | vmulF32 | vminF32 | vmaxF32 | vsubBf16 | vaddBf16 | vmulBf16 | vaddF16 | vmulF16 =>
    exact State.slotV2_next
  case vfmaF32 | vfmsF32 | vfmaBf16 | vfmaF16 =>
    exact State.slotV3_next
  case vcvtF32I32 | vcvtF32N32 | vcvtI32F32 | vcvtN32F32 =>
    exact State.slotCvt_next
  case vcvtBf16F32 | vcvtF16F32 | vcvtE4m3F32 | vcvtE5m2F32 =>
    exact State.slotNarrow_next
  case vcmpF32 | vcmpI32 | vcmpN32 =>
    exact State.slotVcmp_next
  case vld | vldW | vldK =>
    exact State.slotVload_next
  case vst | vstW | vstK =>
    exact State.slotVstore_next
  case ldB | ldH | ldW | ldD =>
    exact State.slotLoad_next
  case stB | stH | stW | stD =>
    exact State.slotStore_next
  case atmW | atmD =>
    exact State.slotAtomic_next
  case trdr | trdc =>
    exact State.tileRead_next
  case twrr32 | twrc32 | twrr16 | twrc16 | twrr8 | twrc8 | twrr8Nan | twrc8Nan =>
    exact State.tileWrite_next
  case tld | tst | tldt | tstt =>
    exact State.tileMem_next
  case mwa | mwap | mzero | mzerop =>
    exact State.matrixSlot_next
  case mwl | mwlm | mwlp | mwlpm | mms | mmsm | mmsp | mmspm =>
    exact State.imageSlot_next
  case mdr | mdrm | mdrp | mdrpm | mdrt =>
    exact State.drainSlot_next
  case ratmW | ratmD =>
    exact State.ratmSlot_next
  case xchgm | xcmbm =>
    exact State.maskSlot_next
  case cfence =>
    exact State.copySlot_next
  case vdot4I8 | vdot4N8 | vdot2I16 | vdot2N16 =>
    exact State.encSlot_next State.slotV3_next
  case rte | rteSw | reraise =>
    exact State.encSlot_next State.slot_next
  case tcpy | tzero | xdisarm =>
    exact State.stallSlot_next State.slot_next
  case tshape => unfold execTshape; exact State.slot_next
  case rqcfg => unfold execRqcfg; exact State.slot_next
  case rcsnap => unfold execRcsnap; exact State.slot_next
  case mpost => unfold execMpost; exact State.stallSlot_next State.slot_next
  case shiftg => unfold execShiftg; exact State.stallSlot_next State.slot_next
  case xbar => unfold execXbar; exact State.stallSlot_next State.slot_next
  case coll => unfold execColl; exact State.stallSlot_next State.slot_next
  case route => unfold execRoute; exact State.stallSlot_next State.slot_next
  case chain => unfold execChain; exact State.stallSlot_next State.slot_next
  case chstep => unfold execChstep; exact State.stallSlot_next State.slot_next
  case chsize => unfold execChsize; exact State.stallSlot_next State.slot_next
  case cpy => unfold execCpy; exact State.copySlot_next
  case cpy2 => unfold execCpy2; exact State.copySlot_next
  case cpyz => unfold execCpyz; exact State.copySlot_next
  case cpyx => unfold execCpyx; exact State.copySlot_next
  case cfill => unfold execCfill; exact State.copySlot_next
  case rld => unfold execRld; exact State.copySlot_next
  case rst => unfold execRst; exact State.copySlot_next
  case rred => unfold execRred; exact State.copySlot_next
  case fput => unfold execFput; exact State.copySlot_next
  case xchg => unfold execXchg; exact State.encSlot_next State.xSlot_next
  case sendif => unfold execSendif; exact State.encSlot_next State.xSlot_next
  case xcmb => unfold execXcmb; exact State.encSlot_next (State.stallSlot_next State.slot_next)
  case xarm => unfold execXarm; exact State.encSlot_next (State.stallSlot_next State.slot_next)
  case movToControl => unfold execMovToControl; exact State.encSlot_next State.slot_next
  all_goals exact .next _

/-! ## The die clock -/

theorem runSlots_next (l : List (Nat × Instr)) (s : State) : Answers (runSlots l s) := by
  induction l generalizing s with
  | nil => exact .next _
  | cons x l ih =>
    obtain ⟨t, ht⟩ := slotMeaning_next (s := s.atSlot x.1) x.2
    rw [runSlots, ht]
    exact ih t

theorem State.issueSlots_next (ws : List Nat) : Answers (s.issueSlots ws) := by
  choose t ht using runSlots_next
  unfold State.issueSlots
  dsimp only
  rw [ht]
  exact .next _

theorem State.issueChecked_next (ws : List Nat) : Answers (s.issueChecked ws) := by
  unfold State.issueChecked
  dsimp only
  refine .ite (.next _) ?_
  split
  · exact .next _
  · split
    · exact .next _
    · exact State.issueSlots_next ws

theorem State.issue_next : Answers s.issue := by
  unfold State.issue
  dsimp only
  split
  · exact .next _
  · refine .ite (.next _) (.ite (.next _) ?_)
    split
    · exact .next _
    · split
      · exact .next _
      · exact State.issueChecked_next _

theorem State.cycle_next : Answers s.cycle := by
  unfold State.cycle
  dsimp only
  refine .ite (.next _) ?_
  split
  case h_2 =>
    obtain ⟨t, ht⟩ := State.issue_next (s := s)
    rw [ht]
    exact .next _
  all_goals exact .next _

theorem State.cycleIf_next (b : Bool) : Answers (s.cycleIf b) := .ite State.cycle_next (.next _)

/-! ## Events -/

theorem State.linkEvent_next {kind : Packet → Bool} {wait : State → Packet → Bool} {act : Packet → State → State} :
    Answers (s.linkEvent kind wait act) := by
  unfold State.linkEvent
  split
  case h_1 => refine .ite ?_ (.next _); split <;> exact .next _
  case h_2 => dsimp only; split; exacts [.ite (.next _) (.next _), .next _]
  case h_3 => exact .next _

theorem State.packetEvent_next {kind : Packet → Bool} {act : Packet → State → State} :
    Answers (s.packetEvent kind act) := State.linkEvent_next

theorem State.wordEvent_next {d via n : Nat} {guy : Option (Nat × Nat)} {ok : Bool} {f : LinkWord} {act : State → State} :
    Answers (s.wordEvent d via guy n ok f act) := by
  unfold State.wordEvent
  split
  · exact .next _
  · cases guy <;> exact .next _

theorem State.pagerAnswer_next {op : Nat} : Answers (s.pagerAnswer op) := by
  unfold State.pagerAnswer
  split
  · dsimp only
    refine .ite (.next _) ?_
    split
    · exact .next _
    · exact .ite (.next _) (.next _)
  · exact .next _

theorem State.queueEvent_next {mine : Nat → Bool} {act : Nat → Nat → W32 → List Byte → State → Option State} :
    Answers (s.queueEvent mine act) := by
  unfold State.queueEvent
  split
  · split
    · exact .next _
    · dsimp only
      refine .ite (.next _) (.ite (.next _) ?_)
      split <;> exact .next _
  · exact .next _

theorem execResetTenant_next : Answers (execResetTenant s) := by
  unfold execResetTenant
  split
  case h_1 => exact .next _
  case h_2 =>
    refine .ite (.next _) ?_
    choose t ht using @State.queueEvent_next
    rw [ht]
    exact .next _
  case h_3 => exact .next _

/-- Every row of the opcode table answers: a slot by `slotMeaning_next`, an event by the branches of its own definition. -/
theorem exec_next (i : Instr) : Answers (exec i s) := by
  have slots (h : exec i s = slotMeaning i s) : Answers (exec i s) := h ▸ slotMeaning_next i
  cases i
  case issueBundle => exact State.cycle_next
  case stallEnd | longWait | resultLands | sramAccessPerformed | sramLoadLands | freezeEnd | trapDelivery |
      trapCyclesEnd | returnCyclesEnd | energyRefill =>
    exact State.cycleIf_next _
  case routerForward | detourForward => exact State.linkEvent_next
  case ready | abort | routeRowReceive | exchangeData | writePacket | readRequest | flagPacket | atomicPacket |
      reduceStore | readResponse | atomicResponse | transferAcknowledgement | unreachableNotice =>
    exact State.packetEvent_next
  case supply | refuse | discard | reclaim => exact State.pagerAnswer_next
  case submitJob | submitChain | cancel | registerPager | withdrawPager | readDump =>
    unfold exec
    exact State.queueEvent_next
  case resetTenant => exact execResetTenant_next
  case linkAcknowledgement | negativeAcknowledgement | replayTimeout | guylineSwitchBack | lossOfSignal |
      managementEnable | managementDisable | failedRetrain | trainingComplete | trainTimeout | rekeyStart |
      rekeyComplete | nonceLimit | park | parkack | issueBufferEnter | blockTransfer | pgresRead | xarmFire |
      exchangeTimeout | commandStart | commandComplete | tileOpComplete | correctableError | patrolScrub |
      uncorrectableError | fatalTrap | windowTableWrite | codeStoreLoad | thermalLimit | evovfClear | cxlMemAccess |
      firmwareImageWrite | spdmMeasurement | imageSecretInstall | readyBitSet | evrdWrite | controlPathRegisterWrite |
      qtailWrite | tenantConfigWrite | aging | quantumExpiry | jobEnd | captureComplete | resume | dumpComplete |
      dieReturnTimeout | walkerRound | chainStepStart | chainTaskPost | taskDispatch | wtlockSet | packageReset |
      placementPass | drainRequest | imageCapture | scanStop | drainEscalation | budtgtSet | buddyPointAbandon |
      dieReset =>
    dsimp only [exec, execLinkAcknowledgement, execNegativeAcknowledgement, execReplayTimeout, execGuylineSwitchBack,
        execLossOfSignal, execManagementEnable, execManagementDisable, execFailedRetrain, execTrainingComplete,
        execTrainTimeout, execRekeyStart, execRekeyComplete, execNonceLimit, execPark, execParkack,
        execIssueBufferEnter, execBlockTransfer, execPgresRead, execXarmFire, execExchangeTimeout, execCommandStart,
        execCommandComplete, execTileOpComplete, execCorrectableError, execPatrolScrub, execUncorrectableError,
        execFatalTrap, execWindowTableWrite, execCodeStoreLoad, execThermalLimit, execEvovfClear, execCxlMemAccess,
        execFirmwareImageWrite, execSpdmMeasurement, execImageSecretInstall, execReadyBitSet, execEvrdWrite,
        execControlPathRegisterWrite, execQtailWrite, execTenantConfigWrite, execAging, execQuantumExpiry, execJobEnd,
        execCaptureComplete, execResume, execDumpComplete, execDieReturnTimeout, execWalkerRound, execChainStepStart,
        execChainTaskPost, execTaskDispatch, execWtlockSet, execPackageReset, execPlacementPass, execDrainRequest,
        execImageCapture, execScanStop, execDrainEscalation, execBudtgtSet, execBuddyPointAbandon, execDieReset]
    repeat' first | with_reducible exact .next _ | with_reducible exact State.wordEvent_next | split
  all_goals exact slots rfl

theorem State.take_next (u : Turn) : Answers (s.take u) := by
  choose t ht using @exec_next
  unfold State.take
  rw [ht]
  exact .ite (exec_next _) (.next _)

theorem step_next : Answers (step s) := by
  unfold step
  refine .ite (exec_next _) ?_
  split
  · exact exec_next _
  · split
    · exact State.take_next _
    · exact exec_next _

end Sys2Proof.Machine
end

section
/-! The statement about every instruction and every step. -/

namespace Sys2Proof.Machine

/-- Settles O57, by the rows of the opcode table and the cases of `step`. -/
theorem everyStepAnswers : Obligations.EveryStepAnswers := ⟨fun _ _ => exec_next _, fun _ => step_next⟩

end Sys2Proof.Machine
end

section
/-! The copy commands and the remote operations: one command slot each, whose first fault is that of its limits. -/

namespace Sys2Proof.Machine

theorem firstFault_limitFault {ok : Bool} {fs : List (Option SFault)} :
    firstFault (limitFault ok :: fs) = if ok then firstFault fs else some (.illegal 0xA) := by
  cases ok <;> rfl

theorem State.copySlot_commandSlot {s : State} {g u : BitVec 4} {fs : List (Option SFault)} {op : CopyOp}
    {flag : Option (Nat × W64)} :
    CommandSlot s g s.copyFull (firstFault fs) (s.postCopy u.toNat op flag) (s.copySlot g u fs op flag) :=
  State.stallSlot_commandSlot (f := fun s => s.postCopy u.toNat op flag)

theorem State.copySlot_limited {s : State} {g u : BitVec 4} (ok : Bool) (fs : List (Option SFault)) (op : CopyOp)
    (flag : Option (Nat × W64)) :
    CommandSlot s g s.copyFull (if ok then firstFault fs else some (.illegal 0xA)) (s.postCopy u.toNat op flag)
      (s.copySlot g u (limitFault ok :: fs) op flag) := by
  rw [← firstFault_limitFault]
  exact State.copySlot_commandSlot

/-- Settles O24: each copy command is a copy slot behind the limits of its row. -/
theorem copyCommands : Obligations.CopyCommands := by
  unfold Obligations.CopyCommands
  refine ⟨fun s g u e f => ⟨?_, ?_, ?_, ?_⟩, fun s g u e p => ⟨?_, ?_⟩⟩
  · exact State.copySlot_limited _ _ _ _
  · exact State.copySlot_limited _ _ _ _
  · exact State.copySlot_limited _ _ _ _
  · exact State.copySlot_commandSlot
  · exact State.copySlot_limited _ [] _ _
  · exact State.copySlot_limited _ [] _ _

/-- Settles O25: each remote operation is a copy slot behind the limits of its row. -/
theorem remoteOperations : Obligations.RemoteOperations := by
  unfold Obligations.RemoteOperations
  refine fun s g u e p f => ⟨?_, ?_, ?_, ?_, ?_, ?_⟩
  · exact State.copySlot_limited _ _ _ _
  · exact State.copySlot_limited _ _ _ _
  · exact State.copySlot_limited _ _ _ _
  · exact State.copySlot_limited _ _ _ _
  · exact State.copySlot_limited _ _ _ _
  · exact State.copySlot_commandSlot

end Sys2Proof.Machine
end

section
/-! What a bundle's commands do at the end of their issue cycle (R138): one late act, with no ENRES of the bundle. -/

namespace Sys2Proof.Machine

/-- Nothing that a completion does asks for energy: its policies leave what the bundle asked, or nothing (R170). -/
def State.NoEnres (s : State) : Prop := s.stream.ask.enres = none

theorem State.NoEnres.of_stream {s t : State} (h : s.NoEnres) (e : t.stream.ask = s.stream.ask) : t.NoEnres := by
  unfold NoEnres
  rw [e]
  exact h

theorem State.NoEnres.emit {s : State} (h : s.NoEnres) (t : Nat) (e : Event) : (s.emit t e).NoEnres :=
  h.of_stream (congrArg (·.ask) (s.emit_frame t e).1)

theorem State.NoEnres.dump {s : State} (h : s.NoEnres) (k : Nat) (c : Byte) (l : Nat) : (s.dump k c l).NoEnres :=
  h.of_stream (congrArg (·.ask) (s.dump_frame k c l).1)

theorem State.NoEnres.endProgram {s : State} (h : s.NoEnres) (e : Bool) : (s.endProgram e).NoEnres := by
  unfold State.endProgram
  split <;> exact h

theorem State.NoEnres.fatalTrap {s : State} (h : s.NoEnres) (c : Byte) (i a : W64) : (s.fatalTrap c i a).NoEnres := by
  unfold State.fatalTrap
  dsimp only
  split
  · exact NoEnres.emit (s := { s with stream.mode := .fatal, ctl := _, pkg := _ }) h _ _
  · exact NoEnres.dump (s := { s with stream.mode := .fatal, ctl := _, pkg := _ }) h _ _ _

theorem State.NoEnres.levelTwo {s : State} (h : s.NoEnres) (c : Byte) (a : W64) (l : Bool) : (s.levelTwo c a l).NoEnres := by
  have kill : ((s.endProgram false).dump 4 c 2).NoEnres := (h.endProgram false).dump _ _ _
  have parent : (s.fatalTrap 0x21 (c.zeroExtend 64) a).NoEnres := h.fatalTrap _ _ _
  unfold State.levelTwo
  dsimp only
  split
  · exact iteInduction (motive := NoEnres) (fun _ => h) fun _ => kill
  · split
    · exact iteInduction (motive := NoEnres) (fun _ => rfl) fun _ => parent
    · exact parent
  · exact kill
  · exact parent

theorem State.NoEnres.raisePending {s : State} (h : s.NoEnres) (c : Byte) (i a : W64) : (s.raisePending c i a).NoEnres := by
  unfold State.raisePending
  exact iteInduction (motive := NoEnres) (fun _ => h.levelTwo _ _ _) fun _ =>
    iteInduction (motive := NoEnres) (fun _ => h) fun _ => h

theorem State.NoEnres.passUp {s : State} (h : s.NoEnres) (ctx n : Nat) (st : Byte) : (s.passUp ctx n st).NoEnres :=
  h.raisePending _ _ _

theorem State.NoEnres.complete {s : State} (h : s.NoEnres) (ctx n : Nat) (pol : BitVec 2) (st : Byte) :
    (s.complete ctx n pol st).NoEnres := by
  unfold State.complete
  dsimp only
  refine iteInduction (motive := NoEnres) (fun _ => iteInduction (motive := NoEnres) (fun _ => ?_) fun _ => h) fun _ => h
  refine NoEnres.passUp ?_ _ _ _
  exact h

/-- The only late act of a bundle, when it leaves no ENRES. -/
theorem State.lateActs_one {s : State} {x : Instr × Nat × List W64} (h : s.stream.ask.late = [x]) (none : (s.lateAct x).NoEnres) :
    s.lateActs = s.lateAct x := by
  unfold lateActs
  simp only [h, List.foldl_cons, List.foldl_nil, if_pos]
  rw [none]

theorem polOf_eq (vals : List W64) (i : Nat) : polOf vals i = BitVec.ofNat 2 (vals.getD i 0).toNat :=
  (BitVec.ofNat_toNat _ _).symm

/-- The context is killed from a number below `num` on (R170). -/
theorem State.cancels_iff {s : State} {ctx num : Nat} :
    s.cancels ctx num = true ↔ (s.line ctx).killed = true ∧ (s.line ctx).killedAt < num := by
  simp [cancels]

section
variable {s : State} {num : Nat} {g e : BitVec 4} {x b h p : W64} (none : s.NoEnres)
include none

theorem State.lateActs_rqcfg (late : s.stream.ask.late = [(.rqcfg g e, num, [x, b, h, p])]) :
    s.lateActs = s.rqConfigure num [x, b, h, p] := by
  refine lateActs_one late ?_
  unfold lateAct rqConfigure
  dsimp only
  exact iteInduction (motive := NoEnres) (fun _ => none.complete _ _ _ _) fun _ =>
    iteInduction (motive := NoEnres) (fun _ => none.complete _ _ _ _) fun _ => NoEnres.complete (s := setRowQ _ _ _) none _ _ _ _

theorem State.lateActs_rqreset (late : s.stream.ask.late = [(.rqreset g e, num, [x, p])]) :
    s.lateActs = s.rqReset num [x, p] := by
  refine lateActs_one late ?_
  unfold lateAct rqReset
  dsimp only
  exact iteInduction (motive := NoEnres) (fun _ => none.complete _ _ _ _) fun _ =>
    iteInduction (motive := NoEnres) (fun _ => none.complete _ _ _ _) fun _ => NoEnres.complete (s := setRowQ _ _ _) none _ _ _ _

theorem State.lateActs_rcsnap (late : s.stream.ask.late = [(.rcsnap g e, num, [x, p])]) :
    s.lateActs = s.rcCapture num [x, p] := by
  refine lateActs_one late ?_
  unfold lateAct rcCapture
  dsimp only
  exact iteInduction (motive := NoEnres) (fun _ => none.complete _ _ _ _) fun _ => none

theorem State.lateActs_chabort (late : s.stream.ask.late = [(.chabort g, num, [p])]) :
    s.lateActs = s.chainAbort num [p] := by
  refine lateActs_one late ?_
  unfold lateAct chainAbort
  dsimp only
  exact iteInduction (motive := NoEnres) (fun _ => none.complete _ _ _ _) fun _ =>
    iteInduction (motive := NoEnres) (fun _ => none.complete _ _ _ _) fun _ => none

end

/-! ## Completions -/

theorem State.complete_ok {s : State} {ctx n : Nat} {pol : BitVec 2} {st : Byte} (h : isError st = false) :
    s.complete ctx n pol st = s.setLine ctx ((s.line ctx).complete n) := by
  unfold complete
  rw [h]
  rfl

theorem State.storeWatched_unwatched {s : State} (h : s.Unwatched) (a : Nat) (bs : List Byte) (src : W64) :
    s.storeWatched a bs src = s.storeEng a bs := by
  unfold storeWatched watchWrite
  rw [show (s.storeEng a bs).ctl.engineWatch a bs.length = none from h a bs.length]
  split <;> rfl

theorem commandComplete_finishes {s : State} {ctx num : Nat} (run : s.halted = false)
    (due : num ∈ ({ s with arg := .two ctx num } : State).completable ctx) :
    exec .commandComplete { s with arg := .two ctx num } = .next (({ s with arg := .two ctx num } : State).finish ctx num) := by
  show Host.Outcome.next (ite _ _ _) = _
  rw [if_pos]
  exact Bool.and_eq_true_iff.2 ⟨congrArg (! ·) run, List.contains_iff_mem.2 due⟩

/-! ## The late acts of the walker and of the contraction engine -/

section
variable {s : State} {num : Nat} {vals : List W64}

theorem State.rqConfigure_dead (h : s.cancels 10 num = true) : s.rqConfigure num vals = s.complete 10 num (polOf vals 3) 0x17 :=
  if_pos h

theorem State.rqReset_dead (h : s.cancels 10 num = true) : s.rqReset num vals = s.complete 10 num (polOf vals 1) 0x17 :=
  if_pos h

theorem State.rcCapture_dead (h : s.cancels 10 num = true) : s.rcCapture num vals = s.complete 10 num (polOf vals 1) 0x17 :=
  if_pos h

theorem State.chainAbort_dead (h : s.cancels 9 num = true) : s.chainAbort num vals = s.complete 9 num (polOf vals 0) 0x17 :=
  if_pos h

end

theorem State.finishSnap_alone {s : State} {c : WCmd} {dst : Nat} {counts : Vector W32 256} (un : s.Unwatched)
    (one : s.eng.snaps = [c]) (op : c.op = .rcsnap dst counts) (running : c.status = none) :
    s.finishSnap c = ({ s.storeEng dst (counts.toList.flatMap fun x => leBytes 4 x.toNat) with
      eng := { s.eng with snaps := [] } } : State).setLine 10 ((s.line 10).complete c.num) := by
  unfold finishSnap
  rw [op, running]
  dsimp only
  rw [storeWatched_unwatched un, storeEng_eng, one, if_pos (by simp), complete_ok rfl]
  simp only [ne_eq, not_true_eq_false, decide_false, List.filter_cons_of_neg, List.filter_nil, Bool.false_eq_true,
    not_false_eq_true]
  rfl

theorem State.finish_snap {s : State} {c : WCmd} (idle : s.eng.walker = []) (one : s.eng.snaps = [c]) :
    s.finish 10 c.num = s.finishSnap c := by
  unfold finish
  rw [if_neg (by decide), if_neg (by decide), if_neg (by decide), if_neg (by decide), idle, one, List.find?_nil,
    List.find?_cons_of_pos (by simp)]

/-- The slots that act late: a number of their context, and the act with the values of issue. -/
theorem State.slot_commandSlot {s : State} {g : BitVec 4} (x : Option SFault) (f : State → State) :
    CommandSlot s g false x (f s) (s.slot g x f) := State.stallSlot_commandSlot (full := false)

/-- The form of a command that takes a number at issue and acts at the end of the cycle. -/
theorem State.late_commandSlot {s : State} {g : BitVec 4} {x : Option SFault} (ctx : Nat) (i : Instr) (vals : State → List W64) :
    CommandSlot s g false x
      { (s.takeNumber ctx).1 with stream.ask.late := s.stream.ask.late ++ [(i, ((s.line ctx).issued + 1).toNat, vals s)] }
      (s.slot g x fun s => (s.takeNumber ctx).1.later i (s.takeNumber ctx).2 (vals s)) :=
  State.slot_commandSlot _ fun s => (s.takeNumber ctx).1.later i (s.takeNumber ctx).2 (vals s)

theorem firstFault_two {ok : Bool} {x : Option SFault} :
    firstFault [limitFault ok, x] = if ok then x else some (.illegal 0xA) := by
  rw [firstFault_limitFault]
  cases x <;> rfl

theorem firstFault_decide {p : Prop} [Decidable p] {ok : Bool} (h : ok = true ↔ p) {x : Option SFault} :
    firstFault [limitFault ok, x] = if p then x else some (.illegal 0xA) := by
  rw [firstFault_two]
  exact if_congr h rfl rfl

theorem firstFault_decides {p q r t : Prop} [Decidable p] [Decidable q] [Decidable r] [Decidable t] {x : Option SFault} :
    firstFault [limitFault (decide p && decide q && decide r && decide t), x] =
      if p ∧ q ∧ r ∧ t then x else some (.illegal 0xA) :=
  firstFault_decide (by simp only [Bool.and_eq_true, decide_eq_true_eq, and_assoc])

/-- Whether a row queue holds rows, as RQCFG sees it at issue (R278). -/
theorem rowsHeld_eq {n : Nat} {l : List (Nat × Nat)} :
    (if decide (0 < n) || !l.isEmpty then (1 : W64) else 0) = if 0 < n ∨ l ≠ [] then 1 else 0 := by
  refine if_congr ?_ rfl rfl
  simp

/-- Settles O29: the late acts by their rows, the completion of an RCSNAP, and the slots behind their limits. -/
theorem collectiveAndChainCommands : Obligations.CollectiveAndChainCommands := by
  unfold Obligations.CollectiveAndChainCommands
  refine ⟨fun s g e num x b h p none => ⟨?_, ?_, ?_, ?_, ?_, ?_, ?_⟩, ?_, fun s g u e => ⟨?_, ?_, ?_, ?_, ?_⟩, fun s g e => ⟨?_, ?_, ?_, ?_⟩⟩
  · rintro dead (late | late | late)
    · rw [State.lateActs_rqcfg none late, State.rqConfigure_dead (State.cancels_iff.2 dead), polOf_eq]; rfl
    · rw [State.lateActs_rqreset none late, State.rqReset_dead (State.cancels_iff.2 dead), polOf_eq]; rfl
    · rw [State.lateActs_rcsnap none late, State.rcCapture_dead (State.cancels_iff.2 dead), polOf_eq]; rfl
  · intro alive late
    rw [State.lateActs_rqcfg none late]
    unfold State.rqConfigure
    rw [if_neg (mt State.cancels_iff.1 alive), polOf_eq]
    rfl
  · intro alive late
    rw [State.lateActs_rqreset none late]
    unfold State.rqReset
    dsimp only
    rw [if_neg (mt State.cancels_iff.1 alive), polOf_eq]
    refine if_congr ?_ rfl rfl
    simp
  · intro alive late
    rw [State.lateActs_rcsnap none late]
    unfold State.rcCapture
    dsimp only
    rw [if_neg (mt State.cancels_iff.1 alive), polOf_eq]
    exact ⟨_, rfl, rfl, rfl, rfl, rfl⟩
  · intro dead late
    rw [State.lateActs_chabort none late, State.chainAbort_dead (State.cancels_iff.2 dead), polOf_eq]
    rfl
  · intro alive late idle
    rw [State.lateActs_chabort none late]
    unfold State.chainAbort
    dsimp only
    rw [if_neg (mt State.cancels_iff.1 alive), if_pos (by simp [idle]), polOf_eq]
    rfl
  · intro c d alive late two nc nd hcop hdop started open_ waits
    rw [State.lateActs_chabort none late]
    unfold State.chainAbort
    dsimp only
    rw [if_neg (mt State.cancels_iff.1 alive), if_neg (by simp [two]), polOf_eq]
    refine ⟨{ s.ctl.chcmd num .abort with pol := BitVec.ofNat 2 p.toNat }, rfl, rfl, rfl, rfl, ?_⟩
    rw [two, List.map_cons, List.map_cons, List.map_nil]
    rw [if_neg (not_or.2 ⟨nc.not_ge, hcop⟩), if_neg (not_or.2 ⟨nd.not_ge, hdop⟩), started, open_, waits]
    simp only [Bool.not_true, Bool.not_false, Bool.false_eq_true, if_false, if_true, Option.isSome_none]
    by_cases stays : c.halted = true ∨ c.posted ≠ []
    · rw [if_pos stays, if_pos (by simpa using stays)]
      simp
    · rw [if_neg stays, if_neg (by simpa using stays)]
      simp
  · intro s c dst counts run un idle one op running
    let e : State := { s with arg := .two 10 c.num }
    have ends : e.finish 10 c.num = _ := (State.finish_snap (s := e) idle one).trans (State.finishSnap_alone un one op running)
    refine ⟨_, (commandComplete_finishes run (by simp [State.completable, idle, one])).trans (congrArg _ ends), rfl, rfl, rfl, ?_⟩
    exact State.line_setLine (by decide)
  · rw [← firstFault_decide (decide_eq_true_iff (p := _ % 32 = 0))]
    exact State.stallSlot_commandSlot (f := fun s => s.postW (.coll _))
  · rw [← firstFault_decides]
    exact State.stallSlot_commandSlot (f := fun s => s.postW (.route _ _ _ _))
  · show CommandSlot s g false _ _ (s.slot g (firstFault [limitFault _, _]) fun t =>
      (t.takeNumber 10).1.later (.rqcfg g e) (t.takeNumber 10).2 [BitVec.ofNat 64 (s.stage e 0), BitVec.ofNat 64 (s.stage e 1),
        if decide (0 < _) || !_ then 1 else 0, t.ctl.pol1.zeroExtend 64])
    rw [firstFault_two, rowsHeld_eq, State.stage, State.stage, BitVec.ofNat_toNat, BitVec.ofNat_toNat, BitVec.setWidth_eq,
      BitVec.setWidth_eq, List.countP_eq_length_filter]
    exact State.late_commandSlot 10 _ fun t => [s.regs.re _, s.regs.re _, _, t.ctl.pol1.zeroExtend 64]
  · exact State.late_commandSlot 10 _ fun s => [s.regs.re e.toNat, s.ctl.pol1.zeroExtend 64]
  · rw [← firstFault_decide (decide_eq_true_iff (p := _ % 1024 = 0))]
    exact State.late_commandSlot 10 _ fun s => [s.regs.re e.toNat, s.ctl.pol1.zeroExtend 64]
  · exact State.stallSlot_commandSlot (f := fun s => s.postChain _)
  · exact State.stallSlot_commandSlot (f := fun s => s.postChain _)
  · exact State.stallSlot_commandSlot (f := fun s => s.postChain _)
  · exact State.late_commandSlot 9 _ fun s => [s.ctl.pol1.zeroExtend 64]

end Sys2Proof.Machine
end

section
/-! Direct matrix commands, drains and MPOST at issue (R246 to R255). -/

namespace Sys2Proof.Machine

theorem State.areg_eq {s : State} {v : BitVec 5} : s.areg v = (s.regs.ra (BitVec.ofNat 4 v.toNat)).toNat := by
  rw [areg, BitVec.ofNat_toNat, BitVec.truncate]

theorem State.matrixSlot_commandSlot {s : State} {g y : BitVec 4} {pair : Bool} {x : Option SFault} {op : MatOp} {sh : BitVec 24} :
    CommandSlot s g (s.matrixFull pair y) x (s.postMatrix op sh 0) (s.matrixSlot g pair y x op sh) :=
  State.stallSlot_commandSlot (f := fun s => s.postMatrix op sh 0)

theorem State.imageSlot_commandSlot {s : State} {g x y : BitVec 4} {pair : Bool} {v : BitVec 5} (op : Option Nat → MatOp) :
    let a := (s.regs.ra (BitVec.ofNat 4 v.toNat)).toNat / 32 * 32
    CommandSlot s g (s.matrixFull pair y) (imageFault 0xB a (imageBytes (s.tshapeOf x) false) false)
      (s.postMatrix (op (some a)) (s.tshapeOf x) 0) (s.imageSlot g x pair y (some v) op) := by
  rw [← State.areg_eq]
  exact State.matrixSlot_commandSlot

theorem State.drainSlot_commandSlot {s : State} {g x y : BitVec 4} {v : BitVec 5} (pair tr toMem : Bool) :
    let sh := s.tshapeOf x
    let ctl := (s.regs.re v.toNat).toNat
    let blk := (s.regs.re (v.toNat + 1)).toNat
    let mem := if toMem then some ((s.regs.re (v.toNat + 2)).toNat / 32 * 32) else none
    let post (s : State) : State :=
      let t := s.postMatrix (.drain pair tr y x mem (BitVec.ofNat 9 ctl) blk) sh s.ctl.srstate
      if ctl % 4 = 2 then { t with ctl.srstate := (drawList (drainCount sh) s.ctl.srstate).2 } else t
    CommandSlot s g (s.matrixFull pair y) (drainFault sh ctl blk mem) (post s) (s.drainSlot g x y v pair tr toMem) :=
  State.stallSlot_commandSlot (f := fun _ => _)

/-- Settles O22: each form is one command slot of the class 0xA helpers. -/
theorem matrixCommands : Obligations.MatrixCommands := by
  unfold Obligations.MatrixCommands
  refine ⟨fun s g x y v f z => ⟨?_, ?_, ?_, ?_, ?_, ?_, ?_, ?_, ?_, ?_, ?_, ?_⟩, fun s g x y v => ⟨?_, ?_, ?_, ?_, ?_⟩,
    fun s g v => ⟨rfl, ?_, ?_⟩⟩
  case refine_1 | refine_3 | refine_5 | refine_6 | refine_7 | refine_9 | refine_11 | refine_12 =>
    exact State.matrixSlot_commandSlot
  case refine_2 => exact State.imageSlot_commandSlot fun m => .load false y x m f
  case refine_4 => exact State.imageSlot_commandSlot fun m => .load true y x m f
  case refine_8 => exact State.imageSlot_commandSlot fun m => .stream false y x m f (z == 1)
  case refine_10 => exact State.imageSlot_commandSlot fun m => .stream true y x m f (z == 1)
  case refine_13 => exact State.drainSlot_commandSlot false false false
  case refine_14 => exact State.drainSlot_commandSlot false false true
  case refine_15 => exact State.drainSlot_commandSlot true false false
  case refine_16 => exact State.drainSlot_commandSlot true false true
  case refine_17 => exact State.drainSlot_commandSlot false true false
  case refine_18 => exact congrArg Timeline.issued (State.line_setLine (by decide))
  case refine_19 =>
    rw [← State.areg_eq]
    exact State.stallSlot_commandSlot (f := fun t => (t.takeNumber 8).1.later (.mpost g v) (t.takeNumber 8).2
      (BitVec.ofNat 64 (s.areg v / 64 * 64) :: t.ctl.pol1.zeroExtend 64 :: t.ctl.srstate ::
        t.ctl.tshape.toList.map (·.zeroExtend 64)))

end Sys2Proof.Machine
end

section
/-! Exchange commands at issue (R268 to R276). -/

namespace Sys2Proof.Machine

theorem State.dimCause_inside {s : State} {j : Nat} (h : j < s.ctl.dims) : s.dimCause j = none := if_neg (by omega)

theorem State.encSlot_inside {s : State} {j : Nat} (h : j < s.ctl.dims) {r : Out} : s.encSlot (s.dimCause j) r = r := by
  rw [State.dimCause_inside h]
  rfl

theorem State.xSlot_commandSlot {s : State} {g : BitVec 4} (q n : Nat) (hs : List HalfSpec) (c : Option Combine) (dim : Nat) :
    CommandSlot s g (s.xFull q) (firstFault (halfFaults q n hs)) (s.postX q hs c dim none false).1 (s.xSlot g q n hs c dim) :=
  State.stallSlot_commandSlot (f := fun s => (s.postX q hs c dim none false).1)

theorem append_ite_nil {α : Type} {c : Prop} [Decidable c] (l r : List α) :
    l ++ (if c then [] else r) = if c then l else l ++ r := by
  split
  · exact List.append_nil l
  · rfl


/-! ## The combination of XCMB (R79, R272) -/

theorem leNat_lt : ∀ bs : List Byte, leNat bs < 2 ^ (8 * bs.length)
  | [] => Nat.one_pos
  | b :: bs => by
    have rest := leNat_lt bs
    have byte := b.isLt
    rw [leNat, List.length_cons, show 8 * (bs.length + 1) = 8 + 8 * bs.length by omega, Nat.pow_add]
    omega

theorem State.load_length (s : State) (a n : Nat) : (s.load a n).length = n := by simp [load, oldBytes]

theorem State.leNat_load_lt (s : State) (a n : Nat) : leNat (s.load a n) < 2 ^ (8 * n) := by
  simpa [load_length] using leNat_lt (s.load a n)

theorem State.load_slice (s : State) {a n k w : Nat} (h : k + w ≤ n) : ((s.load a n).drop k).take w = s.load (a + k) w := by
  refine List.ext_getElem (by simp [load_length]; omega) fun i _ _ => ?_
  simp [load, oldBytes, Nat.add_assoc]

theorem elems_load (s : State) (w a n : Nat) :
    elems w (s.load a n) = (List.range (n / w)).map fun i => leNat (s.load (a + w * i) w) := by
  unfold elems
  rw [State.load_length]
  refine List.map_congr_left fun i hi => congrArg leNat (s.load_slice ?_)
  have := Nat.mul_le_mul_left w (Nat.succ_le_of_lt (List.mem_range.1 hi))
  have := Nat.mul_div_le n w
  simp only [Nat.succ_eq_add_one, Nat.mul_add, Nat.mul_one] at *
  omega

theorem slice_map_range {α : Type} {n k w : Nat} (f : Nat → α) (h : k + w ≤ n) :
    (((List.range n).map f).drop k).take w = (List.range w).map fun i => f (k + i) := by
  refine List.ext_getElem (by simp; omega) fun i _ _ => ?_
  simp

theorem zipIdx_map_range {α : Type} (n : Nat) (f : Nat → α) :
    ((List.range n).map f).zipIdx = (List.range n).map fun i => (f i, i) := by
  refine List.ext_getElem (by simp) fun i _ _ => ?_
  simp

theorem getElem?_flatMap_range {α : Type} {n k j i : Nat} {f : Nat → List α} (hf : ∀ x, (f x).length = n) (hj : j < k)
    (hi : i < n) : ((List.range k).flatMap f)[n * j + i]? = (f j)[i]? := by
  have block := take_drop_flatMap hf (List.range k) j (by simpa using hj)
  rw [List.getElem_range] at block
  rw [← block, List.getElem?_take_of_lt hi, List.getElem?_drop]

/-- One pair of elements, by format and operation. -/
theorem xcombine_eq {f : BitVec 3} {o : BitVec 2} {x y : Nat} (hf : f.toNat ≤ 4) (hx : x < 2 ^ 32) (hy : y < 2 ^ 32) :
    let F : Fmt := if f = 0 then f32 else if f = 1 then bf16 else f16
    let signed (x : Nat) : Int := if f = 3 ∧ 2 ^ 31 ≤ x then (x : Int) - 2 ^ 32 else x
    xcombine f o x y = if f.toNat ≤ 2 then
        (if o = 0 then F.addB x y else (if o = 1 then F.maxB x y else F.minB x y, 0))
      else (if o = 0 then (x + y) % 2 ^ 32 else if o = 1 then (if signed x < signed y then y else x)
            else (if signed y < signed x then y else x), 0) := by
  have formats : ∀ f : BitVec 3, f.toNat ≤ 4 → f = 0 ∨ f = 1 ∨ f = 2 ∨ f = 3 ∨ f = 4 := by decide
  have signed (z : Nat) (h : z < 2 ^ 32) : toSigned 32 z = (if 2 ^ 31 ≤ z then (z : Int) - 2 ^ 32 else z : Int) := by
    unfold toSigned
    rw [Nat.mod_eq_of_lt h]
    split <;> split <;> first | rfl | omega
  rcases formats f hf with rfl | rfl | rfl | rfl | rfl
  case inl | inr.inl | inr.inr.inl =>
    show (if o = 0 then _ else if o = 1 then (_, 0) else (_, 0)) = if o = 0 then _ else (if o = 1 then _ else _, 0)
    exact ite_congr rfl (fun _ => rfl) fun _ => (apply_ite (·, (0 : BitVec 6)) _ _ _).symm
  case inr.inr.inr.inl =>
    show (if o = 0 then ((x + y) % 2 ^ 32, (0 : BitVec 6)) else if o = 1 then (if toSigned 32 x < toSigned 32 y then y else x, 0)
      else (if toSigned 32 y < toSigned 32 x then y else x, 0)) = _
    rw [signed x hx, signed y hy]
    split
    · simp [*]
    · split <;> simp [*]
  case inr.inr.inr.inr =>
    show (if o = 0 then ((x + y) % 2 ^ 32, (0 : BitVec 6)) else if o = 1 then (max x y, 0) else (min x y, 0)) = _
    rw [max_def_lt, min_comm, min_def_lt]
    split
    · simp [*]
    · split <;> simp [*]

/-- The combine without counts. -/
theorem Combine.run_plain {m : Combine} {lo hi clo chi : List Nat} (h : m.ns = 0) :
    m.run lo hi clo chi = ((lo.zip hi).map fun p => xcombine m.fmt m.op p.1 p.2, []) := if_pos h

/-- The elements of one group, and whether all of them are valid. -/
def groupValid (m : Combine) (per : Nat) (x k : Nat → Nat) (j : Nat) : Bool :=
  decide (k j ≠ 0) && !((List.range per).map fun i => x (per * j + i)).any (xNan m.fmt)

/-- An element of a group under NaN-skip. -/
def skipElem (m : Combine) (per : Nat) (lo hi clo chi : Nat → Nat) (j i : Nat) : Nat × BitVec 6 :=
  if groupValid m per lo clo j && groupValid m per hi chi j then xcombine m.fmt m.op (lo (per * j + i)) (hi (per * j + i))
  else if groupValid m per lo clo j then (lo (per * j + i), 0)
  else if groupValid m per hi chi j then (hi (per * j + i), 0) else (0, 0)

/-- The count of a group under NaN-skip. -/
def skipCount (m : Combine) (per limit : Nat) (lo hi clo chi : Nat → Nat) (j : Nat) : Nat :=
  min ((if groupValid m per lo clo j then clo j else 0) + (if groupValid m per hi chi j then chi j else 0)) limit

/-- The combine with counts: group after group. -/
theorem Combine.run_skip {m : Combine} {n k : Nat} {lo hi clo chi : Nat → Nat} (h : m.ns ≠ 0)
    (all : k * (if m.ns = 1 then 1 else 32) ≤ n) :
    let per := if m.ns = 1 then 1 else 32
    let limit := if m.ns = 1 then 255 else 65535
    m.run ((List.range n).map lo) ((List.range n).map hi) ((List.range k).map clo) ((List.range k).map chi) =
      ((List.range k).flatMap fun j => (List.range per).map (skipElem m per lo hi clo chi j),
        (List.range k).map (skipCount m per limit lo hi clo chi)) := by
  intro per limit
  have groups (j : Nat) (hj : j < k) :
      skipGroup m.fmt m.op limit ((((List.range n).map lo).drop (per * j)).take per)
        ((((List.range n).map hi).drop (per * j)).take per) (clo j) (chi j) =
      ((List.range per).map (skipElem m per lo hi clo chi j), skipCount m per limit lo hi clo chi j) := by
    have inside : per * j + per ≤ n := by
      have := Nat.mul_le_mul_right per (Nat.succ_le_of_lt hj)
      rw [Nat.succ_mul, Nat.mul_comm j] at this
      exact this.trans all
    rw [slice_map_range lo inside, slice_map_range hi inside]
    unfold skipGroup
    rw [List.zip_map']
    dsimp only
    rw [List.map_map]
    rfl
  unfold Combine.run
  rw [if_neg h, List.zip_map', zipIdx_map_range]
  refine Prod.ext ?_ ?_
  · show List.flatMap _ (List.map _ _) = _
    rw [List.flatMap_map, List.flatMap_map]
    exact List.flatMap_congr fun j hj => congrArg Prod.fst (groups j (List.mem_range.1 hj))
  · show List.map _ (List.map _ _) = _
    rw [List.map_map, List.map_map]
    exact List.map_congr_left fun j hj => congrArg Prod.snd (groups j (List.mem_range.1 hj))

/-- What a combine writes and raises, where no watchpoint watches. -/
theorem State.combineX_unwatched {s : State} {q : Nat} {c : XCmd} {m : Combine} (un : s.Unwatched) (low : Bool)
    (hlow : (!s.ctl.diecoord.getLsbD (s.ctl.phys c.dim)) = low) :
    let w := xWidth m.fmt
    let cw := if m.ns = 1 then 1 else 2
    let cn := countBytes m.fmt m.ns m.len
    let r := m.run (elems w (s.load (if low then m.a else m.r) m.len)) (elems w (s.load (if low then m.r else m.a) m.len))
      (elems cw (s.load (if low then m.c else m.cr) cn)) (elems cw (s.load (if low then m.cr else m.c) cn))
    let a := s.storeEng m.a (r.1.flatMap fun e => leBytes w e.1)
    s.combineX q c m = (if m.ns = 0 then a else a.storeEng m.c (r.2.flatMap fun e => leBytes cw e)).orLate
      (r.1.foldl (fun f e => f ||| e.2) 0) 0 := by
  intro w cw cn r a
  have run : (if low then m.run (elems w (s.load m.a m.len)) (elems w (s.load m.r m.len)) (elems cw (s.load m.c cn))
      (elems cw (s.load m.cr cn)) else m.run (elems w (s.load m.r m.len)) (elems w (s.load m.a m.len))
      (elems cw (s.load m.cr cn)) (elems cw (s.load m.c cn))) = r := by
    cases low <;> rfl
  unfold combineX
  dsimp only
  rw [hlow, run, storeWatched_unwatched un, storeWatched_unwatched (s := a) un]

/-- The only command of a queue completes with its combine. -/
theorem State.finishX_alone {s u : State} {q : Nat} {c : XCmd} {m : Combine} (one : (s.xqueue q).queue = [c])
    (none : (s.xqueue q).arms = []) (ok : c.status = .none) (hm : c.combine = some m) (hu : s.combineX q c m = u)
    (eng : u.eng = s.eng) :
    ∃ x : XQueue, x.queue = [] ∧ s.finishX q c = (u.setXq q x).setLine (q + 4) ((u.line (q + 4)).complete c.num) := by
  have queue : (u.xqueue q).queue = [c] := by unfold xqueue; rw [eng]; exact one
  have arms : (u.xqueue q).arms = [] := by unfold xqueue; rw [eng]; exact none
  have holds : u.holdsX q c.num = true := by simp [holdsX, queue, arms]
  refine ⟨{ u.xqueue q with
    queue := (u.xqueue q).queue.filter fun a => decide (a.num ≠ c.num),
    arms := (u.xqueue q).arms.filter fun a => decide (a.num ≠ c.num) && decide (a.disarmed ≠ some c.num) }, ?_, ?_⟩
  · dsimp only
    rw [queue, List.filter_cons_of_neg (by simp), List.filter_nil]
  · unfold finishX
    rw [ok, hm]
    dsimp only [Option.getD_none]
    rw [if_neg (by simp [isError]), if_pos rfl, hu, if_pos holds, if_neg (by decide), complete_ok rfl]
    rfl

theorem State.finish_exchange {s : State} {q : Nat} {c : XCmd} (hq : q < 4) (one : (s.xqueue q).queue = [c]) :
    s.finish (q + 4) c.num = s.finishX q c := by
  unfold finish findX
  rw [if_neg (by omega), if_pos (by omega), Nat.add_sub_cancel, one, List.cons_append, List.find?_cons_of_pos (by simp)]

/-- XCMB completes: what its combine writes, raises and leaves (R272). -/
theorem State.combine_completes {s : State} {q : Nat} {c : XCmd} {m : Combine} (run : s.halted = false) (hq : q < 4)
    (one : (s.xqueue q).queue = [c]) (noArms : (s.xqueue q).arms = []) (fin : c.finished = true) (ok : c.status = none)
    (hm : c.combine = some m) (settled : s.combineSettled c = true) (un : s.Unwatched) (low : Bool)
    (hlow : (!s.ctl.diecoord.getLsbD (s.ctl.phys c.dim)) = low) :
    let w := xWidth m.fmt
    let cw := if m.ns = 1 then 1 else 2
    let cn := countBytes m.fmt m.ns m.len
    let words (size n a : Nat) : List Nat := (List.range n).map fun i => leNat (s.load (a + size * i) size)
    ∃ (t : State) (r : List (Nat × BitVec 6) × List Nat),
      r = m.run (words w (m.len / w) (if low then m.a else m.r)) (words w (m.len / w) (if low then m.r else m.a))
        (words cw (cn / cw) (if low then m.c else m.cr)) (words cw (cn / cw) (if low then m.cr else m.c)) ∧
      exec .commandComplete { s with arg := .two (q + 4) c.num } = .next t ∧ t.regs = s.regs ∧
      t.mem.dram = s.mem.dram ∧ (t.xqueue q).queue = [] ∧ t.line (q + 4) = (s.line (q + 4)).complete c.num ∧
      t.late.flags = s.late.flags ||| r.1.foldl (fun f e => f ||| e.2) 0 ∧
      t.mem.loc = if m.ns = 0 then putBytes s.mem.loc m.a (r.1.flatMap fun e => leBytes w e.1)
        else putBytes (putBytes s.mem.loc m.a (r.1.flatMap fun e => leBytes w e.1)) m.c (r.2.flatMap fun e => leBytes cw e) := by
  intro w cw cn words
  let e : State := { s with arg := .two (q + 4) c.num }
  have due : c.num ∈ e.completable (q + 4) := by
    unfold completable
    rw [if_neg (by omega), if_pos (by omega), Nat.add_sub_cancel]
    have here : (e.xqueue q).queue = [c] := one
    have settled : e.combineSettled c = true := settled
    simp [here, fin, settled]
  obtain ⟨x, empty, done⟩ := finishX_alone (s := e) one noArms ok hm (combineX_unwatched (s := e) un low hlow)
    (by split <;> rfl)
  simp only [elems_load] at done
  refine ⟨_, _, rfl, (commandComplete_finishes run due).trans (congrArg _ ((finish_exchange (s := e) hq one).trans done)), ?_, ?_, ?_, ?_, ?_, ?_⟩
  · split <;> rfl
  · split <;> rfl
  · exact (congrArg XQueue.queue (vget_vset_same hq)).trans empty
  · rw [line_setLine (by omega), if_pos rfl]
    split <;> rfl
  · split <;> rfl
  · split <;> rfl

/-- The format of the floating combines. -/
def combineFmt (f : BitVec 3) : Fmt := if f = 0 then f32 else if f = 1 then bf16 else f16

theorem xNan_eq {f : BitVec 3} (h : f.toNat ≤ 2) (x : Nat) : xNan f x = ((combineFmt f).decode x).isNan := by
  have formats : ∀ f : BitVec 3, f.toNat ≤ 2 → f = 0 ∨ f = 1 ∨ f = 2 := by decide
  rcases formats f h with rfl | rfl | rfl <;> rfl

theorem groupValid_iff {m : Combine} (h : m.fmt.toNat ≤ 2) {per : Nat} {x k : Nat → Nat} {j : Nat} :
    groupValid m per x k j = true ↔ k j ≠ 0 ∧ ∀ i < per, ((combineFmt m.fmt).decode (x (per * j + i))).isNan = false := by
  unfold groupValid
  simp [xNan_eq h]

/-- What NaN-skip gives for one group, by the validity of its sides. -/
theorem skip_group {m : Combine} {per limit j : Nat} {lo hi clo chi : Nat → Nat} (hlo : clo j ≤ limit) (hhi : chi j ≤ limit) :
    let count := skipCount m per limit lo hi clo chi j
    let elem := skipElem m per lo hi clo chi j
    (groupValid m per lo clo j = true → groupValid m per hi chi j = true →
      count = min (clo j + chi j) limit ∧ ∀ i, elem i = xcombine m.fmt m.op (lo (per * j + i)) (hi (per * j + i))) ∧
    (groupValid m per lo clo j = true → ¬ groupValid m per hi chi j = true → count = clo j ∧ ∀ i, elem i = (lo (per * j + i), 0)) ∧
    (¬ groupValid m per lo clo j = true → groupValid m per hi chi j = true → count = chi j ∧ ∀ i, elem i = (hi (per * j + i), 0)) ∧
    (¬ groupValid m per lo clo j = true → ¬ groupValid m per hi chi j = true → count = 0 ∧ ∀ i, elem i = (0, 0)) := by
  simp only [skipCount, skipElem]
  refine ⟨fun a b => ?_, fun a b => ?_, fun a b => ?_, fun a b => ?_⟩ <;> simp [a, b, hlo, hhi]

theorem getLsbD_foldl_flags {α : Type} (l : List (α × BitVec 6)) (b : Nat) :
    (l.foldl (fun (f : BitVec 6) e => f ||| e.2) 0).getLsbD b = l.any fun e => e.2.getLsbD b := by
  have all (init : BitVec 6) : (l.foldl (fun (f : BitVec 6) e => f ||| e.2) init).getLsbD b = (init.getLsbD b || l.any fun e => e.2.getLsbD b) := by
    induction l generalizing init with
    | nil => simp
    | cons e l ih => rw [List.foldl_cons, ih, BitVec.getLsbD_or, List.any_cons, Bool.or_assoc]
  rw [all]
  simp

/-- Settles O26: the completion of a combine, and the slots on one dimension. -/
theorem exchangeCommands : Obligations.ExchangeCommands := by
  unfold Obligations.ExchangeCommands
  refine ⟨?combines, ?slots⟩
  case combines =>
    intro s q c m run hq one noArms fin ok hm settled un hf _ hns w n el low lo hi F signed joined
    obtain ⟨t, r, hr, next, regs, dram, queue, line, flags, loc⟩ :=
      State.combine_completes run hq one noArms fin ok hm settled un low rfl
    have pair (i : Nat) : xcombine m.fmt m.op (lo i) (hi i) = joined i := by
      have small (a : Nat) : el a i < 2 ^ 32 := (s.leNat_load_lt _ _).trans_le (Nat.pow_le_pow_right (by decide) (by
        show 8 * w ≤ 32
        unfold w
        split <;> decide))
      exact xcombine_eq hf (small _) (small _)
    refine ⟨t, r.1, next, regs, dram, queue, line, ?_, ?_, ?_⟩
    · intro b _
      rw [flags, BitVec.getLsbD_or, getLsbD_foldl_flags]
    · intro plain
      rw [loc, if_pos plain]
      refine ⟨?_, rfl⟩
      rw [hr, Combine.run_plain plain, List.zip_map', List.map_map]
      exact List.map_congr_left fun i _ => pair i
    · intro counted whole per cw count clo chi valid
      have float : m.fmt.toNat ≤ 2 := (hns.resolve_left counted).1
      have two : m.ns ≠ 1 → m.ns = 2 := fun h => by
        have := (hns.resolve_left counted).2
        revert h this counted; generalize m.ns = z; revert z; decide
      have sizes : (per = 1 ∧ cw = 1 ∧ m.ns = 1) ∨ (per = 32 ∧ cw = 2 ∧ m.ns = 2) := by
        by_cases h : m.ns = 1
        · exact .inl ⟨if_pos h, if_pos h, h⟩
        · exact .inr ⟨if_neg h, if_neg h, two h⟩
      have groups : countBytes m.fmt m.ns m.len / cw = n / per := by
        rcases sizes with ⟨hp, hc, h⟩ | ⟨hp, hc, h⟩ <;> rw [hp, hc, h]
        · exact (Nat.div_one _).trans (Nat.div_one _).symm
        · show 2 * (m.len / (32 * w)) / 2 = m.len / w / 32
          rw [Nat.mul_div_cancel_left _ (by decide), Nat.div_div_eq_div_mul, Nat.mul_comm]
      have filled : n / per * per = n := by
        refine Nat.div_mul_cancel ?_
        rcases sizes with ⟨hp, -, -⟩ | ⟨hp, -, h⟩ <;> rw [hp]
        · exact one_dvd n
        · exact Nat.dvd_div_of_mul_dvd (Nat.mul_comm w 32 ▸ Nat.dvd_of_mod_eq_zero (whole h))
      have small (a j : Nat) : count a j ≤ if m.ns = 1 then 255 else 65535 := by
        refine Nat.le_of_lt_succ ((s.leNat_load_lt (a + cw * j) cw).trans_eq ?_)
        rcases sizes with ⟨-, hc, h⟩ | ⟨-, hc, h⟩ <;> rw [hc, h] <;> rfl
      rw [groups] at hr
      have is : r = _ := hr.trans (Combine.run_skip (lo := lo) (hi := hi) (clo := clo) (chi := chi) counted filled.le)
      refine ⟨?_, r.2, ?_, loc.trans (if_neg counted), fun j hj => ?_⟩
      · rw [is]
        simpa only [List.length_flatMap, List.length_map, List.length_range, List.map_const', List.sum_replicate, smul_eq_mul]
          using filled
      · rw [is, List.length_map, List.length_range]
      · have elem (i : Nat) (hi' : i < per) : r.1[per * j + i]? = some (skipElem m per lo hi clo chi j i) := by
          rw [is, getElem?_flatMap_range (fun _ => by rw [List.length_map, List.length_range]) hj hi', List.getElem?_map, List.getElem?_range hi']
          rfl
        have cnt : r.2.getD j 0 = skipCount m per (if m.ns = 1 then 255 else 65535) lo hi clo chi j := by
          rw [is, List.getD_eq_getElem?_getD, List.getElem?_map, List.getElem?_range hj]
          rfl
        obtain ⟨both, left, right, neither⟩ := skip_group (m := m) (per := per) (lo := lo) (hi := hi) (small _ j) (small _ j)
        have vlo : valid lo clo j ↔ groupValid m per lo clo j = true := (groupValid_iff float).symm
        have vhi : valid hi chi j ↔ groupValid m per hi chi j = true := (groupValid_iff float).symm
        rw [cnt, vlo, vhi]
        refine ⟨fun a b => ⟨(both a b).1, fun i hi' => ?_⟩, fun a b => ⟨(left a b).1, fun i hi' => ?_⟩,
          fun a b => ⟨(right a b).1, fun i hi' => ?_⟩, fun a b => ⟨(neither a b).1, fun i hi' => ?_⟩⟩
        · rw [elem i hi', (both a b).2, pair]
        · rw [elem i hi', (left a b).2]
        · rw [elem i hi', (right a b).2]
        · rw [elem i hi', (neither a b).2]
  case slots =>
    intro s g u e c m q o n f r dim
    refine ⟨?_, ?_, ?_, ?_⟩
    · show CommandSlot _ _ _ _ _ (s.encSlot _ _)
      rw [State.encSlot_inside dim]
      exact State.xSlot_commandSlot _ _ _ _ _
    · show CommandSlot _ _ _ _ _ (s.encSlot _ _)
      rw [State.encSlot_inside dim, append_ite_nil]
      exact State.stallSlot_commandSlot (f := fun s => (s.postX _ _ _ _ _ _).1)
    · intro inside
      have enc : (match s.dimCause u.toNat with
          | some c => some c
          | none => if r = 0 then s.dimCause m.toNat else none) = none := by
        rw [State.dimCause_inside dim]
        rcases inside with rfl | inside
        · rfl
        · rw [State.dimCause_inside inside]
          exact ite_self none
      show CommandSlot _ _ _ _ _ (s.encSlot (match s.dimCause u.toNat with
        | some c => some c
        | none => if r = 0 then s.dimCause m.toNat else none) (s.xSlot g _ _ _ _ _))
      rw [enc]
      exact State.xSlot_commandSlot _ _ _ _ _
    · show CommandSlot _ _ _ _ _ (s.encSlot _ _)
      rw [State.encSlot_inside dim]
      exact State.stallSlot_commandSlot (f := fun s => (s.postX _ _ _ _ _ _).1)
end Sys2Proof.Machine
end

section
/-! The mask forms and XDISARM (R271 to R276). -/

namespace Sys2Proof.Machine

/-- A mask form, with its members listed by dimension and place in the mask (R274). -/
theorem State.maskSlot_commandSlot (s : State) (g e : BitVec 4) (combine : Nat → Nat → Nat → Option Combine) :
    let st (i : Nat) : Nat := (s.regs.re (e.toNat + i)).toNat
    let n := st 0 / 2 ^ 32
    let ms := (setBits (BitVec.ofNat 13 (st 0))).zipIdx
    let pair (x : Nat × Nat) : List HalfSpec :=
      [⟨true, x.1, st (1 + 2 * x.2), n⟩, ⟨false, x.1, st (2 + 2 * x.2), n⟩]
    CommandSlot s g (ms.any fun x => s.xFull x.2)
      (firstFault (limitFault (s.maskOk (BitVec.ofNat 13 (st 0)) && decide (ms.length ≤ 4) &&
        decide (e.toNat + 2 * ms.length ≤ 15)) :: ms.flatMap fun x => halfFaults x.2 n (pair x)))
      (ms.foldl (fun t x => (t.postX x.2 (pair x) (combine (st (1 + 2 * x.2)) (st (2 + 2 * x.2)) n) x.1 none false).1) s)
      (s.maskSlot g e combine) := by
  unfold maskSlot members
  dsimp only
  simp only [List.any_map, List.flatMap_map, List.foldl_map, List.length_map]
  exact stallSlot_commandSlot (f := fun t => _)

theorem map_replace_absent {α : Type} {p : α → Prop} [DecidablePred p] {f : α → α} {l : List α} (h : ∀ x ∈ l, ¬ p x) :
    (l.map fun x => if p x then f x else x) = l :=
  (List.map_congr_left fun x hx => if_neg (h x hx)).trans (List.map_id' l)

section
variable {s : State} {num q : Nat}

/-- An XDISARM with no send to cancel. -/
theorem State.disarm_none (h : ∀ y ∈ (s.xqueue q).arms, num ≤ y.num ∨ y.started = true ∨ y.status ≠ none) :
    s.disarm q num = s := by
  unfold disarm
  rw [List.filter_eq_nil_iff.2]
  · rfl
  · intro y hy
    rcases h y hy with h | h | h
    · simp [h]
    · simp [h]
    · simp [Option.isNone_iff_eq_none, h]

/-- An XDISARM that cancels one send of the two that are armed. -/
theorem State.disarm_one {c d : XCmd} {h : Half} (arms : (s.xqueue q).arms = [c, d])
    (cut : ¬ (num ≤ c.num ∨ c.started = true ∨ c.status ≠ none)) (stays : num ≤ d.num ∨ d.started = true ∨ d.status ≠ none)
    (two : d.num ≠ c.num) (absent : ∀ y ∈ (s.xqueue q).queue, y.num ≠ c.num) (one : c.halves = [h]) :
    s.disarm q num =
      ((s.setXq q { s.xqueue q with arms := [{ c with status := some 0x17#8, disarmed := some num }, d] }).abortMatch q h.dim h.m
        false 0x17).complete (q + 4) c.num c.pol 0x17 := by
  simp only [not_or, not_le, Bool.not_eq_true, not_not] at cut
  obtain ⟨early, idle, open_⟩ := cut
  have victim : (decide (c.num < num) && !c.started && c.status.isNone) = true := by simp [early, idle, open_]
  have kept : (decide (d.num < num) && !d.started && d.status.isNone) = false := by
    rcases stays with h | h | h
    · simp [h]
    · simp [h]
    · rw [Option.isNone_eq_false_iff.2 (Option.isSome_iff_ne_none.2 h), Bool.and_false]
  have victims : [c, d].filter (fun x => decide (x.num < num) && !x.started && x.status.isNone) = [c] := by
    simp only [List.filter_cons, victim, kept, List.filter_nil, if_true, Bool.false_eq_true, if_false]
  unfold disarm
  rw [arms, victims, List.foldl_cons, List.foldl_nil, if_neg (not_not.2 rfl), one]
  unfold mapX
  dsimp only [List.foldl_cons, List.foldl_nil]
  rw [map_replace_absent absent, arms, List.map_cons, List.map_cons, List.map_nil, if_pos rfl, if_neg two, one]
  rfl

end

/-- Settles O28: the end of an XDISARM's issue cycle, and the mask forms at issue. -/
theorem maskedExchangeCommands : Obligations.MaskedExchangeCommands := by
  unfold Obligations.MaskedExchangeCommands
  refine ⟨fun s g q num c d h late none => ⟨fun stays => ?_, fun arms cut stays two absent one => ?_⟩,
    fun s g e q o d f => ⟨?_, ?_, ?_, ?_, ?_⟩⟩
  · have act : s.lateAct (.xdisarm g q, num, []) = s := State.disarm_none stays
    rw [State.lateActs_one late (by rw [act]; exact none), act]
  · have act : s.lateAct (.xdisarm g q, num, []) = _ := State.disarm_one arms cut stays two absent one
    rw [State.lateActs_one late, act]
    · rfl
    · rw [act]
      refine State.NoEnres.complete (State.NoEnres.of_stream (s := s) none ?_) _ _ _ _
      unfold State.abortMatch
      rw [State.route_stream]
      rfl
  · exact State.stallSlot_commandSlot (f := fun s => (s.postX _ _ _ _ _ _).1)
  · exact State.maskSlot_commandSlot s g e fun _ _ _ => none
  · exact State.maskSlot_commandSlot s g e fun a r n => some { fmt := f, op := o, ns := 0, a := a, r := r, len := n, c := 0, cr := 0 }
  · exact State.stallSlot_commandSlot (f := fun s => (s.postX q.toNat _ none 0 none true).1)
  · exact State.stallSlot_commandSlot (f := fun s => (s.postX q.toNat [] _ _ _ _).1.later _ _ _)

end Sys2Proof.Machine
end

section
/-! What posting a command does (R161, R163, R247, R268). -/

namespace Sys2Proof.Machine

/-- Taking a number raises the issue count of its timeline and of no other (R161). -/
theorem State.line_takeNumber {s : State} {ctx : Nat} (h : ctx < 11) :
    (s.takeNumber ctx).1.line ctx = { s.line ctx with issued := (s.line ctx).issued + 1 } ∧
      ∀ k < 11, k ≠ ctx → (s.takeNumber ctx).1.line k = s.line k :=
  ⟨(State.line_setLine h).trans (if_pos rfl), fun _ _ other => (State.line_setLine h).trans (if_neg other)⟩

/-! ### Match numbers (R268) -/

/-- The count of matches of a direction and dimension. -/
def XQueue.count (x : XQueue) (send : Bool) (j : Nat) : W32 := vget (if send then x.sendCount else x.recvCount) j 0

/-- How many of the halves have a direction and dimension. -/
def halvesOn (l : List HalfSpec) (send : Bool) (j : Nat) : W32 :=
  BitVec.ofNat 32 (l.countP fun h => decide (h.send = send) && decide (h.dim = j))

/-- A queue that has given one match number. -/
def XQueue.afterMatch (x : XQueue) (p : HalfSpec) : XQueue :=
  if p.send then { x with sendCount := vset x.sendCount p.dim (x.count true p.dim + 1) }
  else { x with recvCount := vset x.recvCount p.dim (x.count false p.dim + 1) }

/-- The half of a specification under a match number. -/
def HalfSpec.half (p : HalfSpec) (m : W32) : Half :=
  { send := p.send, dim := p.dim, m := m, addr := p.addr, len := p.len, ready := none, open_ := 0, done := false,
    failed := false }

theorem XQueue.takeMatches_cons (x : XQueue) (p : HalfSpec) (l : List HalfSpec) :
    x.takeMatches (p :: l) =
      (((x.afterMatch p).takeMatches l).1, p.half (x.count p.send p.dim + 1) :: ((x.afterMatch p).takeMatches l).2) := by
  obtain ⟨send, dim, addr, len⟩ := p
  cases send
  case false => rfl
  case true => rfl

theorem XQueue.count_afterMatch {x : XQueue} {p : HalfSpec} {send : Bool} {j : Nat} (hj : j < 13) :
    (x.afterMatch p).count send j = x.count send j + halvesOn [p] send j := by
  obtain ⟨psend, dim, addr, len⟩ := p
  have same (v : Vector W32 13) : vget (vset v dim (vget v dim 0 + 1)) j 0 = vget v j 0 + if dim = j then 1 else 0 := by
    split
    next e => subst e; exact vget_vset_same hj
    next e => exact (vget_vset_other e).trans (BitVec.add_zero _).symm
  cases psend <;> cases send
  case false.false => simpa [afterMatch, count, halvesOn, List.countP_cons, apply_ite (BitVec.ofNat 32)] using same x.recvCount
  case false.true => simp [afterMatch, count, halvesOn]
  case true.false => simp [afterMatch, count, halvesOn]
  case true.true => simpa [afterMatch, count, halvesOn, List.countP_cons, apply_ite (BitVec.ofNat 32)] using same x.sendCount

theorem halvesOn_cons (p : HalfSpec) (l : List HalfSpec) (send : Bool) (j : Nat) :
    halvesOn (p :: l) send j = halvesOn [p] send j + halvesOn l send j := by
  rw [halvesOn, List.countP_cons, Nat.add_comm, BitVec.ofNat_add]
  simp [halvesOn, List.countP_cons]

theorem XQueue.takeMatches_frame (l : List HalfSpec) (x : XQueue) :
    (x.takeMatches l).1 =
      { x with sendCount := (x.takeMatches l).1.sendCount, recvCount := (x.takeMatches l).1.recvCount } := by
  induction l generalizing x with
  | nil => rfl
  | cons p l ih =>
    rw [XQueue.takeMatches_cons]
    refine (ih _).trans ?_
    unfold afterMatch
    cases p.send
    case false => rfl
    case true => rfl

theorem XQueue.takeMatches_count (l : List HalfSpec) (x : XQueue) {send : Bool} {j : Nat} (hj : j < 13) :
    (x.takeMatches l).1.count send j = x.count send j + halvesOn l send j := by
  induction l generalizing x with
  | nil => exact (BitVec.add_zero _).symm
  | cons p l ih => rw [XQueue.takeMatches_cons, ih, XQueue.count_afterMatch hj, halvesOn_cons p l, BitVec.add_assoc]

theorem XQueue.takeMatches_length (l : List HalfSpec) (x : XQueue) : (x.takeMatches l).2.length = l.length := by
  induction l generalizing x with
  | nil => rfl
  | cons p l ih => rw [XQueue.takeMatches_cons, List.length_cons, ih, List.length_cons]

/-- A half's match number counts the halves of its direction and dimension before it. -/
theorem XQueue.takeMatches_half (l : List HalfSpec) (x : XQueue) {k : Nat} {h : HalfSpec} (at_ : l[k]? = some h)
    (dim : h.dim < 13) :
    (x.takeMatches l).2[k]? = some (h.half (x.count h.send h.dim + halvesOn (l.take k) h.send h.dim + 1)) := by
  induction l generalizing x k with
  | nil => simp at at_
  | cons p l ih =>
    rw [XQueue.takeMatches_cons]
    cases k with
    | zero =>
      obtain rfl : p = h := by simpa using at_
      rw [List.take_zero, List.getElem?_cons_zero]
      exact congrArg (fun m => some (p.half (m + 1))) (BitVec.add_zero _).symm
    | succ k =>
      rw [List.getElem?_cons_succ, ih _ (by simpa using at_), XQueue.count_afterMatch dim, List.take_succ_cons,
        halvesOn_cons p (l.take k), BitVec.add_assoc (x.count _ _)]

/-! ### The posts -/

/-- A copy command as issued. -/
def State.copyCmd (s : State) (num : Nat) (op : CopyOp) (fl : Option (Nat × W64)) : CopyCmd :=
  { num := num, pol := s.ctl.pol1, op := op, flag := fl, started := false, tries := 0, pos := 0,
    acks := 0, flagSent := false, stalled := false, stallAt := 0, stallCause := 0, status := none, bad := 0, kept := [] }

section
variable {s : State} {i : Nat} {op : CopyOp} {fl : Option (Nat × W64)}

theorem State.postCopy_buffered (h : s.copyBuffers i = true) : s.postCopy i op fl =
    { (s.takeNumber i).1 with eng.issueBuf := s.eng.issueBuf ++ [(i, s.copyCmd ((s.line i).issued + 1).toNat op fl)] } := if_pos h

theorem State.postCopy_enters (h : s.copyBuffers i = false) : s.postCopy i op fl =
    { (s.takeNumber i).1 with
        eng.copy := vset s.eng.copy i (s.copyQueue i ++ [s.copyCmd ((s.line i).issued + 1).toNat op fl]) } :=
  if_neg (Bool.eq_false_iff.1 h)

end

theorem State.mqueue_postMatrix {s : State} {op : MatOp} {sh : BitVec 24} {seed : W64} {e : Nat}
    (he : op.engine.2 + (if op.engine.1 then 1 else 0) < 16) :
    let c : MCmd := { num := ((s.line 8).issued + 1).toNat, pol := s.ctl.pol1, op := op, shape := sh, seed := seed,
                      started := false, tries := 0 }
    (s.postMatrix op sh seed).mqueue e =
      if e = op.engine.2 ∨ (op.engine.1 = true ∧ e = op.engine.2 + 1) then s.mqueue e ++ [c] else s.mqueue e := by
  intro c
  have own : op.engine.2 < 16 := by omega
  show vget (if op.engine.1 then vset (vset s.eng.matrix op.engine.2 (s.mqueue op.engine.2 ++ [c])) (op.engine.2 + 1)
    (s.mqueue (op.engine.2 + 1) ++ [c]) else vset s.eng.matrix op.engine.2 (s.mqueue op.engine.2 ++ [c])) e [] = _
  cases pair : op.engine.1
  case false =>
    rw [if_neg Bool.false_ne_true, vget_vset own]
    simp only [Bool.false_eq_true, false_and, or_false]
    split
    next h => rw [h]
    next => rfl
  case true =>
    rw [pair, if_pos rfl] at he
    rw [if_pos rfl, vget_vset he, vget_vset own]
    simp only [true_and]
    by_cases second : e = op.engine.2 + 1
    · rw [if_pos second, if_pos (.inr second), second]
    · rw [if_neg second]
      by_cases head : e = op.engine.2
      · rw [if_pos head, if_pos (.inl head), head]
      · rw [if_neg head, if_neg (not_or.2 ⟨head, second⟩)]
        rfl

theorem State.xqueue_setXq {s : State} {q p : Nat} {x : XQueue} (h : q < 4) :
    (s.setXq q x).xqueue p = if p = q then x else s.xqueue p := vget_vset h

/-- Settles O30: each post takes the next number and puts its command last, the halves of an exchange with their matches. -/
theorem postedCommands : Obligations.PostedCommands := by
  unfold Obligations.PostedCommands
  refine ⟨?copy, ?matrix, ?others⟩
  case copy =>
    intro s i op fl hi t n
    obtain ⟨own, other⟩ := State.line_takeNumber (s := s) (ctx := i) (by omega)
    cases waits : s.copyBuffers i
    case false =>
      have posted : t = _ := State.postCopy_enters waits
      clear_value t
      subst posted
      exact ⟨own, other, rfl, s.copyCmd n.toNat op fl, rfl, rfl, rfl, rfl, rfl, nofun, fun _ => ⟨rfl, fun e _ => by
        rw [show State.copyQueue _ e = vget (vset s.eng.copy i _) e [] from rfl, vget_vset hi]
        split
        next h => rw [h]
        next => rfl⟩⟩
    case true =>
      have posted : t = _ := State.postCopy_buffered waits
      clear_value t
      subst posted
      exact ⟨own, other, rfl, s.copyCmd n.toNat op fl, rfl, rfl, rfl, rfl, rfl, fun _ => ⟨rfl, rfl⟩, nofun⟩
  case matrix =>
    intro s op sh seed he t n
    obtain ⟨own, other⟩ := State.line_takeNumber (s := s) (ctx := 8) (by omega)
    exact ⟨own, other, rfl, { num := n.toNat, pol := s.ctl.pol1, op := op, shape := sh, seed := seed, started := false, tries := 0 },
      rfl, rfl, rfl, rfl, rfl, fun e _ => State.mqueue_postMatrix he⟩
  case others =>
    intro s q hs cmb dim tr bar w c hq only
    refine ⟨?_, ⟨⟨(State.line_takeNumber (by omega)).1, (State.line_takeNumber (by omega)).2, rfl⟩, _, rfl, rfl, rfl⟩,
      ⟨(State.line_takeNumber (by omega)).1, (State.line_takeNumber (by omega)).2, rfl⟩, _, rfl, rfl, rfl⟩
    intro r old new sent
    let x : XCmd := { num := r.2, pol := s.ctl.pol1, halves := (old.takeMatches hs).2, combine := cmb, dim := dim,
                      started := false, tries := 0, elapsed := 0, status := none, trigger := tr, disarmed := none,
                      barrier := bar, cancelled := false }
    have matched := XQueue.takeMatches_frame hs old
    have new_eq : new = { old with
        sendCount := (old.takeMatches hs).1.sendCount, recvCount := (old.takeMatches hs).1.recvCount,
        queue := if tr.isSome then old.queue else old.queue ++ [x], arms := if tr.isSome then old.arms ++ [x] else old.arms } := by
      refine ((State.xqueue_setXq hq).trans (if_pos rfl)).trans ?_
      show (if tr.isSome = true then _ else _) = _
      rw [matched]
      cases tr
      case none => rfl
      case some => rfl
    have sends : new.sendCount = (old.takeMatches hs).1.sendCount := (congrArg XQueue.sendCount new_eq :)
    have recvs : new.recvCount = (old.takeMatches hs).1.recvCount := (congrArg XQueue.recvCount new_eq :)
    refine ⟨⟨(State.line_takeNumber (by omega)).1, (State.line_takeNumber (by omega)).2, rfl⟩, rfl, rfl,
      fun p _ other => (State.xqueue_setXq hq).trans (if_neg other), fun j hj => ?_, x, rfl, rfl, rfl, rfl, rfl, rfl, rfl, rfl,
      XQueue.takeMatches_length hs old, fun k h at_ hd => ?_, ?_⟩
    · rw [sends, recvs]
      exact ⟨XQueue.takeMatches_count hs old (send := true) hj, XQueue.takeMatches_count hs old (send := false) hj⟩
    · exact XQueue.takeMatches_half hs old at_ hd
    · rw [sends, recvs]
      exact new_eq

end Sys2Proof.Machine
end

section
/-! Tile moves (R91 to R94, R242). -/

namespace Sys2Proof.Machine

theorem Rnd.of_eq_sr {m : BitVec 2} : Rnd.of m = .sr ↔ m = 2 := by
  revert m
  decide

/-- The draws that a conversion takes (R66 to R68). -/
theorem State.takeDraws_of (s : State) (m : BitVec 2) (n : Nat) :
    s.takeDraws (Rnd.of m) n = ((s.roundingDraws m n).1.toArray, (s.roundingDraws m n).2) := by
  unfold takeDraws roundingDraws
  by_cases h : m = 2
  · rw [if_pos h, if_pos (Rnd.of_eq_sr.2 h)]
  · rw [if_neg h, if_neg (h ∘ Rnd.of_eq_sr.1)]

theorem moveFault_none_iff {x : BitVec 24} {w : Nat} {m : BitVec 2} {nv : Bool} : moveFault x w m nv = none ↔
    shFmt x ≠ 0xB ∧ fmtWidth (shFmt x) = w ∧ (m = 0 ∨ fmtFloat (shFmt x) = true) ∧ (nv = true → shFmt x = 7 ∨ shFmt x = 8) := by
  unfold moveFault
  rw [ite_eq_right_iff]
  simp only [reduceCtorEq, imp_false, not_or, not_and, not_not, Bool.not_eq_false, ne_eq]
  refine and_congr_right' (and_congr_right' (and_congr ?_ (imp_congr_right fun _ => ?_)))
  · rw [← or_iff_not_imp_left]
  · rw [← or_iff_not_imp_left]

theorem moveFault_illegal {x : BitVec 24} {w : Nat} {m : BitVec 2} {nv : Bool} (h : moveFault x w m nv ≠ none) :
    moveFault x w m nv = some (.illegal 0xA) := by
  unfold moveFault at h ⊢
  split
  next => rfl
  next e => exact absurd (if_neg e) h

theorem State.line0_eq (s : State) (y : BitVec 4) : s.line0 y = (s.regs.rs (BitVec.ofNat 5 y.toNat)).toNat % 256 := by
  rw [BitVec.ofNat_toNat]
  rfl

theorem elemKey_eq (t : Nat) (x : BitVec 24) (p : Nat × Nat) :
    elemKey t x p = 262144 * t + (1024 * p.1 + fmtWidth (shFmt x) * p.2) := by
  rw [elemKey, tileKey, Nat.mul_comm]

theorem inShape_iff {x : BitVec 24} {p : Nat × Nat} : inShape x p = true ↔ p.1 < shRows x ∧ p.2 < shCols x := by
  simp [inShape]

section
variable {s : State} {g x y : BitVec 4} {v : BitVec 5} {k : BitVec 3} {m : BitVec 2}

/-- A tile read that fits its tile puts the lines in flight. -/
theorem State.tileRead_fits {col : Bool} (on : s.regs.rg g = true)
    (fits : Machine.moveFault (s.tshapeOf x) (if m = 0 then 4 else if m = 1 then 2 else 1) 0 false = none) :
    s.tileRead col g x y v k m = .next (s.inFlight 7 (.v v (s.regs.rk k) (Vector.ofFn fun j =>
      let p := lanePlace col (s.line0 y) j.val
      if inShape (s.tshapeOf x) p then BitVec.ofNat 32 (toLane (shFmt (s.tshapeOf x)) (leNat (getBytes s.tiles.bytes
        (elemKey x.toNat (s.tshapeOf x) p) (fmtWidth (shFmt (s.tshapeOf x)))))) else 0)) 0) := by
  unfold State.tileRead
  dsimp only
  rw [fits, State.slot_none, State.guarded, if_pos on]
  rfl

/-- A tile read that does not fit its tile is the illegal slot 0xA. -/
theorem State.tileRead_misfit {col : Bool} (on : s.regs.rg g = true)
    (misfit : Machine.moveFault (s.tshapeOf x) (if m = 0 then 4 else if m = 1 then 2 else 1) 0 false ≠ none) :
    s.tileRead col g x y v k m = .next (s.takeSlotFault (.illegal 0xA) s.stream.ask.slot) := by
  unfold State.tileRead
  dsimp only
  rw [moveFault_illegal misfit, State.slot_fault on]

/-- A tile write that does not fit its tile is the illegal slot 0xA. -/
theorem State.tileWrite_misfit {col nv : Bool} {w : Nat} (on : s.regs.rg g = true)
    (misfit : Machine.moveFault (s.tshapeOf x) w m nv ≠ none) :
    s.tileWrite col w nv g x y v k m = .next (s.takeSlotFault (.illegal 0xA) s.stream.ask.slot) := by
  unfold State.tileWrite
  dsimp only
  rw [moveFault_illegal misfit, State.slot_fault on]

/-- A tile read or write that is guarded off does nothing, whether it fits its tile or not. -/
theorem State.tileMove_off {col nv : Bool} {w : Nat} (off : s.regs.rg g = false) :
    s.tileRead col g x y v k m = .next s ∧ s.tileWrite col w nv g x y v k m = .next s :=
  ⟨by unfold State.tileRead; exact State.slot_off off, by unfold State.tileWrite; exact State.slot_off off⟩

end

/-- The lanes of a tile write that lie in the shape and that the predicate selects. -/
def State.writeLanes (s : State) (col : Bool) (x y : BitVec 4) (k : BitVec 3) : List Nat :=
  (List.range 1024).filter fun l => (s.regs.rk k).getLsbD l && inShape (s.tshapeOf x) (lanePlace col (s.line0 y) l)

theorem State.mem_writeLanes {s : State} {col : Bool} {x y : BitVec 4} {k : BitVec 3} {l : Nat} :
    l ∈ s.writeLanes col x y k ↔ l < 1024 ∧ (s.regs.rk k).getLsbD l = true ∧
      ((lanePlace col (s.line0 y) l).1 < shRows (s.tshapeOf x) ∧ (lanePlace col (s.line0 y) l).2 < shCols (s.tshapeOf x)) := by
  simp only [writeLanes, List.mem_filter, List.mem_range, Bool.and_eq_true, inShape_iff]

/-- A lane as a tile write stores it, with its flags. -/
def State.writeConv (s : State) (x : BitVec 4) (v : BitVec 5) (m : BitVec 2) (nv : Bool) (l : Nat) : Nat × BitVec 6 :=
  fromLane (shFmt (s.tshapeOf x)) (lane (s.regs.rv v) l).toNat (Rnd.of m) nv ((s.roundingDraws m 1024).1.getD l 0)

theorem State.writeConv_eq (s : State) (x : BitVec 4) (v : BitVec 5) (m : BitVec 2) (nv : Bool) (l : Nat) :
    s.writeConv x v m nv l = fromLane (shFmt (s.tshapeOf x)) ((s.regs.rv v).toList.getD l 0).toNat (Rnd.of m) nv
      ((s.roundingDraws m 1024).1.getD l 0) := by
  simp [writeConv, lane, vget, List.getD_eq_getElem?_getD]

/-- A bit of the flags gathered over a list. -/
theorem getLsbD_foldl_all {b : Nat} (f : Nat → BitVec 6) (l : List Nat) :
    (l.foldl (fun fl j => fl ||| f j) 0).getLsbD b = true ↔ ∃ j ∈ l, (f j).getLsbD b = true := by
  simpa using getLsbD_foldl_or (b := b) (fun _ => true) f l 0

theorem mem_zipIdx_leBytes {w n a : Nat} {c : Nat × Byte} :
    c ∈ (leBytes w n).zipIdx.map (fun b => (a + b.2, b.1)) ↔ ∃ i < w, c = (a + i, (leBytes w n).getD i 0) := by
  simp only [List.mem_map, Prod.exists, List.mem_zipIdx_iff_getElem?]
  constructor
  · rintro ⟨b, i, at_, rfl⟩
    obtain ⟨lt, rfl⟩ := List.getElem?_eq_some_iff.1 at_
    exact ⟨i, leBytes_length w n ▸ lt, by rw [List.getD_eq_getElem _ _ lt]⟩
  · rintro ⟨i, lt, rfl⟩
    rw [← leBytes_length w n] at lt
    exact ⟨_, i, List.getElem?_eq_getElem lt, by rw [List.getD_eq_getElem _ _ lt]⟩

/-- A tile write that fits its tile puts the bytes of its elements in flight. -/
theorem State.tileWrite_fits {s : State} {g x y : BitVec 4} {v : BitVec 5} {k : BitVec 3} {m : BitVec 2} {col nv : Bool} {w : Nat}
    (on : s.regs.rg g = true) (fits : Machine.moveFault (s.tshapeOf x) w m nv = none) :
    let es := (s.writeLanes col x y k).map fun l =>
      (elemKey x.toNat (s.tshapeOf x) (lanePlace col (s.line0 y) l), s.writeConv x v m nv l)
    s.tileWrite col w nv g x y v k m = .next ((s.roundingDraws m 1024).2.inFlight 7
      (.tile (es.flatMap fun e => (leBytes (fmtWidth (shFmt (s.tshapeOf x))) e.2.1).zipIdx.map fun b => (e.1 + b.2, b.1)))
      (es.foldl (fun fl e => fl ||| e.2.2) 0)) := by
  unfold State.tileWrite
  dsimp only
  rw [fits, State.slot_none, State.guarded, if_pos on, State.takeDraws_of]
  simp only [Array.getD_eq_getD_getElem?, List.getElem?_toArray]
  rfl

/-- Settles O20: what fits its tile moves element by element, and what does not is the illegal slot. -/
theorem tileReadsAndWrites : Obligations.TileReadsAndWrites := by
  unfold Obligations.TileReadsAndWrites
  refine ⟨?reads, ?writes⟩
  case reads =>
    intro s g x y v k m sh w line value width gives
    have misfit (on : s.regs.rg g = true) (col : Bool) (h : shFmt sh = 0xB ∨ w ≠ width) :
        s.tileRead col g x y v k m = .next (s.takeSlotFault (.illegal 0xA) s.stream.ask.slot) := by
      refine State.tileRead_misfit on fun fits => ?_
      obtain ⟨q4, width, -⟩ := moveFault_none_iff.1 fits
      exact h.elim q4 (· width)
    have fits (q4 : shFmt sh ≠ 0xB) (h : w = width) : Machine.moveFault sh width 0 false = none :=
      moveFault_none_iff.2 ⟨q4, h, .inl rfl, nofun⟩
    refine ⟨fun off => ⟨(State.tileMove_off (w := 0) (nv := false) off).1, (State.tileMove_off (w := 0) (nv := false) off).1⟩,
      fun on _ q4 h => ⟨?_, ?_⟩, fun on _ h => ⟨misfit on false h, misfit on true h⟩⟩
    · refine (State.tileRead_fits (col := false) on (fits q4 h)).trans ?_
      simp only [inShape_iff, elemKey_eq, State.line0_eq]
      rfl
    · refine (State.tileRead_fits (col := true) on (fits q4 h)).trans ?_
      simp only [inShape_iff, elemKey_eq, State.line0_eq]
      rfl
  case writes =>
    intro s g x y v k m sh fmt w line place within writes float forms
    have stores {col nv : Bool} {m : BitVec 2} {width : Nat} (on : s.regs.rg g = true)
        (fits : Machine.moveFault sh width m nv = none) : writes col nv m (s.tileWrite col width nv g x y v k m) := by
      refine ⟨_, _, State.tileWrite_fits on fits, fun a b => ?_, fun i hi => ?_⟩
      · simp only [List.mem_flatMap, mem_zipIdx_leBytes]
        simp only [List.mem_map, exists_exists_and_eq_and, State.mem_writeLanes, State.writeConv_eq, elemKey_eq, State.line0_eq, Prod.mk.injEq]
        constructor
        · rintro ⟨l, ⟨hl, on, inside⟩, i, hi, at_, byte⟩
          exact ⟨l, hl, i, hi, on, inside, at_, byte⟩
        · rintro ⟨l, hl, i, hi, on, inside, at_, byte⟩
          exact ⟨l, ⟨hl, on, inside⟩, i, hi, at_, byte⟩
      · rw [List.foldl_map, getLsbD_foldl_all]
        simp only [State.mem_writeLanes, State.writeConv_eq, State.line0_eq]
        simp only [and_assoc (a := _ < 1024), and_assoc (a := (s.regs.rk k).getLsbD _ = true)]
        rfl
    have form {nv : Bool} {m : BitVec 2} {width : Nat} {ok : Prop} (h : ok ↔ Machine.moveFault sh width m nv = none) :
        forms ok (s.tileWrite false width nv g x y v k m) (s.tileWrite true width nv g x y v k m) nv m :=
      ⟨fun off => ⟨(State.tileMove_off off).2, (State.tileMove_off off).2⟩, fun on fits => ⟨stores on (h.1 fits), stores on (h.1 fits)⟩,
        fun on misfit => ⟨State.tileWrite_misfit on (misfit ∘ h.2), State.tileWrite_misfit on (misfit ∘ h.2)⟩⟩
    have fp8 (h : fmt = 7 ∨ fmt = 8) : fmt ≠ 0xB ∧ fmtWidth fmt = 1 ∧ fmtFloat fmt = true := by
      rcases h with h | h
      · rw [h]
        exact ⟨by decide, rfl, rfl⟩
      · rw [h]
        exact ⟨by decide, rfl, rfl⟩
    have moded {width : Nat} {m : BitVec 2} :
        (w = width ∧ fmt ≠ 0xB ∧ (m = 0 ∨ float)) ↔ Machine.moveFault sh width m false = none :=
      moveFault_none_iff.trans ⟨fun ⟨q4, width, mode, _⟩ => ⟨width, q4, mode⟩, fun ⟨width, q4, mode⟩ => ⟨q4, width, mode, nofun⟩⟩ |>.symm
    refine ⟨form (moveFault_none_iff.trans ?_).symm, fun _ => ⟨form moded, form moded, form (moveFault_none_iff.trans ?_).symm⟩⟩
    · exact ⟨fun ⟨q4, width, _⟩ => ⟨width, q4⟩, fun ⟨width, q4⟩ => ⟨q4, width, .inl rfl, nofun⟩⟩
    · exact ⟨fun ⟨_, _, _, nan⟩ => nan rfl, fun nan => ⟨(fp8 nan).1, (fp8 nan).2.1, .inr (fp8 nan).2.2, fun _ => nan⟩⟩

end Sys2Proof.Machine
end

section
/-! Tile operations (R239, R240, R243, R244). -/

namespace Sys2Proof.Machine

/-! ### The bytes of an image (R239, R243) -/

theorem shCols_le (x : BitVec 24) : shCols x ≤ 256 := by
  have := x.isLt
  unfold shCols
  omega

theorem shCols_pos (x : BitVec 24) : 0 < shCols x := Nat.succ_pos _

theorem shRows_pos (x : BitVec 24) : 0 < shRows x := Nat.succ_pos _

theorem fmtWidth_bounds (f : Nat) : 0 < fmtWidth f ∧ fmtWidth f ≤ 4 := by
  unfold fmtWidth
  split
  · omega
  · split <;> omega

/-- Where byte `j` of an image row stands in the row of the tile. -/
def rowOffset (x : BitVec 24) (j : Nat) : Nat := if shFmt x = 0xB ∧ shCols x ≤ j then 256 + (j - shCols x) else j

theorem rowKeys_eq (t : Nat) (x : BitVec 24) (r : Nat) :
    rowKeys t x r = (List.range (rowBytes x)).map fun j => tileKey t (1024 * r + rowOffset x j) := by
  unfold rowKeys rowBytes rowOffset
  split
  next q4 =>
    rw [List.range_add, List.map_append, List.map_map]
    congr 1
    · refine List.map_congr_left fun c hc => ?_
      rw [if_neg fun h => absurd h.2 (not_le.2 (List.mem_range.1 hc))]
    · refine List.map_congr_left fun b _ => ?_
      show _ = tileKey t (1024 * r + if _ then _ else _)
      rw [if_pos ⟨q4, Nat.le_add_right _ _⟩, Nat.add_sub_cancel_left, Nat.add_assoc]
  next q4 =>
    refine List.map_congr_left fun c hc => ?_
    rw [if_neg fun h => q4 h.1]

theorem rowOffset_lt {x : BitVec 24} {j : Nat} (h : j < rowBytes x) : rowOffset x j < 1024 := by
  have cols := shCols_le x
  have width := (fmtWidth_bounds (shFmt x)).2
  have row : shCols x * fmtWidth (shFmt x) ≤ 256 * 4 := Nat.mul_le_mul cols width
  unfold rowBytes at h
  unfold rowOffset
  split <;> split at h <;> omega

theorem rowOffset_injective {x : BitVec 24} {i j : Nat} (h : rowOffset x i = rowOffset x j) : i = j := by
  have cols := shCols_le x
  unfold rowOffset at h
  split at h <;> split at h <;> omega

/-- Byte `p` of an image is byte `b` of the tile. -/
def ImageByte (x : BitVec 24) (tr : Bool) (p b : Nat) : Prop :=
  if tr then ∃ r < shRows x, ∃ c < shCols x, ∃ j < fmtWidth (shFmt x),
    p = c * (shRows x * fmtWidth (shFmt x)) + (r * fmtWidth (shFmt x) + j) ∧ b = 1024 * r + fmtWidth (shFmt x) * c + j
  else ∃ r < shRows x, ∃ j < rowBytes x, p = r * rowBytes x + j ∧ b = 1024 * r + rowOffset x j

theorem imageKeys_getElem? {t : Nat} {x : BitVec 24} {tr : Bool} {p b : Nat} (h : ImageByte x tr p b) :
    (imageKeys t x tr)[p]? = some (tileKey t b) := by
  cases tr
  case false =>
    obtain ⟨r, hr, j, hj, rfl, rfl⟩ := h
    show ((List.range _).flatMap fun r => rowKeys t x r)[_]? = _
    simp only [rowKeys_eq]
    rw [Nat.mul_comm, getElem?_flatMap_range (fun _ => by simp) hr hj]
    simp [hj]
  case true =>
    obtain ⟨r, hr, c, hc, j, hj, rfl, rfl⟩ := h
    have inside : r * fmtWidth (shFmt x) + j < shRows x * fmtWidth (shFmt x) :=
      calc r * fmtWidth (shFmt x) + j < (r + 1) * fmtWidth (shFmt x) := by rw [Nat.succ_mul]; omega
        _ ≤ shRows x * fmtWidth (shFmt x) := Nat.mul_le_mul_right _ hr
    show ((List.range _).flatMap _)[_]? = _
    rw [Nat.mul_comm, getElem?_flatMap_range (n := shRows x * fmtWidth (shFmt x)) (fun _ => by simp) hc inside, Nat.mul_comm r,
      getElem?_flatMap_range (fun _ => by simp) hr hj]
    simp [hj]

theorem mem_imageKeys {t : Nat} {x : BitVec 24} {tr : Bool} {k : Nat} :
    k ∈ imageKeys t x tr ↔ ∃ p b, ImageByte x tr p b ∧ k = tileKey t b := by
  refine ⟨fun h => ?_, fun ⟨p, b, h, e⟩ => e ▸ List.mem_of_getElem? (imageKeys_getElem? h)⟩
  cases tr
  case false =>
    simp only [imageKeys, Bool.false_eq_true, if_false, rowKeys_eq, List.mem_flatMap, List.mem_map, List.mem_range] at h
    obtain ⟨r, hr, j, hj, rfl⟩ := h
    exact ⟨_, _, ⟨r, hr, j, hj, rfl, rfl⟩, rfl⟩
  case true =>
    simp only [imageKeys, if_true, List.mem_flatMap, List.mem_map, List.mem_range] at h
    obtain ⟨c, hc, r, hr, j, hj, rfl⟩ := h
    exact ⟨_, _, ⟨r, hr, c, hc, j, hj, rfl, rfl⟩, rfl⟩

theorem imageKeys_length (t : Nat) (x : BitVec 24) (tr : Bool) : (imageKeys t x tr).length = imageBytes x tr := by
  cases tr
  case false => simp [imageKeys, imageBytes, rowKeys_eq]
  case true => simp [imageKeys, imageBytes]

theorem ImageByte.lt {x : BitVec 24} {tr : Bool} {p b : Nat} (h : ImageByte x tr p b) : p < imageBytes x tr :=
  imageKeys_length 0 x tr ▸ (List.getElem?_eq_some_iff.1 (imageKeys_getElem? h)).1

theorem nodup_flatMap_range {α : Type} {n : Nat} {f : Nat → List α} (own : ∀ i < n, (f i).Nodup)
    (apart : ∀ i < n, ∀ j < n, ∀ a, a ∈ f i → a ∈ f j → i = j) : ((List.range n).flatMap f).Nodup :=
  List.nodup_flatMap.2 ⟨fun i hi => own i (List.mem_range.1 hi), List.nodup_range.pairwise_of_forall_ne fun i hi j hj ne =>
    List.disjoint_left.2 fun a ai aj => ne (apart i (List.mem_range.1 hi) j (List.mem_range.1 hj) a ai aj)⟩

theorem imageKeys_nodup (t : Nat) (x : BitVec 24) (tr : Bool) : (imageKeys t x tr).Nodup := by
  cases tr
  case false =>
    simp only [imageKeys, Bool.false_eq_true, if_false, rowKeys_eq]
    refine nodup_flatMap_range (fun r _ => ?_) fun r _ q _ k hr hq => ?_
    · refine List.Nodup.map_on (fun i _ j _ e => ?_) List.nodup_range
      refine rowOffset_injective (x := x) ?_
      unfold tileKey at e
      omega
    · simp only [List.mem_map, List.mem_range] at hr hq
      obtain ⟨i, hi, rfl⟩ := hr
      obtain ⟨j, hj, e⟩ := hq
      have := rowOffset_lt hi
      have := rowOffset_lt hj
      unfold tileKey at e
      omega
  case true =>
    have cols := shCols_le x
    have width := (fmtWidth_bounds (shFmt x)).2
    have place {c j : Nat} (hc : c < shCols x) (hj : j < fmtWidth (shFmt x)) : fmtWidth (shFmt x) * c + j < 1024 := by
      have : fmtWidth (shFmt x) * (c + 1) ≤ 4 * 256 := Nat.mul_le_mul width (Nat.le_trans hc cols)
      rw [Nat.mul_succ] at this
      omega
    simp only [imageKeys, if_true]
    refine nodup_flatMap_range (fun c hc => nodup_flatMap_range (fun r _ => ?_) fun r _ q _ k hr hq => ?_) fun c hc d hd k hr hq => ?_
    · refine List.Nodup.map_on (fun i hi j hj e => ?_) List.nodup_range
      unfold tileKey at e
      omega
    · simp only [List.mem_map, List.mem_range] at hr hq
      obtain ⟨i, hi, rfl⟩ := hr
      obtain ⟨j, hj, e⟩ := hq
      have := place hc hi
      have := place hc hj
      unfold tileKey at e
      omega
    · simp only [List.mem_flatMap, List.mem_map, List.mem_range] at hr hq
      obtain ⟨r, _, i, hi, rfl⟩ := hr
      obtain ⟨q, _, j, hj, e⟩ := hq
      have hci := place hc hi
      have hdj := place hd hj
      unfold tileKey at e
      have same : fmtWidth (shFmt x) * d + j = fmtWidth (shFmt x) * c + i := by omega
      have quot {c j : Nat} (hj : j < fmtWidth (shFmt x)) : (fmtWidth (shFmt x) * c + j) / fmtWidth (shFmt x) = c := by
        rw [Nat.mul_add_div (Nat.zero_lt_of_lt hj), Nat.div_eq_of_lt hj, Nat.add_zero]
      exact (quot (c := c) hi).symm.trans ((congrArg (· / fmtWidth (shFmt x)) same.symm).trans (quot hj))

theorem imageBytes_pos (x : BitVec 24) (tr : Bool) : 0 < imageBytes x tr := by
  have rows := shRows_pos x
  have cols := shCols_pos x
  have width := (fmtWidth_bounds (shFmt x)).1
  unfold imageBytes rowBytes
  split
  · positivity
  · split
    · positivity
    · positivity

theorem getElem?_eq_some_getD {α : Type} {l : List α} {p : Nat} {d : α} (h : p < l.length) : l[p]? = some (l.getD p d) := by
  rw [List.getElem?_eq_getElem h, List.getD_eq_getElem _ _ h]

theorem State.load_one {s : State} {a n p : Nat} {b : Byte} (h : (s.load a n)[p]? = some b) : s.load (a + p) 1 = [b] := by
  obtain ⟨lt, rfl⟩ := List.getElem?_eq_some_iff.1 h
  simp [load, oldBytes]

/-! ### Tile operations performed (R243, R244) -/

/-- Bytes put under the keys of an image: each key holds its byte, and no other byte changes. -/
theorem putCells_image {l : List Host.Cell} (wf : cellsWf l = true) {t : Nat} {x : BitVec 24} {tr : Bool} {bs : List Byte}
    (len : bs.length = imageBytes x tr) :
    (∀ p b, ImageByte x tr p b → cellGet (putCells l ((imageKeys t x tr).zip bs)) (tileKey t b) = bs.getD p 0) ∧
      ∀ k, (∀ p b, ImageByte x tr p b → k ≠ tileKey t b) → cellGet (putCells l ((imageKeys t x tr).zip bs)) k = cellGet l k := by
  have keys : ((imageKeys t x tr).zip bs).map (·.1) = imageKeys t x tr :=
    List.map_fst_zip (by rw [len, imageKeys_length])
  refine ⟨fun p b at_ => ?_, fun k apart => cellGet_putCells_other wf fun c hc e => ?_⟩
  · have key := imageKeys_getElem? (t := t) at_
    have byte : bs[p]? = some (bs.getD p 0) := getElem?_eq_some_getD (len ▸ at_.lt)
    refine cellGet_putCells (x := (tileKey t b, bs.getD p 0)) wf (keys.symm ▸ imageKeys_nodup t x tr :) ?_
    exact List.mem_of_getElem? (List.getElem?_zip_eq_some.2 ⟨key, byte⟩)
  · have key : c.1 ∈ imageKeys t x tr := keys ▸ List.mem_map_of_mem hc
    obtain ⟨p, b, at_, hk⟩ := mem_imageKeys.1 key
    exact apart p b at_ (e.symm.trans hk)

theorem shift_base (a b c : Nat) : a + b - (a + 0) + (c + 0) = c + b := by omega

theorem tileKey_move (t u b : Nat) : tileKey t b - tileKey t 0 + tileKey u 0 = tileKey u b := by
  unfold tileKey
  exact shift_base _ _ _

/-- The keys of an image in another tile (R244). -/
theorem imageKeys_move (t u : Nat) (x : BitVec 24) :
    (imageKeys t x false).map (fun k => k - tileKey t 0 + tileKey u 0) = imageKeys u x false := by
  unfold imageKeys
  rw [if_neg Bool.false_ne_true, if_neg Bool.false_ne_true, List.map_flatMap]
  refine congrArg (fun f => List.flatMap f _) (funext fun r => ?_)
  rw [rowKeys_eq, rowKeys_eq, List.map_map]
  refine List.map_congr_left fun j _ => ?_
  rw [Function.comp_apply]
  exact tileKey_move t u _

section
variable {s : State} {o : TileOp} {x y : BitVec 4} {a : Nat} {tr : Bool}

theorem State.doTileOp_load (h : o.kind = .load x a tr) : s.doTileOp o = { s with
    tiles.bytes := putCells s.tiles.bytes ((imageKeys x.toNat o.shape tr).zip (s.load a (imageBytes o.shape tr))) } := by
  unfold doTileOp
  rw [h]
  dsimp only
  rw [imageKeys_length]

theorem State.doTileOp_store (h : o.kind = .store x a tr) : s.doTileOp o =
    s.storeEng a ((imageKeys x.toNat o.shape tr).map fun k => cellGet s.tiles.bytes k) := by
  unfold doTileOp
  rw [h]

theorem State.doTileOp_copy (h : o.kind = .copy x y) : s.doTileOp o = { s with
    tiles.bytes := putCells s.tiles.bytes ((imageKeys y.toNat o.shape false).zip
      ((imageKeys x.toNat o.shape false).map fun k => cellGet s.tiles.bytes k)) } := by
  unfold doTileOp
  rw [h]
  dsimp only
  rw [← imageKeys_move x.toNat y.toNat, List.zip_map']

theorem execTileOpComplete_performs {i : Nat} (arg : s.arg = .nat i) (run : s.halted = false)
    (at_ : s.stream.tileOps[i]? = some o) : execTileOpComplete s =
      .next { s.doTileOp o with stream := { s.stream with
        tileOps := s.stream.tileOps.eraseIdx i, tileNow := s.stream.tileNow ++ [o] } } := by
  unfold execTileOpComplete
  rw [arg]
  dsimp only
  rw [at_]
  dsimp only
  rw [run]
  rfl

end

theorem region_eq_hole_iff {a : Nat} :
    region a = .hole ↔ 0x18080000 ≤ a ∧ a < 0x1C000000 ∨ 0x20000000 ≤ a ∧ a < 0x100000000 := by
  refine ⟨fun h => ?_, region_hole⟩
  contrapose! h
  unfold region
  split_ifs <;> first | omega | simp

/-- A range meets an interval when one of its bytes lies in it. -/
theorem meets_iff {a n lo hi : Nat} (pos : 0 < n) (proper : lo < hi) :
    (a < hi ∧ lo < a + n) ↔ ∃ i < n, lo ≤ a + i ∧ a + i < hi :=
  ⟨fun ⟨_, _⟩ => ⟨lo - a, by omega, by omega, by omega⟩, fun ⟨_, _, _, _⟩ => ⟨by omega, by omega⟩⟩

/-- The fault of a tile image, as the bytes of the image say it (R243). -/
theorem imageFault_eq (agent a n : Nat) (wr : Bool) (pos : 0 < n) : imageFault agent a n wr =
    if inLocal a n then none
    else some (.window a (if (List.range n).any fun i => region (a + i) = .hole then 0x2 else 0x6) agent none wr) := by
  have cause : imageCause a n = if (List.range n).any fun i => region (a + i) = .hole then 0x2 else 0x6 := by
    unfold imageCause
    dsimp only
    congr 1
    rw [eq_iff_iff, List.any_eq_true]
    simp only [Bool.or_eq_true, Bool.and_eq_true, decide_eq_true_eq, List.mem_range, region_eq_hole_iff,
      meets_iff pos (show 0x18080000 < 0x1C000000 by decide), meets_iff pos (show 0x20000000 < 0x100000000 by decide)]
    simp only [and_or_left, exists_or]
  rw [imageFault, cause]

/-- Settles O21: what a tile operation does when it is performed, and how it issues. -/
theorem tileOperations : Obligations.TileOperations := by
  unfold Obligations.TileOperations
  refine ⟨?performed, ?issued⟩
  case performed =>
    intro s i o x run at_ wf rows cols q4 w rb image tileOf others done
    have image_eq : image = ImageByte o.shape := by
      funext tr p b
      cases tr
      case true => rfl
      case false =>
        refine propext (exists_congr fun r => and_congr_right fun _ => exists_congr fun j => and_congr_right fun _ =>
          and_congr_right fun _ => ?_)
        unfold rowOffset
        split
        next h => exact ⟨fun ⟨_, scale⟩ => (scale h.1 h.2).trans (Nat.add_assoc ..),
          fun e => ⟨fun code => absurd (code h.1) (not_lt.2 h.2), fun _ _ => e.trans (Nat.add_assoc ..).symm⟩⟩
        next h => exact ⟨fun ⟨code, _⟩ => code fun q => lt_of_not_ge fun le => h ⟨q, le⟩,
          fun e => ⟨fun _ => e, fun q le => absurd ⟨q, le⟩ h⟩⟩
    clear_value image
    subst image_eq
    let e : State := { s with arg := .nat i }
    have performs : exec .tileOpComplete e = _ := execTileOpComplete_performs (s := e) rfl run at_
    have key (y : BitVec 4) (b : Nat) : 262144 * y.toNat + b = tileKey y.toNat b := by rw [tileKey, Nat.mul_comm]
    refine ⟨fun a tr hk => ?_, fun a tr hk => ?_, fun y hk => ?_⟩
    · rw [State.doTileOp_load hk] at performs
      obtain ⟨written, kept⟩ := putCells_image wf (t := x.toNat) (x := o.shape) (tr := tr) (State.load_length s a _)
      refine ⟨_, ⟨performs, rfl, rfl, rfl, rfl, rfl⟩, rfl, fun k apart => kept k fun p b at_ => key x b ▸ apart p b at_,
        fun p b at_ => State.load_one (n := imageBytes o.shape tr) ?_⟩
      refine (getElem?_eq_some_getD ?_).trans (congrArg some ((written p b at_).symm.trans (congrArg _ (key x b).symm)))
      rw [State.load_length]
      exact at_.lt
    · rw [State.doTileOp_store hk] at performs
      refine ⟨_, _, ⟨performs, rfl, rfl, rfl, rfl, rfl⟩, rfl, rfl, rfl, ?_, fun p b at_ => ?_⟩
      · exact (List.length_map ..).trans (imageKeys_length x.toNat o.shape tr)
      · rw [List.getD_eq_getElem?_getD, List.getElem?_map, imageKeys_getElem? at_, ← key]
        rfl
    · rw [State.doTileOp_copy hk] at performs
      have len : ((imageKeys x.toNat o.shape false).map fun k => cellGet s.tiles.bytes k).length = imageBytes o.shape false :=
        (List.length_map ..).trans (imageKeys_length x.toNat o.shape false)
      obtain ⟨written, kept⟩ := putCells_image wf (t := y.toNat) len
      refine ⟨_, ⟨performs, rfl, rfl, rfl, rfl, rfl⟩, rfl, fun k apart => kept k fun p b at_ => key y b ▸ apart p b at_,
        fun p b at_ => ?_⟩
      show cellGet _ (262144 * y.toNat + b) = cellGet _ (262144 * x.toNat + b)
      rw [key, key]
      refine (written p b at_).trans ?_
      rw [List.getD_eq_getElem?_getD, List.getElem?_map, imageKeys_getElem? at_]
      rfl
  case issued =>
    intro s g x y v sh ea full hole range starts
    have image (tr wr : Bool) (k : Nat → TileKind) : CommandSlot s g full (range tr wr) (starts (k ea)) (s.tileMem g x v tr wr k) := by
      have fault : range tr wr = if tr = true ∧ shFmt (s.tshapeOf x) = 0xB then some (.illegal 0xA)
          else imageFault 0x0 (s.areg v / 32 * 32) (imageBytes (s.tshapeOf x) tr) wr := by
        rw [State.areg_eq, imageFault_eq _ _ _ _ (imageBytes_pos _ _)]
      have address : s.areg v / 32 * 32 = ea := by rw [State.areg_eq]
      unfold State.tileMem
      rw [fault, ← address]
      exact State.stallSlot_commandSlot (f := fun s => s.startTileOp _ _)
    refine ⟨image false false fun a => .load x a false, image false true fun a => .store x a false,
      image true false fun a => .load x a true, image true true fun a => .store x a true,
      State.stallSlot_commandSlot (f := fun s => s.startTileOp _ _), State.stallSlot_commandSlot (f := fun s => s.startTileOp _ _), fun ok => ?_, fun bad on => ?_⟩
    · have accepted : tshapeOk ((s.regs.rs v).truncate 24).toNat = true := (congrArg tshapeOk (BitVec.toNat_setWidth ..)).trans ok
      show execTshape g x v s = _
      unfold execTshape
      dsimp only
      rw [if_pos accepted]
      exact State.slot_none
    · have refused : tshapeOk ((s.regs.rs v).truncate 24).toNat = false := (congrArg tshapeOk (BitVec.toNat_setWidth ..)).trans bad
      show execTshape g x v s = _
      unfold execTshape
      dsimp only
      rw [if_neg (Bool.eq_false_iff.1 refused)]
      exact State.slot_fault on

end Sys2Proof.Machine
end

section
/-! A step runs the bundle at the program counter (R46, R159, R174, R217). -/

namespace Sys2Proof.Machine

/-! ### What decodes is a slot or a header, whose meaning is that of its instruction -/

/-- A decoder's answer has a property when it is an instruction. -/
def Reads (p : Instr → Prop) (r : Except Nat Instr) : Prop := ∀ i, r = .ok i → p i

/-- What an instruction does in a bundle is what it does. -/
def Acts (i : Instr) : Prop := ∀ s, slotMeaning i s = exec i s

theorem reads_error {p : Instr → Prop} {n : Nat} : Reads p (.error n) := nofun

theorem reads_noForm {p : Instr → Prop} {e : Bool} {w : Nat} {r : List (Nat × Nat)} : Reads p (noForm e w r) := nofun

theorem reads_ok {p : Instr → Prop} {i : Instr} (h : p i) : Reads p (.ok i) := fun _ e => (Except.ok.inj e) ▸ h

theorem reads_finish {p : Instr → Prop} {e : Bool} {w : Nat} {r l : List (Nat × Nat)} {i : Instr} (h : p i) :
    Reads p (Sys2Proof.finish e w r l i) := by
  unfold Sys2Proof.finish
  exact iteInduction (motive := Reads p) (fun _ => reads_error) fun _ =>
    iteInduction (motive := Reads p) (fun _ => reads_error) fun _ => reads_ok h

theorem reads_decode0 (x : Option Nat) (w : Nat) : Reads Acts (decode0 x w) := by
  unfold decode0
  repeat' split
  all_goals first | exact reads_finish fun _ => rfl | exact reads_noForm | exact reads_error

theorem reads_decode1 (x : Option Nat) (w : Nat) : Reads Acts (decode1 x w) := by
  unfold decode1
  repeat' split
  all_goals first | exact reads_finish fun _ => rfl | exact reads_noForm | exact reads_error

theorem reads_decode2 (x : Option Nat) (w : Nat) : Reads Acts (decode2 x w) := by
  unfold decode2
  repeat' split
  all_goals first | exact reads_finish fun _ => rfl | exact reads_noForm | exact reads_error

theorem reads_decode3 (x : Option Nat) (w : Nat) : Reads Acts (decode3 x w) := by
  unfold decode3
  repeat' split
  all_goals first | exact reads_finish fun _ => rfl | exact reads_noForm | exact reads_error

theorem reads_decode4 (x : Option Nat) (w : Nat) : Reads Acts (decode4 x w) := by
  unfold decode4
  repeat' split
  all_goals first | exact reads_finish fun _ => rfl | exact reads_noForm | exact reads_error

theorem reads_decode5 (x : Option Nat) (w : Nat) : Reads Acts (decode5 x w) := by
  unfold decode5
  repeat' split
  all_goals first | exact reads_finish fun _ => rfl | exact reads_noForm | exact reads_error

theorem reads_decode6 (x : Option Nat) (w : Nat) : Reads Acts (decode6 x w) := by
  unfold decode6
  repeat' split
  all_goals first | exact reads_finish fun _ => rfl | exact reads_noForm | exact reads_error

theorem reads_decode7 (x : Option Nat) (w : Nat) : Reads Acts (decode7 x w) := by
  unfold decode7
  repeat' split
  all_goals first | exact reads_finish fun _ => rfl | exact reads_noForm | exact reads_error

theorem reads_decode8 (x : Option Nat) (w : Nat) : Reads Acts (decode8 x w) := by
  unfold decode8
  repeat' split
  all_goals first | exact reads_finish fun _ => rfl | exact reads_noForm | exact reads_error

theorem reads_decode9 (x : Option Nat) (w : Nat) : Reads Acts (decode9 x w) := by
  unfold decode9
  repeat' split
  all_goals first | exact reads_finish fun _ => rfl | exact reads_noForm | exact reads_error

theorem reads_decodeA (x : Option Nat) (w : Nat) : Reads Acts (decodeA x w) := by
  unfold decodeA
  repeat' split
  all_goals first | exact reads_finish fun _ => rfl | exact reads_noForm | exact reads_error

theorem reads_decodeB (x : Option Nat) (w : Nat) : Reads Acts (decodeB x w) := by
  unfold decodeB
  repeat' split
  all_goals first | exact reads_finish fun _ => rfl | exact reads_noForm | exact reads_error

theorem reads_decodeC (x : Option Nat) (w : Nat) : Reads Acts (decodeC x w) := by
  unfold decodeC
  repeat' split
  all_goals first | exact reads_finish fun _ => rfl | exact reads_noForm | exact reads_error

theorem reads_decodeD (x : Option Nat) (w : Nat) : Reads Acts (decodeD x w) := by
  unfold decodeD
  repeat' split
  all_goals first | exact reads_finish fun _ => rfl | exact reads_noForm | exact reads_error

theorem reads_decodeE (x : Option Nat) (w : Nat) : Reads Acts (decodeE x w) := by
  unfold decodeE
  repeat' split
  all_goals first | exact reads_finish fun _ => rfl | exact reads_noForm | exact reads_error

theorem reads_decodeSlot (x : Option Nat) (w : Nat) : Reads Acts (decodeSlot x w) := by
  unfold decodeSlot
  split
  · exact reads_decode0 x w
  · exact reads_decode1 x w
  · exact reads_decode2 x w
  · exact reads_decode3 x w
  · exact reads_decode4 x w
  · exact reads_decode5 x w
  · exact reads_decode6 x w
  · exact reads_decode7 x w
  · exact reads_decode8 x w
  · exact reads_decode9 x w
  · exact reads_decodeA x w
  · exact reads_decodeB x w
  · exact reads_decodeC x w
  · exact reads_decodeD x w
  · exact reads_decodeE x w
  · exact reads_error

theorem reads_decodeHeader (w : Nat) : Reads Acts (decodeHeader w) := by
  unfold decodeHeader
  repeat' split
  all_goals first | exact reads_ok fun _ => rfl | exact reads_error

/-! ### A bundle's slots, each by its instruction -/

theorem runSlots_eq_execSlots {l : List (Nat × Instr)} (h : ∀ x ∈ l, Acts x.2) (s : State) : runSlots l s = execSlots l s := by
  induction l generalizing s with
  | nil => rfl
  | cons x l ih =>
    rw [runSlots, execSlots, h x (List.mem_cons_self ..)]
    obtain ⟨t, ht⟩ := exec_next (s := s.atSlot x.1) x.2
    rw [ht]
    exact ih (fun y hy => h y (List.mem_cons_of_mem _ hy)) t

theorem acts_of_mem_decoded {ws : List Nat} {p : Slot → Bool} {x : Nat × Instr} (h : x ∈ decoded ((bundleSlots ws).filter p)) :
    Acts x.2 := by
  simp only [decoded, List.mem_filterMap, List.mem_filter] at h
  obtain ⟨slot, ⟨mem, -⟩, dec⟩ := h
  simp only [bundleSlots, List.mem_map] at mem
  obtain ⟨k, -, rfl⟩ := mem
  dsimp only at dec
  split at dec
  next i hi =>
    obtain rfl := Option.some.inj dec
    exact reads_decodeSlot _ _ i hi
  next => cases dec

theorem acts_of_mem_inOrder {ws : List Nat} {lo n : Nat} {x : Nat × Instr} (h : x ∈ inOrder (bundleSlots ws) lo n) : Acts x.2 := by
  simp only [inOrder, List.mem_flatMap] at h
  obtain ⟨k, -, mem⟩ := h
  exact acts_of_mem_decoded mem

theorem acts_of_mem_actors {s : State} {ws : List Nat} (rpt : ∀ r, s.stream.rpt = some r → ∃ w, decodeSlot none w = .ok r.slot)
    {x : Nat × Instr} (h : x ∈ s.actors (bundleSlots ws)) : Acts x.2 := by
  simp only [State.actors, List.mem_append] at h
  rcases h with (h | h) | h
  · exact acts_of_mem_inOrder h
  · unfold State.reissue at h
    split at h
    next r hr =>
      obtain ⟨w, hw⟩ := rpt r hr
      obtain rfl := List.mem_singleton.1 h
      exact reads_decodeSlot none w _ hw
    next => cases h
  · exact acts_of_mem_inOrder h

/-- The header of a bundle, as what acts in slot S0. -/
def headerActs (ws : List Nat) : List (Nat × Instr) :=
  match bundleHeader ws with
  | some (.ok h) => [(0, h)]
  | _ => []

theorem acts_of_mem_header {ws : List Nat} {x : Nat × Instr} (h : x ∈ headerActs ws) : Acts x.2 := by
  unfold headerActs bundleHeader at h
  split at h
  next i hi =>
    split at hi
    · obtain rfl := List.mem_singleton.1 h
      exact reads_decodeHeader _ i (Option.some.inj hi)
    · cases hi
  next => cases h

/-- What stands when the slots of a bundle have acted, and what follows it is settled. -/
def State.bundleDone (s u : State) (ss : List Slot) : State :=
  { u.flow s.stream.pc with stream := { (u.flow s.stream.pc).stream with
    held := false, noWatch := false, counting := true, rpt := s.nextRepeat (u.flow s.stream.pc).stream.ask.rpt ss,
    ask := { (u.flow s.stream.pc).stream.ask with counted := true } } }

theorem State.issueSlots_eq {s : State} (ws : List Nat) :
    s.issueSlots ws = match runSlots (headerActs ws ++ s.actors (bundleSlots ws)) s with
      | .next u => .next (s.bundleDone u (bundleSlots ws))
      | .fault f => .fault f
      | .refused f => .refused f := rfl

theorem State.issueSlots_executes {s : State} {ws : List Nat}
    (rpt : ∀ r, s.stream.rpt = some r → ∃ w, decodeSlot none w = .ok r.slot) :
    ∃ u, execSlots (headerActs ws ++ s.actors (bundleSlots ws)) s = .next u ∧ s.issueSlots ws = .next (s.bundleDone u (bundleSlots ws)) := by
  have acts : ∀ x ∈ headerActs ws ++ s.actors (bundleSlots ws), Acts x.2 := fun x hx =>
    (List.mem_append.1 hx).elim acts_of_mem_header (acts_of_mem_actors rpt)
  obtain ⟨u, hu⟩ := runSlots_next (headerActs ws ++ s.actors (bundleSlots ws)) s
  exact ⟨u, (runSlots_eq_execSlots acts s).symm.trans hu, (State.issueSlots_eq ws).trans (by rw [hu])⟩

theorem State.endWait_rpt (s : State) : s.endWait.stream.rpt = s.stream.rpt := by
  unfold endWait
  dsimp only
  split
  · exact (congrArg (fun x : Stream => x.rpt) (State.emit_frame _ _ _).1).trans rfl
  · rfl

theorem State.endWait_work (s : State) (ss : List Slot) : s.endWait.work ss = s.work ss := by
  unfold work reissue
  rw [State.endWait_rpt]

theorem State.repeatRegs_rpt (s : State) : s.repeatRegs.stream.rpt = s.stream.rpt := by
  unfold repeatRegs
  split
  · rfl
  · rfl

section
variable {s : State} {ws : List Nat}

/-- The state in which the slots of a bundle act (R182). -/
def State.asIssued (s : State) : State := (({ s with stream.held := false } : State).repeatRegs).endWait

theorem State.asIssued_rpt (s : State) : s.asIssued.stream.rpt = s.stream.rpt :=
  (State.endWait_rpt _).trans (State.repeatRegs_rpt _)

theorem State.issueChecked_issues (free : s.stalled = false)
    (calm : (s.asIssued.work (bundleSlots ws)).findSome? s.asIssued.slotTrap = none)
    (unwatched : s.asIssued.watchMatch (s.asIssued.work (bundleSlots ws)) = none) :
    s.issueChecked ws = s.asIssued.issueSlots ws := by
  unfold State.asIssued at calm unwatched
  rw [State.endWait_work] at calm unwatched
  unfold State.issueChecked
  dsimp only
  rw [free, if_neg Bool.false_ne_true, calm]
  dsimp only
  rw [unwatched]
  rfl

theorem State.issue_checked (due : s.duePending = none) (bubbles : s.stream.bubbles = 0) (bounds : s.inBounds = true)
    (bundle : bundleFault s.rev2.isNone s.bundleWords s.stream.rpt = none) (slots : s.slotFault (bundleSlots s.bundleWords) = none) :
    s.issue = s.issueChecked s.bundleWords := by
  unfold State.issue
  rw [due]
  dsimp only
  rw [if_neg (by rw [bubbles]; exact Nat.lt_irrefl 0), if_neg (by rw [bounds]; exact Bool.noConfusion), bundle]
  dsimp only
  rw [slots]

theorem State.not_frozen (h : s.eng.freeze = 0) : s.frozen = false := by
  unfold State.frozen
  rw [h]
  rfl

/-- A cycle of a running die in which the issue leaves `v`. -/
theorem State.cycle_running {v : State} (freeze : s.eng.freeze = 0) (mode : s.stream.mode = .running) (issues : s.issue = .next v) :
    s.cycle = .next (s.afterIssue v) := by
  unfold State.cycle
  rw [State.not_frozen freeze, if_neg Bool.false_ne_true]
  dsimp only
  rw [mode]
  dsimp only
  rw [issues]
  rfl

theorem State.cycleIf_true {b : Bool} (h : b = true) : s.cycleIf b = s.cycle := if_pos h

end

/-! ### A bundle of one slot -/

theorem actOrder_lt (w : Nat) : actOrder w < 7 := by
  unfold actOrder
  split <;> decide

theorem bundleSlots_single {w : Nat} {i : Instr} (cls : slotClass w ≠ 15) (dec : decodeSlot none w = .ok i) :
    bundleSlots [w, 0, 0, 0] =
      [⟨0, w, .ok i⟩, ⟨1, 0, .ok (.nop 0)⟩, ⟨2, 0, .ok (.nop 0)⟩, ⟨3, 0, .ok (.nop 0)⟩] := by
  have plain (k : Nat) : slotExt w k = none := if_neg fun h => cls h.1
  have nop : decodeSlot none 0 = .ok (.nop 0) := rfl
  simp [bundleSlots, cls, plain, dec, nop, List.range_succ]

/-- Three zero words beside a slot are NOPs, which act before it, or after it when it is one of the moves. -/
theorem State.actors_single {s : State} {w : Nat} {i : Instr} (rpt : s.stream.rpt = none) (cls : slotClass w ≠ 15)
    (dec : decodeSlot none w = .ok i) :
    s.actors (bundleSlots [w, 0, 0, 0]) =
      if actOrder w = 0 then [(0, i), (1, .nop 0), (2, .nop 0), (3, .nop 0)] else [(1, .nop 0), (2, .nop 0), (3, .nop 0), (0, i)] := by
  have zero : actOrder 0 = 0 := rfl
  have lt := actOrder_lt w
  rw [bundleSlots_single cls dec]
  unfold State.actors State.reissue
  rw [rpt]
  generalize ho : actOrder w = o at lt
  interval_cases o
  all_goals simp [inOrder, decoded, List.range_succ, List.filter_cons, ho, zero]

theorem headerActs_single {w : Nat} (cls : slotClass w ≠ 15) : headerActs [w, 0, 0, 0] = [] := by
  have none : bundleHeader [w, 0, 0, 0] = none := if_neg cls
  unfold headerActs
  rw [none]

theorem State.atSlot_atSlot (s : State) (j k : Nat) : (s.atSlot j).atSlot k = s.atSlot k := rfl

theorem execSlots_cons {s t : State} {k : Nat} {i : Instr} {l : List (Nat × Instr)} (h : exec i (s.atSlot k) = .next t) :
    execSlots ((k, i) :: l) s = execSlots l t := by
  rw [execSlots, h]

theorem execSlots_nop {s : State} {k : Nat} {g : BitVec 4} {l : List (Nat × Instr)} :
    execSlots ((k, .nop g) :: l) s = execSlots l (s.atSlot k) := execSlots_cons rfl

theorem execSlots_single {s u x : State} {i : Instr} (hx : exec i (s.atSlot 0) = .next x)
    (hu : execSlots [(0, i), (1, .nop 0), (2, .nop 0), (3, .nop 0)] s = .next u ∨
      execSlots [(1, .nop 0), (2, .nop 0), (3, .nop 0), (0, i)] s = .next u) : u = { x with stream.ask.slot := u.stream.ask.slot } := by
  rcases hu with hu | hu
  · rw [execSlots_cons hx, execSlots_nop, execSlots_nop, execSlots_nop, State.atSlot_atSlot, State.atSlot_atSlot, execSlots] at hu
    obtain rfl : x.atSlot 3 = u := Host.Outcome.next.inj hu
    rfl
  · rw [execSlots_nop, execSlots_nop, execSlots_nop, State.atSlot_atSlot, State.atSlot_atSlot,
      execSlots_cons (s := s.atSlot 3) (k := 0) (t := x) (by rw [State.atSlot_atSlot]; exact hx), execSlots] at hu
    obtain rfl : x = u := Host.Outcome.next.inj hu
    rfl

/-- Settles O36: the cycle of a running die that meets nothing before its bundle, and the bound of the code store. -/
theorem stepRunsTheBundle : Obligations.StepRunsTheBundle := by
  unfold Obligations.StepRunsTheBundle
  refine ⟨?_, fun s => decide_eq_true_iff⟩
  intro s ws ss hws hss freeze mode due bubbles bounds bundle slots free rpt t head calm unwatched
  subst hss
  have rpt' : ∀ r, t.stream.rpt = some r → ∃ w, decodeSlot none w = .ok r.slot := fun r hr =>
    rpt r ((State.asIssued_rpt s).symm.trans hr)
  obtain ⟨u, acts, issues⟩ := State.issueSlots_executes (ws := ws) rpt'
  subst hws
  have issue : s.issue = .next (t.bundleDone u (bundleSlots s.bundleWords)) :=
    (State.issue_checked due bubbles bounds bundle slots).trans ((State.issueChecked_issues free calm unwatched).trans issues)
  have cycle := State.cycle_running freeze mode issue
  refine ⟨u, _, acts, rfl, cycle, fun held => ?_, fun pass quiet => ?_, fun w i single rpt cls dec => ?_⟩
  · exact (State.cycleIf_true (by simp [State.mayIssue, freeze, mode, due, bubbles, held, free])).trans cycle
  · have noPass : s.passNow = false := by
      unfold State.passNow
      rw [Bool.and_eq_false_iff, Option.any_eq_false]
      exact .inr fun n hn => decide_eq_false (not_lt.2 (pass n hn))
    unfold step
    rw [noPass, if_neg Bool.false_ne_true, quiet]
    exact cycle
  · have none : t.stream.rpt = none := (State.asIssued_rpt s).trans rpt
    rw [single, State.actors_single none cls dec, headerActs_single cls, List.nil_append] at acts
    obtain ⟨x, hx⟩ := exec_next (s := t.atSlot 0) i
    refine ⟨x, hx, execSlots_single hx ?_⟩
    split at acts
    · exact .inl acts
    · exact .inr acts

end Sys2Proof.Machine
end

section
/-! The end of a cycle, and the events of the die clock (R35, R51, R160, R168, R314, R319 to R323). -/

namespace Sys2Proof.Machine

/-! ### Time passes -/

theorem State.refill_frame (s : State) (rate : Nat) : ∃ e, s.refill rate = { s with ctl.enacct := e } := by
  unfold refill
  dsimp only
  split
  · exact ⟨_, rfl⟩
  · exact ⟨s.ctl.enacct, rfl⟩

/-- What the power controller's clock changes, where it goes on. -/
theorem State.clock_frame (s : State) (p : Bool) :
    ∃ e k, (if p = true then s.powerClock else s) = { s with ctl.enacct := e, refillClk := k } := by
  split
  · unfold powerClock
    split
    · obtain ⟨e, he⟩ := State.refill_frame { s with refillClk := 0 } s.refillRate
      exact ⟨e, 0, he⟩
    · exact ⟨s.ctl.enacct, _, rfl⟩
  · exact ⟨s.ctl.enacct, s.refillClk, rfl⟩

/-- What the end of a cycle leaves of the units. -/
theorem State.passTime_frame (s : State) (p c : Bool) :
    (s.passTime p c).regs = s.regs ∧ (s.passTime p c).tiles = s.tiles ∧ (s.passTime p c).mem.loc = s.mem.loc ∧
      (s.passTime p c).eng = { s.eng with newRows := [] } ∧
      (s.passTime p c).stream = { s.stream with ask := Ask.none, tileNow := [] } := by
  obtain ⟨e, k, h⟩ := s.clock_frame p
  unfold passTime
  dsimp only
  rw [h]
  exact ⟨rfl, rfl, rfl, rfl, rfl⟩

/-- The control registers that the end of a cycle changes: flags and overflows of the cycle, the account and CYCNT. -/
theorem State.passTime_ctl (s : State) (p c : Bool) : ∃ (f : BitVec 6) (m : W16) (z : Vector W32 4) (e n : W64),
    (s.passTime p c).ctl = { s.ctl with vflags := f, msat := m, zovf := z, enacct := e, cyccnt := n } := by
  obtain ⟨e, k, h⟩ := s.clock_frame p
  unfold passTime
  dsimp only
  rw [h]
  exact ⟨_, _, _, _, _, rfl⟩

/-- A refill raises ENACCT by the rate, up to what ENCAP leaves beside ENRSV (R314). -/
theorem State.refill_enacct (s : State) (rate : Nat) (rsv : 0 ≤ s.ctl.enrsv.toInt) :
    (s.refill rate).ctl.enacct.toInt =
      max s.ctl.enacct.toInt (min (s.ctl.enacct.toInt + rate) (s.ctl.encap.toInt - s.ctl.enrsv.toInt)) := by
  unfold refill
  dsimp only
  split
  next more =>
    have low := s.ctl.enacct.le_toInt
    have high := s.ctl.encap.toInt_lt
    show (BitVec.ofInt 64 _).toInt = _
    rw [max_eq_right (le_of_lt more), BitVec.toInt_ofInt_eq_self (by omega) (by omega) (by omega)]
  next less => exact (max_eq_left (not_lt.1 less)).symm

theorem State.refillRate_full {s : State} (given : s.pkg.withheld = false) (cool : s.pkg.celsius < 100) :
    s.refillRate = s.ctl.enrate.toNat := by
  unfold refillRate
  rw [given, if_neg Bool.false_ne_true, if_neg (not_le.2 cool)]

/-- The cycle in which the power controller's clock is over. -/
theorem State.passTime_refills {s : State} {c : Bool} (clk : s.refillClk = 1023) (given : s.pkg.withheld = false)
    (cool : s.pkg.celsius < 100) (rsv : 0 ≤ s.ctl.enrsv.toInt) :
    (s.passTime true c).refillClk = 0 ∧ (s.passTime true c).ctl.enrsv = s.ctl.enrsv ∧ (s.passTime true c).ctl.encap = s.ctl.encap ∧
      (s.passTime true c).ctl.enacct.toInt = max s.ctl.enacct.toInt
        (min (s.ctl.enacct.toInt + s.ctl.enrate.toNat) (s.ctl.encap.toInt - s.ctl.enrsv.toInt)) := by
  have clock : s.powerClock = ({ s with refillClk := 0 } : State).refill s.ctl.enrate.toNat := by
    unfold powerClock
    rw [if_pos (by rw [clk]), State.refillRate_full given cool]
  obtain ⟨e, frame⟩ := ({ s with refillClk := 0 } : State).refill_frame s.ctl.enrate.toNat
  refine ⟨?_, ?_, ?_, ?_⟩
  · show s.powerClock.refillClk = 0
    rw [clock, frame]
  · show s.powerClock.ctl.enrsv = _
    rw [clock, frame]
  · show s.powerClock.ctl.encap = _
    rw [clock, frame]
  · show s.powerClock.ctl.enacct.toInt = _
    rw [clock]
    exact ({ s with refillClk := 0 } : State).refill_enacct _ rsv

theorem State.endWait_frame (s : State) : s.endWait.stream = { s.stream with held := false, waited := 0 } ∧
    (∃ b, s.endWait.ctl = { s.ctl with lwstat := b }) ∧ s.endWait.regs = s.regs := by
  unfold endWait
  dsimp only
  split
  · obtain ⟨stream, ctl, regs, -⟩ := State.emit_frame (State.mk ..) _ _
    exact ⟨stream, ⟨_, ctl⟩, regs⟩
  · exact ⟨rfl, ⟨_, rfl⟩, rfl⟩

/-! ### A die at rest: the engines do nothing of themselves -/

theorem vget_replicate {α : Type} {n i : Nat} {x : α} : vget (Vector.replicate n x) i x = x := by
  unfold vget
  by_cases h : i < n
  · simp [h]
  · rw [Vector.getElem?_eq_none (by omega)]
    rfl

section
variable {s : State} {lim : List Nat} (idle : s.eng = Engines.clear)
include idle

theorem State.xqueue_idle (q : Nat) : s.xqueue q = XQueue.clear := by
  unfold xqueue
  rw [idle]
  exact vget_replicate

theorem State.pendingStart_idle (u : EngUnit) : s.pendingStart u = none := by
  cases u with
  | ce i =>
    have queue : s.copyQueue i = [] := by
      unfold copyQueue
      rw [idle]
      exact vget_replicate
    have next : s.copyNext i = none := by
      unfold copyNext
      rw [queue]
      rfl
    exact congrArg (Option.map _) next
  | xe q =>
    have next : s.xNext q = none := by
      unfold xNext
      rw [State.xqueue_idle idle]
      rfl
    exact congrArg (Option.map _) next
  | walker =>
    have next : s.walkNext = none := by
      unfold walkNext
      rw [idle]
      rfl
    exact congrArg (Option.map _) next
  | chain =>
    unfold pendingStart
    rw [idle]
    rfl
  | me e =>
    have queue : s.mqueue e = [] := by
      unfold mqueue
      rw [idle]
      exact vget_replicate
    have next : s.matrixNext e = none := by
      unfold matrixNext
      rw [queue]
    exact congrArg (Option.map _) next

theorem State.startUnit_idle (u : EngUnit) (f : Nat) : s.startUnit lim u f = (s, false) := by
  cases f with
  | zero => rfl
  | succ f => rw [startUnit, State.pendingStart_idle idle]

theorem State.fireArms_idle (q f : Nat) : s.fireArms lim q f = (s, false) := by
  cases f with
  | zero => rfl
  | succ f =>
    rw [fireArms, State.xqueue_idle idle]
    rfl

theorem State.dispatchRound_idle : s.dispatchRound = (s, false) := by
  have tasks : s.eng.tasks = [] := by rw [idle]; rfl
  unfold dispatchRound
  rw [tasks]
  show (({ s with eng.tasks := s.countPasses [] [] s.eng.tasks } : State), false) = _
  rw [tasks]
  show (({ s with eng.tasks := [] } : State), false) = _
  rw [← tasks]

theorem State.engineStarts_idle : s.engineStarts lim = s := by
  have unit (u : EngUnit) : (s.startUnit lim u 32).1.deferred (s.startUnit lim u 32).2 = s := by
    rw [State.startUnit_idle idle]
    rfl
  have arms (q : Nat) : (((s.fireArms lim q 16).1.startUnit lim (.xe q) 32).1.deferred
      ((s.fireArms lim q 16).2 || ((s.fireArms lim q 16).1.startUnit lim (.xe q) 32).2)) = s := by
    rw [State.fireArms_idle idle, State.startUnit_idle idle]
    rfl
  have copies : (List.range 4).foldl (fun s i => (s.startUnit lim (.ce i) 32).1.deferred (s.startUnit lim (.ce i) 32).2) s = s :=
    List.foldl_fixed' (fun i => unit (.ce i)) _
  have exchanges : (List.range 4).foldl (fun s q => (((s.fireArms lim q 16).1.startUnit lim (.xe q) 32).1.deferred
      ((s.fireArms lim q 16).2 || ((s.fireArms lim q 16).1.startUnit lim (.xe q) 32).2))) s = s := List.foldl_fixed' arms _
  have engines : (List.range 16).foldl (fun s e => (s.startUnit lim (.me e) 32).1.deferred (s.startUnit lim (.me e) 32).2) s = s :=
    List.foldl_fixed' (fun e => unit (.me e)) _
  unfold engineStarts
  dsimp only
  rw [copies, exchanges, unit .walker, unit .chain, engines, State.dispatchRound_idle idle]
  rfl

theorem State.chainPost_idle : s.chainPost = s := by
  have due : s.chainPostDue = none := by
    unfold chainPostDue
    rw [idle]
    rfl
  unfold chainPost
  rw [due]

end

theorem State.tickTimeouts_frame (s : State) : s.tickTimeouts.regs = s.regs ∧ s.tickTimeouts.mem = s.mem ∧
    s.tickTimeouts.stream = s.stream := by
  have ticks (l : List Nat) (t : State) : ((l.foldl (fun s q => s.timeoutX q fun _ => true) t).regs = t.regs ∧
      (l.foldl (fun s q => s.timeoutX q fun _ => true) t).mem = t.mem ∧
      (l.foldl (fun s q => s.timeoutX q fun _ => true) t).stream = t.stream) := by
    induction l generalizing t with
    | nil => exact ⟨rfl, rfl, rfl⟩
    | cons q l ih => exact ih _
  exact ticks _ _

/-! ### Cycles of the single modes -/

section
variable {s : State} {n : Nat}

/-- A cycle in which a trap is delivered goes no further. -/
theorem State.afterIssue_trapping {u : State} (mode : u.stream.mode = .trapping n) (counted : u.stream.ask.counted = false) :
    s.afterIssue u = u.passTime true true := by
  have stands : u.turnover = u := by
    unfold turnover
    dsimp only
    rw [if_pos (.inl counted), counted, if_neg Bool.false_ne_true]
  have stops : (u.passTime true true).stopsHere = u.passTime true true := by
    unfold stopsHere
    rw [(u.passTime_frame true true).2.2.2.2, mode]
  have still : (u.stream.mode.lives || decide (u.stream.mode = .fatal)) = false := by
    rw [mode]
    rfl
  unfold State.afterIssue
  dsimp only
  rw [still, if_neg Bool.false_ne_true, counted, if_neg Bool.false_ne_true, stands, stops]

theorem State.cycle_trapping (freeze : s.eng.freeze = 0) (mode : s.stream.mode = .trapping n) :
    s.cycle = .next { s.passTime true true with stream.mode := if n ≤ 1 then .running else .trapping (n - 1) } := by
  unfold State.cycle
  rw [State.not_frozen freeze, if_neg Bool.false_ne_true]
  dsimp only
  rw [mode]

theorem State.cycle_returning (freeze : s.eng.freeze = 0) (mode : s.stream.mode = .returning n) :
    s.cycle = .next (if n ≤ 1 then ((s.landDue true []).passTime true true).endReturn.releaseChain.dueStop
      else { (s.landDue true []).passTime true true with stream.mode := .returning (n - 1) }) := by
  unfold State.cycle
  rw [State.not_frozen freeze, if_neg Bool.false_ne_true]
  dsimp only
  rw [mode]

/-- A cycle of a die at rest in an image stop: its shared-SRAM accesses, and nothing else. -/
theorem State.cycle_imageStop {k c : Nat} (rest : s.AtRest) (mode : s.stream.mode = .imageStop k c) {t : State} {rs : List Result}
    (acts : s.sramCycle = (t, rs)) (idle : (t.landAll rs).eng = Engines.clear) (ask : (t.landAll rs).stream.ask = Ask.none) :
    s.cycle = .next ((t.landAll rs).tickTimeouts.passTime true true) := by
  obtain ⟨clear, none, -⟩ := rest
  have freeze : s.eng.freeze = 0 := by rw [clear]; rfl
  have late : (t.landAll rs).lateActs = t.landAll rs := by
    unfold State.lateActs
    rw [show (t.landAll rs).stream.ask.late = [] by rw [ask]; rfl]
    dsimp only [List.foldl_nil]
    rw [ask]
    rfl
  unfold State.cycle
  rw [State.not_frozen freeze, if_neg Bool.false_ne_true]
  dsimp only
  rw [mode]
  dsimp only
  unfold State.background
  dsimp only
  rw [State.engineStarts_idle clear, acts, none]
  show Host.Outcome.next ((if (t.landAll rs).lateActs.stream.retries = _ then (t.landAll rs).lateActs.chainPost
    else (t.landAll rs).lateActs).tickTimeouts.passTime true true) = _
  rw [late, State.chainPost_idle idle, ite_self]

theorem State.dueStop_stays (h : s.stream.stopDue = false) : s.dueStop = s := by
  unfold dueStop
  rw [h]
  rfl

theorem State.dueStop_stops (h : s.stream.stopDue = true) (mode : s.stream.mode = .running) (out : s.ctl.inHandler = false) :
    s.dueStop = s.stopImage 1 s.stream.pc := by
  unfold dueStop
  rw [h, mode, out]
  rfl

theorem State.stopImage_frame (s : State) (kind : Nat) (next : W64) : (s.stopImage kind next).regs = s.regs ∧
    (s.stopImage kind next).ctl = { s.ctl with lnwrc := s.ctl.lnwrc + 1 } ∧
    (s.stopImage kind next).stream = { s.stream with
      pc := if kind = 1 ∧ s.ctl.drrem ≠ 0 then s.ctl.drentry else next, mode := .imageStop kind s.now, bubbles := 0,
      draining := none, stopDue := false } := ⟨rfl, rfl, rfl⟩

theorem State.releaseChain_frame (s : State) : s.releaseChain.regs = s.regs ∧ s.releaseChain.ctl = s.ctl ∧
    s.releaseChain.stream = s.stream := by
  unfold releaseChain
  split
  · exact ⟨rfl, rfl, rfl⟩
  · exact ⟨rfl, rfl, rfl⟩

end

/-- What the time-outs and the end of a cycle leave. -/
theorem State.rested (s : State) : (s.tickTimeouts.passTime true true).mem.loc = s.mem.loc ∧
    (s.tickTimeouts.passTime true true).stream = { s.stream with ask := Ask.none, tileNow := [] } ∧
    (s.tickTimeouts.passTime true true).regs = s.regs := by
  obtain ⟨regs, mem, stream⟩ := s.tickTimeouts_frame
  obtain ⟨pregs, -, ploc, -, pstream⟩ := s.tickTimeouts.passTime_frame true true
  exact ⟨ploc.trans (congrArg Mem.loc mem), pstream.trans (by rw [stream]), pregs.trans regs⟩

/-- Settles O37: each event is one cycle, and what that cycle does in the mode it stands in. -/
theorem clockEvents : Obligations.ClockEvents := by
  unfold Obligations.ClockEvents
  intro s
  refine ⟨?freeze, ?deliver, ?trap, ?ret, ?refillTrap, ?refillRun, ?refill, ?lands, ?access, ?loads, ?long⟩
  case freeze =>
    intro freeze goes
    have frozen : s.frozen = true := by rw [State.frozen, freeze, goes]; rfl
    obtain ⟨regs, -, loc, eng, stream⟩ := ({ s with eng.freeze := s.eng.freeze - 1 } : State).passTime_frame
      s.stream.mode.launched s.stream.mode.launched
    refine ⟨_, (State.cycleIf_true (by rw [frozen, freeze]; rfl)).trans (if_pos frozen), ?_, regs, loc, ?_, ?_, ?_⟩
    · rw [eng, freeze]
    · rw [stream]
    · rw [stream]
    · rw [stream]
  case deliver =>
    intro p freeze mode ask vec out pend
    obtain ⟨stream, ⟨b, ctl⟩, regs⟩ := s.endWait_frame
    have due : s.duePending = some p := by
      unfold State.duePending
      rw [out, if_neg Bool.false_ne_true, pend]
    have taken : s.endWait.takePending p = s.endWait.deliver p.cause p.info p.addr s.endWait.stream.pc 23 := by
      unfold State.takePending
      rw [ctl, if_neg vec]
    have issue : s.issue = .next (s.endWait.deliver p.cause p.info p.addr s.endWait.stream.pc 23) := by
      unfold State.issue
      rw [due, ← taken]
    have cycle := State.cycle_running freeze mode issue
    rw [State.afterIssue_trapping (n := 23) rfl (by
      show s.endWait.stream.ask.counted = false
      rw [stream, ask]
      rfl)] at cycle
    obtain ⟨pregs, -, -, -, pstream⟩ := (s.endWait.deliver p.cause p.info p.addr s.endWait.stream.pc 23).passTime_frame true true
    obtain ⟨_, _, _, _, _, pctl⟩ := (s.endWait.deliver p.cause p.info p.addr s.endWait.stream.pc 23).passTime_ctl true true
    refine ⟨_, (State.cycleIf_true (by simp [freeze, mode, due])).trans cycle, ?_, ?_, ?_, ?_, ?_, ?_, ?_, ?_, ?_⟩
    · rw [pstream]
      rfl
    · rw [pstream]
      exact (congrArg Ctl.trapvec ctl :)
    · rw [pctl]
      rfl
    · rw [pctl]
      rfl
    · rw [pctl]
      rfl
    · rw [pctl]
      exact (congrArg Stream.pc stream :)
    · rw [pctl]
      rfl
    · rw [pctl]
      intro q hq
      exact of_decide_eq_true (List.mem_filter.1 hq).2
    · exact pregs.trans regs
  case trap =>
    intro freeze mode
    obtain ⟨regs, -, -, -, stream⟩ := s.passTime_frame true true
    refine ⟨_, (State.cycleIf_true (by simp [freeze, mode])).trans (State.cycle_trapping freeze mode), rfl, ?_, regs⟩
    exact (congrArg Stream.pc stream :)
  case ret =>
    intro a freeze mode save results
    have landed : s.landDue true [] = { s with stream.results := [] } := by
      unfold State.landDue
      rw [results]
      rfl
    obtain ⟨regs, -, -, -, stream⟩ := (s.landDue true []).passTime_frame true true
    obtain ⟨_, _, _, _, _, ctl⟩ := (s.landDue true []).passTime_ctl true true
    have saved : ((s.landDue true []).passTime true true).stream.save = some a := by rw [stream, landed]; exact save
    obtain ⟨rregs, rctl, rstream⟩ := ((s.landDue true []).passTime true true).endReturn.releaseChain_frame
    have cycle := (State.cycle_returning freeze mode).trans (congrArg Host.Outcome.next (if_pos (Nat.le_refl 1)))
    have back : exec .returnCyclesEnd s = _ := (State.cycleIf_true (by simp [freeze, mode])).trans cycle
    generalize ((s.landDue true []).passTime true true).endReturn.releaseChain = y at rregs rctl rstream back
    rw [State.endReturn_some saved] at rregs rctl rstream
    rw [stream, ctl, landed] at rstream
    rw [ctl, landed] at rctl
    have stopDue : y.stream.stopDue = s.stream.stopDue := by rw [rstream]
    have yregs : y.regs = s.regs := by
      rw [rregs]
      dsimp only
      rw [regs, landed]
    cases stop : s.stream.stopDue
    case false =>
      rw [State.dueStop_stays (stopDue.trans stop)] at back
      refine ⟨y, back, fun _ => ?_, nofun, fun _ => ?_, ?_, ?_, ?_, ?_, ?_, yregs⟩
      · rw [rstream]
      · rw [rstream]
      · rw [rctl]
      · rw [rstream]
      · rw [rstream]
      · rw [rctl]
      · rw [rctl]
    case true =>
      rw [State.dueStop_stops (stopDue.trans stop) (by rw [rstream]) (by rw [rctl])] at back
      obtain ⟨sregs, sctl, sstream⟩ := y.stopImage_frame 1 y.stream.pc
      refine ⟨_, back, nofun, fun _ _ => ⟨y.now, ?_⟩, fun h => ?_, ?_, ?_, ?_, ?_, ?_, sregs.trans yregs⟩
      · rw [sstream]
      · have rem : ¬ ((1 : Nat) = 1 ∧ y.ctl.drrem ≠ 0) := fun e => e.2 (by rw [rctl]; exact h.resolve_left nofun)
        rw [sstream]
        dsimp only
        rw [if_neg rem, rstream]
      · rw [sctl, rctl]
      · rw [sstream, rstream]
      · rw [sstream, rstream]
      · rw [sctl, rctl]
      · rw [sctl, rctl]
  case refillTrap =>
    intro n freeze mode clk given cool rsv
    obtain ⟨zero, -, -, raised⟩ := State.passTime_refills (c := true) clk given cool rsv
    exact ⟨_, (State.cycleIf_true (by simp [State.powered, mode, clk, Mode.launched])).trans (State.cycle_trapping freeze mode), zero, raised⟩
  case refillRun =>
    intro u freeze mode clk issue
    exact (State.cycleIf_true (by simp [State.powered, mode, clk, Mode.launched])).trans (State.cycle_running freeze mode issue)
  case refill =>
    intro c clk given cool rsv
    exact State.passTime_refills clk given cool rsv
  case lands =>
    intro n freeze mode due
    obtain ⟨regs, -, -, -, stream⟩ := (s.landDue true []).passTime_frame true true
    refine ⟨_, (State.cycleIf_true (by simp [freeze, due])).trans ((State.cycle_returning freeze mode).trans
      (congrArg Host.Outcome.next (if_neg (by omega)))), rfl, regs, ?_⟩
    exact (congrArg Stream.results stream :)
  case access =>
    intro o k c rest mode sram fresh due
    have lives : s.counts = true := by simp [State.counts, rest.1, mode, Mode.lives, Engines.clear]
    have event : exec .sramAccessPerformed s = s.cycle := State.cycleIf_true (by simp [lives, sram, fresh, due])
    refine ⟨fun kind => ?_, fun kind later => ?_⟩
    · have cycle := State.cycle_imageStop rest mode (State.sramCycle_gone sram (State.performSram_store fresh due kind)) rest.1 rest.2.1
      obtain ⟨loc, stream, regs⟩ := State.rested ({ s.store o.addr o.bytes with stream.sram := [] } : State)
      exact ⟨_, event.trans cycle, loc, (congrArg Stream.sram stream :), regs⟩
    · have cycle := State.cycle_imageStop rest mode
        (State.sramCycle_stays sram (State.performSram_load fresh due kind) (.inr later)) rest.1 rest.2.1
      obtain ⟨loc, stream, regs⟩ := State.rested ({ s with stream.sram := [{ o with
        performed := true, bytes := s.load o.addr o.size, performIn := o.performIn - 1, landIn := o.landIn - 1 }] } : State)
      refine ⟨_, event.trans cycle, loc, regs, (congrArg Stream.sram stream).trans ?_⟩
      dsimp only
      rw [due, State.load, rest.2.2.1, oldBytes_nil]
  case loads =>
    intro o k c d rest mode sram done due kind dest
    have lives : s.counts = true := by simp [State.counts, rest.1, mode, Mode.lives, Engines.clear]
    have lands : o.landsNow = true := by simp [SramOp.landsNow, done, due, kind]
    have event : exec .sramLoadLands s = s.cycle := State.cycleIf_true (by simp [lives, sram, lands])
    have landed : ({ s with stream.sram := [] } : State).landAll [o.result] =
        ({ s with regs := s.regs.ws d (BitVec.ofNat 64 (leNat o.bytes)), stream.sram := [] } : State).orFlags 0 0 := by
      show (({ s with stream.sram := [] } : State).land o.seq (o.dest.landing o.bytes)).orFlags 0 0 = _
      rw [dest]
      rfl
    have cycle := State.cycle_imageStop rest mode (State.sramCycle_lands sram (State.performSram_waits (.inl done)) lands)
      (by rw [landed]; exact rest.1) (by rw [landed]; exact rest.2.1)
    rw [landed] at cycle
    obtain ⟨loc, stream, regs⟩ := State.rested
      (({ s with regs := s.regs.ws d (BitVec.ofNat 64 (leNat o.bytes)), stream.sram := [] } : State).orFlags 0 0)
    exact ⟨_, event.trans cycle, (congrArg Stream.sram stream :), regs, loc⟩
  case long =>
    intro freeze mode due bubbles bounds bundle slots held wait calm reach
    have stalled : s.stalled = true := by
      unfold State.stalledWait at wait
      obtain ⟨x, mem, holds⟩ := List.any_eq_true.1 wait
      exact List.any_eq_true.2 ⟨x, mem, (Bool.and_eq_true_iff.1 holds).2⟩
    have checked : s.issueChecked s.bundleWords = .next (({ s with stream.held := true } : State).moreWait) := by
      unfold State.issueChecked
      dsimp only
      rw [stalled, if_pos rfl, if_pos (show ({ s with stream.held := true } : State).stalledWait = true from wait)]
    have issue := (State.issue_checked due bubbles bounds bundle slots).trans checked
    have more : ({ s with stream.held := true } : State).moreWait = _ := if_pos ⟨reach, calm⟩
    obtain ⟨stream, ctl, regs, -, loc⟩ := State.emit_frame
      ({ s with stream := { s.stream with held := true, waited := s.stream.waited + 1 }, ctl.lwstat := true } : State)
      s.pkg.residentTenant (({ s with stream := { s.stream with held := true, waited := s.stream.waited + 1 } } : State).dieEvent 0x0003 1 0 0 0 0 0)
    refine ⟨_, (State.cycleIf_true ?_).trans (State.cycle_running freeze mode issue), ?_⟩
    · simp [State.mayIssue, freeze, mode, due, bubbles, held, wait, calm, reach]
    · rw [more]
      exact ⟨(congrArg Ctl.lwstat ctl :), (congrArg Stream.held stream :), (congrArg Stream.waited stream :), regs, (congrArg Stream.pc stream :), loc⟩

end Sys2Proof.Machine
end

section
/-! Storage errors and fatal traps (R51 to R55, R348). -/

namespace Sys2Proof.Machine

theorem State.emit_dram (s : State) (t : Nat) (e : Event) : (s.emit t e).mem.dram = s.mem.dram := by
  unfold emit
  dsimp only
  split
  · rfl
  · rfl

theorem State.dump_dram (s : State) (k : Nat) (c : Byte) (l : Nat) : (s.dump k c l).mem = s.mem := by
  unfold dump
  dsimp only
  split
  · rfl
  · rfl

/-- A fatal trap changes of the control registers the cause, its information and its address, and no byte of DRAM. -/
theorem State.fatalTrap_frame (s : State) (cause : Byte) (info addr : W64) :
    (s.fatalTrap cause info addr).ctl = { s.ctl with tcause := cause, tinfo := info, taddr := addr } ∧
      (s.fatalTrap cause info addr).mem.dram = s.mem.dram := by
  unfold fatalTrap
  dsimp only
  split
  · exact ⟨(State.emit_frame _ _ _).2.1, State.emit_dram _ _ _⟩
  · exact ⟨(State.dump_frame _ _ _ _).2.1, congrArg Mem.dram (State.dump_dram _ _ _ _)⟩

theorem errorUnit_toNat (arr : BitVec 4) (unit : BitVec 6) (addr : W64) : (errorUnit arr unit addr).toNat =
    if arr = 0 then addr.toNat / 2 ^ 12 % 64
    else if arr = 1 then 8 * ((addr.toNat - 0x10000000) / 2 ^ 25 % 4) + (addr.toNat - 0x10000000) / 2 ^ 9 % 8
    else if arr = 6 then addr.toNat / 2 ^ 8 % 32 else unit.toNat := by
  unfold errorUnit
  split
  next h =>
    rw [if_pos (BitVec.eq_of_toNat_eq h)]
    exact Nat.mod_eq_of_lt (Nat.mod_lt _ (by decide))
  next h =>
    obtain rfl : arr = 1 := BitVec.eq_of_toNat_eq h
    rw [if_neg (by decide), if_pos rfl, BitVec.toNat_ofNat, bankOf]
    omega
  next h =>
    obtain rfl : arr = 6 := BitVec.eq_of_toNat_eq h
    rw [if_neg (by decide), if_neg (by decide), if_pos rfl, BitVec.toNat_ofNat, channelOf]
    omega
  next h0 h1 h6 =>
    rw [if_neg (h0 ∘ congrArg BitVec.toNat), if_neg (h1 ∘ congrArg BitVec.toNat), if_neg (h6 ∘ congrArg BitVec.toNat)]

theorem ceInfo_toNat (arr : BitVec 4) (unit : BitVec 6) (bad scrub : Bool) : (ceInfo arr unit bad scrub).toNat =
    arr.toNat + ((if bad then 16 else 0) + if scrub then 32 else 0) + 64 * unit.toNat := by
  have := arr.isLt
  have := unit.isLt
  rw [ceInfo, BitVec.toNat_ofNat]
  split <;> split <;> omega

theorem satAdd32_toNat (x : W32) (n : Nat) : (satAdd32 x n).toNat = min (x.toNat + n) (2 ^ 32 - 1) := by
  rw [satAdd32, BitVec.toNat_ofNat]
  omega

theorem State.trapsFatally_iff {s : State} :
    s.trapsFatally = true ↔ s.stream.mode ≠ .fatal ∨ ∃ d ∈ s.pkg.dumps, d.img.complete = false := by
  simp only [trapsFatally, Bool.or_eq_true, decide_eq_true_eq, List.any_eq_true, Bool.not_eq_true']

theorem State.stopsHere_stays {s : State} (fatal : s.stream.mode ≠ .fatal) (sdump : s.stream.mode ≠ .sdump) : s.stopsHere = s := by
  unfold stopsHere
  split
  next h => exact absurd h fatal
  next h => exact absurd h sdump
  next => rfl

theorem State.accesses_of {s : State} (freeze : s.eng.freeze = 0 ∨ s.eng.freeze = 16) (scan : s.stream.mode ≠ .scanStop)
    (sdump : s.stream.mode ≠ .sdump) (fatal : s.stream.mode ≠ .fatal) : s.accesses = true := by
  unfold accesses
  rw [Bool.and_eq_true]
  refine ⟨by simpa using freeze, ?_⟩
  split
  next h => exact absurd h scan
  next h => exact absurd h sdump
  next h => exact absurd h fatal
  next => rfl

/-- Settles O38: each error event is what it records, then the freeze or the fatal trap. -/
theorem storageErrors : Obligations.StorageErrors := by
  unfold Obligations.StorageErrors
  intro s arr unit addr n scrub at_ traps found records counts
  have info (bad sc : Bool) : (ceInfo arr (errorUnit arr unit addr) bad sc).toNat =
      arr.toNat + ((if bad then 16 else 0) + if sc then 32 else 0) + 64 * at_ := by
    rw [ceInfo_toNat, errorUnit_toNat]
  have recorded (bad sc : Bool) (t : State) (more : Nat) (hm : ((if bad then 16 else 0) + if sc then 32 else 0) = more)
      (ceinfo : t.ctl.ceinfo = ceInfo arr (errorUnit arr unit addr) bad sc) (ceaddr : t.ctl.ceaddr = addr) (regs : t.regs = s.regs)
      (tiles : t.tiles = s.tiles) (loc : t.mem.loc = s.mem.loc) (dram : t.mem.dram = s.mem.dram) : records t more :=
    ⟨by rw [ceinfo, info, hm], ceaddr, regs, tiles, loc, dram⟩
  refine ⟨fun arr6 words freeze scan sdump fatal => ?_, fun arrs words => ?_, fun arr6 trap => ?_, fun arr6 calm => ?_, fun c hc trap => ?_⟩
  · let t : State := { ((found false).countErrors n).recordError arr unit addr false false with eng.freeze := 16 }
    have accesses : (found false).accesses = true := State.accesses_of freeze scan sdump fatal
    have stays : t.stopsHere = t := State.stopsHere_stays fatal sdump
    refine ⟨t, (if_pos ⟨arr6, words, accesses⟩).trans (congrArg _ stays), recorded false false t 0 rfl rfl rfl rfl rfl rfl rfl,
      satAdd32_toNat _ _, rfl, rfl⟩
  · exact ⟨_, if_pos ⟨arrs, words⟩, recorded false true _ 32 rfl rfl rfl rfl rfl rfl rfl, satAdd32_toNat _ _, rfl, rfl⟩
  · let e : State := (found scrub).recordError arr unit addr true scrub
    have trapped : e.trapsFatally = true := State.trapsFatally_iff.2 trap
    obtain ⟨mode, cause, -, at_, regs, tiles, loc⟩ := e.fatalTrap_fatal 0x20 (e.ctl.ceinfo.zeroExtend 64) addr
    obtain ⟨ctl, dram⟩ := e.fatalTrap_frame 0x20 (e.ctl.ceinfo.zeroExtend 64) addr
    exact ⟨_, (if_pos arr6).trans (congrArg _ (if_pos trapped)), recorded true scrub _ _ rfl (congrArg Ctl.ceinfo ctl :)
      (congrArg Ctl.ceaddr ctl :) regs tiles loc dram, mode, cause, at_⟩
  · let e : State := (found scrub).recordError arr unit addr true scrub
    have free : ¬ e.trapsFatally = true := calm ∘ State.trapsFatally_iff.1
    exact ⟨e, (if_pos arr6).trans (congrArg _ (if_neg free)), recorded true scrub e _ rfl rfl rfl rfl rfl rfl rfl, rfl, rfl⟩
  · let e : State := { s with arg := .nat c }
    have trapped : e.trapsFatally = true := State.trapsFatally_iff.2 trap
    have small : (BitVec.ofNat 8 c).toNat = c := by rcases hc with rfl | rfl <;> rfl
    let info : W64 := if c = 0x20 then e.ctl.ceinfo.zeroExtend 64 else e.ctl.tcause.zeroExtend 64
    let at_ : W64 := if c = 0x20 then e.ctl.ceaddr else e.ctl.taddr
    obtain ⟨mode, cause, -, -, regs, tiles, loc⟩ := e.fatalTrap_fatal (BitVec.ofNat 8 c) info at_
    exact ⟨_, if_pos ⟨hc, trapped⟩, mode, (congrArg BitVec.toNat cause).trans small, regs, loc, (e.fatalTrap_frame _ _ _).2⟩

end Sys2Proof.Machine
end

section
/-! The pager's answers (R23, R103 to R107). -/

namespace Sys2Proof.Machine

/-! ### The entry that an answer changes -/

/-- An entry with another STATE, and with a FRAME where one is given: every other field stays. -/
theorem setState_fields {e : WEntry} {st : Nat} (frame : Option Nat) (hst : st < 4) (kind : wKind e = 4)
    (hf : ∀ f, frame = some f → f < 2 ^ 36 ∧ f % 2 ^ 21 = 0) :
    wV (setState e st frame) = wV e ∧ wKind (setState e st frame) = wKind e ∧ wBase (setState e st frame) = wBase e ∧
      wSize (setState e st frame) = wSize e ∧ wRegion (setState e st frame) = wRegion e ∧ wState (setState e st frame) = st ∧
      wOff (setState e st frame) = frame.getD (wOff e) := by
  obtain ⟨a, b⟩ := e
  have ha := a.isLt
  have hb := b.isLt
  have first : (setState (a, b) st frame).1.toNat = a.toNat - a.toNat / 2 ^ 14 % 4 * 2 ^ 14 + st * 2 ^ 14 := by
    show (BitVec.ofNat 64 _).toNat = _
    rw [BitVec.toNat_ofNat]
    exact Nat.mod_eq_of_lt (by unfold wState; omega)
  have low : (setState (a, b) st frame).1.toNat % 2 ^ 14 = a.toNat % 2 ^ 14 := by rw [first]; omega
  have mid : (setState (a, b) st frame).1.toNat / 2 ^ 14 % 4 = st := by rw [first]; omega
  have high : (setState (a, b) st frame).1.toNat / 2 ^ 16 = a.toNat / 2 ^ 16 := by rw [first]; omega
  have off {x : WEntry} (h : wKind x = 4) : wOff x = x.2.toNat / 2 ^ 21 % 2 ^ 15 * 2 ^ 21 := by
    unfold wOff
    rw [h]
    rfl
  have second : (setState (a, b) st frame).2.toNat / 2 ^ 36 = b.toNat / 2 ^ 36 ∧
      (setState (a, b) st frame).2.toNat / 2 ^ 21 % 2 ^ 15 * 2 ^ 21 = frame.getD (b.toNat / 2 ^ 21 % 2 ^ 15 * 2 ^ 21) := by
    cases frame with
    | none => exact ⟨rfl, rfl⟩
    | some f =>
      obtain ⟨lt, aligned⟩ := hf f rfl
      have eq : (setState (a, b) st (some f)).2.toNat = b.toNat - b.toNat / 2 ^ 21 % 2 ^ 15 * 2 ^ 21 + f := by
        show (BitVec.ofNat 64 _).toNat = _
        rw [BitVec.toNat_ofNat, off kind]
        exact Nat.mod_eq_of_lt (by dsimp only; omega)
      rw [eq]
      exact ⟨by omega, by dsimp only [Option.getD_some]; omega⟩
  generalize setState (a, b) st frame = x at low mid high second
  have kind' : wKind x = 4 := by
    unfold wKind at kind ⊢
    dsimp only at kind
    omega
  have above {n m k j : Nat} (h : n / 2 ^ k = m / 2 ^ k) : n / 2 ^ (k + j) = m / 2 ^ (k + j) := by
    rw [pow_add, ← Nat.div_div_eq_div_mul, h, Nat.div_div_eq_div_mul]
  refine ⟨?_, kind'.trans kind.symm, ?_, ?_, ?_, mid, ?_⟩
  · simp only [wV, BitVec.getLsbD, Nat.testBit_eq_decide_div_mod_eq, high]
  · exact congrArg (· % 2 ^ 27 * 2 ^ 21) (above (j := 5) high)
  · exact congrArg (fun n => 2 ^ (n % 16 + 21)) (above (j := 1) high)
  · exact congrArg (· % 128) (above (j := 20) second.1)
  · rw [off kind', off kind, second.2]

/-! ### Where an answer acts -/

section
variable {s : State} {t : Nat} {j : Job} {coord : BitVec 13}

theorem State.tenant_setTenant {x : Tenant} (ht : t < 16) : (s.setTenant t x).pkg.tenant t = x := vget_vset_same ht

theorem State.answerable_here (res : s.pkg.residentJob = some j) (own : j.tenant = t) (here : coord = s.ctl.diecoord)
    (cube : coord &&& ~~~j.scmask = j.scbase) : s.answerable t coord = some .here := by
  subst here
  unfold answerable
  dsimp only
  rw [res]
  simp [own, cube]

theorem State.answerable_none (res : s.pkg.residentJob = some j)
    (no : ∀ y ∈ s.pkg.jobs, y.tenant = t → coord &&& ~~~y.scmask ≠ y.scbase) : s.answerable t coord = none := by
  have has : ∀ y ∈ s.pkg.jobs, (decide (y.tenant = t) && (coord &&& ~~~y.scmask == y.scbase)) = false := by
    intro y hy
    rw [Bool.and_eq_false_iff, decide_eq_false_iff_not, beq_eq_false_iff_ne]
    exact (em (y.tenant = t)).elim (fun own => .inr (no y hy own)) .inl
  have mem : j ∈ s.pkg.jobs := List.mem_of_find?_eq_some res
  unfold answerable
  dsimp only
  rw [res, Option.isNone_some, Bool.false_and, Bool.false_and, Bool.false_or, Option.any_some, has j mem, if_neg Bool.false_ne_true,
    List.find?_eq_none.2 (fun y hy => by rw [has y hy, Bool.and_false]; exact Bool.false_ne_true)]
  dsimp only
  rw [if_neg]
  rw [Bool.not_eq_true, List.any_eq_false]
  intro y hy
  rw [has y hy, Bool.and_false]
  exact Bool.false_ne_true

/-! ### Answers rejected and accepted -/

/-- What a rejected answer leaves. -/
def State.Rejected (s : State) (t : Nat) (v0 v1 : W64) (u : State) : Prop :=
  u.mem = s.mem ∧ u.eng = s.eng ∧ u.regs = s.regs ∧ u.pkg.tenant t = { s.pkg.tenant t with
    pgans0 := v0, pgans1 := v1, pgres := BitVec.ofNat 32 (1 + min ((s.pkg.tenant t).pgres.toNat / 256 + 1) (2 ^ 24 - 1) * 256) }

/-- The state in which an answer's words have been written. -/
def State.answerWords (s : State) (t : Nat) (v0 v1 : W64) : State :=
  s.setTenant t { s.pkg.tenant t with pgans0 := v0, pgans1 := v1 }

theorem State.rejectAnswer_rejected {v0 v1 : W64} (ht : t < 16) : s.Rejected t v0 v1 ((s.answerWords t v0 v1).rejectAnswer t) := by
  refine ⟨rfl, rfl, rfl, ?_⟩
  unfold rejectAnswer
  dsimp only
  rw [State.tenant_setTenant ht, answerWords, State.tenant_setTenant ht]

/-- The entry that word 0 names, and what makes an answer bad on the table of this die (R103). -/
def State.answerBad (s : State) (t : Nat) (v0 v1 : W64) : Bool :=
  let opw := v0.toNat / 2 ^ 24 % 256
  let e := vget s.mem.wtab (v0.toNat / 2 ^ 13 % 2 ^ 11) (0, 0)
  let frame := v1.toNat / 2 ^ 21 % 2 ^ 15 * 2 ^ 21
  !(decide (1 ≤ opw) && decide (opw ≤ 4)) || (s.pkg.tenant t).resetting || decide (v1.toNat ≠ (if opw = 1 then frame else 0)) ||
    !wV e || decide (wKind e ≠ 4) || !(s.pkg.tenant t).pagers.contains (wRegion e) ||
    (decide (opw = 1) && (decide (frame % wSize e ≠ 0) || !dramRangeOk frame (wSize e)))

theorem State.answer_taken {code op : Nat} (named : 1 ≤ code → code ≤ 4 → op = code) :
    ¬ (decide (1 ≤ code) && decide (code ≤ 4) && decide (code ≠ op)) = true := by
  simp only [Bool.and_eq_true, decide_eq_true_eq]
  rintro ⟨⟨one, four⟩, ne⟩
  exact ne (named one four).symm

theorem State.answerBad_iff {v0 v1 : W64} : s.answerBad t v0 v1 = true ↔
    let opw := v0.toNat / 2 ^ 24 % 256
    let e := vget s.mem.wtab (v0.toNat / 2 ^ 13 % 2 ^ 11) (0, 0)
    let frame := v1.toNat / 2 ^ 21 % 2 ^ 15 * 2 ^ 21
    ¬ (1 ≤ opw ∧ opw ≤ 4) ∨ (s.pkg.tenant t).resetting = true ∨ v1.toNat ≠ (if opw = 1 then frame else 0) ∨ wV e = false ∨
      wKind e ≠ 4 ∨ (s.pkg.tenant t).pagers.contains (wRegion e) = false ∨
      (opw = 1 ∧ (frame % wSize e ≠ 0 ∨ dramRangeOk frame (wSize e) = false)) := by
  simp only [answerBad, Bool.or_eq_true, Bool.and_eq_true, Bool.not_eq_true', Bool.and_eq_false_iff, decide_eq_true_eq,
    decide_eq_false_iff_not, or_assoc, ← not_and_or]

section
variable {v0 v1 : W64} {op : Nat} (arg : s.arg = .pgans t v0 v1)
  (named : 1 ≤ v0.toNat / 2 ^ 24 % 256 → v0.toNat / 2 ^ 24 % 256 ≤ 4 → op = v0.toNat / 2 ^ 24 % 256)
include arg named

theorem State.pagerAnswer_unheld (unheld : s.answerable t (v0.truncate 13) = none) :
    s.pagerAnswer op = .next ((s.answerWords t v0 v1).rejectAnswer t) := by
  unfold pagerAnswer
  rw [arg]
  dsimp only
  rw [if_neg (State.answer_taken named), show (s.setTenant t _).answerable t _ = none from unheld]
  rfl

theorem State.pagerAnswer_here (here : s.answerable t (v0.truncate 13) = some .here) :
    s.pagerAnswer op = .next (if s.answerBad t v0 v1 then (s.answerWords t v0 v1).rejectAnswer t
      else
        let opw := v0.toNat / 2 ^ 24 % 256
        let entry := v0.toNat / 2 ^ 13 % 2 ^ 11
        let u := ((s.answerWords t v0 v1).acceptAnswer t).applyAnswer .here entry opw (v1.toNat / 2 ^ 21 % 2 ^ 15 * 2 ^ 21)
        if opw = 1 ∨ opw = 2 then u.releaseStalls entry (opw == 2) else u) := by
  unfold pagerAnswer
  rw [arg]
  dsimp only
  rw [if_neg (State.answer_taken named), show (s.setTenant t _).answerable t _ = some .here from here]
  dsimp only
  by_cases bad : s.answerBad t v0 v1 = true
  · rw [if_pos bad]
    exact if_pos bad
  · rw [if_neg bad]
    refine (if_neg bad).trans (congrArg Host.Outcome.next ?_)
    by_cases stalls : v0.toNat / 2 ^ 24 % 256 = 1 ∨ v0.toNat / 2 ^ 24 % 256 = 2
    · rw [if_pos stalls]
      exact if_pos ⟨rfl, stalls⟩
    · rw [if_neg stalls]
      exact if_neg fun h => stalls h.2

end

end

/-! ### What an accepted answer changes -/

/-- The entry after an accepted answer (R103). -/
def answerEntry (e : WEntry) (op frame : Nat) : WEntry :=
  if op = 1 then setState e 0 (some frame) else if op = 3 then setState e 2 none else if op = 4 then setState e 1 none else e

theorem answerEntry_fields {e : WEntry} {op frame : Nat} (kind : wKind e = 4) (one : 1 ≤ op) (four : op ≤ 4)
    (aligned : op = 1 → frame < 2 ^ 36 ∧ frame % 2 ^ 21 = 0) :
    let e' := answerEntry e op frame
    wV e' = wV e ∧ wKind e' = wKind e ∧ wBase e' = wBase e ∧ wSize e' = wSize e ∧ wRegion e' = wRegion e ∧
      wState e' = (if op = 1 then 0 else if op = 2 then wState e else if op = 3 then 2 else 1) ∧
      wOff e' = (if op = 1 then frame else wOff e) := by
  have free : ∀ f, (none : Option Nat) = some f → f < 2 ^ 36 ∧ f % 2 ^ 21 = 0 := nofun
  obtain supply | refuse | discard | reclaim : op = 1 ∨ op = 2 ∨ op = 3 ∨ op = 4 := by omega
  · subst supply
    exact setState_fields (some frame) (by decide) kind fun f hf => Option.some.inj hf ▸ aligned rfl
  · subst refuse
    exact ⟨rfl, rfl, rfl, rfl, rfl, rfl, rfl⟩
  · subst discard
    exact setState_fields none (by decide) kind free
  · subst reclaim
    exact setState_fields none (by decide) kind free

theorem State.applyAnswer_here {s : State} {j : Job} {entry op frame : Nat} (res : s.pkg.residentJob = some j) :
    ∃ js, s.applyAnswer .here entry op frame = { s with
      mem.wtab := vset s.mem.wtab entry (answerEntry (vget s.mem.wtab entry (0, 0)) op frame), pkg.jobs := js } := by
  unfold applyAnswer
  dsimp only
  rw [res]
  exact ⟨_, rfl⟩

/-- A copy stalled on an entry goes on, or ends when its page is refused. -/
def CopyCmd.released (entry : Nat) (refuse : Bool) (c : CopyCmd) : CopyCmd :=
  if c.stalled && decide (c.stallAt = entry) && c.status.isNone then
    (if refuse then { c with status := some 0x11 } else { c with stalled := false })
  else c

/-- One queue's part of the release. -/
def State.releaseQueue (entry : Nat) (refuse : Bool) (s : State) (i : Nat) : State :=
  { s with eng.copy := vset s.eng.copy i ((s.copyQueue i).map (CopyCmd.released entry refuse)) }

theorem State.releaseQueue_copyQueue {s : State} {entry : Nat} {refuse : Bool} {i k : Nat} (hi : i < 4) :
    (s.releaseQueue entry refuse i).copyQueue k =
      if k = i then (s.copyQueue k).map (CopyCmd.released entry refuse) else s.copyQueue k := by
  refine (vget_vset hi).trans ?_
  split
  next h => rw [h]
  next => rfl

theorem State.foldl_releaseQueue {entry : Nat} {refuse : Bool} {l : List Nat} (nodup : l.Nodup) (small : ∀ i ∈ l, i < 4) (s : State) :
    (l.foldl (State.releaseQueue entry refuse) s).regs = s.regs ∧ (l.foldl (State.releaseQueue entry refuse) s).mem = s.mem ∧
      (l.foldl (State.releaseQueue entry refuse) s).pkg = s.pkg ∧ ∀ k, (l.foldl (State.releaseQueue entry refuse) s).copyQueue k =
        if k ∈ l then (s.copyQueue k).map (CopyCmd.released entry refuse) else s.copyQueue k := by
  induction l generalizing s with
  | nil => exact ⟨rfl, rfl, rfl, fun _ => (if_neg List.not_mem_nil).symm⟩
  | cons i l ih =>
    obtain ⟨regs, mem, pkg, queue⟩ := ih nodup.of_cons (fun k hk => small k (List.mem_cons_of_mem _ hk)) (s.releaseQueue entry refuse i)
    refine ⟨regs, mem, pkg, fun k => (queue k).trans ?_⟩
    rw [State.releaseQueue_copyQueue (small i (List.mem_cons_self ..))]
    by_cases own : k = i
    · subst own
      rw [if_neg nodup.notMem, if_pos rfl, if_pos (List.mem_cons_self ..)]
    · rw [if_neg own]
      simp only [List.mem_cons, own, false_or]

theorem State.releaseStalls_frame (s : State) (entry : Nat) (refuse : Bool) :
    (s.releaseStalls entry refuse).regs = s.regs ∧ (s.releaseStalls entry refuse).mem = s.mem ∧
      (s.releaseStalls entry refuse).pkg = s.pkg ∧
      ∀ i < 4, (s.releaseStalls entry refuse).copyQueue i = (s.copyQueue i).map (CopyCmd.released entry refuse) := by
  obtain ⟨regs, mem, pkg, queue⟩ := State.foldl_releaseQueue (entry := entry) (refuse := refuse) (l := List.range 4) List.nodup_range
    (fun i hi => List.mem_range.1 hi) s
  exact ⟨regs, mem, pkg, fun i hi => (queue i).trans (if_pos (List.mem_range.2 hi))⟩

/-- What follows an answer's effect on the table: SUPPLY and REFUSE reach the copies that are stalled. -/
theorem State.released_frame {op : Nat} (one : 1 ≤ op) (s : State) (entry : Nat) :
    let v := if op = 1 ∨ op = 2 then s.releaseStalls entry (op == 2) else s
    v.regs = s.regs ∧ v.mem = s.mem ∧ v.pkg = s.pkg ∧ ∀ i < 4, v.copyQueue i =
      if op ≤ 2 then (s.copyQueue i).map fun c =>
        if c.stalled = true ∧ c.stallAt = entry ∧ c.status = none then
          (if op = 2 then { c with status := some 0x11#8 } else { c with stalled := false }) else c
      else s.copyQueue i := by
  intro v
  by_cases stalls : op = 1 ∨ op = 2
  · have v_eq : v = s.releaseStalls entry (op == 2) := if_pos stalls
    obtain ⟨regs, mem, pkg, queue⟩ := s.releaseStalls_frame entry (op == 2)
    rw [v_eq]
    refine ⟨regs, mem, pkg, fun i hi => (queue i hi).trans ?_⟩
    rw [if_pos (by omega)]
    refine List.map_congr_left fun c _ => ?_
    simp only [CopyCmd.released, Bool.and_eq_true, decide_eq_true_eq, Option.isNone_iff_eq_none, beq_iff_eq, and_assoc]
    rfl
  · have v_eq : v = s := if_neg stalls
    rw [v_eq]
    exact ⟨rfl, rfl, rfl, fun i _ => (if_neg (by omega)).symm⟩

theorem State.tenant_acceptAnswer {s : State} {t : Nat} {v0 v1 : W64} (ht : t < 16) :
    ((s.answerWords t v0 v1).acceptAnswer t).pkg.tenant t = { s.pkg.tenant t with
      pgans0 := v0, pgans1 := v1, pgres := BitVec.ofNat 32 ((s.pkg.tenant t).pgres.toNat / 256 * 256) } := by
  unfold acceptAnswer
  dsimp only
  rw [State.tenant_setTenant ht, answerWords, State.tenant_setTenant ht]

/-- Settles O43: an answer acts on the table of the job on this die, or is rejected. -/
theorem pagerAnswers : Obligations.PagerAnswers := by
  unfold Obligations.PagerAnswers
  intro s t entry frame op j w0 w1 ht hentry one four res own cube hw0 e x given row rejects
  have exec_row (v : State) : exec row v = v.pagerAnswer op := by
    unfold row
    interval_cases op <;> rfl
  have coord : w0.truncate 13 = s.ctl.diecoord := by
    have := s.ctl.diecoord.isLt
    refine BitVec.eq_of_toNat_eq ?_
    rw [BitVec.truncate_eq_setWidth, BitVec.toNat_setWidth]
    omega
  have opw : w0.toNat / 2 ^ 24 % 256 = op := by
    have := s.ctl.diecoord.isLt
    omega
  have entryw : w0.toNat / 2 ^ 13 % 2 ^ 11 = entry := by
    have := s.ctl.diecoord.isLt
    omega
  have rejected {v0 v1 : W64} (h : ({ s with arg := .pgans t v0 v1 } : State).pagerAnswer op =
      .next ((({ s with arg := .pgans t v0 v1 } : State).answerWords t v0 v1).rejectAnswer t)) : rejects v0 v1 :=
    ⟨_, (exec_row _).trans h, State.rejectAnswer_rejected ht⟩
  have here {v0 v1 : W64} (h : v0.truncate 13 = s.ctl.diecoord) :
      ({ s with arg := .pgans t v0 v1 } : State).answerable t (v0.truncate 13) = some .here :=
    State.answerable_here (s := { s with arg := .pgans t v0 v1 }) res own h (h ▸ cube)
  have bad_of {v0 v1 : W64} (named : 1 ≤ v0.toNat / 2 ^ 24 % 256 → v0.toNat / 2 ^ 24 % 256 ≤ 4 → op = v0.toNat / 2 ^ 24 % 256)
      (at_ : v0.truncate 13 = s.ctl.diecoord) (bad : s.answerBad t v0 v1 = true) : rejects v0 v1 :=
    rejected ((State.pagerAnswer_here (s := { s with arg := .pgans t v0 v1 }) rfl named (here at_)).trans
      (congrArg Host.Outcome.next (if_pos bad)))
  refine ⟨?accepted, ?unfit, ?wrong, ⟨_, rfl, rfl, State.tenant_setTenant ht, rfl, rfl⟩⟩
  case accepted =>
    intro quiet used kind pager word1
    have word : w1.toNat / 2 ^ 21 % 2 ^ 15 * 2 ^ 21 = if op = 1 then frame else 0 := by
      split
      next supply =>
        rw [if_pos supply] at word1
        obtain ⟨value, -, lt, aligned, -⟩ := word1
        omega
      next other =>
        rw [if_neg other] at word1
        rw [word1]
        rfl
    have good : ¬ given.answerBad t w0 w1 = true := by
      rw [State.answerBad_iff]
      dsimp only
      rw [opw, entryw, word]
      rintro (h | h | h | h | h | h | ⟨supply, h⟩)
      · exact h ⟨one, four⟩
      · exact Bool.false_ne_true (quiet.symm.trans h)
      · refine h ?_
        split
        next supply => rw [if_pos supply] at word1; exact word1.1
        next other => rw [if_neg other] at word1; rw [word1]; rfl
      · exact Bool.false_ne_true (h.symm.trans used)
      · exact h kind
      · exact Bool.false_ne_true (h.symm.trans pager)
      · rw [if_pos supply] at word1
        rw [if_pos supply] at h
        exact h.elim (· word1.2.1) fun no => Bool.false_ne_true (no.symm.trans word1.2.2.2.2)
    obtain ⟨js, applied⟩ := State.applyAnswer_here (s := (given.answerWords t w0 w1).acceptAnswer t) (j := j) (entry := entry)
      (op := op) (frame := if op = 1 then frame else 0) res
    have taken := (exec_row given).trans ((State.pagerAnswer_here (s := given) rfl (fun _ _ => opw.symm) (here coord)).trans
      (congrArg Host.Outcome.next (if_neg good)))
    dsimp only at taken
    rw [opw, entryw, word, applied] at taken
    obtain ⟨regs, mem, pkg, queue⟩ := State.released_frame one ({ (given.answerWords t w0 w1).acceptAnswer t with
      mem.wtab := vset s.mem.wtab entry (answerEntry (vget s.mem.wtab entry (0, 0)) op (if op = 1 then frame else 0)),
      pkg.jobs := js } : State) entry
    have table : ∀ i, vget (vset s.mem.wtab entry (answerEntry e op (if op = 1 then frame else 0))) i (0, 0) =
        if i = entry then answerEntry e op (if op = 1 then frame else 0) else vget s.mem.wtab i (0, 0) := fun i => vget_vset hentry
    generalize hw : (if op = 1 ∨ op = 2 then _ else _) = w at taken
    have wtab := congrArg Mem.wtab ((congrArg State.mem hw).symm.trans mem)
    refine ⟨w, taken, ?_, ?_, fun i hi => (congrArg (fun v : State => v.copyQueue i) hw).symm.trans (queue i hi),
      (congrArg State.regs hw).symm.trans regs, (congrArg Mem.loc ((congrArg State.mem hw).symm.trans mem) :)⟩
    · exact (congrArg (fun p : Pkg => p.tenant t) ((congrArg State.pkg hw).symm.trans pkg)).trans
        (State.tenant_acceptAnswer (s := given) ht)
    · rw [show w.mem.wtab = vset s.mem.wtab entry (answerEntry e op (if op = 1 then frame else 0)) from wtab]
      refine ⟨fun i _ other => (table i).trans (if_neg other), ?_⟩
      rw [(table entry).trans (if_pos rfl)]
      obtain ⟨v, k, base, size, region, st, off⟩ := answerEntry_fields (e := e) (op := op) (frame := if op = 1 then frame else 0)
        kind one four fun supply => by
          rw [if_pos supply] at word1 ⊢
          exact ⟨word1.2.2.1, word1.2.2.2.1⟩
      refine ⟨v.trans used, k.trans kind, base, size, region, st, off.trans ?_⟩
      split
      next => rfl
      next => rfl
  case unfit =>
    intro unfit
    refine bad_of (fun _ _ => opw.symm) coord ?_
    rw [State.answerBad_iff]
    dsimp only
    rw [opw, entryw]
    rcases unfit with h | h | h | h
    · exact .inr (.inl h)
    · exact .inr (.inr (.inr (.inl h)))
    · exact .inr (.inr (.inr (.inr (.inl h))))
    · exact .inr (.inr (.inr (.inr (.inr (.inl h)))))
  case wrong =>
    intro v0 v1 code at_ size given named wrong
    rcases wrong with away | ⟨near, wrong⟩
    · refine rejected (State.pagerAnswer_unheld (s := { s with arg := .pgans t v0 v1 }) rfl named
        (State.answerable_none (s := { s with arg := .pgans t v0 v1 }) res ?_))
      intro y hy ht'
      rw [BitVec.truncate_eq_setWidth, ← BitVec.ofNat_toNat]
      exact away y hy ht'
    · refine bad_of named (by rw [BitVec.truncate_eq_setWidth, ← BitVec.ofNat_toNat]; exact near) ?_
      rw [State.answerBad_iff]
      rcases wrong with zero | high | ⟨other, word⟩ | ⟨supply, odd | misplaced | outside⟩
      · exact .inl fun h => absurd h.1 (by omega)
      · exact .inl fun h => absurd h.2 (by omega)
      · refine .inr (.inr (.inl ?_))
        rw [if_neg other]
        exact fun h => word (BitVec.eq_of_toNat_eq h)
      · refine .inr (.inr (.inl ?_))
        rwa [if_pos supply]
      · exact .inr (.inr (.inr (.inr (.inr (.inr ⟨supply, .inl misplaced⟩)))))
      · exact .inr (.inr (.inr (.inr (.inr (.inr ⟨supply, .inr outside⟩)))))

end Sys2Proof.Machine
end

section
/-! A copy within die-local memory does not leave every read of its cycle as it was: O41 asks it of every memory, also of one that
is not in the canonical form of the invariant. There a key may stand behind a higher one, where no read finds it; a zero written over
the higher one takes that out of the list, and the next read finds the key behind it. -/

namespace Sys2Proof.Machine

/-- A copy of eight zero bytes to address 96, which has begun. -/
def zeroCopy : CopyCmd :=
  { num := 1, pol := 0, op := .copy 0x10000000 96 1 8 0 0, flag := none, started := true, tries := 0, pos := 0, acks := 0,
    flagSent := false, stalled := false, stallAt := 0, stallCause := 0, status := none, bad := 0, kept := [] }

/-- The die after reset with that copy in the queue of ce0, and with byte 50 listed behind byte 100. -/
def unsortedCopy : State :=
  { State.reset with eng.copy := vset Engines.clear.copy 0 [zeroCopy], mem.loc := [(100, 7), (50, 3)] }

theorem unsortedCopy_unwatched : unsortedCopy.Unwatched := by
  intro a n
  unfold Ctl.engineWatch
  rw [show unsortedCopy.ctl.wctl = Ctl.clear.wctl from rfl]
  rfl

/-- The byte at address 50 as reads find it after an outcome. -/
def byteAt50 : Out → List Byte
  | .next t => t.load 50 1
  | _ => []

/-- Refutes O41: the copy over byte 100 makes the reads of its cycle find 3 at address 50, where they found 0. -/
theorem not_copyEngineEvents : ¬ Obligations.CopyEngineEvents := by
  unfold Obligations.CopyEngineEvents
  intro holds
  obtain ⟨-, -, -, copies, -⟩ := holds unsortedCopy 0 (by decide) rfl
  obtain ⟨t, moved, ⟨-, reads, -⟩, -⟩ := copies zeroCopy 0x10000000 96 8 (by decide +kernel) (by decide +kernel) rfl (by decide)
    (by decide) (by decide) unsortedCopy_unwatched
  have before : unsortedCopy.load 50 1 = [0] := by decide +kernel
  have after : byteAt50 (exec .blockTransfer { unsortedCopy with arg := .two 0 zeroCopy.num }) = [3] := by decide +kernel
  rw [moved] at after
  exact absurd (after.symm.trans ((reads 50 1).trans before)) (by decide)

end Sys2Proof.Machine
end

section
/-! The walker's own rows of a row-block exchange are read one after the other, each after the row before it is written. O42 asks
that every row is read as the round finds it, also in a memory that is not in the canonical form of the invariant: a zero written
over a key there may uncover a key listed behind it, which a later row then reads. -/

namespace Sys2Proof.Machine

/-- A row-block exchange with no other die: two rows of one byte, from address 49 to address 100. -/
def ownRows : WCmd :=
  { num := 1, pol := 0, op := .coll 0, started := true, tries := 0, pos := 0, acks := 0, bad := false,
    record := [0x100000002, 0x6400000031, 1, 0], elapsed := 0, status := none }

/-- The die after reset with that command in the walker, and with byte 50 listed behind byte 100. -/
def unsortedRows : State := { State.reset with eng.walker := [ownRows], mem.loc := [(100, 7), (50, 3)] }

theorem unsortedRows_unwatched : unsortedRows.Unwatched := by
  intro a n
  unfold Ctl.engineWatch
  rw [show unsortedRows.ctl.wctl = Ctl.clear.wctl from rfl]
  rfl

/-- Byte 101 of die-local memory after an outcome. -/
def byteAt101 : Out → Byte
  | .next t => cellGet t.mem.loc 101
  | _ => 0

/-- Refutes O42: the second row holds 3, which stood behind byte 100, and not the 0 that the round found at address 50. -/
theorem not_otherEngineEvents : ¬ Obligations.OtherEngineEvents := by
  unfold Obligations.OtherEngineEvents
  intro holds
  obtain ⟨-, -, -, -, -, -, -, walks, -⟩ := holds unsortedRows rfl
  obtain ⟨-, blocks, -⟩ := walks ownRows rfl rfl rfl
  obtain ⟨own, -⟩ := blocks 0 rfl (by decide +kernel) (by decide +kernel) (by decide +kernel)
  obtain ⟨t, moved, -, rows, -⟩ := own (by decide +kernel) unsortedRows_unwatched
  have written : byteAt101 (exec .walkerRound unsortedRows) = 3 := by decide +kernel
  rw [moved, byteAt101, rows] at written
  exact absurd written (by decide +kernel)

end Sys2Proof.Machine
end

section
/-! Packets that a port accepts, and those that it buffers (R113, R115, R119, R124). -/

namespace Sys2Proof.Machine

/-- A packet that a die performs is no longer marked with the link it came by. -/
def Packet.freed (k : Packet) : Packet := { k with held := none }

theorem vset_vset {α : Type} {n i : Nat} (v : Vector α n) (x y : α) : vset (vset v i x) i y = vset v i y := by
  unfold vset
  exact Vector.setIfInBounds_setIfInBounds ..

theorem State.port_setPort_same {s : State} {d : Nat} (hd : d < 13) (p : Port) : (s.setPort d p).port d = p := by
  rw [State.port_setPort, if_pos ⟨rfl, hd⟩]

theorem State.setPort_setPort (s : State) (d : Nat) (p q : Port) :
    (s.setPort d p).setPort d q = s.setPort d q := by
  unfold State.setPort
  exact congrArg (fun v => { s with ports := v }) (vset_vset _ p q)

/-- The tag and NCTR checks pass (R126). -/
theorem State.checkFrame_ok {s : State} {d n : Nat} (fresh : (s.port d).nctrIn < n) :
    s.checkFrame d n true = (s.setPort d { s.port d with nctrIn := n }, true) := by
  unfold State.checkFrame
  exact if_neg (by simpa using fresh)

/-- An UP port answers with a control frame of its own. -/
theorem State.linkReply_up {s : State} {d : Nat} (up : (s.port d).state = .up) (l : W32) :
    s.linkReply d true l = s.setPort d ((s.port d).control (.ack l)) := by
  have carries : (s.port d).carries = true := by unfold Port.carries; rw [up]
  unfold State.linkReply State.sendWord
  rw [if_neg (by rw [up]; decide)]
  exact if_pos carries

/-- The next number of a link is accepted and acknowledged (R124). -/
theorem State.acceptSeq_next {s : State} {d : Nat} (hd : d < 13) (up : (s.port d).state = .up) {l : W32}
    (next : l = (s.port d).lacc + 1) :
    s.acceptSeq d l = (s.setPort d (Port.control { s.port d with lacc := l } (.ack l)), true) := by
  unfold State.acceptSeq
  rw [if_pos next, State.linkReply_up (by rw [State.port_setPort_same hd]; exact up), State.port_setPort_same hd,
    State.setPort_setPort]

/-- What accepting a packet leaves of its port: LACC, NCTR and the acknowledgement. -/
def Port.took (p : Port) (k : Packet) : Port :=
  { p with lacc := k.lseq, nctrIn := k.nctr, nctrOut := p.nctrOut + 1,
           sent := p.sent ++ [{ frame := .ack k.lseq, nctr := p.nctrOut + 1, key := p.key }] }

/-- An UP port that finds the next packet of its link sealed well passes its checks. -/
structure State.Takes (s : State) (d : Nat) (k : Packet) : Prop where
  port : d < 13
  up : (s.port d).state = .up
  tag : k.tagOk = true
  fresh : (s.port d).nctrIn < k.nctr
  next : k.lseq = (s.port d).lacc + 1

theorem State.Takes.accept {s : State} {d : Nat} {k : Packet} (h : s.Takes d k) (opens : k.outer.all (·.hop != 2) = true) :
    s.accept d k = (s.setPort d ((s.port d).took k), some k.freed) := by
  have check : s.checkFrame d k.nctr k.tagOk = (s.setPort d { s.port d with nctrIn := k.nctr }, true) := by
    rw [h.tag, State.checkFrame_ok h.fresh]
  have seq := State.acceptSeq_next (s := s.setPort d { s.port d with nctrIn := k.nctr }) (l := k.lseq) h.port
    (by rw [State.port_setPort_same h.port]; exact h.up) (by rw [State.port_setPort_same h.port]; exact h.next)
  rw [State.port_setPort_same h.port, State.setPort_setPort] at seq
  unfold State.accept
  rw [check]
  dsimp only
  rw [seq]
  dsimp only
  split
  · rfl
  · rename_i o out
    have hop : o.hop ≠ 2 := by simpa [out] using opens
    rw [if_neg hop]
    rfl

/-- An event of a packet that its port takes: it is acted on, or buffered. -/
theorem State.Takes.linkEvent {s : State} {d : Nat} {k : Packet} (h : s.Takes d k) (arg : s.arg = .pkt d k)
    (opens : k.outer.all (·.hop != 2) = true) {kind : Packet → Bool} (of : kind k = true) (wait : State → Packet → Bool)
    (act : Packet → State → State) :
    s.linkEvent kind wait act =
      .next ((s.setPort d ((s.port d).took k)).orBuffer d k.freed (wait (s.setPort d ((s.port d).took k)) k.freed) act) := by
  have lands : k.landsOn d = d := by
    unfold Packet.landsOn
    split
    · rename_i o out
      have hop : o.hop ≠ 2 := by simpa [out] using opens
      rw [if_neg hop]
    · rfl
  unfold State.linkEvent
  rw [arg]
  dsimp only
  rw [of, h.up, h.accept opens, lands]
  exact if_pos rfl

/-- A packet that need not wait behind another is acted on. -/
theorem State.orBuffer_acts {s : State} {d : Nat} {k : Packet} {wait : Bool} (act : Packet → State → State)
    (free : wait = false) (first : (s.port d).rxHead k.vc = none) : s.orBuffer d k wait act = act k s := by
  unfold State.orBuffer
  exact if_neg (by rw [free, first]; decide)

/-- One that must wait, or stands behind another of its channel, stays in the receive buffer (R113). -/
theorem State.orBuffer_waits {s : State} {d : Nat} {k : Packet} {wait : Bool} (act : Packet → State → State)
    (waits : wait = true ∨ ((s.port d).rxHead k.vc).isSome = true) :
    s.orBuffer d k wait act = s.setPort d { s.port d with rx := (s.port d).rx ++ [k] } := by
  unfold State.orBuffer
  exact if_pos (by simpa using waits)

theorem State.Arrives.takes {s : State} {d : Nat} {k : Packet} (h : s.Arrives d k) :
    ({ s with arg := .pkt d k } : State).Takes d k := by
  obtain ⟨port, up, -, tag, fresh, next, -⟩ := h
  exact ⟨port, up, tag, fresh, next⟩

/-- A die that is not halted performs what it receives. -/
theorem State.receive_running {s : State} (run : s.halted = false) (k : Packet) (perform : Packet → State → State) :
    s.receive k perform = perform k { s with arrived := k.src :: s.arrived } := by
  have mode : s.stream.mode ≠ .fatal := fun e => by
    unfold State.halted at run
    rw [e] at run
    simp at run
  exact if_neg mode

/-- A packet that arrives for this die is performed at once, as its port accepts it. -/
theorem State.Arrives.packetEvent {s : State} {d : Nat} {k : Packet} (h : s.Arrives d k) (home : k.dst = s.ctl.diecoord)
    {kind : Packet → Bool} (of : kind k = true) (perform : Packet → State → State) :
    ({ s with arg := .pkt d k } : State).packetEvent kind perform =
      .next (perform k.freed (({ s with arg := .pkt d k } : State).accepted d k)) := by
  have takes := h.takes
  obtain ⟨port, -, direct, -, -, -, run, now, first⟩ := h
  have kinds : (kind k && k.opens && decide (k.dst = s.ctl.diecoord)) = true := by
    unfold Packet.opens
    rw [of, direct, decide_eq_true home]
    rfl
  unfold State.packetEvent
  rw [takes.linkEvent rfl (by rw [direct]; rfl) kinds,
    State.orBuffer_acts _ (by exact now) (by rw [State.port_setPort_same port]; exact first),
    State.receive_running (by exact run)]
  rfl

theorem Packet.plain_of {k : Packet} {t : PType} (type : k.ptype = t) (info : k.info = .none) : k.plain t = true := by
  unfold Packet.plain
  rw [type, info]
  cases t <;> rfl

/-- The oldest packet of a channel, which need not wait, is performed. -/
theorem State.packetEvent_rx {s : State} {d vc : Nat} {k : Packet} (oldest : (s.port d).rxHead vc = some k)
    (now : s.mustWait k = false) (run : s.halted = false) (home : k.dst = s.ctl.diecoord) (direct : k.outer = none)
    {kind : Packet → Bool} (of : kind k = true) (perform : Packet → State → State) :
    ({ s with arg := .rx d vc } : State).packetEvent kind perform =
      .next (perform k { s with
        arg := .rx d vc, ports := vset s.ports d { s.port d with rx := (s.port d).rx.erase k },
        arrived := k.src :: s.arrived }) := by
  have kinds : (kind k && k.opens && decide (k.dst = s.ctl.diecoord)) = true := by
    unfold Packet.opens
    rw [of, direct, decide_eq_true home]
    rfl
  have oldest' : (({ s with arg := .rx d vc } : State).port d).rxHead vc = some k := oldest
  have now' : ({ s with arg := .rx d vc } : State).mustWait k = false := now
  unfold State.packetEvent State.linkEvent
  dsimp only
  rw [oldest']
  refine (if_pos ?_).trans (congrArg Host.Outcome.next (State.receive_running (by exact run) _ _))
  rw [now', Bool.and_eq_true]
  exact ⟨kinds, rfl⟩

/-- A packet that its port takes for this die while it must wait stands in the receive buffer. -/
theorem State.Takes.packetEvent_waits {s : State} {d : Nat} {k : Packet} (h : ({ s with arg := .pkt d k } : State).Takes d k)
    (home : k.dst = s.ctl.diecoord) (direct : k.outer = none) {kind : Packet → Bool} (of : kind k = true)
    (waits : s.mustWait k = true ∨ ((s.port d).rxHead k.vc).isSome = true) (perform : Packet → State → State) :
    ({ s with arg := .pkt d k } : State).packetEvent kind perform =
      .next (({ s with arg := .pkt d k } : State).setPort d
        { (s.port d).took k with rx := (s.port d).rx ++ [k.freed] }) := by
  have kinds : (kind k && k.opens && decide (k.dst = s.ctl.diecoord)) = true := by
    unfold Packet.opens
    rw [of, direct, decide_eq_true home]
    rfl
  unfold State.packetEvent
  rw [h.linkEvent rfl (by rw [direct]; rfl) kinds, State.orBuffer_waits _ (by rw [State.port_setPort_same h.port]; exact waits),
    State.port_setPort_same h.port, State.setPort_setPort]
  rfl

/-! ## Packets performed at their home (R39, R48, R115, R119, R120) -/

/-- Without a watchpoint the bytes that a packet writes are those of an engine's store. -/
theorem State.homeWrite_unwatched {s : State} (quiet : s.Unwatched) (k : Packet) (bs : List Byte) :
    s.homeWrite k bs = if k.dram then s.storeDram k.addr.toNat bs else s.storeEng k.addr.toNat bs := by
  unfold State.homeWrite
  rw [State.storeWatched_unwatched quiet]

/-- The compare-and-swap of an atomic whose compare fails writes nothing (R222). -/
theorem atomicNew_compare_fails {n old x compare : Nat} (differs : old ≠ compare) :
    atomicNew 0x9#4 n old x compare = none := if_neg differs

/-- An unreachable notice to another die goes its way as any packet does (R130). -/
theorem State.giveUp_notice {s : State} {k : Packet} (type : k.ptype ≠ .unreachable) (direct : k.outer = none)
    (far : k.src ≠ s.ctl.diecoord) : s.giveUp k = s.route (s.ctl.notice k) := by
  unfold State.giveUp State.route
  rw [if_neg (by rw [direct]; simpa using type), if_neg far]
  show (match nextDim s.ctl.diecoord k.src with | none => s | some e => (s.transmit e (s.ctl.notice k)).1) =
    match nextDim s.ctl.diecoord k.src with | none => s | some d => _
  cases nextDim s.ctl.diecoord k.src with
  | none => rfl
  | some e =>
    dsimp only
    rcases hx : s.transmit e (s.ctl.notice k) with ⟨t, _ | _⟩
    · exact (if_pos rfl).symm
    · rfl

/-- An answer that can not be sent changes nothing but ports (R113, R130). -/
theorem State.giveUp_answer (s : State) {k : Packet} (type : k.ptype.answer = true) :
    ∃ p, s.giveUp k = { s with ports := p } := by
  unfold State.giveUp State.linkDown
  dsimp only
  rw [type]
  split
  · exact ⟨s.ports, rfl⟩
  · split
    · exact ⟨s.ports, if_pos rfl⟩
    · split
      · exact ⟨s.ports, rfl⟩
      · exact State.transmit_ports s _ _

theorem State.route_answer (s : State) {k : Packet} (type : k.ptype.answer = true) : ∃ p, s.route k = { s with ports := p } := by
  unfold State.route
  split
  · exact ⟨s.ports, rfl⟩
  · rename_i d _
    obtain ⟨p, ports⟩ := State.transmit_ports s d k
    rcases hx : s.transmit d k with ⟨t, _ | _⟩ <;> rw [hx] at ports <;> dsimp only at ports ⊢
    · obtain ⟨q, given⟩ := State.giveUp_answer t type
      exact ⟨q, given.trans (congrArg (fun u : State => { u with ports := q }) ports)⟩
    · exact ⟨p, ports⟩

end Sys2Proof.Machine
end

section
/-! Packets of one-sided operations at their home (R39, R48, R115, R117, R119, R120, R142). -/

namespace Sys2Proof.Machine

/-- The state in which a packet that arrives is performed. -/
abbrev State.home (s : State) (d : Nat) (k : Packet) : State := ({ s with arg := .pkt d k } : State).accepted d k

/-- The bytes that a packet writes where nothing is watched. -/
def State.homeStore (s : State) (k : Packet) (bs : List Byte) : State :=
  if k.dram then s.storeDram k.addr.toNat bs else s.storeEng k.addr.toNat bs

theorem State.homeWrite_home {s : State} (quiet : s.Unwatched) (d : Nat) (k : Packet) (bs : List Byte) :
    (s.home d k).homeWrite k.freed bs = (s.home d k).homeStore k bs :=
  State.homeWrite_unwatched (s := s.home d k) (fun a n => quiet a n) k.freed bs

/-- A packet that names no exchange, walker or row data is performed where it arrives. -/
theorem State.Arrives.plainEvent {s : State} {d : Nat} {k : Packet} (arrives : s.Arrives d k) (target : k.dst = s.ctl.diecoord)
    {t : PType} (type : k.ptype = t) (info : k.info = .none) (perform : Packet → State → State) :
    ({ s with arg := .pkt d k } : State).packetEvent (fun k => k.plain t) perform =
      .next (perform k.freed (s.home d k)) :=
  arrives.packetEvent target (kind := fun k => k.plain t) (Packet.plain_of type info) perform

section
variable {s : State} {d : Nat} {k : Packet} (arrives : s.Arrives d k) (target : k.dst = s.ctl.diecoord)

include arrives target

theorem writePacket_arrives (type : k.ptype = .write) (info : k.info = .none) (quiet : s.Unwatched) :
    exec .writePacket { s with arg := .pkt d k } =
      .next (((s.home d k).homeStore k k.payload).answer k .transferAck id) :=
  (arrives.plainEvent target type info _).trans
    (congrArg (fun v : State => Host.Outcome.next (v.answer k .transferAck id)) (State.homeWrite_home quiet d k k.payload))

theorem readRequest_arrives (type : k.ptype = .readRequest) (info : k.info = .none) :
    exec .readRequest { s with arg := .pkt d k } =
      .next ((s.home d k).answer k .readResponse fun a =>
        { a with imm := k.imm, len := k.len, payload := (s.home d k).homeRead k k.len }) :=
  (arrives.plainEvent target type info _).trans rfl

theorem flagPacket_arrives (type : k.ptype = .flag) (info : k.info = .none) (quiet : s.Unwatched) :
    exec .flagPacket { s with arg := .pkt d k } =
      .next (((s.home d k).homeStore k (leBytes 8 k.imm.toNat)).answer k .transferAck id) :=
  (arrives.plainEvent target type info _).trans
    (congrArg (fun v : State => Host.Outcome.next (v.answer k .transferAck id))
      (State.homeWrite_home quiet d k (leBytes 8 k.imm.toNat)))

/-- An atomic that arrives: its new value, if it has one, is written, and the old one answered. -/
theorem atomicPacket_arrives (type : k.ptype = .atomic) (info : k.info = .none) (quiet : s.Unwatched) {new : Option Nat}
    (result : atomicNew (k.op.truncate 4) k.len (leNat (s.homeRead k k.len)) (k.imm.toNat % 2 ^ (8 * k.len))
      (leNat k.payload % 2 ^ (8 * k.len)) = new) :
    exec .atomicPacket { s with arg := .pkt d k } =
      .next ((match new with
        | some y => (s.home d k).homeStore k (leBytes k.len y)
        | none => s.home d k).answer k .atomicResponse fun a =>
          { a with imm := BitVec.ofNat 64 (leNat (s.homeRead k k.len)) }) := by
  refine (arrives.plainEvent target type info _).trans (congrArg Host.Outcome.next ?_)
  dsimp only
  rw [show atomicNew (k.freed.op.truncate 4) k.freed.len (leNat ((s.home d k).homeRead k.freed k.freed.len))
    (k.freed.imm.toNat % 2 ^ (8 * k.freed.len)) (leNat k.freed.payload % 2 ^ (8 * k.freed.len)) = new from result]
  cases new with
  | none => rfl
  | some y =>
    exact congrArg (fun v : State => v.answer k .atomicResponse fun a =>
      { a with imm := BitVec.ofNat 64 (leNat (s.homeRead k k.len)) }) (State.homeWrite_home quiet d k (leBytes k.len y))

/-- A reduce-store of another job is answered by an unreachable notice (R120). -/
theorem reduceStore_elsewhere (type : k.ptype = .reduceStore) (info : k.info = .none) (other : k.job ≠ s.ctl.jobid)
    (far : k.src ≠ s.ctl.diecoord) :
    exec .reduceStore { s with arg := .pkt d k } = .next ((s.home d k).route ((s.home d k).ctl.notice k)) := by
  refine (arrives.plainEvent target type info _).trans (congrArg Host.Outcome.next ?_)
  obtain ⟨-, -, direct, -⟩ := arrives
  refine (if_pos other).trans ((State.giveUp_notice ?_ ?_ ?_).trans rfl)
  · exact type ▸ (by decide : PType.reduceStore ≠ .unreachable)
  · exact direct
  · exact far

/-- One of this job is performed or counted, and acknowledged (R119). -/
theorem reduceStore_here (type : k.ptype = .reduceStore) (info : k.info = .none) (own : k.job = s.ctl.jobid) :
    exec .reduceStore { s with arg := .pkt d k } =
      .next (((s.home d k).reduce k.freed).answer k .transferAck id) :=
  (arrives.plainEvent target type info _).trans
    (congrArg Host.Outcome.next (if_neg (not_not_intro own)))

end

/-- How far the number of a reduce-store stands ahead of its mark (R119). -/
def State.aheadOf (s : State) (k : Packet) : Nat :=
  (k.rseq - BitVec.ofNat 32 (leNat (getBytes s.mem.dram (s.markAt k) 4))).toNat

theorem State.reduce_duplicate {s : State} {k : Packet} (dup : s.aheadOf k = 0 ∨ 2 ^ 31 ≤ s.aheadOf k) :
    s.reduce k = { s with ctl.rsdup := satAdd32 s.ctl.rsdup 1 } :=
  if_neg (show ¬ (1 ≤ s.aheadOf k ∧ s.aheadOf k < 2 ^ 31) by omega)

theorem State.reduce_new {s : State} {k : Packet} (first : 1 ≤ s.aheadOf k) (near : s.aheadOf k < 2 ^ 31) :
    s.reduce k =
      (let w := s.homeWrite k (ropBytes k.op.toNat (s.homeRead k k.payload.length) k.payload)
       { w with mem.dram := putBytes w.mem.dram (s.markAt k) (leBytes 4 k.rseq.toNat) }) :=
  if_pos ⟨first, near⟩

theorem State.answer_ports (s : State) (k : Packet) {p : PType} {f : Packet → Packet} (keeps : ∀ a, (f a).ptype = a.ptype)
    (answers : p.answer = true) : s.answer k p f = { s with ports := (s.answer k p f).ports } := by
  obtain ⟨q, sent⟩ := State.route_answer s (k := f { s.ctl.packet p k.src k.eng.toNat k.xid with info := k.info })
    ((congrArg PType.answer (keeps _)).trans answers)
  exact sent.trans (congrArg (fun v => { s with ports := v }) (congrArg State.ports sent).symm)

theorem State.answer_mem (s : State) (k : Packet) (t : PType) (f : Packet → Packet) : (s.answer k t f).mem = s.mem :=
  State.route_mem _ _

/-- Settles O44: each clause is the event of a packet that its port takes, performed or buffered, with the effect of its type. -/
theorem packetsPerformed : Obligations.PacketsPerformed := by
  unfold Obligations.PacketsPerformed
  refine ⟨?_, ?_⟩
  · intro s d k arrives target info quiet here u wrote read mark ahead
    refine ⟨fun type => writePacket_arrives arrives target type info quiet,
      fun type => readRequest_arrives arrives target type info, fun type => flagPacket_arrives arrives target type info quiet,
      fun type y _ new => ?_, ?_,
      fun type other far => reduceStore_elsewhere arrives target type info other far, ?_, ?_,
      fun v p f keeps answers => State.answer_ports v k keeps answers⟩
    · exact atomicPacket_arrives arrives target type info quiet (new := some y) new
    · intro type op differs
      refine atomicPacket_arrives arrives target type info quiet (new := none) ?_
      rw [op]
      exact atomicNew_compare_fails differs
    · intro type own dup
      exact (reduceStore_here arrives target type info own).trans
        (congrArg (fun v : State => Host.Outcome.next (v.answer k .transferAck id))
          (State.reduce_duplicate (s := s.home d k) (k := k.freed) dup))
    · intro type own first near
      refine (reduceStore_here arrives target type info own).trans
        (congrArg (fun v : State => Host.Outcome.next (v.answer k .transferAck id)) ?_)
      refine (State.reduce_new (s := s.home d k) (k := k.freed) first near).trans ?_
      dsimp only
      exact congrArg (fun w : State => { w with mem.dram := putBytes w.mem.dram mark (leBytes 4 k.rseq.toNat) })
        (State.homeWrite_home quiet d k _)
  · intro s d vc k port type info direct target quiet
    refine ⟨?_, ?_⟩
    · rintro here rfl up tag fresh next waits
      have takes : ({ s with arg := .pkt d k } : State).Takes d k := ⟨port, up, tag, fresh, next⟩
      refine ⟨_, takes.packetEvent_waits target direct (kind := fun k => k.plain .write) (Packet.plain_of type info) waits _, ?_⟩
      rw [State.port_setPort_same port]
      refine ⟨rfl, rfl, rfl, rfl, rfl, fun e _ other => ?_⟩
      rw [State.port_setPort, if_neg fun h => other h.1]
      rfl
    · rintro here rfl oldest now run
      intro p u
      have quiet' : u.Unwatched := fun a n => quiet a n
      exact (State.packetEvent_rx oldest now run target direct (kind := fun k => k.plain .write)
        (Packet.plain_of type info) _).trans (congrArg (fun v : State => Host.Outcome.next (v.answer k .transferAck id))
          (State.homeWrite_unwatched quiet' k k.payload))

end Sys2Proof.Machine
end

section
/-! A READY does not find one send half alone where a command holds two of one match: O45 asks the length of the half that the READY
names of both. No command that is issued has two such halves, as each takes a match of its own (R268), but the statement is about
every state. -/

namespace Sys2Proof.Machine

/-- A begun send half of match 1 on dimension 0. -/
def sendHalf (len : Nat) : Half :=
  { send := true, dim := 0, m := 1, addr := 0x10000000, len := len, ready := none, open_ := 0, done := false, failed := false }

/-- A command with two send halves of that match, the second one longer. -/
def twinHalves : XCmd :=
  { num := 1, pol := 0, halves := [sendHalf 0, sendHalf 32], combine := none, dim := 0, started := true, tries := 0, elapsed := 0,
    status := none, trigger := none, disarmed := none, barrier := false, cancelled := false }

/-- The die after reset with that command in queue 0 and its first port UP. -/
def twinState : State :=
  { State.reset with
    eng.xq := vset Engines.clear.xq 0 { XQueue.clear with queue := [twinHalves] },
    ports := vset State.reset.ports 0 { State.reset.port 0 with state := .up } }

/-- A READY for match 1 and no bytes. -/
def twinReady : Packet :=
  { State.reset.ctl.packet .exchangeData State.reset.ctl.diecoord 5 0 with lseq := 1, nctr := 1, info := .ready 0 1 0 0x10000000 }

theorem twinState_unwatched : twinState.Unwatched := by
  intro a n
  unfold Ctl.engineWatch
  rw [show twinState.ctl.wctl = Ctl.clear.wctl from rfl]
  rfl

/-- What the halves of the commands of queue 0 hold of a READY after an outcome. -/
def readiesOf : Out → List (Option (Nat × Nat))
  | .next t => (t.xqueue 0).queue.flatMap fun c => c.halves.map (·.ready)
  | _ => []

/-- Refutes O45: of two send halves of one match, of 0 and of 32 bytes, each keeps its own length beside the READY, where the
statement has that of the first one for both. -/
theorem not_exchangePacketsPerformed : ¬ Obligations.ExchangePacketsPerformed := by
  unfold Obligations.ExchangePacketsPerformed
  intro holds
  obtain ⟨-, ready, -⟩ := holds twinState 0 0 twinReady (by unfold State.Arrives; decide +kernel) (by decide +kernel) rfl twinState_unwatched (by decide)
  obtain ⟨sends, -⟩ := ready 1 0 0x10000000 twinHalves (sendHalf 0) rfl (by decide +kernel) (by decide +kernel)
    (.inl (by decide +kernel)) (by decide +kernel) rfl rfl
  have kept : readiesOf (exec .ready { twinState with arg := .pkt 0 twinReady }) = [some (0, 0x10000000), some (32, 0x10000000)] := by
    decide +kernel
  rw [sends rfl] at kept
  exact absurd kept (by decide +kernel)

end Sys2Proof.Machine
end

section
/-! Answers at the command they belong to, and packets that pass through (R111, R113, R115, R129, R130, R265). -/

namespace Sys2Proof.Machine

/-! ## Copy commands of an engine -/

theorem State.copyQueue_mapCopy (s : State) {i : Nat} (hi : i < 4) (n : Nat) (f : CopyCmd → CopyCmd) :
    (s.mapCopy i n f).copyQueue i = (s.copyQueue i).map fun c => if c.num = n then f c else c := vget_vset_same hi

theorem State.mapCopy_unwatched {s : State} (quiet : s.Unwatched) (i n : Nat) (f : CopyCmd → CopyCmd) :
    (s.mapCopy i n f).Unwatched := fun a m => quiet a m

/-- The address of a byte of a local range is no window address. -/
theorem region_inLocal {b n p : Nat} (inside : inLocal b n = true) (hp : p < n) : region (b + p) ≠ .window := by
  unfold inLocal at inside
  unfold region
  simp only [Bool.or_eq_true, Bool.and_eq_true, decide_eq_true_eq] at inside
  split
  · decide
  · rw [if_pos (by omega)]; decide

/-- The bytes of a plain copy to die-local memory stand in order at its destination. -/
theorem CopyOp.at_plain {a b len p : Nat} (inside : inLocal b len = true) (hp : p < len) :
    ((CopyOp.copy a b 1 len 0 0).at p).2 = b + p := by
  unfold inLocal at inside
  simp only [Bool.or_eq_true, Bool.and_eq_true, decide_eq_true_eq] at inside
  show addrOf (b + (p / len : Nat) * 0 + (p % len : Nat)) = b + p
  rw [Nat.mod_eq_of_lt hp, Int.mul_zero, Int.add_zero]
  unfold addrOf
  omega

/-- Data of a plain copy lands in die-local memory, and its packet is answered (R115). -/
theorem State.landData_plain {s : State} (quiet : s.Unwatched) {i a b len p : Nat} {c : CopyCmd} (status : c.status = none)
    (op : c.op = .copy a b 1 len 0 0) (inside : inLocal b len = true) (hp : p < len) (bs : List Byte) :
    s.landData i c p bs = (s.storeEng (b + p) bs).lessAcks i c.num := by
  have address : (c.op.at p).2 = b + p := by rw [op, CopyOp.at_plain inside hp]
  have resident : s.notResident (b + p) = none := by
    unfold State.notResident State.entryOf
    rw [if_neg (region_inLocal inside hp)]
  have place : s.place (b + p) = .loc (b + p) := if_neg (region_inLocal inside hp)
  have lands : s.landRead i c p bs = s.storeEng (b + p) bs := by
    unfold State.landRead
    dsimp only
    rw [address, resident]
    dsimp only
    rw [status]
    refine (if_neg Bool.false_ne_true).trans ?_
    unfold State.deliverCopy
    dsimp only
    rw [place]
    exact (if_neg Bool.false_ne_true).trans (State.storeWatched_unwatched quiet _ _ _)
  unfold State.landData
  rw [op]
  exact congrArg (fun t : State => t.lessAcks i c.num) lands

/-- The result of a remote atomic lands in shared SRAM (R265). -/
theorem State.landData_atomic {s : State} (quiet : s.Unwatched) {i : Nat} {c : CopyCmd} {o : BitVec 4} {w : Bool} {t : Nat}
    {x y : W64} {res : Nat} (op : c.op = .ratm o w t x y res) (p : Nat) (bs : List Byte) :
    s.landData i c p bs = (s.storeEng res bs).lessAcks i c.num := by
  unfold State.landData
  rw [op]
  exact congrArg (fun t : State => t.lessAcks i c.num) (State.storeWatched_unwatched quiet _ _ _)

/-! ## Answers that arrive -/

section
variable {s : State} {d i : Nat} {k : Packet} {c : CopyCmd} (arrives : s.Arrives d k) (target : k.dst = s.ctl.diecoord)
  (info : k.info = .none)

theorem State.answered_of (hi : i < 4) (eng : k.eng.toNat = i + 1)
    (begun : (s.copyQueue i).find? (fun c => c.started && decide (c.xid = k.xid)) = some c) : s.answered k = some (i, c) := by
  unfold State.answered
  rw [if_pos (by omega), show k.eng.toNat - 1 = i by omega, begun]
  rfl

include arrives target info

theorem readResponse_arrives (type : k.ptype = .readResponse) (owner : s.answered k = some (i, c)) :
    exec .readResponse { s with arg := .pkt d k } = .next ((s.home d k).takeData i c k.imm.toNat k.payload) := by
  show execReadResponse _ = _
  unfold execReadResponse
  rw [arrives.plainEvent target type info]
  rw [show (s.home d k).answered k.freed = _ from owner]
  rfl

theorem atomicResponse_arrives {o : BitVec 4} {w : Bool} {t : Nat} {x y : W64} {res : Nat} (type : k.ptype = .atomicResponse)
    (owner : s.answered k = some (i, c)) (op : c.op = .ratm o w t x y res) :
    exec .atomicResponse { s with arg := .pkt d k } = .next ((s.home d k).takeData i c 0 (leBytes 8 k.imm.toNat)) := by
  show execAtomicResponse _ = _
  unfold execAtomicResponse
  rw [arrives.plainEvent target type info]
  rw [show (s.home d k).answered k.freed = _ from owner]
  dsimp only
  rw [op]
  rfl

theorem transferAck_arrives (type : k.ptype = .transferAck) (owner : s.answered k = some (i, c)) :
    exec .transferAcknowledgement { s with arg := .pkt d k } = .next ((s.home d k).lessAcks i c.num) := by
  show execTransferAcknowledgement _ = _
  unfold execTransferAcknowledgement
  rw [arrives.packetEvent target (by rw [type]; rfl)]
  rw [show k.freed.info = _ from info]
  rw [show (s.home d k).answered k.freed = _ from owner]

/-- A notice tells the command of the packet that it was not delivered (R130). -/
theorem unreachable_arrives (type : k.ptype = .unreachable) (request : k.ofAnswer = false) (hi : i < 4)
    (eng : k.eng.toNat = i + 1) :
    exec .unreachableNotice { s with arg := .pkt d k } = .next ((s.home d k).mapCopyX i k.xid fun c =>
      { c with status := if c.status.isNone then some 0x13 else c.status, acks := c.acks - 1 }) := by
  show execUnreachableNotice _ = _
  unfold execUnreachableNotice
  rw [arrives.packetEvent target (by rw [type]; rfl)]
  refine congrArg Host.Outcome.next ((if_neg (by rw [show k.freed.ofAnswer = _ from request]; decide)).trans ?_)
  unfold State.linkDown
  dsimp only
  refine (if_neg (by decide)).trans ?_
  rw [show k.freed.info = _ from info]
  dsimp only
  refine (if_pos (show 1 ≤ k.eng.toNat ∧ k.eng.toNat ≤ 4 by omega)).trans ?_
  rw [show k.freed.eng.toNat - 1 = i by show k.eng.toNat - 1 = i; omega]
  rfl

end

/-! ## Packets that pass through (R111, R129) -/

/-- A port that is UP, with room, nothing before the packet and no switch back open. -/
structure State.FreePort (s : State) (e : Nat) (k : Packet) : Prop where
  port : e < 13
  up : (s.port e).state = .up
  room : (s.port e).held + k.flits ≤ 1024
  direct : (s.port e).guyLast = none
  synced : (s.port e).resync = false
  empty : (s.port e).waiting = []

section
variable {s : State} {e : Nat} {k : Packet} (free : s.FreePort e k)
include free

theorem State.FreePort.trySend : s.trySend e k = some (s.setPort e ((s.port e).sendNow k s.now)) := by
  unfold State.trySend
  refine if_pos ?_
  unfold Port.direct
  rw [free.up, free.direct, free.synced, decide_eq_true free.room]
  rfl

theorem State.FreePort.stuck : s.stuck e k = false := by
  unfold State.stuck
  rw [free.up]
  cases k.outer.isSome <;> rfl

theorem State.FreePort.blocked : (s.port e).blocked k = false := by
  unfold Port.blocked
  rw [free.empty]
  rfl

theorem State.FreePort.noExit : s.noExit e k = false := by
  unfold State.noExit
  rw [free.stuck, free.blocked, free.trySend]
  rfl

theorem State.FreePort.transmit : s.transmit e k = (s.setPort e ((s.port e).sendNow k s.now), true) := by
  unfold State.transmit
  rw [free.stuck]
  refine (if_neg (by decide)).trans ?_
  dsimp only
  rw [free.blocked, free.trySend]
  rfl

end

theorem State.FreePort.route {s : State} {e : Nat} {k : Packet} (free : s.FreePort e k)
    (next : nextDim s.ctl.diecoord k.dst = some e) : s.route k = s.setPort e ((s.port e).sendNow k s.now) := by
  unfold State.route
  rw [next]
  dsimp only
  rw [free.transmit]

/-- Taking a packet on one port leaves another one free. -/
theorem State.FreePort.beside {s : State} {e d : Nat} {k w : Packet} (free : s.FreePort e k) (other : e ≠ d) (p : Port)
    (flits : w.flits = k.flits) : (s.setPort d p).FreePort e w := by
  have same : (s.setPort d p).port e = s.port e := by rw [State.port_setPort, if_neg fun h => other h.1]
  obtain ⟨port, up, room, direct, synced, empty⟩ := free
  refine ⟨port, ?_, ?_, ?_, ?_, ?_⟩ <;> rw [same]
  · exact up
  · exact flits ▸ room
  · exact direct
  · exact synced
  · exact empty

/-- A packet for another die leaves by a free port (R111). -/
theorem routerForward_free {s : State} {d e : Nat} {k : Packet} (takes : ({ s with arg := .pkt d k } : State).Takes d k)
    (first : (s.port d).rxHead k.vc = none) (direct : k.outer = none) (away : k.dst ≠ s.ctl.diecoord)
    (next : nextDim s.ctl.diecoord k.dst = some e) (other : e ≠ d) (free : s.FreePort e k) :
    let u := ({ s with arg := .pkt d k } : State).setPort d ((s.port d).took k)
    exec .routerForward { s with arg := .pkt d k } = .next (u.setPort e ((s.port e).sendNow k.freed s.now)) := by
  intro u
  have exit : u.FreePort e k.freed :=
    State.FreePort.beside (s := { s with arg := .pkt d k }) (k := k) ⟨free.port, free.up, free.room, free.direct, free.synced,
      free.empty⟩ other _ rfl
  have kinds : (k.opens && decide (k.dst ≠ s.ctl.diecoord)) = true := by
    unfold Packet.opens
    rw [direct, decide_eq_true away]
    rfl
  have same : u.port e = s.port e := by rw [State.port_setPort, if_neg fun h => other h.1]; rfl
  show execRouterForward _ = _
  unfold execRouterForward
  rw [takes.linkEvent rfl (by rw [direct]; rfl) kinds, State.orBuffer_acts _ ?free
    (by rw [State.port_setPort_same takes.port]; exact first)]
  case free =>
    have way : (nextDim s.ctl.diecoord k.dst).getD 13 = e := by rw [next]; rfl
    exact (congrArg (fun e => u.noExit e k.freed) way).trans exit.noExit
  exact congrArg Host.Outcome.next ((exit.route next).trans
    (congrArg (fun p : Port => u.setPort e (p.sendNow k.freed s.now)) same))

/-- A detour packet goes on by the outer header (R129). -/
theorem detourForward_free {s : State} {d : Nat} {k : Packet} {o : Detour}
    (takes : ({ s with arg := .pkt d k } : State).Takes d k) (first : (s.port d).rxHead k.vc = none) (outer : k.outer = some o)
    (transit : o.hop < 2) (other : o.out ≠ d) (free : s.FreePort o.out k) :
    let u := ({ s with arg := .pkt d k } : State).setPort d ((s.port d).took k)
    exec .detourForward { s with arg := .pkt d k } = .next (u.setPort o.out
      ((s.port o.out).sendNow { k with outer := some { o with hop := o.hop + 1 }, held := none } s.now)) := by
  intro u
  have exit (w : Packet) (flits : w.flits = k.flits) : u.FreePort o.out w :=
    State.FreePort.beside (s := { s with arg := .pkt d k }) (k := k) ⟨free.port, free.up, free.room, free.direct, free.synced,
      free.empty⟩ other _ flits
  have kinds : (k.outer.any fun o => decide (o.hop < 2)) = true := by
    rw [outer]
    exact decide_eq_true transit
  have same : u.port o.out = s.port o.out := by rw [State.port_setPort, if_neg fun h => other h.1]; rfl
  have out : k.freed.outer = some o := outer
  have last : k.outer.all (·.hop != 2) = true := by
    rw [outer]
    exact bne_iff_ne.mpr (by omega)
  show execDetourForward _ = _
  unfold execDetourForward
  rw [takes.linkEvent rfl last kinds, State.orBuffer_acts _ (by rw [out]; exact (exit k.freed rfl).noExit)
    (by rw [State.port_setPort_same takes.port]; exact first)]
  have sent := (exit { k with outer := some { o with hop := o.hop + 1 }, held := none } (by
    unfold Packet.flits Packet.dataFlits
    rw [outer]
    rfl)).transmit
  rw [same] at sent
  rw [out]
  dsimp only
  generalize result : State.transmit _ _ _ = x
  cases result.symm.trans sent
  rfl

/-- Settles O46: an answer lands at the copy command that bears its identifier or is kept there, and a packet for another die leaves by
the port that its header names. -/
theorem answersAndForwarding : Obligations.AnswersAndForwarding := by
  unfold Obligations.AnswersAndForwarding
  intro s d i k c hi hd quiet here u mine
  have quiet' : u.Unwatched := fun a n => quiet a n
  refine ⟨?_, ?_, ?_, ?_⟩
  · intro arrives target eng begun status
    have owner := State.answered_of hi eng begun
    refine ⟨?_, ?_, ?_, ?_⟩
    · intro a b len info type op hp inside free empty
      have lands := (readResponse_arrives arrives target info type owner).trans (congrArg Host.Outcome.next
        ((State.takeData_lands (s := u) free empty).trans (State.landData_plain quiet' status op inside hp k.payload)))
      exact ⟨_, lands, rfl, State.copyQueue_mapCopy _ hi _ _, rfl⟩
    · intro waits info keeps
      refine ⟨fun type => ?_, fun o w t x y res type op => ?_⟩
      · have kept := (readResponse_arrives arrives target info type owner).trans
          (congrArg Host.Outcome.next (State.takeData_kept (s := u) waits))
        exact ⟨_, kept, rfl, rfl, State.copyQueue_mapCopy _ hi _ _⟩
      · have kept := (atomicResponse_arrives arrives target info type owner op).trans
          (congrArg Host.Outcome.next (State.takeData_kept (s := u) waits))
        exact ⟨_, kept, rfl, rfl, State.copyQueue_mapCopy _ hi _ _⟩
    · intro o w t x y res info type op free empty
      have lands := (atomicResponse_arrives arrives target info type owner op).trans (congrArg Host.Outcome.next
        ((State.takeData_lands (s := u) free empty).trans (State.landData_atomic quiet' op 0 (leBytes 8 k.imm.toNat))))
      exact ⟨_, lands, rfl, State.copyQueue_mapCopy _ hi _ _, rfl⟩
    · intro info type
      exact ⟨_, transferAck_arrives arrives target info type owner, rfl, State.copyQueue_mapCopy _ hi _ _, rfl⟩
  · intro a b len pos bs r run found started free status kept op hp inside
    have stays : ({ s with arg := .two i c.num } : State).copyCanMove i c = false := by
      unfold State.copyCanMove
      rw [kept]
      simp
    have lands : ({ s with arg := .two i c.num } : State).copyCanLand i c = true := by
      unfold State.copyCanLand
      rw [started, kept, show ({ s with arg := .two i c.num } : State).copyHeld i c = false from free]
      rfl
    have found' : ({ s with arg := .two i c.num } : State).findCopy i c.num = some c := found
    have moved : execBlockTransfer { s with arg := .two i c.num } =
        .next (({ s with arg := .two i c.num } : State).landKept i c) := by
      unfold execBlockTransfer
      dsimp only
      rw [found']
      exact (if_neg fun h => absurd (h.2.symm.trans stays) (by decide)).trans (if_pos ⟨run, lands⟩)
    have landed := (State.landKept_cons (s := { s with arg := .two i c.num }) (i := i) kept).trans
      (State.landData_plain (State.mapCopy_unwatched (s := { s with arg := .two i c.num }) (fun a n => quiet a n) _ _ _)
        status op inside hp bs)
    refine ⟨_, moved.trans (congrArg Host.Outcome.next landed), rfl, ?_, rfl⟩
    refine (State.copyQueue_mapCopy _ hi _ _).trans ?_
    refine (congrArg (List.map _) (State.copyQueue_mapCopy _ hi _ _)).trans ?_
    rw [List.map_map]
    refine List.map_congr_left fun x _ => ?_
    dsimp only [Function.comp]
    by_cases h : x.num = c.num
    · simp only [h, if_true]
    · simp only [h, if_false]
  · intro arrives target eng queue xid status info type request
    refine ⟨_, unreachable_arrives arrives target info type request hi eng, ?_, rfl, rfl⟩
    refine (vget_vset_same hi).trans ?_
    rw [show vget u.eng.copy i [] = [c] from queue]
    simp only [List.map_cons, List.map_nil, xid, if_true, status]
    rfl
  · intro e up tag fresh next first other he upE room guy synced empty
    have takes : here.Takes d k := ⟨hd, up, tag, fresh, next⟩
    have free : s.FreePort e k := ⟨he, upE, room, guy, synced, empty⟩
    have ports (w : State) (p : Port) : (w.setPort e p).port d = w.port d ∧ (w.setPort e p).port e = p :=
      ⟨by rw [State.port_setPort, if_neg fun h => other h.1.symm], State.port_setPort_same he p⟩
    refine ⟨?_, ?_⟩
    · intro direct away way
      refine ⟨_, routerForward_free takes first direct away way other free, (ports _ _).1.trans ?_, (ports _ _).2, rfl, rfl, rfl⟩
      rfl
    · rintro o outer transit rfl
      refine ⟨_, detourForward_free takes first outer transit other free, (ports _ _).1.trans ?_, (ports _ _).2, rfl, rfl, rfl⟩
      rfl

end Sys2Proof.Machine
end

section
/-! Acknowledgements, replay and the way over the guyline (R124, R126, R128, R131, R132). -/

namespace Sys2Proof.Machine

/-! ## Replay (R124, R126) -/

theorem vset_vget {α : Type} {n i : Nat} (v : Vector α n) (x : α) : vset v i (vget v i x) = v := by
  by_cases h : i < n
  · unfold vset vget
    ext j hj
    rw [Vector.getElem_setIfInBounds hj]
    split
    · rename_i same; subst same; simp [hj]
    · rfl
  · exact vset_beyond (Nat.le_of_not_lt h)

theorem State.setPort_port (s : State) (d : Nat) : s.setPort d (s.port d) = s := by
  unfold State.setPort State.port
  rw [vset_vget]

/-- Sending on one port, packet after packet, is sending from that port. -/
theorem foldl_setPort {f : Port → Packet → Port} {d : Nat} (hd : d < 13) (ks : List Packet) : ∀ s : State,
    ks.foldl (fun s k => s.setPort d (f (s.port d) k)) s = s.setPort d (ks.foldl f (s.port d)) := by
  induction ks with
  | nil => exact fun s => (State.setPort_port s d).symm
  | cons k ks ih =>
    intro s
    rw [List.foldl_cons, ih, State.port_setPort_same hd, State.setPort_setPort]
    rfl

/-- A port sends packets again, each under the next NCTR. -/
def Port.resent (p : Port) (ks : List Packet) : Port :=
  { p with
    sent := p.sent ++ (ks.zipIdx 1).map fun x =>
      { frame := .data { x.1 with nctr := p.nctrOut + x.2 }, nctr := p.nctrOut + x.2, key := p.key },
    nctrOut := p.nctrOut + ks.length }

theorem Port.foldl_control (ks : List Packet) : ∀ p : Port,
    ks.foldl (fun p k => p.control (.data { k with nctr := p.nctrOut + 1 })) p = p.resent ks := by
  induction ks with
  | nil =>
    intro p
    unfold Port.resent
    rw [List.zipIdx_nil, List.map_nil, List.append_nil]
    rfl
  | cons k ks ih =>
    intro p
    rw [List.foldl_cons, ih]
    unfold Port.resent Port.control
    dsimp only
    congr 1
    · rw [List.length_cons]; omega
    · have shift : ks.zipIdx (1 + 1) = (ks.zipIdx 1).map fun x => (x.1, x.2 + 1) := List.zipIdx_succ
      rw [List.append_assoc, List.zipIdx_cons, List.map_cons, List.singleton_append, shift, List.map_map]
      refine congrArg (p.sent ++ ·) (congrArg (List.cons _) (List.map_congr_left fun x _ => ?_))
      dsimp only [Function.comp]
      rw [show p.nctrOut + 1 + x.2 = p.nctrOut + (x.2 + 1) by omega]

theorem State.resend_up {s : State} {d : Nat} (hd : d < 13) (up : (s.port d).state = .up) :
    s.resend d = s.setPort d ((s.port d).resent (s.port d).replay) := by
  unfold State.resend
  refine (if_pos up).trans
    ((foldl_setPort (f := fun p k => p.control (.data { k with nctr := p.nctrOut + 1 })) hd _ s).trans ?_)
  rw [Port.foldl_control]

/-- A port on which nothing waits sends nothing more. -/
theorem State.flushPort_empty {s : State} {d : Nat} (empty : (s.port d).waiting = []) : s.flushPort d = s := by
  unfold State.flushPort
  rw [empty]
  rfl

/-! ## Control frames -/

section
variable {s : State} {d n : Nat} {l : W32} {ok : Bool}

/-- A control frame whose tag and NCTR are good is acted on. -/
theorem State.wordEvent_good (good : ok = true) (fresh : (s.port d).nctrIn < n) (f : LinkWord) (act : State → State) :
    s.wordEvent d d none n ok f act = .next (act (s.setPort d { s.port d with nctrIn := n })) := by
  unfold State.wordEvent
  rw [good, State.checkFrame_ok fresh]

/-- Another one is counted and answered by a negative acknowledgement (R126). -/
theorem State.checkFrame_bad (hd : d < 13) (up : (s.port d).state = .up) (bad : ok = false ∨ n ≤ (s.port d).nctrIn) :
    s.checkFrame d n ok = (s.setPort d (Port.control { s.port d with lkerr := satAdd32 (s.port d).lkerr 1 } (.nak (s.port d).lacc)),
      false) := by
  have fails : (!ok || decide (n ≤ (s.port d).nctrIn)) = true := by simpa using bad
  have same := State.port_setPort_same (s := s) hd { s.port d with lkerr := satAdd32 (s.port d).lkerr 1 }
  have carries : ((s.setPort d { s.port d with lkerr := satAdd32 (s.port d).lkerr 1 }).port d).carries = true := by
    rw [same]
    unfold Port.carries
    dsimp only
    rw [up]
  unfold State.checkFrame
  refine (if_pos fails).trans (congrArg (·, false) ?_)
  unfold State.linkReply State.sendWord
  rw [if_neg (by rw [same]; exact up ▸ (by decide : PortState.up ≠ .parked))]
  refine (if_pos carries).trans ?_
  rw [same, State.setPort_setPort]
  rfl

theorem State.wordEvent_bad (hd : d < 13) (up : (s.port d).state = .up) (bad : ok = false ∨ n ≤ (s.port d).nctrIn)
    (f : LinkWord) (act : State → State) :
    s.wordEvent d d none n ok f act =
      .next (s.setPort d (Port.control { s.port d with lkerr := satAdd32 (s.port d).lkerr 1 } (.nak (s.port d).lacc))) := by
  unfold State.wordEvent
  rw [State.checkFrame_bad hd up bad]

end

/-- What a replay that puts the port into FAILED leaves (R124, R125). -/
structure State.Fails (s : State) (d : Nat) (t : State) : Prop where
  state : (t.port d).state = .failed
  since : (t.port d).since = s.now
  others : ∀ e < 13, e ≠ d → (t.port e).state = (s.port e).state ∧ (t.port e).since = (s.port e).since
  loc : t.mem.loc = s.mem.loc
  dram : t.mem.dram = s.mem.dram
  regs : t.regs = s.regs

/-- A port that goes from UP to FAILED, with whatever it sends then. -/
theorem State.switchOver_fails {s : State} {d : Nat} (hd : d < 13) (up : (s.port d).state = .up) :
    s.Fails d (s.switchOver d .failed) := by
  have leaves : (s.port d).state ≠ .failed := up ▸ (by decide : PortState.up ≠ .failed)
  have own := State.switchOver_state s d .failed d leaves hd
  obtain ⟨p, e, n, l, c, -, frame⟩ :=
    (State.portState_relinks s d .failed).trans (State.switchOver_sends s d .failed).relinks
  refine ⟨by rw [own.1, if_pos rfl], by rw [own.2, if_pos rfl], fun e _ other => ?_, ?_, ?_, ?_⟩
  · obtain ⟨state, since⟩ := State.switchOver_state s d .failed e leaves hd
    exact ⟨by rw [state, if_neg other], by rw [since, if_neg other]⟩
  all_goals rw [frame]

/-- What sends packets on does not undo it. -/
theorem State.Fails.flush {s t : State} {d : Nat} (h : s.Fails d t) (e : Nat) : s.Fails d (t.flushPort e) := by
  have stay : t.PortsStay (t.flushPort e) := State.flushFrom_stays _ t e
  obtain ⟨p, frame⟩ : ∃ p, t.flushPort e = { t with ports := p } := State.flushFrom_ports _ t e
  obtain ⟨state, since, others, loc, dram, regs⟩ := h
  refine ⟨(stay.port d).1.trans state, (stay.port d).2.trans since, fun e he other => ?_, ?_, ?_, ?_⟩
  · obtain ⟨state, since⟩ := others e he other
    exact ⟨(stay.port e).1.trans state, (stay.port e).2.trans since⟩
  · rw [frame]; exact loc
  · rw [frame]; exact dram
  · rw [frame]; exact regs

/-- Nor is the event's own argument. -/
theorem State.Fails.of_arg {s t : State} {d : Nat} {x : EvArg} (h : ({ s with arg := x } : State).Fails d t) : s.Fails d t := by
  obtain ⟨state, since, others, loc, dram, regs⟩ := h
  exact ⟨state, since, others, loc, dram, regs⟩

/-- Counts of the port itself are nothing to it. -/
theorem State.Fails.of_setPort {s t : State} {d : Nat} {p : Port} (h : (s.setPort d p).Fails d t) : s.Fails d t := by
  obtain ⟨state, since, others, loc, dram, regs⟩ := h
  refine ⟨state, since, fun e he other => ?_, loc, dram, regs⟩
  obtain ⟨state, since⟩ := others e he other
  rw [State.port_setPort, if_neg fun h => other h.1] at state since
  exact ⟨state, since⟩

/-! ## A replay -/

section
variable {s : State} {d : Nat} (hd : d < 13) (up : (s.port d).state = .up)
include hd up

theorem State.replay_resends (few : (s.port d).replays < 7) :
    s.replay d = s.setPort d (Port.resent { s.port d with replays := (s.port d).replays + 1, lastAck := s.now }
      (s.port d).replay) := by
  unfold State.replay
  refine (if_neg fun h => absurd h.2 (by omega)).trans ?_
  rw [State.resend_up hd (by rw [State.port_setPort_same hd]; exact up), State.port_setPort_same hd, State.setPort_setPort]

/-- The eighth in a row puts the port into FAILED. -/
theorem State.replay_fails (many : 7 ≤ (s.port d).replays) : s.Fails d (s.replay d) := by
  unfold State.replay
  dsimp only
  rw [if_pos ⟨up, by omega⟩]
  exact State.Fails.of_setPort (State.switchOver_fails hd (by rw [State.port_setPort_same hd]; exact up))

end

/-! ## Frames of the link of port d itself -/

/-- The control frame of a link that comes in on its own port. -/
abbrev State.ownFrame (s : State) (d n : Nat) (l : W32) (ok : Bool) : State := { s with arg := .lack d d none l n ok }

section
variable {s : State} {d n : Nat} {l : W32} {ok : Bool} (hd : d < 13) (empty : (s.port d).waiting = [])
  (good : ok = true) (fresh : (s.port d).nctrIn < n) (acked : ackedBy l (s.port d).lsent = true)
include hd good fresh acked

/-- A good acknowledgement frees what it covers (R124). -/
theorem linkAcknowledgement_frees (empty : (s.port d).waiting = []) :
    execLinkAcknowledgement (s.ownFrame d n l ok) = .next ((s.ownFrame d n l ok).setPort d
      { (Port.free { s.port d with nctrIn := n } l).1 with lastAck := s.now }) := by
  unfold execLinkAcknowledgement
  refine (State.wordEvent_good (s := s.ownFrame d n l ok) good fresh _ _).trans (congrArg Host.Outcome.next ?_)
  dsimp only
  rw [State.port_setPort_same hd, State.setPort_setPort]
  refine (if_pos acked).trans (State.flushPort_empty ?_)
  rw [State.port_setPort_same hd]
  exact empty

/-- A good negative acknowledgement frees what it covers, and has the rest replayed (R124). -/
theorem negativeAcknowledgement_replays :
    let freed := (s.ownFrame d n l ok).setPort d (Port.free { s.port d with nctrIn := n } l).1
    execNegativeAcknowledgement (s.ownFrame d n l ok) =
      .next ((if (Port.free { s.port d with nctrIn := n } l).1.replay.isEmpty then freed else freed.replay d).flushPort d) := by
  intro freed
  unfold execNegativeAcknowledgement
  refine (State.wordEvent_good (s := s.ownFrame d n l ok) good fresh _ _).trans (congrArg Host.Outcome.next ?_)
  dsimp only
  rw [State.port_setPort_same hd, State.setPort_setPort]
  exact if_pos acked

end

/-- The replays in a row after an acknowledgement: none once it freed a packet. -/
theorem Port.free_replays (p : Port) (l : W32) :
    (p.free l).1.replays = if (p.replay.filter fun k => !ackedBy k.lseq l).length < p.replay.length then 0 else p.replays := by
  unfold Port.free
  dsimp only
  by_cases h : (p.replay.filter fun k => !ackedBy k.lseq l).length < p.replay.length
  · rw [decide_eq_true h, if_pos h, if_pos rfl]
  · rw [decide_eq_false h, if_neg h, if_neg Bool.false_ne_true]

/-- Replays are due on a port that is UP, after 2 µs (R124). -/
theorem replayTimeout_due {s : State} {d : Nat} (up : (s.port d).state = .up) (some : (s.port d).replay ≠ [])
    (late : (s.port d).lastAck + 3500 ≤ s.now) :
    exec .replayTimeout { s with arg := .nat d } = .next (({ s with arg := .nat d } : State).replay d) := by
  have due : ({ s with arg := .nat d } : State).replayDue d = true := by
    refine Bool.and_eq_true_iff.mpr ⟨Bool.and_eq_true_iff.mpr ⟨Bool.or_eq_true_iff.mpr (.inl (decide_eq_true up)), ?_⟩,
      decide_eq_true late⟩
    rw [Bool.not_eq_true', List.isEmpty_eq_false_iff]
    exact some
  exact congrArg Host.Outcome.next (if_pos due)

/-- A port that is UP, of which everything is acknowledged, leaves its guyline (R132). -/
theorem guylineSwitchBack_frees {s : State} {d : Nat} {x : W32} (up : (s.port d).state = .up) (guy : (s.port d).guyLast = some x)
    (none : (s.port d).replay = []) :
    execGuylineSwitchBack { s with arg := .nat d } =
      .next ((({ s with arg := .nat d } : State).setPort d { s.port d with guyLast := .none }).flushPort d) := by
  have free : (s.port d).state = .up ∧ (s.port d).replay.all (fun k => !ackedBy k.lseq x) = true := ⟨up, by rw [none]; rfl⟩
  unfold execGuylineSwitchBack
  dsimp only
  rw [show ({ s with arg := .nat d } : State).port d = s.port d from rfl, guy]
  exact if_pos free

/-- A free port sends what enters it. -/
theorem State.FreePort.enter {s : State} {e : Nat} {k : Packet} (free : s.FreePort e k) :
    s.enter e k = s.setPort e ((s.port e).sendNow k s.now) := by
  unfold State.enter
  refine congrArg (s.setPort e) (if_pos ?_)
  rw [free.blocked]
  unfold Port.direct
  rw [free.up, free.direct, free.synced, decide_eq_true free.room]
  rfl

/-- A packet that a port may not send yet waits. -/
theorem State.transmit_waits {s : State} {d : Nat} {k : Packet} (up : (s.port d).state = .up) (direct : k.outer = none)
    (empty : (s.port d).waiting = [])
    (closed : (s.port d).guyLast ≠ none ∨ (s.port d).resync = true ∨ 1024 < (s.port d).held + k.flits) :
    s.transmit d k = (s.setPort d { s.port d with waiting := [k] }, true) := by
  have stuck : s.stuck d k = false := by
    unfold State.stuck
    rw [up, direct]
    rfl
  have held : (s.port d).direct k = false := by
    unfold Port.direct
    rw [up]
    obtain h | h | h := closed
    · cases hx : (s.port d).guyLast with
      | none => exact absurd hx h
      | some x => rfl
    · rw [h]; simp
    · rw [decide_eq_false (Nat.not_le_of_lt h)]; simp
  have none : s.trySend d k = .none := by
    unfold State.trySend
    refine (if_neg (by rw [held]; decide)).trans (if_neg ?_)
    rw [up]
    exact Bool.false_ne_true
  have blocked : (s.port d).blocked k = false := by
    unfold Port.blocked
    rw [empty]
    rfl
  unfold State.transmit
  rw [stuck]
  refine (if_neg Bool.false_ne_true).trans ?_
  dsimp only
  rw [blocked, none, empty]
  rfl

/-- A packet of a port that is out of use goes over the guyline (R129, R131). -/
theorem State.transmit_guyline {s : State} {d e : Nat} {k : Packet} (hd : d < 13) (direct : k.outer = none) (guy : k.guy = false)
    (empty : (s.port d).waiting = []) (out : (s.port d).state.detours = true) (synced : (s.port d).resync = false)
    (ready : s.guyReady d = true) (room : (s.port d).held + k.flits ≤ 1024) (dim : (s.port d).guydim.toNat % 16 = e)
    (other : e ≠ d) (he : e < 13) (emptyE : (s.port e).waiting = []) (directE : (s.port e).guyLast = none)
    (syncedE : (s.port e).resync = false) (roomE : (s.port e).held + k.flits + 1 ≤ 1024) :
    let p := s.port d
    let l := p.lsent + 1
    let o : Detour := { d := d, e := e, hop := 0, lseq := l, nctr := p.detourOut + 1, tagOk := true,
                        body := k.inner d p.detourKey (p.detourOut + 1) l }
    s.transmit d k = ((s.setPort d { p with
        lsent := l, replay := p.replay ++ [{ k with lseq := l }], lastAck := if p.replay.isEmpty then s.now else p.lastAck,
        guyLast := some l, detourOut := p.detourOut + 1 }).setPort e
      ((s.port e).sendNow { k with lseq := 0, outer := some o } s.now), true) := by
  intro p l o
  have down : p.state ≠ .up := fun up => by rw [show (s.port d).state = .up from up] at out; exact absurd out (by decide)
  have upE : (s.port e).state = .up := by
    unfold State.guyReady at ready
    simp only [Bool.and_eq_true, decide_eq_true_eq, dim] at ready
    exact ready.1.1.2
  have stuck : s.stuck d k = false := by
    unfold State.stuck
    rw [direct]
    refine (if_neg Bool.false_ne_true).trans ?_
    rw [out, guy, ready]
    rfl
  have closed : p.direct k = false := by
    unfold Port.direct
    rw [decide_eq_false down]
    rfl
  have blocked : p.blocked k = false := by
    unfold Port.blocked
    rw [show p.waiting = [] from empty]
    rfl
  let u : State := s.setPort d { p with
    lsent := l, replay := p.replay ++ [{ k with lseq := l }], lastAck := if p.replay.isEmpty then s.now else p.lastAck }
  have own : u.port d = _ := State.port_setPort_same hd _
  let v : State := s.setPort d { p with
    lsent := l, replay := p.replay ++ [{ k with lseq := l }], lastAck := if p.replay.isEmpty then s.now else p.lastAck,
    guyLast := some l, detourOut := p.detourOut + 1 }
  have far : v.FreePort e { k with outer := some o, lseq := 0 } := by
    refine State.FreePort.beside (k := { k with outer := some o, lseq := 0 }) ⟨he, upE, ?_, directE, syncedE, emptyE⟩ other _ rfl
    refine Nat.le_trans (Nat.le_of_eq ?_) roomE
    unfold Packet.flits Packet.dataFlits
    rw [direct]
    exact (by omega : ∀ a b : Nat, a + (1 + (b + 1)) = a + (1 + (b + 0)) + 1) _ _
  have sent : s.trySend d k = some (u.overGuyline d k l) := by
    unfold State.trySend
    refine (if_neg (by rw [closed]; decide)).trans (if_pos ?_)
    rw [out, synced, stuck, decide_eq_true room]
    rfl
  have goes : u.overGuyline d k l = v.enter e { k with outer := some o, lseq := 0 } := by
    unfold State.overGuyline
    rw [own]
    dsimp only
    rw [dim, State.setPort_setPort]
  have same : v.port e = s.port e := by rw [State.port_setPort, if_neg fun h => other h.1]
  rw [far.enter, same] at goes
  unfold State.transmit
  rw [stuck]
  refine (if_neg Bool.false_ne_true).trans ?_
  dsimp only
  rw [blocked, sent, goes]
  rfl

/-- Settles O47: frames and timeouts act on the port itself, and a packet takes the link, waits, or takes the guyline. -/
theorem linkReplay : Obligations.LinkReplay := by
  unfold Obligations.LinkReplay
  refine ⟨?_, ?_⟩
  · intro s d n l ok hd up empty p lack nat keep again fails
    have failed {t : State} (h : s.Fails d t) : fails t :=
      ⟨h.state, h.since, h.others, h.loc, h.dram, h.regs⟩
    refine ⟨?_, ?_, ?_, ?_, ?_, ?_, ?_⟩
    · intro good fresh acked
      refine ⟨_, linkAcknowledgement_frees hd good fresh acked empty, ?_⟩
      rw [State.port_setPort_same hd]
      exact ⟨rfl, rfl, rfl, rfl, rfl, rfl, rfl⟩
    · intro good fresh acked few
      have step := negativeAcknowledgement_replays (s := s) hd good fresh acked
      by_cases none : keep = []
      · have nothing : (Port.free { p with nctrIn := n } l).1.replay.isEmpty = true := List.isEmpty_iff.mpr none
        refine ⟨_, step.trans (congrArg Host.Outcome.next ((congrArg (State.flushPort · d) (if_pos nothing)).trans
          (State.flushPort_empty (by rw [State.port_setPort_same hd]; exact empty)))), ?_⟩
        rw [State.port_setPort_same hd, none]
        exact ⟨none, ⟨(List.append_nil _).symm, rfl, rfl⟩, rfl, rfl, rfl⟩
      · have some : ¬ (Port.free { p with nctrIn := n } l).1.replay.isEmpty = true := fun h => none (List.isEmpty_iff.mp h)
        have again' := State.replay_resends (s := lack.setPort d (Port.free { p with nctrIn := n } l).1) hd
          (by rw [State.port_setPort_same hd]; exact up) (by
            rw [State.port_setPort_same hd, Port.free_replays]
            split
            · decide
            · exact few.resolve_right ‹_›)
        rw [State.port_setPort_same hd, State.setPort_setPort] at again'
        refine ⟨_, step.trans (congrArg Host.Outcome.next ((congrArg (State.flushPort · d) ((if_neg some).trans again')).trans
          (State.flushPort_empty (by rw [State.port_setPort_same hd]; exact empty)))), ?_⟩
        rw [State.port_setPort_same hd]
        exact ⟨rfl, ⟨rfl, rfl, rfl⟩, rfl, rfl, rfl⟩
    · intro good fresh acked many whole some
      have step := negativeAcknowledgement_replays (s := s) hd good fresh acked
      have some' : ¬ (Port.free { p with nctrIn := n } l).1.replay.isEmpty = true := fun h =>
        some (whole.symm.trans (List.isEmpty_iff.mp h))
      refine ⟨_, step.trans (congrArg Host.Outcome.next (congrArg (State.flushPort · d) (if_neg some'))), failed ?_⟩
      refine (State.Fails.of_arg (State.Fails.of_setPort (State.replay_fails (s := lack.setPort d (Port.free { p with nctrIn := n } l).1) hd
        (by rw [State.port_setPort_same hd]; exact up) ?_))).flush d
      rw [State.port_setPort_same hd, Port.free_replays, if_neg (by rw [show List.filter _ _ = _ from whole]; exact Nat.lt_irrefl _)]
      exact many
    · intro bad i mem
      have result (f : LinkWord) (act : State → State) := State.wordEvent_bad (s := lack) hd up bad f act
      have reads : let t := lack.setPort d (Port.control { p with lkerr := satAdd32 p.lkerr 1 } (.nak p.lacc));
          (t.port d).lkerr = satAdd32 p.lkerr 1 ∧ (t.port d).replay = p.replay ∧
          (t.port d).sent = p.sent ++ [{ frame := .nak p.lacc, nctr := p.nctrOut + 1, key := p.key }] ∧ t.mem = s.mem ∧
          t.regs = s.regs ∧ t.eng = s.eng := by
        intro t
        rw [State.port_setPort_same hd]
        exact ⟨rfl, rfl, rfl, rfl, rfl, rfl⟩
      obtain rfl | rfl := by simpa using mem
      · exact ⟨_, result (.ack l) _, reads⟩
      · exact ⟨_, result (.nak l) _, reads⟩
    · intro some late few
      refine ⟨_, (replayTimeout_due up some late).trans (congrArg Host.Outcome.next (State.replay_resends hd up few)), ?_⟩
      rw [State.port_setPort_same hd]
      exact ⟨rfl, ⟨rfl, rfl, rfl⟩, rfl, rfl, rfl, rfl⟩
    · intro some late many
      exact ⟨_, replayTimeout_due up some late, failed (State.replay_fails (s := nat) hd up many).of_arg⟩
    · intro x guy none
      refine ⟨_, (guylineSwitchBack_frees up guy none).trans (congrArg Host.Outcome.next (State.flushPort_empty (by
        rw [State.port_setPort_same hd]; exact empty))), ?_⟩
      rw [State.port_setPort_same hd]
      exact ⟨rfl, up, rfl, rfl, rfl⟩
  · intro s d k hd direct guy empty p e l
    refine ⟨?_, ?_, ?_, ?_⟩
    · intro up last synced room
      exact State.FreePort.transmit ⟨hd, up, room, last, synced, empty⟩
    · exact fun up closed => State.transmit_waits up direct empty closed
    · intro out synced ready room other he emptyE directE syncedE roomE
      refine ⟨_, State.transmit_guyline hd direct guy empty out synced ready room rfl other he emptyE directE syncedE roomE, ?_⟩
      rw [State.port_setPort, if_neg fun h => other h.1.symm, State.port_setPort_same hd, State.port_setPort_same he]
      exact ⟨rfl, rfl, rfl, rfl, rfl, rfl⟩
    · intro out notReady
      have stuck : s.stuck d k = true := by
        unfold State.stuck
        rw [direct]
        refine (if_neg Bool.false_ne_true).trans ?_
        rw [out, guy, notReady]
        rfl
      exact if_pos stuck

end Sys2Proof.Machine
end

section
/-! The states of a port that holds no packet (R125, R127, R131, R339, R340, R347). -/

namespace Sys2Proof.Machine

/-! ## Ports that hold nothing give nothing up -/

/-- A port holds no packet that it sent or is to send. -/
def Port.Holdless (p : Port) : Prop := p.replay = [] ∧ p.waiting = []

/-- No port that is out of use holds a packet. -/
def State.Drained (s : State) : Prop := ∀ e < 13, (s.port e).state.detours = true → (s.port e).Holdless

theorem State.dropHeld_nothing {s : State} {d : Nat} (none : (s.port d).replay = []) (which : Packet → Bool) :
    s.dropHeld d which = s := by
  have same : ({ s.port d with replay := [] } : Port) = s.port d := by rw [← none]
  unfold State.dropHeld
  dsimp only
  rw [none, List.map_nil, same, State.setPort_port]
  rfl

theorem State.clear_waiting {s : State} {d : Nat} (none : (s.port d).waiting = []) :
    s.setPort d { s.port d with waiting := [] } = s := by
  have same : ({ s.port d with waiting := [] } : Port) = s.port d := by rw [← none]
  rw [same, State.setPort_port]

theorem State.dropAll_nothing {s : State} {d : Nat} (empty : (s.port d).Holdless) : s.dropAll d = s := by
  unfold State.dropAll
  dsimp only
  rw [State.clear_waiting empty.2, State.dropHeld_nothing empty.1, empty.2]
  rfl

theorem State.dropWaiting_nothing {s : State} {d : Nat} (none : (s.port d).waiting = []) : s.dropWaiting d = s := by
  unfold State.dropWaiting
  dsimp only
  split
  · rfl
  · rw [none, List.filter_nil, List.filter_nil, State.clear_waiting none]
    rfl

theorem State.resend_nothing {s : State} {d : Nat} (none : (s.port d).replay = []) : s.resend d = s := by
  unfold State.resend
  dsimp only
  split
  · rw [none]; rfl
  · split
    · have left : (if s.holdsPorts then s else s.dropHeld d fun k => !k.fresh) = s := by
        split
        · rfl
        · exact State.dropHeld_nothing none _
      rw [left, none]
      rfl
    · rfl

theorem State.sweepPorts_drained {s : State} (drained : s.Drained) : s.sweepPorts = s := by
  have one (e : Nat) (he : e < 13) : s.dropStuck e = s := by
    unfold State.dropStuck
    split
    · rename_i out
      simp only [Bool.and_eq_true] at out
      exact State.dropAll_nothing (drained e he out.1.1.1)
    · rfl
  unfold State.sweepPorts
  have all (l : List Nat) (below : ∀ e ∈ l, e < 13) : l.foldl (fun s d => s.dropStuck d) s = s := by
    induction l with
    | nil => rfl
    | cons e l ih =>
      rw [List.foldl_cons, one e (below e List.mem_cons_self)]
      exact ih fun x mem => below x (List.mem_cons_of_mem _ mem)
  exact all _ fun e mem => List.mem_range.mp mem

/-- A change of one port that holds nothing leaves the ports drained. -/
theorem State.Drained.setPort {s : State} {d : Nat} (drained : s.Drained) {p : Port} (empty : p.Holdless) :
    (s.setPort d p).Drained := by
  intro e he out
  rw [State.port_setPort] at out ⊢
  split at out
  · rename_i h; rw [if_pos h]; exact empty
  · rename_i h; rw [if_neg h]; exact drained e he out

/-! ## A change of state (R125, R347) -/

theorem State.portState_changes {s : State} {d : Nat} {x : PortState} (differs : (s.port d).state ≠ x) :
    s.portState d x = (s.lanternM 0x25 d (BitVec.ofNat 64 ((s.port d).state.code + 256 * x.code))).setPort d
      { s.port d with state := x, since := s.now } := if_neg differs

theorem State.portState_same {s : State} {d : Nat} {x : PortState} (same : (s.port d).state = x) : s.portState d x = s :=
  if_pos same

theorem State.portState_port {s : State} {d : Nat} (hd : d < 13) {x : PortState} (differs : (s.port d).state ≠ x) :
    (s.portState d x).port d = { s.port d with state := x, since := s.now } := by
  rw [State.portState_changes differs, State.port_setPort_same hd]

theorem State.portState_waiting {s : State} {d : Nat} (hd : d < 13) (x : PortState) :
    ((s.portState d x).port d).waiting = (s.port d).waiting := by
  by_cases same : (s.port d).state = x
  · unfold State.portState
    rw [if_pos same]
  · rw [State.portState_port hd same]

theorem State.Drained.portState {s : State} {d : Nat} (drained : s.Drained) (x : PortState) (empty : (s.port d).Holdless) :
    (s.portState d x).Drained := by
  unfold State.portState
  dsimp only
  split
  · exact drained
  · exact State.Drained.setPort (s := s.lanternM _ _ _) drained empty

/-- A port that leaves UP and holds nothing changes its state alone. -/
theorem State.switchOver_drained {s : State} {d : Nat} (hd : d < 13) (drained : s.Drained) (empty : (s.port d).Holdless)
    {x : PortState} (differs : (s.port d).state ≠ x) : s.switchOver d x = s.portState d x := by
  have port := State.portState_port hd differs
  have empty' : ((s.portState d x).port d).Holdless := by rw [port]; exact empty
  unfold State.switchOver
  rw [State.dropWaiting_nothing empty'.2, State.resend_nothing empty'.1, State.flushPort_empty empty'.2,
    State.sweepPorts_drained (drained.portState x empty)]

/-- Only port `d` differs, which is in state `x`, and a change of its state is one entry of the lantern ring. -/
structure State.Moves (s : State) (d : Nat) (x : PortState) (t : State) : Prop where
  state : (t.port d).state = x
  loc : t.mem.loc = s.mem.loc
  dram : t.mem.dram = s.mem.dram
  regs : t.regs = s.regs
  eng : t.eng = s.eng
  others : ∀ e < 13, e ≠ d → t.port e = s.port e
  same : x = (s.port d).state → t.mem = s.mem
  entry : x ≠ (s.port d).state → t.ctl = { s.ctl with lnwrm := s.ctl.lnwrm + 1 } ∧ (s.mem.lanternNow.2 = 0 →
    (vget t.mem.lanternM s.ctl.lnwrm.toNat (0, 0)).2.toNat = (s.port d).state.code + 256 * x.code ∧
    (vget t.mem.lanternM s.ctl.lnwrm.toNat (0, 0)).1.toNat =
      s.ctl.cyccnt.toNat % 2 ^ 48 + 0x25 * 2 ^ 48 + d * 2 ^ 56)

/-- A port that keeps its state. -/
theorem State.Moves.stays {s : State} {d : Nat} (hd : d < 13) (a : EvArg) {p : Port} (state : p.state = (s.port d).state) :
    s.Moves d (s.port d).state (({ s with arg := a } : State).setPort d p) where
  state := by rw [State.port_setPort_same hd]; exact state
  loc := rfl
  dram := rfl
  regs := rfl
  eng := rfl
  others e _ other := by rw [State.port_setPort, if_neg fun h => other h.1]; rfl
  same _ := rfl
  entry h := absurd rfl h

theorem PortState.code_le (x : PortState) : x.code ≤ 5 := by cases x <;> decide

/-- A port that changes its state. -/
theorem State.Moves.changes {s : State} {d : Nat} (hd : d < 13) (a : EvArg) {p : Port} (state : p.state = (s.port d).state)
    {x : PortState} (differs : (s.port d).state ≠ x) :
    s.Moves d x ((({ s with arg := a } : State).setPort d p).portState d x) := by
  have port := State.port_setPort_same (s := { s with arg := a }) hd p
  rw [State.portState_changes (by rw [port, state]; exact differs), port, state]
  refine ⟨?_, rfl, rfl, rfl, rfl, fun e _ other => ?_, fun h => absurd h.symm differs, fun _ => ⟨rfl, fun first => ?_⟩⟩
  · rw [State.port_setPort_same hd]
  · rw [State.port_setPort, if_neg fun h => other h.1]
    show (({ s with arg := a } : State).setPort d p).port e = s.port e
    rw [State.port_setPort, if_neg fun h => other h.1]
    rfl
  · have written : vget (State.setPort (State.lanternM (({ s with arg := a } : State).setPort d p) 0x25 d
        (BitVec.ofNat 64 ((s.port d).state.code + 256 * x.code))) d { p with state := x, since := s.now }).mem.lanternM
        s.ctl.lnwrm.toNat (0, 0) = (lanternWord s.ctl.cyccnt 0x25 d, BitVec.ofNat 64 ((s.port d).state.code + 256 * x.code)) := by
      show vget (lanternOrder _ _ s.mem.lanternNow.2) _ _ = _
      rw [first]
      exact vget_vset_same s.ctl.lnwrm.isLt
    have small := PortState.code_le (s.port d).state
    have small' := PortState.code_le x
    constructor
    · refine (congrArg (fun e : W64 × W64 => e.2.toNat) written).trans ?_
      rw [BitVec.toNat_ofNat, Nat.mod_eq_of_lt (by omega)]
    · refine (congrArg (fun e : W64 × W64 => e.1.toNat) written).trans ?_
      unfold lanternWord
      rw [BitVec.toNat_ofNat]
      omega

/-- Another change of the port that keeps its state. -/
theorem State.Moves.setPort {s t : State} {d : Nat} (hd : d < 13) {x : PortState} (h : s.Moves d x t) {p : Port}
    (state : p.state = x) : s.Moves d x (t.setPort d p) where
  state := by rw [State.port_setPort_same hd]; exact state
  loc := h.loc
  dram := h.dram
  regs := h.regs
  eng := h.eng
  others e he other := by rw [State.port_setPort, if_neg fun h => other h.1]; exact h.others e he other
  same := h.same
  entry := h.entry

section
variable {s : State} {d : Nat} (hd : d < 13) (a : EvArg) {x : PortState}
include hd

theorem State.Moves.plain (differs : (s.port d).state ≠ x) : s.Moves d x (({ s with arg := a } : State).portState d x) := by
  have moves := State.Moves.changes hd a (p := s.port d) rfl differs
  rwa [show ({ s with arg := a } : State).setPort d (s.port d) = { s with arg := a } from State.setPort_port _ d] at moves

theorem State.portState_since (differs : (s.port d).state ≠ x) :
    ((({ s with arg := a } : State).portState d x).port d).since = s.now :=
  congrArg Port.since (State.portState_port (s := { s with arg := a }) hd differs)

/-- A port that leaves UP while it holds nothing changes its state, now. -/
theorem State.leaves_drained (drained : s.Drained) (empty : (s.port d).Holdless) (differs : (s.port d).state ≠ x) :
    s.Moves d x (({ s with arg := a } : State).switchOver d x) ∧
      ((({ s with arg := a } : State).switchOver d x).port d).since = s.now := by
  rw [State.switchOver_drained (s := { s with arg := a }) hd drained empty differs]
  exact ⟨State.Moves.plain hd a differs, State.portState_since hd a differs⟩

end

/-! ## Training and rekeys (R127, R340, R366) -/

/-- A port whose training completes: fresh keys and counts. -/
def Port.trained (p : Port) (now : Nat) : Port :=
  { p with
    nctrOut := 0, nctrIn := 0, detourOut := 0, detourIn := 0, key := p.key + 1, detourKey := p.detourKey + 1,
    rekey := false, detourRekey := false, replays := 0, lastAck := now }

/-- The state in which a trained port is UP and its ready bit set. -/
def State.trainedUp (s : State) (d : Nat) : State :=
  ((({ s with arg := .nat d } : State).setPort d ((s.port d).trained s.now)).portState d .up).setReady
    (1 + s.ctl.diecoord.toNat % 8) d

section
variable {s : State} {d : Nat} (hd : d < 13) (train : (s.port d).state = .train)
include hd train

theorem State.trainedUp_port : (s.trainedUp d).port d = { (s.port d).trained s.now with state := .up, since := s.now } := by
  have own := State.port_setPort_same (s := { s with arg := .nat d }) hd ((s.port d).trained s.now)
  refine (State.portState_port (s := ({ s with arg := .nat d } : State).setPort d ((s.port d).trained s.now)) hd ?_).trans ?_
  · rw [own]; exact train ▸ (by decide : PortState.train ≠ .up)
  · rw [own]; rfl

theorem State.trainedUp_moves : s.Moves d .up (s.trainedUp d) := by
  obtain ⟨state, loc, dram, regs, eng, others, same, entry⟩ :=
    State.Moves.changes (s := s) hd (.nat d) (p := (s.port d).trained s.now) rfl (x := .up)
      (train ▸ (by decide : PortState.train ≠ .up))
  exact ⟨state, loc, dram, regs, eng, others, same, entry⟩

omit train in
theorem State.trainedUp_status :
    (vget (s.trainedUp d).pkg.status (1 + s.ctl.diecoord.toNat % 8) 0).getLsbD d = true := by
  unfold State.trainedUp State.setReady
  dsimp only
  rw [vget_vset_same (by omega), BitVec.getLsbD_or, BitVec.getLsbD_ofNat, Nat.testBit_two_pow_self, decide_eq_true (by omega)]
  simp

/-- A port that holds nothing has nothing to send again. -/
theorem trainingComplete_done (empty : (s.port d).Holdless) :
    execTrainingComplete { s with arg := .nat d } = .next
      (if (s.port d).resync then (s.trainedUp d).setPort d
        { ((s.trainedUp d).port d).control (.resync (s.port d).lsent (s.port d).lacc) with owes := false }
       else s.trainedUp d) := by
  have empty' : ((s.trainedUp d).port d).Holdless := by rw [State.trainedUp_port hd train]; exact empty
  have quiet : (if (s.port d).guyLast.isNone && !(s.port d).owes then ((s.trainedUp d).resend d).flushPort d else s.trainedUp d) =
      s.trainedUp d := by
    split
    · rw [State.resend_nothing empty'.1, State.flushPort_empty empty'.2]
    · rfl
  unfold execTrainingComplete
  refine (if_pos train).trans (congrArg Host.Outcome.next ?_)
  by_cases resync : (s.port d).resync = true
  · exact (if_pos resync).trans (if_pos resync).symm
  · exact ((if_neg resync).trans quiet).trans (if_neg resync).symm

end

/-- A rekey that completes: the port is UP under a new key. -/
theorem rekeyComplete_up {s : State} {d : Nat} (hd : d < 13) (rekey : (s.port d).rekey = true)
    (state : (s.port d).state = .up ∨ (s.port d).state = .stopped) (empty : (s.port d).Holdless) :
    execRekeyComplete { s with arg := .nat d } = .next ((({ s with arg := .nat d } : State).setPort d { s.port d with
      nctrOut := 0, nctrIn := 0, key := (s.port d).key + 1, rekey := false }).portState d .up) := by
  have own := State.port_setPort_same (s := { s with arg := .nat d }) hd { s.port d with
      nctrOut := 0, nctrIn := 0, key := (s.port d).key + 1, rekey := false }
  unfold execRekeyComplete
  refine (if_pos (show (s.port d).rekey = true ∧ _ from ⟨rekey, state⟩)).trans
    (congrArg Host.Outcome.next (State.flushPort_empty ?_))
  refine (State.portState_waiting hd _).trans ?_
  exact (congrArg Port.waiting own).trans empty.2

/-! ## Parking (R337, R339) -/

/-- What parking leaves of a port in which it was. -/
theorem State.park_port {s : State} {d : Nat} (hd : d < 13) (free : (s.port d).state ≠ .parked) :
    (s.park d).port d = { s.port d with
      before := (s.port d).state, guyBefore := s.guyRecord d, asked := false, state := .parked, since := s.now } := by
  unfold State.park
  rw [State.portState_port hd (by rw [State.port_setPort_same hd]; exact free), State.port_setPort_same hd]
  rfl

theorem State.Drained.park {s : State} {d : Nat} (hd : d < 13) (drained : s.Drained) (empty : (s.port d).Holdless) :
    (s.park d).Drained := by
  unfold State.park
  refine (drained.setPort ?_).portState _ ?_
  · exact empty
  · rw [State.port_setPort_same hd]; exact empty

theorem State.setPort_holdless {s : State} {d : Nat} (hd : d < 13) {p : Port} (empty : p.Holdless) :
    ((s.setPort d p).port d).Holdless := by rw [State.port_setPort_same hd]; exact empty

theorem State.setPort_state {s : State} {d : Nat} (hd : d < 13) {p : Port} {x : PortState} (state : p.state ≠ x) :
    ((s.setPort d p).port d).state ≠ x := by rw [State.port_setPort_same hd]; exact state

/-- Ports that hold nothing give nothing up when one parks. -/
theorem State.park_settles {s : State} {d : Nat} (hd : d < 13) (drained : s.Drained) (empty : (s.port d).Holdless)
    (free : (s.port d).state ≠ .parked) : ((s.park d).dropWaiting d).sweepPorts = s.park d := by
  rw [State.dropWaiting_nothing, State.sweepPorts_drained (drained.park hd empty)]
  rw [State.park_port hd free]
  exact empty.2

/-- A port that parks, after a change of its own, and what follows. -/
theorem State.Moves.parks {s : State} {d : Nat} (hd : d < 13) (a : EvArg) {p : Port} (state : p.state = (s.port d).state)
    (free : (s.port d).state ≠ .parked) : s.Moves d .parked ((({ s with arg := a } : State).setPort d p).park d) := by
  unfold State.park
  rw [State.setPort_setPort]
  refine State.Moves.changes hd a ?_ free
  rw [State.port_setPort_same hd]
  exact state

/-- A port answers a PARK over its own link (R339). -/
theorem park_answers {s : State} {d n : Nat} {a b c : W32} (hd : d < 13) (drained : s.Drained) (empty : (s.port d).Holdless)
    (fresh : (s.port d).nctrIn < n) (carries : (s.port d).state = .up ∨ (s.port d).state = .stopped) :
    let here : State := { s with arg := .park d d none a b c n true }
    execPark here = .next ((here.setPort d (Port.control { s.port d with nctrIn := n }
      (.parkAck (s.port d).lsent (s.port d).lackd (s.port d).lacc))).park d) := by
  intro here
  have free : (s.port d).state ≠ .parked := by
    obtain h | h := carries <;> rw [h] <;> decide
  have own := State.port_setPort_same (s := here) hd { s.port d with nctrIn := n }
  have word (w : LinkWord) : (here.setPort d { s.port d with nctrIn := n }).sendWord d w =
      here.setPort d (Port.control { s.port d with nctrIn := n } w.frame) := by
    unfold State.sendWord
    rw [own]
    refine (if_pos ?_).trans (State.setPort_setPort _ _ _ _)
    unfold Port.carries
    dsimp only
    obtain h | h := carries <;> rw [h]
  unfold execPark
  refine (if_pos (show d < 13 ∧ _ from ⟨hd, .inr free⟩)).trans ?_
  refine (State.wordEvent_good (s := here) rfl fresh _ _).trans (congrArg Host.Outcome.next ?_)
  dsimp only
  rw [show here.port d = s.port d from rfl, own]
  refine (if_neg free).trans ?_
  rw [word]
  exact State.park_settles (s := here.setPort d _) hd (State.Drained.setPort (s := here) drained empty)
    (State.setPort_holdless hd empty) (State.setPort_state hd free)

theorem Port.free_nothing {p : Port} (none : p.replay = []) (l : W32) :
    (p.free l).1 = p := by
  unfold Port.free
  rw [none]
  show ({ p with replay := [] } : Port) = p
  rw [← none]

/-- The answer to this end's PARK on its own link parks the port (R339). -/
theorem parkack_parks {s : State} {d n : Nat} {a b c : W32} (hd : d < 13) (drained : s.Drained) (empty : (s.port d).Holdless)
    (free : (s.port d).state ≠ .parked) (fresh : (s.port d).nctrIn < n) (asked : (s.port d).asked = true) :
    let here : State := { s with arg := .park d d none a b c n true }
    execParkack here = .next ((here.setPort d { s.port d with nctrIn := n }).park d) := by
  intro here
  have own := State.port_setPort_same (s := here) hd { s.port d with nctrIn := n }
  unfold execParkack
  refine (if_pos (show d < 13 ∧ _ from ⟨hd, .inr asked⟩)).trans ?_
  refine (State.wordEvent_good (s := here) rfl fresh _ _).trans (congrArg Host.Outcome.next ?_)
  dsimp only
  rw [show here.port d = s.port d from rfl, own]
  refine (if_pos asked).trans ?_
  rw [Port.free_nothing (p := { s.port d with nctrIn := n }) empty.1, State.setPort_setPort]
  have settles := State.park_settles (s := here.setPort d { s.port d with nctrIn := n }) hd
    (State.Drained.setPort (s := here) drained empty) (State.setPort_holdless hd empty)
    (State.setPort_state hd free)
  rwa [State.dropWaiting_nothing (by rw [State.park_port hd (by rw [own]; exact free), own]; exact empty.2)] at settles

/-! ## Asking a port to park (R339) -/

theorem State.askPark_own {s : State} {d : Nat} (hd : d < 13) (carries : (s.port d).state = .up ∨ (s.port d).state = .stopped) :
    s.askPark d = s.setPort d (Port.control { s.port d with asked := true, guyBefore := s.guyUsed d } .park) := by
  have free : (s.port d).state ≠ .parked := by
    obtain h | h := carries <;> rw [h] <;> decide
  unfold State.askPark
  refine (if_neg free).trans ((if_pos ?_).trans ?_)
  · obtain h | h := carries
    · exact .inl h
    · exact .inr (.inl h)
  · unfold State.sendWord
    rw [State.port_setPort_same hd]
    refine (if_pos ?_).trans (State.setPort_setPort _ _ _ _)
    unfold Port.carries
    dsimp only
    obtain h | h := carries <;> rw [h]

section
variable {s : State} {d : Nat} (up : (s.port d).state ≠ .up) (stopped : (s.port d).state ≠ .stopped)
  (free : (s.port d).state ≠ .parked)
include up stopped free

theorem State.askPark_alone (lost : s.guyReady d = false) : s.askPark d = s.park d := by
  unfold State.askPark
  refine (if_neg free).trans (if_neg ?_)
  rintro (h | h | h)
  · exact up h
  · exact stopped h
  · exact absurd (h.symm.trans lost) (by decide)

theorem Port.carries_out {p : Port} (same : p.state = (s.port d).state) : p.carries = false := by
  unfold Port.carries
  rw [same]
  cases state : (s.port d).state with
  | up => exact absurd state up
  | stopped => exact absurd state stopped
  | parked => exact absurd state free
  | _ => rfl

end

theorem State.guyReady_up {s : State} {d : Nat} (ready : s.guyReady d = true) :
    (s.port ((s.port d).guydim.toNat % 16)).state = .up := by
  unfold State.guyReady at ready
  simp only [Bool.and_eq_true, decide_eq_true_eq] at ready
  exact ready.1.1.2

/-- A port out of use sends its word over the guyline (R131). -/
theorem State.sendWord_guyline {s : State} {d v : Nat} (out : (s.port d).carries = false) (ready : s.guyReady d = true)
    (dim : (s.port d).guydim.toNat % 16 = v) (w : LinkWord) :
    s.sendWord d w = s.setPort v ((s.port v).control (.guy d v 0 w)) := by
  unfold State.sendWord
  refine (if_neg (by rw [out]; decide)).trans ((if_pos ready).trans ?_)
  dsimp only
  rw [dim]

/-- Whether a guyline is ready is a matter of its port's record and of the state of its first link. -/
theorem State.guyReady_congr {s t : State} {d v : Nat} (dim : (s.port d).guydim.toNat % 16 = v)
    (guydim : (t.port d).guydim = (s.port d).guydim) (far : (t.port d).farUp = (s.port d).farUp)
    (count : (t.port d).detourOut = (s.port d).detourOut) (via : (t.port v).state = (s.port v).state) :
    t.guyReady d = s.guyReady d := by
  unfold State.guyReady
  dsimp only
  rw [guydim, dim, far, count, via]

theorem State.port_setPort_other {s : State} {d e : Nat} (other : e ≠ d) (p : Port) : (s.setPort d p).port e = s.port e := by
  rw [State.port_setPort, if_neg fun h => other h.1]

theorem State.Moves.park {s : State} {d : Nat} (hd : d < 13) (free : (s.port d).state ≠ .parked) :
    s.Moves d .parked (s.park d) := by
  have moves := State.Moves.parks (s := s) hd s.arg (p := s.port d) rfl free
  rwa [show ({ s with arg := s.arg } : State).setPort d (s.port d) = s from State.setPort_port s d] at moves

/-- A change of a port that is UP leaves the ports drained, whatever it holds. -/
theorem State.Drained.setPort_up {s : State} {d : Nat} (drained : s.Drained) {p : Port} (up : p.state = .up) :
    (s.setPort d p).Drained := by
  intro e he out
  rw [State.port_setPort] at out ⊢
  split at out
  · rw [up] at out; exact absurd out (by decide)
  · rename_i h; rw [if_neg h]; exact drained e he out

section
variable {s : State} {d v : Nat} (hd : d < 13) (hv : v < 13) (dim : (s.port d).guydim.toNat % 16 = v)
  (up : (s.port d).state ≠ .up) (stopped : (s.port d).state ≠ .stopped) (free : (s.port d).state ≠ .parked)
  (ready : s.guyReady d = true)
include dim up ready

omit up in
theorem State.guyline_up : (s.port v).state = .up := dim ▸ State.guyReady_up ready

theorem State.guyline_other : v ≠ d := fun h => up (h ▸ State.guyline_up dim ready)

include hd hv stopped free

omit hv in
/-- A port out of use is asked to park over its guyline (R339). -/
theorem State.askPark_guyline :
    s.askPark d = (s.setPort d { s.port d with asked := true, guyBefore := s.guyUsed d }).setPort v
      ((s.port v).control (.guy d v 0 .park)) := by
  have other := State.guyline_other dim up ready
  have own := State.port_setPort_same (s := s) hd { s.port d with asked := true, guyBefore := s.guyUsed d }
  have via := State.port_setPort_other (s := s) other { s.port d with asked := true, guyBefore := s.guyUsed d }
  unfold State.askPark
  refine (if_neg free).trans ((if_pos (.inr (.inr ready))).trans ?_)
  refine (State.sendWord_guyline (v := v) (by rw [own]; exact Port.carries_out up stopped free rfl) ?_ ?_ .park).trans ?_
  · exact (State.guyReady_congr dim (by rw [own]) (by rw [own]) (by rw [own]) (by rw [via])).trans ready
  · rw [own]; exact dim
  · rw [via]

/-- A PARK that comes over the guyline is answered there, and the port parks (R339). -/
theorem park_round {n : Nat} {a b c : W32} (drained : s.Drained) (empty : (s.port d).Holdless) (fresh : (s.port v).nctrIn < n) :
    let here : State := { s with arg := .park d v (some (v, 2)) a b c n true }
    execPark here = .next ((here.setPort v (Port.control { s.port v with nctrIn := n }
      (.guy d v 0 (.parkAck (s.port d).lsent (s.port d).lackd (s.port d).lacc)))).park d) := by
  intro here
  have other := State.guyline_other dim up ready
  have upV := State.guyline_up dim ready
  have own := State.port_setPort_other (s := here) (Ne.symm other) { s.port v with nctrIn := n }
  have via := State.port_setPort_same (s := here) hv { s.port v with nctrIn := n }
  have word (w : LinkWord) : (here.setPort v { s.port v with nctrIn := n }).sendWord d w =
      here.setPort v (Port.control { s.port v with nctrIn := n } (.guy d v 0 w)) := by
    refine (State.sendWord_guyline (v := v) (by rw [own]; exact Port.carries_out up stopped free rfl) ?_ ?_ w).trans ?_
    · exact (State.guyReady_congr (s := s) dim (by rw [own]; rfl) (by rw [own]; rfl) (by rw [own]; rfl) (by rw [via])).trans ready
    · rw [own]; exact dim
    · rw [via, State.setPort_setPort]
  unfold execPark
  refine (if_pos (show d < 13 ∧ _ from ⟨hd, .inl rfl⟩)).trans ?_
  unfold State.wordEvent
  rw [State.checkFrame_ok (s := here) fresh]
  refine congrArg Host.Outcome.next ((if_neg (by decide)).trans ?_)
  dsimp only
  rw [show here.port v = s.port v from rfl, own]
  refine (if_neg free).trans ?_
  rw [show here.port d = s.port d from rfl, word]
  have own' := State.port_setPort_other (s := here) (Ne.symm other) (Port.control { s.port v with nctrIn := n }
      (.guy d v 0 (.parkAck (s.port d).lsent (s.port d).lackd (s.port d).lacc)))
  exact State.park_settles hd (State.Drained.setPort_up (s := here) drained upV) (by rw [own']; exact empty)
    (by rw [own']; exact free)

omit hv stopped in
/-- The answer over the guyline parks the port (R339). -/
theorem parkack_round {n : Nat} {a b c : W32} (drained : s.Drained) (empty : (s.port d).Holdless)
    (fresh : (s.port v).nctrIn < n) (asked : (s.port d).asked = true) :
    let here : State := { s with arg := .park d v (some (v, 2)) a b c n true }
    execParkack here = .next ((here.setPort v { s.port v with nctrIn := n }).park d) := by
  intro here
  have other := State.guyline_other dim up ready
  have upV := State.guyline_up dim ready
  have own := State.port_setPort_other (s := here) (Ne.symm other) { s.port v with nctrIn := n }
  unfold execParkack
  refine (if_pos (show d < 13 ∧ _ from ⟨hd, .inl rfl⟩)).trans ?_
  unfold State.wordEvent
  rw [State.checkFrame_ok (s := here) fresh]
  refine congrArg Host.Outcome.next ((if_neg (by decide)).trans ?_)
  dsimp only
  rw [show here.port v = s.port v from rfl, own]
  refine (if_pos asked).trans ?_
  have same : (here.setPort v { s.port v with nctrIn := n }).setPort d (Port.free (here.port d) c).1 =
      here.setPort v { s.port v with nctrIn := n } := by
    rw [Port.free_nothing (p := here.port d) empty.1, ← own, State.setPort_port]
  rw [same]
  have settles := State.park_settles (s := here.setPort v { s.port v with nctrIn := n }) hd
    (State.Drained.setPort_up (s := here) drained upV) (by rw [own]; exact empty) (by rw [own]; exact free)
  rwa [State.dropWaiting_nothing (by rw [State.park_port hd (by rw [own]; exact free), own]; exact empty.2)] at settles

end


/-- Settles O48: each event changes the state of its port alone, which holds nothing, or answers over the guyline. -/
theorem portStates : Obligations.PortStates := by
  unfold Obligations.PortStates
  intro s d n a b c hd replay waiting drained p nat fails counts v round only sends
  have empty : p.Holdless := ⟨replay, waiting⟩
  have moved {t : State} {x : PortState} (h : s.Moves d x t) : only t x :=
    ⟨h.state, h.loc, h.dram, h.regs, h.eng, h.others, h.same, h.entry⟩
  have ne {x y : PortState} (state : p.state = x) (differs : x ≠ y) : p.state ≠ y := state ▸ differs
  refine ⟨?_, ?_, ?_, ?_, ?_, ?_, ?_, ?_, ?_, ?_, ?_, ?_, ?_, ?_, ?_⟩
  · intro verified down
    have differs := ne down (by decide : PortState.down ≠ .train)
    have event : execManagementEnable nat = .next (nat.portState d .train) :=
      congrArg Host.Outcome.next (if_pos ⟨verified, hd, down⟩)
    exact ⟨_, event, moved (State.Moves.plain hd _ differs), State.portState_since hd _ differs⟩
  · intro verified differs
    have event : execManagementDisable nat = .next (nat.switchOver d .down) :=
      congrArg Host.Outcome.next (if_pos ⟨verified, hd, differs⟩)
    obtain ⟨moves, since⟩ := State.leaves_drained hd (.nat d) drained empty differs
    exact ⟨_, event, moved moves, since⟩
  · intro train
    have done := trainingComplete_done hd train empty
    have moves := State.trainedUp_moves hd train
    have port := State.trainedUp_port hd train
    have status := State.trainedUp_status (s := s) hd
    by_cases resync : p.resync = true
    · refine ⟨_, done.trans (congrArg Host.Outcome.next (if_pos resync)), moved (moves.setPort hd ?_), ?_⟩
      · rw [port]; rfl
      · rw [State.port_setPort_same hd, port]
        exact ⟨rfl, rfl, rfl, rfl, fun no => absurd (resync.symm.trans no) (by decide),
          fun _ => (congrArg Port.sent (State.port_setPort_same hd _)).trans rfl, status⟩
    · refine ⟨_, done.trans (congrArg Host.Outcome.next (if_neg resync)), moved moves, ?_⟩
      rw [port]
      exact ⟨rfl, rfl, rfl, rfl, fun _ => ⟨rfl, rfl⟩, fun yes => absurd yes resync, status⟩
  · intro train late
    have event : execTrainTimeout nat = .next (nat.switchOver d .failed) :=
      congrArg Host.Outcome.next (if_pos ⟨train, late⟩)
    obtain ⟨moves, since⟩ := State.leaves_drained hd (.nat d) drained empty (ne train (by decide : PortState.train ≠ .failed))
    exact ⟨_, event, moved moves, since⟩
  · intro train
    have event : execTrainTimeout fails = .next (fails.switchOver d .failed) := congrArg Host.Outcome.next (if_pos train)
    obtain ⟨moves, since⟩ := State.leaves_drained hd (.two d 1) drained empty (ne train (by decide : PortState.train ≠ .failed))
    exact ⟨_, event, moved moves, since⟩
  · intro failed late
    have differs := ne failed (by decide : PortState.failed ≠ .train)
    have event : execFailedRetrain nat = .next (nat.portState d .train) :=
      congrArg Host.Outcome.next (if_pos ⟨failed, late⟩)
    exact ⟨_, event, moved (State.Moves.plain hd _ differs), State.portState_since hd _ differs⟩
  · intro live
    have differs : p.state ≠ .failed := by obtain h | h | h := live <;> rw [h] <;> decide
    have event : execLossOfSignal nat = .next (nat.switchOver d .failed) := if_pos live
    obtain ⟨moves, since⟩ := State.leaves_drained hd (.nat d) drained empty differs
    exact ⟨_, event, moved moves, since⟩
  · intro up due fresh
    have event : execRekeyStart nat = .next (nat.setPort d { p.control .rekey with rekey := true }) :=
      congrArg Host.Outcome.next (if_pos ⟨up, due, fresh⟩)
    have stays : s.Moves d p.state _ := State.Moves.stays hd (.nat d) (p := { p.control .rekey with rekey := true }) rfl
    rw [up] at stays
    exact ⟨_, event, moved stays, congrArg Port.rekey (State.port_setPort_same hd _),
      congrArg Port.sent (State.port_setPort_same hd _)⟩
  · intro up spent
    have event : execNonceLimit nat = .next (nat.switchOver d .stopped) := congrArg Host.Outcome.next (if_pos ⟨up, spent⟩)
    exact ⟨_, event, moved (State.leaves_drained hd (.nat d) drained empty (ne up (by decide : PortState.up ≠ .stopped))).1⟩
  · intro rekey state
    have done := rekeyComplete_up hd rekey state empty
    have own := State.port_setPort_same (s := nat) hd { p with nctrOut := 0, nctrIn := 0, key := p.key + 1, rekey := false }
    obtain up | stopped := state
    · have stays : s.Moves d p.state _ := State.Moves.stays hd (.nat d)
        (p := { p with nctrOut := 0, nctrIn := 0, key := p.key + 1, rekey := false }) rfl
      rw [State.portState_same (by rw [own]; exact up)] at done
      refine ⟨_, done, moved (up ▸ stays), ?_⟩
      rw [own]
      exact ⟨rfl, rfl, rfl, rfl⟩
    · have differs := ne stopped (by decide : PortState.stopped ≠ .up)
      refine ⟨_, done, moved (State.Moves.changes hd (.nat d) (p := { p with
        nctrOut := 0, nctrIn := 0, key := p.key + 1, rekey := false }) rfl differs), ?_⟩
      rw [State.portState_port hd (by rw [own]; exact differs), own]
      exact ⟨rfl, rfl, rfl, rfl⟩
  · intro free fresh carries
    have own (q : Port) := State.port_setPort_same (s := counts) hd q
    refine ⟨_, park_answers hd drained empty fresh carries, moved (State.Moves.parks hd _ ?_ free), ?_⟩
    · rfl
    · have port := State.park_port (s := counts.setPort d (Port.control { p with nctrIn := n }
        (.parkAck p.lsent p.lackd p.lacc))) hd (State.setPort_state hd free)
      rw [own] at port
      exact ⟨congrArg Port.before port, congrArg Port.sent port⟩
  · intro free fresh asked
    refine ⟨_, parkack_parks hd drained empty free fresh asked, moved (State.Moves.parks hd _ ?_ free), ?_⟩
    · rfl
    · have port := State.park_port (s := counts.setPort d { p with nctrIn := n }) hd (State.setPort_state hd free)
      rw [State.port_setPort_same hd] at port
      exact ⟨congrArg Port.before port, congrArg Port.asked port, by rw [port]⟩
  · intro carries t
    have asks : t = _ := State.askPark_own hd carries
    have stays : s.Moves d p.state _ := State.Moves.stays hd s.arg
      (p := Port.control { p with asked := true, guyBefore := s.guyUsed d } .park) rfl
    have port : t.port d = Port.control { p with asked := true, guyBefore := s.guyUsed d } .park := by
      rw [asks]; exact State.port_setPort_same hd _
    exact ⟨moved (asks ▸ stays), congrArg Port.asked port, congrArg Port.sent port⟩
  · intro up stopped free lost
    rw [State.askPark_alone up stopped free lost]
    exact ⟨moved (State.Moves.park hd free), congrArg Port.before (State.park_port hd free)⟩
  · intro up stopped free ready hv q goes
    have other := State.guyline_other (s := s) (d := d) (v := v) rfl up ready
    have upV : q.state = .up := State.guyline_up (s := s) (d := d) (v := v) rfl ready
    have asks := State.askPark_guyline (v := v) hd rfl up stopped free ready
    have out : p.state.detours = true := by
      cases state : p.state with
      | up => exact absurd state up
      | parked => exact absurd state free
      | _ => rfl
    refine ⟨?_, ?_, ?_, fun fresh => ⟨?_, fun asked => ?_⟩⟩
    · rw [asks]
      refine ⟨congrArg Port.sent (State.port_setPort_same hv _), ?_, rfl, rfl, rfl, rfl⟩
      exact (congrArg Port.state (State.port_setPort_same hv _)).trans upV
    · rw [asks, State.port_setPort_other (Ne.symm other), State.port_setPort_same hd]
    · rw [asks, State.port_setPort_other (Ne.symm other), State.port_setPort_same hd]
    · let w : State := round.setPort v (Port.control { q with nctrIn := n } (.guy d v 0 (.parkAck p.lsent p.lackd p.lacc)))
      have own : w.port d = p := State.port_setPort_other (Ne.symm other) _
      have via : w.port v = _ := State.port_setPort_same hv _
      have free' : (w.port d).state ≠ .parked := own ▸ free
      have there := (State.Moves.park hd free').others v hv other
      have port := State.park_port hd free'
      have record : w.guyRecord d = true := by
        have ready' : w.guyReady d = true :=
          (State.guyReady_congr (s := s) rfl (by rw [own]) (by rw [own]) (by rw [own]) (by rw [via]; rfl)).trans ready
        unfold State.guyRecord
        dsimp only
        rw [own, out, ready']
        rfl
      refine ⟨_, park_round hd hv rfl up stopped free ready drained empty fresh, ⟨?_, ?_, ?_, ?_, ?_, ?_⟩, ?_, ?_, ?_⟩
      · exact (congrArg Port.sent (there.trans via)).trans rfl
      · exact (congrArg Port.state (there.trans via)).trans upV
      · exact (State.Moves.park hd free').loc
      · exact (State.Moves.park hd free').dram
      · exact (State.Moves.park hd free').regs
      · exact (State.Moves.park hd free').eng
      · exact congrArg Port.state port
      · exact (congrArg Port.before port).trans (congrArg Port.state own)
      · exact (congrArg Port.guyBefore port).trans record
    · let w : State := { s with arg := .park d v (some (v, 2)) a b c n true : State }.setPort v { q with nctrIn := n }
      have own : w.port d = p := State.port_setPort_other (Ne.symm other) _
      have via : w.port v = _ := State.port_setPort_same hv _
      have free' : (w.port d).state ≠ .parked := own ▸ free
      have moves := State.Moves.park hd free'
      have port := State.park_port hd free'
      refine ⟨_, parkack_round hd rfl up free ready drained empty fresh asked, congrArg Port.state port,
        (congrArg Port.before port).trans (congrArg Port.state own), ?_, moves.regs, moves.eng⟩
      exact (congrArg Port.sent ((moves.others v hv other).trans via)).trans rfl

end Sys2Proof.Machine
end

section
/-! Entries of the host queues, tail writes and resets of tenants (R302 to R305, R311, R350, R361 to R365). -/

namespace Sys2Proof.Machine

section
variable {s : State} {t q op : Nat} (arg : s.arg = .nat q) (ready : s.EntryReady t q op) {mine : Nat → Bool}
  {act : Nat → Nat → W32 → List Byte → State → Option State} (of : mine op = true)
include arg ready of

/-- An entry that is read, numbered and within the limits is carried out, or rejected by what carries it out (R303, R362). -/
theorem State.queueEvent_ready :
    s.queueEvent mine act = match act t q ((s.pkg.queue q).qacc + 1) (s.entryAt q) (s.tookEntry q) with
      | some w => .next w
      | none => .next ((s.tookEntry q).rejectEntry t q ((s.pkg.queue q).qacc + 1)) := by
  obtain ⟨-, owner, entry, code, ok, number⟩ := ready
  have took : (s.setQueue q { s.pkg.queue q with qhead := (s.pkg.queue q).qhead + 1 }).setQueue q
      { s.pkg.queue q with qhead := (s.pkg.queue q).qhead + 1, qacc := (s.pkg.queue q).qacc + 1 } = s.tookEntry q := by
    unfold State.setQueue State.tookEntry
    dsimp only
    rw [vset_vset]
  unfold State.queueEvent
  rw [arg]
  dsimp only
  rw [owner]
  dsimp only
  refine (if_neg ?_).trans ((if_neg (not_not_intro number)).trans ?_)
  · rintro (h | h)
    · exact absurd (entry.symm.trans h) (by decide)
    · rw [code] at h; exact absurd (of.symm.trans h) (by decide)
  · rw [if_pos ok, number, took] <;> rfl

theorem State.queueEvent_accepts {w : State}
    (acts : act t q ((s.pkg.queue q).qacc + 1) (s.entryAt q) (s.tookEntry q) = some w) : s.queueEvent mine act = .next w := by
  rw [State.queueEvent_ready arg ready of, acts]

theorem State.queueEvent_rejects
    (acts : act t q ((s.pkg.queue q).qacc + 1) (s.entryAt q) (s.tookEntry q) = none) :
    s.queueEvent mine act = .next ((s.tookEntry q).rejectEntry t q ((s.pkg.queue q).qacc + 1)) := by
  rw [State.queueEvent_ready arg ready of, acts]

end

theorem State.tookEntry_queue {s : State} {q : Nat} (hq : q < 64) : (s.tookEntry q).pkg.queue q =
    { s.pkg.queue q with qhead := (s.pkg.queue q).qhead + 1, qacc := (s.pkg.queue q).qacc + 1 } := vget_vset_same hq

theorem State.openEntry_queue {s : State} {q : Nat} (hq : q < 64) (seq : W32) : (s.openEntry q seq).pkg.queue q =
    { s.pkg.queue q with live := (s.pkg.queue q).live ++ [seq] } := vget_vset_same hq

/-- An entry that was read and accepted stands among the live ones of its queue (R361). -/
theorem State.opened_queue {s : State} {q : Nat} (hq : q < 64) (seq : W32) :
    ((s.tookEntry q).openEntry q seq).pkg.queue q = { s.pkg.queue q with
      qhead := (s.pkg.queue q).qhead + 1, qacc := (s.pkg.queue q).qacc + 1, live := (s.pkg.queue q).live ++ [seq] } := by
  rw [State.openEntry_queue hq, State.tookEntry_queue hq]

theorem State.queue_setQueue {s : State} {q : Nat} (hq : q < 64) (x : HQueue) : (s.setQueue q x).pkg.queue q = x :=
  vget_vset_same hq

/-- The entry of a queue has been read and has the next number. -/
def State.Took (s : State) (q : Nat) (w : State) : Prop :=
  (w.pkg.queue q).qhead = (s.pkg.queue q).qhead + 1 ∧ (w.pkg.queue q).qacc = (s.pkg.queue q).qacc + 1

theorem State.took_of {s w : State} {q : Nat} (hq : q < 64) (queues : w.pkg.queues = (s.tookEntry q).pkg.queues) : s.Took q w := by
  have queue : w.pkg.queue q = _ := (congrArg (fun v => vget v q HQueue.clear) queues).trans (vget_vset_same hq)
  unfold State.Took
  rw [queue]
  exact ⟨rfl, rfl⟩

section
variable {s : State} {t q : Nat}

/-- A job record within the limits: the job waits, and a placement pass is due (R304). -/
theorem submitJob_accepts {r : JobRec} (ready : ({ s with arg := .nat q } : State).EntryReady t q 1)
    (record : parseRecord 1 (getBytes s.mem.host (entryAddr (s.entryAt q)) 64) = some r) :
    execSubmitJob { s with arg := .nat q } = .next
      (((({ s with arg := .nat q } : State).tookEntry q).openEntry q ((s.pkg.queue q).qacc + 1)).arrive.addJob t q
        ((s.pkg.queue q).qacc + 1) r (s.arrivalAt q) none) := by
  unfold execSubmitJob
  refine State.queueEvent_accepts rfl ready (by decide) ?_
  obtain ⟨-, -, -, op, -⟩ := ready
  refine (if_neg (not_not_intro op)).trans ?_
  show Option.map _ (parseRecord 1 (getBytes s.mem.host (entryAddr (s.entryAt q)) 64)) = _
  rw [record]
  rfl

theorem submitJob_rejects (ready : ({ s with arg := .nat q } : State).EntryReady t q 1)
    (record : parseRecord 1 (getBytes s.mem.host (entryAddr (s.entryAt q)) 64) = none) :
    execSubmitJob { s with arg := .nat q } = .next
      ((({ s with arg := .nat q } : State).tookEntry q).rejectEntry t q ((s.pkg.queue q).qacc + 1)) := by
  unfold execSubmitJob
  refine State.queueEvent_rejects rfl ready (by decide) ?_
  obtain ⟨-, -, -, op, -⟩ := ready
  refine (if_neg (not_not_intro op)).trans ?_
  show Option.map _ (parseRecord 1 (getBytes s.mem.host (entryAddr (s.entryAt q)) 64)) = _
  rw [record]
  rfl

/-- A chain of a tenant, with its first element, as it arrives (R305). -/
def State.newChain (s : State) (t q : Nat) (r : JobRec) (rs : List JobRec) : Chain :=
  { id := s.pkg.nextJob, tenant := t, queue := q, seq := (s.pkg.queue q).qacc + 1, elems := r :: rs, next := 1, cls := r.cls,
    quant := r.quant, arrival := s.arrivalAt q, cancelled := false }

theorem submitChain_accepts {r : JobRec} {rs : List JobRec} (ready : ({ s with arg := .nat q } : State).EntryReady t q 2)
    (record : parseChain s.mem.host (entryAddr (s.entryAt q)) = some (r :: rs)) :
    let u := ({ s with arg := .nat q } : State).tookEntry q
    let v : State := { u with pkg := { u.pkg with chains := s.pkg.chains ++ [s.newChain t q r rs], nextJob := s.pkg.nextJob + 1 } }
    execSubmitChain { s with arg := .nat q } = .next
      ((v.openEntry q ((s.pkg.queue q).qacc + 1)).arrive.addJob t q ((s.pkg.queue q).qacc + 1) r (s.arrivalAt q)
        (some (s.pkg.nextJob, 0))) := by
  intro u v
  unfold execSubmitChain
  refine State.queueEvent_accepts rfl ready (by decide) ?_
  have record' : parseChain (({ s with arg := .nat q } : State).tookEntry q).mem.host
      (entryAddr (({ s with arg := .nat q } : State).entryAt q)) = some (r :: rs) := record
  dsimp only
  rw [record']
  rfl

/-- The one job of a queue, which runs here, is cancelled by its number (R311). -/
theorem State.cancel_one {u : State} {j : Job} {target : W32} (chains : u.pkg.chains = []) (jobs : u.pkg.jobs = [j])
    (queue : j.queue = q) (seq : j.seq = target) (runs : j.runs = true) (resident : u.pkg.resident = some j.id)
    (mode : u.stream.mode ≠ .fatal) :
    let v := (u.pkg.chains.filter fun c => decide (c.queue = q) && decide (c.seq = target)).foldl State.markChain u
    (v.pkg.jobs.filter fun j => decide (j.queue = q) && decide (j.seq = target)).foldl State.cancelJob v =
      ({ u with pkg := u.pkg.setJob { j with state := .ended 0x03 } } : State).endProgram false := by
  rw [chains]
  show (u.pkg.jobs.filter fun j => decide (j.queue = q) && decide (j.seq = target)).foldl State.cancelJob u = _
  rw [jobs, List.filter_cons_of_pos (by simp [queue, seq])]
  show u.cancelJob j = _
  unfold State.cancelJob
  exact (if_pos runs).trans (if_pos ⟨resident, mode⟩)

/-- A cancel of the one job of its queue ends its die program (R311). -/
theorem cancel_ends {j : Job} (ready : ({ s with arg := .nat q } : State).EntryReady t q 3) (chains : s.pkg.chains = [])
    (jobs : s.pkg.jobs = [j]) (queue : j.queue = q) (seq : j.seq.toNat = entryArg (s.entryAt q)) (runs : j.runs = true)
    (resident : s.pkg.resident = some j.id) (mode : s.stream.mode = .running) :
    let u := ({ s with arg := .nat q } : State).tookEntry q
    execCancel { s with arg := .nat q } =
      .next (({ u with pkg := u.pkg.setJob { j with state := .ended 0x03 } } : State).endProgram false) := by
  intro u
  unfold execCancel
  refine State.queueEvent_accepts rfl ready (by decide) ?_
  have target : j.seq = BitVec.ofNat 32 (entryArg (({ s with arg := .nat q } : State).entryAt q)) := by
    rw [show entryArg (({ s with arg := .nat q } : State).entryAt q) = _ from seq.symm, BitVec.ofNat_toNat, BitVec.setWidth_eq]
  exact congrArg some (State.cancel_one (u := ({ s with arg := .nat q } : State).tookEntry q) chains jobs queue target runs resident
    (show s.stream.mode ≠ .fatal from mode ▸ (by decide : Mode.running ≠ .fatal)))

theorem argRegion_of {e : List Byte} (addr : entryAddr e = 0) (arg : entryArg e < 128) : argRegion e = some (entryArg e) :=
  if_pos ⟨arg, addr⟩

theorem registerPager_accepts (ready : ({ s with arg := .nat q } : State).EntryReady t q 4)
    (addr : entryAddr (s.entryAt q) = 0) (arg : entryArg (s.entryAt q) < 128) :
    execRegisterPager { s with arg := .nat q } = .next
      ((({ s with arg := .nat q } : State).tookEntry q).editTenant t fun x =>
        { x with pagers := if x.pagers.contains (entryArg (s.entryAt q)) then x.pagers else entryArg (s.entryAt q) :: x.pagers }) := by
  unfold execRegisterPager
  refine State.queueEvent_accepts rfl ready (by decide) ?_
  exact (congrArg (Option.map _) (argRegion_of addr arg)).trans rfl

theorem withdrawPager_accepts (ready : ({ s with arg := .nat q } : State).EntryReady t q 5)
    (addr : entryAddr (s.entryAt q) = 0) (arg : entryArg (s.entryAt q) < 128) :
    execWithdrawPager { s with arg := .nat q } = .next
      (((({ s with arg := .nat q } : State).tookEntry q).editTenant t fun x =>
        { x with pagers := x.pagers.filter fun y => decide (y ≠ entryArg (s.entryAt q)) }).refuseStalls t
          (regionEntries · (entryArg (s.entryAt q)))) := by
  unfold execWithdrawPager
  refine State.queueEvent_accepts rfl ready (by decide) ?_
  exact (congrArg (Option.map _) (argRegion_of addr arg)).trans rfl

end

theorem State.releaseAll_frame (l : List Nat) : ∀ s : State, (l.foldl (fun s i => s.releaseStalls i true) s).mem = s.mem ∧
    (l.foldl (fun s i => s.releaseStalls i true) s).regs = s.regs ∧
    (l.foldl (fun s i => s.releaseStalls i true) s).pkg = s.pkg := by
  induction l with
  | nil => exact fun s => ⟨rfl, rfl, rfl⟩
  | cons i l ih =>
    intro s
    obtain ⟨regs, mem, pkg, -⟩ := State.releaseStalls_frame s i true
    rw [List.foldl_cons, ← regs, ← mem, ← pkg]
    exact ih _

/-- Refusing stalls changes copies and refusals of jobs alone. -/
theorem State.refuseStalls_frame (s : State) (t : Nat) (pick : Vector WEntry 2048 → List Nat) :
    (s.refuseStalls t pick).mem = s.mem ∧ (s.refuseStalls t pick).regs = s.regs ∧
      (s.refuseStalls t pick).pkg = { s.pkg with jobs := (s.refuseStalls t pick).pkg.jobs } ∧
      (s.pkg.jobs = [] → (s.refuseStalls t pick).pkg = s.pkg) := by
  unfold State.refuseStalls
  dsimp only
  split
  · obtain ⟨mem, regs, pkg⟩ := State.releaseAll_frame (pick s.mem.wtab) { s with pkg.jobs := s.pkg.jobs.map _ }
    refine ⟨mem, regs, ?_, fun none => ?_⟩
    · rw [pkg]
    · rw [pkg]
      dsimp only
      rw [none, List.map_nil]
      show ({ s.pkg with jobs := [] } : Pkg) = s.pkg
      rw [← none]
  · refine ⟨rfl, rfl, rfl, fun none => ?_⟩
    dsimp only
    rw [none, List.map_nil]
    show ({ s.pkg with jobs := [] } : Pkg) = s.pkg
    rw [← none]

theorem setJob_one {p : Pkg} {j k : Job} (jobs : p.jobs = [j]) (same : k.id = j.id) : (p.setJob k).jobs = [k] := by
  unfold Pkg.setJob
  dsimp only
  rw [jobs, List.map_cons, List.map_nil, if_pos same.symm]

/-- A dump that stands as it was sealed is opened into the host buffer (R350, R364). -/
theorem readDump_opens {s : State} {t q : Nat} {d : Dump} (ready : ({ s with arg := .nat q } : State).EntryReady t q 6)
    (named : s.namedDump t (entryArg (s.entryAt q)) = some d)
    (sealed : getBytes s.mem.host d.addr (s.pkg.sealDump d).length = s.pkg.sealDump d)
    (room : ((s.pkg.tenant t).cfg.aper.any fun p => decide (p.size ≠ 0) && decide (p.base ≤ entryAddr (s.entryAt q)) &&
      decide (entryAddr (s.entryAt q) + (s.pkg.openDump d).length ≤ p.base + p.size)) = true) :
    let u := ({ s with arg := .nat q } : State).tookEntry q
    execReadDump { s with arg := .nat q } =
      .next { u with mem.host := putBytes s.mem.host (entryAddr (s.entryAt q)) (s.pkg.openDump d) } := by
  intro u
  have named' : (({ s with arg := .nat q } : State).tookEntry q).namedDump t
      (entryArg (({ s with arg := .nat q } : State).entryAt q)) = some d := named
  unfold execReadDump
  refine State.queueEvent_accepts rfl ready (by decide) ?_
  dsimp only
  rw [named']
  exact if_pos (Bool.and_eq_true_iff.mpr ⟨decide_eq_true sealed, room⟩)

theorem readDump_rejects {s : State} {t q : Nat} {d : Dump} (ready : ({ s with arg := .nat q } : State).EntryReady t q 6)
    (named : s.namedDump t (entryArg (s.entryAt q)) = some d)
    (broken : getBytes s.mem.host d.addr (s.pkg.sealDump d).length ≠ s.pkg.sealDump d) :
    execReadDump { s with arg := .nat q } = .next
      ((({ s with arg := .nat q } : State).tookEntry q).rejectEntry t q ((s.pkg.queue q).qacc + 1)) := by
  have named' : (({ s with arg := .nat q } : State).tookEntry q).namedDump t
      (entryArg (({ s with arg := .nat q } : State).entryAt q)) = some d := named
  unfold execReadDump
  refine State.queueEvent_rejects rfl ready (by decide) ?_
  dsimp only
  rw [named']
  exact if_neg fun h => broken (of_decide_eq_true (Bool.and_eq_true_iff.mp h).1)

/-! ## The reset of a tenant (R365) -/

/-- Changing the queues of a tenant changes queues alone. -/
theorem State.mapQueues_frame (s : State) (t : Nat) (f : HQueue → HQueue) :
    ∃ v, s.mapQueues t f = { s with pkg.queues := v } := by
  unfold State.mapQueues
  generalize (s.pkg.tenant t).queues = l
  induction l generalizing s with
  | nil => exact ⟨s.pkg.queues, rfl⟩
  | cons q l ih =>
    obtain ⟨v, h⟩ := ih (s.setQueue q (f (s.pkg.queue q)))
    exact ⟨v, h⟩

/-- A reset is over when nothing of the tenant is left. -/
theorem State.finishReset_done {s : State} {t : Nat} (resetting : (s.pkg.tenant t).resetting = true)
    (quiet : s.dumping t = false) (jobs : s.pkg.jobs = []) (chains : s.pkg.chains = []) :
    ∃ v, s.finishReset t = ({ s with pkg := { s.pkg with
      queues := v, images := s.pkg.images.filter fun i => decide (i.tenant ≠ t) } } : State).setTenant t
        { s.pkg.tenant t with resetting := false, stopped := false, pagers := [] } := by
  have finished : ((s.pkg.tenant t).resetting && !s.dumping t && !(s.pkg.jobs.any fun j => decide (j.tenant = t)) &&
      !s.pkg.chains.any fun c => decide (c.tenant = t)) = true := by
    rw [resetting, quiet, jobs, chains]
    rfl
  obtain ⟨v, h⟩ := s.mapQueues_frame t fun q =>
    if (s.pkg.tenant t).cfg.susp then { q with qhead := q.qtail, live := [] } else HQueue.switchIn { q with qhead := q.qtail, live := [] }
  refine ⟨v, (if_pos finished).trans ?_⟩
  dsimp only
  rw [h]

theorem State.cancelTenant_nothing {s : State} (jobs : s.pkg.jobs = []) (chains : s.pkg.chains = []) (t : Nat) (but : Option Nat) :
    s.cancelTenant t but = s := by
  unfold State.cancelTenant
  dsimp only
  rw [jobs, chains]
  rfl

/-- The paged-pool entries of a window table. -/
def pagedEntries (tab : Vector WEntry 2048) : List Nat :=
  (tab.toList.zipIdx.filter fun x => wV x.1 && decide (wKind x.1 = 4)).map (·.2)

/-- What the end of a reset leaves of its tenant. -/
theorem State.endTenant_done {s : State} {t : Nat} (ht : t < 16) (resetting : (s.pkg.tenant t).resetting = true)
    (quiet : s.dumping t = false) (jobs : s.pkg.jobs = []) (chains : s.pkg.chains = []) :
    ((s.endTenant t).pkg.tenant t).resetting = false ∧ ((s.endTenant t).pkg.tenant t).stopped = false ∧
      ((s.endTenant t).pkg.tenant t).pagers = [] ∧ (∀ i ∈ (s.endTenant t).pkg.images, i.tenant ≠ t) ∧
      (s.endTenant t).regs = s.regs ∧ (s.endTenant t).mem = s.mem := by
  have refused (pick : Vector WEntry 2048 → List Nat) :
      (((s.refuseStalls t pick).editTenant t fun x => { x with pagers := [] }).finishReset t).regs = s.regs ∧
      (((s.refuseStalls t pick).editTenant t fun x => { x with pagers := [] }).finishReset t).mem = s.mem ∧
      ∃ x : Tenant, x.resetting = false ∧ x.stopped = false ∧ x.pagers = [] ∧
        (((s.refuseStalls t pick).editTenant t fun x => { x with pagers := [] }).finishReset t).pkg.tenant t = x ∧
        (((s.refuseStalls t pick).editTenant t fun x => { x with pagers := [] }).finishReset t).pkg.images =
          s.pkg.images.filter fun i => decide (i.tenant ≠ t) := by
    obtain ⟨mem, regs, -, pkg⟩ := State.refuseStalls_frame s t pick
    generalize s.refuseStalls t pick = u at mem regs pkg
    have same : u.pkg = s.pkg := pkg jobs
    have own : (u.editTenant t fun x => { x with pagers := [] }).pkg.tenant t = { s.pkg.tenant t with pagers := [] } := by
      rw [← same]; exact State.tenant_setTenant ht
    obtain ⟨v, done⟩ := State.finishReset_done (s := u.editTenant t fun x => { x with pagers := [] }) (t := t)
      (by rw [own]; exact resetting) ((congrArg (fun p : Pkg => p.dumps.any fun d => decide (d.tenant = t) && !d.img.complete) same).trans quiet)
      ((congrArg Pkg.jobs same).trans jobs) ((congrArg Pkg.chains same).trans chains)
    rw [done]
    exact ⟨regs, mem, _, rfl, rfl, rfl, State.tenant_setTenant ht,
      congrArg (List.filter fun i : Image => decide (i.tenant ≠ t))
        ((show (u.editTenant t fun x => { x with pagers := [] }).pkg.images = u.pkg.images from rfl).trans
          (congrArg Pkg.images same))⟩
  have ends : s.endTenant t = ((s.refuseStalls t pagedEntries).editTenant t fun x => { x with pagers := [] }).finishReset t := by
    refine (if_neg (by rw [quiet]; decide)).trans ?_
    dsimp only
    rw [State.cancelTenant_nothing jobs chains]
    rfl
  obtain ⟨regs, mem, x, resetting, stopped, pagers, tenant, images⟩ := refused pagedEntries
  rw [ends, tenant, images]
  exact ⟨resetting, stopped, pagers, fun i mem => of_decide_eq_true (List.mem_filter.mp mem).2, regs, mem⟩

theorem State.resetTenant_done {s : State} {t : Nat} (ht : t < 16) (quiet : s.dumping t = false) (jobs : s.pkg.jobs = [])
    (chains : s.pkg.chains = []) :
    ((s.resetTenant t).pkg.tenant t).resetting = false ∧ ((s.resetTenant t).pkg.tenant t).stopped = false ∧
      ((s.resetTenant t).pkg.tenant t).pagers = [] ∧ (∀ i ∈ (s.resetTenant t).pkg.images, i.tenant ≠ t) ∧
      (s.resetTenant t).regs = s.regs ∧ (s.resetTenant t).mem = s.mem := by
  obtain ⟨v, out⟩ := (s.editTenant t fun x => { x with resetting := true }).mapQueues_frame t HQueue.switchOut
  unfold State.resetTenant
  rw [out]
  exact State.endTenant_done ht (State.tenant_setTenant ht ▸ rfl) quiet jobs chains


section
variable {s : State} {t q : Nat} {r : JobRec} {rs : List JobRec}

/-- A job entry that was accepted: the job waits (R304). -/
def State.jobOpened (s : State) (t q : Nat) (r : JobRec) : State :=
  let seq := (s.pkg.queue q).qacc + 1
  ((s.tookEntry q).openEntry q seq).arrive.addJob t q seq r (s.arrivalAt q) none

/-- An entry taken and opened changes its queue alone. -/
theorem State.opened_frame (seq : W32) : ∃ v, (s.tookEntry q).openEntry q seq = { s with pkg.queues := v } := ⟨_, rfl⟩

theorem State.jobOpened_frame : (s.jobOpened t q r).pkg.jobs = s.pkg.jobs ++
      [newJob s.pkg.nextJob t q ((s.pkg.queue q).qacc + 1) r (s.arrivalAt q) s.now none] ∧
    (s.jobOpened t q r).pkg.arrivals = s.pkg.arrivals + 1 ∧ (s.jobOpened t q r).pkg.passDue = some s.now ∧
    (s.jobOpened t q r).mem = s.mem ∧ (s.jobOpened t q r).regs = s.regs := by
  obtain ⟨v, opened⟩ := s.opened_frame (q := q) ((s.pkg.queue q).qacc + 1)
  unfold State.jobOpened
  dsimp only
  rw [opened]
  exact ⟨rfl, rfl, rfl, rfl, rfl⟩

/-- A chain entry that was accepted: the chain stands behind the others, and its first element waits (R305). -/
def State.chainOpened (s : State) (t q : Nat) (r : JobRec) (rs : List JobRec) : State :=
  let seq := (s.pkg.queue q).qacc + 1
  let u := s.tookEntry q
  ((({ u with pkg := { u.pkg with
      chains := s.pkg.chains ++ [s.newChain t q r rs], nextJob := s.pkg.nextJob + 1 } } : State).openEntry q seq).arrive.addJob
    t q seq r (s.arrivalAt q) (some (s.pkg.nextJob, 0)))

theorem submitChain_opens (ready : ({ s with arg := .nat q } : State).EntryReady t q 2)
    (record : parseChain s.mem.host (entryAddr (s.entryAt q)) = some (r :: rs)) :
    execSubmitChain { s with arg := .nat q } = .next (({ s with arg := .nat q } : State).chainOpened t q r rs) :=
  submitChain_accepts ready record

theorem State.addJob_queue (seq : W32) (a : Arrival) (c : Option (Nat × Nat)) :
    (s.addJob t q seq r a c).pkg.queue q = s.pkg.queue q := rfl

theorem State.arrive_queue : s.arrive.pkg.queue q = s.pkg.queue q := rfl

theorem State.chained_queue (c : List Chain) (n : Nat) :
    ({ s with pkg := { s.pkg with chains := c, nextJob := n } } : State).pkg.queue q = s.pkg.queue q := rfl

theorem State.chained_frame (seq : W32) (c : List Chain) (n : Nat) :
    ∃ v, ({ s.tookEntry q with pkg := { (s.tookEntry q).pkg with chains := c, nextJob := n } } : State).openEntry q seq =
      { s with pkg := { s.pkg with queues := v, chains := c, nextJob := n } } := ⟨_, rfl⟩

theorem State.chainOpened_queue (hq : q < 64) : s.Took q (s.chainOpened t q r rs) := by
  unfold State.Took State.chainOpened
  dsimp only
  rw [State.addJob_queue, State.arrive_queue, State.openEntry_queue hq, State.chained_queue, State.tookEntry_queue hq]
  exact ⟨rfl, rfl⟩

theorem State.chainOpened_frame : (s.chainOpened t q r rs).pkg.passDue = some s.now ∧ (s.chainOpened t q r rs).mem = s.mem ∧
    (s.chainOpened t q r rs).regs = s.regs ∧
    (s.chainOpened t q r rs).pkg.jobs = s.pkg.jobs ++
      [newJob (s.pkg.nextJob + 1) t q ((s.pkg.queue q).qacc + 1) r (s.arrivalAt q) s.now (some (s.pkg.nextJob, 0))] ∧
    (s.chainOpened t q r rs).pkg.chains = s.pkg.chains ++ [s.newChain t q r rs] := by
  obtain ⟨v, opened⟩ := s.chained_frame (q := q) ((s.pkg.queue q).qacc + 1) (s.pkg.chains ++ [s.newChain t q r rs]) (s.pkg.nextJob + 1)
  unfold State.chainOpened
  dsimp only
  rw [opened]
  exact ⟨rfl, rfl, rfl, rfl, rfl⟩

end

/-- Settles O49: each entry that is ready is carried out or rejected as its operation says, and a tail write or a reset of a tenant
without jobs acts at once. -/
theorem hostQueueEvents : Obligations.HostQueueEvents := by
  unfold Obligations.HostQueueEvents
  intro s t q ht here e seq u taken
  have took {w : State} (hq : q < 64) (queues : w.pkg.queues = u.pkg.queues) : taken w :=
    State.took_of (s := here) hq queues
  have opened {w : State} (hq : q < 64)
      (queue : w.pkg.queue q = { s.pkg.queue q with qhead := (s.pkg.queue q).qhead + 1, qacc := seq, live := (s.pkg.queue q).live ++ [seq] }) :
      taken w ∧ (w.pkg.queue q).live = (s.pkg.queue q).live ++ [seq] := by
    show ((w.pkg.queue q).qhead = _ ∧ (w.pkg.queue q).qacc = _) ∧ _
    rw [queue]
    exact ⟨⟨rfl, rfl⟩, rfl⟩
  refine ⟨?_, ?_, ?_, ?_, ?_, ?_, ?_, ?_, ?_⟩
  · intro r ready record
    obtain ⟨done, queue⟩ := opened (w := here.jobOpened t q r) ready.1 (State.opened_queue (s := here) ready.1 seq)
    obtain ⟨jobs, arrivals, due, mem, regs⟩ := State.jobOpened_frame (s := here) (t := t) (q := q) (r := r)
    exact ⟨here.jobOpened t q r, submitJob_accepts ready record, done, queue, jobs, arrivals, due, mem, regs⟩
  · exact fun ready record => submitJob_rejects ready record
  · intro r rs ready record
    obtain ⟨due, mem, regs, jobs, chains⟩ := State.chainOpened_frame (s := here) (t := t) (q := q) (r := r) (rs := rs)
    exact ⟨here.chainOpened t q r rs, submitChain_opens ready record, State.chainOpened_queue ready.1, due, mem, regs,
      jobs, here.newChain t q r rs, chains, rfl, rfl, rfl, rfl⟩
  · intro j ready chains jobs queue number runs resident mode
    have ended := State.endProgram_running (s := { u with pkg := u.pkg.setJob { j with state := .ended 0x03 } }) (e := false) mode
    refine ⟨_, (cancel_ends ready chains jobs queue number runs resident mode).trans (congrArg Host.Outcome.next ended),
      took ready.1 rfl, ?_, rfl, rfl, rfl⟩
    exact setJob_one jobs rfl
  · intro ready addr arg
    refine ⟨_, registerPager_accepts ready addr arg, took ready.1 rfl, rfl, rfl, fun r => ?_⟩
    rw [show State.editTenant _ t _ = State.setTenant _ t _ from rfl, State.tenant_setTenant ht]
    show r ∈ (if (s.pkg.tenant t).pagers.contains (entryArg e) then (s.pkg.tenant t).pagers
      else entryArg e :: (s.pkg.tenant t).pagers) ↔ _
    split
    · rename_i listed
      have mem : entryArg e ∈ (s.pkg.tenant t).pagers := List.contains_iff_mem.mp listed
      exact ⟨.inr, fun h => h.elim (fun h => h ▸ mem) id⟩
    · exact List.mem_cons
  · intro ready addr arg
    let x (x : Tenant) : Tenant := { x with pagers := x.pagers.filter fun y => decide (y ≠ entryArg e) }
    obtain ⟨mem, regs, pkg, -⟩ := State.refuseStalls_frame (u.editTenant t x) t (regionEntries · (entryArg e))
    refine ⟨_, withdrawPager_accepts ready addr arg, took ready.1 ((congrArg Pkg.queues pkg).trans rfl), mem, regs, fun r => ?_⟩
    have tenant := (congrArg (fun p : Pkg => p.tenant t) pkg).trans
      ((show _ = (u.editTenant t x).pkg.tenant t from rfl).trans (State.tenant_setTenant ht))
    rw [show Pkg.tenant _ t = _ from tenant]
    show r ∈ (s.pkg.tenant t).pagers.filter _ ↔ _
    rw [List.mem_filter, decide_eq_true_eq, and_comm]
  · intro d ready named openForm sealed
    refine ⟨fun whole room => ⟨_, readDump_opens ready named whole room, took ready.1 rfl, rfl, rfl⟩, fun broken => ?_⟩
    exact readDump_rejects ready named broken
  · intro v hq owner near
    have event : execQtailWrite { s with arg := .qtail t q v } = .next (({ s with arg := .qtail t q v } : State).setQueue q
        (if (s.pkg.queue q).out then { s.pkg.queue q with shadow := v } else { s.pkg.queue q with qtail := v })) :=
      (if_neg (not_not_intro owner)).trans (if_neg (Nat.not_lt_of_le near))
    exact ⟨_, event, rfl, rfl, State.queue_setQueue hq _⟩
  · intro used verified quiet idle jobs chains
    have event : execResetTenant { s with arg := .resetT t none } =
        .next (({ s with arg := .resetT t none } : State).resetTenant t) :=
      congrArg Host.Outcome.next ((if_neg (by rw [show Tenant.resetting _ = _ from idle]; decide)).trans
        (if_pos (Bool.and_eq_true_iff.mpr ⟨used, verified⟩)))
    exact ⟨_, event, State.resetTenant_done ht quiet jobs chains⟩

end Sys2Proof.Machine
end

section
/-! A job that resumes beside this die forgets the refusals that this die held for it: O50 asks that a placement change its sub-cube,
its state and its clock alone. The model drops the job's saved table and its refusals where the sub-cube does not hold this die
(`State.takeCube`), as they are of no use there. -/

namespace Sys2Proof.Machine

/-- The record of a job of one die. -/
def oneDie : JobRec :=
  { k := 0, cls := 0, pol3 := 0, kernel := 0, quant := 100, cont := 0, csize := 64, buddy := 0, enest := 0, flagAddr := 0,
    flagVal := 0, optional := false }

/-- A job of tenant 0, which resumes from an image and holds a refusal. -/
def refusedJob : Job :=
  { newJob 1 0 0 1 oneDie { cycle := 0, queue := 0, ahead := 0, count := 0 } 0 none with
    image := some (1, 1), launch := some LaunchRec.default, refused := [5] }

/-- A package in which the tenant has die 1 alone, which is ready, seen from die 0. -/
def besideState : State :=
  { State.reset with
    pkg := { Pkg.clear with
      tenants := vset Pkg.clear.tenants 0 { Tenant.clear with cfg := { Tenant.clear.cfg with grant := 2 } },
      jobs := [refusedJob], passDue := some 0, status := vset Pkg.clear.status 0 0x00020205#32 } }

/-- The refusals of the jobs after an outcome. -/
def refusalsOf : Out → List (List Nat)
  | .next t => t.pkg.jobs.map Job.refused
  | _ => []

/-- Refutes O50: placed on die 1, the job holds no refusal any more, where the statement has it keep its own. -/
theorem not_schedulerEvents : ¬ Obligations.SchedulerEvents := by
  unfold Obligations.SchedulerEvents
  intro holds
  obtain ⟨-, resumes, -⟩ := holds besideState refusedJob
  obtain ⟨w, placed, -, -, jobs⟩ := resumes LaunchRec.default 0 1 (by decide +kernel) rfl rfl rfl rfl rfl (by decide +kernel)
    (by decide +kernel) (by decide +kernel) (by decide +kernel) (by decide +kernel) rfl (by decide +kernel)
  have dropped : refusalsOf (exec .placementPass besideState) = [[]] := by decide +kernel
  rw [placed] at dropped
  have kept : refusalsOf (.next w) = [[5]] := congrArg (List.map Job.refused) jobs
  exact absurd (kept.symm.trans dropped) (by decide)

end Sys2Proof.Machine
end

section
/-! What management and the host do to the package (R148, R343, R350, R356, R359, R366, R367). -/

namespace Sys2Proof.Machine

section
variable {s : State} {t : Nat} {c : TenantCfg}

/-- The tenant entry that a configuration makes (R350, R359). -/
def Tenant.configured (x : Tenant) (c : TenantCfg) (draws : Nat) : Tenant :=
  { x with
    used := decide (c.grant ≠ 0) || decide (c.qmask ≠ 0), cfg := c,
    epoch := if (decide (c.grant ≠ 0) || decide (c.qmask ≠ 0)) && !x.used then Config.dumpEpoch draws else x.epoch }

/-- A configuration that is accepted changes the tenant's entry and host queues, and draws. -/
theorem tenantConfigWrite_accepts (verified : s.pkg.verified = true) (ok : s.cfgOk t c = true)
    (free : (s.pkg.jobs.any fun j => decide (j.tenant = t)) = false) :
    ∃ (v : Vector HQueue 64) (n : Nat), execTenantConfigWrite { s with arg := .tcfg t c } = .next { s with
      arg := .tcfg t c, draws := n,
      pkg := { s.pkg with tenants := vset s.pkg.tenants t ((s.pkg.tenant t).configured c s.draws), queues := v } } := by
  obtain ⟨v, h⟩ := State.mapQueues_frame ({ ({ s with arg := .tcfg t c } : State).setTenant t ((s.pkg.tenant t).configured c s.draws) with
    draws := if (decide (c.grant ≠ 0) || decide (c.qmask ≠ 0)) && !(s.pkg.tenant t).used then s.draws + 1 else s.draws } : State) t
    fun q => if c.susp || (s.pkg.tenant t).resetting then q.switchOut else q.switchIn
  refine ⟨v, _, (if_neg ?_).trans (congrArg Host.Outcome.next h)⟩
  rintro (h | h | h)
  · exact Bool.false_ne_true (h.symm.trans verified)
  · exact Bool.false_ne_true (h.symm.trans ok)
  · exact Bool.false_ne_true (free.symm.trans h.1)

theorem tenantConfigWrite_unverified (unverified : s.pkg.verified = false) :
    execTenantConfigWrite { s with arg := .tcfg t c } = .next { s with arg := .tcfg t c } := if_pos (.inl unverified)

end

theorem imageSecretInstall_accepts {s : State} (verified : s.pkg.verified = true) (bs : List Byte) :
    execImageSecretInstall { s with arg := .bytes bs } = .next { s with
      arg := .bytes bs
      pkg := { s.pkg with
        secret := some bs, status := vset s.pkg.status 0 (vget s.pkg.status 0 0 ||| 4), passDue := some s.now } } :=
  congrArg Host.Outcome.next (if_pos verified)

theorem imageSecretInstall_unverified {s : State} (unverified : s.pkg.verified = false) (bs : List Byte) :
    execImageSecretInstall { s with arg := .bytes bs } = .next { s with arg := .bytes bs } :=
  congrArg Host.Outcome.next (if_neg (Bool.not_eq_true _ ▸ unverified))

/-- A ready bit of another die's block, or of a link that is UP, is set (R366). -/
theorem readyBitSet_sets {s : State} {n b : Nat} (first : 1 ≤ n) (last : n ≤ 8) (bit : b < 13)
    (stands : n ≠ 1 + s.ctl.diecoord.toNat % 8 ∨ (s.port b).state = .up) :
    execReadyBitSet { s with arg := .two n b } = .next (({ s with arg := .two n b } : State).setReady n b) := by
  refine congrArg Host.Outcome.next (if_pos ?_)
  rw [if_neg (Nat.ne_of_gt first), decide_eq_true last, decide_eq_true bit, Bool.true_and, Bool.true_and]
  exact (Bool.or_eq_true _ _).mpr (stands.imp decide_eq_true decide_eq_true)

/-- Setting a ready bit changes that bit of its word alone. -/
theorem State.setReady_bits {s : State} {n b i k : Nat} (word : n < 9) (hk : k < 32) :
    (vget (s.setReady n b).pkg.status i 0).getLsbD k =
      ((vget s.pkg.status i 0).getLsbD k || (decide (i = n) && decide (k = b))) := by
  show (vget (vset s.pkg.status n (vget s.pkg.status n 0 ||| BitVec.ofNat 32 (2 ^ b))) i 0).getLsbD k = _
  by_cases same : i = n
  · subst same
    rw [vget_vset_same word, BitVec.getLsbD_or, BitVec.getLsbD_ofNat, Nat.testBit_two_pow, decide_eq_true hk]
    simp [eq_comm]
  · rw [vget_vset_other fun h => same h.symm]
    simp [same]

/-- The host writes DRAM through a decoder, or reads a word of it (R148, R356). -/
theorem cxlMemAccess_writes {s : State} {r : HdmRange} {a : CxlAccess} {bs : List Byte}
    (die : r.die = s.ctl.diecoord.toNat % 8) (data : a.data = some bs) (decoder : s.pkg.decoder a.addr bs.length = some r)
    (inside : dramRangeOk (r.off + (a.addr - r.base)) bs.length = true) :
    execCxlMemAccess { s with arg := .cxl a } =
      .next (({ s with arg := .cxl a } : State).storeDram (r.off + (a.addr - r.base)) bs) := by
  unfold execCxlMemAccess
  dsimp only
  rw [data]
  dsimp only
  rw [decoder]
  exact if_pos ⟨die, inside⟩

theorem cxlMemAccess_reads {s : State} {r : HdmRange} {a : CxlAccess} (die : r.die = s.ctl.diecoord.toNat % 8)
    (data : a.data = none) (len : a.len = 8) (decoder : s.pkg.decoder a.addr 8 = some r)
    (inside : dramRangeOk (r.off + (a.addr - r.base)) 8 = true) :
    execCxlMemAccess { s with arg := .cxl a } = .next (({ s with arg := .cxl a } : State).answerWord
      (BitVec.ofNat 64 (leNat (s.loadDram (r.off + (a.addr - r.base)) 8)))) := by
  unfold execCxlMemAccess
  dsimp only
  rw [data]
  dsimp only
  rw [len, decoder]
  exact if_pos ⟨die, inside⟩

/-- Settles O53: what each write, setting, measurement and access of management and the host does to the package. -/
theorem managementEvents : Obligations.ManagementEvents := by
  unfold Obligations.ManagementEvents
  intro s t c n b bs ht x same
  refine ⟨?_, ?_, ?_, ?_, ?_, ?_, ?_, ?_⟩
  · intro verified ok free
    obtain ⟨v, d, event⟩ := tenantConfigWrite_accepts verified ok free
    have entry {v : Vector HQueue 64} {n : Nat} : ({ s with
      arg := .tcfg t c, draws := n,
      pkg := { s.pkg with tenants := vset s.pkg.tenants t (x.configured c s.draws), queues := v } } : State).pkg.tenant t =
        x.configured c s.draws := vget_vset_same ht
    refine ⟨_, event, ⟨rfl, rfl, rfl, rfl⟩, ?_⟩
    rw [show Pkg.tenant _ t = _ from entry]
    refine ⟨rfl, ?_, fun used => ?_, fun used inUse => ?_⟩
    · show (decide (c.grant ≠ 0) || decide (c.qmask ≠ 0)) = true ↔ _
      rw [Bool.or_eq_true, decide_eq_true_eq, decide_eq_true_eq]
    · show (if _ && !x.used then _ else _) = _
      rw [used, Bool.not_true, Bool.and_false]; rfl
    · show (if _ && !x.used then _ else _) = _
      rw [show (_ || _) = true from inUse, used]; rfl
  · exact fun unverified => ⟨tenantConfigWrite_unverified unverified, imageSecretInstall_unverified unverified bs⟩
  · intro first last bit stands
    exact ⟨_, readyBitSet_sets first last bit stands, ⟨rfl, rfl, rfl, rfl⟩, rfl, fun _ _ _ hk =>
      State.setReady_bits (Nat.lt_succ_of_le last) hk⟩
  · intro verified
    refine ⟨_, imageSecretInstall_accepts verified bs, ⟨rfl, rfl, rfl, rfl⟩, rfl, ?_, rfl⟩
    show (vget (vset s.pkg.status 0 _) 0 0).getLsbD 2 = true
    rw [vget_vset_same (by decide), BitVec.getLsbD_or]
    exact Bool.or_true _
  · exact ⟨_, rfl, ⟨rfl, rfl, rfl, rfl⟩, rfl, rfl⟩
  · exact fun first last => ⟨_, if_pos ⟨first, last⟩, ⟨rfl, rfl, rfl, rfl⟩, rfl⟩
  · exact fun r a die => ⟨fun data decoder inside => cxlMemAccess_writes die data decoder inside,
      fun data len decoder inside => cxlMemAccess_reads die data len decoder inside⟩
  · exact ⟨_, rfl, rfl, rfl, rfl, rfl, rfl, rfl, rfl, rfl, rfl, rfl, rfl, rfl⟩

end Sys2Proof.Machine
end

section
/-! Stops and images of the resident job (R330 to R345). -/

namespace Sys2Proof.Machine

/-! ## Ports that park and come back -/

theorem State.sendWord_sends (s : State) (d : Nat) (w : LinkWord) : s.SendsOnly (s.sendWord d w) := by
  obtain ⟨p, h⟩ := s.sendWord_ports d w
  exact ⟨p, s.eng, rfl, h⟩

theorem State.flushPort_sends (s : State) (d : Nat) : s.SendsOnly (s.flushPort d) := by
  obtain ⟨p, h⟩ := s.flushFrom_ports (s.port d).waiting.length d
  exact ⟨p, s.eng, rfl, h⟩

theorem State.RelinksOnly.foldl {α : Type} {f : State → α → State} (h : ∀ (s : State) (a : α), s.RelinksOnly (f s a))
    (l : List α) : ∀ s : State, s.RelinksOnly (l.foldl f s) := by
  induction l with
  | nil => exact .refl
  | cons a l ih => exact fun s => (h s a).trans (ih _)

theorem State.park_relinks (s : State) (d : Nat) : s.RelinksOnly (s.park d) :=
  (State.setPort_sends _ _ _).relinks.trans (State.portState_relinks _ d _)

theorem State.askPark_relinks (s : State) (d : Nat) : s.RelinksOnly (s.askPark d) := by
  unfold State.askPark
  dsimp only
  split
  · exact .refl s
  · split
    · exact ((State.setPort_sends _ _ _).trans (State.sendWord_sends _ _ _)).relinks
    · exact State.park_relinks s d

theorem State.parkAll_relinks (s : State) : s.RelinksOnly s.parkAll := .foldl State.askPark_relinks _ s

theorem State.unparkAll_relinks (s : State) : s.RelinksOnly s.unparkAll := by
  unfold State.unparkAll
  dsimp only
  refine .trans (.trans (.foldl (fun s d => State.portState_relinks s d _) _ s) (.foldl (fun s d => ?_) _ _))
    (State.SendsOnly.relinks ⟨State.sweepPorts_frame _⟩)
  split
  · exact ((State.sendResync_sends s d).trans (State.flushPort_sends _ d)).relinks
  · exact (State.flushPort_sends s d).relinks

/-- A fold that leaves the state as it is at every element leaves it as it is. -/
theorem foldl_stays {α : Type} {f : State → α → State} {s : State} (l : List α) (h : ∀ a ∈ l, f s a = s) : l.foldl f s = s := by
  induction l with
  | nil => rfl
  | cons a l ih =>
    rw [List.foldl_cons, h a List.mem_cons_self]
    exact ih fun b hb => h b (List.mem_cons_of_mem _ hb)

/-- Ports that are PARKED, or that a frame still reaches directly, park no further. -/
theorem State.parkRest_settled {s : State}
    (h : ∀ d < 13, (s.port d).state = .parked ∨ (s.port d).state = .up ∨ (s.port d).state = .stopped) : s.parkRest = s := by
  refine foldl_stays _ fun d hd => ?_
  refine if_pos ?_
  rcases h d (List.mem_range.mp hd) with h | h | h
  · exact .inl h
  · exact .inr (.inl h)
  · exact .inr (.inr (.inl h))

theorem State.portsParked_iff {s : State} : s.portsParked = true ↔ ∀ d < 13, (s.port d).state = .parked := by
  unfold State.portsParked
  simp only [List.all_eq_true, List.mem_range, decide_eq_true_eq]

/-! ## Captures begin -/

/-- A capture parks the ports and adds an image of what stands; nothing else of the die changes. -/
theorem State.takeImage_frame (s : State) (kind : Nat) :
    ∃ (p : Vector Port 13) (e : Engines) (n : BitVec 9) (l : Vector (W64 × W64) 512) (c : Nat × Nat),
      s.takeImage kind = { s with
        ports := p, eng := e, ctl.lnwrm := n, mem := { s.mem with lanternM := l, lanternNow := c },
        pkg := { s.pkg with serial := s.pkg.serial + 1, images := s.pkg.images ++ [s.capture kind 0 0] } } := by
  obtain ⟨p, e, n, l, c, -, h⟩ := s.parkAll_relinks
  refine ⟨p, e, n, l, c, ?_⟩
  unfold State.takeImage
  dsimp only
  rw [h]
  rfl

/-- What the captures of the resident job leave and add. -/
structure State.Captured (s : State) (kind : Nat) (w : State) : Prop where
  same : w.regs = s.regs ∧ w.tiles = s.tiles ∧ w.mem.loc = s.mem.loc ∧ w.mem.dram = s.mem.dram
  image : ∃ i : Image, w.pkg.images = s.pkg.images ++ [i] ∧ i.kind = kind ∧ i.serial = s.pkg.serial + 1 ∧ i.regs = s.regs ∧
    i.tiles = s.tiles ∧ i.complete = false ∧ w.pkg.serial = s.pkg.serial + 1

theorem State.takeImage_captured (s : State) (kind : Nat) : s.Captured kind (s.takeImage kind) := by
  obtain ⟨p, e, n, l, c, h⟩ := s.takeImage_frame kind
  rw [h]
  exact ⟨⟨rfl, rfl, rfl, rfl⟩, s.capture kind 0 0, rfl, rfl, rfl, rfl, rfl, rfl, rfl⟩

theorem State.takeImage_stream (s : State) (kind : Nat) : (s.takeImage kind).stream = s.stream := by
  obtain ⟨p, e, n, l, c, h⟩ := s.takeImage_frame kind
  rw [h]

theorem State.takeImage_jobs (s : State) (kind : Nat) : (s.takeImage kind).pkg.jobs = s.pkg.jobs := by
  obtain ⟨p, e, n, l, c, h⟩ := s.takeImage_frame kind
  rw [h]

theorem State.takeImage_now (s : State) (kind : Nat) : (s.takeImage kind).now = s.now := by
  obtain ⟨p, e, n, l, c, h⟩ := s.takeImage_frame kind
  rw [h]

/-- A job that the capture swaps out, with its quantum clock stopped (R311). -/
def Job.stopped (j : Job) (now : Nat) : Job :=
  { j with
    state := .swapping, quantUsed := if j.record.quant * 1750 ≤ j.quantUsed + (now - j.quantFrom) then 0
      else j.quantUsed + (now - j.quantFrom),
    quantFrom := now }

theorem Job.stopClock_swapping {j : Job} (out : j.state ≠ .swapping) (now : Nat) :
    { j.stopClock now with state := .swapping } = j.stopped now := by
  unfold Job.stopClock
  rw [if_neg out]
  rfl

section
variable {s : State} {j : Job} (res : s.pkg.residentJob = some j)
include res

/-- The stopped, quiet die is captured, with every other die of the job in its place (R331, R345). -/
theorem imageCapture_captures {kind t0 : Nat} (mode : s.stream.mode = .imageStop kind t0) (quiet : s.quiet = true)
    (free : s.eng.freeze = 0) (fresh : s.capturing = false)
    (others : s.othersReport j (fun r => r.still && (r.ended || decide (kind ≠ 3) || decide (r.bpcnt = s.ctl.bpcnt))) = true) :
    execImageCapture s = .next (if kind = 3 then s.takeImage kind else { s.takeImage kind with
      pkg := (s.takeImage kind).pkg.setJob { j.stopClock (s.takeImage kind).now with state := .swapping } }) := by
  unfold execImageCapture
  rw [res, mode]
  dsimp only
  refine if_pos ?_
  rw [quiet, fresh, others, decide_eq_true free]
  rfl

theorem imageCapture_frozen {kind t0 : Nat} (mode : s.stream.mode = .imageStop kind t0) (frozen : s.eng.freeze ≠ 0) :
    execImageCapture s = .next s := by
  unfold execImageCapture
  rw [res, mode]
  dsimp only
  refine if_neg ?_
  rw [decide_eq_false frozen, Bool.and_false]
  exact Bool.false_ne_true

theorem scanStop_captures (can : s.canScan = true) (due : j.state = .swapping ∨ (j.state = .running ∧ s.swapDue j = true)) :
    execScanStop s = .next (s.scanNow j) := by
  unfold execScanStop
  rw [res]
  dsimp only
  refine congrArg Host.Outcome.next (if_pos ?_)
  rw [can, Bool.true_and]
  rcases due with due | ⟨runs, due⟩
  · rw [decide_eq_true due, Bool.true_or]
  · rw [decide_eq_true runs, due, Bool.true_and, Bool.or_true]

theorem drainEscalation_captures {t0 : Nat} (draining : j.state = .draining t0) (late : t0 + 350000 ≤ s.now)
    (can : s.canScan = true) (mode : s.stream.mode = .running) : execDrainEscalation s = .next (s.scanNow j) := by
  unfold execDrainEscalation
  rw [res]
  dsimp only
  rw [draining, mode]
  refine congrArg Host.Outcome.next (if_pos ?_)
  rw [decide_eq_true late, can]
  rfl

theorem drainRequest_requests (runs : j.state = .running) (due : s.swapDue j = true) :
    execDrainRequest s = .next { s with ctl.drainReq := true, pkg := s.pkg.setJob { j with state := .draining s.now } } := by
  unfold execDrainRequest
  rw [res]
  exact if_pos ⟨runs, due⟩

/-- The target of the next buddy point, of a job on this die alone (R344). -/
theorem budtgtSet_sets (buddy : j.record.buddy ≠ 0) (runs : j.state = .running)
    (due : j.buddyAt + j.record.buddy * 1750000 ≤ s.now) (alone : j.peers = []) :
    execBudtgtSet s = .next { s with
      ctl.budtgt := s.ctl.bpcnt + 1, pkg := s.pkg.setJob { j with buddyAt := s.now } } := by
  have target : BitVec.ofNat 64 (s.ctl.bpcnt.toNat + 1) = s.ctl.bpcnt + 1 := by bv_omega
  unfold execBudtgtSet
  rw [res]
  dsimp only
  rw [alone, List.foldl_nil, target]
  exact if_pos ⟨buddy, runs, due⟩

omit res in
theorem late_all {c e : Bool} {o : Option Nat} {p : Nat → Bool} {t : Nat} (fresh : c = false) (moving : e = false)
    (first : o = some t) (late : p t = true) : (!c && o.any p && !e) = true := by
  subst fresh moving first
  exact congrArg (fun b => true && b && true) late

omit res in
theorem pointLate_running {t : Nat} (fresh : s.capturing = false) (first : j.peerStop = some t) (late : t + 350000 ≤ s.now) :
    s.pointLate j none = true := by
  unfold State.pointLate
  exact late_all fresh rfl first (decide_eq_true late)

omit res in
theorem pointLate_stopped {t : Nat} (fresh : s.capturing = false) (others : s.othersReport j PeerReport.still = false)
    (late : t + 350000 ≤ s.now) : s.pointLate j (some t) = true := by
  unfold State.pointLate
  cases j.peerStop with
  | none => exact late_all fresh others rfl (decide_eq_true late)
  | some b => exact late_all fresh others rfl (decide_eq_true ((Nat.add_le_add_right (Nat.min_le_left t b) 350000).trans late))

/-- A buddy point at which another die stopped long ago is given up by a die that runs (R345). -/
theorem buddyPointAbandon_running {t0 : Nat} (mode : s.stream.mode = .running) (target : s.ctl.budtgt ≠ 0)
    (fresh : s.capturing = false) (first : j.peerStop = some t0) (late : t0 + 350000 ≤ s.now) :
    execBuddyPointAbandon s = .next { s with ctl.budtgt := 0, pkg := s.pkg.setJob j.pointOver } := by
  unfold execBuddyPointAbandon
  rw [res]
  dsimp only
  rw [mode]
  exact congrArg Host.Outcome.next (if_pos ⟨target, pointLate_running fresh first late⟩)

/-- So is one at which this die stopped, and not all others have. -/
theorem buddyPointAbandon_stopped {t0 : Nat} (mode : s.stream.mode = .imageStop 3 t0) (fresh : s.capturing = false)
    (late : t0 + 350000 ≤ s.now) (others : s.othersReport j PeerReport.still = false) :
    execBuddyPointAbandon s = .next { s with
      ctl.budtgt := 0, pkg := s.pkg.setJob j.pointOver, stream.mode := .running } := by
  unfold execBuddyPointAbandon
  rw [res]
  dsimp only
  rw [mode]
  exact congrArg Host.Outcome.next (if_pos (pointLate_stopped fresh others late))

end

/-- A scan captures what stands in its cycle, and the die's scan clock is stopped (R334). -/
theorem State.scanNow_captured (s : State) (j : Job) : s.Captured 2 (s.scanNow j) ∧
    (s.scanNow j).stream = { s.stream with mode := .scanStop } ∧
    (s.scanNow j).pkg.jobs = (s.pkg.setJob { j.stopClock s.now with state := .swapping }).jobs := by
  have traced := (s.lanternC 0x07 0x3 (pair32 (codeOff s.stream.pc) 0)).takeImage_frame 2
  obtain ⟨p, e, n, l, c, h⟩ := traced
  unfold State.scanNow
  dsimp only
  rw [h]
  exact ⟨⟨⟨rfl, rfl, rfl, rfl⟩, (s.lanternC 0x07 0x3 (pair32 (codeOff s.stream.pc) 0)).capture 2 0 0, rfl, rfl, rfl, rfl, rfl, rfl, rfl⟩, rfl, rfl⟩

end Sys2Proof.Machine
end
section
/-! Captures that complete (R336, R343, R345). -/

namespace Sys2Proof.Machine

/-- An event changes host memory, the tenant's ring and what management and chains see. -/
theorem State.emit_record (s : State) (t : Nat) (e : Event) : ∃ host tenants mgmt written, s.emit t e = { s with
    mem := { s.mem with host := host }, pkg := { s.pkg with tenants := tenants, mgmt := mgmt, written := written } } := by
  unfold State.emit
  dsimp only
  split
  · exact ⟨_, _, _, _, rfl⟩
  · exact ⟨_, _, _, _, rfl⟩

/-- An image as it is complete in its slot, before it is sealed (R336). -/
def State.completed (s : State) (i : Image) : Image :=
  { i with complete := true, slot := s.pkg.imageSlot i.kind, ports := s.portRecords }

/-- The image as its slot holds it (R337). -/
def State.sealedImage (s : State) (i : Image) : Image := { s.completed i with bytes := s.pkg.sealImage (s.completed i) }

theorem State.writeImage_one {s : State} {i : Image} (images : s.pkg.images = [i]) :
    s.writeImage i = ({ s with pkg.images := [s.sealedImage i] } : State).storeDram (slotBase (s.pkg.imageSlot i.kind))
      (s.pkg.sealImage (s.completed i)) := by
  have fill : s.pkg.fillSlot (s.sealedImage i) = [s.sealedImage i] := by
    unfold Pkg.fillSlot
    rw [images]
    exact List.filterMap_cons_some (if_pos rfl)
  exact congrArg (fun l => ({ s with pkg.images := l } : State).storeDram (slotBase (s.pkg.imageSlot i.kind))
    (s.pkg.sealImage (s.completed i))) fill

/-- A complete image that is the only one of its job stays. -/
theorem keepImages_one {x : Image} (complete : x.complete = true) (kind : x.kind = 1 ∨ x.kind = 2 ∨ x.kind = 3) :
    keepImages [x] x.jobid = [x] := by
  rcases kind with kind | kind | kind <;> simp [keepImages, complete, kind]

/-- A capture whose image has been written, with its event (R336, R354). -/
def State.imageWritten (s : State) (j : Job) (i : Image) (n : Nat) : State :=
  ({ s.writeImage i with pkg.images := keepImages (s.writeImage i).pkg.images i.jobid } : State).imageEvent j i.kind 0 n

/-- Bytes that are stored with new images recorded, and the event of it. -/
theorem State.stored_record (s : State) (l k : List Image) (o : Nat) (bs : List Byte) (j : Job) (kind n : Nat) (what : Byte) :
    ∃ host undo tenants mgmt written,
      ({ ({ s with pkg.images := l } : State).storeDram o bs with pkg.images := k } : State).imageEvent j kind what n = { s with
        mem := { s.mem with host := host, undoDram := undo, dram := putBytes s.mem.dram o bs }
        pkg := { s.pkg with tenants := tenants, mgmt := mgmt, written := written, images := k } } := by
  obtain ⟨host, tenants, mgmt, written, h⟩ := State.emit_record
    ({ ({ s with pkg.images := l } : State).storeDram o bs with pkg.images := k } : State) j.tenant
    { s.dieEvent 0x0007 (BitVec.ofNat 8 kind) what 0 0 (BitVec.ofNat 64 n) 0 with job := BitVec.ofNat 16 j.id }
  exact ⟨host, _, tenants, mgmt, written, h⟩

theorem State.imageWritten_one {s : State} {j : Job} {i : Image} (images : s.pkg.images = [i])
    (kind : i.kind = 1 ∨ i.kind = 2 ∨ i.kind = 3) (n : Nat) :
    ∃ host undo tenants mgmt written, s.imageWritten j i n = { s with
      mem := { s.mem with
        host := host, undoDram := undo
        dram := putBytes s.mem.dram (slotBase (s.pkg.imageSlot i.kind)) (s.pkg.sealImage (s.completed i)) }
      pkg := { s.pkg with tenants := tenants, mgmt := mgmt, written := written, images := [s.sealedImage i] } } := by
  have written := State.writeImage_one images
  have kept : keepImages (s.writeImage i).pkg.images i.jobid = [s.sealedImage i] :=
    (congrArg (fun w : State => keepImages w.pkg.images i.jobid) written).trans (keepImages_one (x := s.sealedImage i) rfl kind)
  unfold State.imageWritten
  rw [kept, written]
  exact State.stored_record s _ _ _ _ j _ n 0

/-- What a written image leaves and adds. -/
structure State.Sealed (s : State) (i : Image) (w : State) : Prop where
  image : w.pkg.images = [s.sealedImage i]
  regs : w.regs = s.regs
  loc : w.mem.loc = s.mem.loc
  dram : w.mem.dram = putBytes s.mem.dram (slotBase (s.pkg.imageSlot i.kind)) (s.pkg.sealImage (s.completed i))

theorem State.completed_arg (s : State) (a : EvArg) (i : Image) : ({ s with arg := a } : State).completed i = s.completed i := rfl

theorem State.sealedImage_arg (s : State) (a : EvArg) (i : Image) :
    ({ s with arg := a } : State).sealedImage i = s.sealedImage i := by
  unfold State.sealedImage
  rw [State.completed_arg]

theorem State.Sealed.of_arg {s w : State} {a : EvArg} {i : Image} (h : ({ s with arg := a } : State).Sealed i w) : s.Sealed i w := by
  obtain ⟨image, regs, loc, dram⟩ := h
  rw [State.sealedImage_arg] at image
  rw [State.completed_arg] at dram
  exact ⟨image, regs, loc, dram⟩

section
variable {s : State} {i : Image} {j : Job} {n : Nat} (arg : s.arg = .nat n) (res : s.pkg.residentJob = some j)
  (images : s.pkg.images = [i]) (serial : i.serial = n) (incomplete : i.complete = false) (own : i.jobid = s.ctl.jobid)
  (parked : s.portsParked = true)

theorem State.imageWritten_sealed (images : s.pkg.images = [i]) (kind : i.kind = 1 ∨ i.kind = 2 ∨ i.kind = 3) :
    s.Sealed i (s.imageWritten j i n) := by
  obtain ⟨host, undo, tenants, mgmt, written, h⟩ := State.imageWritten_one (j := j) images kind n
  have image := congrArg (fun w : State => w.pkg.images) h
  have regs := congrArg (fun w : State => w.regs) h
  have loc := congrArg (fun w : State => w.mem.loc) h
  have dram := congrArg (fun w : State => w.mem.dram) h
  dsimp only at image regs loc dram
  exact ⟨image, regs, loc, dram⟩

include arg res images serial incomplete own parked

/-- With every port PARKED the image is written, and after it the die goes on or is free. -/
theorem captureComplete_writes (rest : i.kind = 3 ∨ s.othersReport j PeerReport.still = true) :
    execCaptureComplete s = .next (if i.kind = 3
      then ({ s.imageWritten j i n with
        stream.mode := .running, pkg := (s.imageWritten j i n).pkg.setJob j.pointOver } : State).unparkAll
      else (s.imageWritten j i n).swapOut j i.kind n) := by
  have found : (s.pkg.images.find? fun i => decide (i.serial = n) && !i.complete && decide (i.jobid = s.ctl.jobid)) = some i := by
    rw [images]
    exact List.find?_cons_of_pos (by rw [decide_eq_true serial, incomplete, decide_eq_true own]; rfl)
  have settled : s.parkRest = s :=
    State.parkRest_settled fun d hd => .inl (State.portsParked_iff.mp parked d hd)
  unfold execCaptureComplete
  rw [arg]
  dsimp only
  rw [found, res]
  dsimp only
  rw [settled]
  refine (if_neg ?_).trans ?_
  · rintro (h | ⟨h, k⟩)
    · exact Bool.false_ne_true (h.symm.trans parked)
    · exact rest.elim h fun r => Bool.false_ne_true (k.symm.trans r)
  · by_cases kind : i.kind = 3
    · rw [if_pos kind, if_pos kind]; rfl
    · rw [if_neg kind, if_neg kind]; rfl

/-- After a buddy capture the die goes on (R345). -/
theorem captureComplete_buddy (kind : i.kind = 3) :
    ∃ w, execCaptureComplete s = .next w ∧ w.stream.mode = .running ∧ s.Sealed i w := by
  have event := captureComplete_writes arg res images serial incomplete own parked (.inl kind)
  rw [if_pos kind] at event
  obtain ⟨image, regs, loc, dram⟩ := State.imageWritten_sealed (s := s) (j := j) (n := n) images (.inr (.inr kind))
  obtain ⟨p, e, l, m, c, -, unparked⟩ := State.unparkAll_relinks ({ s.imageWritten j i n with
    stream.mode := .running, pkg := (s.imageWritten j i n).pkg.setJob j.pointOver } : State)
  exact ⟨_, event.trans (congrArg Host.Outcome.next unparked), rfl, image, regs, loc, dram⟩

/-- After any other capture, once every die of the job has been captured, the die is free (R311). -/
theorem captureComplete_swaps (kind : i.kind = 1 ∨ i.kind = 2) (others : s.othersReport j PeerReport.still = true) :
    execCaptureComplete s = .next ((s.imageWritten j i n).swapOut j i.kind n) := by
  have event := captureComplete_writes arg res images serial incomplete own parked (.inr others)
  rwa [if_neg (by omega)] at event

end

/-- What a swap-out leaves of a die whose program is not stopped by a fatal trap (R51, R109, R149, R311). -/
theorem State.swapOut_frees {s : State} (j : Job) (kind n : Nat) (mode : s.stream.mode ≠ .fatal) : s.swapOut j kind n = { s with
    ports := s.ports.map fun p => if p.state = .parked then { p with rx := [], swapped := true } else p
    pkg := { s.pkg.setJob { j.out kind n s.now with saved := some s.mem.wtab, dieRetries := s.stream.retries } with
      resident := none, passDue := some s.now }
    stream := Stream.clear, lines := .replicate 11 Timeline.clear, ctl.wtlock := false
    eng := { Engines.clear with freeze := if s.stream.mode = .scanStop then 0 else s.eng.freeze } } := if_neg mode

/-- A port of a swapped-out die that was PARKED holds nothing that came in (R149). -/
theorem port_swapped {s : State} {d : Nat} (hd : d < 13) (parked : (s.port d).state = .parked) :
    let p := vget (s.ports.map fun p => if p.state = .parked then { p with rx := [], swapped := true } else p) d Port.clear
    p.swapped = true ∧ p.rx = [] := by
  have here : (s.ports[d]).state = .parked := by
    have port : s.port d = s.ports[d] := by simp [State.port, vget, hd]
    rw [← port]; exact parked
  simp [vget, hd, here]

/-- A job that is in the package's list stands there, replaced, afterwards. -/
theorem mem_setJob {p : Pkg} {j k : Job} (res : p.residentJob = some j) (same : k.id = j.id) : k ∈ (p.setJob k).jobs :=
  List.mem_map.mpr ⟨j, List.mem_of_find?_eq_some res, if_pos same.symm⟩

end Sys2Proof.Machine
end
section
/-! What the events of images and buddy points leave and add (R330 to R345). -/

namespace Sys2Proof.Machine

section
variable {s : State} {i : Image} {j : Job} {n : Nat}

/-- The control stream, engines, ports, jobs and window table stand while an image is written. -/
theorem State.imageWritten_frame (images : s.pkg.images = [i]) (kind : i.kind = 1 ∨ i.kind = 2 ∨ i.kind = 3) :
    (s.imageWritten j i n).stream = s.stream ∧ (s.imageWritten j i n).eng = s.eng ∧ (s.imageWritten j i n).ports = s.ports ∧
      (s.imageWritten j i n).pkg.jobs = s.pkg.jobs ∧ (s.imageWritten j i n).mem.wtab = s.mem.wtab ∧
      (s.imageWritten j i n).now = s.now := by
  obtain ⟨host, undo, tenants, mgmt, written, h⟩ := State.imageWritten_one (j := j) images kind n
  have stream := congrArg (fun w : State => w.stream) h
  have eng := congrArg (fun w : State => w.eng) h
  have ports := congrArg (fun w : State => w.ports) h
  have jobs := congrArg (fun w : State => w.pkg.jobs) h
  have wtab := congrArg (fun w : State => w.mem.wtab) h
  have now := congrArg (fun w : State => w.now) h
  dsimp only at stream eng ports jobs wtab now
  exact ⟨stream, eng, ports, jobs, wtab, now⟩

/-- What a die that a captured job leaves is like: free, with the image written and the job waiting for a place (R311). -/
structure State.SwappedOut (s : State) (i : Image) (j : Job) (n : Nat) (w : State) : Prop where
  stream : w.stream = Stream.clear
  resident : w.pkg.resident = none
  due : w.pkg.passDue = some s.now
  image : s.Sealed i w
  eng : w.eng = { Engines.clear with freeze := if s.stream.mode = .scanStop then 0 else s.eng.freeze }
  ports : ∀ d < 13, (w.port d).swapped = true ∧ (w.port d).rx = []
  job : ∃ y ∈ w.pkg.jobs, y.id = j.id ∧ y.state = .waiting ∧ y.image = some (i.kind, n) ∧ y.saved = some s.mem.wtab

theorem captureComplete_frees (arg : s.arg = .nat n) (res : s.pkg.residentJob = some j) (images : s.pkg.images = [i])
    (serial : i.serial = n) (incomplete : i.complete = false) (own : i.jobid = s.ctl.jobid) (parked : s.portsParked = true)
    (kind : i.kind = 1 ∨ i.kind = 2) (others : s.othersReport j PeerReport.still = true) (mode : s.stream.mode ≠ .fatal) :
    ∃ w, execCaptureComplete s = .next w ∧ s.SwappedOut i j n w := by
  have event := captureComplete_swaps arg res images serial incomplete own parked kind others
  have kinds : i.kind = 1 ∨ i.kind = 2 ∨ i.kind = 3 := kind.elim .inl fun k => .inr (.inl k)
  obtain ⟨image, regs, loc, dram⟩ := State.imageWritten_sealed (s := s) (j := j) (n := n) images kinds
  obtain ⟨stream, eng, ports, jobs, wtab, now⟩ := State.imageWritten_frame (s := s) (j := j) (n := n) images kinds
  generalize s.imageWritten j i n = u at event image regs loc dram stream eng ports jobs wtab now
  rw [State.swapOut_frees j i.kind n (stream ▸ mode)] at event
  refine ⟨_, event, rfl, rfl, congrArg some now, ⟨image, regs, loc, dram⟩, ?_, ?_, ?_⟩
  · show ({ Engines.clear with freeze := if u.stream.mode = .scanStop then 0 else u.eng.freeze } : Engines) = _
    rw [stream, eng]
  · intro d hd
    have port : u.port d = s.port d := by unfold State.port; rw [ports]
    exact port_swapped hd (port ▸ State.portsParked_iff.mp parked d hd)
  · refine ⟨{ j.out i.kind n u.now with saved := some u.mem.wtab, dieRetries := u.stream.retries }, ?_, rfl, rfl, rfl, ?_⟩
    · refine List.mem_map.mpr ⟨j, ?_, if_pos rfl⟩
      rw [jobs]
      exact List.mem_of_find?_eq_some res
    · exact congrArg some wtab

end

/-- A capture by an image stop of kind 3 leaves the stream and adds its image. -/
theorem imageCapture_buddy {s : State} {j : Job} {t0 : Nat} (res : s.pkg.residentJob = some j)
    (mode : s.stream.mode = .imageStop 3 t0) (quiet : s.quiet = true) (free : s.eng.freeze = 0) (fresh : s.capturing = false)
    (others : s.othersReport j (fun r => r.ended || (r.stopped && decide (r.bpcnt = s.ctl.bpcnt))) = true) :
    ∃ w, execImageCapture s = .next w ∧ s.Captured 3 w ∧ w.stream = s.stream := by
  have there : (fun r : PeerReport => r.ended || (r.stopped && decide (r.bpcnt = s.ctl.bpcnt))) =
      fun r => r.still && (r.ended || decide (3 ≠ 3) || decide (r.bpcnt = s.ctl.bpcnt)) := by
    funext r
    unfold PeerReport.still
    cases r.ended <;> cases r.stopped <;> simp
  rw [there] at others
  exact ⟨_, (imageCapture_captures res mode quiet free fresh others).trans (congrArg Host.Outcome.next (if_pos rfl)), s.takeImage_captured 3,
    s.takeImage_stream 3⟩

theorem State.Captured.setJob {s u : State} {kind : Nat} (h : s.Captured kind u) (k : Job) :
    s.Captured kind { u with pkg := u.pkg.setJob k } := ⟨h.same, h.image⟩

/-- A capture by a drain stop also stops the job's quantum clock. -/
theorem imageCapture_drain {s : State} {j : Job} {t0 : Nat} (res : s.pkg.residentJob = some j)
    (mode : s.stream.mode = .imageStop 1 t0) (quiet : s.quiet = true) (free : s.eng.freeze = 0) (fresh : s.capturing = false)
    (out : j.state ≠ .swapping) (others : s.othersReport j (fun r => r.ended || r.stopped) = true) :
    ∃ w, execImageCapture s = .next w ∧ s.Captured 1 w ∧ w.stream = s.stream ∧
      w.pkg.jobs = (s.pkg.setJob (j.stopped s.now)).jobs := by
  have there : (fun r : PeerReport => r.ended || r.stopped) =
      fun r => r.still && (r.ended || decide (1 ≠ 3) || decide (r.bpcnt = s.ctl.bpcnt)) := by
    funext r
    unfold PeerReport.still
    simp
  rw [there] at others
  have event := (imageCapture_captures res mode quiet free fresh others).trans
    (congrArg Host.Outcome.next (if_neg (show ¬1 = 3 by decide)))
  rw [Job.stopClock_swapping out, s.takeImage_now] at event
  have captured := s.takeImage_captured 1
  have stream := s.takeImage_stream 1
  have listed := s.takeImage_jobs 1
  generalize s.takeImage 1 = u at event captured stream listed
  refine ⟨_, event, captured.setJob _, stream, ?_⟩
  show (u.pkg.setJob (j.stopped s.now)).jobs = _
  unfold Pkg.setJob
  dsimp only
  rw [listed]

/-- Settles O51: what each stop, capture, completion and buddy point of the resident job leaves and adds. -/
theorem imageEvents : Obligations.ImageEvents := by
  unfold Obligations.ImageEvents
  intro s j res jobs same used stopped captured
  refine ⟨?_, ?_, ?_, ?_, ?_, ?_, ?_, ?_, ?_, ?_⟩
  · exact fun runs due => ⟨_, drainRequest_requests res runs due, ⟨rfl, rfl, rfl, rfl⟩, rfl, rfl, rfl⟩
  · intro t0 mode quiet free fresh others
    obtain ⟨w, event, ⟨kept, image⟩, stream⟩ := imageCapture_buddy res mode quiet free fresh others
    exact ⟨w, event, kept, image, stream⟩
  · exact fun k t0 mode frozen => imageCapture_frozen res mode frozen
  · intro t0 mode quiet free fresh out others
    obtain ⟨w, event, ⟨kept, image⟩, stream, swapped⟩ := imageCapture_drain res mode quiet free fresh out others
    exact ⟨w, event, kept, image, stream, swapped⟩
  · intro can due
    obtain ⟨⟨kept, image⟩, stream, -⟩ := s.scanNow_captured j
    exact ⟨_, scanStop_captures res can due, kept, image, stream⟩
  · intro t0 draining late can mode
    obtain ⟨⟨kept, image⟩, stream, out⟩ := s.scanNow_captured j
    rw [Job.stopClock_swapping (by rw [draining]; nofun)] at out
    exact ⟨_, drainEscalation_captures res draining late can mode, kept, image, stream, out⟩
  · intro i n images serial incomplete own parked mode nat x bs written
    refine ⟨fun kind => ?_, fun kind others => ?_⟩
    · obtain ⟨w, event, runs, image⟩ := captureComplete_buddy (s := nat) rfl res images serial incomplete own parked kind
      obtain ⟨images, regs, loc, dram⟩ := image.of_arg
      exact ⟨w, event, runs, images, regs, loc, dram⟩
    · obtain ⟨w, event, out⟩ := captureComplete_frees (s := nat) rfl res images serial incomplete own parked kind others mode
      obtain ⟨stream, resident, due, image, eng, ports, job⟩ := out
      obtain ⟨images, regs, loc, dram⟩ := image.of_arg
      exact ⟨w, event, stream, resident, due, ⟨images, regs, loc, dram⟩, eng, ports, job⟩
  · exact fun buddy runs due alone => ⟨_, budtgtSet_sets res buddy runs due alone, ⟨rfl, rfl, rfl, rfl⟩, rfl, rfl⟩
  · exact fun t0 mode target fresh first late => buddyPointAbandon_running res mode target fresh first late
  · exact fun t0 mode fresh late others => buddyPointAbandon_stopped res mode fresh late others

end Sys2Proof.Machine
end

section
/-! Dumps, resumes, resets and the return of a faulted die (R33, R341, R346, R348, R351). -/

namespace Sys2Proof.Machine

/-! ## Dumps -/

/-- A dump that is complete, with the port records it shows (R348, R352). -/
def Dump.whole (d : Dump) (ports : Vector Port 13) : Dump := { d with img := { d.img with complete := true, ports := ports } }

/-- The sealed bytes of dump `x` stand in the dump area, and it is marked complete under number `n`. -/
def State.dumpWritten (s : State) (n : Nat) (d x : Dump) : State :=
  { s with
    mem.host := putBytes s.mem.host d.addr ((s.pkg.sealDump x).take (s.pkg.tenant d.tenant).cfg.dumpa.size)
    pkg.dumps := s.pkg.dumps.map fun y => if y.serial = n then x else y }

section
variable {s : State} {n : Nat} {d : Dump} (arg : s.arg = .nat n)
  (found : (s.pkg.dumps.find? fun x => decide (x.serial = n) && !x.img.complete) = some d)
  (settled : s.stream.mode = .sdump → ∀ p < 13, (s.port p).state = .parked ∨ (s.port p).state = .up ∨ (s.port p).state = .stopped)
include arg found settled

theorem dumpComplete_settled : execDumpComplete s = if s.dumpWaits d then .next s else
    if d.img.kind = 5 then .next (if s.stream.mode = .sdump
      then (({ s.dumpWritten n d (d.whole (if d.img.kind = 5 then s.portRecords else d.img.ports)) with
        stream.mode := .running } : State).resyncAll false).dueStop
      else s.dumpWritten n d (d.whole (if d.img.kind = 5 then s.portRecords else d.img.ports)))
    else .next (if d.img.level = 3
      then (s.dumpWritten n d (d.whole (if d.img.kind = 5 then s.portRecords else d.img.ports))).fatalEvent d.tenant d.img.cause (some n)
      else s.dumpWritten n d (d.whole (if d.img.kind = 5 then s.portRecords else d.img.ports))) := by
  have rest : (if s.stream.mode = .sdump then s.parkRest else s) = s := by
    split
    · rename_i mode; exact State.parkRest_settled (settled mode)
    · rfl
  unfold execDumpComplete
  rw [arg]
  dsimp only
  rw [found]
  dsimp only
  rw [rest]
  rfl

theorem dumpComplete_other (kind : d.img.kind ≠ 5) : execDumpComplete s = .next (if d.img.level = 3
    then (s.dumpWritten n d (d.whole d.img.ports)).fatalEvent d.tenant d.img.cause (some n)
    else s.dumpWritten n d (d.whole d.img.ports)) := by
  rw [dumpComplete_settled arg found settled, if_neg, if_neg kind, if_neg kind]
  unfold State.dumpWaits
  rw [decide_eq_false kind]
  exact Bool.false_ne_true

theorem dumpComplete_waits (kind : d.img.kind = 5) (mode : s.stream.mode = .sdump) (waits : s.portsParked = false) :
    execDumpComplete s = .next s := by
  rw [dumpComplete_settled arg found settled, if_pos]
  unfold State.dumpWaits
  rw [decide_eq_true kind, decide_eq_true mode, waits]
  rfl

theorem dumpComplete_diagnostic (kind : d.img.kind = 5) (done : s.stream.mode = .sdump → s.portsParked = true) :
    execDumpComplete s = .next (if s.stream.mode = .sdump
      then (({ s.dumpWritten n d (d.whole s.portRecords) with stream.mode := .running } : State).resyncAll false).dueStop
      else s.dumpWritten n d (d.whole s.portRecords)) := by
  rw [dumpComplete_settled arg found settled, if_neg, if_pos kind, if_pos kind]
  unfold State.dumpWaits
  by_cases mode : s.stream.mode = .sdump
  · rw [done mode, Bool.not_true, Bool.and_false]; exact Bool.false_ne_true
  · rw [decide_eq_false mode, Bool.and_false]; exact Bool.false_ne_true

end

/-- A stop that is due when a die goes on changes no register, byte or dump. -/
theorem State.dueStop_frame (s : State) : s.dueStop.regs = s.regs ∧ s.dueStop.mem.loc = s.mem.loc ∧
    s.dueStop.mem.host = s.mem.host ∧ s.dueStop.pkg = s.pkg ∧ (s.stream.stopDue = false → s.dueStop = s) := by
  unfold State.dueStop
  split
  · rename_i due
    refine ⟨rfl, rfl, rfl, rfl, fun h => ?_⟩
    rw [h] at due
    exact absurd due Bool.false_ne_true
  · exact ⟨rfl, rfl, rfl, rfl, fun _ => rfl⟩

/-- A die that goes on after a diagnostic dump, its ports resyncing (R352). -/
def State.goesOn (s : State) : State := (({ s with stream.mode := .running } : State).resyncAll false).dueStop

theorem State.goesOn_frame (s : State) : s.goesOn.mem.host = s.mem.host ∧ s.goesOn.pkg.dumps = s.pkg.dumps ∧
    s.goesOn.regs = s.regs ∧ s.goesOn.mem.loc = s.mem.loc ∧ (s.stream.stopDue = false → s.goesOn.stream.mode = .running) := by
  unfold State.goesOn
  obtain ⟨p, e, n, l, c, -, h⟩ := ({ s with stream.mode := .running } : State).resyncAll_relinks false
  rw [h]
  obtain ⟨regs, loc, host, pkg, stays⟩ := State.dueStop_frame { s with
    stream.mode := .running, ports := p, eng := e, ctl.lnwrm := n, mem := { s.mem with lanternM := l, lanternNow := c } }
  exact ⟨host, congrArg Pkg.dumps pkg, regs, loc, fun due => by rw [stays due]⟩

theorem State.dumpWritten_frame (s : State) (n : Nat) (d x : Dump) : (s.dumpWritten n d x).regs = s.regs ∧
    (s.dumpWritten n d x).mem.loc = s.mem.loc ∧ (s.dumpWritten n d x).stream = s.stream := ⟨rfl, rfl, rfl⟩

section
variable {s : State} {n : Nat} {d : Dump} (arg : s.arg = .nat n)
  (found : (s.pkg.dumps.find? fun x => decide (x.serial = n) && !x.img.complete) = some d) (kind : d.img.kind = 5)
include arg found kind

theorem dumpComplete_goesOn (mode : s.stream.mode = .sdump) (parked : ∀ p < 13, (s.port p).state = .parked) :
    execDumpComplete s = .next (s.dumpWritten n d (d.whole s.portRecords)).goesOn :=
  (dumpComplete_diagnostic arg found (fun _ p hp => .inl (parked p hp)) kind fun _ => State.portsParked_iff.mpr parked).trans
    (congrArg Host.Outcome.next (if_pos mode))

theorem dumpComplete_halted (mode : s.stream.mode ≠ .sdump) :
    execDumpComplete s = .next (s.dumpWritten n d (d.whole s.portRecords)) :=
  (dumpComplete_diagnostic arg found (fun h => absurd h mode) kind (fun h => absurd h mode)).trans
    (congrArg Host.Outcome.next (if_neg mode))

end

/-! ## Copies of a resumed die -/

theorem State.releaseStalls_copies (s : State) (entry : Nat) (refuse : Bool) :
    ∃ q, s.releaseStalls entry refuse = { s with eng.copy := q } := by
  unfold State.releaseStalls
  generalize List.range 4 = l
  induction l generalizing s with
  | nil => exact ⟨s.eng.copy, rfl⟩
  | cons i l ih => obtain ⟨q, h⟩ := ih { s with eng.copy := _ }; exact ⟨q, h⟩

theorem State.foldl_releaseStalls_copies (l : List Nat) (s : State) :
    ∃ q, l.foldl (fun s i => s.releaseStalls i true) s = { s with eng.copy := q } := by
  induction l generalizing s with
  | nil => exact ⟨s.eng.copy, rfl⟩
  | cons i l ih =>
    obtain ⟨q, h⟩ := s.releaseStalls_copies i true
    obtain ⟨q', h'⟩ := ih { s with eng.copy := q }
    exact ⟨q', by rw [List.foldl_cons, h, h']⟩

/-- A resume changes the copies of a die alone. -/
theorem State.resumeStalls_copies (s : State) (refused : List Nat) : ∃ q, s.resumeStalls refused = { s with eng.copy := q } := by
  obtain ⟨q, h⟩ := State.foldl_releaseStalls_copies refused s
  unfold State.resumeStalls
  dsimp only
  rw [h]
  exact ⟨_, rfl⟩

/-- A copy that has a status is refused no more. -/
theorem State.foldl_releaseStalls_ended {c : CopyCmd} (ended : c.status.isNone = false) {i : Nat} (hi : i < 4) (l : List Nat) :
    ∀ s : State, s.copyQueue i = [c] → (l.foldl (fun s i => s.releaseStalls i true) s).copyQueue i = [c] := by
  induction l with
  | nil => exact fun s h => h
  | cons a l ih =>
    intro s h
    refine ih _ ?_
    obtain ⟨-, -, -, queue⟩ := s.releaseStalls_frame a true
    rw [queue i hi, h]
    simp [CopyCmd.released, ended]

/-- A stalled copy ends with the first refusal of its page (R108). -/
theorem State.foldl_releaseStalls_one {c : CopyCmd} (stalled : c.stalled = true) (fresh : c.status = none) {i : Nat} (hi : i < 4)
    (l : List Nat) : ∀ s : State, s.copyQueue i = [c] → (l.foldl (fun s i => s.releaseStalls i true) s).copyQueue i =
      [if c.stallAt ∈ l then { c with status := some 0x11 } else c] := by
  induction l with
  | nil => exact fun s h => h
  | cons a l ih =>
    intro s h
    obtain ⟨-, -, -, queue⟩ := s.releaseStalls_frame a true
    have released : (s.releaseStalls a true).copyQueue i = [if c.stallAt = a then { c with status := some 0x11 } else c] := by
      rw [queue i hi, h]
      simp [CopyCmd.released, stalled, fresh]
    rw [List.foldl_cons]
    by_cases here : c.stallAt = a
    · rw [if_pos here] at released
      rw [State.foldl_releaseStalls_ended (by rfl) hi l _ released, if_pos (here ▸ List.mem_cons_self)]
    · rw [if_neg here] at released
      rw [ih _ released]
      simp [here]

/-- The copy that stands alone in its queue goes on, ends or stays, as its page is (R108, R109). -/
theorem State.resumeStalls_one {s : State} {c : CopyCmd} (stalled : c.stalled = true) (fresh : c.status = none) {i : Nat}
    (hi : i < 4) (queue : s.copyQueue i = [c]) (refused : List Nat) :
    (s.resumeStalls refused).copyQueue i = [if c.stallAt ∈ refused then { c with status := some 0x11, stallCause := 0 }
      else if wState (s.wentry c.stallAt) = 0 ∨ (c.stallCause = 1 ∧ wState (s.wentry c.stallAt) ≠ 1)
        then { c with stalled := false } else c] := by
  have one := State.foldl_releaseStalls_one stalled fresh hi refused s queue
  obtain ⟨q, h⟩ := State.foldl_releaseStalls_copies refused s
  rw [h] at one
  unfold State.resumeStalls
  dsimp only
  rw [h]
  have mapped (f : CopyCmd → CopyCmd) :
      ({ s with eng.copy := q.map fun q => q.map f } : State).copyQueue i =
        (({ s with eng.copy := q } : State).copyQueue i).map f := by
    simp [State.copyQueue, vget, hi]
  refine (mapped _).trans ?_
  rw [one, List.map_singleton]
  by_cases bad : c.stallAt ∈ refused
  · simp [bad, stalled]
  · simp [bad, stalled, fresh, State.canGoOn, State.wentry]

end Sys2Proof.Machine
end

section
/-! Resumes, refused tables, and the return of a faulted die (R19, R33, R341, R346). -/

namespace Sys2Proof.Machine

/-! ## The end of a job -/

/-- The end of a tenant's reset changes its entry, its queues and its images. -/
theorem State.finishReset_frame (s : State) (t : Nat) : ∃ tenants queues images, s.finishReset t = { s with
    pkg := { s.pkg with tenants := tenants, queues := queues, images := images } } := by
  unfold State.finishReset
  dsimp only
  split
  · obtain ⟨v, h⟩ := s.mapQueues_frame t fun q =>
      if (s.pkg.tenant t).cfg.susp then { q with qhead := q.qtail, live := [] } else HQueue.switchIn { q with qhead := q.qtail, live := [] }
    exact ⟨_, v, _, congrArg (fun u : State => ({ u with
      pkg.images := u.pkg.images.filter fun i => decide (i.tenant ≠ t) } : State).setTenant t
        { s.pkg.tenant t with resetting := false, stopped := false, pagers := [] }) h⟩
  · exact ⟨_, _, _, rfl⟩

/-- The event of a job's end, and its number in its queue, change host memory and the package's queues and tenants. -/
theorem State.endEvent_frame (s : State) (t q : Nat) (e : Event) (seq : W32) : ∃ host tenants queues mgmt written,
    (s.emit t e).endEntry q seq = { s with
      mem := { s.mem with host := host },
      pkg := { s.pkg with tenants := tenants, queues := queues, mgmt := mgmt, written := written } } := by
  obtain ⟨host, tenants, mgmt, written, h⟩ := s.emit_record t e
  rw [h]
  exact ⟨host, tenants, _, mgmt, written, rfl⟩

/-- A job that is no chain's leaves the package, and the die is free where it ran (R155, R306). -/
theorem State.closeJob_frame (s : State) {j : Job} (alone : j.chain = none) (status : Byte) :
    let here := decide (s.pkg.resident = some j.id)
    let u := if here && s.stream.mode.programRuns && decide (s.stream.mode ≠ .fatal) then s.endProgram false else s
    ∃ ports host tenants queues mgmt written images clearing, s.closeJob j status = { u with
      ports := ports, mem := { u.mem with host := host }
      pkg := { u.pkg with
        tenants := tenants, queues := queues, mgmt := mgmt, written := written, images := images, clearing := clearing
        jobs := u.pkg.jobs.filter fun x => decide (x.id ≠ j.id), passDue := some u.now
        resident := if here then none else u.pkg.resident } } := by
  intro here u
  let lone := j.saved.isSome && u.pkg.jobs.all fun x => decide (x.id = j.id) || x.saved.isNone
  let v : State := { u with
    ports := if lone then u.ports.map fun p => { p with swapped := false } else u.ports
    pkg := { u.pkg with
      jobs := u.pkg.jobs.filter fun x => decide (x.id ≠ j.id), passDue := some u.now, clearing := u.pkg.clearing || here
      resident := if here then none else u.pkg.resident
      images := u.pkg.images.filter fun i => decide (i.jobid ≠ BitVec.ofNat 32 j.id) } }
  have closed : s.closeJob j status = ((v.emit j.tenant (endEvent 0x0001 status j.id j.seq j.queue 0 j.record.flag)).endEntry
      j.queue j.seq).finishReset j.tenant := by
    unfold State.closeJob
    rw [alone]
  obtain ⟨host, tenants, queues, mgmt, written, ended⟩ :=
    v.endEvent_frame j.tenant j.queue (endEvent 0x0001 status j.id j.seq j.queue 0 j.record.flag) j.seq
  obtain ⟨tenants', queues', images, reset⟩ := State.finishReset_frame { v with
    mem := { v.mem with host := host },
    pkg := { v.pkg with tenants := tenants, queues := queues, mgmt := mgmt, written := written } } j.tenant
  rw [closed, ended, reset]
  exact ⟨_, host, tenants', queues', mgmt, written, images, _, rfl⟩

/-! ## An image is applied -/

/-- The die whose memory an image comes into: cleared for another tenant, with the image in its slot (R346, R360). -/
def State.imageBase (s : State) (j : Job) (i : Image) : State :=
  (if s.pkg.lastTenant = some j.tenant then s else s.tenantClear).fetchImage i

theorem State.fetchImage_frame (s : State) (i : Image) : ∃ dram undo images, s.fetchImage i = { s with
    mem := { s.mem with dram := dram, undoDram := undo }, pkg.images := images } := by
  unfold State.fetchImage
  split
  · exact ⟨_, _, _, rfl⟩
  · exact ⟨_, _, _, rfl⟩

theorem State.imageBase_frame (s : State) (j : Job) (i : Image) : ∃ loc dram undo images, s.imageBase j i = { s with
    mem := { s.mem with loc := loc, dram := dram, undoDram := undo }, pkg.images := images } := by
  unfold State.imageBase
  split
  · obtain ⟨dram, undo, images, h⟩ := s.fetchImage_frame i
    exact ⟨s.mem.loc, dram, undo, images, h⟩
  · obtain ⟨dram, undo, images, h⟩ := s.tenantClear.fetchImage_frame i
    exact ⟨_, dram, undo, images, h⟩

/-- A job as it runs on from an image (R341). -/
def State.resumedJob (s : State) (j : Job) (i : Image) : Job :=
  { j with
    state := if i.kind = 2 ∧ i.ctl.drainReq = true then JobState.draining s.now else .running, image := none, saved := none,
    refused := [], quantFrom := s.now, peerStop := none, oldBase := j.scbase }

/-- The die with an image applied, before its window table is checked. -/
def State.applied (s b : State) (j : Job) (i : Image) : State :=
  let t : State := { b with pkg := { b.pkg.setJob (s.resumedJob j i) with
    resident := some j.id, lastTenant := some j.tenant, clearing := false } }
  let t := t.restore i s.now
  { t with
    ctl := { t.ctl with scbase := j.scbase, codelim := i.ctl.codelim, rshwb := 0xBFD000000#36, wtlock := true }
    mem := { t.mem with wtab := s.resumeTable j, loc := i.loc }, stream := { t.stream with retries := s.retriesOf j i } }

theorem State.applyImage_eq (s : State) (j : Job) (i : Image) : s.applyImage j i =
    match (s.applied (s.imageBase j i) j i).tableFault with
    | some k => ({ s with ctl.wtlock := false, mem.wtab := s.resumeTable j } : State).answerWord (BitVec.ofNat 64 k) |>.closeJob j 0x10
    | none =>
      let t := (List.range 13).foldl (fun s d => s.resumePort i d) (s.applied (s.imageBase j i) j i)
      let t := t.lanternC 0x07 0x4 (pair32 (codeOff t.stream.pc) 0)
      (t.resumeStalls j.refused).imageEvent j i.kind 1 i.serial := rfl

/-- The job that was replaced is the resident one. -/
theorem residentJob_setJob {p : Pkg} {j k : Job} (found : p.jobs.find? (fun x => decide (x.id = j.id)) = some j)
    (same : k.id = j.id) : (p.setJob k).jobs.find? (fun x => decide (some x.id = some j.id)) = some k := by
  unfold Pkg.setJob
  dsimp only
  generalize p.jobs = jobs at found
  induction jobs with
  | nil => cases found
  | cons x l ih =>
    rw [List.map_cons]
    by_cases h : x.id = j.id
    · rw [if_pos (h.trans same.symm)]
      exact List.find?_cons_of_pos (by simp [same])
    · rw [if_neg fun e => h (e.trans same)]
      rw [List.find?_cons_of_neg (by simp [h])] at found ⊢
      exact ih found

/-- Clearing an event ring keeps every tenant's configuration. -/
theorem Pkg.clearRing_cfg (p : Pkg) (t u : Nat) : (vget (p.clearRing t) u Tenant.clear).cfg = (p.tenant u).cfg := by
  unfold Pkg.clearRing
  by_cases h : t = u
  · subst h
    by_cases ht : t < 16
    · rw [vget_vset_same ht]
    · rw [vset_beyond (Nat.le_of_not_lt ht)]; rfl
  · rw [vget_vset_other h]; rfl

theorem Pkg.residentTenant_of {p : Pkg} {k : Job} {n : Nat} (resident : p.resident = some n)
    (found : p.jobs.find? (fun x => decide (some x.id = some n)) = some k) : p.residentTenant = k.tenant := by
  unfold Pkg.residentTenant Pkg.residentJob
  rw [resident, found]

/-- The check of the window table that a job resumes with comes out as `r` (R19). -/
def State.TableChecks (s : State) (j : Job) (i : Image) (r : Option Nat) : Prop :=
  ∀ t : State, t.mem.wtab = s.resumeTable j → t.ctl.diecoord = s.ctl.diecoord → t.ctl.scmask = i.ctl.scmask →
    t.ctl.lsdmask = i.ctl.lsdmask → t.ctl.scbase = j.scbase →
    (t.pkg.tenant t.pkg.residentTenant).cfg = (s.pkg.tenant j.tenant).cfg → t.tableFault = r

theorem State.TableChecks.with_arg {s : State} {j : Job} {i : Image} {r : Option Nat} (h : s.TableChecks j i r) (a : EvArg) :
    ({ s with arg := a } : State).TableChecks j i r := fun t table => h t (table.trans rfl)

section
variable {s : State} {j : Job} {i : Image} (found : s.pkg.jobs.find? (fun x => decide (x.id = j.id)) = some j)
include found

/-- A window table is checked under the coordinate, masks, base and tenant of the job that resumes (R19). -/
theorem State.applied_checked {r : Option Nat} (checked : s.TableChecks j i r) :
    (s.applied (s.imageBase j i) j i).tableFault = r := by
  obtain ⟨loc, dram, undo, images, base⟩ := s.imageBase_frame j i
  rw [base]
  have tenant : (s.applied { s with
      mem := { s.mem with loc := loc, dram := dram, undoDram := undo }, pkg.images := images } j i).pkg.residentTenant =
      (s.resumedJob j i).tenant :=
    Pkg.residentTenant_of (n := j.id) rfl (residentJob_setJob found rfl)
  refine checked _ rfl rfl rfl rfl rfl ?_
  rw [tenant]
  show (vget (if decide (i.kind ≠ 2) then Pkg.clearRing _ _ else _) j.tenant Tenant.clear).cfg = _
  split
  · exact Pkg.clearRing_cfg _ _ _
  · rfl

end

/-- The ports of a resumed die resync, and nothing else of it changes (R340). -/
theorem State.resync_relinks (s : State) (d : Nat) (o : Bool) : s.RelinksOnly (s.resync d o) := by
  unfold State.resync State.retrain
  dsimp only
  split
  · split
    · exact (State.SendsOnly.trans (State.setPort_sends _ _ _) (State.sendResync_sends _ d)).relinks
    · exact .refl s
  · split
    · exact .trans (State.setPort_sends _ _ _).relinks (State.portState_relinks _ d _)
    · split
      · refine .trans (.trans (t := if (s.port d).before = .up then s.setPort d { s.port d with resync := true, guyLast := none }
            else (s.setPort d { s.port d with resync := true, guyLast := none }).portState d (s.port d).before)
          ?_ (State.sendResync_sends _ d).relinks) (State.dropStuck_sends _ d).relinks
        split
        · exact (State.setPort_sends _ _ _).relinks
        · exact .trans (State.setPort_sends _ _ _).relinks (State.portState_relinks _ d _)
      · exact .trans (State.portState_relinks _ d _) (State.dropStuck_sends _ d).relinks

theorem State.resumePort_relinks (s : State) (i : Image) (d : Nat) : s.RelinksOnly (s.resumePort i d) := by
  unfold State.resumePort
  dsimp only
  split
  · split
    · exact .trans (State.setPort_sends _ _ _).relinks (State.portState_relinks _ d _)
    · exact .refl s
  · split
    · exact .trans (.trans (State.setPort_sends _ _ _).relinks (State.portState_relinks _ d _)) (State.resync_relinks _ d _)
    · exact (State.setPort_sends _ _ _).relinks

/-- What an applied image leaves of a die whose table passed its check. -/
structure State.Resumed (s : State) (j : Job) (i : Image) (w : State) : Prop where
  regs : w.regs = i.regs
  tiles : w.tiles = i.tiles
  loc : w.mem.loc = i.loc
  resident : w.pkg.resident = some j.id
  base : w.ctl.scbase = j.scbase
  locked : w.ctl.wtlock = true
  table : w.mem.wtab = s.resumeTable j

theorem State.Resumed.of_relinks {s t u : State} {j : Job} {i : Image} (h : s.Resumed j i t) (k : t.RelinksOnly u) :
    s.Resumed j i u := by
  obtain ⟨p, e, n, l, c, -, rfl⟩ := k
  obtain ⟨regs, tiles, loc, resident, base, locked, table⟩ := h
  exact ⟨regs, tiles, loc, resident, base, locked, table⟩

theorem State.applied_resumed (s b : State) (j : Job) (i : Image) : s.Resumed j i (s.applied b j i) :=
  ⟨rfl, rfl, rfl, rfl, rfl, rfl, rfl⟩

theorem State.applyImage_resumed {s : State} {j : Job} {i : Image}
    (ok : (s.applied (s.imageBase j i) j i).tableFault = none) : s.Resumed j i (s.applyImage j i) := by
  rw [State.applyImage_eq, ok]
  dsimp only
  have resynced : s.Resumed j i ((List.range 13).foldl (fun s d => s.resumePort i d) (s.applied (s.imageBase j i) j i)) :=
    (s.applied_resumed _ j i).of_relinks (.foldl (fun s d => s.resumePort_relinks i d) _ _)
  generalize (List.range 13).foldl (fun s d => s.resumePort i d) (s.applied (s.imageBase j i) j i) = t at resynced
  obtain ⟨regs, tiles, loc, resident, base, locked, table⟩ := resynced
  obtain ⟨q, copies⟩ := (t.lanternC 0x07 0x4 (pair32 (codeOff t.stream.pc) 0)).resumeStalls_copies j.refused
  rw [copies]
  obtain ⟨host, tenants, mgmt, written, emitted⟩ := State.emit_record
    { t.lanternC 0x07 0x4 (pair32 (codeOff t.stream.pc) 0) with eng.copy := q } j.tenant
    { State.dieEvent { t.lanternC 0x07 0x4 (pair32 (codeOff t.stream.pc) 0) with eng.copy := q } 0x0007 (BitVec.ofNat 8 i.kind) 1
        0 0 (BitVec.ofNat 64 i.serial) 0 with job := BitVec.ofNat 16 j.id }
  unfold State.imageEvent
  rw [emitted]
  exact ⟨regs, tiles, loc, resident, base, locked, table⟩

end Sys2Proof.Machine
end

section
/-! The events of recovery (R341, R346, R348). -/

namespace Sys2Proof.Machine

/-- In a freeze no image is applied (R51). -/
theorem resume_frozen {s : State} (frozen : s.frozen = true) : execResume s = .next s := by
  have takes : s.takesImage = false := by
    unfold State.takesImage
    rw [frozen, Bool.not_true, Bool.and_false]
  unfold execResume
  split
  · split
    · rfl
    · split
      · rw [takes, Bool.and_false, Bool.false_and]; rfl
      · rw [takes, Bool.and_false, Bool.false_and]; rfl
      · rfl
  · rfl

section
variable {s : State} {j : Job} (arg : s.arg = .nat j.id) (found : s.pkg.jobs.find? (fun x => decide (x.id = j.id)) = some j)
include arg found

section
variable {i : Image} (placed : j.state = .placed) (cube : s.inCube j = true) (returned : s.returned = true)
  (running : s.frozen = false) (free : s.pkg.resident = none) (own : s.foreign j = false) (image : s.imageOf j = some i)
  (ok : s.imageOk j i = true)
include placed cube returned running free own image ok

theorem resume_applies : execResume s = .next { s.applyImage j i with draws := s.draws + 2 } := by
  have source : s.resumeImage j = some i := by
    unfold State.resumeImage
    rw [own]
    exact image
  have resumed : s.resumeFrom j (some i) = s.applyImage j i := if_pos ok
  unfold execResume
  rw [arg]
  dsimp only
  rw [found]
  dsimp only
  rw [placed]
  dsimp only
  refine (congrArg Host.Outcome.next (if_pos ?_)).trans ?_
  · unfold State.takesImage
    rw [cube, returned, running, free]
    rfl
  · rw [source, resumed]

theorem resume_runs (checked : (s.applied (s.imageBase j i) j i).tableFault = none) :
    ∃ w, execResume s = .next w ∧ s.Resumed j i w := by
  obtain ⟨regs, tiles, loc, resident, base, locked, table⟩ := State.applyImage_resumed checked
  exact ⟨_, resume_applies arg found placed cube returned running free own image ok, regs, tiles, loc, resident, base, locked, table⟩

/-- A window table that fails its check closes the job, with its entry reported (R19, R33). -/
theorem resume_refused {k : Nat} (checked : (s.applied (s.imageBase j i) j i).tableFault = some k) (alone : s.pkg.jobs = [j])
    (single : j.chain = none) :
    ∃ w, execResume s = .next w ∧ w.ctl = { s.ctl with wtlock := false } ∧ w.mem.wtab = s.resumeTable j ∧ w.regs = s.regs ∧
      w.stream = s.stream ∧ w.mem.loc = s.mem.loc ∧ w.pkg.jobs = [] ∧ w.pkg.answers = BitVec.ofNat 64 k :: s.pkg.answers := by
  have event := resume_applies arg found placed cube returned running free own image ok
  have reported : s.applyImage j i = (({ s with ctl.wtlock := false, mem.wtab := s.resumeTable j } : State).answerWord
      (BitVec.ofNat 64 k)).closeJob j 0x10 := by
    rw [State.applyImage_eq, checked]
  have away : decide ((({ s with ctl.wtlock := false, mem.wtab := s.resumeTable j } : State).answerWord
      (BitVec.ofNat 64 k)).pkg.resident = some j.id) = false :=
    decide_eq_false fun h => nomatch free.symm.trans h
  obtain ⟨ports, host, tenants, queues, mgmt, written, images, clearing, closed⟩ :=
    (({ s with ctl.wtlock := false, mem.wtab := s.resumeTable j } : State).answerWord (BitVec.ofNat 64 k)).closeJob_frame single 0x10
  rw [away, Bool.false_and, Bool.false_and, if_neg Bool.false_ne_true] at closed
  rw [reported, closed] at event
  refine ⟨_, event, rfl, rfl, rfl, rfl, rfl, ?_, rfl⟩
  show s.pkg.jobs.filter (fun x => decide (x.id ≠ j.id)) = []
  rw [alone]
  simp

end

section
variable {t0 : Nat} (awaits : j.state = .awaitDie t0) (late : t0 + 7000000000 ≤ s.now) (here : s.isHere j = true)
  (gone : s.returned = false)
include awaits late here gone

/-- A job without a complete buddy point ends when its die has not returned (R346). -/
theorem dieReturnTimeout_closes (point : s.buddyPoint j = none) :
    execDieReturnTimeout s = .next (({ s with draws := s.draws + 1 } : State).closeJob j 0x02) := by
  unfold execDieReturnTimeout
  rw [arg]
  dsimp only
  rw [found]
  dsimp only
  rw [awaits]
  dsimp only
  rw [here, gone, point]
  refine (if_neg ?_).trans ((if_neg ?_).trans rfl)
  · rintro (h | h)
    · omega
    · exact Bool.false_ne_true h
  · rintro ⟨h, -⟩
    exact Bool.false_ne_true h

/-- The job that a die kept waiting: its window table stays with it (R33, R309). -/
def State.barredJob (s : State) (j : Job) : Job :=
  { s.keepTable j with
    image := some (3, ((s.buddyImage j).map (·.serial)).getD 0), oldBase := j.scbase, state := .waiting, passes := 0, agedAt := s.now,
    peers := [] }

/-- A job with a complete buddy point waits with its image behind a blocking job (R309, R346). -/
theorem dieReturnTimeout_waits (point : (s.buddyPoint j).isSome = true) (barred : s.barred j = true) :
    execDieReturnTimeout s = .next ({ s with pkg := { s.pkg.setJob (s.barredJob j) with
      passDue := some s.now, resident := none } } : State).vacate := by
  unfold execDieReturnTimeout
  rw [arg]
  dsimp only
  rw [found]
  dsimp only
  rw [awaits]
  dsimp only
  rw [gone]
  refine (if_neg ?_).trans ((if_pos ⟨point, barred⟩).trans ?_)
  · rintro (h | h)
    · omega
    · rw [here] at h; exact Bool.false_ne_true h
  · exact congrArg Host.Outcome.next (if_pos here)

end
end

/-- What is vacated keeps its registers, its memory and the package. -/
theorem State.vacate_frame (s : State) : s.vacate.regs = s.regs ∧ s.vacate.mem = s.mem ∧ s.vacate.pkg = s.pkg := by
  unfold State.vacate
  split
  · exact ⟨rfl, rfl, rfl⟩
  · exact ⟨rfl, rfl, rfl⟩

/-- A die program that ends keeps registers, memory and the package but for a lantern entry (R155). -/
theorem State.endProgram_frame (s : State) (e : Bool) : (s.endProgram e).regs = s.regs ∧ (s.endProgram e).mem.loc = s.mem.loc ∧
    (s.endProgram e).pkg = s.pkg ∧ (s.endProgram e).now = s.now := by
  unfold State.endProgram
  split
  · exact ⟨rfl, rfl, rfl, rfl⟩
  · exact ⟨rfl, rfl, rfl, rfl⟩

/-- The end of a job that is no chain's, on the die where it ran. -/
theorem State.closeJob_here {s : State} {j : Job} (alone : j.chain = none) (here : s.pkg.resident = some j.id) (status : Byte) :
    (s.closeJob j status).regs = s.regs ∧ (s.closeJob j status).mem.loc = s.mem.loc ∧
      (s.closeJob j status).pkg.jobs = s.pkg.jobs.filter (fun x => decide (x.id ≠ j.id)) ∧
      (s.closeJob j status).pkg.resident = none ∧ (s.closeJob j status).pkg.passDue = some s.now := by
  obtain ⟨ports, host, tenants, queues, mgmt, written, images, clearing, closed⟩ := s.closeJob_frame alone status
  rw [closed]
  have same : let u := if decide (s.pkg.resident = some j.id) && s.stream.mode.programRuns && decide (s.stream.mode ≠ .fatal)
      then s.endProgram false else s
      u.regs = s.regs ∧ u.mem.loc = s.mem.loc ∧ u.pkg = s.pkg ∧ u.now = s.now := by
    intro u
    by_cases h : (decide (s.pkg.resident = some j.id) && s.stream.mode.programRuns && decide (s.stream.mode ≠ .fatal)) = true
    · rw [show u = s.endProgram false from if_pos h]
      exact s.endProgram_frame false
    · rw [show u = s from if_neg h]
      exact ⟨rfl, rfl, rfl, rfl⟩
  obtain ⟨regs, loc, pkg, now⟩ := same
  refine ⟨regs, loc, ?_, if_pos (decide_eq_true here), congrArg some now⟩
  exact congrArg (fun p : Pkg => p.jobs.filter fun x => decide (x.id ≠ j.id)) pkg

/-- A frozen die without an open dump is reset (R346, R351). -/
theorem dieReset_clears {s : State} (mode : s.stream.mode = .fatal) (closed : (s.pkg.dumps.any fun d => !d.img.complete) = false) :
    ∃ w, execDieReset s = .next w ∧ w.stream.mode = .idle ∧ w.mem.loc = [] ∧ w.mem.dram = s.mem.dram ∧
      w.mem.host = s.mem.host ∧ w.ctl.diecoord = s.ctl.diecoord ∧ w.ctl.trapvec = 0 ∧ w.regs = Regs.clear ∧
      ∀ p < 13, (w.port p).state = .down := by
  refine ⟨_, if_neg ?_, rfl, rfl, rfl, rfl, rfl, rfl, rfl, fun p hp => ?_⟩
  · rintro (h | h)
    · exact h mode
    · exact Bool.false_ne_true (closed.symm.trans h)
  · show (vget (Vector.map (fun q : Port => { Port.clear with farUp := q.farUp }) _) p Port.clear).state = _
    simp [vget, hp]
    rfl

/-- The check of an image does not look at the event's argument. -/
theorem State.imageOk_arg (s : State) (a : EvArg) (j : Job) (i : Image) :
    ({ s with arg := a } : State).imageOk j i = s.imageOk j i := rfl

/-- A placed job resumes with the registers, tiles and bytes of its image (R341). -/
theorem exec_resume_runs {s : State} {j : Job} {i : Image}
    (found : s.pkg.jobs.find? (fun x => decide (x.id = j.id)) = some j) (placed : j.state = .placed) (cube : s.inCube j = true)
    (returned : s.returned = true) (running : s.frozen = false) (free : s.pkg.resident = none) (own : s.foreign j = false)
    (image : s.imageOf j = some i) (ok : s.imageOk j i = true) (checked : s.TableChecks j i none) :
    ∃ w, exec .resume { s with arg := .nat j.id } = .next w ∧ w.regs = i.regs ∧ w.tiles = i.tiles ∧ w.mem.loc = i.loc ∧
      w.pkg.resident = some j.id ∧ w.ctl.scbase = j.scbase ∧ w.ctl.wtlock = true ∧ w.mem.wtab = s.resumeTable j := by
  obtain ⟨w, event, regs, tiles, loc, resident, base, locked, table⟩ := resume_runs (s := { s with arg := .nat j.id }) rfl found
    placed cube returned running free own image ((s.imageOk_arg _ j i).trans ok) (State.applied_checked (s := { s with arg := .nat j.id }) found (checked.with_arg _))
  exact ⟨w, event, regs, tiles, loc, resident, base, locked, table⟩

/-- A frozen die whose job waits behind a blocking one is free, and the job keeps its window table (R309, R346). -/
theorem exec_dieReturnTimeout_waits {s : State} {j : Job} {t0 : Nat}
    (found : s.pkg.jobs.find? (fun x => decide (x.id = j.id)) = some j) (awaits : j.state = .awaitDie t0)
    (late : t0 + 7000000000 ≤ s.now) (here : s.isHere j = true) (gone : s.returned = false)
    (point : (s.buddyPoint j).isSome = true) (barred : s.barred j = true) :
    ∃ w, exec .dieReturnTimeout { s with arg := .nat j.id } = .next w ∧ w.regs = s.regs ∧ w.mem = s.mem ∧
      w.pkg.resident = none ∧ w.pkg.passDue = some s.now ∧
      ∃ y ∈ w.pkg.jobs, y.id = j.id ∧ y.state = .waiting ∧ y.passes = 0 ∧ y.peers = [] ∧ y.saved.isSome = true := by
  have event := dieReturnTimeout_waits (s := { s with arg := .nat j.id }) rfl found awaits late here gone point barred
  have kept : (State.keepTable { s with arg := .nat j.id } j) = { j with
      saved := some (j.saved.getD s.mem.wtab), oldBase := j.scbase,
      dieRetries := State.countedRetries { s with arg := .nat j.id } j } := if_pos here
  have waits : (State.barredJob { s with arg := .nat j.id } j).id = j.id ∧
      (State.barredJob { s with arg := .nat j.id } j).saved.isSome = true := by
    unfold State.barredJob
    rw [kept]
    exact ⟨rfl, rfl⟩
  obtain ⟨regs, mem, pkg⟩ := State.vacate_frame { ({ s with arg := .nat j.id } : State) with
    pkg := { s.pkg.setJob (State.barredJob { s with arg := .nat j.id } j) with passDue := some s.now, resident := none } }
  refine ⟨_, event, regs, mem, congrArg Pkg.resident pkg, congrArg Pkg.passDue pkg,
    State.barredJob { s with arg := .nat j.id } j, ?_, waits.1, rfl, rfl, rfl, waits.2⟩
  rw [pkg]
  exact List.mem_map.mpr ⟨j, List.mem_of_find?_eq_some found, if_pos waits.1.symm⟩

/-- Settles O52: what each dump, resume, reset and return of a die leaves. -/
theorem recoveryEvents : Obligations.RecoveryEvents := by
  unfold Obligations.RecoveryEvents
  intro s
  refine ⟨?_, fun frozen => resume_frozen frozen, ?_, ?_, fun mode closed => dieReset_clears mode closed, ?_, ?_⟩
  · intro n d found here whole written settled
    have sealed (p : Vector Port 13) : here.dumpWritten n d (d.whole p) = written (whole p) := rfl
    refine ⟨fun kind ok => ?_, fun kind mode => ?_, fun kind mode parked => ?_, fun kind mode ok rest => ?_⟩
    · rw [← sealed]
      exact dumpComplete_other (s := here) rfl found (fun mode => ok.elim (absurd mode) id) kind
    · rw [← sealed]
      exact dumpComplete_halted (s := here) rfl found kind mode
    · rw [← sealed]
      obtain ⟨host, dumps, regs, loc, runs⟩ := (here.dumpWritten n d (d.whole s.portRecords)).goesOn_frame
      have event := dumpComplete_goesOn (s := here) rfl found kind mode parked
      rw [show here.portRecords = s.portRecords from rfl] at event
      exact ⟨_, event, host, dumps, regs, loc, runs⟩
    · obtain ⟨p, hp, away⟩ := rest
      refine dumpComplete_waits (s := here) rfl found (fun _ => ok) kind mode ?_
      exact Bool.eq_false_iff.mpr fun h => away (State.portsParked_iff.mp h p hp)
  · intro j i found placed cube returned running free own image ok checked
    refine ⟨fun passes => ?_, fun k fails alone single => ?_⟩
    · exact exec_resume_runs found placed cube returned running free own image ok passes
    · exact resume_refused (s := { s with arg := .nat j.id }) rfl found placed cube returned running free own image
        ((s.imageOk_arg _ j i).trans ok) (State.applied_checked (s := { s with arg := .nat j.id }) found (State.TableChecks.with_arg (s := s) fails _)) alone single
  · exact fun i c refused hi queue stalled fresh => State.resumeStalls_one stalled fresh hi queue refused
  · intro j t0 found awaits late here gone point single
    have event := dieReturnTimeout_closes (s := { s with arg := .nat j.id }) rfl found awaits late here gone point
    obtain ⟨regs, loc, jobs, resident, due⟩ := State.closeJob_here (s := { s with arg := .nat j.id, draws := s.draws + 1 }) single
      (of_decide_eq_true here) 0x02
    exact ⟨_, event, regs, loc, jobs, resident, due⟩
  · exact fun j t0 found awaits late here gone point barred =>
      exec_dieReturnTimeout_waits found awaits late here gone point barred

end Sys2Proof.Machine
end

section
/-! Exact values of the formats as rationals: sums, products, the values of codes, and rounding (R58, R59, R66). -/

namespace Sys2Proof.Machine

/-! ## Finite values -/

/-- The rational that a finite value stands for. -/
def FVal.num : FVal → Option ℚ
  | .zero _ => some 0
  | .fin neg m e => if m = 0 then none else some ((if neg then -1 else 1) * m * 2 ^ e)
  | _ => none

/-- The rational of a dyadic. -/
def dyadRat (d : Int × Int) : ℚ := d.1 * 2 ^ d.2

theorem two_zpow_split {a b : Int} (h : a ≤ b) : (2 : ℚ) ^ b = 2 ^ (b - a).toNat * 2 ^ a := by
  rw [← zpow_natCast, ← zpow_add₀ (by norm_num), Int.toNat_of_nonneg (by omega)]
  congr 1
  omega

/-- The sum of dyadics is exact. -/
theorem dyadRat_addDyad (x y : Int × Int) : dyadRat (addDyad x y) = dyadRat x + dyadRat y := by
  unfold dyadRat addDyad
  split
  · rename_i h
    rw [two_zpow_split h]
    push_cast
    ring
  · rename_i h
    rw [two_zpow_split (by omega : y.2 ≤ x.2)]
    push_cast
    ring

theorem dyadRat_fin (neg : Bool) (m : Nat) (e : Int) :
    dyadRat (FVal.dyad (.fin neg m e)) = (if neg then -1 else 1) * m * 2 ^ e := by
  cases neg <;> simp [dyadRat, FVal.dyad]

/-- A finite value is a signed zero or a dyadic that is not zero. -/
theorem FVal.num_eq_some {x : FVal} {a : ℚ} : x.num = some a ↔
    (∃ n, x = .zero n ∧ a = 0) ∨ ∃ neg m e, x = .fin neg m e ∧ m ≠ 0 ∧ a = (if neg then -1 else 1) * m * 2 ^ e := by
  cases x with
  | nan => simp [FVal.num]
  | inf n => simp [FVal.num]
  | zero n => simp [FVal.num, eq_comm]
  | fin neg m e =>
    by_cases h : m = 0
    · simp [FVal.num, h]
    · constructor
      · intro k
        exact .inr ⟨neg, m, e, rfl, h, by simpa [FVal.num, h, eq_comm] using k⟩
      · rintro (⟨n, k, -⟩ | ⟨neg', m', e', k, -, rfl⟩)
        · cases k
        · cases k; exact if_neg h

theorem signed_ne_zero {neg : Bool} {m : Nat} (h : m ≠ 0) (e : Int) : (if neg then -1 else 1 : ℚ) * m * 2 ^ e ≠ 0 := by
  have two : (2 : ℚ) ^ e ≠ 0 := zpow_ne_zero e (by norm_num)
  have pos : (m : ℚ) ≠ 0 := Nat.cast_ne_zero.mpr h
  cases neg <;> simp [two, pos]

/-- A value from a dyadic stands for it; that of zero is +0. -/
theorem FVal.num_ofInt (m e : Int) : (FVal.ofInt m e).num = some ((m : ℚ) * 2 ^ e) := by
  unfold FVal.ofInt
  split
  · rename_i h; simp [FVal.num, h]
  · rename_i h
    have sign : (if decide (m < 0) then -1 else 1 : ℚ) * (m.natAbs : ℚ) = m := by
      have abs : ((m.natAbs : ℕ) : ℚ) = ((m.natAbs : ℤ) : ℚ) := (Int.cast_natCast _).symm
      rw [abs]
      by_cases neg : m < 0
      · rw [if_pos (decide_eq_true neg), Int.ofNat_natAbs_of_nonpos (le_of_lt neg)]; push_cast; ring
      · rw [if_neg (by simpa using neg), Int.natAbs_of_nonneg (not_lt.mp neg), one_mul]
    rw [FVal.num, if_neg (Int.natAbs_ne_zero.mpr h), sign]

theorem FVal.ofInt_eq_zero {m e : Int} (h : (m : ℚ) * 2 ^ e = 0) : FVal.ofInt m e = .zero false := by
  have : m = 0 := by
    rcases mul_eq_zero.mp h with h | h
    · exact_mod_cast h
    · exact absurd h (zpow_ne_zero e (by norm_num))
  rw [this]; rfl

/-- The sum of two finite values is exact, and a zero sum is −0 only from two −0 (R228). -/
theorem FVal.add_num {x y : FVal} {a b : ℚ} (hx : x.num = some a) (hy : y.num = some b) :
    (x.add y).1.num = some (a + b) ∧ (x.add y).2 = false ∧
      (a + b = 0 → (x.add y).1 = .zero (decide (a = 0) && x.neg && y.neg)) := by
  rcases num_eq_some.mp hx with ⟨n, rfl, rfl⟩ | ⟨n, m, e, rfl, hm, rfl⟩ <;>
    rcases num_eq_some.mp hy with ⟨n', rfl, rfl⟩ | ⟨n', m', e', rfl, hm', rfl⟩
  · exact ⟨by simp [FVal.add, FVal.num], rfl, fun _ => by simp [FVal.add, FVal.neg]⟩
  · refine ⟨by rw [zero_add]; exact hy, rfl, fun h => absurd h ?_⟩
    rw [zero_add]; exact signed_ne_zero hm' e'
  · refine ⟨by rw [add_zero]; exact hx, rfl, fun h => absurd h ?_⟩
    rw [add_zero]; exact signed_ne_zero hm e
  · have sum := dyadRat_addDyad (FVal.dyad (.fin n m e)) (FVal.dyad (.fin n' m' e'))
    rw [dyadRat_fin, dyadRat_fin] at sum
    refine ⟨by rw [← sum]; exact num_ofInt _ _, rfl, fun h => ?_⟩
    rw [decide_eq_false (signed_ne_zero hm e)]
    exact ofInt_eq_zero (sum.trans h)

/-- The product of two finite values is exact, with the sign of both (R228). -/
theorem FVal.mul_num {x y : FVal} {a b : ℚ} (hx : x.num = some a) (hy : y.num = some b) :
    (x.mul y).1.num = some (a * b) ∧ (x.mul y).2 = false ∧ (x.mul y).1.neg = (x.neg != y.neg) := by
  rcases num_eq_some.mp hx with ⟨n, rfl, rfl⟩ | ⟨n, m, e, rfl, hm, rfl⟩ <;>
    rcases num_eq_some.mp hy with ⟨n', rfl, rfl⟩ | ⟨n', m', e', rfl, hm', rfl⟩
  · exact ⟨by simp [FVal.mul, FVal.num], rfl, rfl⟩
  · exact ⟨by simp [FVal.mul, FVal.num], rfl, rfl⟩
  · exact ⟨by simp [FVal.mul, FVal.num], rfl, rfl⟩
  · refine ⟨(if_neg (Nat.mul_ne_zero hm hm')).trans (congrArg some ?_), rfl, rfl⟩
    rw [zpow_add₀ (by norm_num)]
    push_cast
    cases n <;> cases n' <;> simp <;> ring

/-! ## The values of codes (R58) -/

/-- The value of a magnitude code, with the exponent unbounded at the top. -/
def Fmt.val (f : Fmt) (c : Nat) : ℚ :=
  ((if c < 2 ^ f.fbits then c else 2 ^ f.fbits + c % 2 ^ f.fbits : Nat) : ℚ) *
    2 ^ ((if c < 2 ^ f.fbits then f.emin else ((c / 2 ^ f.fbits : Nat) : Int) - f.bias) - f.fbits)

/-- The value of a code that is exponent field `x` and significand `k`, which may reach the next exponent. -/
theorem Fmt.val_eq (f : Fmt) {x k : Nat} (hx : 1 ≤ x) (hk : k ≤ 2 ^ (f.fbits + 1)) (normal : x = 1 ∨ 2 ^ f.fbits ≤ k) :
    f.val ((x - 1) * 2 ^ f.fbits + k) = k * 2 ^ ((x : Int) - f.bias - f.fbits) := by
  have pos : 0 < 2 ^ f.fbits := Nat.two_pow_pos _
  have double : 2 ^ (f.fbits + 1) = 2 * 2 ^ f.fbits := by rw [pow_succ, mul_comm]
  obtain ⟨x, rfl⟩ : ∃ y, x = y + 1 := ⟨x - 1, by omega⟩
  rw [Nat.add_sub_cancel]
  unfold Fmt.val
  by_cases low : k < 2 ^ f.fbits
  · obtain rfl : x = 0 := by omega
    rw [Nat.zero_mul, Nat.zero_add, if_pos low, if_pos low]
    norm_num [Fmt.emin]
  · have above : ¬ x * 2 ^ f.fbits + k < 2 ^ f.fbits := by
      have := Nat.zero_le (x * 2 ^ f.fbits); omega
    rw [if_neg above, if_neg above]
    by_cases top : k = 2 ^ (f.fbits + 1)
    · have code : x * 2 ^ f.fbits + k = (x + 2) * 2 ^ f.fbits := by rw [top, double]; ring
      rw [code, Nat.mul_mod_left, Nat.mul_div_cancel _ pos, top]
      have exp : ((x + 2 : Nat) : Int) - f.bias - f.fbits = 1 + (((x + 1 : Nat) : Int) - f.bias - f.fbits) := by push_cast; ring
      rw [exp, zpow_add₀ (by norm_num)]
      push_cast
      ring
    · have code : x * 2 ^ f.fbits + k = (x + 1) * 2 ^ f.fbits + (k - 2 ^ f.fbits) := by
        rw [Nat.add_mul, Nat.one_mul]; omega
      have small : k - 2 ^ f.fbits < 2 ^ f.fbits := by omega
      have exponent : ((x + 1) * 2 ^ f.fbits + (k - 2 ^ f.fbits)) / 2 ^ f.fbits = x + 1 := by
        rw [Nat.add_comm, Nat.add_mul_div_right _ _ pos, Nat.div_eq_of_lt small, Nat.zero_add]
      rw [code, Nat.mul_add_mod_of_lt small, exponent, Nat.add_sub_cancel' (by omega)]

/-! ## Rounding (R66) -/

theorem floor_ratio (r den k : Nat) : ⌊(r : ℚ) / den * (k : ℕ)⌋ = ((r * k / den : Nat) : Int) := by
  have flip : (r : ℚ) / den * (k : ℕ) = ((r * k : Nat) : ℚ) / (den : ℚ) := by push_cast; ring
  rw [flip, Rat.floor_natCast_div_natCast, Int.natCast_ediv]

/-- Rounding a fraction by how far it lies above its whole part. -/
theorem roundNat_spec (num u : Nat) {den : Nat} (hd : 0 < den) :
    let p : ℚ := ((num % den : Nat) : ℚ) / den
    roundNat num den .rz u = num / den ∧
    roundNat num den .rne u = (if p < 1 / 2 then num / den else if 1 / 2 < p then num / den + 1
      else if num / den % 2 = 0 then num / den else num / den + 1) ∧
    roundNat num den .sr u = (if (u : Int) < ⌊p * 2 ^ 32⌋ then num / den + 1 else num / den) := by
  intro p
  have dpos : (0 : ℚ) < den := Nat.cast_pos.mpr hd
  have below : p < 1 / 2 ↔ 2 * (num % den) < den := by
    rw [div_lt_div_iff₀ dpos two_pos]
    exact_mod_cast by rw [Nat.one_mul, Nat.mul_comm]
  have above : 1 / 2 < p ↔ den < 2 * (num % den) := by
    rw [div_lt_div_iff₀ two_pos dpos]
    exact_mod_cast by rw [Nat.one_mul, Nat.mul_comm (num % den)]
  have drawn : ((u : Int) < ⌊p * 2 ^ 32⌋) = (u < num % den * 2 ^ 32 / den) := by
    have floor := floor_ratio (num % den) den (2 ^ 32)
    rw [show ((2 ^ 32 : Nat) : ℚ) = 2 ^ 32 by norm_num] at floor
    rw [floor, Int.ofNat_lt]
  refine ⟨rfl, ?_, ?_⟩
  · unfold roundNat
    simp only [below, above]
  · unfold roundNat
    simp only [drawn]

/-- The exponent of the last place that a magnitude is rounded at. -/
def Fmt.quantum (f : Fmt) (m : Nat) (e : Int) : Int := max ((Nat.log2 m : Int) + e) f.emin - f.fbits

/-- A magnitude as a fraction of that place: numerator and denominator. -/
def Fmt.scaled (f : Fmt) (m : Nat) (e : Int) : Nat × Nat :=
  (if f.quantum m e ≤ e then m * 2 ^ (e - f.quantum m e).toNat else m,
   if f.quantum m e ≤ e then 1 else 2 ^ (f.quantum m e - e).toNat)

/-- The exponent field of what a magnitude is rounded to. -/
def Fmt.field (f : Fmt) (m : Nat) (e : Int) : Nat := (f.quantum m e + f.fbits + f.bias).toNat

theorem Fmt.round_eq (f : Fmt) (m : Nat) (e : Int) (mode : Rnd) (u : Nat) : f.round m e mode u =
    ((f.field m e * 2 ^ f.fbits + roundNat (f.scaled m e).1 (f.scaled m e).2 mode u) - 2 ^ f.fbits,
      decide ((f.scaled m e).1 % (f.scaled m e).2 ≠ 0)) := rfl

section
variable (f : Fmt) (m : Nat) (e : Int)

theorem Fmt.scaled_pos : 0 < (f.scaled m e).2 := by
  unfold Fmt.scaled
  dsimp only
  split
  · exact Nat.one_pos
  · exact Nat.two_pow_pos _

theorem Fmt.scaled_ratio : ((f.scaled m e).1 : ℚ) / (f.scaled m e).2 * 2 ^ f.quantum m e = m * 2 ^ e := by
  unfold Fmt.scaled
  dsimp only
  split
  · rename_i h
    rw [two_zpow_split h]
    push_cast
    ring
  · rename_i h
    rw [two_zpow_split (by omega : e ≤ f.quantum m e)]
    push_cast
    field_simp

theorem Fmt.field_cast : (f.field m e : Int) = f.quantum m e + f.fbits + f.bias := by
  unfold Fmt.field
  rw [Int.toNat_of_nonneg]
  unfold Fmt.quantum Fmt.emin
  omega

theorem Fmt.field_pos : 1 ≤ f.field m e := by
  have cast := f.field_cast m e
  unfold Fmt.quantum Fmt.emin at cast
  omega

/-- The fraction as a power of two times the significand. -/
theorem Fmt.scaled_value : ((f.scaled m e).1 : ℚ) / (f.scaled m e).2 = m * 2 ^ (e - f.quantum m e) := by
  have two : (2 : ℚ) ^ f.quantum m e ≠ 0 := zpow_ne_zero _ two_ne_zero
  rw [zpow_sub₀ two_ne_zero, ← mul_div_assoc, eq_div_iff two, f.scaled_ratio]

theorem Fmt.scaled_lt : (f.scaled m e).1 / (f.scaled m e).2 < 2 ^ (f.fbits + 1) := by
  have dpos : (0 : ℚ) < (f.scaled m e).2 := Nat.cast_pos.mpr (f.scaled_pos m e)
  have top : (m : ℚ) < 2 ^ (Nat.log2 m + 1) := by exact_mod_cast Nat.lt_log2_self
  have bound : ((f.scaled m e).1 : ℚ) / (f.scaled m e).2 < 2 ^ (f.fbits + 1) := by
    calc ((f.scaled m e).1 : ℚ) / (f.scaled m e).2 = m * 2 ^ (e - f.quantum m e) := f.scaled_value m e
      _ < 2 ^ (Nat.log2 m + 1) * 2 ^ (e - f.quantum m e) := by gcongr
      _ = 2 ^ ((Nat.log2 m + 1 : Nat) + (e - f.quantum m e) : Int) := by rw [zpow_add₀ two_ne_zero, zpow_natCast]
      _ ≤ 2 ^ ((f.fbits + 1 : Nat) : Int) := by
          refine zpow_le_zpow_right₀ one_le_two ?_
          unfold Fmt.quantum
          push_cast
          omega
      _ = 2 ^ (f.fbits + 1) := zpow_natCast _ _
  rw [div_lt_iff₀ dpos] at bound
  exact Nat.div_lt_of_lt_mul (by rw [Nat.mul_comm]; exact_mod_cast bound)

theorem Fmt.scaled_normal (hm : 0 < m) : f.field m e = 1 ∨ 2 ^ f.fbits ≤ (f.scaled m e).1 / (f.scaled m e).2 := by
  by_cases low : (Nat.log2 m : Int) + e ≤ f.emin
  · left
    have cast := f.field_cast m e
    unfold Fmt.quantum at cast
    rw [max_eq_right low] at cast
    unfold Fmt.emin at cast
    omega
  · right
    have dpos : (0 : ℚ) < (f.scaled m e).2 := Nat.cast_pos.mpr (f.scaled_pos m e)
    have bottom : (2 : ℚ) ^ Nat.log2 m ≤ m := by exact_mod_cast Nat.log2_self_le (Nat.ne_of_gt hm)
    have bound : (2 : ℚ) ^ f.fbits ≤ (f.scaled m e).1 / (f.scaled m e).2 := by
      calc (2 : ℚ) ^ f.fbits = 2 ^ (f.fbits : Int) := (zpow_natCast _ _).symm
        _ = 2 ^ ((Nat.log2 m : Int) + (e - f.quantum m e)) := by
            congr 1
            unfold Fmt.quantum
            rw [max_eq_left (by omega)]
            ring
        _ = 2 ^ Nat.log2 m * 2 ^ (e - f.quantum m e) := by rw [zpow_add₀ two_ne_zero, zpow_natCast]
        _ ≤ m * 2 ^ (e - f.quantum m e) := by gcongr
        _ = (f.scaled m e).1 / (f.scaled m e).2 := (f.scaled_value m e).symm
    rw [le_div_iff₀ dpos] at bound
    exact (Nat.le_div_iff_mul_le (f.scaled_pos m e)).mpr (by exact_mod_cast bound)

/-- The code whose interval a magnitude lies in (R66). -/
def Fmt.floorCode : Nat := (f.field m e - 1) * 2 ^ f.fbits + (f.scaled m e).1 / (f.scaled m e).2

theorem Fmt.val_floorCode (hm : 0 < m) :
    f.val (f.floorCode m e) = ((f.scaled m e).1 / (f.scaled m e).2 : Nat) * 2 ^ f.quantum m e ∧
    f.val (f.floorCode m e + 1) = (((f.scaled m e).1 / (f.scaled m e).2 : Nat) + 1) * 2 ^ f.quantum m e := by
  have lt := f.scaled_lt m e
  have normal := f.scaled_normal m e hm
  have exp : (f.field m e : Int) - f.bias - f.fbits = f.quantum m e := by rw [f.field_cast]; ring
  constructor
  · rw [Fmt.floorCode, f.val_eq (f.field_pos m e) (Nat.le_of_lt lt) normal, exp]
  · rw [Fmt.floorCode, Nat.add_assoc, f.val_eq (f.field_pos m e) lt (normal.imp id fun h => Nat.le_succ_of_le h), exp]
    push_cast
    rfl

/-- How far a magnitude lies into its interval. -/
def Fmt.part : ℚ := ((((f.scaled m e).1 % (f.scaled m e).2 : Nat) : ℚ) / (f.scaled m e).2)

theorem Fmt.scaled_split : ((f.scaled m e).1 : ℚ) / (f.scaled m e).2 =
    ((f.scaled m e).1 / (f.scaled m e).2 : Nat) + f.part m e := by
  have dpos : ((f.scaled m e).2 : ℚ) ≠ 0 := Nat.cast_ne_zero.mpr (Nat.ne_of_gt (f.scaled_pos m e))
  have split : ((f.scaled m e).1 : ℚ) = (f.scaled m e).2 * ((f.scaled m e).1 / (f.scaled m e).2 : Nat) +
      ((f.scaled m e).1 % (f.scaled m e).2 : Nat) := by exact_mod_cast (Nat.div_add_mod _ _).symm
  unfold Fmt.part
  rw [div_eq_iff dpos, add_mul, div_mul_cancel₀ _ dpos, split]
  ring

theorem Fmt.part_nonneg : 0 ≤ f.part m e := by unfold Fmt.part; positivity

theorem Fmt.part_lt_one : f.part m e < 1 := by
  unfold Fmt.part
  rw [div_lt_one (Nat.cast_pos.mpr (f.scaled_pos m e))]
  exact_mod_cast Nat.mod_lt _ (f.scaled_pos m e)

/-- The value as its interval's lower end and part. -/
theorem Fmt.value_split (hm : 0 < m) : (m : ℚ) * 2 ^ e = f.val (f.floorCode m e) + f.part m e * 2 ^ f.quantum m e := by
  rw [← f.scaled_ratio, f.scaled_split, (f.val_floorCode m e hm).1, add_mul]

theorem Fmt.round_floorCode (mode : Rnd) (u : Nat) : (f.round m e mode u).1 =
    (f.field m e - 1) * 2 ^ f.fbits + roundNat (f.scaled m e).1 (f.scaled m e).2 mode u := by
  have pos := f.field_pos m e
  rw [f.round_eq]
  dsimp only
  obtain ⟨x, hx⟩ : ∃ x, f.field m e = x + 1 := ⟨f.field m e - 1, by omega⟩
  rw [hx, Nat.add_sub_cancel, Nat.add_mul, Nat.one_mul]
  omega

/-- Rounding stores the code of the interval or the one above it, as the mode chooses (R66). -/
theorem Fmt.round_spec (fine : 1 ≤ f.fbits) (hm : 0 < m) (u : Nat) :
    let x : ℚ := m * 2 ^ e
    let c := f.floorCode m e
    f.val c ≤ x ∧ x < f.val (c + 1) ∧
      let p := (x - f.val c) / (f.val (c + 1) - f.val c)
      (f.round m e .rz u).1 = c ∧
      (f.round m e .rne u).1 = (if p < 1 / 2 then c else if 1 / 2 < p then c + 1 else if c % 2 = 0 then c else c + 1) ∧
      (f.round m e .sr u).1 = (if (u : Int) < ⌊p * 2 ^ 32⌋ then c + 1 else c) ∧
      ∀ mode, (f.round m e mode u).2 = decide (x ≠ f.val c) := by
  intro x c
  obtain ⟨low, high⟩ := f.val_floorCode m e hm
  have value : x = f.val c + f.part m e * 2 ^ f.quantum m e := f.value_split m e hm
  have two : (0 : ℚ) < 2 ^ f.quantum m e := zpow_pos two_pos _
  have step : f.val (c + 1) - f.val c = 2 ^ f.quantum m e := by rw [low, high]; ring
  have p_eq : (x - f.val c) / (f.val (c + 1) - f.val c) = f.part m e := by
    rw [step, value, add_sub_cancel_left, mul_div_cancel_right₀ _ two.ne']
  obtain ⟨rz, rne, sr⟩ := roundNat_spec (f.scaled m e).1 u (f.scaled_pos m e)
  change _ = (if f.part m e < 1 / 2 then _ else if 1 / 2 < f.part m e then _ else _) at rne
  change _ = (if (u : Int) < ⌊f.part m e * 2 ^ 32⌋ then _ else _) at sr
  have parity : c % 2 = (f.scaled m e).1 / (f.scaled m e).2 % 2 := by
    obtain ⟨b, hb⟩ : ∃ b, f.fbits = b + 1 := ⟨f.fbits - 1, by omega⟩
    show ((f.field m e - 1) * 2 ^ f.fbits + _) % 2 = _
    rw [hb, pow_succ, ← Nat.mul_assoc]
    omega
  refine ⟨?_, ?_, ?_⟩
  · rw [value]
    exact le_add_of_nonneg_right (mul_nonneg (f.part_nonneg m e) two.le)
  · have : f.val (c + 1) = f.val c + 2 ^ f.quantum m e := by rw [← step]; ring
    rw [value, this]
    exact add_lt_add_right (mul_lt_of_lt_one_left two (f.part_lt_one m e)) _
  · intro p
    rw [show p = f.part m e from p_eq, parity]
    refine ⟨?_, ?_, ?_, fun mode => ?_⟩
    · rw [f.round_floorCode, rz]; rfl
    · rw [f.round_floorCode, rne]
      split_ifs <;> rfl
    · rw [f.round_floorCode, sr]
      split_ifs <;> rfl
    · rw [f.round_eq]
      refine decide_eq_decide.mpr (not_congr ?_)
      rw [value, add_eq_left, mul_eq_zero, or_iff_left two.ne', Fmt.part, div_eq_zero_iff, Nat.cast_eq_zero,
        or_iff_left (Nat.cast_ne_zero.mpr (Nat.ne_of_gt (f.scaled_pos m e)))]

end

/-! ## The order of values (R59, R233) -/

/-- A value in the order of the formats: NaN and −∞ at the bottom, +∞ at the top. -/
def FVal.ext : FVal → WithBot (WithTop ℚ)
  | .nan => ⊥
  | .inf neg => if neg then ⊥ else ((⊤ : WithTop ℚ) : WithBot (WithTop ℚ))
  | .zero _ => ((0 : ℚ) : WithTop ℚ)
  | .fin neg m e => ((((if neg then -1 else 1) * m * 2 ^ e : ℚ) : WithTop ℚ) : WithBot (WithTop ℚ))

theorem Fmt.val_strictMono (f : Fmt) : StrictMono f.val := by
  refine strictMono_nat_of_lt_succ fun c => ?_
  have pos : 0 < 2 ^ f.fbits := Nat.two_pow_pos _
  have double : 2 ^ (f.fbits + 1) = 2 * 2 ^ f.fbits := by rw [pow_succ, mul_comm]
  have split := Nat.div_add_mod' c (2 ^ f.fbits)
  have rest := Nat.mod_lt c pos
  obtain ⟨x, k, hx, hk, normal, code⟩ : ∃ x k, 1 ≤ x ∧ k < 2 ^ (f.fbits + 1) ∧ (x = 1 ∨ 2 ^ f.fbits ≤ k) ∧
      c = (x - 1) * 2 ^ f.fbits + k := by
    by_cases low : c < 2 ^ f.fbits
    · exact ⟨1, c, le_rfl, by omega, .inl rfl, by simp⟩
    · obtain ⟨y, hy⟩ : ∃ y, c / 2 ^ f.fbits = y + 1 := ⟨c / 2 ^ f.fbits - 1, by
        have := Nat.div_pos (Nat.le_of_not_lt low) pos; omega⟩
      refine ⟨y + 1, 2 ^ f.fbits + c % 2 ^ f.fbits, by omega, by omega, .inr (Nat.le_add_right _ _), ?_⟩
      rw [Nat.add_sub_cancel]
      rw [hy, Nat.add_mul, Nat.one_mul] at split
      omega
  have two : (0 : ℚ) < 2 ^ ((x : Int) - f.bias - f.fbits) := zpow_pos two_pos _
  rw [code, f.val_eq hx (Nat.le_of_lt hk) normal, Nat.add_assoc,
    f.val_eq hx hk (normal.imp id Nat.le_succ_of_le)]
  push_cast
  exact mul_lt_mul_of_pos_right (lt_add_one _) two

theorem Fmt.val_zero (f : Fmt) : f.val 0 = 0 := by
  unfold Fmt.val
  rw [if_pos (Nat.two_pow_pos _), Nat.cast_zero, zero_mul]

theorem Fmt.val_nonneg (f : Fmt) (c : Nat) : 0 ≤ f.val c := f.val_zero ▸ f.val_strictMono.monotone (Nat.zero_le c)

section
variable {f : Fmt} {x : Nat}

/-- The sign and the magnitude code of a code. -/
theorem Fmt.decode_zero (h : x % f.sign = 0) : f.decode x = .zero (decide (x / f.sign % 2 = 1)) := if_pos h

theorem Fmt.decode_fin (nonzero : x % f.sign ≠ 0) (finite : x % f.sign ≤ f.maxMag) (inf : f.inf ≠ some (x % f.sign)) :
    ∃ m e, f.decode x = .fin (decide (x / f.sign % 2 = 1)) m e ∧ m ≠ 0 ∧ (m : ℚ) * 2 ^ e = f.val (x % f.sign) := by
  unfold Fmt.decode Fmt.val
  dsimp only
  rw [if_neg nonzero, if_neg fun h => inf h.symm, if_neg (Nat.not_lt_of_le finite)]
  have pos : 0 < 2 ^ f.fbits := Nat.two_pow_pos _
  by_cases low : x % f.sign < 2 ^ f.fbits
  · rw [if_pos (Nat.div_eq_of_lt low), Nat.mod_eq_of_lt low, if_pos low, if_pos low]
    exact ⟨_, _, rfl, nonzero, rfl⟩
  · rw [if_neg (Nat.ne_of_gt (Nat.div_pos (Nat.le_of_not_lt low) pos)), if_neg low, if_neg low]
    exact ⟨_, _, rfl, by omega, rfl⟩

/-- A code is a number, an infinity or NaN by its magnitude. -/
theorem Fmt.decode_ext (top : f.inf = some (f.maxMag + 1)) (number : f.decode x ≠ .nan) : x % f.sign ≤ f.maxMag + 1 ∧
    (f.decode x).ext = if x / f.sign % 2 = 1
      then (if x % f.sign ≤ f.maxMag then (((-f.val (x % f.sign) : ℚ) : WithTop ℚ) : WithBot (WithTop ℚ)) else ⊥)
      else (if x % f.sign ≤ f.maxMag then (((f.val (x % f.sign) : ℚ) : WithTop ℚ) : WithBot (WithTop ℚ))
        else ((⊤ : WithTop ℚ) : WithBot (WithTop ℚ))) := by
  by_cases zero : x % f.sign = 0
  · rw [Fmt.decode_zero zero, zero, if_pos (Nat.zero_le _), if_pos (Nat.zero_le _), f.val_zero]
    exact ⟨Nat.zero_le _, by simp [FVal.ext]⟩
  · by_cases finite : x % f.sign ≤ f.maxMag
    · obtain ⟨m, e, value, -, val⟩ := Fmt.decode_fin zero finite (by rw [top]; intro h; have := Option.some.inj h; omega)
      rw [value, if_pos finite, if_pos finite, ← val]
      refine ⟨by omega, ?_⟩
      by_cases neg : x / f.sign % 2 = 1
      · simp [FVal.ext, neg]
      · simp [FVal.ext, neg]
    · by_cases inf : x % f.sign = f.maxMag + 1
      · have value : f.decode x = .inf (decide (x / f.sign % 2 = 1)) := by
          unfold Fmt.decode
          dsimp only
          rw [if_neg zero, if_pos (by rw [top, inf])]
        rw [value, if_neg finite, if_neg finite]
        refine ⟨by omega, ?_⟩
        by_cases neg : x / f.sign % 2 = 1
        · simp [FVal.ext, neg]
        · simp [FVal.ext, neg]
      · refine absurd ?_ number
        unfold Fmt.decode
        dsimp only
        rw [if_neg zero, if_neg (by rw [top]; intro h; exact inf (Option.some.inj h)), if_pos (by omega)]

end

end Sys2Proof.Machine
end

section
/-! The minimum and the maximum of two numbers, and arithmetic beside infinities and NaN (R59, R73, R228). -/

namespace Sys2Proof.Machine

section
variable (f : Fmt)

/-- A magnitude code with a plus sign, and with a minus sign, in the order of values; the code above the largest finite one is
infinity. -/
def Fmt.above (n : Nat) : WithBot (WithTop ℚ) :=
  if n ≤ f.maxMag then ((f.val n : ℚ) : WithTop ℚ) else ((⊤ : WithTop ℚ) : WithBot (WithTop ℚ))

def Fmt.below (n : Nat) : WithBot (WithTop ℚ) := if n ≤ f.maxMag then (((-f.val n : ℚ) : WithTop ℚ) : WithBot (WithTop ℚ)) else ⊥

theorem Fmt.above_mono : Monotone f.above := by
  intro a b le
  unfold Fmt.above
  by_cases hb : b ≤ f.maxMag
  · rw [if_pos hb, if_pos (le.trans hb), WithBot.coe_le_coe, WithTop.coe_le_coe]
    exact f.val_strictMono.monotone le
  · rw [if_neg hb]
    split
    · exact WithBot.coe_le_coe.mpr le_top
    · exact le_rfl

theorem Fmt.below_antitone : Antitone f.below := by
  intro a b le
  unfold Fmt.below
  by_cases hb : b ≤ f.maxMag
  · rw [if_pos hb, if_pos (le.trans hb), WithBot.coe_le_coe, WithTop.coe_le_coe]
    exact neg_le_neg (f.val_strictMono.monotone le)
  · rw [if_neg hb]
    exact bot_le

theorem Fmt.below_le_above (a b : Nat) : f.below a ≤ f.above b := by
  have low : f.below a ≤ f.below 0 := f.below_antitone (Nat.zero_le a)
  have zero : f.below 0 = f.above 0 := by
    unfold Fmt.below Fmt.above
    rw [if_pos (Nat.zero_le _), if_pos (Nat.zero_le _), f.val_zero, neg_zero]
  exact (low.trans zero.le).trans (f.above_mono (Nat.zero_le b))

end

section
variable {f : Fmt} {x y : Nat} (top : f.inf = some (f.maxMag + 1)) (hx : f.decode x ≠ .nan) (hy : f.decode y ≠ .nan)
include top hx hy

/-- The keys of two numbers are in the order of their values. -/
theorem Fmt.ext_le_of_key (le : f.key y ≤ f.key x) : (f.decode y).ext ≤ (f.decode x).ext := by
  rw [(Fmt.decode_ext top hx).2, (Fmt.decode_ext top hy).2]
  change (if y / f.sign % 2 = 1 then f.below (y % f.sign) else f.above (y % f.sign)) ≤
    if x / f.sign % 2 = 1 then f.below (x % f.sign) else f.above (x % f.sign)
  unfold Fmt.key at le
  by_cases negx : x / f.sign % 2 = 1
  · by_cases negy : y / f.sign % 2 = 1
    · rw [if_pos negx, if_pos negy] at le ⊢
      exact f.below_antitone (by omega)
    · rw [if_pos negx, if_neg negy] at le
      omega
  · by_cases negy : y / f.sign % 2 = 1
    · rw [if_neg negx, if_pos negy]
      exact f.below_le_above _ _
    · rw [if_neg negx, if_neg negy] at le ⊢
      exact f.above_mono (by omega)

theorem Fmt.key_lt_of_ext (lt : (f.decode x).ext < (f.decode y).ext) : f.key x < f.key y :=
  lt_of_not_ge fun le => absurd (Fmt.ext_le_of_key top hx hy le) (not_le_of_gt lt)

end

theorem FVal.isNan_iff {v : FVal} : v.isNan = true ↔ v = .nan := by
  cases v <;> simp [FVal.isNan]

/-- The code of a zero has the magnitude zero and its sign. -/
theorem Fmt.sign_of_zero {f : Fmt} {x : Nat} {n : Bool} (h : f.decode x = .zero n) :
    x % f.sign = 0 ∧ decide (x / f.sign % 2 = 1) = n := by
  by_cases zero : x % f.sign = 0
  · rw [Fmt.decode_zero zero] at h
    exact ⟨zero, FVal.zero.inj h⟩
  · exfalso
    unfold Fmt.decode at h
    dsimp only at h
    rw [if_neg zero] at h
    split at h
    · cases h
    · split at h
      · cases h
      · split at h <;> cases h

/-- The key of −0 is below that of +0 (R59). -/
theorem Fmt.key_zeros {f : Fmt} {x y : Nat} (hx : f.decode x = .zero true) (hy : f.decode y = .zero false) : f.key x < f.key y := by
  obtain ⟨mx, sx⟩ := Fmt.sign_of_zero hx
  obtain ⟨my, sy⟩ := Fmt.sign_of_zero hy
  unfold Fmt.key
  rw [if_pos (of_decide_eq_true sx), if_neg (of_decide_eq_false sy), mx, my]
  decide

section
variable {f : Fmt} {x y : Nat} (hx : f.decode x ≠ .nan) (hy : f.decode y ≠ .nan)
include hx hy

theorem Fmt.numbers : ¬ ((f.decode x).isNan = true ∨ (f.decode y).isNan = true) := by
  rw [FVal.isNan_iff, FVal.isNan_iff]
  exact fun h => h.elim hx hy

/-- Of two codes with different keys the minimum is that with the lower one, and the maximum the other. -/
theorem Fmt.min_max_of_key (lt : f.key x < f.key y) : (f.minB x y = x ∧ f.maxB x y = y) ∧ f.minB y x = x ∧ f.maxB y x = y := by
  obtain ⟨least, low, -⟩ := f.minB_spec x y (Fmt.numbers hx hy)
  obtain ⟨most, -, high⟩ := f.maxB_spec x y (Fmt.numbers hx hy)
  obtain ⟨least', -, low'⟩ := f.minB_spec y x (Fmt.numbers hy hx)
  obtain ⟨most', high', -⟩ := f.maxB_spec y x (Fmt.numbers hy hx)
  refine ⟨⟨least.resolve_right fun h => ?_, most.resolve_left fun h => ?_⟩, least'.resolve_left fun h => ?_,
    most'.resolve_right fun h => ?_⟩
  · rw [h] at low; omega
  · rw [h] at high; omega
  · rw [h] at low'; omega
  · rw [h] at high'; omega

end

/-! ## Infinities and NaN -/

theorem FVal.num_nonzero {neg : Bool} {m : Nat} {e : Int} {b : ℚ} (h : (FVal.fin neg m e).num = some b) : b ≠ 0 := by
  obtain ⟨n, k, -⟩ | ⟨n, m', e', k, hm, rfl⟩ := FVal.num_eq_some.mp h
  · cases k
  · exact signed_ne_zero hm e'

/-- Sums and products of an infinity (R228). -/
theorem FVal.infinite (p q : Bool) {y : FVal} {b : ℚ} (hy : y.num = some b) :
    (FVal.inf p).add (.inf q) = (if p = q then (.inf p, false) else (.nan, true)) ∧
    (FVal.inf p).add y = (.inf p, false) ∧ y.add (.inf p) = (.inf p, false) ∧
    (FVal.inf p).mul (.inf q) = (.inf (p != q), false) ∧
    (FVal.inf p).mul y = (if b = 0 then (.nan, true) else (.inf (p != y.neg), false)) ∧
    y.mul (.inf p) = (if b = 0 then (.nan, true) else (.inf (y.neg != p), false)) := by
  cases y with
  | nan => cases hy
  | inf n => cases hy
  | zero n =>
    have zero : b = 0 := (Option.some.inj hy).symm
    rw [if_pos zero, if_pos zero]
    exact ⟨rfl, rfl, rfl, rfl, rfl, rfl⟩
  | fin n m e =>
    have nonzero := FVal.num_nonzero hy
    rw [if_neg nonzero, if_neg nonzero]
    exact ⟨rfl, rfl, rfl, rfl, rfl, rfl⟩

/-- A NaN gives NaN and no flag (R228). -/
theorem FVal.nan_operand (y : FVal) : FVal.nan.add y = (.nan, false) ∧ y.add .nan = (.nan, false) ∧
    FVal.nan.mul y = (.nan, false) ∧ y.mul .nan = (.nan, false) := by
  cases y <;> exact ⟨rfl, rfl, rfl, rfl⟩

/-- A NaN operand of the fused forms gives the canonical NaN and no flag, even beside an invalid product (R228). -/
theorem Fmt.fmaB_nan {f : Fmt} {x y z : Nat} (nan : f.decode x = .nan ∨ f.decode y = .nan ∨ f.decode z = .nan) (sub : Bool) :
    f.fmaB x y z sub = (f.qnan, 0) := by
  unfold Fmt.fmaB
  dsimp only
  by_cases third : f.decode z = .nan
  · rw [third]
    exact if_pos (by cases sub <;> rfl)
  · have product : (f.decode x).mul (f.decode y) = (.nan, false) := by
      rcases nan with h | h | h
      · rw [h]; exact (FVal.nan_operand _).2.2.1
      · rw [h]; exact (FVal.nan_operand _).2.2.2
      · exact absurd h third
    rw [product]
    generalize (if sub = true then (f.decode z).negate else f.decode z) = c
    split
    · rfl
    · rw [if_neg Bool.false_ne_true, (FVal.nan_operand c).1]
      rfl

theorem FVal.negate_isNan (v : FVal) : v.negate.isNan = v.isNan := by cases v <;> rfl

section
variable {f : Fmt} {x y z : Nat} (hz : f.decode z ≠ .nan)
include hz

theorem Fmt.addend_number (sub : Bool) : (if sub then (f.decode z).negate else f.decode z).isNan = false := by
  have number : (f.decode z).isNan = false := by rw [← Bool.not_eq_true, FVal.isNan_iff]; exact hz
  cases sub
  · exact number
  · exact (FVal.negate_isNan _).trans number

theorem Fmt.fmaB_invalid (bad : ((f.decode x).mul (f.decode y)).2 = true) (sub : Bool) : f.fmaB x y z sub = (f.qnan, Flag.invalid) := by
  unfold Fmt.fmaB
  dsimp only
  rw [Fmt.addend_number hz, bad]
  rfl

theorem Fmt.fmaB_number (good : ((f.decode x).mul (f.decode y)).2 = false) (sub : Bool) :
    f.fmaB x y z sub = f.arith (((f.decode x).mul (f.decode y)).1.add (if sub then (f.decode z).negate else f.decode z)) := by
  unfold Fmt.fmaB
  dsimp only
  rw [Fmt.addend_number hz, good, if_neg Bool.false_ne_true, if_neg Bool.false_ne_true]

end

/-! ## Lanes of halves (R56, R227) -/

/-- A lane of two 16-bit results. -/
def halves (r0 r1 : Nat × BitVec 6) : W32 × BitVec 6 := (BitVec.ofNat 32 (r0.1 % 2 ^ 16 + 2 ^ 16 * (r1.1 % 2 ^ 16)), r0.2 ||| r1.2)

theorem elemOf_low (x : W32) : elemOf 16 x 0 = x.toNat % 2 ^ 16 := by
  rw [elemOf, Nat.mul_zero, pow_zero, Nat.div_one]

theorem packLane_two (a b : Nat) : packLane 16 [a, b] = a % 2 ^ 16 + 2 ^ 16 * (b % 2 ^ 16) := rfl

theorem packed_halves (f : Nat → Nat → Nat × BitVec 6) (x y : W32) : packed 16 f x y =
    halves (f (x.toNat % 2 ^ 16) (y.toNat % 2 ^ 16)) (f (x.toNat / 2 ^ 16 % 2 ^ 16) (y.toNat / 2 ^ 16 % 2 ^ 16)) := by
  rw [← elemOf_low, ← elemOf_low]
  exact Prod.ext rfl (congrArg (· ||| _) (BitVec.zero_or))

theorem packed3_halves (f : Nat → Nat → Nat → Nat × BitVec 6) (x y z : W32) : packed3 16 f x y z =
    halves (f (x.toNat % 2 ^ 16) (y.toNat % 2 ^ 16) (z.toNat % 2 ^ 16))
      (f (x.toNat / 2 ^ 16 % 2 ^ 16) (y.toNat / 2 ^ 16 % 2 ^ 16) (z.toNat / 2 ^ 16 % 2 ^ 16)) := by
  rw [← elemOf_low, ← elemOf_low, ← elemOf_low]
  exact Prod.ext rfl (congrArg (· ||| _) (BitVec.zero_or))

end Sys2Proof.Machine
end

section
/-! The reciprocal and the reciprocal square root (R80, R81). -/

namespace Sys2Proof.Machine

theorem two_zpow_add (n : Nat) (e : Int) : (2 : ℚ) ^ ((n : Int) + e) = 2 ^ n * 2 ^ e := by
  rw [zpow_add₀ two_ne_zero, zpow_natCast]

/-- The exponent and the table index of a magnitude (R80). -/
theorem normalise_spec {m : Nat} (hm : 0 < m) (k : Int) : (normalise m k).2 < 128 ∧
    (2 : ℚ) ^ (normalise m k).1 * (1 + ((normalise m k).2 : ℚ) / 128) ≤ m * 2 ^ k ∧
    (m : ℚ) * 2 ^ k < 2 ^ (normalise m k).1 * (1 + (((normalise m k).2 : ℚ) + 1) / 128) := by
  have two : (0 : ℚ) < 2 ^ k := zpow_pos two_pos _
  have low : 2 ^ Nat.log2 m ≤ m := Nat.log2_self_le (Nat.ne_of_gt hm)
  have high : m < 2 * 2 ^ Nat.log2 m := by rw [← pow_succ']; exact Nat.lt_log2_self
  have power : ((2 ^ Nat.log2 m : Nat) : ℚ) = 2 ^ Nat.log2 m := by push_cast; rfl
  have pos : 0 < 2 ^ Nat.log2 m := Nat.two_pow_pos _
  unfold normalise
  dsimp only
  rw [two_zpow_add, ← power]
  generalize 2 ^ Nat.log2 m = p at *
  have least : p * (m * 128 / p) ≤ m * 128 := Nat.mul_div_le _ _
  have next : m * 128 < p * (m * 128 / p + 1) := Nat.lt_mul_div_succ _ pos
  have from128 : 128 ≤ m * 128 / p := (Nat.le_div_iff_mul_le pos).mpr (by omega)
  have to256 : m * 128 / p < 256 := (Nat.div_lt_iff_lt_mul pos).mpr (by omega)
  obtain ⟨i, hi⟩ : ∃ i, m * 128 / p = 128 + i := ⟨m * 128 / p - 128, by omega⟩
  rw [hi] at least next ⊢
  rw [Nat.add_sub_cancel_left]
  have least' : (p : ℚ) * (128 + i) ≤ m * 128 := by exact_mod_cast least
  have next' : (m : ℚ) * 128 < p * (128 + i + 1) := by exact_mod_cast next
  refine ⟨by omega, ?_, ?_⟩
  · calc (p : ℚ) * 2 ^ k * (1 + i / 128) = p * (128 + i) / 128 * 2 ^ k := by ring
      _ ≤ m * 2 ^ k := by gcongr; linarith
  · calc (m : ℚ) * 2 ^ k < p * (128 + i + 1) / 128 * 2 ^ k := by gcongr; linarith
      _ = p * 2 ^ k * (1 + (i + 1) / 128) := by ring

/-! ## The tables -/

/-- Each entry of the reciprocal table is the nearest integer (R80). -/
theorem rcpTable_nearest : ∀ i < 128, 2 ^ 32 < (2 * rcpTable i + 1) * (128 + i) ∧ 2 * rcpTable i * (128 + i) < 2 ^ 32 + (128 + i) := by
  decide +kernel

/-- So is each of the table of roots (R81). -/
theorem rsqTable_nearest : ∀ i < 128, (2 * (rsqTable i : Int) - 1) ^ 2 * (128 + (i : Nat)) < 2 ^ 57 ∧
    (2 : Int) ^ 57 < (2 * rsqTable i + 1) ^ 2 * (128 + (i : Nat)) := by
  decide +kernel

/-- A value is positive and finite. -/
def FVal.positive : FVal → Bool
  | .fin false _ _ => true
  | _ => false

theorem FVal.positive_iff {v : FVal} : v.positive = true ↔ ∃ n d, v = .fin false n d := by
  constructor
  · intro h
    cases v with
    | fin neg m e => cases neg with
      | false => exact ⟨m, e, rfl⟩
      | true => cases h
    | nan => cases h
    | inf _ => cases h
    | zero _ => cases h
  · rintro ⟨n, d, rfl⟩
    rfl

/-- An entry times the root of one half, rounded to f32 (R81). -/
def halfRoot (i : Nat) : Nat × Bool := f32.round (rsqTable i * 0xB504F3) (-48) .rne 0

theorem halfRoot_positive : ∀ i < 128, (f32.decode (halfRoot i).1).positive = true := by
  decide +kernel

/-! ## The approximations -/

section
variable {x m : Nat} {k : Int}

theorem rcpa_fin {neg : Bool} (h : f32.decode x = .fin neg m k) :
    rcpa x = f32.pack (.fin neg (rcpTable (normalise m k).2) (-24 - (normalise m k).1)) .rne 0 := by
  unfold rcpa
  rw [h]

theorem rsqa_negative (h : f32.decode x = .fin true m k) : rsqa x = (0x7FC00000, Flag.invalid) := by
  unfold rsqa
  rw [h]
  rfl

theorem rsqa_even (h : f32.decode x = .fin false m k) (even : (normalise m k).1 % 2 = 0) :
    rsqa x = f32.pack (.fin false (rsqTable (normalise m k).2) (-24 - (normalise m k).1 / 2)) .rne 0 := by
  unfold rsqa
  rw [h]
  exact if_pos even

theorem rsqa_odd (h : f32.decode x = .fin false m k) (odd : (normalise m k).1 % 2 = 1) {n : Nat} {d : Int}
    (root : f32.decode (halfRoot (normalise m k).2).1 = .fin false n d) :
    rsqa x = ((f32.pack (.fin false n (d - ((normalise m k).1 - 1) / 2)) .rne 0).1,
      if (halfRoot (normalise m k).2).2 then Flag.inexact else 0) := by
  unfold rsqa
  split
  case h_6 m' k' h' =>
    obtain ⟨-, rfl, rfl⟩ := FVal.fin.inj (h'.symm.trans h)
    unfold halfRoot at root ⊢
    generalize normalise m' k' = p at odd root ⊢
    obtain ⟨e, i⟩ := p
    have ne : ¬ e % 2 = 0 := by dsimp only at odd; omega
    dsimp only at root ⊢
    rw [if_neg ne]
    generalize f32.round _ _ _ _ = r at root ⊢
    rw [root]
    rfl
  all_goals (next h' => cases h'.symm.trans h)

/-- The root of a magnitude of odd exponent: one rounding, then an exact scaling (R81). -/
theorem rsqa_scaled (h : f32.decode x = .fin false m k) (odd : (normalise m k).1 % 2 = 1) (small : (normalise m k).2 < 128) :
    ∃ n d, f32.decode (f32.round (rsqTable (normalise m k).2 * 0xB504F3) (-48) .rne 0).1 = .fin false n d ∧
      rsqa x = ((f32.pack (.fin false n (d - ((normalise m k).1 - 1) / 2)) .rne 0).1,
        if (f32.round (rsqTable (normalise m k).2 * 0xB504F3) (-48) .rne 0).2 then Flag.inexact else 0) := by
  obtain ⟨n, d, root⟩ := FVal.positive_iff.mp (halfRoot_positive _ small)
  have value := rsqa_odd h odd root
  unfold halfRoot at root value
  exact ⟨n, d, root, value⟩

theorem approx_nan (h : f32.decode x = .nan) : rcpa x = (0x7FC00000, 0) ∧ rsqa x = (0x7FC00000, 0) := by
  unfold rcpa rsqa
  rw [h]
  exact ⟨rfl, rfl⟩

theorem approx_zero {neg : Bool} (h : f32.decode x = .zero neg) :
    rcpa x = (0x7F800000 + (if neg then 0x80000000 else 0), Flag.divZero) ∧
      rsqa x = (0x7F800000 + (if neg then 0x80000000 else 0), Flag.divZero) := by
  unfold rcpa rsqa
  rw [h]
  cases neg <;> exact ⟨rfl, rfl⟩

theorem approx_inf {neg : Bool} (h : f32.decode x = .inf neg) :
    rcpa x = (if neg then 0x80000000 else 0, 0) ∧ rsqa x = if neg then (0x7FC00000, Flag.invalid) else (0, 0) := by
  unfold rcpa rsqa
  rw [h]
  cases neg <;> exact ⟨rfl, rfl⟩

/-- The approximations of a finite value, from the interval that its magnitude lies in (R80, R81). -/
theorem approx_fin {neg : Bool} (h : f32.decode x = .fin neg m k) (hm : 0 < m) : ∃ (e : Int) (i T S : Nat),
    (i < 128 ∧ (2 : ℚ) ^ e * (1 + (i : ℚ) / 128) ≤ m * 2 ^ k ∧ (m : ℚ) * 2 ^ k < 2 ^ e * (1 + ((i : ℚ) + 1) / 128)) ∧
    2 ^ 32 < (2 * T + 1) * (128 + i) ∧ 2 * T * (128 + i) < 2 ^ 32 + (128 + i) ∧ rcpa x = f32.pack (.fin neg T (-24 - e)) .rne 0 ∧
    (2 * (S : Int) - 1) ^ 2 * (128 + i) < 2 ^ 57 ∧ (2 : Int) ^ 57 < (2 * S + 1) ^ 2 * (128 + i) ∧
    (neg = true → rsqa x = (0x7FC00000, Flag.invalid)) ∧
    (neg = false → e % 2 = 0 → rsqa x = f32.pack (.fin false S (-24 - e / 2)) .rne 0) ∧
    (neg = false → e % 2 = 1 → ∃ n d,
      let r := f32.round (S * 0xB504F3) (-48) .rne 0
      f32.decode r.1 = .fin false n d ∧
      rsqa x = ((f32.pack (.fin false n (d - (e - 1) / 2)) .rne 0).1, if r.2 then Flag.inexact else 0)) := by
  obtain ⟨small, low, high⟩ := normalise_spec hm k
  obtain ⟨above, below⟩ := rcpTable_nearest _ small
  obtain ⟨belowRoot, aboveRoot⟩ := rsqTable_nearest _ small
  exact ⟨(normalise m k).1, (normalise m k).2, rcpTable (normalise m k).2, rsqTable (normalise m k).2, ⟨small, low, high⟩, above, below,
    rcpa_fin h, belowRoot, aboveRoot, fun negative => rsqa_negative (negative ▸ h), fun positive even => rsqa_even (positive ▸ h) even,
    fun positive odd => rsqa_scaled (positive ▸ h) odd small⟩

end

end Sys2Proof.Machine
end

section
/-! The floating-point vector forms (R227, R228). -/

namespace Sys2Proof.Machine

section
variable (s : State) (g : BitVec 4) (d a b c : BitVec 5) (k : BitVec 3)

/-- A two-operand form on halves of a lane. -/
theorem State.slotV2_halves (f : Nat → Nat → Nat × BitVec 6) : VectorResult s s g 5 d k
    (fun j => halves (f (((s.regs.rv a)[j]).toNat % 2 ^ 16) (((s.regs.rv b)[j]).toNat % 2 ^ 16))
      (f (((s.regs.rv a)[j]).toNat / 2 ^ 16 % 2 ^ 16) (((s.regs.rv b)[j]).toNat / 2 ^ 16 % 2 ^ 16)))
    (s.slotV2 g 5 d a b k (packed 16 f)) := by
  simpa only [packed_halves] using s.slotV2_vectorResult g 5 d a b k (packed 16 f)

theorem State.slotV3_halves (f : Nat → Nat → Nat → Nat × BitVec 6) : VectorResult s s g 5 d k
    (fun j => halves
      (f (((s.regs.rv a)[j]).toNat % 2 ^ 16) (((s.regs.rv b)[j]).toNat % 2 ^ 16) (((s.regs.rv c)[j]).toNat % 2 ^ 16))
      (f (((s.regs.rv a)[j]).toNat / 2 ^ 16 % 2 ^ 16) (((s.regs.rv b)[j]).toNat / 2 ^ 16 % 2 ^ 16)
        (((s.regs.rv c)[j]).toNat / 2 ^ 16 % 2 ^ 16)))
    (s.slotV3 g 5 d a b c k (packed3 16 f)) := by
  simpa only [packed3_halves] using s.slotV3_vectorResult g 5 d a b c k (packed3 16 f)

/-- A two-operand form on the whole lane. -/
theorem State.slotV2_words (f : Nat → Nat → Nat × BitVec 6) : VectorResult s s g 5 d k
    (fun j => asLane (f ((s.regs.rv a)[j]).toNat ((s.regs.rv b)[j]).toNat))
    (s.slotV2 g 5 d a b k fun x y => asLane (f x.toNat y.toNat)) :=
  s.slotV2_vectorResult g 5 d a b k fun x y => asLane (f x.toNat y.toNat)

theorem State.slotV2_codes (f : Nat → Nat → Nat) : VectorResult s s g 5 d k
    (fun j => (BitVec.ofNat 32 (f ((s.regs.rv a)[j]).toNat ((s.regs.rv b)[j]).toNat), 0))
    (s.slotV2 g 5 d a b k fun x y => (BitVec.ofNat 32 (f x.toNat y.toNat), 0)) :=
  s.slotV2_vectorResult g 5 d a b k fun x y => (BitVec.ofNat 32 (f x.toNat y.toNat), 0)

theorem State.slotV3_words (f : Nat → Nat → Nat → Nat × BitVec 6) : VectorResult s s g 5 d k
    (fun j => asLane (f ((s.regs.rv a)[j]).toNat ((s.regs.rv b)[j]).toNat ((s.regs.rv c)[j]).toNat))
    (s.slotV3 g 5 d a b c k fun x y z => asLane (f x.toNat y.toNat z.toNat)) :=
  s.slotV3_vectorResult g 5 d a b c k fun x y z => asLane (f x.toNat y.toNat z.toNat)

/-- A form of one operand. -/
theorem State.slotV1_vectorResult (lat : Nat) (f : Nat → Nat × BitVec 6) : VectorResult s s g lat d k
    (fun j => asLane (f ((s.regs.rv a)[j]).toNat))
    (s.slot g none fun t => t.vput lat d (t.regs.rk k) fun j => asLane (f (lane (t.regs.rv a) j).toNat)) := by
  simpa only [lane_eq_getElem] using s.slot_vput_vectorResult g lat d k fun t j => asLane (f (lane (t.regs.rv a) j).toNat)

end

/-- Settles O16: the slots by `State.slotV2_vectorResult` and its kin, the sums and products by `FVal.add_num` and `FVal.mul_num`,
rounding by `Fmt.round_spec`, the minimum by the keys' order, and the approximations by their tables. -/
theorem vectorFloat : Obligations.VectorFloat := by
  unfold Obligations.VectorFloat
  refine ⟨?slots, ⟨?finite, ?infinite, ?nan, ?stored⟩, ?rounding, ?order, ?approx⟩
  case slots =>
    intro s g d a b c k x y z word half lo hi gives
    refine ⟨?_, ?_, ?_, ?_, ?_, ?_, ?_, s.slotV2_halves g d a b k _, s.slotV2_halves g d a b k _, s.slotV2_halves g d a b k _,
      s.slotV2_halves g d a b k _, s.slotV2_halves g d a b k _, s.slotV3_halves g d a b c k _, s.slotV3_halves g d a b c k _,
      s.slotV1_vectorResult g d a k 4 rcpa, s.slotV1_vectorResult g d a k 4 rsqa⟩
    · exact s.slotV2_words g d a b k f32.addB
    · exact s.slotV2_words g d a b k f32.subB
    · exact s.slotV2_words g d a b k f32.mulB
    · exact s.slotV3_words g d a b c k fun x y z => f32.fmaB x y z false
    · exact s.slotV3_words g d a b c k fun x y z => f32.fmaB x y z true
    · exact s.slotV2_codes g d a b k f32.minB
    · exact s.slotV2_codes g d a b k f32.maxB
  case finite =>
    intro x y a b hx hy
    obtain ⟨sum, sumOk, zero⟩ := FVal.add_num hx hy
    obtain ⟨product, productOk, sign⟩ := FVal.mul_num hx hy
    exact ⟨sum, sumOk, product, productOk, zero, sign⟩
  case infinite => exact fun p q y b hy => FVal.infinite p q hy
  case nan => exact FVal.nan_operand
  case stored =>
    exact fun f _ x y z => ⟨rfl, rfl, rfl, fun nan sub => Fmt.fmaB_nan nan sub, fun _ _ hz bad sub => Fmt.fmaB_invalid hz bad sub,
      fun _ _ hz good => ⟨Fmt.fmaB_number hz good false, Fmt.fmaB_number hz good true⟩⟩
  case rounding =>
    intro f hf m u e hm
    have fine : 1 ≤ f.fbits := by
      rcases List.mem_cons.mp hf with rfl | hf
      · decide
      · fin_cases hf <;> decide
    exact ⟨f.floorCode m e, f.round_spec m e fine hm u⟩
  case order =>
    intro ext x y _ _ a b
    refine ⟨fun nan => ?_, fun hx hy => ⟨fun lower => ?_, fun lower => ?_, fun same => ?_⟩⟩
    · have nan' : (f32.decode x).isNan = true ∨ (f32.decode y).isNan = true := by
        rw [FVal.isNan_iff, FVal.isNan_iff]; exact nan
      exact ⟨f32.minB_nan x y nan', f32.maxB_nan x y nan'⟩
    · exact (Fmt.min_max_of_key hx hy (lower.elim (Fmt.key_lt_of_ext rfl hx hy) fun z => Fmt.key_zeros z.1 z.2)).1
    · exact (Fmt.min_max_of_key hy hx (lower.elim (Fmt.key_lt_of_ext rfl hy hx) fun z => Fmt.key_zeros z.1 z.2)).2
    · rw [← same]
      exact ⟨(f32.minB_spec x x (Fmt.numbers hx hx)).1.elim id id, (f32.maxB_spec x x (Fmt.numbers hx hx)).1.elim id id⟩
  case approx =>
    intro x sign near
    split
    case h_1 h => exact approx_nan h
    case h_2 h => exact approx_zero h
    case h_3 h => exact approx_inf h
    case h_4 h => exact fun hm => approx_fin h hm

end Sys2Proof.Machine
end

section
/-! Vector compares, predicate logic and lane moves (R233, R234). -/

namespace Sys2Proof.Machine

/-! ## The order of values (R233) -/

/-- A value that is neither NaN nor an infinity. -/
def FVal.finite : FVal → Prop
  | .zero _ => True
  | .fin _ _ _ => True
  | _ => False

theorem FVal.ext_finite {x : FVal} (h : x.finite) : x.ext = ((dyadRat x.dyad : ℚ) : WithTop ℚ) := by
  cases x with
  | nan => exact h.elim
  | inf _ => exact h.elim
  | zero n => simp [FVal.ext, FVal.dyad, dyadRat]
  | fin neg m e => rw [dyadRat_fin]; rfl

theorem dyadRat_neg_iff {d : Int × Int} : dyadRat d < 0 ↔ d.1 < 0 := by
  have two : (0 : ℚ) < 2 ^ d.2 := zpow_pos two_pos _
  unfold dyadRat
  rw [← not_le, mul_nonneg_iff_of_pos_right two, not_le, Int.cast_lt_zero]

theorem FVal.lt_finite {x y : FVal} (hx : x.finite) (hy : y.finite) :
    x.lt y = decide ((addDyad x.dyad (-y.dyad.1, y.dyad.2)).1 < 0) := by
  cases x <;> cases y <;> first | rfl | exact hx.elim | exact hy.elim

theorem FVal.lt_finite_iff {x y : FVal} (hx : x.finite) (hy : y.finite) : x.lt y = true ↔ x.ext < y.ext := by
  have minus : dyadRat (-y.dyad.1, y.dyad.2) = -dyadRat y.dyad := by
    unfold dyadRat; push_cast; ring
  rw [FVal.lt_finite hx hy, decide_eq_true_iff, ← dyadRat_neg_iff, dyadRat_addDyad, minus, ← sub_eq_add_neg, sub_neg,
    FVal.ext_finite hx, FVal.ext_finite hy, WithBot.coe_lt_coe, WithTop.coe_lt_coe]

theorem FVal.infinite_or_finite {x : FVal} (h : x ≠ .nan) : (∃ n, x = .inf n) ∨ x.finite := by
  cases x with
  | nan => exact absurd rfl h
  | inf n => exact .inl ⟨n, rfl⟩
  | zero _ => exact .inr trivial
  | fin _ _ _ => exact .inr trivial

theorem FVal.lt_inf_left {y : FVal} (hy : y.finite) (n : Bool) : (FVal.inf n).lt y = true ↔ (FVal.inf n).ext < y.ext := by
  have same : (FVal.inf n).lt y = n := by cases y <;> first | rfl | exact hy.elim
  rw [same, FVal.ext_finite hy]
  cases n
  · exact iff_of_false Bool.false_ne_true (not_lt_of_ge (WithBot.coe_le_coe.mpr le_top))
  · exact iff_of_true rfl (WithBot.bot_lt_coe _)

theorem FVal.lt_inf_right {x : FVal} (hx : x.finite) (n : Bool) : x.lt (.inf n) = true ↔ x.ext < (FVal.inf n).ext := by
  have same : x.lt (.inf n) = !n := by cases x <;> first | rfl | exact hx.elim
  rw [same, FVal.ext_finite hx]
  cases n
  · exact iff_of_true rfl (WithBot.coe_lt_coe.mpr (WithTop.coe_lt_top _))
  · exact iff_of_false Bool.false_ne_true not_lt_bot

theorem FVal.lt_infinities (a b : Bool) : (FVal.inf a).lt (.inf b) = true ↔ (FVal.inf a).ext < (FVal.inf b).ext := by
  cases a <;> cases b
  · exact iff_of_false Bool.false_ne_true (lt_irrefl _)
  · exact iff_of_false Bool.false_ne_true not_lt_bot
  · exact iff_of_true rfl (WithBot.bot_lt_coe _)
  · exact iff_of_false Bool.false_ne_true (lt_irrefl _)

section
variable {x y : FVal} (hx : x ≠ .nan) (hy : y ≠ .nan)
include hx hy

/-- One number is below another when its value is (R233). -/
theorem FVal.lt_iff : x.lt y = true ↔ x.ext < y.ext := by
  rcases FVal.infinite_or_finite hx with ⟨a, rfl⟩ | fx <;> rcases FVal.infinite_or_finite hy with ⟨b, rfl⟩ | fy
  · exact FVal.lt_infinities a b
  · exact FVal.lt_inf_left fy a
  · exact FVal.lt_inf_right fx b
  · exact FVal.lt_finite_iff fx fy

theorem FVal.eq_def : x.eq y = (!x.lt y && !y.lt x) := by
  cases x <;> cases y <;> first | rfl | exact absurd rfl hx | exact absurd rfl hy

theorem FVal.eq_iff : x.eq y = true ↔ x.ext = y.ext := by
  rw [FVal.eq_def hx hy, Bool.and_eq_true, Bool.not_eq_true', Bool.not_eq_true', ← Bool.not_eq_true, ← Bool.not_eq_true,
    FVal.lt_iff hx hy, FVal.lt_iff hy hx, not_lt, not_lt]
  exact ⟨fun h => le_antisymm h.2 h.1, fun h => ⟨h.ge, h.le⟩⟩

end

theorem FVal.unordered {x y : FVal} (nan : x = .nan ∨ y = .nan) : x.lt y = false ∧ x.eq y = false ∧ (x.isNan || y.isNan) = true := by
  rcases nan with rfl | rfl
  · exact ⟨rfl, rfl, rfl⟩
  · cases x <;> exact ⟨rfl, rfl, rfl⟩

/-! ## Compares (R233) -/

theorem two_bits (c : BitVec 2) : c = 0 ∨ c = 1 ∨ c = 2 ∨ c = 3 := by
  revert c; decide

/-- With a NaN only `unordered` holds. -/
theorem condF32_nan {x y : W32} (nan : f32.decode x.toNat = .nan ∨ f32.decode y.toNat = .nan) (c : BitVec 2) :
    condF32 c x y = decide (c = 3) := by
  obtain ⟨lt, eq, un⟩ := FVal.unordered nan
  unfold condF32
  dsimp only
  rw [lt, eq, un]
  revert c
  decide

theorem condF32_number {x y : W32} (hx : f32.decode x.toNat ≠ .nan) (hy : f32.decode y.toNat ≠ .nan) (c : BitVec 2) :
    condF32 c x y = true ↔ (c = 0 ∧ (f32.decode x.toNat).ext = (f32.decode y.toNat).ext) ∨
      (c = 1 ∧ (f32.decode x.toNat).ext < (f32.decode y.toNat).ext) ∨ (c = 2 ∧ (f32.decode x.toNat).ext ≤ (f32.decode y.toNat).ext) := by
  have numbers : ((f32.decode x.toNat).isNan || (f32.decode y.toNat).isNan) = false := by
    rw [← Bool.not_eq_true, Bool.or_eq_true]
    exact Fmt.numbers hx hy
  unfold condF32
  dsimp only
  rcases two_bits c with rfl | rfl | rfl | rfl
  · simpa using FVal.eq_iff hx hy
  · simpa using FVal.lt_iff hx hy
  · simpa [FVal.lt_iff hx hy, FVal.eq_iff hx hy] using le_iff_lt_or_eq.symm
  · simpa using numbers

theorem condI32_eq (c : BitVec 2) (x y : W32) : condI32 c x y = if c = 0 then decide (x = y) else if c = 1 then decide (x.toInt < y.toInt)
    else if c = 2 then decide (x.toInt ≤ y.toInt) else decide (x ≠ y) := by
  rcases two_bits c with rfl | rfl | rfl | rfl
  · rfl
  · rfl
  · rfl
  · exact (decide_not (p := x = y)).symm

theorem condN32_eq (c : BitVec 2) (x y : W32) : condN32 c x y = if c = 0 then decide (x = y) else if c = 1 then decide (x.toNat < y.toNat)
    else if c = 2 then decide (x.toNat ≤ y.toNat) else decide (x ≠ y) := by
  rcases two_bits c with rfl | rfl | rfl | rfl
  · rfl
  · rfl
  · rfl
  · exact (decide_not (p := x = y)).symm

section
variable (s : State) (g : BitVec 4) (h k : BitVec 3) (d a b : BitVec 5)

/-- A compare gives the condition in the lanes selected and 0 in the others (R233). -/
theorem State.slotVcmp_gives {f f' : W32 → W32 → Bool} (same : ∀ x y, f x y = f' x y) : ∃ y : BitVec 1024,
    s.slotVcmp g h a b k f = .next (s.guarded g (s.inFlight 2 (.k h (BitVec.allOnes 1024) y) 0)) ∧
      ∀ j : Fin 1024, y.getLsbD j.val = ((s.regs.rk k).getLsbD j.val && f' ((s.regs.rv a)[j]) ((s.regs.rv b)[j])) := by
  refine ⟨_, State.slot_none, fun j => ?_⟩
  rw [BitVec.getLsbD_ofFnLE, dif_pos j.isLt, ← same, ← lane_eq_getElem, ← lane_eq_getElem]

/-! ## Lane moves (R234) -/

theorem lane_word (x : W64) (l : Nat) : x.truncate 32 + BitVec.ofNat 32 l = BitVec.ofNat 32 (x.toNat + l) := by
  rw [BitVec.ofNat_add, BitVec.ofNat_toNat]

theorem vbcast_gives : VectorResult s s g 2 d k (fun _ => (BitVec.ofNat 32 (s.regs.rs a).toNat, 0)) (exec (.vbcast g d a k) s) := by
  rw [BitVec.ofNat_toNat]
  exact s.slot_vput_vectorResult g 2 d k fun t _ => ((t.regs.rs a).truncate 32, 0)

theorem viota_gives : VectorResult s s g 2 d k (fun j => (BitVec.ofNat 32 ((s.regs.rs a).toNat + j), 0)) (exec (.viota g d a k) s) := by
  simp only [← lane_word]
  exact s.slot_vput_vectorResult g 2 d k fun t l => ((t.regs.rs a).truncate 32 + BitVec.ofNat 32 l, 0)

theorem vperm_gives : VectorResult s s g 2 d k (fun j =>
    ((s.regs.rv a)[((s.regs.rv b)[j]).toNat % 1024]'(Nat.mod_lt _ (by omega)), 0)) (exec (.vperm g d a b k) s) := by
  have picks (j : Fin 1024) : (s.regs.rv a)[((s.regs.rv b)[j]).toNat % 1024]'(Nat.mod_lt _ (by omega)) =
      lane (s.regs.rv a) ((lane (s.regs.rv b) j).toNat % 1024) := by
    rw [lane_eq_getElem (s.regs.rv b) j]
    exact (lane_eq_getElem (s.regs.rv a) ⟨_, Nat.mod_lt _ (by omega)⟩).symm
  simp only [picks]
  exact s.slot_vput_vectorResult g 2 d k fun t l => (lane (t.regs.rv a) ((lane (t.regs.rv b) l).toNat % 1024), 0)

end

end Sys2Proof.Machine
end

section
/-! Reductions: the lanes that take part, their count, and the pairwise tree (R78, R79, R235). -/

namespace Sys2Proof.Machine

/-! ## The tree (R78) -/

/-- The value at place `i` of level `m` of the pairwise tree over `f`. -/
def treeAt {α : Type} (op : α → α → α) (f : Nat → α) : Nat → Nat → α
  | 0, i => f i
  | m + 1, i => op (treeAt op f m (2 * i)) (treeAt op f m (2 * i + 1))

section
variable {α : Type} (op : α → α → α)

theorem treeStep_range : ∀ (n : Nat) (f : Nat → α),
    treeStep op ((List.range (2 * n)).map f) = (List.range n).map fun i => op (f (2 * i)) (f (2 * i + 1))
  | 0, _ => rfl
  | n + 1, f => by
    have two : List.range (2 * (n + 1)) = 0 :: 1 :: (List.range (2 * n)).map (· + 2) := by
      rw [Nat.mul_succ, List.range_succ_eq_map, List.range_succ_eq_map, List.map_cons, List.map_map]
      rfl
    rw [two, List.map_cons, List.map_cons, List.map_map, treeStep, treeStep_range n, List.range_succ_eq_map, List.map_cons, List.map_map]
    rfl

theorem treeAt_step (f : Nat → α) : ∀ m i, treeAt op (fun i => op (f (2 * i)) (f (2 * i + 1))) m i = treeAt op f (m + 1) i
  | 0, _ => rfl
  | m + 1, i => by
    rw [treeAt, treeAt_step f m, treeAt_step f m]
    rfl

/-- The tree over 2^m values ends in its value at level m. -/
theorem reduceTree_range : ∀ (m : Nat) (f : Nat → α), reduceTree op m ((List.range (2 ^ m)).map f) = [treeAt op f m 0]
  | 0, _ => rfl
  | m + 1, f => by
    rw [reduceTree, pow_succ', treeStep_range, reduceTree_range m, treeAt_step]

end

/-! ## Combines (R235) -/

theorem Fmt.signed_lt {f : Fmt} {neg : Bool} {mag : Nat} (h : mag < f.sign) : f.signed neg mag < 2 * f.sign := by
  unfold Fmt.signed
  split <;> omega

theorem f32_pack_lt (v : FVal) (mode : Rnd) (u : Nat) : (f32.pack v mode u).1 < 2 ^ 32 := by
  have small {neg : Bool} {mag : Nat} (h : mag < 2 ^ 31) : f32.signed neg mag < 2 ^ 32 := Fmt.signed_lt (f := f32) h
  unfold Fmt.pack
  split
  · decide
  · exact small (by decide)
  · exact small (by decide)
  · dsimp only
    split
    · split
      · exact small (by decide)
      · exact small (by decide)
    · rename_i le
      exact small ((Nat.le_of_not_lt le).trans_lt (by decide))

theorem f32_addB_lt (x y : Nat) : (f32.addB x y).1 < 2 ^ 32 := by
  unfold Fmt.addB Fmt.arith
  split
  · decide
  · exact f32_pack_lt _ _ _

theorem f32_maxB_lt {x y : Nat} (hx : x < 2 ^ 32) (hy : y < 2 ^ 32) : f32.maxB x y < 2 ^ 32 := by
  unfold Fmt.maxB
  split
  · decide
  · split <;> assumption

theorem f32_minB_lt {x y : Nat} (hx : x < 2 ^ 32) (hy : y < 2 ^ 32) : f32.minB x y < 2 ^ 32 := by
  unfold Fmt.minB
  split
  · decide
  · split <;> assumption

/-- One combine on words (R235). -/
def wordOp (r : BitVec 3) (x y : W32) : W32 × BitVec 6 :=
  if r = 0 then (BitVec.ofNat 32 (f32.addB x.toNat y.toNat).1, (f32.addB x.toNat y.toNat).2)
  else if r = 1 then (BitVec.ofNat 32 (f32.maxB x.toNat y.toNat), 0)
  else if r = 2 then (BitVec.ofNat 32 (f32.minB x.toNat y.toNat), 0)
  else if r = 3 then (x + y, 0) else if r = 4 then (BitVec.ofInt 32 (max x.toInt y.toInt), 0)
  else if r = 5 then (BitVec.ofInt 32 (min x.toInt y.toInt), 0)
  else if r = 6 then (BitVec.ofNat 32 (max x.toNat y.toNat), 0) else (BitVec.ofNat 32 (min x.toNat y.toNat), 0)

theorem three_bits (r : BitVec 3) : r = 0 ∨ r = 1 ∨ r = 2 ∨ r = 3 ∨ r = 4 ∨ r = 5 ∨ r = 6 ∨ r = 7 := by
  revert r; decide

theorem toSigned_toNat (x : W32) : toSigned 32 x.toNat = x.toInt := by
  rw [BitVec.toInt_eq_toNat_cond, toSigned, Nat.mod_eq_of_lt x.isLt]
  split <;> split <;> first | rfl | omega

/-- A word and the flags so far, as the reduction carries them. -/
def carried (x : W32 × BitVec 6) : Nat × BitVec 6 := (x.1.toNat, x.2)

/-- A combine of the reduction is that of the words, with the flags of both sides. -/
theorem redOp_carried (r : BitVec 3) (x y : W32 × BitVec 6) :
    redOp r (carried x) (carried y) = carried ((wordOp r x.1 y.1).1, x.2 ||| y.2 ||| (wordOp r x.1 y.1).2) := by
  have word {n : Nat} (h : n < 2 ^ 32) : (BitVec.ofNat 32 n).toNat = n := by rw [BitVec.toNat_ofNat, Nat.mod_eq_of_lt h]
  obtain ⟨x, fx⟩ := x
  obtain ⟨y, fy⟩ := y
  unfold carried
  rcases three_bits r with rfl | rfl | rfl | rfl | rfl | rfl | rfl | rfl
  · exact Prod.ext (word (f32_addB_lt _ _)).symm rfl
  · exact Prod.ext (word (f32_maxB_lt x.isLt y.isLt)).symm rfl
  · exact Prod.ext (word (f32_minB_lt x.isLt y.isLt)).symm rfl
  · exact Prod.ext (BitVec.toNat_add x y).symm rfl
  · refine Prod.ext ?_ rfl
    show (if toSigned 32 x.toNat < toSigned 32 y.toNat then y.toNat else x.toNat) = (BitVec.ofInt 32 (max x.toInt y.toInt)).toNat
    rw [toSigned_toNat, toSigned_toNat, ← slt_max, apply_ite BitVec.toNat]
    simp only [BitVec.slt, decide_eq_true_eq]
  · refine Prod.ext ?_ rfl
    show (if toSigned 32 y.toNat < toSigned 32 x.toNat then y.toNat else x.toNat) = (BitVec.ofInt 32 (min x.toInt y.toInt)).toNat
    rw [toSigned_toNat, toSigned_toNat, ← slt_min, apply_ite BitVec.toNat]
    simp only [BitVec.slt, decide_eq_true_eq]
  · exact Prod.ext (word (max_lt x.isLt y.isLt)).symm rfl
  · exact Prod.ext (word ((Nat.min_le_left _ _).trans_lt x.isLt)).symm rfl

/-- The words and flags of the tree. -/
def wordTree (r : BitVec 3) (f : Nat → W32) : Nat → Nat → W32 × BitVec 6 :=
  treeAt (fun x y => ((wordOp r x.1 y.1).1, x.2 ||| y.2 ||| (wordOp r x.1 y.1).2)) fun i => (f i, 0)

theorem treeAt_carried (r : BitVec 3) (f : Nat → W32) : ∀ m i,
    treeAt (redOp r) (fun i => ((f i).toNat, 0)) m i = carried (wordTree r f m i)
  | 0, _ => rfl
  | m + 1, i => by
    rw [treeAt, treeAt_carried r f m, treeAt_carried r f m, redOp_carried]
    rfl

/-- The identity of a reduction as a word. -/
def wordIdentity (r : BitVec 3) : W32 :=
  if r = 1 then 0xFF800000 else if r = 2 then 0x7F800000 else if r = 4 then 0x80000000
    else if r = 5 then 0x7FFFFFFF else if r = 7 then 0xFFFFFFFF else 0

theorem redIdentity_eq (r : BitVec 3) : redIdentity r = (wordIdentity r).toNat := by
  revert r; decide

end Sys2Proof.Machine
end

section
/-! The lanes that a reduction takes, their count, and what it gives (R79, R235). -/

namespace Sys2Proof.Machine

/-- A lane as the list of the register's lanes has it. -/
theorem lane_eq_getD (v : Vector W32 1024) (l : Nat) : lane v l = v.toList.getD l 0 := by
  simp [lane, vget, List.getD_eq_getElem?_getD]

section
variable (r : BitVec 3) (ns : BitVec 2) (v : Vector W32 1024) (m : BitVec 1024)

/-- A lane of a floating reduction holds NaN. -/
def nanLane (l : Nat) : Bool := decide (r.toNat < 3) && (f32.decode (lane v l).toNat).isNan

/-- A block of 32 lanes has an enabled lane and no enabled NaN. -/
def goodBlock (b : Nat) : Bool :=
  ((List.range 32).map (32 * b + ·)).any (fun l => m.getLsbD l) &&
    ((List.range 32).map (32 * b + ·)).all fun l => !(m.getLsbD l && nanLane r v l)

/-- A lane takes part (R79). -/
def takesPart (l : Nat) : Bool :=
  m.getLsbD l && (if ns = 1 then !nanLane r v l else if ns = 2 then goodBlock r v m (l / 32) else true)

/-- The lanes that are enabled. -/
def enabledLanes : List Nat := (List.range 1024).filter fun l => m.getLsbD l

/-- The lanes or blocks counted. -/
def takenCount : Nat :=
  if ns = 1 then ((enabledLanes m).filter fun l => !nanLane r v l).length
  else if ns = 2 then ((List.range 32).filter (goodBlock r v m)).length else 0

/-- The reduction: NaN, nothing, or the tree (R235). -/
theorem reduceLanes_eq : reduceLanes r ns v m =
    if ns = 0 && (enabledLanes m).any (nanLane r v) then (f32.qnan, 0, 0)
    else if (if ns = 0 then (enabledLanes m).isEmpty else decide (takenCount r ns v m = 0)) then (0, 0, 0)
    else
      let t := ((reduceTree (redOp r) 10 ((List.range 1024).map fun l =>
        ((if takesPart r ns v m l then (lane v l).toNat else redIdentity r), (0 : BitVec 6)))).head?).getD (0, 0)
      (t.1, min (takenCount r ns v m) (if ns = 1 then 255 else 65535), t.2) := rfl

/-! ## Who takes part -/

theorem nanLane_iff {l : Nat} : nanLane r v l = true ↔ r.toNat < 3 ∧ f32.decode (v.toList.getD l 0).toNat = .nan := by
  unfold nanLane
  rw [Bool.and_eq_true, decide_eq_true_iff, FVal.isNan_iff, lane_eq_getD]

theorem goodBlock_iff {b : Nat} : goodBlock r v m b = true ↔
    (∃ l < 32, m.getLsbD (32 * b + l) = true) ∧ ∀ l < 32, m.getLsbD (32 * b + l) = true → ¬ nanLane r v (32 * b + l) = true := by
  unfold goodBlock
  rw [Bool.and_eq_true, List.any_map, List.all_map, List.any_eq_true, List.all_eq_true]
  refine and_congr (by simp) ⟨fun all l hl on nan => ?_, fun all l hl => ?_⟩
  · have held := all l (List.mem_range.mpr hl)
    rw [Function.comp_apply, on, nan] at held
    cases held
  · rw [Function.comp_apply, Bool.not_eq_true', ← Bool.not_eq_true, Bool.and_eq_true]
    exact fun h => all l (List.mem_range.mp hl) h.1 h.2

theorem takesPart_zero {l : Nat} : takesPart r 0 v m l = m.getLsbD l := by
  unfold takesPart
  rw [if_neg (by decide), if_neg (by decide), Bool.and_true]

theorem takesPart_iff (ok : ns ≠ 3) {l : Nat} : takesPart r ns v m l = true ↔ m.getLsbD l = true ∧
    (ns = 1 → ¬ nanLane r v l = true) ∧ (ns = 2 → goodBlock r v m (l / 32) = true) := by
  unfold takesPart
  rcases two_bits ns with rfl | rfl | rfl | rfl
  · simp
  · simp
  · simp
  · exact absurd rfl ok

theorem mem_enabledLanes {l : Nat} : l ∈ enabledLanes m ↔ l < 1024 ∧ m.getLsbD l = true := by
  simp [enabledLanes]

theorem nodup_enabledLanes : (enabledLanes m).Nodup := List.nodup_range.filter _

/-- The length of a filtered range is the number of its members. -/
theorem length_eq_card {l : List Nat} (nodup : l.Nodup) {ls : Finset Nat} (mem : ∀ x, x ∈ ls ↔ x ∈ l) : l.length = ls.card := by
  rw [← List.toFinset_card_of_nodup nodup]
  exact congrArg Finset.card (Finset.ext fun x => by rw [List.mem_toFinset, mem])

theorem takenCount_lanes {ls : Finset Nat} (mem : ∀ l, l ∈ ls ↔ l < 1024 ∧ takesPart r 1 v m l = true) :
    takenCount r 1 v m = ls.card := by
  unfold takenCount
  rw [if_pos rfl]
  refine length_eq_card ((nodup_enabledLanes m).filter _) fun l => ?_
  rw [mem, takesPart_iff r 1 v m (by decide), List.mem_filter, mem_enabledLanes]
  simp [and_assoc]

theorem takenCount_blocks {bs : Finset Nat} (mem : ∀ b, b ∈ bs ↔ b < 32 ∧ goodBlock r v m b = true) :
    takenCount r 2 v m = bs.card := by
  unfold takenCount
  rw [if_neg (by decide), if_pos rfl]
  refine length_eq_card (List.nodup_range.filter _) fun b => ?_
  rw [mem, List.mem_filter, List.mem_range]

/-- Nothing is reduced exactly when no lane takes part. -/
theorem nothing_iff (ok : ns ≠ 3) : (if ns = 0 then (enabledLanes m).isEmpty else decide (takenCount r ns v m = 0)) = true ↔
    ∀ l < 1024, ¬ takesPart r ns v m l = true := by
  rcases two_bits ns with rfl | rfl | rfl | rfl
  · rw [if_pos rfl, List.isEmpty_iff, List.eq_nil_iff_forall_not_mem]
    simp only [mem_enabledLanes, takesPart_zero, not_and]
  · have empty : takenCount r 1 v m = 0 ↔ ∀ l, ¬ (l < 1024 ∧ takesPart r 1 v m l = true) := by
      rw [takenCount_lanes r v m (ls := (Finset.range 1024).filter fun l => takesPart r 1 v m l = true) (by simp),
        Finset.card_eq_zero, Finset.eq_empty_iff_forall_notMem]
      simp
    rw [if_neg (by decide), decide_eq_true_iff, empty]
    simp only [not_and]
  · have empty : takenCount r 2 v m = 0 ↔ ∀ b, ¬ (b < 32 ∧ goodBlock r v m b = true) := by
      rw [takenCount_blocks r v m (bs := (Finset.range 32).filter fun b => goodBlock r v m b = true) (by simp),
        Finset.card_eq_zero, Finset.eq_empty_iff_forall_notMem]
      simp
    rw [if_neg (by decide), decide_eq_true_iff, empty]
    constructor
    · intro none l hl takes
      exact none (l / 32) ⟨by omega, ((takesPart_iff r 2 v m (by decide)).mp takes).2.2 rfl⟩
    · rintro none b ⟨hb, good⟩
      obtain ⟨l, hl, on⟩ := ((goodBlock_iff r v m).mp good).1
      refine none (32 * b + l) (by omega) ((takesPart_iff r 2 v m (by decide)).mpr ⟨on, fun h => absurd h (by decide), fun _ => ?_⟩)
      rw [show (32 * b + l) / 32 = b by omega]
      exact good
  · exact absurd rfl ok

/-! ## The result -/

theorem reduceLanes_nan (h : ∃ l < 1024, m.getLsbD l = true ∧ nanLane r v l = true) : reduceLanes r 0 v m = (f32.qnan, 0, 0) := by
  obtain ⟨l, hl, on, nan⟩ := h
  rw [reduceLanes_eq]
  exact if_pos ((Bool.and_eq_true _ _).mpr ⟨rfl, List.any_eq_true.mpr ⟨l, (mem_enabledLanes m).mpr ⟨hl, on⟩, nan⟩⟩)

theorem no_nan_iff : ¬ (decide (ns = 0) && (enabledLanes m).any (nanLane r v)) = true ↔
    (ns = 0 → ∀ l < 1024, m.getLsbD l = true → ¬ nanLane r v l = true) := by
  rw [Bool.and_eq_true, decide_eq_true_iff, List.any_eq_true, not_and, not_exists]
  simp only [mem_enabledLanes, not_and, and_imp]

theorem reduceLanes_nothing (ok : ns ≠ 3) (h : ∀ l < 1024, ¬ takesPart r ns v m l = true) : reduceLanes r ns v m = (0, 0, 0) := by
  have clean : ¬ (decide (ns = 0) && (enabledLanes m).any (nanLane r v)) = true := by
    rw [no_nan_iff]
    rintro rfl l hl on
    exact absurd ((takesPart_zero r v m).trans on) (h l hl)
  rw [reduceLanes_eq, if_neg clean, if_pos ((nothing_iff r ns v m ok).mpr h)]

/-- The term of a lane in the tree. -/
def reduceTerm (l : Nat) : W32 := if takesPart r ns v m l then lane v l else wordIdentity r

theorem reduceLanes_tree (ok : ns ≠ 3) (clean : ns = 0 → ∀ l < 1024, m.getLsbD l = true → ¬ nanLane r v l = true)
    (some : ∃ l < 1024, takesPart r ns v m l = true) : reduceLanes r ns v m =
      ((wordTree r (reduceTerm r ns v m) 10 0).1.toNat, min (takenCount r ns v m) (if ns = 1 then 255 else 65535),
        (wordTree r (reduceTerm r ns v m) 10 0).2) := by
  have terms : ((List.range 1024).map fun l => ((if takesPart r ns v m l then (lane v l).toNat else redIdentity r), (0 : BitVec 6))) =
      (List.range (2 ^ 10)).map fun l => ((reduceTerm r ns v m l).toNat, 0) := by
    refine List.map_congr_left fun l _ => ?_
    rw [reduceTerm, redIdentity_eq, apply_ite BitVec.toNat]
  have any : ¬ (if ns = 0 then (enabledLanes m).isEmpty else decide (takenCount r ns v m = 0)) = true := by
    rw [nothing_iff r ns v m ok]
    obtain ⟨l, hl, takes⟩ := some
    exact fun none => none l hl takes
  rw [reduceLanes_eq, if_neg ((no_nan_iff r ns v m).mpr clean), if_neg any, terms, reduceTree_range, treeAt_carried]
  rfl

theorem reduceLanes_small (ok : ns ≠ 3) : (reduceLanes r ns v m).1 < 2 ^ 32 := by
  by_cases clean : ns = 0 → ∀ l < 1024, m.getLsbD l = true → ¬ nanLane r v l = true
  · by_cases some : ∃ l < 1024, takesPart r ns v m l = true
    · rw [reduceLanes_tree r ns v m ok clean some]
      exact BitVec.isLt _
    · rw [reduceLanes_nothing r ns v m ok fun l hl takes => some ⟨l, hl, takes⟩]
      decide
  · have nan : ns = 0 ∧ ∃ l < 1024, m.getLsbD l = true ∧ nanLane r v l = true := by
      push Not at clean
      exact clean
    obtain ⟨rfl, h⟩ := nan
    rw [reduceLanes_nan r v m h]
    decide

/-- The count of a reduction (R79). -/
theorem reduceLanes_count (ok : ns ≠ 3) : (reduceLanes r ns v m).2.1 = min (takenCount r ns v m) (if ns = 1 then 255 else 65535) := by
  have zero {n : BitVec 2} (h : n = 0) : takenCount r n v m = 0 := by subst h; rfl
  by_cases clean : ns = 0 → ∀ l < 1024, m.getLsbD l = true → ¬ nanLane r v l = true
  · by_cases some : ∃ l < 1024, takesPart r ns v m l = true
    · rw [reduceLanes_tree r ns v m ok clean some]
    · have none : ∀ l < 1024, ¬ takesPart r ns v m l = true := fun l hl takes => some ⟨l, hl, takes⟩
      have count : takenCount r ns v m = 0 := by
        by_cases h : ns = 0
        · exact zero h
        · have nothing := (nothing_iff r ns v m ok).mpr none
          rw [if_neg h] at nothing
          exact of_decide_eq_true nothing
      rw [reduceLanes_nothing r ns v m ok none, count, Nat.zero_min]
  · have nan : ns = 0 ∧ ∃ l < 1024, m.getLsbD l = true ∧ nanLane r v l = true := by
      push Not at clean
      exact clean
    obtain ⟨rfl, h⟩ := nan
    rw [reduceLanes_nan r v m h, zero rfl, Nat.zero_min]

end

/-- A reduction puts its value and its count in flight (R235). -/
theorem vred_gives (s : State) (g : BitVec 4) (d a : BitVec 5) (r : BitVec 3) (n : BitVec 2) (k : BitVec 3) (ok : n ≠ 3) :
    exec (.vred g d a r n k) s = .next (s.guarded g (s.inFlight 9
      (.s d (BitVec.ofNat 64 ((BitVec.ofNat 32 (reduceLanes r n (s.regs.rv a) (s.regs.rk k)).1).toNat +
        (reduceLanes r n (s.regs.rv a) (s.regs.rk k)).2.1 * 2 ^ 32)))
      (reduceLanes r n (s.regs.rv a) (s.regs.rk k)).2.2)) := by
  rw [BitVec.toNat_ofNat, Nat.mod_eq_of_lt (reduceLanes_small r n _ _ ok)]
  exact State.slot_none (f := fun t => t.push 9 (.s d (BitVec.ofNat 64 ((reduceLanes r n (t.regs.rv a) (t.regs.rk k)).1 +
    (reduceLanes r n (t.regs.rv a) (t.regs.rk k)).2.1 * 2 ^ 32))) (reduceLanes r n (t.regs.rv a) (t.regs.rk k)).2.2 0)

/-- Settles O18: compares by the order of values, and the reduction by its tree. -/
theorem vectorComparesAndLanes : Obligations.VectorComparesAndLanes := by
  unfold Obligations.VectorComparesAndLanes
  intro s g c l n h p q k r d a b cmp ext f on nan good takes none_ op
  refine ⟨⟨condF32 c, s.slotVcmp_gives g h k a b fun _ _ => rfl, fun x y => ?_⟩, s.slotVcmp_gives g h k a b (condI32_eq c),
    s.slotVcmp_gives g h k a b (condN32_eq c),
    State.slot_put_gives (f := fun t => .k h (BitVec.allOnes 1024) (if l = 0 then t.regs.rk p &&& t.regs.rk q
      else if l = 1 then t.regs.rk p ||| t.regs.rk q else if l = 2 then t.regs.rk p ^^^ t.regs.rk q
      else t.regs.rk p &&& ~~~t.regs.rk q)) rfl, vbcast_gives s g k d a, viota_gives s g k d a, vperm_gives s g k d a b, ?_⟩
  · exact ⟨fun nan => condF32_nan nan c, fun hx hy => condF32_number hx hy c⟩
  · intro ok _
    have nan_iff (l : Nat) : nanLane r (s.regs.rv a) l = true ↔ nan l := nanLane_iff r (s.regs.rv a)
    have good_iff (b : Nat) : goodBlock r (s.regs.rv a) (s.regs.rk k) b = true ↔ good b := by
      simp only [goodBlock_iff, nan_iff]
      exact Iff.rfl
    have takes_iff (l : Nat) : takesPart r n (s.regs.rv a) (s.regs.rk k) l = true ↔ takes l := by
      simp only [takesPart_iff r n _ _ ok, nan_iff, good_iff]
      exact Iff.rfl
    have count := reduceLanes_count r n (s.regs.rv a) (s.regs.rk k) ok
    refine ⟨_, _, _, vred_gives s g d a r n k ok, fun ls one mem => ?_, fun bs two mem => ?_, fun zero => ?_, fun zero nans => ?_,
      fun none => ?_, fun clean some => ?_⟩
    · subst one
      rw [count, takenCount_lanes r _ _ fun l => (mem l).trans (and_congr_right fun _ => (takes_iff l).symm), if_pos rfl]
    · subst two
      rw [count, takenCount_blocks r _ _ fun b => (mem b).trans (and_congr_right fun _ => (good_iff b).symm), if_neg (by decide)]
    · subst zero
      rw [count]
      exact Nat.zero_min _
    · subst zero
      obtain ⟨l, hl, on, nan⟩ := nans
      rw [reduceLanes_nan r _ _ ⟨l, hl, on, (nan_iff l).mpr nan⟩]
      exact ⟨rfl, rfl⟩
    · rw [reduceLanes_nothing r n _ _ ok fun l hl takes => none l hl ((takes_iff l).mp takes)]
      exact ⟨rfl, rfl⟩
    · obtain ⟨l, hl, takes⟩ := some
      rw [reduceLanes_tree r n _ _ ok (fun zero l hl on nan => clean zero l hl on ((nan_iff l).mp nan)) ⟨l, hl, (takes_iff l).mpr takes⟩]
      refine ⟨wordTree r (reduceTerm r n (s.regs.rv a) (s.regs.rk k)), fun l _ => ⟨fun takes => ?_, fun not => ?_⟩, fun m _ i _ => rfl, ?_⟩
      · show (reduceTerm r n _ _ l, _) = _
        rw [reduceTerm, if_pos ((takes_iff l).mpr takes), lane_eq_getD]
      · show (reduceTerm r n _ _ l, _) = _
        rw [reduceTerm, if_neg fun h => not ((takes_iff l).mp h)]
        rfl
      · rw [BitVec.ofNat_toNat, BitVec.setWidth_eq]

end Sys2Proof.Machine
end

section
/-! Vector conversions: the slots, their draws and the lanes that they write (R229 to R232). -/

namespace Sys2Proof.Machine

/-! ## Slots with draws (R66 to R68) -/

section
variable (s : State) (g : BitVec 4) (d a : BitVec 5) (m : BitVec 2) (k : BitVec 3)

/-- A vector slot that takes draws gives its lanes on the state that has taken them. -/
theorem State.slot_draws_vectorResult (lat n : Nat) (f : State → List Nat → Nat → W32 × BitVec 6) :
    VectorResult s (s.roundingDraws m n).2 g lat d k (fun j => f s (s.roundingDraws m n).1 j)
      (s.slot g none fun t => (t.roundingDraws m n).2.vput lat d (t.regs.rk k) (f t (t.roundingDraws m n).1)) := by
  refine ⟨_, State.slot_none, fun b _ => (getLsbD_foldl_or (s.regs.rk k).getLsbD _ _ _).trans ?_⟩
  simp only [BitVec.ofNat_eq_ofNat, BitVec.getLsbD_zero, Bool.false_eq_true, false_or, List.mem_range, Fin.exists_iff,
    exists_prop]

/-- A conversion in place: lane by lane with its draw (R230). -/
theorem State.slotCvt_vectorResult (f : Nat → Nat → Nat × BitVec 6) : VectorResult s (s.roundingDraws m 1024).2 g 3 d k
    (fun j => asLane (f ((s.regs.rv a)[j]).toNat ((s.roundingDraws m 1024).1.getD j 0))) (s.slotCvt g d a m k f) := by
  have result := s.slot_draws_vectorResult g d m k 3 1024 fun t us j => asLane (f (lane (t.regs.rv a) j).toNat (us.getD j 0))
  unfold State.slotCvt
  simp only [State.takeDraws_of, Array.getD_eq_getD_getElem?, List.getElem?_toArray, ← List.getD_eq_getElem?_getD, ← lane_eq_getElem]
  exact result

/-- The element of a narrowed lane that comes from register `i` (R231). -/
def State.narrowed (s : State) (a : BitVec 5) (m : BitVec 2) (n : Nat) (f : Nat → Nat → Nat × BitVec 6) (j i : Nat) : Nat × BitVec 6 :=
  f (lane (s.regs.rv (a + BitVec.ofNat 5 i)) j).toNat ((s.roundingDraws m (1024 * n)).1.getD (n * j + i) 0)

/-- A narrowing form packs the elements of its registers. -/
theorem State.slotNarrow_vectorResult (w : Nat) (f : Nat → Nat → Nat × BitVec 6) :
    VectorResult s (s.roundingDraws m (1024 * (32 / w))).2 g 3 d k
      (fun j => (BitVec.ofNat 32 (packLane w (((List.range (32 / w)).map (s.narrowed a m (32 / w) f j)).map (·.1))),
        ((List.range (32 / w)).map (s.narrowed a m (32 / w) f j)).foldl (fun fl r => fl ||| r.2) 0))
      (s.slotNarrow g d a m k w f) := by
  have result := s.slot_draws_vectorResult g d m k 3 (1024 * (32 / w)) fun t us l =>
    let rs := (List.range (32 / w)).map fun i => f (lane (t.regs.rv (a + BitVec.ofNat 5 i)) l).toNat (us.getD ((32 / w) * l + i) 0)
    (BitVec.ofNat 32 (packLane w (rs.map (·.1))), rs.foldl (fun fl r => fl ||| r.2) 0)
  unfold State.slotNarrow
  simp only [State.takeDraws_of, Array.getD_eq_getD_getElem?, List.getElem?_toArray, ← List.getD_eq_getElem?_getD]
  exact result

theorem State.slotNarrow_two (f : Nat → Nat → Nat × BitVec 6) : VectorResult s (s.roundingDraws m 2048).2 g 3 d k
    (fun j => halves (s.narrowed a m 2 f j 0) (s.narrowed a m 2 f j 1)) (s.slotNarrow g d a m k 16 f) := by
  have lanes (j : Nat) : (BitVec.ofNat 32 (packLane 16 (((List.range (32 / 16)).map (s.narrowed a m (32 / 16) f j)).map (·.1))),
      ((List.range (32 / 16)).map (s.narrowed a m (32 / 16) f j)).foldl (fun fl r => fl ||| r.2) 0) =
      halves (s.narrowed a m 2 f j 0) (s.narrowed a m 2 f j 1) := Prod.ext rfl (congrArg (· ||| _) BitVec.zero_or)
  have result := s.slotNarrow_vectorResult g d a m k 16 f
  simp only [lanes] at result
  exact result

/-- A lane of four 8-bit results. -/
def quarters (y : Nat → Nat × BitVec 6) : W32 × BitVec 6 :=
  (BitVec.ofNat 32 ((y 0).1 % 256 + 2 ^ 8 * ((y 1).1 % 256) + 2 ^ 16 * ((y 2).1 % 256) + 2 ^ 24 * ((y 3).1 % 256)),
    (y 0).2 ||| (y 1).2 ||| (y 2).2 ||| (y 3).2)

theorem packLane_four (a b c e : Nat) : packLane 8 [a, b, c, e] = a % 256 + 2 ^ 8 * (b % 256) + 2 ^ 16 * (c % 256) + 2 ^ 24 * (e % 256) := by
  simp only [packLane]
  omega

theorem State.slotNarrow_four (f : Nat → Nat → Nat × BitVec 6) : VectorResult s (s.roundingDraws m 4096).2 g 3 d k
    (fun j => quarters (s.narrowed a m 4 f j)) (s.slotNarrow g d a m k 8 f) := by
  have lanes (j : Nat) : (BitVec.ofNat 32 (packLane 8 (((List.range (32 / 8)).map (s.narrowed a m (32 / 8) f j)).map (·.1))),
      ((List.range (32 / 8)).map (s.narrowed a m (32 / 8) f j)).foldl (fun fl r => fl ||| r.2) 0) = quarters (s.narrowed a m 4 f j) :=
    Prod.ext (congrArg (BitVec.ofNat 32) (packLane_four _ _ _ _)) (congrArg (· ||| _ ||| _ ||| _) BitVec.zero_or)
  have result := s.slotNarrow_vectorResult g d a m k 8 f
  simp only [lanes] at result
  exact result

theorem State.narrowed_eq (n : Nat) (f : Nat → Nat → Nat × BitVec 6) (j : Fin 1024) (i : Nat) : s.narrowed a m n f j i =
    f ((s.regs.rv (a + BitVec.ofNat 5 i))[j]).toNat ((s.roundingDraws m (1024 * n)).1.getD (n * j + i) 0) := by
  unfold State.narrowed
  rw [lane_eq_getElem]

end

/-! ## Widening (R231) -/

/-- What part `j` of a widening form puts in flight. -/
def State.widened (s : State) (d a : BitVec 5) (k : BitVec 3) (f : Fmt) (w j : Nat) : Landing :=
  .v (d + BitVec.ofNat 5 j) (s.regs.rk k) (Vector.ofFn fun l : Fin 1024 =>
    BitVec.ofNat 32 (f32.pack (f.decode (((s.regs.rv a)[l]).toNat / 2 ^ (w * j) % 2 ^ w)) .rne 0).1)

theorem State.widened_vput (s t : State) (d a : BitVec 5) (k : BitVec 3) (f : Fmt) (w j : Nat) :
    (t.vput 3 (d + BitVec.ofNat 5 j) (s.regs.rk k) fun l => (BitVec.ofNat 32 (widen f (elemOf w (lane (s.regs.rv a) l) j)), 0)) =
      t.inFlight 3 (s.widened d a k f w j) 0 := by
  rw [State.vput_plain]
  unfold State.widened
  simp only [lane_eq_getElem]
  rfl

theorem vcvtF32Widen_gives (s : State) (g : BitVec 4) (d a : BitVec 5) (f : BitVec 2) (k : BitVec 3) {w : Nat}
    (width : (if f.toNat < 2 then 16 else 8) = w) : exec (.vcvtF32Widen g d a f k) s = .next (s.guarded g
      ((List.range (32 / w)).foldl (fun t j => t.inFlight 3 (s.widened d a k (widenFmt f) w j) 0) s)) := by
  subst width
  simp only [← State.widened_vput]
  exact State.slot_none (f := fun t => (List.range (32 / if f.toNat < 2 then 16 else 8)).foldl (fun u j =>
    u.vput 3 (d + BitVec.ofNat 5 j) (t.regs.rk k) fun l =>
      (BitVec.ofNat 32 (widen (widenFmt f) (elemOf (if f.toNat < 2 then 16 else 8) (lane (t.regs.rv a) l) j)), 0)) t)

theorem narrow_field (f : BitVec 2) : (if f.toNat < 2 then 16 else 8) = if f = 0 ∨ f = 1 then 16 else 8 := by
  revert f; decide

/-! ## Bytes of a register (R56, R232) -/

/-- Byte `k` of a little-endian number. -/
theorem leNat_byte : ∀ (l : List Byte) (k : Nat), leNat l / 2 ^ (8 * k) % 2 ^ 8 = (l.getD k 0).toNat
  | [], k => by simp [leNat]
  | b :: r, 0 => by
    have small := b.isLt
    simp only [leNat, List.getD_cons_zero]
    omega
  | b :: r, k + 1 => by
    have small := b.isLt
    have rest : (b.toNat + 256 * leNat r) / 2 ^ 8 = leNat r := by omega
    rw [leNat, Nat.mul_succ, Nat.add_comm (8 * k), Nat.pow_add, ← Nat.div_div_eq_div_mul, rest, leNat_byte r k, List.getD_cons_succ]

theorem leNat_lt_word : ∀ {l : List Byte} {n : Nat}, l.length ≤ n → leNat l < 256 ^ n
  | [], n, _ => Nat.pos_of_ne_zero (by simp)
  | b :: r, 0, h => absurd h (by simp)
  | b :: r, n + 1, h => by
    have small := b.isLt
    have rest := leNat_lt_word (l := r) (n := n) (by simpa using h)
    rw [leNat, pow_succ]
    omega

/-- Byte `i` of the register of a list of bytes. -/
theorem byteOf_lanesOf (bs : List Byte) {i : Nat} (hi : i < 4096) : byteOf (lanesOf bs) i = (bs.getD i 0).toNat := by
  have word : leNat ((bs.drop (4 * (i / 4))).take 4) < 2 ^ 32 := leNat_lt_word (n := 4) (List.length_take_le _ _)
  have at_ : lane (lanesOf bs) (i / 4) = BitVec.ofNat 32 (leNat ((bs.drop (4 * (i / 4))).take 4)) := by
    have inside : i / 4 < 1024 := by omega
    rw [lane_eq_getElem _ ⟨i / 4, inside⟩]
    simp [lanesOf]
  have place : 4 * (i / 4) + i % 4 = i := Nat.div_add_mod i 4
  unfold byteOf elemOf
  rw [at_, BitVec.toNat_ofNat, Nat.mod_eq_of_lt word, leNat_byte]
  rw [List.getD_eq_getElem?_getD, List.getD_eq_getElem?_getD, List.getElem?_take_of_lt (Nat.mod_lt i (by omega)),
    List.getElem?_drop, place]

/-- Codes below 16 are packed two a byte (R62). -/
theorem codeBytes_nibble : ∀ {l : List Nat}, (∀ c ∈ l, c < 16) → ∀ i, ((codeBytes l).getD (i / 2) 0).toNat / 16 ^ (i % 2) % 16 = l.getD i 0
  | [], _, i => by simp [codeBytes]
  | [a], small, i => by
    have ha : a < 16 := small a (by simp)
    rcases i with _ | _ | i
    · simp [codeBytes]; omega
    · simp [codeBytes]; omega
    · have : (i + 2) / 2 = i / 2 + 1 := by omega
      simp [codeBytes, this]
  | a :: b :: r, small, i => by
    have ha : a < 16 := small a (by simp)
    have hb : b < 16 := small b (by simp)
    rcases i with _ | _ | i
    · simp [codeBytes]; omega
    · simp [codeBytes]; omega
    · have half : (i + 2) / 2 = i / 2 + 1 := by omega
      have parity : (i + 2) % 2 = i % 2 := by omega
      rw [codeBytes, half, parity, List.getD_cons_succ, List.getD_cons_succ, List.getD_cons_succ]
      exact codeBytes_nibble (fun c hc => small c (by simp [hc])) i

theorem codeBytes_length : ∀ l : List Nat, (codeBytes l).length = (l.length + 1) / 2
  | [] => rfl
  | [_] => by simp [codeBytes]
  | _ :: _ :: r => by
    rw [codeBytes, List.length_cons, codeBytes_length r, List.length_cons, List.length_cons]
    omega

end Sys2Proof.Machine
end

section
/-! Storing in the narrow formats and as integers (R69, R70, R230). -/

namespace Sys2Proof.Machine

/-! ## Formats with an infinity, and those of 8 bits (R69, R70) -/

/-- The flags of a rounding that does not overflow. -/
theorem small_flags (inexact : Bool) (mag bound : Nat) :
    Flag.when inexact Flag.inexact ||| Flag.when (inexact && decide (mag < bound)) Flag.underflow =
      if inexact = false then 0 else if mag < bound then Flag.inexact ||| Flag.underflow else Flag.inexact := by
  by_cases low : mag < bound <;> cases inexact <;> simp [Flag.when, low]

theorem Fmt.signed_eq (f : Fmt) (neg : Bool) (c : Nat) : f.signed neg c = (if neg then 2 ^ (f.ebits + f.fbits) else 0) + c := by
  cases neg
  · exact (Nat.zero_add c).symm
  · rfl

section
variable {f : Fmt} {neg : Bool} {m u : Nat} {e : Int} {mode : Rnd}

theorem Fmt.pack_small (fits : (f.round m e mode u).1 ≤ f.maxMag) : f.pack (.fin neg m e) mode u =
    ((if neg then 2 ^ (f.ebits + f.fbits) else 0) + (f.round m e mode u).1,
      if (f.round m e mode u).2 = false then 0
      else if (f.round m e mode u).1 < 2 ^ f.fbits then Flag.inexact ||| Flag.underflow else Flag.inexact) := by
  rw [← Fmt.signed_eq, ← small_flags]
  exact if_neg (Nat.not_lt_of_le fits)

theorem Fmt.pack_overflow (inf : f.inf = some (f.maxMag + 1)) (large : f.maxMag < (f.round m e mode u).1) :
    f.pack (.fin neg m e) mode u = ((if neg then 2 ^ (f.ebits + f.fbits) else 0) + (if mode = .rz then f.maxMag else f.maxMag + 1),
      Flag.overflow ||| Flag.inexact) := by
  rw [← Fmt.signed_eq]
  refine (if_pos large).trans ?_
  rw [inf]
  rfl

theorem Fmt.pack_inf (inf : f.inf = some (f.maxMag + 1)) :
    f.pack (.inf neg) mode u = ((if neg then 2 ^ (f.ebits + f.fbits) else 0) + (f.maxMag + 1), 0) := by
  rw [← Fmt.signed_eq]
  show (f.signed neg (f.inf.getD f.maxMag), 0) = _
  rw [inf]
  rfl

theorem Fmt.pack8_small {nv : Bool} (fits : (f.round m e mode u).1 ≤ f.maxMag) : f.pack8 (.fin neg m e) mode nv u =
    ((if neg then 2 ^ (f.ebits + f.fbits) else 0) + (f.round m e mode u).1,
      if (f.round m e mode u).2 = false then 0
      else if (f.round m e mode u).1 < 2 ^ f.fbits then Flag.inexact ||| Flag.underflow else Flag.inexact) := by
  rw [← Fmt.signed_eq, ← small_flags]
  exact if_neg (Nat.not_lt_of_le fits)

theorem Fmt.pack8_overflow {nv : Bool} (large : f.maxMag < (f.round m e mode u).1) : f.pack8 (.fin neg m e) mode nv u =
    if nv then (f.qnan, Flag.overflow ||| Flag.inexact)
    else ((if neg then 2 ^ (f.ebits + f.fbits) else 0) + f.maxMag, Flag.saturated ||| Flag.inexact) := by
  rw [← Fmt.signed_eq]
  exact if_pos large

theorem Fmt.pack8_inf {nv : Bool} : f.pack8 (.inf neg) mode nv u = if nv then (f.qnan, Flag.overflow)
    else ((if neg then 2 ^ (f.ebits + f.fbits) else 0) + f.maxMag, Flag.saturated) := by
  rw [← Fmt.signed_eq]
  rfl

end

/-! ## Integers (R70, R230) -/

/-- A signed magnitude as an integer over a power of two. -/
theorem signed_ratio (neg : Bool) (m : Nat) (e : Int) : (if neg then -1 else 1 : ℚ) * m * 2 ^ e =
    (((if neg then -(m : Int) else m) * 2 ^ e.toNat : Int) : ℚ) / ((2 ^ (-e).toNat : Nat) : ℚ) := by
  have sign : ((if neg then -(m : Int) else m : Int) : ℚ) = (if neg then -1 else 1) * m := by cases neg <;> simp
  have power : (2 : ℚ) ^ e = 2 ^ e.toNat / 2 ^ (-e).toNat := by
    rcases le_total 0 e with h | h
    · rw [show (-e).toNat = 0 by omega, pow_zero, div_one, ← zpow_natCast, Int.toNat_of_nonneg h]
    · rw [show e.toNat = 0 by omega, pow_zero, one_div, ← zpow_natCast, Int.toNat_of_nonneg (by omega), zpow_neg, inv_inv]
  rw [power, Int.cast_mul, sign]
  push_cast
  ring

/-- An integer stored in a format (R70): the wrapped value, clamped. -/
theorem clampInt_bits (w : Nat) (signed : Bool) (y : Int) : clampInt w signed y =
    if y < (if signed then -2 ^ (w - 1) else 0 : Int) then ((BitVec.ofInt w (if signed then -2 ^ (w - 1) else 0)).toNat, Flag.saturated)
    else if (if signed then 2 ^ (w - 1) - 1 else 2 ^ w - 1 : Int) < y
      then ((BitVec.ofInt w (if signed then 2 ^ (w - 1) - 1 else 2 ^ w - 1)).toNat, Flag.saturated)
    else ((BitVec.ofInt w y).toNat, 0) := by
  simp only [BitVec.toNat_ofInt, Nat.cast_pow, Nat.cast_ofNat]
  cases signed <;> rfl

/-- How a fraction is rounded to an integer by its mode (R230). -/
def roundInt (num den : Int) (mode : Rnd) (u : Nat) : Int :=
  match mode with
  | .rz => if num < 0 then -((-num) / den) else num / den
  | .rne => if 2 * (num % den) < den || (decide (2 * (num % den) = den) && decide (num / den % 2 = 0)) then num / den else num / den + 1
  | .sr => if (u : Int) < num % den * 2 ^ 32 / den then num / den + 1 else num / den

theorem cvtInt_fin (neg : Bool) (m : Nat) (e : Int) (w : Nat) (signed : Bool) (mode : Rnd) (u : Nat) :
    cvtInt (.fin neg m e) w signed mode u =
      ((clampInt w signed (roundInt ((if neg then -(m : Int) else m) * 2 ^ e.toNat) (2 ^ (-e).toNat) mode u)).1,
        (clampInt w signed (roundInt ((if neg then -(m : Int) else m) * 2 ^ e.toNat) (2 ^ (-e).toNat) mode u)).2 |||
          Flag.when (decide ((if neg then -(m : Int) else m) * 2 ^ e.toNat % 2 ^ (-e).toNat ≠ 0)) Flag.inexact) := rfl

section
variable (num : Int) {den : Nat}

theorem ceil_ratio : ⌈(num : ℚ) / den⌉ = -((-num) / (den : Int)) := by
  rw [← neg_neg (⌈(num : ℚ) / den⌉), ← Int.floor_neg, ← neg_div, ← Int.cast_neg, Rat.floor_intCast_div_natCast]

theorem floor_draw : ⌊((num % den : Int) : ℚ) / den * 2 ^ 32⌋ = num % den * 2 ^ 32 / den := by
  have flip : ((num % den : Int) : ℚ) / den * 2 ^ 32 = ((num % den * 2 ^ 32 : Int) : ℚ) / den := by push_cast; ring
  rw [flip, Rat.floor_intCast_div_natCast]

variable (pos : 0 < den)
include pos

theorem fract_ratio : (num : ℚ) / den - ⌊(num : ℚ) / den⌋ = ((num % den : Int) : ℚ) / den := by
  have dpos : (den : ℚ) ≠ 0 := Nat.cast_ne_zero.mpr (Nat.ne_of_gt pos)
  rw [Rat.floor_intCast_div_natCast, Int.emod_def]
  push_cast
  field_simp

theorem half_ratio : (((num % den : Int) : ℚ) / den < 1 / 2 ↔ 2 * (num % den) < den) ∧
    (((num % den : Int) : ℚ) / den = 1 / 2 ↔ 2 * (num % den) = den) := by
  have dpos : (0 : ℚ) < den := Nat.cast_pos.mpr pos
  constructor
  · rw [div_lt_div_iff₀ dpos two_pos, one_mul, mul_comm]
    exact_mod_cast Iff.rfl
  · rw [div_eq_div_iff dpos.ne' two_ne_zero, one_mul, mul_comm]
    exact_mod_cast Iff.rfl

/-- Rounding a fraction to an integer, by its whole part and how far it lies above it (R230). -/
theorem roundInt_spec (mode : Rnd) (u : Nat) :
    let x : ℚ := num / den
    let p := x - ⌊x⌋
    roundInt num den mode u = match mode with
      | .rz => if num < 0 then ⌈x⌉ else ⌊x⌋
      | .rne => if p < 1 / 2 ∨ (p = 1 / 2 ∧ ⌊x⌋ % 2 = 0) then ⌊x⌋ else ⌊x⌋ + 1
      | .sr => if (u : Int) < ⌊p * 2 ^ 32⌋ then ⌊x⌋ + 1 else ⌊x⌋ := by
  intro x p
  have part : p = ((num % den : Int) : ℚ) / den := fract_ratio num pos
  have floor : ⌊x⌋ = num / den := Rat.floor_intCast_div_natCast num den
  obtain ⟨below, middle⟩ := half_ratio num pos
  cases mode with
  | rz =>
    dsimp only
    rw [floor, show ⌈x⌉ = _ from ceil_ratio num]
    rfl
  | rne =>
    dsimp only
    simp only [part, floor, below, middle]
    unfold roundInt
    simp only [Bool.or_eq_true, Bool.and_eq_true, decide_eq_true_eq]
  | sr =>
    dsimp only
    rw [part, floor, floor_draw num]
    rfl

/-- The rounded integer is the value exactly when nothing is left over. -/
theorem roundInt_exact (mode : Rnd) (u : Nat) : ((roundInt num den mode u : Int) : ℚ) = num / den ↔ num % den = 0 := by
  have dpos : (den : ℚ) ≠ 0 := Nat.cast_ne_zero.mpr (Nat.ne_of_gt pos)
  have dint : (den : Int) ≠ 0 := by exact_mod_cast Nat.ne_of_gt pos
  constructor
  · intro h
    rw [eq_div_iff dpos] at h
    have : roundInt num den mode u * den = num := by exact_mod_cast h
    rw [← this, Int.mul_emod_left]
  · intro h
    have whole : num = num / den * den := (Int.ediv_mul_cancel (Int.dvd_of_emod_eq_zero h)).symm
    have rounded : roundInt num den mode u = num / den := by
      unfold roundInt
      rw [h]
      cases mode with
      | rz =>
        dsimp only
        split
        · rw [Int.neg_ediv_of_dvd (Int.dvd_of_emod_eq_zero h), neg_neg]
        · rfl
      | rne => exact if_pos (by simp [pos])
      | sr => exact if_neg (by simp)
    rw [rounded, eq_div_iff dpos]
    exact_mod_cast whole.symm

end

end Sys2Proof.Machine
end

section
/-! Encoding for q4: one value, and a block with its scale (R64, R71, R72, R232). -/

namespace Sys2Proof.Machine

/-! ## One value (R64, R71) -/

/-- The magnitudes of a type rise. -/
theorem q4Mag_lt {type j : Nat} (ht : type < 4) (hj : j < q4Top type true) : q4Mag type j < q4Mag type (j + 1) := by
  by_cases zero : type = 0
  · subst zero
    show 16 * j < 16 * (j + 1)
    omega
  · have small : j < 7 := by
      have top : q4Top type true = 7 := if_neg (by simp [zero])
      omega
    revert small
    revert j
    interval_cases type
    · exact absurd rfl zero
    · decide
    · decide
    · decide

theorem q4Top_le (type : Nat) (neg : Bool) : q4Top type neg ≤ q4Top type true := by
  unfold q4Top
  cases neg
  · rw [Bool.and_false, if_neg Bool.false_ne_true]
    split <;> omega
  · exact le_rfl

theorem q4Mag_mono {type : Nat} (ht : type < 4) {neg : Bool} {i j : Nat} (le : i ≤ j) (hj : j ≤ q4Top type neg) :
    q4Mag type i ≤ q4Mag type j := by
  induction j, le using Nat.le_induction with
  | base => exact le_rfl
  | succ j _ ih =>
    have top := q4Top_le type neg
    exact (ih (by omega)).trans (q4Mag_lt ht (by omega)).le

/-- The number of the first numbers with a property that holds below a bound and not from it on. -/
theorem length_filter_range {n j : Nat} {p : Nat → Bool} (le : j ≤ n) (below : ∀ i < j, p i = true) (above : ∀ i < n, j ≤ i → p i = false) :
    ((List.range n).filter p).length = j := by
  obtain ⟨r, rfl⟩ := Nat.exists_eq_add_of_le le
  rw [List.range_add, List.filter_append, List.filter_eq_self.mpr fun i hi => below i (List.mem_range.mp hi),
    List.filter_eq_nil_iff.mpr fun i hi => ?_, List.append_nil, List.length_range]
  obtain ⟨x, hx, rfl⟩ := List.mem_map.mp hi
  rw [above _ (by have := List.mem_range.mp hx; omega) (Nat.le_add_right _ _)]
  exact Bool.false_ne_true

/-- The code of magnitude `i` with a sign. -/
def q4Code (type : Nat) (neg : Bool) (i : Nat) : Nat := if i = 0 then 0 else if neg then (if type = 0 then 16 - i else 8 + i) else i

/-- Sixteen times the quotient of a value and its scale, as a fraction. -/
def q4Num (m : Nat) (e : Int) (ex : Nat) : Nat := m * 2 ^ (e - (ex : Int) + 36).toNat
def q4Den (e : Int) (ex : Nat) : Nat := 2 ^ (-(e - (ex : Int) + 36)).toNat

theorem q4Den_pos (e : Int) (ex : Nat) : 0 < q4Den e ex := Nat.two_pow_pos _

theorem q4_ratio (m : Nat) (e : Int) (ex : Nat) : (q4Num m e ex : ℚ) / q4Den e ex = 16 * (m * 2 ^ e / 2 ^ ((ex : Int) - 32)) := by
  have power : (2 : ℚ) ^ (e - (ex : Int) + 36) = 16 * (2 ^ e / 2 ^ ((ex : Int) - 32)) := by
    rw [← zpow_sub₀ two_ne_zero, show (16 : ℚ) = 2 ^ (4 : Int) by norm_num, ← zpow_add₀ two_ne_zero]
    congr 1
    ring
  have ratio := signed_ratio false m (e - (ex : Int) + 36)
  rw [if_neg Bool.false_ne_true, one_mul, power] at ratio
  rw [q4Num, q4Den]
  push_cast at ratio ⊢
  rw [← ratio]
  ring

/-- How many magnitudes above the first a value reaches. -/
def q4Below (type m : Nat) (e : Int) (ex top : Nat) : Nat :=
  ((List.range top).filter fun j => decide (q4Mag type (j + 1) * q4Den e ex ≤ q4Num m e ex)).length

/-- The encoding of a finite value: clamped, exact, or rounded between neighbours (R71). -/
theorem encodeQ4_fin (type ex : Nat) (neg : Bool) (m u : Nat) (e : Int) (mode : Rnd) :
    encodeQ4 (.fin neg m e) type ex mode u =
      let num := q4Num m e ex
      let den := q4Den e ex
      let i := q4Below type m e ex (q4Top type neg)
      let lo := q4Mag type i * den
      if q4Mag type (q4Top type neg) * den < num then (q4Code type neg (q4Top type neg), Flag.saturated ||| Flag.inexact)
      else if lo = num then (q4Code type neg i, 0)
      else
        let up := match mode with
          | .rz => false
          | .rne => decide (q4Mag type (i + 1) * den - lo < 2 * (num - lo)) ||
              (decide (q4Mag type (i + 1) * den - lo = 2 * (num - lo)) && decide (i % 2 = 1))
          | .sr => decide (u < (num - lo) * 2 ^ 32 / (q4Mag type (i + 1) * den - lo))
        (q4Code type neg (if up then i + 1 else i), Flag.inexact) := rfl

section
variable (m : Nat) (e : Int) (ex M : Nat)

/-- A value against a magnitude. -/
theorem q4_compare : ((M : ℚ) / 16 < m * 2 ^ e / 2 ^ ((ex : Int) - 32) ↔ M * q4Den e ex < q4Num m e ex) ∧
    ((m : ℚ) * 2 ^ e / 2 ^ ((ex : Int) - 32) < M / 16 ↔ q4Num m e ex < M * q4Den e ex) := by
  have ratio := q4_ratio m e ex
  have dpos : (0 : ℚ) < q4Den e ex := Nat.cast_pos.mpr (q4Den_pos e ex)
  generalize (m : ℚ) * 2 ^ e / 2 ^ ((ex : Int) - 32) = y at ratio ⊢
  have value : y = (q4Num m e ex : ℚ) / q4Den e ex / 16 := by rw [ratio]; ring
  rw [value, div_lt_div_iff_of_pos_right (by norm_num), div_lt_div_iff_of_pos_right (by norm_num), lt_div_iff₀ dpos, div_lt_iff₀ dpos]
  exact ⟨by exact_mod_cast Iff.rfl, by exact_mod_cast Iff.rfl⟩

theorem q4_equal : (m : ℚ) * 2 ^ e / 2 ^ ((ex : Int) - 32) = M / 16 ↔ q4Num m e ex = M * q4Den e ex := by
  obtain ⟨above, below⟩ := q4_compare m e ex M
  rw [le_antisymm_iff, ← not_lt, ← not_lt, above, below]
  omega

end

section
variable {type ex : Nat} {neg : Bool} {m : Nat} {e : Int} (ht : type < 4)
include ht

/-- The magnitude that a value reaches, among those of its type. -/
theorem q4Below_eq {j : Nat} (hj : j ≤ q4Top type neg) (reach : q4Mag type j * q4Den e ex ≤ q4Num m e ex)
    (short : j < q4Top type neg → q4Num m e ex < q4Mag type (j + 1) * q4Den e ex) : q4Below type m e ex (q4Top type neg) = j := by
  refine length_filter_range hj (fun i hi => decide_eq_true ?_) fun i hi le => decide_eq_false (Nat.not_le.mpr ?_)
  · exact (Nat.mul_le_mul_right _ (q4Mag_mono ht hi hj)).trans reach
  · exact (short (by omega)).trans_le (Nat.mul_le_mul_right _ (q4Mag_mono ht (Nat.succ_le_succ le) hi))

theorem encodeQ4_exact {j : Nat} (hj : j ≤ q4Top type neg) (exact_ : q4Num m e ex = q4Mag type j * q4Den e ex) (mode : Rnd) (u : Nat) :
    encodeQ4 (.fin neg m e) type ex mode u = (q4Code type neg j, 0) := by
  have top := q4Top_le type neg
  have below : q4Below type m e ex (q4Top type neg) = j := q4Below_eq ht hj exact_.ge fun lt => by
    rw [exact_]
    exact Nat.mul_lt_mul_of_pos_right (q4Mag_lt ht (by omega)) (q4Den_pos e ex)
  have fits : ¬ q4Mag type (q4Top type neg) * q4Den e ex < q4Num m e ex := by
    rw [exact_]
    exact Nat.not_lt.mpr (Nat.mul_le_mul_right _ (q4Mag_mono ht hj le_rfl))
  rw [encodeQ4_fin]
  dsimp only
  rw [if_neg fits, below, if_pos exact_.symm]

/-- Between two neighbours the place of the value is rounded by the mode. -/
theorem encodeQ4_between {j : Nat} (hj : j < q4Top type neg) (above : q4Mag type j * q4Den e ex < q4Num m e ex)
    (short : q4Num m e ex < q4Mag type (j + 1) * q4Den e ex) (mode : Rnd) (u : Nat) :
    encodeQ4 (.fin neg m e) type ex mode u =
      (q4Code type neg (roundNat (j * (q4Mag type (j + 1) * q4Den e ex - q4Mag type j * q4Den e ex) + (q4Num m e ex - q4Mag type j * q4Den e ex))
        (q4Mag type (j + 1) * q4Den e ex - q4Mag type j * q4Den e ex) mode u), Flag.inexact) := by
  have below : q4Below type m e ex (q4Top type neg) = j := q4Below_eq ht (Nat.le_of_lt hj) above.le fun _ => short
  have fits : ¬ q4Mag type (q4Top type neg) * q4Den e ex < q4Num m e ex :=
    Nat.not_lt.mpr (short.le.trans (Nat.mul_le_mul_right _ (q4Mag_mono ht hj le_rfl)))
  rw [encodeQ4_fin]
  dsimp only
  rw [if_neg fits, below, if_neg above.ne]
  generalize q4Num m e ex = num at *
  generalize q4Mag type j * q4Den e ex = lo at *
  generalize q4Mag type (j + 1) * q4Den e ex = hi at *
  have whole : (j * (hi - lo) + (num - lo)) / (hi - lo) = j := by
    rw [Nat.add_comm, Nat.add_mul_div_right _ _ (by omega), Nat.div_eq_of_lt (by omega), Nat.zero_add]
  have rest : (j * (hi - lo) + (num - lo)) % (hi - lo) = num - lo := by
    rw [Nat.add_comm, Nat.add_mul_mod_self_right, Nat.mod_eq_of_lt (by omega)]
  unfold roundNat
  dsimp only
  rw [whole, rest]
  cases mode with
  | rz => rfl
  | rne =>
    refine congrArg (fun i => (q4Code type neg i, Flag.inexact)) ?_
    dsimp only
    simp only [Bool.or_eq_true, Bool.and_eq_true, decide_eq_true_eq]
    rcases Nat.lt_trichotomy (2 * (num - lo)) (hi - lo) with less | same | more
    · rw [if_neg (by omega), if_pos less]
    · rw [if_neg same.not_lt, if_neg same.not_gt]
      rcases Nat.mod_two_eq_zero_or_one j with even | odd
      · rw [if_pos even, if_neg (by omega)]
      · rw [if_pos (.inr ⟨same.symm, odd⟩), if_neg (by omega)]
    · rw [if_pos (.inl more), if_neg (by omega), if_pos more]
  | sr =>
    refine congrArg (fun i => (q4Code type neg i, Flag.inexact)) ?_
    dsimp only
    simp only [decide_eq_true_eq]

end

/-- How far a value lies into the interval of two neighbours. -/
theorem q4_part {num den a b : Nat} {y : ℚ} (hd : 0 < den) (value : (num : ℚ) / den = 16 * y) (low : a * den ≤ num) (apart : a < b) :
    (y - (a : ℚ) / 16) / ((b : ℚ) / 16 - (a : ℚ) / 16) = ((num - a * den : Nat) : ℚ) / ((b * den - a * den : Nat) : ℚ) := by
  have dpos : (den : ℚ) ≠ 0 := Nat.cast_ne_zero.mpr (Nat.ne_of_gt hd)
  have gap : (b : ℚ) - a ≠ 0 := sub_ne_zero.mpr (by exact_mod_cast apart.ne')
  have y_eq : y = num / den / 16 := by rw [value]; ring
  rw [Nat.cast_sub low, Nat.cast_sub (Nat.mul_le_mul_right _ apart.le), y_eq]
  push_cast
  field_simp

/-- A value between two neighbours (R71). -/
theorem encodeQ4_rounds {type ex j m : Nat} {neg : Bool} {e : Int} (ht : type < 4) (hj : j < q4Top type neg)
    (above : q4Mag type j * q4Den e ex < q4Num m e ex) (short : q4Num m e ex < q4Mag type (j + 1) * q4Den e ex) (mode : Rnd) (u : Nat) :
    let y : ℚ := m * 2 ^ e / 2 ^ ((ex : Int) - 32)
    let p := (y - (q4Mag type j : ℚ) / 16) / ((q4Mag type (j + 1) : ℚ) / 16 - (q4Mag type j : ℚ) / 16)
    encodeQ4 (.fin neg m e) type ex mode u = (q4Code type neg (match mode with
      | .rz => j
      | .rne => if p < 1 / 2 then j else if 1 / 2 < p then j + 1 else if j % 2 = 0 then j else j + 1
      | .sr => if (u : Int) < ⌊p * 2 ^ 32⌋ then j + 1 else j), Flag.inexact) := by
  intro y p
  have top := q4Top_le type neg
  have part : p = _ := q4_part (q4Den_pos e ex) (q4_ratio m e ex) above.le (q4Mag_lt ht (by omega : j < q4Top type true))
  rw [encodeQ4_between ht hj above short]
  refine congrArg (fun i => (q4Code type neg i, Flag.inexact)) ?_
  generalize q4Num m e ex = num at *
  generalize q4Mag type j * q4Den e ex = lo at *
  generalize q4Mag type (j + 1) * q4Den e ex = hi at *
  have whole : (j * (hi - lo) + (num - lo)) / (hi - lo) = j := by
    rw [Nat.add_comm, Nat.add_mul_div_right _ _ (by omega), Nat.div_eq_of_lt (by omega), Nat.zero_add]
  have rest : (j * (hi - lo) + (num - lo)) % (hi - lo) = num - lo := by
    rw [Nat.add_comm, Nat.add_mul_mod_self_right, Nat.mod_eq_of_lt (by omega)]
  obtain ⟨rz, rne, sr⟩ := roundNat_spec (j * (hi - lo) + (num - lo)) u (by omega : 0 < hi - lo)
  rw [whole, rest, ← part] at rne sr
  cases mode with
  | rz => exact rz.trans whole
  | rne => exact rne
  | sr => exact sr

end Sys2Proof.Machine
end

section
/-! A block for q4, its scale and its codes (R72, R232). -/

namespace Sys2Proof.Machine

/-! ## The scale (R72) -/

/-- The scale fits a value: its magnitude is at most the type's largest under it. -/
def FitsScale (type e : Nat) (v : FVal) : Prop :=
  match v with
  | .zero _ => True
  | .fin _ m x => (m : ℚ) * 2 ^ x ≤ (q4Mag type 7 : ℚ) / 16 * 2 ^ ((e : Int) - 32)
  | _ => False

theorem magLe_iff (type e : Nat) (v : FVal) : v.magLe (q4Mag type 7) e = true ↔ FitsScale type e v := by
  cases v with
  | nan => exact iff_of_false Bool.false_ne_true id
  | inf _ => exact iff_of_false Bool.false_ne_true id
  | zero _ => exact iff_of_true rfl trivial
  | fin neg m x =>
    have two : (0 : ℚ) < 2 ^ ((e : Int) - 32) := zpow_pos two_pos _
    have less := (q4_compare m x e (q4Mag type 7)).1
    show decide (q4Num m x e ≤ q4Mag type 7 * q4Den x e) = true ↔ (m : ℚ) * 2 ^ x ≤ (q4Mag type 7 : ℚ) / 16 * 2 ^ ((e : Int) - 32)
    rw [decide_eq_true_iff, ← Nat.not_lt, ← less, not_lt, div_le_iff₀ two]

def isZeroVal : FVal → Bool
  | .zero _ => true
  | _ => false

theorem isZeroVal_iff {v : FVal} : isZeroVal v = true ↔ ∃ n, v = .zero n := by
  cases v <;> simp [isZeroVal]

theorem chooseQ4Exp_eq (vs : List FVal) (type : Nat) : chooseQ4Exp vs type = if vs.any FVal.isNan then 63
    else if vs.all isZeroVal then 0
    else ((List.range 63).find? fun e => vs.all fun v => v.magLe (q4Mag type 7) e).getD 62 := rfl

section
variable {vs : List FVal} {type : Nat}

theorem any_isNan_iff : vs.any FVal.isNan = true ↔ .nan ∈ vs := by
  rw [List.any_eq_true]
  simp only [FVal.isNan_iff, exists_eq_right]

/-- A block with a NaN has the scale 63; another has the least that fits its values, or 62 (R72). -/
theorem chooseQ4Exp_nan (nan : .nan ∈ vs) : chooseQ4Exp vs type = 63 := by
  rw [chooseQ4Exp_eq, if_pos (any_isNan_iff.mpr nan)]

theorem chooseQ4Exp_spec (numbers : .nan ∉ vs) : chooseQ4Exp vs type < 63 ∧
    ((∀ v ∈ vs, ∃ n, v = .zero n) → chooseQ4Exp vs type = 0) ∧
    (∀ d < chooseQ4Exp vs type, ∃ v ∈ vs, ¬ FitsScale type d v) ∧
    (chooseQ4Exp vs type < 62 → ∀ v ∈ vs, FitsScale type (chooseQ4Exp vs type) v) := by
  have all_iff (e : Nat) : (vs.all fun v => v.magLe (q4Mag type 7) e) = true ↔ ∀ v ∈ vs, FitsScale type e v := by
    simp only [List.all_eq_true, magLe_iff]
  have zeros_iff : vs.all isZeroVal = true ↔ ∀ v ∈ vs, ∃ n, v = .zero n := by
    simp only [List.all_eq_true, isZeroVal_iff]
  rw [chooseQ4Exp_eq, if_neg fun h => numbers (any_isNan_iff.mp h)]
  by_cases zeros : vs.all isZeroVal = true
  · rw [if_pos zeros]
    refine ⟨by decide, fun _ => rfl, fun d hd => absurd hd (Nat.not_lt_zero d), fun _ v hv => ?_⟩
    obtain ⟨n, rfl⟩ := zeros_iff.mp zeros v hv
    trivial
  · rw [if_neg zeros]
    cases found : (List.range 63).find? fun e => vs.all fun v => v.magLe (q4Mag type 7) e with
    | none =>
      refine ⟨by decide, fun h => absurd (zeros_iff.mpr h) zeros, fun d hd => ?_, fun h => absurd h (by decide)⟩
      have fails := List.find?_eq_none.mp found d (List.mem_range.mpr (hd.trans (by decide)))
      rw [all_iff] at fails
      push Not at fails
      exact fails
    | some e =>
      obtain ⟨fits, before⟩ := List.find?_range_eq_some.mp found
      refine ⟨List.mem_range.mp before.1, fun h => absurd (zeros_iff.mpr h) zeros, fun d hd => ?_, fun _ => (all_iff e).mp fits⟩
      have fails := before.2 d hd
      rw [Bool.not_eq_true', ← Bool.not_eq_true, all_iff] at fails
      push Not at fails
      exact fails

end

/-! ## The block (R232) -/

section
variable {vs : List FVal} {us : List Nat} {type : Nat} {mode : Rnd}

theorem encodeBlock_nan (nan : .nan ∈ vs) : encodeBlock vs type mode us = (vs.map fun _ => 0, type * 64 + 63, 0) := by
  unfold encodeBlock
  rw [chooseQ4Exp_nan nan]
  rfl

/-- The encodings of the values of a block. -/
def blockCodes (vs : List FVal) (type e : Nat) (mode : Rnd) (us : List Nat) : List (Nat × BitVec 6) :=
  (vs.zip us).map fun p => encodeQ4 p.1 type e mode p.2

theorem encodeBlock_number (numbers : .nan ∉ vs) : encodeBlock vs type mode us =
    ((blockCodes vs type (chooseQ4Exp vs type) mode us).map (·.1), type * 64 + chooseQ4Exp vs type,
      (blockCodes vs type (chooseQ4Exp vs type) mode us).foldl (fun fl r => fl ||| r.2) 0) := by
  unfold encodeBlock
  exact if_neg (Nat.ne_of_lt (chooseQ4Exp_spec numbers).1)

theorem encodeBlock_length (same : vs.length = us.length) : (encodeBlock vs type mode us).1.length = vs.length := by
  by_cases nan : .nan ∈ vs
  · rw [encodeBlock_nan nan, List.length_map]
  · rw [encodeBlock_number nan, List.length_map, blockCodes, List.length_map, List.length_zip, ← same, Nat.min_self]

end

/-- A code is below 16. -/
theorem q4Code_lt {type : Nat} {neg : Bool} {i : Nat} (h : i ≤ q4Top type neg) : q4Code type neg i < 16 := by
  unfold q4Code
  split
  · decide
  · cases neg
    · rw [if_neg Bool.false_ne_true]
      unfold q4Top at h
      split at h <;> omega
    · rw [if_pos rfl]
      unfold q4Top at h
      split
      · omega
      · rename_i other
        rw [if_neg (by simp [other])] at h
        omega

theorem q4Below_le (type m : Nat) (e : Int) (ex top : Nat) : q4Below type m e ex top ≤ top :=
  (List.length_filter_le _ _).trans (List.length_range).le

/-- A value that reaches every magnitude below the top reaches the top. -/
theorem q4Below_top {type m : Nat} {e : Int} {ex top : Nat} (pos : 0 < top) (all : q4Below type m e ex top = top) :
    q4Mag type top * q4Den e ex ≤ q4Num m e ex := by
  have every := List.length_filter_eq_length_iff.mp (all.trans List.length_range.symm)
  have last := of_decide_eq_true (every (top - 1) (List.mem_range.mpr (by omega)))
  rwa [Nat.sub_add_cancel pos] at last

theorem encodeQ4_lt (v : FVal) (type ex : Nat) (mode : Rnd) (u : Nat) : (encodeQ4 v type ex mode u).1 < 16 := by
  cases v with
  | nan => exact Nat.two_pow_pos 4
  | zero _ => exact Nat.two_pow_pos 4
  | inf neg => exact q4Code_lt le_rfl
  | fin neg m e =>
    have pos : 0 < q4Top type neg := by unfold q4Top; split <;> decide
    rw [encodeQ4_fin]
    dsimp only
    split
    · exact q4Code_lt le_rfl
    · split
      · exact q4Code_lt (q4Below_le _ _ _ _ _)
      · rename_i fits apart
        have below := q4Below_le type m e ex (q4Top type neg)
        have inside : q4Below type m e ex (q4Top type neg) ≠ q4Top type neg := fun all => by
          have reach := q4Below_top pos all
          rw [all] at apart
          omega
        have next (up : Bool) : (if up then q4Below type m e ex (q4Top type neg) + 1 else q4Below type m e ex (q4Top type neg)) ≤
            q4Top type neg := by
          split <;> omega
        exact q4Code_lt (next _)

theorem encodeBlock_lt (vs : List FVal) (type : Nat) (mode : Rnd) (us : List Nat) : ∀ c ∈ (encodeBlock vs type mode us).1, c < 16 := by
  intro c hc
  by_cases nan : .nan ∈ vs
  · rw [encodeBlock_nan nan] at hc
    obtain ⟨_, -, rfl⟩ := List.mem_map.mp hc
    decide
  · rw [encodeBlock_number nan, blockCodes, List.map_map] at hc
    obtain ⟨p, -, rfl⟩ := List.mem_map.mp hc
    exact encodeQ4_lt _ _ _ _ _

end Sys2Proof.Machine
end

section
/-! The q4 register and the conversions settled (R229 to R232). -/

namespace Sys2Proof.Machine

/-! ## The register of 32 blocks (R232) -/

/-- Block `b` of a register as it is encoded, with its draws. -/
def State.q4Block (s : State) (a : BitVec 5) (m t : BitVec 2) (b : Nat) : List Nat × Nat × BitVec 6 :=
  encodeBlock ((List.range 32).map fun i => f32.decode (((s.regs.rv a).toList.getD (32 * b + i) 0).toNat)) t.toNat (Rnd.of m)
    ((List.range 32).map fun i => (s.roundingDraws m 1024).1.getD (32 * b + i) 0)

/-- The bytes of the register: codes, then scales. -/
def State.q4Bytes (s : State) (a : BitVec 5) (m t : BitVec 2) : List Byte :=
  codeBytes ((List.range 32).flatMap fun b => (s.q4Block a m t b).1) ++
    (List.range 32).map fun b => BitVec.ofNat 8 (s.q4Block a m t b).2.1

section
variable (s : State) (g : BitVec 4) (d a : BitVec 5) (m t : BitVec 2)

theorem vcvtQ4F32_gives : exec (.vcvtQ4F32 g d a m t) s = .next (s.guarded g ((s.roundingDraws m 1024).2.inFlight 3
    (.v d (BitVec.allOnes 1024) (lanesOf (s.q4Bytes a m t))) ((List.range 32).foldl (fun fl b => fl ||| (s.q4Block a m t b).2.2) 0))) := by
  have blocks (f : Nat → List Nat × Nat × BitVec 6) : ((List.range 32).map f).flatMap (·.1) = (List.range 32).flatMap fun b => (f b).1 := by
    rw [List.flatMap_map]
  show execVcvtQ4F32 g d a m t s = _
  unfold execVcvtQ4F32
  rw [State.slot_none]
  dsimp only
  rw [State.takeDraws_of, blocks, List.map_map, List.foldl_map]
  simp only [Array.getD_eq_getD_getElem?, List.getElem?_toArray, ← List.getD_eq_getElem?_getD, lane_eq_getD]
  rfl

theorem State.q4Block_length (b : Nat) : (s.q4Block a m t b).1.length = 32 := by
  unfold State.q4Block
  rw [encodeBlock_length (by rw [List.length_map, List.length_map]), List.length_map, List.length_range]

theorem State.q4Codes_length : (codeBytes ((List.range 32).flatMap fun b => (s.q4Block a m t b).1)).length = 512 := by
  have total : ((List.range 32).flatMap fun b => (s.q4Block a m t b).1).length = 1024 := by
    rw [List.length_flatMap]
    simp only [State.q4Block_length]
    rfl
  rw [codeBytes_length, total]

theorem State.q4Bytes_length : (s.q4Bytes a m t).length = 544 := by
  unfold State.q4Bytes
  rw [List.length_append, State.q4Codes_length, List.length_map, List.length_range]

/-- Code `i` of block `b` stands in its half of a byte. -/
theorem State.q4Bytes_code {b i : Nat} (hb : b < 32) (hi : i < 32) :
    byteOf (lanesOf (s.q4Bytes a m t)) (16 * b + i / 2) / 16 ^ (i % 2) % 16 = (s.q4Block a m t b).1.getD i 0 % 16 := by
  have small : ∀ c ∈ (List.range 32).flatMap fun b => (s.q4Block a m t b).1, c < 16 := by
    intro c hc
    obtain ⟨b, -, hc⟩ := List.mem_flatMap.mp hc
    exact encodeBlock_lt _ _ _ _ c hc
  have nibble := codeBytes_nibble small (32 * b + i)
  have half : (32 * b + i) / 2 = 16 * b + i / 2 := by omega
  have parity : (32 * b + i) % 2 = i % 2 := by omega
  have code : ((List.range 32).flatMap fun b => (s.q4Block a m t b).1).getD (32 * b + i) 0 = (s.q4Block a m t b).1.getD i 0 := by
    rw [List.getD_eq_getElem?_getD, List.getD_eq_getElem?_getD, getElem?_flatMap_range (s.q4Block_length a m t) hb hi]
  have low : (s.q4Block a m t b).1.getD i 0 < 16 := by
    rw [List.getD_eq_getElem _ _ (by rw [State.q4Block_length]; exact hi)]
    exact encodeBlock_lt _ _ _ _ _ (List.getElem_mem _)
  rw [half, parity, code] at nibble
  rw [byteOf_lanesOf _ (by omega), State.q4Bytes, List.getD_append _ _ _ _ (by rw [State.q4Codes_length]; omega), nibble,
    Nat.mod_eq_of_lt low]

theorem State.q4Bytes_scale {b : Nat} (hb : b < 32) :
    byteOf (lanesOf (s.q4Bytes a m t)) (512 + b) = (s.q4Block a m t b).2.1 % 256 := by
  rw [byteOf_lanesOf _ (by omega), State.q4Bytes, List.getD_append_right _ _ _ _ (by rw [State.q4Codes_length]; omega),
    State.q4Codes_length, Nat.add_sub_cancel_left, List.getD_eq_getElem _ _ (by simpa using hb), List.getElem_map, List.getElem_range,
    BitVec.toNat_ofNat]

theorem State.q4Bytes_above {i : Nat} (low : 544 ≤ i) (high : i < 4096) : byteOf (lanesOf (s.q4Bytes a m t)) i = 0 := by
  rw [byteOf_lanesOf _ high, List.getD_eq_default _ _ (by rw [State.q4Bytes_length]; exact low)]
  rfl

end

theorem vcvtF32Q4_gives (s : State) (g : BitVec 4) (d a : BitVec 5) (k : BitVec 3) : VectorResult s s g 3 d k (fun l =>
    let code := byteOf (s.regs.rv a) (l / 2) / 16 ^ (l.val % 2) % 16
    (BitVec.ofNat 32 (f32.pack (decodeQ4 code (byteOf (s.regs.rv a) (512 + l / 32))) .rne 0).1, 0)) (exec (.vcvtF32Q4 g d a k) s) :=
  s.slot_vput_vectorResult g 3 d k fun t l =>
    (BitVec.ofNat 32 (f32.pack (decodeQ4 (byteOf (t.regs.rv a) (l / 2) / 16 ^ (l % 2) % 16) (byteOf (t.regs.rv a) (512 + l / 32))) .rne 0).1, 0)

/-! ## The statement -/

theorem q4Code_eq (type : Nat) (neg : Bool) (j : Nat) :
    q4Code type neg j = if j = 0 ∨ neg = false then j else if type = 0 then 16 - j else 8 + j := by
  unfold q4Code
  by_cases zero : j = 0
  · rw [if_pos zero, if_pos (.inl zero), zero]
  · cases neg
    · rw [if_neg zero, if_neg Bool.false_ne_true, if_pos (.inr rfl)]
    · rw [if_neg zero, if_pos rfl]
      exact (if_neg (not_or.mpr ⟨zero, by decide⟩)).symm

theorem q4Top_eq (type : Nat) (neg : Bool) : q4Top type neg = if type = 0 ∧ neg = true then 8 else 7 := by
  unfold q4Top
  simp only [Bool.and_eq_true, decide_eq_true_eq]

/-! ## In place and narrowing (R230, R231) -/

section
variable (s : State) (g : BitVec 4) (d a : BitVec 5) (m : BitVec 2) (k : BitVec 3)

/-- A lane converted in place. -/
theorem State.slotCvt_one (f : Nat → Nat → Nat × BitVec 6) : VectorResult s (s.roundingDraws m 1024).2 g 3 d k (fun j =>
    let y := f ((s.regs.rv (a + BitVec.ofNat 5 0))[j]).toNat ((s.roundingDraws m 1024).1.getD j 0)
    (BitVec.ofNat 32 y.1, y.2)) (s.slotCvt g d a m k f) := by
  rw [BitVec.add_zero]
  exact s.slotCvt_vectorResult g d a m k f

theorem State.slotNarrow_pair (f : Nat → Nat → Nat × BitVec 6) : VectorResult s (s.roundingDraws m 2048).2 g 3 d k (fun j =>
    let y (i : Nat) := f ((s.regs.rv (a + BitVec.ofNat 5 i))[j]).toNat ((s.roundingDraws m 2048).1.getD (2 * j + i) 0)
    (BitVec.ofNat 32 ((y 0).1 % 2 ^ 16 + 2 ^ 16 * ((y 1).1 % 2 ^ 16)), (y 0).2 ||| (y 1).2)) (s.slotNarrow g d a m k 16 f) := by
  have result := s.slotNarrow_two g d a m k f
  simp only [State.narrowed_eq] at result
  exact result

theorem State.slotNarrow_quad (f : Nat → Nat → Nat × BitVec 6) : VectorResult s (s.roundingDraws m 4096).2 g 3 d k (fun j =>
    let y (i : Nat) := f ((s.regs.rv (a + BitVec.ofNat 5 i))[j]).toNat ((s.roundingDraws m 4096).1.getD (4 * j + i) 0)
    (BitVec.ofNat 32 ((y 0).1 % 256 + 2 ^ 8 * ((y 1).1 % 256) + 2 ^ 16 * ((y 2).1 % 256) + 2 ^ 24 * ((y 3).1 % 256)),
      (y 0).2 ||| (y 1).2 ||| (y 2).2 ||| (y 3).2)) (s.slotNarrow g d a m k 8 f) := by
  have result := s.slotNarrow_four g d a m k f
  unfold quarters at result
  simp only [State.narrowed_eq] at result
  exact result

end

end Sys2Proof.Machine
end

section
/-! Conversions settled: what each part of the statement says of its format (R229 to R232). -/

namespace Sys2Proof.Machine

/-! ## Integers (R70) -/

/-- The rounded integer of a signed magnitude (R230). -/
theorem roundInt_signed (neg : Bool) {m : Nat} (hm : 0 < m) (e : Int) (mode : Rnd) (u : Nat) :
    let x : ℚ := (if neg then -1 else 1) * m * 2 ^ e
    let p := x - ⌊x⌋
    let y := roundInt ((if neg then -(m : Int) else m) * 2 ^ e.toNat) (2 ^ (-e).toNat) mode u
    y = (match mode with
      | .rz => if neg then ⌈x⌉ else ⌊x⌋
      | .rne => if p < 1 / 2 ∨ (p = 1 / 2 ∧ ⌊x⌋ % 2 = 0) then ⌊x⌋ else ⌊x⌋ + 1
      | .sr => if (u : Int) < ⌊p * 2 ^ 32⌋ then ⌊x⌋ + 1 else ⌊x⌋) ∧
    ((y : ℚ) = x ↔ (if neg then -(m : Int) else m) * 2 ^ e.toNat % 2 ^ (-e).toNat = 0) := by
  intro x p y
  have cast : (2 : Int) ^ (-e).toNat = ((2 ^ (-e).toNat : Nat) : Int) := by push_cast; rfl
  have value : x = _ := signed_ratio neg m e
  have sign : (if neg then -(m : Int) else m) * 2 ^ e.toNat < 0 ↔ neg = true := by
    have two : (0 : Int) < 2 ^ e.toNat := Int.pow_pos (by decide)
    cases neg
    · exact iff_of_false (not_lt.mpr (mul_nonneg (Int.natCast_nonneg m) two.le)) Bool.false_ne_true
    · exact iff_of_true (mul_neg_of_neg_of_pos (by simpa using hm) two) rfl
  have rounded := roundInt_spec ((if neg then -(m : Int) else m) * 2 ^ e.toNat) (Nat.two_pow_pos (-e).toNat) mode u
  have whole := roundInt_exact ((if neg then -(m : Int) else m) * 2 ^ e.toNat) (Nat.two_pow_pos (-e).toNat) mode u
  rw [← cast, ← value] at whole rounded
  simp only [sign] at rounded
  exact ⟨rounded, whole⟩

/-- An infinity becomes the greatest or the least integer (R70). -/
theorem cvtInt_inf (w : Nat) (signed neg : Bool) (mode : Rnd) (u : Nat) : cvtInt (.inf neg) w signed mode u =
    ((BitVec.ofInt w (if neg then (if signed then -2 ^ (w - 1) else 0) else if signed then 2 ^ (w - 1) - 1 else 2 ^ w - 1)).toNat,
      Flag.saturated) := by
  rw [BitVec.toNat_ofInt, Nat.cast_pow]
  cases signed <;> rfl

/-! ## Values for q4 (R71) -/

section
variable {type ex : Nat} {neg : Bool} {m u : Nat} {e : Int} {mode : Rnd}

theorem encodeQ4_clamps (large : q4Mag type (q4Top type neg) * q4Den e ex < q4Num m e ex) :
    encodeQ4 (.fin neg m e) type ex mode u = (q4Code type neg (q4Top type neg), Flag.saturated ||| Flag.inexact) := by
  rw [encodeQ4_fin]
  exact if_pos large

end

/-! ## Blocks (R72) -/

section
variable {vs : List FVal} {us : List Nat} {type : Nat} {mode : Rnd}

theorem encodeBlock_replicate (nan : .nan ∈ vs) :
    encodeBlock vs type mode us = (List.replicate vs.length 0, 64 * type + 63, 0) := by
  rw [encodeBlock_nan nan, List.map_const', Nat.mul_comm]

end

/-! ## The statement -/

theorem vectorConversions_integers (w : Nat) (signed neg : Bool) (m u : Nat) (e : Int) (mode : Rnd) (hm : 0 < m) :
    let x : ℚ := (if neg then -1 else 1) * m * 2 ^ e
    let i := ⌊x⌋
    let p := x - i
    let y : Int := match mode with
      | .rz => if neg then ⌈x⌉ else i
      | .rne => if p < 1 / 2 ∨ (p = 1 / 2 ∧ i % 2 = 0) then i else i + 1
      | .sr => if (u : Int) < ⌊p * 2 ^ 32⌋ then i + 1 else i
    let lo : Int := if signed then -2 ^ (w - 1) else 0
    let hi : Int := if signed then 2 ^ (w - 1) - 1 else 2 ^ w - 1
    let bits (z : Int) : Nat := (BitVec.ofInt w z).toNat
    let inexact : BitVec 6 := if (y : ℚ) = x then 0 else Flag.inexact
    cvtInt (.fin neg m e) w signed mode u =
      (if y < lo then (bits lo, Flag.saturated ||| inexact) else if hi < y then (bits hi, Flag.saturated ||| inexact)
       else (bits y, inexact)) := by
  intro x i p y lo hi bits inexact
  obtain ⟨rounded, whole⟩ := roundInt_signed neg hm e mode u
  have flag : Flag.when (decide ((if neg then -(m : Int) else m) * 2 ^ e.toNat % 2 ^ (-e).toNat ≠ 0)) Flag.inexact = inexact := by
    rw [rounded] at whole
    rw [decide_not, ← decide_eq_decide.mpr whole]
    show Flag.when (!decide ((y : ℚ) = x)) Flag.inexact = if (y : ℚ) = x then 0 else Flag.inexact
    by_cases exact_ : (y : ℚ) = x
    · rw [if_pos exact_, decide_eq_true exact_]
      rfl
    · rw [if_neg exact_, decide_eq_false exact_]
      rfl
  rw [cvtInt_fin, flag, rounded]
  change ((clampInt w signed y).1, (clampInt w signed y).2 ||| inexact) = _
  rw [clampInt_bits]
  change ((if y < lo then (bits lo, Flag.saturated) else if hi < y then (bits hi, Flag.saturated) else (bits y, 0)).1,
    (if y < lo then (bits lo, Flag.saturated) else if hi < y then (bits hi, Flag.saturated) else (bits y, 0)).2 ||| inexact) = _
  split
  · rfl
  · split
    · rfl
    · exact Prod.ext rfl BitVec.zero_or

/-- Settles O17: the slots by their draws, each format by its codes, integers by `roundInt_spec`, and q4 by its magnitudes. -/
theorem vectorConversions : Obligations.VectorConversions := by
  unfold Obligations.VectorConversions
  refine ⟨?narrow, ?wide, ?formats, ?integers, ?values, ?blocks⟩
  case narrow =>
    intro s g d a m n k dr x one two four md
    exact ⟨s.slotCvt_one g d a m k fun v u => f32.pack (.ofZ (toSigned 32 v)) (Rnd.of m) u,
      s.slotCvt_one g d a m k fun v u => f32.pack (.ofZ v) (Rnd.of m) u,
      s.slotCvt_one g d a m k fun v u => cvtInt (f32.decode v) 32 true (Rnd.of m) u,
      s.slotCvt_one g d a m k fun v u => cvtInt (f32.decode v) 32 false (Rnd.of m) u,
      s.slotNarrow_pair g d a m k fun v u => bf16.pack (f32.decode v) (Rnd.of m) u,
      s.slotNarrow_pair g d a m k fun v u => f16.pack (f32.decode v) (Rnd.of m) u,
      s.slotNarrow_quad g d a m k fun v u => e4m3.pack8 (f32.decode v) (Rnd.of m) (n == 1) u,
      s.slotNarrow_quad g d a m k fun v u => e5m2.pack8 (f32.decode v) (Rnd.of m) (n == 1) u⟩
  case wide =>
    intro s g d a f m t k fmt w x part
    have parts {w' : Nat} (h : w = w') : part = s.widened d a k (widenFmt f) w' := by subst h; rfl
    refine ⟨fun wide => ?_, fun narrow => ?_, ?_, vcvtF32Q4_gives s g d a k⟩
    · rw [parts wide]
      exact vcvtF32Widen_gives s g d a f k ((narrow_field f).trans wide)
    · rw [parts narrow]
      exact vcvtF32Widen_gives s g d a f k ((narrow_field f).trans narrow)
    · refine ⟨_, _, vcvtQ4F32_gives s g d a m t, ⟨fun b hb => ⟨fun i hi => s.q4Bytes_code a m t hb hi, s.q4Bytes_scale a m t hb⟩,
        fun i _ => ?_⟩, fun i low high => s.q4Bytes_above a m t low high⟩
      rw [getLsbD_foldl_all]
      simp only [List.mem_range]
      rfl
  case formats =>
    intro neg nv m u e mode hm code small
    refine ⟨fun f hf => ?_, fun f _ => ⟨Fmt.pack8_small, Fmt.pack8_overflow, rfl, Fmt.pack8_inf, ?_⟩⟩
    · have inf : f.inf = some (f.maxMag + 1) := by
        rcases List.mem_cons.mp hf with rfl | hf
        · rfl
        · fin_cases hf <;> rfl
      exact ⟨Fmt.pack_small, Fmt.pack_overflow inf, rfl, Fmt.pack_inf inf, congrArg (·, 0) (f.signed_eq neg 0)⟩
    · exact congrArg (·, 0) (f.signed_eq neg 0)
  case integers =>
    intro w signed neg m u e mode _ hm x i p y lo hi bits inexact
    exact ⟨vectorConversions_integers w signed neg m u e mode hm, rfl, rfl, cvtInt_inf w signed neg mode u⟩
  case values =>
    intro type ex neg m u e mode ht _ hm top mag y code r
    have top_eq : q4Top type neg = top := q4Top_eq type neg
    have code_eq (j : Nat) : q4Code type neg j = code j := q4Code_eq type neg j
    rw [← top_eq]
    refine ⟨fun large => ?_, fun j hj same => ?_, fun j hj above short => ?_⟩
    · rw [← code_eq]
      exact encodeQ4_clamps ((q4_compare m e ex _).1.mp large)
    · rw [← code_eq]
      exact encodeQ4_exact ht hj ((q4_equal m e ex _).mp same) mode u
    · intro p
      rw [← code_eq]
      exact encodeQ4_rounds ht hj ((q4_compare m e ex _).1.mp above) ((q4_compare m e ex _).2.mp short) mode u
  case blocks =>
    intro vs us type mode ht hvs hus r fits
    refine ⟨fun nan => hvs ▸ encodeBlock_replicate nan, fun numbers => ?_⟩
    obtain ⟨below, zeros, least, fitting⟩ := chooseQ4Exp_spec (type := type) numbers
    have fits_iff (e : Nat) (v : FVal) : FitsScale type e v ↔ fits e v := by cases v <;> exact Iff.rfl
    have block : r = _ := encodeBlock_number numbers
    refine ⟨chooseQ4Exp vs type, below, ?_, zeros, fun d hd => ?_, fun small v hv => (fits_iff _ v).mp (fitting small v hv), ?_⟩
    · rw [block, Nat.mul_comm]
    · obtain ⟨v, hv, not⟩ := least d hd
      exact ⟨v, hv, fun h => not ((fits_iff d v).mpr h)⟩
    · rw [block]
      refine ⟨rfl, fun i _ => ?_⟩
      rw [getLsbD_foldl_flags, List.any_eq_true]
      rfl

end Sys2Proof.Machine
end

section
/-! Direct matrix commands: their completion and their checks (R250, R251). -/

namespace Sys2Proof.Machine

/-! ## Completion (R139, R250) -/

/-- A begun direct command is due to complete. -/
theorem State.completable_matrix {s : State} {c : MCmd} (here : s.eng.matrix.toList.flatten.find? (fun d => decide (d.num = c.num)) = some c)
    (begun : c.started = true) : c.num ∈ s.completable 8 :=
  List.mem_append_left _ (List.mem_map.2 ⟨c, List.mem_filter.2 ⟨List.mem_of_find?_eq_some here, begun⟩, rfl⟩)

theorem State.finish_matrix {s : State} {c : MCmd}
    (here : s.eng.matrix.toList.flatten.find? (fun d => decide (d.num = c.num)) = some c) : s.finish 8 c.num = s.finishM c := by
  show (match s.eng.matrix.toList.flatten.find? fun d => decide (d.num = c.num) with
    | some c => s.finishM c
    | none => _) = _
  rw [here]

/-- The completion of a begun direct command. -/
theorem matrixComplete_finishes {s : State} {c : MCmd} (run : s.halted = false)
    (here : s.eng.matrix.toList.flatten.find? (fun d => decide (d.num = c.num)) = some c) (begun : c.started = true) :
    exec .commandComplete { s with arg := .two 8 c.num } = .next (({ s with arg := .two 8 c.num } : State).finishM c) :=
  (commandComplete_finishes run (State.completable_matrix here begun)).trans (congrArg _ (State.finish_matrix here))

theorem State.finishM_done {s : State} {c : MCmd} (ok : s.matrixOk c.op c.shape = true) :
    s.finishM c = ((s.doMatrix c).dropMatrix c.num).complete 8 c.num c.pol 0x00 := if_pos ok

theorem State.finishM_refused {s : State} {c : MCmd} (bad : s.matrixOk c.op c.shape = false) (last : ¬ (c.pol = 1 ∧ c.tries < 3)) :
    s.finishM c = (s.dropMatrix c.num).complete 8 c.num c.pol 0x16 := by
  unfold State.finishM
  rw [if_neg (Bool.eq_false_iff.1 bad), if_neg last]

/-! ## Checks (R250, R253) -/

theorem mfInt_iff (mf : BitVec 3) : mfInt mf = true ↔ mf = 4 ∨ mf = 5 := by
  simp only [mfInt, Bool.or_eq_true, decide_eq_true_eq]

theorem family_eq (mf : BitVec 3) : family mf = if mf = 4 ∨ mf = 5 then .int else .float := if_congr (mfInt_iff mf) rfl rfl

theorem mfFmt_eq (mf : BitVec 3) (known : mf ≠ 7) : mfFmt mf = [0x3, 0x4, 0x7, 0x8, 0x9, 0xA, 0xB].getD mf.toNat 0 := by
  revert known mf
  decide

theorem State.streamOk_iff (s : State) (e : Nat) (mf : BitVec 3) (z : Bool) : s.streamOk e mf z false = true ↔
    vget s.tiles.activeFmt e none = some mf ∧
      (z = true ∨ vget s.tiles.mode e .none = .none ∨ vget s.tiles.mode e .none = family mf) := by
  simp only [streamOk, Bool.false_or, Bool.and_eq_true, Bool.or_eq_true, decide_eq_true_eq, or_assoc]

theorem drainShapeOk_iff (pair tr : Bool) (x : BitVec 24) : drainShapeOk pair tr x = true ↔
    if tr then shRows x ≤ 128 ∧ shElems x ≤ 256 else shElems x ≤ if pair then 256 else 128 := by
  unfold drainShapeOk
  split <;> simp only [Bool.and_eq_true, decide_eq_true_eq]

section
variable (s : State) (sh : BitVec 24) (pair z : Bool) (y x : BitVec 4) (mem : Option Nat) (mf : BitVec 3)

theorem State.loadOk_iff : s.matrixOk (.load pair y x mem mf) sh = true ↔
    shFmt sh = mfFmt mf ∧ shRows sh ≤ if pair then 256 else 128 := by
  simp only [matrixOk, Bool.and_eq_true, decide_eq_true_eq]

theorem State.streamOp_ok_iff : s.matrixOk (.stream pair y x mem mf z) sh = true ↔ shFmt sh = mfFmt mf ∧
    s.streamOk y.toNat mf z false = true ∧ (pair = true → s.streamOk (y.toNat + 1) mf z false = true) := by
  simp only [matrixOk, Bool.and_eq_true, decide_eq_true_eq, Bool.or_eq_true, Bool.not_eq_true', and_assoc, ← Bool.not_eq_true,
    Decidable.imp_iff_not_or]

end

/-- R250, R253: what each check asks. -/
theorem State.matrixOk_iff (s : State) (sh : BitVec 24) (pair tr z : Bool) (y x : BitVec 4) (mem : Option Nat) (mf : BitVec 3)
    (ctl : BitVec 9) (blk : Nat) (known : mf ≠ 7) :
    let fits : Prop := shFmt sh = [0x3, 0x4, 0x7, 0x8, 0x9, 0xA, 0xB].getD mf.toNat 0
    let takes (e : Nat) : Prop := vget s.tiles.activeFmt e none = some mf ∧ (z = true ∨ vget s.tiles.mode e .none = .none ∨
      vget s.tiles.mode e .none = if mf = 4 ∨ mf = 5 then .int else .float)
    let cols := if shFmt sh = 0xB then 2 * shCols sh else shCols sh
    (s.matrixOk (.load pair y x mem mf) sh = true ↔ fits ∧ shRows sh ≤ if pair then 256 else 128) ∧
    s.matrixOk (.activate pair y) sh = true ∧ s.matrixOk (.zero pair y) sh = true ∧
    (s.matrixOk (.stream pair y x mem mf z) sh = true ↔ fits ∧ takes y.toNat ∧ (pair = true → takes (y.toNat + 1))) ∧
    (s.matrixOk (.drain pair tr y x mem ctl blk) sh = true ↔
      if tr then shRows sh ≤ 128 ∧ cols ≤ 256 else cols ≤ if pair then 256 else 128) := by
  intro fits takes cols
  refine ⟨?_, rfl, rfl, ?_, drainShapeOk_iff pair tr sh⟩
  · rw [s.loadOk_iff, mfFmt_eq mf known]
  · rw [s.streamOp_ok_iff, s.streamOk_iff, s.streamOk_iff, mfFmt_eq mf known, family_eq]

end Sys2Proof.Machine
end

section
/-! Operand rows of the matrix engines, weight loads and activation (R241, R246, R248). -/

namespace Sys2Proof.Machine

/-! ## Cells listed in rising order -/

/-- A key that no cell has reads zero. -/
theorem cellGet_absent {w : Nat} {k : Nat} : ∀ {l : List (Nat × BitVec w)}, (∀ c ∈ l, c.1 ≠ k) → cellGet l k = 0
  | [], _ => rfl
  | (b, x) :: r, h => by
    rw [cellGet, if_neg (h (b, x) List.mem_cons_self).symm, cellGet_absent fun c hc => h c (List.mem_cons_of_mem _ hc)]
    split <;> rfl

/-- A listed cell of a rising list is what its key reads, zero contents included. -/
theorem cellGet_listed {w : Nat} {c : Nat × BitVec w} : ∀ {l : List (Nat × BitVec w)}, l.Pairwise (·.1 < ·.1) → c ∈ l →
    cellGet l c.1 = c.2
  | [], _, h => absurd h List.not_mem_nil
  | (b, x) :: r, rise, h => by
    obtain ⟨first, rest⟩ := List.pairwise_cons.1 rise
    rcases List.mem_cons.1 h with rfl | h
    · exact if_pos rfl
    · have above : b < c.1 := first c h
      rw [cellGet, if_neg (by omega), if_neg (by omega), cellGet_listed rest h]

/-- When every cell of a key has one value, and some cell or the store has it, the key reads that value. -/
theorem cellGet_putCells_const {w : Nat} {k : Nat} {v : BitVec w} : ∀ {cs l : List (Nat × BitVec w)}, cellsWf l = true →
    (∀ c ∈ cs, c.1 = k → c.2 = v) → (cellGet l k = v ∨ ∃ c ∈ cs, c.1 = k) → cellGet (putCells l cs) k = v
  | [], _, _, _, h => h.resolve_right fun ⟨_, hc, _⟩ => absurd hc List.not_mem_nil
  | c :: r, l, wf, one, h => by
    refine cellGet_putCells_const (cs := r) (l := cellPut l c.1 c.2) (cellsWf_put wf)
      (fun d hd => one d (List.mem_cons_of_mem _ hd)) ?_
    rw [cellGet_put wf]
    by_cases here : k = c.1
    · exact .inl ((if_pos here).trans (one c List.mem_cons_self here.symm))
    · rw [if_neg here]
      refine h.imp_right fun ⟨d, hd, same⟩ => ⟨d, (List.mem_cons.1 hd).resolve_left fun e => here (e ▸ same.symm), same⟩

/-- A key reads what stood there, or the one value that cells give it. -/
theorem cellGet_putCells_if {w : Nat} {k : Nat} {v : BitVec w} {p : Prop} [Decidable p] {cs l : List (Nat × BitVec w)}
    (wf : cellsWf l = true) (named : (∃ c ∈ cs, c.1 = k) ↔ p) (one : ∀ c ∈ cs, c.1 = k → c.2 = v) :
    cellGet (putCells l cs) k = if p then v else cellGet l k := by
  split
  next h => exact cellGet_putCells_const wf one (.inr (named.2 h))
  next h => exact cellGet_putCells_other wf fun c hc same => h (named.1 ⟨c, hc, same⟩)

/-! ## Operand rows (R239, R243, R248) -/

theorem engineRow_eq (x : BitVec 24) (row : List Byte) : engineRow x row = row.zipIdx.map fun p => (rowOffset x p.2, p.1) := rfl

theorem rowOffset_strictMono (x : BitVec 24) : StrictMono (rowOffset x) := fun i j h => by
  have cols := shCols_le x
  unfold rowOffset
  split <;> split <;> omega

theorem mem_engineRow {x : BitVec 24} {row : List Byte} {c : Nat × Byte} : c ∈ engineRow x row ↔
    ∃ i < row.length, c = (rowOffset x i, row.getD i 0) := by
  rw [engineRow_eq, List.mem_map]
  constructor
  · rintro ⟨⟨b, i⟩, h, rfl⟩
    obtain ⟨hi, here⟩ := List.mem_zipIdx' h
    exact ⟨i, hi, by rw [List.getD_eq_getElem _ _ hi, here]⟩
  · rintro ⟨i, hi, rfl⟩
    exact ⟨(row[i], i), List.mem_iff_getElem.2 ⟨i, by simpa using hi, by simp⟩, by rw [List.getD_eq_getElem _ _ hi]⟩

theorem engineRow_rises (x : BitVec 24) (row : List Byte) : (engineRow x row).Pairwise (·.1 < ·.1) := by
  rw [engineRow_eq, List.pairwise_map]
  refine List.pairwise_iff_getElem.2 fun i j hi hj less => ?_
  rw [List.getElem_zipIdx, List.getElem_zipIdx]
  exact rowOffset_strictMono x (by omega)

/-- Byte `i` of an image row stands at its offset of the engine row. -/
theorem cellGet_engineRow {x : BitVec 24} {row : List Byte} {i : Nat} (h : i < row.length) :
    cellGet (engineRow x row) (rowOffset x i) = row.getD i 0 :=
  cellGet_listed (engineRow_rises x row) (mem_engineRow.2 ⟨i, h, rfl⟩)

theorem cellGet_engineRow_none {x : BitVec 24} {row : List Byte} {k : Nat} (h : ∀ i < row.length, rowOffset x i ≠ k) :
    cellGet (engineRow x row) k = 0 :=
  cellGet_absent fun c hc => by
    obtain ⟨i, hi, rfl⟩ := mem_engineRow.1 hc
    exact h i hi

/-- Byte `k` of row `r` of an operand, laid out along K. -/
def State.operand (s : State) (sh : BitVec 24) (x : BitVec 4) (mem : Option Nat) (r k : Nat) : Byte :=
  let at_ (b : Nat) : Byte := match mem with
    | none => cellGet s.tiles.bytes (262144 * x.toNat + 1024 * r + k)
    | some a => (s.load (a + r * rowBytes sh) (rowBytes sh)).getD b 0
  if k < shCols sh * fmtWidth (shFmt sh) then at_ k
  else if shFmt sh = 0xB ∧ 256 ≤ k ∧ k < 256 + shCols sh / 16 then at_ (shCols sh + (k - 256)) else 0

theorem State.srcRow_length (s : State) (src : RowSrc) (sh : BitVec 24) (r : Nat) : (s.srcRow src sh r).length = rowBytes sh := by
  cases src with
  | tile t => rw [srcRow, tileRow, List.length_map, rowKeys_eq, List.length_map, List.length_range]
  | mem a => exact State.load_length _ _ _

/-- Byte `i` of an operand's image row. -/
theorem State.srcRow_getD (s : State) (sh : BitVec 24) (x : BitVec 4) (mem : Option Nat) (r : Nat) {i : Nat} (h : i < rowBytes sh) :
    (s.srcRow (rowSrc x mem) sh r).getD i 0 = match mem with
      | none => cellGet s.tiles.bytes (262144 * x.toNat + 1024 * r + rowOffset sh i)
      | some a => (s.load (a + r * rowBytes sh) (rowBytes sh)).getD i 0 := by
  cases mem with
  | some a => rfl
  | none =>
    show (s.tileRow x.toNat sh r).getD i 0 = _
    rw [tileRow, rowKeys_eq, List.map_map, List.getD_eq_getElem _ _ (by simpa using h), List.getElem_map, List.getElem_range,
      Function.comp_apply, tileKey, Nat.mul_comm x.toNat, Nat.add_assoc]

/-- Which byte of an image row stands at offset `k`. -/
theorem rowOffset_eq_iff {sh : BitVec 24} {i k : Nat} : (i < rowBytes sh ∧ rowOffset sh i = k) ↔
    (k < shCols sh * fmtWidth (shFmt sh) ∧ i = k) ∨
    (shFmt sh = 0xB ∧ 256 ≤ k ∧ k < 256 + shCols sh / 16 ∧ i = shCols sh + (k - 256)) := by
  unfold rowOffset rowBytes
  by_cases q4 : shFmt sh = 0xB
  · rw [q4, if_pos rfl, show fmtWidth 0xB = 1 from rfl]
    simp only [true_and]
    split <;> omega
  · simp only [q4, false_and, if_false, or_false]
    exact and_congr_left fun same => same ▸ Iff.rfl

theorem State.cellGet_srcRow (s : State) (sh : BitVec 24) (x : BitVec 4) (mem : Option Nat) (r k : Nat) :
    cellGet (engineRow sh (s.srcRow (rowSrc x mem) sh r)) k = s.operand sh x mem r k := by
  have found : ∀ i, i < rowBytes sh ∧ rowOffset sh i = k → cellGet (engineRow sh (s.srcRow (rowSrc x mem) sh r)) k =
      match mem with
      | none => cellGet s.tiles.bytes (262144 * x.toNat + 1024 * r + k)
      | some a => (s.load (a + r * rowBytes sh) (rowBytes sh)).getD i 0 := by
    rintro i ⟨hi, rfl⟩
    rw [cellGet_engineRow (by rwa [srcRow_length]), srcRow_getD _ _ _ _ _ hi]
  unfold State.operand
  dsimp only
  split
  next inside => exact found k (rowOffset_eq_iff.2 (.inl ⟨inside, rfl⟩))
  next outside =>
    split
    next scale => exact found _ (rowOffset_eq_iff.2 (.inr ⟨scale.1, scale.2.1, scale.2.2, rfl⟩))
    next empty =>
      refine cellGet_engineRow_none fun i hi same => ?_
      rw [srcRow_length] at hi
      rcases rowOffset_eq_iff.1 ⟨hi, same⟩ with ⟨h, -⟩ | ⟨q4, low, high, -⟩
      · exact outside h
      · exact empty ⟨q4, low, high⟩

theorem mfFmt_wide (mf : BitVec 3) : 3 ≤ mfFmt mf := by
  revert mf
  decide

/-- Rows of an accepted operand fit in the 512 bytes of an engine row. -/
theorem engineRow_key_lt {s : State} {mf : BitVec 3} {sh : BitVec 24} {src : RowSrc} {r : Nat} (fits : shFmt sh = mfFmt mf)
    {c : Nat × Byte} (h : c ∈ engineRow sh (s.srcRow src sh r)) : c.1 < 512 := by
  obtain ⟨i, hi, rfl⟩ := mem_engineRow.1 h
  rw [State.srcRow_length] at hi
  have cols := shCols_le sh
  have narrow := mfFmt_wide mf
  have width : fmtWidth (shFmt sh) ≤ 2 := by
    unfold fmtWidth
    rw [if_neg (by omega)]
    split <;> omega
  have bytes : shCols sh * fmtWidth (shFmt sh) ≤ 256 * 2 := Nat.mul_le_mul cols width
  rcases rowOffset_eq_iff.1 ⟨hi, rfl⟩ with ⟨h, -⟩ | ⟨-, -, h, -⟩
  · exact lt_of_lt_of_le h bytes
  · show rowOffset sh i < 512
    omega

/-! ## Weight loads (R248) -/

section
variable {s : State} {e lo : Nat} {src : RowSrc} {sh : BitVec 24} {mf : BitVec 3}

/-- The cells that a weight load writes. -/
theorem mem_loadCells {c : Nat × Byte} : (c ∈ (List.range (min 128 (shRows sh - lo))).flatMap fun n =>
      (engineRow sh (s.srcRow src sh (lo + n))).map fun (k, b) => (e * 65536 + n * 512 + k, b)) ↔
    ∃ n, n < 128 ∧ lo + n < shRows sh ∧ ∃ d ∈ engineRow sh (s.srcRow src sh (lo + n)), c = (65536 * e + 512 * n + d.1, d.2) := by
  rw [List.mem_flatMap]
  simp only [List.mem_range, List.mem_map, Nat.mul_comm _ 65536, Nat.mul_comm _ 512]
  constructor
  · rintro ⟨n, hn, d, hd, rfl⟩
    exact ⟨n, by omega, by omega, d, hd, rfl⟩
  · rintro ⟨n, hn, hr, d, hd, rfl⟩
    exact ⟨n, by omega, d, hd, rfl⟩

/-- R248: the shadow weights of the engine loaded are the rows from `lo` on, zero beyond; those of another engine stay. -/
theorem State.loadShadow_weight (wf : cellsWf s.tiles.shadow = true) (fits : shFmt sh = mfFmt mf) {d n k : Nat} (hn : n < 128)
    (hk : k < 512) : cellGet (s.loadShadow e src sh lo mf).tiles.shadow (65536 * d + 512 * n + k) =
      if d = e then (if lo + n < shRows sh then cellGet (engineRow sh (s.srcRow src sh (lo + n))) k else 0)
      else cellGet s.tiles.shadow (65536 * d + 512 * n + k) := by
  have clear : cellsWf (clearCells s.tiles.shadow (e * 65536) 65536) = true := cellsWf_clear wf
  show cellGet (putCells _ _) _ = _
  split
  next same =>
    subst d
    refine cellGet_putCells_const clear (fun c hc key => ?_) ?_
    · obtain ⟨m, hm, rows, b, hb, rfl⟩ := mem_loadCells.1 hc
      have low := engineRow_key_lt fits hb
      obtain ⟨rfl, rfl⟩ : m = n ∧ b.1 = k := by omega
      rw [if_pos rows, cellGet_listed (engineRow_rises _ _) hb]
    · rw [cellGet_clear wf, if_pos (by omega)]
      by_cases rows : lo + n < shRows sh
      · rw [if_pos rows]
        by_cases listed : ∃ b ∈ engineRow sh (s.srcRow src sh (lo + n)), b.1 = k
        · obtain ⟨b, hb, rfl⟩ := listed
          exact .inr ⟨_, mem_loadCells.2 ⟨n, hn, rows, b, hb, rfl⟩, rfl⟩
        · exact .inl (cellGet_absent fun c hc key => listed ⟨c, hc, key⟩).symm
      · rw [if_neg rows]
        exact .inl rfl
  next other =>
    rw [cellGet_putCells_other clear, cellGet_clear wf, if_neg (by omega)]
    intro c hc key
    obtain ⟨m, hm, -, b, hb, rfl⟩ := mem_loadCells.1 hc
    have low := engineRow_key_lt fits hb
    dsimp only at key
    omega

theorem State.loadShadow_frame : ∃ cells latch,
    s.loadShadow e src sh lo mf = { s with tiles := { s.tiles with shadow := cells, shadowFmt := latch } } := ⟨_, _, rfl⟩

theorem State.loadShadow_wf (wf : cellsWf s.tiles.shadow = true) : cellsWf (s.loadShadow e src sh lo mf).tiles.shadow = true :=
  cellsWf_putCells (cellsWf_clear wf)

theorem State.loadShadow_srcRow (u : RowSrc) (r : Nat) : (s.loadShadow e src sh lo mf).srcRow u sh r = s.srcRow u sh r := by
  cases u <;> rfl

end

/-- Setting the latch of an engine, of any number. -/
theorem vget_vset_lt {α : Type} {n : Nat} {v : Vector α n} {i j : Nat} {x d : α} (h : j < n) :
    vget (vset v i x) j d = if j = i then x else vget v j d := by
  split
  next e => subst e; exact vget_vset_same h
  next e => exact vget_vset_other (Ne.symm e)

section
variable {s : State} {y : Nat} {mf : BitVec 3} {sh : BitVec 24} {x : BitVec 4} {mem : Option Nat}

theorem State.weightLoad_single (src : RowSrc) : s.weightLoad false y src sh mf = s.loadShadow y src sh 0 mf := rfl

theorem State.weightLoad_pair (src : RowSrc) :
    s.weightLoad true y src sh mf = (s.loadShadow y src sh 0 mf).loadShadow (y + 1) src sh 128 mf := rfl

theorem State.weightLoad_frame (pair : Bool) (src : RowSrc) :
    let t := s.weightLoad pair y src sh mf
    t = { s with tiles := { s.tiles with shadow := t.tiles.shadow, shadowFmt := t.tiles.shadowFmt } } := by
  obtain ⟨cells, latch, first⟩ := loadShadow_frame (s := s) (e := y) (src := src) (sh := sh) (lo := 0) (mf := mf)
  cases pair with
  | false => rw [weightLoad_single, first]
  | true =>
    obtain ⟨cells', latch', second⟩ := loadShadow_frame (s := s.loadShadow y src sh 0 mf) (e := y + 1) (src := src) (sh := sh)
      (lo := 128) (mf := mf)
    rw [weightLoad_pair, second, first]

theorem State.loadShadow_latch (src : RowSrc) {lo e : Nat} (he : e < 16) :
    vget (s.loadShadow y src sh lo mf).tiles.shadowFmt e none = if e = y then some mf else vget s.tiles.shadowFmt e none :=
  vget_vset_lt he

theorem State.weightLoad_latch (pair : Bool) (src : RowSrc) {e : Nat} (he : e < 16) :
    vget (s.weightLoad pair y src sh mf).tiles.shadowFmt e none =
      if e = y ∨ (pair = true ∧ e = y + 1) then some mf else vget s.tiles.shadowFmt e none := by
  cases pair with
  | false =>
    rw [weightLoad_single, loadShadow_latch src he]
    simp only [Bool.false_eq_true, false_and, or_false]
  | true =>
    rw [weightLoad_pair, loadShadow_latch src he, loadShadow_latch src he]
    simp only [true_and]
    grind

theorem State.weightLoad_weight (pair : Bool) (wf : cellsWf s.tiles.shadow = true) (fits : shFmt sh = mfFmt mf) {e n k : Nat}
    (hn : n < 128) (hk : k < 512) :
    cellGet (s.weightLoad pair y (rowSrc x mem) sh mf).tiles.shadow (65536 * e + 512 * n + k) =
      if e = y then (if n < shRows sh then s.operand sh x mem n k else 0)
      else if e = y ∨ (pair = true ∧ e = y + 1) then (if n + 128 < shRows sh then s.operand sh x mem (n + 128) k else 0)
      else cellGet s.tiles.shadow (65536 * e + 512 * n + k) := by
  have first : cellGet (s.loadShadow y (rowSrc x mem) sh 0 mf).tiles.shadow (65536 * e + 512 * n + k) =
      if e = y then (if n < shRows sh then s.operand sh x mem n k else 0)
      else cellGet s.tiles.shadow (65536 * e + 512 * n + k) := by
    rw [loadShadow_weight wf fits hn hk, Nat.zero_add, cellGet_srcRow]
  cases pair with
  | false =>
    rw [weightLoad_single, first]
    simp only [Bool.false_eq_true, false_and, or_false]
    grind
  | true =>
    rw [weightLoad_pair, loadShadow_weight (loadShadow_wf wf) fits hn hk, loadShadow_srcRow, cellGet_srcRow, first,
      Nat.add_comm 128]
    simp only [true_and]
    grind

end

end Sys2Proof.Machine
end

section
/-! Activation of the shadow weights (R248). -/

namespace Sys2Proof.Machine

theorem cellsFrom_rises {w : Nat} : ∀ {l : List (Nat × BitVec w)} {lo : Nat}, cellsFrom lo l = true →
    (∀ c ∈ l, lo ≤ c.1) ∧ l.Pairwise (·.1 < ·.1)
  | [], _, _ => ⟨fun _ h => absurd h List.not_mem_nil, .nil⟩
  | (b, x) :: r, lo, h => by
    simp only [cellsFrom, Bool.and_eq_true, decide_eq_true_eq] at h
    obtain ⟨above, rise⟩ := cellsFrom_rises h.2
    refine ⟨fun c hc => ?_, List.pairwise_cons.2 ⟨fun c hc => above c hc, rise⟩⟩
    rcases List.mem_cons.1 hc with rfl | hc
    · exact h.1.1
    · exact h.1.1.trans (Nat.le_of_succ_le (above c hc))

theorem cellGet_mem {w : Nat} {l : List (Nat × BitVec w)} (wf : cellsWf l = true) {c : Nat × BitVec w} (h : c ∈ l) :
    cellGet l c.1 = c.2 := cellGet_listed (cellsFrom_rises wf).2 h

section
variable {s : State} {y : Nat}

/-- R248: the active weights of the engine are its shadow weights; those of another engine stay. -/
theorem State.activate1_weight (active : cellsWf s.tiles.active = true) (shadow : cellsWf s.tiles.shadow = true) {e i : Nat}
    (hi : i < 65536) : cellGet (s.activate1 y).tiles.active (65536 * e + i) =
      if e = y then cellGet s.tiles.shadow (65536 * e + i) else cellGet s.tiles.active (65536 * e + i) := by
  have clear : cellsWf (clearCells s.tiles.active (y * 65536) 65536) = true := cellsWf_clear active
  show cellGet (putCells _ _) _ = _
  split
  next same =>
    subst e
    refine cellGet_putCells_const clear (fun c hc key => ?_) ?_
    · rw [← key, cellGet_mem shadow (List.mem_filter.1 hc).1]
    · by_cases listed : ∃ c ∈ s.tiles.shadow, c.1 = 65536 * y + i
      · obtain ⟨c, hc, key⟩ := listed
        refine .inr ⟨c, List.mem_filter.2 ⟨hc, ?_⟩, key⟩
        rw [Bool.and_eq_true, decide_eq_true_eq, decide_eq_true_eq]
        omega
      · rw [cellGet_clear active, if_pos (by omega), cellGet_absent fun c hc key => listed ⟨c, hc, key⟩]
        exact .inl rfl
  next other =>
    rw [cellGet_putCells_other clear, cellGet_clear active, if_neg (by omega)]
    intro c hc key
    have range := (List.mem_filter.1 hc).2
    rw [Bool.and_eq_true, decide_eq_true_eq, decide_eq_true_eq] at range
    omega

theorem State.activate1_frame : ∃ cells latch,
    s.activate1 y = { s with tiles := { s.tiles with active := cells, activeFmt := latch } } := ⟨_, _, rfl⟩

theorem State.activate1_wf (wf : cellsWf s.tiles.active = true) : cellsWf (s.activate1 y).tiles.active = true :=
  cellsWf_putCells (cellsWf_clear wf)

theorem State.activate1_latch {e : Nat} (he : e < 16) : vget (s.activate1 y).tiles.activeFmt e none =
    if e = y then vget s.tiles.shadowFmt e none else vget s.tiles.activeFmt e none :=
  (vget_vset_lt he).trans (if_ctx_congr Iff.rfl (fun same => same ▸ rfl) fun _ => rfl)

theorem State.activate1_shadow : (s.activate1 y).tiles.shadow = s.tiles.shadow := rfl

theorem State.activate1_shadowFmt : (s.activate1 y).tiles.shadowFmt = s.tiles.shadowFmt := rfl

theorem State.activate_single : s.activate false y = s.activate1 y := rfl

theorem State.activate_pair : s.activate true y = (s.activate1 y).activate1 (y + 1) := rfl

theorem State.activate_frame (pair : Bool) :
    let t := s.activate pair y
    t = { s with tiles := { s.tiles with active := t.tiles.active, activeFmt := t.tiles.activeFmt } } := by
  obtain ⟨cells, latch, first⟩ := activate1_frame (s := s) (y := y)
  cases pair with
  | false => rw [activate_single, first]
  | true =>
    obtain ⟨cells', latch', second⟩ := activate1_frame (s := s.activate1 y) (y := y + 1)
    rw [activate_pair, second, first]

theorem State.activate_latch (pair : Bool) {e : Nat} (he : e < 16) : vget (s.activate pair y).tiles.activeFmt e none =
    if e = y ∨ (pair = true ∧ e = y + 1) then vget s.tiles.shadowFmt e none else vget s.tiles.activeFmt e none := by
  cases pair with
  | false =>
    rw [activate_single, activate1_latch he]
    simp only [Bool.false_eq_true, false_and, or_false]
  | true =>
    rw [activate_pair, activate1_latch he, activate1_latch he, activate1_shadowFmt]
    simp only [true_and]
    grind

theorem State.activate_weight (pair : Bool) (active : cellsWf s.tiles.active = true) (shadow : cellsWf s.tiles.shadow = true)
    {e i : Nat} (hi : i < 65536) : cellGet (s.activate pair y).tiles.active (65536 * e + i) =
      if e = y ∨ (pair = true ∧ e = y + 1) then cellGet s.tiles.shadow (65536 * e + i) else cellGet s.tiles.active (65536 * e + i) := by
  cases pair with
  | false =>
    rw [activate_single, activate1_weight active shadow hi]
    simp only [Bool.false_eq_true, false_and, or_false]
  | true =>
    rw [activate_pair, activate1_weight (activate1_wf active) shadow hi, activate1_weight active shadow hi, activate1_shadow]
    simp only [true_and]
    grind

end

end Sys2Proof.Machine
end

section
/-! Streams of the matrix engines (R249, R75, R77). -/

namespace Sys2Proof.Machine

/-! ## One accumulator element -/

/-- Groups of 16 products of a pass. -/
def streamGroups (mf : BitVec 3) : Nat := if mf = 6 then 32 else 16

/-- Element `k` of an operand whose bytes are `b`, as an exact value. -/
def realAt (mf : BitVec 3) (b : Nat → Byte) (k : Nat) : FVal :=
  let v (i : Nat) : Nat := (b i).toNat
  if mf = 0 then bf16.decode (v (2 * k) + 256 * v (2 * k + 1)) else if mf = 1 then f16.decode (v (2 * k) + 256 * v (2 * k + 1))
  else if mf = 2 then e4m3.decode (v k) else if mf = 3 then e5m2.decode (v k)
  else decodeQ4 (v (k / 2) / 16 ^ (k % 2) % 16) (v (256 + k / 32))

/-- Element `k` of an integer operand whose bytes are `b`. -/
def wholeAt (mf : BitVec 3) (b : Nat → Byte) (k : Nat) : Int := if mf = 4 then (b k).toInt else (b k).toNat

theorem elemF_eq (mf : BitVec 3) (row : List (Nat × Byte)) (k : Nat) : elemF mf row k = realAt mf (cellGet row) k := by
  have all : ∀ mf : BitVec 3, mf = 0 ∨ mf = 1 ∨ mf = 2 ∨ mf = 3 ∨ mf = 4 ∨ mf = 5 ∨ mf = 6 ∨ mf = 7 := by decide
  rcases all mf with h | h | h | h | h | h | h | h <;> subst h <;> rfl

theorem toSigned_byte (x : Byte) : toSigned 8 x.toNat = x.toInt := by
  have := x.isLt
  rw [BitVec.toInt_eq_toNat_cond, toSigned, Nat.mod_eq_of_lt x.isLt]
  split <;> split <;> omega

theorem elemI_eq (mf : BitVec 3) (row : List (Nat × Byte)) (k : Nat) : elemI mf row k = wholeAt mf (cellGet row) k := by
  unfold elemI wholeAt rowByte
  rw [toSigned_byte]

variable (mf : BitVec 3) {b b' act wt : Nat → Byte}

theorem realAt_congr (same : ∀ i < 512, b i = b' i) {k : Nat} (h : k < 16 * streamGroups mf) :
    realAt mf b k = realAt mf b' k := by
  have wide : k < 512 ∧ (mf ≠ 6 → k < 256) := by
    unfold streamGroups at h
    split at h
    next six => exact ⟨by omega, fun other => absurd six other⟩
    next => exact ⟨by omega, fun _ => by omega⟩
  have narrow : mf = 0 ∨ mf = 1 → k < 256 := fun two => wide.2 fun h => by subst h; revert two; decide
  unfold realAt
  dsimp only
  rw [same k wide.1, same (k / 2) (by omega), same (256 + k / 32) (by omega)]
  by_cases two : mf = 0 ∨ mf = 1
  · have low := narrow two
    rw [same (2 * k) (by omega), same (2 * k + 1) (by omega)]
  · push Not at two
    simp only [if_neg two.1, if_neg two.2]

theorem wholeAt_congr (same : ∀ i < 512, b i = b' i) {k : Nat} (h : k < 512) : wholeAt mf b k = wholeAt mf b' k := by
  unfold wholeAt
  rw [same k h]

variable (act wt)

/-- The accumulator element after `g` groups. -/
def streamAfter (start g : Nat) : Nat := (List.range g).foldl (fun acc g =>
  if decide (mf = 4 ∨ mf = 5) then (macI32 acc ((List.range 16).map fun j => wholeAt mf act (16 * g + j) * wholeAt mf wt (16 * g + j))).1
  else macF32 acc ((List.range 16).map fun j => (realAt mf act (16 * g + j)).mul (realAt mf wt (16 * g + j)))) start

/-- Integer group `g` of the element saturates. -/
def streamSaturates (start g : Nat) : Bool := (macI32 (streamAfter mf act wt start g) ((List.range 16).map fun j =>
  wholeAt mf act (16 * g + j) * wholeAt mf wt (16 * g + j))).2

theorem streamAfter_succ (start g : Nat) : streamAfter mf act wt start (g + 1) =
    if decide (mf = 4 ∨ mf = 5) then (macI32 (streamAfter mf act wt start g)
      ((List.range 16).map fun j => wholeAt mf act (16 * g + j) * wholeAt mf wt (16 * g + j))).1
    else macF32 (streamAfter mf act wt start g)
      ((List.range 16).map fun j => (realAt mf act (16 * g + j)).mul (realAt mf wt (16 * g + j))) := by
  rw [streamAfter, List.range_succ (n := g), List.foldl_append]
  rfl

/-- A pass gives the element after all its groups, and whether one of them saturated. -/
theorem passElem_eq (act wt : List (Nat × Byte)) (acc : Nat) : passElem mf act wt acc =
    (streamAfter mf (cellGet act) (cellGet wt) acc (streamGroups mf),
     (List.range (streamGroups mf)).any fun g => mfInt mf && streamSaturates mf (cellGet act) (cellGet wt) acc g) := by
  show (List.range (streamGroups mf)).foldl _ _ = _
  generalize streamGroups mf = n
  induction n with
  | zero => rfl
  | succ n ih =>
    rw [List.range_succ (n := n), List.foldl_append, ih, streamAfter_succ, List.any_append]
    simp only [elemF_eq, elemI_eq]
    show ite _ _ _ = _
    by_cases int : mfInt mf = true
    · rw [if_pos int, if_pos (decide_eq_true ((mfInt_iff mf).1 int))]
      exact Prod.ext rfl (congrArg (_ || ·) (by rw [List.any_cons, List.any_nil, int, Bool.true_and, Bool.or_false]; rfl))
    · rw [if_neg int, if_neg fun h => int ((mfInt_iff mf).2 (of_decide_eq_true h))]
      exact Prod.ext rfl (by rw [List.any_cons, List.any_nil, Bool.eq_false_iff.2 int, Bool.false_and, Bool.or_false, Bool.or_false])

section
variable {mf : BitVec 3} {act act' wt wt' : Nat → Byte} (left : ∀ i < 512, act i = act' i) (right : ∀ i < 512, wt i = wt' i)
include left right

/-- The products of a group depend on the bytes of the engine rows alone. -/
theorem streamProducts_congr {g : Nat} (h : g < streamGroups mf) :
    ((List.range 16).map fun j => (realAt mf act (16 * g + j)).mul (realAt mf wt (16 * g + j))) =
      ((List.range 16).map fun j => (realAt mf act' (16 * g + j)).mul (realAt mf wt' (16 * g + j))) ∧
    ((List.range 16).map fun j => wholeAt mf act (16 * g + j) * wholeAt mf wt (16 * g + j)) =
      ((List.range 16).map fun j => wholeAt mf act' (16 * g + j) * wholeAt mf wt' (16 * g + j)) := by
  have most : 16 * streamGroups mf ≤ 512 := by
    unfold streamGroups
    split <;> omega
  constructor
  all_goals
    refine List.map_congr_left fun j hj => ?_
    have low : 16 * g + j < 16 * streamGroups mf := by
      have := List.mem_range.1 hj
      omega
  · rw [realAt_congr mf left low, realAt_congr mf right low]
  · rw [wholeAt_congr mf left (low.trans_le most), wholeAt_congr mf right (low.trans_le most)]

theorem streamAfter_congr (start : Nat) : ∀ {g : Nat}, g ≤ streamGroups mf →
    streamAfter mf act wt start g = streamAfter mf act' wt' start g
  | 0, _ => rfl
  | g + 1, h => by
    obtain ⟨reals, wholes⟩ := streamProducts_congr left right (Nat.lt_of_succ_le h)
    rw [streamAfter_succ, streamAfter_succ, streamAfter_congr start (Nat.le_of_succ_le h), reals, wholes]

theorem streamSaturates_congr (start : Nat) {g : Nat} (h : g < streamGroups mf) :
    streamSaturates mf act wt start g = streamSaturates mf act' wt' start g := by
  rw [streamSaturates, streamSaturates, streamAfter_congr left right start h.le, (streamProducts_congr left right h).2]

end

end Sys2Proof.Machine
end

section
/-! Streams through one engine and through a pair (R249). -/

namespace Sys2Proof.Machine

theorem shRows_le (x : BitVec 24) : shRows x ≤ 256 := by
  unfold shRows
  omega

theorem mem_zipIdx_map_range {α : Type} {f : Nat → α} {k : Nat} {c : α × Nat} :
    c ∈ ((List.range k).map f).zipIdx ↔ ∃ n < k, c = (f n, n) := by
  rw [zipIdx_map_range, List.mem_map]
  simp only [List.mem_range, eq_comm]

theorem State.orLate_sat (s : State) (sat : W16) : s.orLate 0 sat = { s with late := { s.late with sat := s.late.sat ||| sat } } := by
  have same : s.late.flags ||| (0 : BitVec 6) = s.late.flags := BitVec.or_zero
  rw [orLate, same]

/-! ## One engine -/

/-- Byte `k` of weight column `n` of an engine. -/
def State.weightAt (s : State) (e n k : Nat) : Byte := cellGet s.tiles.active (65536 * e + 512 * n + k)

/-- Accumulator element (m, n) of an engine. -/
def State.accAt (s : State) (e m n : Nat) : W32 := cellGet s.tiles.acc (32768 * e + 128 * m + n)

section
variable (s : State) (e : Nat) (sh : BitVec 24) (x : BitVec 4) (mem : Option Nat) (mf : BitVec 3) (z : Bool)

/-- Where the accumulation of an element starts. -/
def State.streamStart (m n : Nat) : Nat := if z then 0 else (s.accAt e m n).toNat

/-- An accumulator element after `g` groups of a stream. -/
def State.streamElem (m n g : Nat) : Nat :=
  streamAfter mf (s.operand sh x mem m) (s.weightAt e n) (s.streamStart e z m n) g

/-- Group `g` of an element saturates. -/
def State.streamSat (m n g : Nat) : Bool :=
  streamSaturates mf (s.operand sh x mem m) (s.weightAt e n) (s.streamStart e z m n) g

/-- The accumulator that a stream starts from. -/
def State.streamBase : List (Nat × W32) := if z then clearCells s.tiles.acc (e * 32768) 32768 else s.tiles.acc

/-- What a stream computes: key, element and saturation. -/
def State.streamOut : List (Nat × Nat × Bool) :=
  let wts := (List.range 128).map fun n => (List.range 512).zip (getBytes s.tiles.active (e * 65536 + n * 512) 512)
  (List.range (shRows sh)).flatMap fun m =>
    let act := engineRow sh (s.srcRow (rowSrc x mem) sh m)
    wts.zipIdx.map fun (wt, n) => (accKey e m n, passElem mf act wt (cellGet (s.streamBase e z) (accKey e m n)).toNat)

variable {s e sh x mem mf z}

theorem State.streamBase_wf (wf : cellsWf s.tiles.acc = true) : cellsWf (s.streamBase e z) = true := by
  unfold streamBase
  split
  · exact cellsWf_clear wf
  · exact wf

theorem State.streamBase_get (wf : cellsWf s.tiles.acc = true) {d m n : Nat} (hm : m < 256) (hn : n < 128) :
    cellGet (s.streamBase e z) (32768 * d + 128 * m + n) = if d = e ∧ z = true then 0 else s.accAt d m n := by
  unfold streamBase accAt
  cases z with
  | false => simp only [Bool.false_eq_true, if_false, and_false]
  | true =>
    rw [if_pos rfl, cellGet_clear wf]
    refine if_congr ?_ rfl rfl
    simp only [and_true]
    omega

theorem accKey_eq (e m n : Nat) : accKey e m n = 32768 * e + 128 * m + n := by
  rw [accKey, Nat.mul_comm e, Nat.mul_comm m]

/-- Byte `i` of a weight column. -/
theorem State.weightRow_get (n : Nat) {i : Nat} (hi : i < 512) :
    cellGet ((List.range 512).zip (getBytes s.tiles.active (e * 65536 + n * 512) 512)) i = s.weightAt e n i := by
  have listed : (List.range 512).zip (getBytes s.tiles.active (e * 65536 + n * 512) 512) =
      (List.range 512).map fun i => (i, s.weightAt e n i) := by
    rw [List.map_prod_left_eq_zip, getBytes, Nat.mul_comm e, Nat.mul_comm n]
    rfl
  rw [listed]
  refine cellGet_listed (c := (i, s.weightAt e n i)) ?_ (List.mem_map.2 ⟨i, List.mem_range.2 hi, rfl⟩)
  exact List.pairwise_map.2 (List.pairwise_lt_range (n := 512))

theorem State.passElem_stream (wf : cellsWf s.tiles.acc = true) {m n : Nat} (hm : m < 256) (hn : n < 128) :
    passElem mf (engineRow sh (s.srcRow (rowSrc x mem) sh m))
      ((List.range 512).zip (getBytes s.tiles.active (e * 65536 + n * 512) 512))
      (cellGet (s.streamBase e z) (accKey e m n)).toNat =
    (s.streamElem e sh x mem mf z m n (streamGroups mf),
     (List.range (streamGroups mf)).any fun g => mfInt mf && s.streamSat e sh x mem mf z m n g) := by
  have start : (cellGet (s.streamBase e z) (accKey e m n)).toNat = s.streamStart e z m n := by
    rw [accKey_eq, streamBase_get wf hm hn, streamStart]
    cases z <;> simp
  have left : ∀ i < 512, cellGet (engineRow sh (s.srcRow (rowSrc x mem) sh m)) i = s.operand sh x mem m i :=
    fun i _ => s.cellGet_srcRow sh x mem m i
  rw [passElem_eq, start, streamAfter_congr left (fun i => s.weightRow_get n) _ le_rfl]
  refine Prod.ext rfl (Bool.eq_iff_iff.2 ?_)
  simp only [List.any_eq_true, Bool.and_eq_true, List.mem_range]
  refine exists_congr fun g => and_congr_right fun hg => ?_
  rw [streamSaturates_congr left (fun i => s.weightRow_get n) _ hg]
  rfl

theorem State.mem_streamOut (wf : cellsWf s.tiles.acc = true) {c : Nat × Nat × Bool} : c ∈ s.streamOut e sh x mem mf z ↔
    ∃ m < shRows sh, ∃ n < 128, c = (32768 * e + 128 * m + n, s.streamElem e sh x mem mf z m n (streamGroups mf),
      (List.range (streamGroups mf)).any fun g => mfInt mf && s.streamSat e sh x mem mf z m n g) := by
  have rows := shRows_le sh
  rw [streamOut, List.mem_flatMap]
  refine exists_congr fun m => ?_
  rw [List.mem_range]
  refine and_congr_right fun hm => ?_
  have entry (n : Nat) (hn : n < 128) := congrArg₂ Prod.mk (accKey_eq e m n)
    (passElem_stream (e := e) (sh := sh) (x := x) (mem := mem) (mf := mf) (z := z) wf (hm.trans_le rows) hn)
  rw [List.mem_map]
  constructor
  · rintro ⟨c, h, rfl⟩
    obtain ⟨n, hn, rfl⟩ := mem_zipIdx_map_range.1 h
    exact ⟨n, hn, entry n hn⟩
  · rintro ⟨n, hn, rfl⟩
    exact ⟨_, mem_zipIdx_map_range.2 ⟨n, hn, rfl⟩, entry n hn⟩

/-- A stream writes what it computes. -/
theorem State.stream1_eq : s.stream1 e (rowSrc x mem) sh mf z =
    let t : State := { s with tiles := { s.tiles with
      acc := putCells (s.streamBase e z) ((s.streamOut e sh x mem mf z).map fun (k, r) => (k, BitVec.ofNat 32 r.1)),
      mode := vset s.tiles.mode e
        (if z ∨ vget s.tiles.mode e .none = .none then family mf else vget s.tiles.mode e .none) } }
    if (s.streamOut e sh x mem mf z).any fun (_, r) => r.2 then t.orLate 0 (BitVec.ofNat 16 (2 ^ e)) else t := rfl

theorem State.stream1_frame : ∃ acc mode sat, s.stream1 e (rowSrc x mem) sh mf z =
    { s with tiles := { s.tiles with acc := acc, mode := mode }, late := { s.late with sat := sat } } := by
  rw [stream1_eq]
  dsimp only
  split
  · exact ⟨_, _, _, orLate_sat _ _⟩
  · exact ⟨_, _, _, rfl⟩

theorem State.stream1_accs : (s.stream1 e (rowSrc x mem) sh mf z).tiles.acc =
    putCells (s.streamBase e z) ((s.streamOut e sh x mem mf z).map fun (k, r) => (k, BitVec.ofNat 32 r.1)) := by
  rw [stream1_eq]
  dsimp only
  split <;> rfl

theorem State.stream1_mode {d : Nat} (hd : d < 16) : vget (s.stream1 e (rowSrc x mem) sh mf z).tiles.mode d .none =
    if d = e ∧ (z = true ∨ vget s.tiles.mode d .none = .none) then family mf else vget s.tiles.mode d .none := by
  have mode : (s.stream1 e (rowSrc x mem) sh mf z).tiles.mode = vset s.tiles.mode e
      (if z ∨ vget s.tiles.mode e .none = .none then family mf else vget s.tiles.mode e .none) := by
    rw [stream1_eq]
    dsimp only
    split <;> rfl
  rw [mode, vget_vset_lt hd]
  grind

theorem State.stream1_wf (wf : cellsWf s.tiles.acc = true) :
    cellsWf (s.stream1 e (rowSrc x mem) sh mf z).tiles.acc = true := by
  rw [stream1_accs]
  exact cellsWf_putCells (streamBase_wf wf)

theorem State.stream1_acc (wf : cellsWf s.tiles.acc = true) {d m n : Nat} (hm : m < 256) (hn : n < 128) :
    (s.stream1 e (rowSrc x mem) sh mf z).accAt d m n =
      if d = e then (if m < shRows sh then BitVec.ofNat 32 (s.streamElem e sh x mem mf z m n (streamGroups mf))
        else if z then 0 else s.accAt d m n)
      else s.accAt d m n := by
  rw [accAt, stream1_accs]
  refine (cellGet_putCells_if (p := d = e ∧ m < shRows sh)
    (v := BitVec.ofNat 32 (s.streamElem e sh x mem mf z m n (streamGroups mf))) (streamBase_wf wf) ?_ ?_).trans ?_
  · constructor
    · rintro ⟨c, hc, key⟩
      obtain ⟨r, hr, rfl⟩ := List.mem_map.1 hc
      obtain ⟨m', hm', n', hn', rfl⟩ := (mem_streamOut wf).1 hr
      have := shRows_le sh
      dsimp only at key
      omega
    · rintro ⟨rfl, rows⟩
      exact ⟨_, List.mem_map.2 ⟨_, (mem_streamOut wf).2 ⟨m, rows, n, hn, rfl⟩, rfl⟩, rfl⟩
  · intro c hc key
    obtain ⟨r, hr, rfl⟩ := List.mem_map.1 hc
    obtain ⟨m', hm', n', hn', rfl⟩ := (mem_streamOut wf).1 hr
    have := shRows_le sh
    dsimp only at key
    obtain ⟨rfl, rfl⟩ : m' = m ∧ n' = n := by omega
    rfl
  · rw [streamBase_get wf hm hn]
    grind

theorem State.stream1_sat (wf : cellsWf s.tiles.acc = true) {d : Nat} (hd : d < 16) :
    (s.stream1 e (rowSrc x mem) sh mf z).late.sat.getLsbD d = true ↔ s.late.sat.getLsbD d = true ∨
      (d = e ∧ mfInt mf = true ∧ ∃ m < shRows sh, ∃ n < 128, ∃ g < streamGroups mf, s.streamSat e sh x mem mf z m n g = true) := by
  have any : ((s.streamOut e sh x mem mf z).any fun (_, r) => r.2) = true ↔
      mfInt mf = true ∧ ∃ m < shRows sh, ∃ n < 128, ∃ g < streamGroups mf, s.streamSat e sh x mem mf z m n g = true := by
    rw [List.any_eq_true]
    constructor
    · rintro ⟨c, hc, h⟩
      obtain ⟨m, hm, n, hn, rfl⟩ := (mem_streamOut wf).1 hc
      obtain ⟨g, hg, both⟩ := List.any_eq_true.1 h
      obtain ⟨int, sat⟩ := Bool.and_eq_true_iff.1 both
      exact ⟨int, m, hm, n, hn, g, List.mem_range.1 hg, sat⟩
    · rintro ⟨int, m, hm, n, hn, g, hg, sat⟩
      exact ⟨_, (mem_streamOut wf).2 ⟨m, hm, n, hn, rfl⟩,
        List.any_eq_true.2 ⟨g, List.mem_range.2 hg, Bool.and_eq_true_iff.2 ⟨int, sat⟩⟩⟩
  rw [← any, stream1_eq]
  dsimp only
  split
  next raised =>
    have bit : (BitVec.ofNat 16 (2 ^ e)).getLsbD d = decide (e = d) := by
      rw [BitVec.getLsbD_ofNat, Nat.testBit_two_pow, decide_eq_true hd, Bool.true_and]
    have here : (d = e ∧ (s.streamOut e sh x mem mf z).any (fun x => x.2.2) = true) ↔ e = d :=
      ⟨fun h => h.1.symm, fun h => ⟨h.symm, raised⟩⟩
    rw [orLate_sat, BitVec.getLsbD_or, bit, Bool.or_eq_true, decide_eq_true_eq]
    exact or_congr_right here.symm
  next quiet => exact (or_iff_left fun h => quiet h.2).symm

end

/-! ## A pair of engines (R249) -/

section
variable {s : State} {y : Nat} {sh : BitVec 24} {x : BitVec 4} {mem : Option Nat} {mf : BitVec 3} {z : Bool}

theorem State.stream1_operand : (s.stream1 y (rowSrc x mem) sh mf z).operand sh x mem = s.operand sh x mem := by
  obtain ⟨acc, mode, sat, frame⟩ := stream1_frame (s := s) (e := y) (sh := sh) (x := x) (mem := mem) (mf := mf) (z := z)
  rw [frame]
  rfl

theorem State.stream1_weightAt : (s.stream1 y (rowSrc x mem) sh mf z).weightAt = s.weightAt := by
  obtain ⟨acc, mode, sat, frame⟩ := stream1_frame (s := s) (e := y) (sh := sh) (x := x) (mem := mem) (mf := mf) (z := z)
  rw [frame]
  rfl

/-- The second engine of a pair starts from what it held. -/
theorem State.stream1_start (wf : cellsWf s.tiles.acc = true) {m n : Nat} (hm : m < 256) (hn : n < 128) :
    (s.stream1 y (rowSrc x mem) sh mf z).streamStart (y + 1) z m n = s.streamStart (y + 1) z m n := by
  rw [streamStart, streamStart, stream1_acc wf hm hn, if_neg (Nat.succ_ne_self y)]

theorem State.stream1_elem (wf : cellsWf s.tiles.acc = true) {m n : Nat} (hm : m < 256) (hn : n < 128) (g : Nat) :
    (s.stream1 y (rowSrc x mem) sh mf z).streamElem (y + 1) sh x mem mf z m n g = s.streamElem (y + 1) sh x mem mf z m n g := by
  rw [streamElem, streamElem, stream1_operand, stream1_weightAt, stream1_start wf hm hn]

theorem State.stream1_streamSat (wf : cellsWf s.tiles.acc = true) {m n : Nat} (hm : m < 256) (hn : n < 128) (g : Nat) :
    (s.stream1 y (rowSrc x mem) sh mf z).streamSat (y + 1) sh x mem mf z m n g = s.streamSat (y + 1) sh x mem mf z m n g := by
  rw [streamSat, streamSat, stream1_operand, stream1_weightAt, stream1_start wf hm hn]

theorem State.streamOp_single : s.streamOp false y (rowSrc x mem) sh mf z = s.stream1 y (rowSrc x mem) sh mf z := rfl

theorem State.streamOp_pair : s.streamOp true y (rowSrc x mem) sh mf z =
    (s.stream1 y (rowSrc x mem) sh mf z).stream1 (y + 1) (rowSrc x mem) sh mf z := rfl

theorem State.streamOp_frame (pair : Bool) :
    let t := s.streamOp pair y (rowSrc x mem) sh mf z
    t = { s with tiles := { s.tiles with acc := t.tiles.acc, mode := t.tiles.mode }, late.sat := t.late.sat } := by
  obtain ⟨acc, mode, sat, first⟩ := stream1_frame (s := s) (e := y) (sh := sh) (x := x) (mem := mem) (mf := mf) (z := z)
  cases pair with
  | false => rw [streamOp_single, first]
  | true =>
    obtain ⟨acc', mode', sat', second⟩ := stream1_frame (s := s.stream1 y (rowSrc x mem) sh mf z) (e := y + 1) (sh := sh) (x := x)
      (mem := mem) (mf := mf) (z := z)
    rw [streamOp_pair, second, first]

theorem State.streamOp_mode (pair : Bool) {e : Nat} (he : e < 16) :
    vget (s.streamOp pair y (rowSrc x mem) sh mf z).tiles.mode e .none =
      if (e = y ∨ (pair = true ∧ e = y + 1)) ∧ (z = true ∨ vget s.tiles.mode e .none = .none) then family mf
      else vget s.tiles.mode e .none := by
  cases pair with
  | false =>
    rw [streamOp_single, stream1_mode he]
    simp only [Bool.false_eq_true, false_and, or_false]
  | true =>
    rw [streamOp_pair, stream1_mode he, stream1_mode he]
    simp only [true_and]
    grind

theorem State.streamOp_sat (pair : Bool) (wf : cellsWf s.tiles.acc = true) {e : Nat} (he : e < 16) :
    (s.streamOp pair y (rowSrc x mem) sh mf z).late.sat.getLsbD e = true ↔ s.late.sat.getLsbD e = true ∨
      ((e = y ∨ (pair = true ∧ e = y + 1)) ∧ mfInt mf = true ∧
        ∃ m < shRows sh, ∃ n < 128, ∃ g < streamGroups mf, s.streamSat e sh x mem mf z m n g = true) := by
  cases pair with
  | false =>
    rw [streamOp_single, stream1_sat wf he]
    simp only [Bool.false_eq_true, false_and, or_false]
    refine or_congr_right (and_congr_right fun same => ?_)
    rw [same]
  | true =>
    rw [streamOp_pair, stream1_sat (stream1_wf wf) he, stream1_sat wf he]
    have second : (∃ m < shRows sh, ∃ n < 128, ∃ g < streamGroups mf,
        (s.stream1 y (rowSrc x mem) sh mf z).streamSat (y + 1) sh x mem mf z m n g = true) ↔
        ∃ m < shRows sh, ∃ n < 128, ∃ g < streamGroups mf, s.streamSat (y + 1) sh x mem mf z m n g = true := by
      refine exists_congr fun m => and_congr_right fun hm => exists_congr fun n => and_congr_right fun hn => ?_
      simp only [stream1_streamSat wf (hm.trans_le (shRows_le sh)) hn]
    rw [second]
    simp only [true_and]
    constructor
    · rintro ((old | ⟨rfl, int, sat⟩) | ⟨rfl, int, sat⟩)
      · exact .inl old
      · exact .inr ⟨.inl rfl, int, sat⟩
      · exact .inr ⟨.inr rfl, int, sat⟩
    · rintro (old | ⟨rfl | rfl, int, sat⟩)
      · exact .inl (.inl old)
      · exact .inl (.inr ⟨rfl, int, sat⟩)
      · exact .inr ⟨rfl, int, sat⟩

theorem State.streamOp_acc (pair : Bool) (wf : cellsWf s.tiles.acc = true) {e m n : Nat} (hm : m < 256) (hn : n < 128) :
    (s.streamOp pair y (rowSrc x mem) sh mf z).accAt e m n = if e = y ∨ (pair = true ∧ e = y + 1) then
        (if m < shRows sh then BitVec.ofNat 32 (s.streamElem e sh x mem mf z m n (streamGroups mf)) else if z then 0 else s.accAt e m n)
      else s.accAt e m n := by
  cases pair with
  | false =>
    rw [streamOp_single, stream1_acc wf hm hn]
    simp only [Bool.false_eq_true, false_and, or_false]
    exact if_ctx_congr Iff.rfl (fun same => same ▸ rfl) fun _ => rfl
  | true =>
    rw [streamOp_pair, stream1_acc (stream1_wf wf) hm hn, stream1_elem wf hm hn, stream1_acc wf hm hn]
    simp only [true_and]
    grind

end

end Sys2Proof.Machine
end

section
/-! Groups of products, zeroing, and the epilogue of a drain (R75, R77, R251, R253). -/

namespace Sys2Proof.Machine

/-! ## Groups of products (R75, R77) -/

theorem dyadRat_dyad {v : FVal} {q : ℚ} (h : v.num = some q) : dyadRat v.dyad = q := by
  rcases FVal.num_eq_some.1 h with ⟨n, rfl, rfl⟩ | ⟨neg, m, e, rfl, -, rfl⟩
  · exact zero_mul _
  · exact dyadRat_fin neg m e

/-- A sum of finite values is exact. -/
theorem dyadRat_foldl : ∀ {vs : List FVal} {qs : List ℚ} (start : Int × Int), vs.map FVal.num = qs.map some →
    dyadRat (vs.foldl (fun a v => addDyad a v.dyad) start) = dyadRat start + qs.sum
  | [], [], start, _ => (add_zero _).symm
  | [], _ :: _, _, h => nomatch h
  | _ :: _, [], _, h => nomatch h
  | v :: vs, q :: qs, start, h => by
    rw [List.map_cons, List.map_cons, List.cons.injEq] at h
    rw [List.foldl_cons, dyadRat_foldl _ h.2, dyadRat_addDyad, dyadRat_dyad h.1, List.sum_cons, add_assoc]

theorem dyadRat_sumDyad {vs : List FVal} {qs : List ℚ} (h : vs.map FVal.num = qs.map some) : dyadRat (sumDyad vs) = qs.sum := by
  rw [sumDyad, dyadRat_foldl _ h, show dyadRat (0, 0) = 0 from zero_mul _, zero_add]

section
variable (acc : Nat) (ps : List (FVal × Bool))

/-- The terms of a group: the accumulator and the products. -/
def macTerms : List FVal := f32.decode acc :: ps.map (·.1)

theorem macF32_eq : macF32 acc ps =
    if .nan ∈ macTerms acc ps ∨ (.inf false ∈ macTerms acc ps ∧ .inf true ∈ macTerms acc ps) then 0x7FC00000
    else if .inf false ∈ macTerms acc ps then 0x7F800000 else if .inf true ∈ macTerms acc ps then 0xFF800000
    else (f32.pack (FVal.ofInt (sumDyad (macTerms acc ps)).1 (sumDyad (macTerms acc ps)).2) .rne 0).1 := by
  have inf (neg : Bool) : ((macTerms acc ps).any fun v => decide (v = .inf neg)) = true ↔ .inf neg ∈ macTerms acc ps := by
    simp only [List.any_eq_true, decide_eq_true_eq, exists_eq_right]
  refine if_congr ?_ rfl (if_congr (inf false) rfl (if_congr (inf true) rfl rfl))
  rw [← inf, ← inf, ← any_isNan_iff, Bool.or_eq_true, Bool.and_eq_true]
  rfl

theorem macF32_finite {qs : List ℚ} (finite : (macTerms acc ps).map FVal.num = qs.map some) :
    macF32 acc ps = (f32.pack (FVal.ofInt (sumDyad (macTerms acc ps)).1 (sumDyad (macTerms acc ps)).2) .rne 0).1 := by
  have numbers : ∀ v ∈ macTerms acc ps, ∃ q, v.num = some q := fun v hv => by
    obtain ⟨q, -, same⟩ := List.mem_map.1 (finite ▸ List.mem_map_of_mem hv : v.num ∈ qs.map some)
    exact ⟨q, same.symm⟩
  have finiteOnly (v : FVal) (h : v.num = none) : v ∉ macTerms acc ps := fun hv => by
    obtain ⟨q, hq⟩ := numbers v hv
    exact nomatch h.symm.trans hq
  rw [macF32_eq, if_neg fun h => h.elim (finiteOnly _ rfl) fun h => finiteOnly _ rfl h.1, if_neg (finiteOnly _ rfl), if_neg (finiteOnly _ rfl)]

/-- R75: the group sum of finite terms is exact, then rounded once. -/
theorem macF32_sum {qs : List ℚ} (finite : (macTerms acc ps).map FVal.num = qs.map some) :
    (qs.sum = 0 → macF32 acc ps = 0) ∧ (qs.sum ≠ 0 → ∃ neg m e,
      FVal.num (.fin neg m e) = some qs.sum ∧ macF32 acc ps = (f32.pack (.fin neg m e) .rne 0).1) := by
  rw [macF32_finite acc ps finite]
  have value := FVal.num_ofInt (sumDyad (macTerms acc ps)).1 (sumDyad (macTerms acc ps)).2
  have sum : ((sumDyad (macTerms acc ps)).1 : ℚ) * 2 ^ (sumDyad (macTerms acc ps)).2 = qs.sum := dyadRat_sumDyad finite
  rw [sum] at value
  constructor
  · intro zero
    rw [FVal.ofInt_eq_zero (sum.trans zero)]
    rfl
  · intro nonzero
    rcases FVal.num_eq_some.1 value with ⟨n, -, zero⟩ | ⟨neg, m, e, fin, -, -⟩
    · exact absurd zero nonzero
    · rw [fin] at value ⊢
      exact ⟨neg, m, e, value, rfl⟩

end

theorem clampInt_word (y : Int) : clampInt 32 true y = ((BitVec.ofInt 32 (max (-2 ^ 31) (min y (2 ^ 31 - 1)))).toNat,
    if y < -2 ^ 31 ∨ 2 ^ 31 ≤ y then Flag.saturated else 0) := by
  rw [clampInt_bits, if_pos rfl, if_pos rfl, show 32 - 1 = 31 from rfl]
  by_cases low : y < -2 ^ 31
  · rw [if_pos low, if_pos (.inl low), max_eq_left (by omega)]
  · by_cases high : 2 ^ 31 - 1 < y
    · rw [if_neg low, if_pos high, if_pos (.inr (by omega)), min_eq_right (by omega), max_eq_right (by omega)]
    · rw [if_neg low, if_neg high, if_neg (by omega), min_eq_left (by omega), max_eq_right (by omega)]

/-- R77: an integer group is exact, then clamped. -/
theorem macI32_eq (acc : W32) (zs : List Int) : macI32 acc.toNat zs =
    ((BitVec.ofInt 32 (max (-2 ^ 31) (min (acc.toInt + zs.sum) (2 ^ 31 - 1)))).toNat,
      decide (acc.toInt + zs.sum < -2 ^ 31 ∨ 2 ^ 31 ≤ acc.toInt + zs.sum)) := by
  unfold macI32
  rw [toSigned_toNat]
  generalize acc.toInt + zs.sum = y
  dsimp only
  rw [clampInt_word]
  refine congrArg (Prod.mk _) (decide_eq_decide.2 ?_)
  dsimp only
  split
  next h => exact iff_of_true (by decide) h
  next h => exact iff_of_false (not_not.2 rfl) h

/-! ## Zeroing (R251) -/

section
variable {s : State} {y : Nat}

theorem State.zeroAcc_frame (pair : Bool) :
    let t := s.zeroAcc pair y
    t = { s with tiles := { s.tiles with acc := t.tiles.acc, mode := t.tiles.mode } } := rfl

theorem State.zeroAcc_mode (pair : Bool) {e : Nat} (he : e < 16) : vget (s.zeroAcc pair y).tiles.mode e .none =
    if e = y ∨ (pair = true ∧ e = y + 1) then .none else vget s.tiles.mode e .none := by
  cases pair with
  | false =>
    refine (vget_vset_lt he).trans ?_
    simp only [Bool.false_eq_true, false_and, or_false]
  | true =>
    refine (vget_vset_lt he).trans ?_
    rw [vget_vset_lt he]
    simp only [true_and]
    grind

theorem State.zeroAcc_acc (pair : Bool) (wf : cellsWf s.tiles.acc = true) {e i : Nat} (hi : i < 32768) :
    cellGet (s.zeroAcc pair y).tiles.acc (32768 * e + i) =
      if e = y ∨ (pair = true ∧ e = y + 1) then 0 else cellGet s.tiles.acc (32768 * e + i) := by
  refine (cellGet_clear wf).trans (if_congr ?_ rfl rfl)
  cases pair with
  | false =>
    simp only [Bool.false_eq_true, false_and, or_false, if_false]
    omega
  | true =>
    simp only [true_and, if_true]
    omega

end

/-! ## The epilogue (R253) -/

theorem actIndex_le (v : FVal) : actIndex v ≤ 63 := by
  unfold actIndex
  split
  · omega
  · split <;> omega
  · omega
  · dsimp only
    omega

theorem actIndex_fin (neg : Bool) (m : Nat) (e : Int) : (actIndex (.fin neg m e) : Int) =
    max 0 (min 63 ⌊(((if neg then -1 else 1) * m * 2 ^ e + 8) * 4 : ℚ)⌋) := by
  have floor : ⌊(((if neg then -1 else 1) * m * 2 ^ e + 8) * 4 : ℚ)⌋ =
      (if neg then -(m : Int) else m) * 4 * 2 ^ e.toNat / 2 ^ (-e).toNat + 32 := by
    rw [signed_ratio]
    generalize (if neg then -(m : Int) else m) = a
    have shift : (((a * 2 ^ e.toNat : Int) : ℚ) / ((2 ^ (-e).toNat : Nat) : ℚ) + 8) * 4 =
        ((a * 4 * 2 ^ e.toNat : Int) : ℚ) / ((2 ^ (-e).toNat : Nat) : ℚ) + (32 : Int) := by
      push_cast
      ring
    rw [shift, Int.floor_add_intCast, Rat.floor_intCast_div_natCast]
    push_cast
    rfl
  rw [floor]
  unfold actIndex
  dsimp only
  omega

section
variable (s : State) (mode : AccMode) (a : W32) (n blk : Nat) (ctl : BitVec 9)

/-- The code that the epilogue starts from. -/
def epiStart : Nat × BitVec 6 := match mode with
  | .int => f32.pack (.ofZ a.toInt) .rne 0
  | .float => (a.toNat, 0)
  | .none => (0, 0)

/-- Scale and bias. -/
def State.epiScaled (x : Nat) : Nat × BitVec 6 :=
  if ctl.getLsbD 3 || ctl.getLsbD 4 then
    let sc := if ctl.getLsbD 3 then s.word32 (blk + 4 * n) else 0x3F800000
    if ctl.getLsbD 4 then f32.fmaB x sc (s.word32 (blk + (1024 + 4 * n))) false else f32.mulB x sc
  else (x, 0)

theorem State.epiScaled_none (x : Nat) (scl : ctl.getLsbD 3 = false) (bias : ctl.getLsbD 4 = false) :
    s.epiScaled n blk ctl x = (x, 0) := by
  rw [epiScaled, if_neg (by rw [scl, bias]; decide)]

theorem State.epiScaled_scale (x : Nat) (scl : ctl.getLsbD 3 = true) (bias : ctl.getLsbD 4 = false) :
    s.epiScaled n blk ctl x = f32.mulB x (s.word32 (blk + 4 * n)) := by
  rw [epiScaled, if_pos (by rw [scl, bias]; rfl)]
  dsimp only
  rw [if_neg (Bool.eq_false_iff.1 bias), if_pos scl]

theorem State.epiScaled_bias (x : Nat) (bias : ctl.getLsbD 4 = true) : s.epiScaled n blk ctl x =
    f32.fmaB x (if ctl.getLsbD 3 then s.word32 (blk + 4 * n) else 0x3F800000) (s.word32 (blk + (1024 + 4 * n))) false := by
  rw [epiScaled, if_pos (by rw [bias, Bool.or_true])]
  dsimp only
  rw [if_pos bias]

/-- Activation. -/
def State.epiActed (x : Nat) : Nat × BitVec 6 :=
  if ctl.getLsbD 5 then
    f32.fmaB (s.word32 (blk + (2048 + 8 * actIndex (f32.decode x)))) x (s.word32 (blk + (2052 + 8 * actIndex (f32.decode x)))) false
  else (x, 0)

theorem State.epi_plain (int : mode = .int) (scl : ctl.getLsbD 3 = false) (bias : ctl.getLsbD 4 = false)
    (act : ctl.getLsbD 5 = false) : s.epi mode a n ctl blk = (.inl a.toInt, 0) :=
  if_pos ⟨int, by rw [scl, bias, act]; rfl⟩

theorem State.epi_float (uses : mode ≠ .int ∨ ctl.getLsbD 3 = true ∨ ctl.getLsbD 4 = true ∨ ctl.getLsbD 5 = true) :
    let x0 := epiStart mode a
    let x1 := s.epiScaled n blk ctl x0.1
    let x2 := s.epiActed blk ctl x1.1
    s.epi mode a n ctl blk = (.inr x2.1, x0.2 ||| x1.2 ||| x2.2) := by
  have start : epiStart mode a =
      if mode = .int then f32.pack (.ofZ a.toInt) .rne 0 else if mode = .float then (a.toNat, 0) else (0, 0) := by
    cases mode <;> rfl
  rw [start]
  simp only [epiScaled, epiActed, ← Nat.add_assoc]
  refine if_neg fun ⟨int, h⟩ => ?_
  rw [Bool.not_eq_true', Bool.or_eq_false_iff, Bool.or_eq_false_iff] at h
  obtain ⟨⟨scl, bias⟩, act⟩ := h
  rw [scl, bias, act] at uses
  simp [int] at uses

end

end Sys2Proof.Machine
end

section
/-! A row of a drain: conversions, blocks of q4, and the bytes of the row (R252, R253, R72). -/

namespace Sys2Proof.Machine

/-! ## Conversion of an element -/

/-- The value that a conversion of a drain starts from. -/
def drainVal (v : Int ⊕ Nat) : FVal := match v with
  | .inl z => .ofZ z
  | .inr x => f32.decode x

theorem epiVal_eq : epiVal = drainVal := by
  funext v
  cases v <;> rfl

/-- The code of an element in a format other than q4, with its flags. -/
def drainCode (f : Nat) (md : Rnd) (nv : Bool) (v : Int ⊕ Nat) (u : Nat) : Nat × BitVec 6 := match v with
  | .inl z => match f with
    | 0 => f32.pack (.ofZ z) md u
    | 3 => bf16.pack (.ofZ z) md u
    | 4 => f16.pack (.ofZ z) md u
    | 7 => e4m3.pack8 (.ofZ z) md nv u
    | 8 => e5m2.pack8 (.ofZ z) md nv u
    | _ => clampInt (8 * fmtWidth f) (decide (f = 1 ∨ f = 5 ∨ f = 9)) z
  | .inr x => match f with
    | 0 => (x, 0)
    | 3 => bf16.pack (f32.decode x) md u
    | 4 => f16.pack (f32.decode x) md u
    | 7 => e4m3.pack8 (f32.decode x) md nv u
    | 8 => e5m2.pack8 (f32.decode x) md nv u
    | _ => cvtInt (f32.decode x) (8 * fmtWidth f) (decide (f = 1 ∨ f = 5 ∨ f = 9)) md u

theorem toFmt_eq {f : Nat} (hf : f < 16) (md : Rnd) (nv : Bool) (v : Int ⊕ Nat) (u : Nat) :
    toFmt f v md nv u = drainCode f md nv v u := by
  cases v <;> interval_cases f <;> simp [toFmt, drainCode, fmtWidth, epiVal]

theorem shFmt_lt (x : BitVec 24) : shFmt x < 16 := Nat.mod_lt _ (by decide)

/-! ## Lists of equal parts -/

theorem getD_flatMap_range {α : Type} {n k j i : Nat} {f : Nat → List α} {d : α} (hf : ∀ x, (f x).length = n) (hj : j < k)
    (hi : i < n) : ((List.range k).flatMap f).getD (n * j + i) d = (f j).getD i d := by
  rw [List.getD_eq_getElem?_getD, List.getD_eq_getElem?_getD, getElem?_flatMap_range hf hj hi]

theorem length_flatMap_range {α : Type} {n k : Nat} {f : Nat → List α} (hf : ∀ x, (f x).length = n) :
    ((List.range k).flatMap f).length = k * n := by
  rw [List.length_flatMap, List.map_congr_left fun x _ => hf x, List.map_const', List.sum_replicate, List.length_range, smul_eq_mul]

theorem codeBytes_getD : ∀ {l : List Nat} {b : Nat}, 2 * b + 1 < l.length →
    (codeBytes l).getD b 0 = BitVec.ofNat 8 (l.getD (2 * b) 0 + 16 * l.getD (2 * b + 1) 0)
  | [], _, h => absurd h (Nat.not_lt_zero _)
  | [_], b, h => absurd h (by rw [List.length_singleton]; omega)
  | _ :: _ :: _, 0, _ => rfl
  | a :: c :: r, b + 1, h => by
    rw [codeBytes, List.getD_cons_succ, codeBytes_getD (l := r) (by rw [List.length_cons, List.length_cons] at h; omega)]
    rfl

/-! ## A row of results -/

section
variable (f : Nat) (ctl : BitVec 9) (vs : Nat → (Int ⊕ Nat) × Nat) (n : Nat)

/-- Block `b` of a q4 row. -/
def drainBlock (b : Nat) : List Nat × Nat × BitVec 6 :=
  encodeBlock ((List.range 32).map fun i => drainVal (vs (32 * b + i)).1) (ctl.extractLsb' 7 2).toNat (Rnd.of (ctl.extractLsb' 0 2))
    ((List.range 32).map fun i => (vs (32 * b + i)).2)

theorem drainBlock_length (b : Nat) : (drainBlock ctl vs b).1.length = 32 := by
  rw [drainBlock, encodeBlock_length (by simp), List.length_map, List.length_range]

/-- Block `b` of a list of results. -/
theorem blocks32_range {α : Type} {k : Nat} (g : Nat → α) :
    blocks32 k ((List.range (32 * k)).map g) = (List.range k).map fun b => (List.range 32).map fun i => g (32 * b + i) := by
  refine List.map_congr_left fun b hb => ?_
  have := List.mem_range.1 hb
  refine List.ext_getElem (by simp; omega) fun i _ _ => ?_
  simp

theorem rowOut_q4 (k : Nat) : rowOut 0xB ctl ((List.range (32 * k)).map vs) =
    (codeBytes ((List.range k).flatMap fun b => (drainBlock ctl vs b).1) ++
      (List.range k).map (fun b => BitVec.ofNat 8 (drainBlock ctl vs b).2.1),
     (List.range k).foldl (fun fl b => fl ||| (drainBlock ctl vs b).2.2) 0) := by
  have blocks : (blocks32 (((List.range (32 * k)).map vs).length / 32) ((List.range (32 * k)).map vs)).map
      (fun b => encodeBlock (b.map fun v => epiVal v.1) (ctl.extractLsb' 7 2).toNat (Rnd.of (ctl.extractLsb' 0 2)) (b.map (·.2))) =
      (List.range k).map (drainBlock ctl vs) := by
    rw [List.length_map, List.length_range, Nat.mul_div_cancel_left _ (by decide), blocks32_range, List.map_map, epiVal_eq]
    refine List.map_congr_left fun b _ => ?_
    rw [Function.comp_apply, List.map_map, List.map_map]
    rfl
  rw [rowOut, if_pos rfl]
  dsimp only
  rw [blocks, List.flatMap_map, List.map_map, List.foldl_map]
  rfl

theorem rowOut_plain (hf : f < 16) (other : f ≠ 0xB) : rowOut f ctl ((List.range n).map vs) =
    ((List.range n).flatMap fun c => leBytes (fmtWidth f) (drainCode f (Rnd.of (ctl.extractLsb' 0 2)) (ctl.getLsbD 2) (vs c).1 (vs c).2).1,
     (List.range n).foldl (fun fl c => fl ||| (drainCode f (Rnd.of (ctl.extractLsb' 0 2)) (ctl.getLsbD 2) (vs c).1 (vs c).2).2) 0) := by
  rw [rowOut, if_neg other]
  dsimp only
  rw [List.map_map, List.flatMap_map, List.foldl_map]
  simp only [Function.comp_apply, toFmt_eq hf]

end

section
variable (sh : BitVec 24) (ctl : BitVec 9) (vs : Nat → (Int ⊕ Nat) × Nat)

/-- The result of element `d` of a row in a format other than q4. -/
def drainResult (d : Nat) : Nat × BitVec 6 :=
  drainCode (shFmt sh) (Rnd.of (ctl.extractLsb' 0 2)) (ctl.getLsbD 2) (vs d).1 (vs d).2

/-- Code `d` of a q4 row. -/
def drainDigit (d : Nat) : Nat := (drainBlock ctl vs (d / 32)).1.getD (d % 32) 0

/-- Byte `b` of a row. -/
def drainByte (b : Nat) : Byte :=
  if shFmt sh ≠ 0xB then (leBytes (fmtWidth (shFmt sh)) (drainResult sh ctl vs (b / fmtWidth (shFmt sh))).1).getD (b % fmtWidth (shFmt sh)) 0
  else if b < shCols sh then BitVec.ofNat 8 (drainDigit ctl vs (2 * b) + 16 * drainDigit ctl vs (2 * b + 1))
  else BitVec.ofNat 8 (drainBlock ctl vs (b - shCols sh)).2.1

/-- A row of a drain. -/
def drainRow : List Byte × BitVec 6 := rowOut (shFmt sh) ctl ((List.range (shElems sh)).map vs)

variable {sh}

theorem shElems_q4 (q4 : shFmt sh = 0xB) (whole : shCols sh % 16 = 0) : shElems sh = 32 * (shCols sh / 16) := by
  rw [shElems, if_pos q4]
  omega

theorem drainRow_q4 (q4 : shFmt sh = 0xB) (whole : shCols sh % 16 = 0) : drainRow sh ctl vs =
    (codeBytes ((List.range (shCols sh / 16)).flatMap fun b => (drainBlock ctl vs b).1) ++
      (List.range (shCols sh / 16)).map (fun b => BitVec.ofNat 8 (drainBlock ctl vs b).2.1),
     (List.range (shCols sh / 16)).foldl (fun fl b => fl ||| (drainBlock ctl vs b).2.2) 0) := by
  rw [drainRow, q4, shElems_q4 q4 whole, rowOut_q4]

theorem drainRow_plain (other : shFmt sh ≠ 0xB) : drainRow sh ctl vs =
    ((List.range (shCols sh)).flatMap fun c => leBytes (fmtWidth (shFmt sh)) (drainResult sh ctl vs c).1,
     (List.range (shCols sh)).foldl (fun fl c => fl ||| (drainResult sh ctl vs c).2) 0) := by
  rw [drainRow, shElems, if_neg other, rowOut_plain _ _ _ _ (shFmt_lt sh) other]
  rfl

theorem q4Codes_length (k : Nat) : (codeBytes ((List.range k).flatMap fun b => (drainBlock ctl vs b).1)).length = 16 * k := by
  rw [codeBytes_length, length_flatMap_range (drainBlock_length ctl vs)]
  omega

theorem q4Codes_getD {k b : Nat} (hb : b < 16 * k) : (codeBytes ((List.range k).flatMap fun b => (drainBlock ctl vs b).1)).getD b 0 =
    BitVec.ofNat 8 (drainDigit ctl vs (2 * b) + 16 * drainDigit ctl vs (2 * b + 1)) := by
  have digit (d : Nat) (hd : d < 32 * k) : ((List.range k).flatMap fun b => (drainBlock ctl vs b).1).getD d 0 = drainDigit ctl vs d := by
    have at_ := getD_flatMap_range (k := k) (j := d / 32) (i := d % 32) (d := 0) (drainBlock_length ctl vs) (by omega) (by omega)
    rwa [Nat.div_add_mod] at at_
  rw [codeBytes_getD (by rw [length_flatMap_range (drainBlock_length ctl vs)]; omega), digit _ (by omega), digit _ (by omega)]

variable (whole : shFmt sh = 0xB → shCols sh % 16 = 0)
include whole

theorem drainRow_length : (drainRow sh ctl vs).1.length = rowBytes sh := by
  by_cases q4 : shFmt sh = 0xB
  · rw [drainRow_q4 ctl vs q4 (whole q4), List.length_append, q4Codes_length, List.length_map, List.length_range, rowBytes, if_pos q4]
    have := whole q4
    omega
  · rw [drainRow_plain ctl vs q4, length_flatMap_range fun _ => leBytes_length _ _, rowBytes, if_neg q4]

theorem drainRow_getD {b : Nat} (hb : b < rowBytes sh) : (drainRow sh ctl vs).1.getD b 0 = drainByte sh ctl vs b := by
  by_cases q4 : shFmt sh = 0xB
  · have cols := whole q4
    rw [rowBytes, if_pos q4] at hb
    rw [drainRow_q4 ctl vs q4 cols, drainByte, if_neg (not_not.2 q4), List.getD_eq_getElem?_getD]
    dsimp only
    split
    next code =>
      rw [List.getElem?_append_left (by rw [q4Codes_length]; omega), ← List.getD_eq_getElem?_getD, q4Codes_getD _ _ (by omega)]
    next scale =>
      rw [List.getElem?_append_right (by rw [q4Codes_length]; omega), q4Codes_length,
        show b - 16 * (shCols sh / 16) = b - shCols sh by omega, List.getElem?_map, List.getElem?_range (by omega)]
      rfl
  · have width := (fmtWidth_bounds (shFmt sh)).1
    rw [rowBytes, if_neg q4] at hb
    rw [drainRow_plain ctl vs q4, drainByte, if_pos q4]
    have at_ := getD_flatMap_range (k := shCols sh) (j := b / fmtWidth (shFmt sh)) (i := b % fmtWidth (shFmt sh)) (d := (0 : Byte))
      (fun c => leBytes_length (fmtWidth (shFmt sh)) (drainResult sh ctl vs c).1) ((Nat.div_lt_iff_lt_mul width).2 hb) (Nat.mod_lt _ width)
    rwa [Nat.div_add_mod] at at_

theorem drainRow_flags (i : Nat) : (drainRow sh ctl vs).2.getLsbD i = true ↔ ∃ d < shElems sh,
    (shFmt sh ≠ 0xB ∧ (drainResult sh ctl vs d).2.getLsbD i = true) ∨
    (shFmt sh = 0xB ∧ (drainBlock ctl vs (d / 32)).2.2.getLsbD i = true) := by
  by_cases q4 : shFmt sh = 0xB
  · rw [drainRow_q4 ctl vs q4 (whole q4), shElems_q4 q4 (whole q4)]
    simp only [getLsbD_foldl_all, List.mem_range, ne_eq, q4, not_true_eq_false, false_and, true_and, false_or]
    constructor
    · rintro ⟨b, hb, set⟩
      exact ⟨32 * b, by omega, by rwa [Nat.mul_div_cancel_left _ (by decide)]⟩
    · rintro ⟨d, hd, set⟩
      exact ⟨d / 32, by omega, set⟩
  · rw [drainRow_plain ctl vs q4, shElems, if_neg q4]
    simp only [getLsbD_foldl_all, List.mem_range, ne_eq, q4, not_false_eq_true, false_and, true_and, or_false]

end

end Sys2Proof.Machine
end

section
/-! Drains (R252, R253). -/

namespace Sys2Proof.Machine

/-! ## The elements of a drain -/

section
variable (s : State) (pair tr : Bool) (y : Nat) (sh : BitVec 24) (ctl : BitVec 9) (blk : Nat) (seed : W64)

/-- Row of the accumulator element of destination element (r, c). -/
def drainM (r c : Nat) : Nat := if tr then c else r

/-- Column of the accumulator element of destination element (r, c). -/
def drainN (r c : Nat) : Nat := if tr then r else c

/-- Engine of the accumulator element of destination element (r, c). -/
def drainEngine (r c : Nat) : Nat := if pair = true ∧ 128 ≤ drainN tr r c then y + 1 else y

/-- Key of the accumulator element of destination element (r, c). -/
def drainKey (r c : Nat) : Nat := 32768 * drainEngine pair tr y r c + 128 * drainM tr r c + drainN tr r c % 128

/-- Destination element (r, c) before its conversion, with the flags of the epilogue. -/
def State.drainEl (r c : Nat) : (Int ⊕ Nat) × BitVec 6 :=
  s.epi (vget s.tiles.mode (drainEngine pair tr y r c) .none) (cellGet s.tiles.acc (drainKey pair tr y r c)) (drainN tr r c) ctl blk

/-- The draw of destination element (r, d). -/
def drainDraw (r d : Nat) : Nat :=
  if ctl.extractLsb' 0 2 = 2#2 then (drawList (shRows sh * shElems sh) seed).1.getD
    (drainM tr r d * (if tr then shRows sh else shElems sh) + drainN tr r d) 0 else 0

/-- The elements of row `r`, each with its draw. -/
def State.drainVs (r c : Nat) : (Int ⊕ Nat) × Nat := ((s.drainEl pair tr y ctl blk r c).1, drainDraw tr sh ctl seed r c)

/-- The bytes of a drain's image. -/
def State.drainBytes : List Byte := (List.range (shRows sh)).flatMap fun r => (drainRow sh ctl (s.drainVs pair tr y sh ctl blk seed r)).1

/-- The flags of row `r`. -/
def State.drainRowFlags (r : Nat) : BitVec 6 := (List.range (shElems sh)).foldl
  (fun fl c => fl ||| (s.drainEl pair tr y ctl blk r c).2) (drainRow sh ctl (s.drainVs pair tr y sh ctl blk seed r)).2

/-- The flags of a drain. -/
def State.drainFlags : BitVec 6 :=
  (List.range (shRows sh)).foldl (fun fl r => fl ||| s.drainRowFlags pair tr y sh ctl blk seed r) 0

/-- The accumulators that a drain leaves. -/
def State.drainAcc : List (Nat × W32) :=
  if ctl.getLsbD 6 then putCells s.tiles.acc ((List.range (shRows sh)).flatMap fun r =>
    (List.range (shElems sh)).map fun c => (drainKey pair tr y r c, 0#32)) else s.tiles.acc

theorem drainDraws_getD (n i : Nat) : (drainDraws ctl n seed).getD i 0 =
    if ctl.extractLsb' 0 2 = 2#2 then (drawList n seed).1.getD i 0 else 0 := by
  unfold drainDraws
  split
  · rw [Array.getD_eq_getD_getElem?, List.getElem?_toArray, ← List.getD_eq_getElem?_getD]
  · rfl

theorem State.drainOp_eq (t : Nat) (mem : Option Nat) : s.drainOp pair tr y t mem sh ctl blk seed =
    let u : State := { s with tiles.acc := s.drainAcc pair tr y sh ctl }
    let bytes := s.drainBytes pair tr y sh ctl blk seed
    let v : State := match mem with
      | some a => u.storeEng a bytes
      | none => { u with tiles.bytes := putCells u.tiles.bytes ((imageKeys t sh false).zip bytes) }
    v.orLate (s.drainFlags pair tr y sh ctl blk seed) 0 := by
  unfold drainOp
  have engine (n : Nat) : (if (pair && decide (128 ≤ n)) = true then y + 1 else y) = if pair = true ∧ 128 ≤ n then y + 1 else y :=
    if_congr (by rw [Bool.and_eq_true, decide_eq_true_eq]) rfl rfl
  simp only [engine, accKey_eq, drainDraws_getD, List.map_map, List.foldl_map]
  by_cases clear : ctl.getLsbD 6 = true
  · rw [if_pos clear, drainAcc, if_pos clear]
    cases tr <;> cases mem <;> rfl
  · rw [if_neg clear, drainAcc, if_neg clear]
    cases tr <;> cases mem <;> rfl

theorem State.orLate_flags (flags : BitVec 6) : s.orLate flags 0 = { s with late := { s.late with flags := s.late.flags ||| flags } } := by
  have same : s.late.sat ||| (0 : W16) = s.late.sat := BitVec.or_zero
  rw [orLate, same]

theorem State.drainOp_tile (t : Nat) : s.drainOp pair tr y t none sh ctl blk seed = { s with
    tiles := { s.tiles with
      bytes := putCells s.tiles.bytes ((imageKeys t sh false).zip (s.drainBytes pair tr y sh ctl blk seed)),
      acc := s.drainAcc pair tr y sh ctl },
    late := { s.late with flags := s.late.flags ||| s.drainFlags pair tr y sh ctl blk seed } } := by
  rw [drainOp_eq]
  exact orLate_flags _ _

theorem State.drainOp_mem (t a : Nat) : s.drainOp pair tr y t (some a) sh ctl blk seed = { s with
    tiles := { s.tiles with acc := s.drainAcc pair tr y sh ctl },
    mem := { s.mem with
      loc := putBytes s.mem.loc a (s.drainBytes pair tr y sh ctl blk seed),
      undo := keepOld s.mem.undo s.mem.loc a (s.drainBytes pair tr y sh ctl blk seed).length },
    late := { s.late with flags := s.late.flags ||| s.drainFlags pair tr y sh ctl blk seed } } := by
  rw [drainOp_eq]
  exact orLate_flags _ _

theorem State.drainOp_frame (t : Nat) (mem : Option Nat) :
    let u := s.drainOp pair tr y t mem sh ctl blk seed
    u = { s with
      tiles := { s.tiles with bytes := u.tiles.bytes, acc := u.tiles.acc }, mem := u.mem, late.flags := u.late.flags } := by
  cases mem with
  | none => rw [drainOp_tile]
  | some a => rw [drainOp_mem]

theorem State.drainOp_acc (t : Nat) (mem : Option Nat) :
    (s.drainOp pair tr y t mem sh ctl blk seed).tiles.acc = s.drainAcc pair tr y sh ctl := by
  cases mem with
  | none => rw [drainOp_tile]
  | some a => rw [drainOp_mem]

theorem State.drainOp_flags (t : Nat) (mem : Option Nat) : (s.drainOp pair tr y t mem sh ctl blk seed).late.flags =
    s.late.flags ||| s.drainFlags pair tr y sh ctl blk seed := by
  cases mem with
  | none => rw [drainOp_tile]
  | some a => rw [drainOp_mem]

/-- CLR zeroes the elements drained and no others. -/
theorem State.drainAcc_get (wf : cellsWf s.tiles.acc = true) (k : Nat) : cellGet (s.drainAcc pair tr y sh ctl) k =
    if ctl.getLsbD 6 = true ∧ ∃ r < shRows sh, ∃ d < shElems sh, k = drainKey pair tr y r d then 0 else cellGet s.tiles.acc k := by
  unfold drainAcc
  by_cases clear : ctl.getLsbD 6 = true
  · rw [if_pos clear, cellGet_putCells_if (p := ∃ r < shRows sh, ∃ d < shElems sh, k = drainKey pair tr y r d) (v := 0) wf]
    · simp only [clear, true_and]
    · simp only [List.mem_flatMap, List.mem_map, List.mem_range]
      constructor
      · rintro ⟨c, ⟨r, hr, d, hd, rfl⟩, rfl⟩
        exact ⟨r, hr, d, hd, rfl⟩
      · rintro ⟨r, hr, d, hd, rfl⟩
        exact ⟨_, ⟨r, hr, d, hd, rfl⟩, rfl⟩
    · simp only [List.mem_flatMap, List.mem_map, List.mem_range]
      rintro c ⟨r, -, d, -, rfl⟩ -
      rfl
  · rw [if_neg clear, if_neg fun h => clear h.1]

variable {sh} (whole : shFmt sh = 0xB → shCols sh % 16 = 0)
include whole

theorem State.drainBytes_length : (s.drainBytes pair tr y sh ctl blk seed).length = shRows sh * rowBytes sh :=
  length_flatMap_range fun _ => drainRow_length ctl _ whole

theorem State.drainBytes_getD {r b : Nat} (hr : r < shRows sh) (hb : b < rowBytes sh) :
    (s.drainBytes pair tr y sh ctl blk seed).getD (r * rowBytes sh + b) 0 =
      drainByte sh ctl (s.drainVs pair tr y sh ctl blk seed r) b := by
  rw [Nat.mul_comm, ← drainRow_getD ctl _ whole hb]
  exact getD_flatMap_range (fun _ => drainRow_length ctl _ whole) hr hb

/-- The image of a drain into a tile. -/
theorem State.drainOp_written (wf : cellsWf s.tiles.bytes = true) (t : Nat) {r b : Nat} (hr : r < shRows sh) (hb : b < rowBytes sh) :
    cellGet (s.drainOp pair tr y t none sh ctl blk seed).tiles.bytes (tileKey t (1024 * r + rowOffset sh b)) =
      drainByte sh ctl (s.drainVs pair tr y sh ctl blk seed r) b := by
  rw [drainOp_tile, ← s.drainBytes_getD pair tr y ctl blk seed whole hr hb]
  exact (putCells_image wf (s.drainBytes_length pair tr y ctl blk seed whole)).1 _ _ ⟨r, hr, b, hb, rfl, rfl⟩

theorem State.drainOp_kept (wf : cellsWf s.tiles.bytes = true) (t : Nat) {k : Nat}
    (apart : ∀ r < shRows sh, ∀ b < rowBytes sh, k ≠ tileKey t (1024 * r + rowOffset sh b)) :
    cellGet (s.drainOp pair tr y t none sh ctl blk seed).tiles.bytes k = cellGet s.tiles.bytes k := by
  rw [drainOp_tile]
  refine (putCells_image wf (s.drainBytes_length pair tr y ctl blk seed whole)).2 k ?_
  rintro p _ ⟨r, hr, b, hb, rfl, rfl⟩
  exact apart r hr b hb

theorem State.drainFlags_bit (i : Nat) : (s.drainFlags pair tr y sh ctl blk seed).getLsbD i = true ↔
    ∃ r < shRows sh, ∃ d < shElems sh, (s.drainEl pair tr y ctl blk r d).2.getLsbD i = true ∨
      (shFmt sh ≠ 0xB ∧ (drainResult sh ctl (s.drainVs pair tr y sh ctl blk seed r) d).2.getLsbD i = true) ∨
      (shFmt sh = 0xB ∧ (drainBlock ctl (s.drainVs pair tr y sh ctl blk seed r) (d / 32)).2.2.getLsbD i = true) := by
  have row (r : Nat) : (s.drainRowFlags pair tr y sh ctl blk seed r).getLsbD i = true ↔
      (drainRow sh ctl (s.drainVs pair tr y sh ctl blk seed r)).2.getLsbD i = true ∨
        ∃ d < shElems sh, (s.drainEl pair tr y ctl blk r d).2.getLsbD i = true := by
    refine (getLsbD_foldl_or (fun _ => true) (fun d => (s.drainEl pair tr y ctl blk r d).2) _ _).trans ?_
    simp only [List.mem_range, true_and]
  rw [drainFlags, getLsbD_foldl_all]
  simp only [List.mem_range, row, drainRow_flags ctl _ whole]
  refine exists_congr fun r => and_congr_right fun _ => ?_
  rw [← exists_or]
  refine exists_congr fun d => ?_
  rw [← and_or_left, or_comm]

end

end Sys2Proof.Machine
end

section
/-! Direct matrix commands performed (R248 to R253). -/

namespace Sys2Proof.Machine

section
variable {s : State} {c : MCmd} {pair tr z : Bool} {y x : BitVec 4} {mem : Option Nat} {mf : BitVec 3} {ctl : BitVec 9} {blk : Nat}

theorem State.doMatrix_load (h : c.op = .load pair y x mem mf) :
    s.doMatrix c = s.weightLoad pair y.toNat (rowSrc x mem) c.shape mf := by
  rw [doMatrix, h]

theorem State.doMatrix_activate (h : c.op = .activate pair y) : s.doMatrix c = s.activate pair y.toNat := by
  rw [doMatrix, h]

theorem State.doMatrix_stream (h : c.op = .stream pair y x mem mf z) :
    s.doMatrix c = s.streamOp pair y.toNat (rowSrc x mem) c.shape mf z := by
  rw [doMatrix, h]

theorem State.doMatrix_zero (h : c.op = .zero pair y) : s.doMatrix c = s.zeroAcc pair y.toNat := by
  rw [doMatrix, h]

theorem State.doMatrix_drain (h : c.op = .drain pair tr y x mem ctl blk) :
    s.doMatrix c = s.drainOp pair tr y.toNat x.toNat mem c.shape ctl blk c.seed := by
  rw [doMatrix, h]

end

/-- Settles O23: completion and checks, then each operation by what it leaves of the stores that it writes. -/
theorem matrixCommandsPerformed : Obligations.MatrixCommandsPerformed := by
  unfold Obligations.MatrixCommandsPerformed
  refine ⟨?slots, ?completes, ?checks, ?weights, ?groups, ?zeroes, ?epilogue, ?drains⟩
  case slots =>
    intro s g y on
    obtain ⟨-, -, single, -⟩ := State.matrixSlot_commandSlot (s := s) (g := g) (y := y) (pair := false) (x := none)
      (op := .zero false y) (sh := 0)
    obtain ⟨-, -, pairs, -⟩ := State.matrixSlot_commandSlot (s := s) (g := g) (y := y) (pair := true) (x := none)
      (op := .zero true y) (sh := 0)
    exact ⟨fun room => single room on rfl, fun room => pairs room on rfl⟩
  case completes =>
    intro s c run here begun e
    have done := matrixComplete_finishes run here begun
    exact ⟨fun ok => done.trans (congrArg _ (State.finishM_done (s := e) ok)),
      fun bad last => done.trans (congrArg _ (State.finishM_refused (s := e) bad last))⟩
  case checks =>
    intro s sh pair tr z y x mem mf ctl blk known
    exact s.matrixOk_iff sh pair tr z y x mem mf ctl blk known
  case weights =>
    intro s c pair y x mem mf z sh rows t hit width operand weight accOf ok
    refine ⟨fun load wf => ?_, fun activate active shadow => ?_, fun stream wf => ?_⟩
    · have fits := ((s.loadOk_iff sh pair y x mem mf).1 (load ▸ ok)).1
      have result : t = s.weightLoad pair y.toNat (rowSrc x mem) sh mf := State.doMatrix_load load
      rw [result]
      exact ⟨State.weightLoad_frame pair _, fun e he => ⟨State.weightLoad_latch pair _ he,
        fun n hn k hk => State.weightLoad_weight pair wf fits hn hk⟩⟩
    · have result : t = s.activate pair y.toNat := State.doMatrix_activate activate
      rw [result]
      refine ⟨State.activate_frame pair, fun e he => ⟨State.activate_latch pair he, fun n hn k hk => ?_⟩⟩
      have byte := State.activate_weight (s := s) (y := y.toNat) (e := e) pair active shadow (i := 512 * n + k) (by omega)
      rwa [← Nat.add_assoc] at byte
    · intro groups int real whole start after saturates
      have result : t = s.streamOp pair y.toNat (rowSrc x mem) sh mf z := State.doMatrix_stream stream
      rw [result]
      refine ⟨State.streamOp_frame pair, fun e he => ⟨?_, ?_, fun m hm n hn => State.streamOp_acc pair wf hm hn⟩⟩
      · refine (State.streamOp_mode pair he).trans (if_congr Iff.rfl ?_ rfl)
        exact (family_eq mf).trans (if_congr decide_eq_true_iff.symm rfl rfl)
      · refine (State.streamOp_sat pair wf he).trans (or_congr_right (and_congr_right fun _ => and_congr_left fun _ => ?_))
        exact (mfInt_iff mf).trans decide_eq_true_iff.symm
  case groups =>
    intro acc ps zs num vs r
    have number : num = FVal.num := by
      funext v
      cases v <;> rfl
    clear_value num
    subst number
    have result : r = _ := macF32_eq acc.toNat ps
    refine ⟨fun nan => result.trans (if_pos nan), fun numbers no inf => ?_, fun numbers no inf => ?_, fun qs finite => ?_,
      macI32_eq acc zs⟩
    · exact result.trans ((if_neg fun h => h.elim numbers fun both => no both.2).trans (if_pos inf))
    · exact result.trans ((if_neg fun h => h.elim numbers fun both => no both.1).trans ((if_neg no).trans (if_pos inf)))
    · exact macF32_sum acc.toNat ps finite
  case zeroes =>
    intro s c y pair op _ wf t hit
    have result : t = s.zeroAcc pair y.toNat := State.doMatrix_zero op
    rw [result]
    exact ⟨fun e _ i hi here => (State.zeroAcc_acc pair wf hi).trans (if_pos here),
      fun e _ i hi other => (State.zeroAcc_acc pair wf hi).trans (if_neg other),
      fun e he => State.zeroAcc_mode pair he, State.zeroAcc_frame pair⟩
  case epilogue =>
    intro s mode a n blk ctl scl bias act word
    refine ⟨fun int noScl noBias noAct => s.epi_plain mode a n blk ctl int noScl noBias noAct, fun uses =>
      ⟨epiStart mode a, s.epiScaled n blk ctl (epiStart mode a).1, s.epiActed blk ctl (s.epiScaled n blk ctl (epiStart mode a).1).1,
        s.epi_float mode a n blk ctl uses, rfl, fun noScl noBias => ?_, fun hasScl noBias => ?_, fun hasBias => ?_, fun noAct => ?_,
        fun hasAct => ?_⟩⟩
    · exact s.epiScaled_none n blk ctl _ noScl noBias
    · exact s.epiScaled_scale n blk ctl _ hasScl noBias
    · exact s.epiScaled_bias n blk ctl _ hasBias
    · exact if_neg (Bool.eq_false_iff.1 noAct)
    · refine ⟨actIndex (f32.decode (s.epiScaled n blk ctl (epiStart mode a).1).1), actIndex_le _, if_pos hasAct, ?_⟩
      generalize f32.decode (s.epiScaled n blk ctl (epiStart mode a).1).1 = v
      cases v with
      | nan => rfl
      | inf neg => rfl
      | zero neg => rfl
      | fin neg m e => exact actIndex_fin neg m e
  case drains =>
    intro s c pair tr y x mem ctl blk op ok acc bytes whole sh f w rows cols rb md nv t am an ae key el draw code val block digit out place
    have codes : code = drainCode f md nv := by
      funext v u
      cases v <;> rfl
    have vals : val = drainVal := by
      funext v
      cases v <;> rfl
    have result : t = s.drainOp pair tr y.toNat x.toNat mem sh ctl blk c.seed := State.doMatrix_drain op
    clear_value code val
    subst codes vals
    have places (r b : Nat) : place r b = tileKey x.toNat (1024 * r + rowOffset sh b) := by
      rw [tileKey, Nat.mul_comm, ← Nat.add_assoc]
      rfl
    rw [result]
    refine ⟨State.drainOp_frame .., fun toTile => ?_, fun a toMem => ?_, fun k => ?_, fun i _ => ?_⟩
    · subst toTile
      refine ⟨?_, fun r hr b hb => ?_, fun k apart => ?_⟩
      · rw [State.drainOp_tile]
      · rw [places]
        exact s.drainOp_written pair tr y.toNat ctl blk c.seed whole bytes x.toNat hr hb
      · exact s.drainOp_kept pair tr y.toNat ctl blk c.seed whole bytes x.toNat fun r hr b hb => places r b ▸ apart r hr b hb
    · subst toMem
      rw [State.drainOp_mem]
      exact ⟨rfl, rfl, _, rfl, s.drainBytes_length pair tr y.toNat ctl blk c.seed whole,
        fun r hr b hb => s.drainBytes_getD pair tr y.toNat ctl blk c.seed whole hr hb⟩
    · rw [State.drainOp_acc]
      exact s.drainAcc_get pair tr y.toNat sh ctl acc k
    · rw [State.drainOp_flags, BitVec.getLsbD_or, Bool.or_eq_true]
      exact or_congr_right (s.drainFlags_bit pair tr y.toNat ctl blk c.seed whole i)

end Sys2Proof.Machine
end
